-- ==== Sys2Proof/Word.lean ====
section
/-! DEFINITION. The word types of the TGA880: the 32-bit Lattice word (R80), the 64-bit queue word (R114)
and the byte. -/

namespace Sys2Proof

/-- One Lattice register word (R80). -/
abbrev Word := BitVec 32

/-- One byte of a store, a frame or a record. -/
abbrev Byte := BitVec 8

/-- The 64 data bits of a queue word (R114). -/
abbrev QData := BitVec 64

end Sys2Proof
end

