-- ==== Sys2Proof/Syntax.lean ====
section
/-! DEFINITION. The commands of the block: one constructor per row of spec/opcode_table.json, and the types of
their operands. A row that writes a group command register carries the issuing agent and the 24-bit argument
(03_lattice.md, `<GRP>_CMD`); a row that is an event of the outside world carries what the device measures or
receives at that event. -/

namespace Sys2Proof

/-- The agents A0 to A5 (01_architecture.md, Agents). -/
inductive Agent where
  | boot | core | host | headend | service | kaolin
deriving DecidableEq, Repr

/-- The 16 Lattice groups by number (01_architecture.md, The Lattice). -/
inductive Group where
  | sys | tim | que | mtr | bil | evc | kao | lsw | plc | aul | key | tag | pnl | sto | img | rsvd
deriving DecidableEq, Repr

/-- How a word read out of the queue SRAM checks (R129, R130). -/
inductive WordCheck where
  | good | single | double
deriving DecidableEq, Repr

/-- The samples one front-end die sends for one sample instant: for each of its 32 channels the path A code and
the path F code (a voltage-path channel has one modulator and repeats its code), R167, R170. -/
structure SampleFrame where
  /-- (path A code, path F code) of the die's channels, in channel order -/
  codes : List (Int × Int)
  /-- the transfer's CRC checked, at the first attempt or at its one retry (R21) -/
  firstOk : Bool
  retryOk : Bool
  /-- the crossing into the die's island was still busy (R108, R169) -/
  overrun : Bool
deriving DecidableEq, Repr

/-- What connector control and the load-switch monitor measure for slice n in one control cycle. -/
structure CycleMeas where
  /-- pilot high and low level in mV (R251) -/
  highMv : Int
  lowMv  : Int
  /-- resistance between PPn and PE in ohm (R254) -/
  ppOhm  : Nat
  /-- the line die's transfer succeeded (R21) -/
  linkOk : Bool
  /-- output current in mA and junction temperature in degC of LSWn and of LSW(8+n) (R335) -/
  coilMa : Nat
  coilTj : Int
  poolMa : Nat
  poolTj : Int
deriving DecidableEq, Repr

/-- A CAN frame on a port (R275). -/
structure CanFrame where
  ext  : Bool
  id   : BitVec 29
  data : List Byte
deriving DecidableEq, Repr

/-- A frame of the narrowband mesh (R361). -/
structure MeshFrame where
  ftype   : Byte
  flags   : Byte
  cell    : BitVec 16
  lsrc    : BitVec 16
  ldst    : BitVec 16
  origin  : BitVec 16
  dest    : BitVec 16
  hops    : Byte
  age     : BitVec 16
  msgId   : Word
  hcheck  : BitVec 16
  payload : List Byte
  mac     : BitVec 64
  fcheck  : Word
deriving DecidableEq, Repr

/-- What the mesh receiver measures over a frame (R363, R367), SNR in dB per tone. -/
structure RxMeas where
  refLo : Int
  refHi : Int
  /-- SNR of the lower and the upper tone in each window of 8 bits after the sync -/
  windows : List (Int × Int)
  /-- the tone pair the frame came on, 0 to 3 (R359, R362) -/
  pair : Nat
deriving DecidableEq, Repr

/-- One bit of the zero-crossing channel (R379). -/
inductive ZxBit where
  | one | zero | erasure
deriving DecidableEq, Repr

/-- A card in the reader's field (R417, R439). -/
structure Card where
  typeB : Bool
  uid   : List Byte
  atqa  : BitVec 16
  sak   : Byte
  part4 : Bool
deriving DecidableEq, Repr

/-- What a Part 4 exchange with the card gives (R418, R439). -/
inductive CardAnswer where
  | bytes (b : List Byte)
  | error
  /-- the card is gone -/
  | lost
  /-- no answer yet: what READER_EXCHANGE_TIMEOUT ends -/
  | silent
deriving DecidableEq, Repr

/-- The protection of a service tag frame: its counter and its CCM tag (R427). -/
structure SvcProt where
  counter : Word
  mac     : BitVec 128
deriving DecidableEq, Repr

/-- Where a field collapse falls in a field write (R434); in the last three the stored energy fails as well, before
the marker, after it, and after the primary block (R435). -/
inductive Collapse where
  | none | beforeStep1 | inStep1 | afterMarker | afterReply
  | deadBeforeMarker | deadAfterMarker | deadAfterPrimary
deriving DecidableEq, Repr

/-- One access of a Lattice request: a write carries its data (R375, R487). -/
structure Access where
  addr  : Word
  write : Option Word
deriving DecidableEq, Repr

/-- A frame of the Aulan ring (R486, R487). -/
structure RingFrame where
  cls     : Fin 4
  ftype   : BitVec 6
  dest    : Byte
  source  : Byte
  hops    : Byte
  queue   : Byte
  payload : List QData
  /-- the CRC checked, and the frame ended with EOF and not EOF_BAD -/
  crcOk   : Bool
  eofBad  : Bool
deriving DecidableEq, Repr

/-- What the reset inputs and the supplies show when a cold reset begins (R520, R523). -/
inductive ColdCause where
  | powerOn | brownout | resetN
deriving DecidableEq, Repr

/-- The causes of a Kaolin internal fault (R286, KAO_STATUS.internal). -/
inductive KaoInternal where
  | dualRail | supply | overtemp | kenDriver | cell
deriving DecidableEq, Repr

/-- The causes of a panel fault other than an island reset (R445). -/
inductive PanelFaultCause where
  | powerGoodFell | pixelClockLost
deriving DecidableEq, Repr

/-- What a housekeeping scan reads (R525), in mV. -/
structure HkReadings where
  hk    : List Nat
  vmain : Nat
  vsilt : Nat
  vpos  : Int
  vneg  : Int
deriving DecidableEq, Repr

/-- The capture sources of TIM_CAP_CTRL.source (R163), by number. -/
abbrev CapSource := Fin 21

/-- A queue that a consumer reads out, and how each of the words checks (R129). -/
structure Take where
  q      : Fin 64
  checks : List WordCheck
deriving DecidableEq, Repr

/-- The protection of a DATA command of the service tag, and how the words of the queue it reads out check. -/
structure SvcTake where
  prot   : SvcProt
  checks : List WordCheck
deriving DecidableEq, Repr

/-- A mesh transmission is due: the site time of the last positive-going crossing (R360), and how the words of a queue that
is read out check. -/
structure MeshStart where
  zx     : Nat
  checks : List WordCheck
deriving DecidableEq, Repr

/-- A positive-going crossing: its site time, and the crossings since the deferral began (R360). -/
structure Crossing where
  zx     : Nat
  cycles : Nat
deriving DecidableEq, Repr

/-- A harmonic window: its mains cycles and, for each channel, the harmonics 1 to 63 (R182). -/
structure HarmWindow where
  cycles  : Nat
  results : List (Nat × List Nat)
deriving DecidableEq, Repr

/-- THE COMMANDS: one constructor per row of spec/opcode_table.json, in the table's order. -/
inductive Instr where
  -- Lattice, functions, islands, structure image
  | latticeWrite (ag : Agent) (addr data : Word)
  | flagsRead (ag : Agent) (addr : Word)
  | flagsClearWrite (ag : Agent) (addr data : Word)
  | wideReadCapture (ag : Agent) (addr : Word)
  | funcStop (ag : Agent) (g : Group) (arg : BitVec 24)
  | funcStart (ag : Agent) (g : Group) (arg : BitVec 24)
  | funcRestart (ag : Agent) (g : Group) (arg : BitVec 24)
  | islandStop (ag : Agent) (arg : BitVec 24)
  | islandStart (ag : Agent) (arg : BitVec 24)
  | islandReset (ag : Agent) (arg : BitVec 24)
  | warmReset (ag : Agent) (arg : BitVec 24)
  | islandClockLoss (isl : Fin 16)
  | stallDetect
  | siVerify (ag : Agent) (arg : BitVec 24)
  | siReload (ag : Agent) (arg : BitVec 24)
  | siReloadSwap
  | autoFunctionStart
  -- queues
  | queuePortWrite (q : Fin 64) (data : QData) (mark : Bool)
  | queuePortRead (q : Fin 64) (checks : List WordCheck)
  | noticeHoldExpiry (q : Fin 64)
  | producerRoomAvailable (q : Fin 64)
  | idQuarantineEnd (space : Fin 13)
  | queFlush (ag : Agent) (arg : BitVec 24)
  | queCountClear (ag : Agent) (arg : BitVec 24)
  | storeMessage (q : Fin 64) (checks : List WordCheck)
  -- metrology
  | sampleTransfer (dieB : Bool) (f : SampleFrame)
  | pathMismatch (ch : Fin 64)
  | afeReferenceFault (dieB : Bool)
  | controlCycle (n : Fin 8) (m : CycleMeas)
  | metrologyPeriodBoundary (cycles : List (Nat × Nat))
  | midPeriodReading (n : Fin 8)
  | harmonicWindowEnd (u : Fin 9) (w : HarmWindow)
  | urmsRefresh (u : Fin 9) (phase : Fin 3) (uv : Nat)
  | pulseEmit (p : Fin 4)
  | capture (ag : Agent) (arg : BitVec 24)
  | captureComplete (n : Fin 8)
  | pqCountClear (ag : Agent) (arg : BitVec 24)
  | calibrationWrite (ag : Agent) (addr data : Word)
  | mtrGainWrite (ag : Agent) (addr data : Word)
  -- billing
  | billingCfgWrite (ag : Agent) (addr data : Word)
  | readSigned (ag : Agent) (arg : BitVec 24)
  | mdReset (ag : Agent) (arg : BitVec 24)
  | calArm (ag : Agent) (arg : BitVec 24)
  | calCancel (ag : Agent) (arg : BitVec 24)
  | overrideCmd (ag : Agent) (arg : BitVec 24)
  | signatureComplete
  -- site time
  | leapApply
  | wholeSecond
  | servoIntervalEnd
  | timOffsetWrite (ag : Agent) (data : Word)
  | timeSet (ag : Agent) (arg : BitVec 24)
  | timeAdjust (ag : Agent) (arg : BitVec 24)
  | alarmCancel (ag : Agent) (arg : BitVec 24)
  | timeStepApply
  | cmpArm (ag : Agent) (c : Fin 16) (target : Word)
  | cmpDisarm (ag : Agent) (c : Fin 16) (ctrl : Word)
  | cmpFire (c : Fin 16)
  | almArm (ag : Agent) (a : Fin 8) (hi : Word)
  | almFire (a : Fin 8)
  | captureEdge (src : CapSource) (rising : Bool)
  -- connector control
  | authorize (ag : Agent) (arg : BitVec 24)
  | deny (ag : Agent) (arg : BitVec 24)
  | evcStop (ag : Agent) (arg : BitVec 24)
  | suspend (ag : Agent) (arg : BitVec 24)
  | resume (ag : Agent) (arg : BitVec 24)
  | faultClear (ag : Agent) (arg : BitVec 24)
  | authTimeout (n : Fin 8)
  | preauthExpiry (n : Fin 8)
  | pwmFallback (n : Fin 8)
  | lockConfirmTimeout (n : Fin 8)
  | contactorEnergize (n : Fin 8)
  | closeTimeout (n : Fin 8)
  | energizeTimeout (n : Fin 8)
  | stopWaitEnd (n : Fin 8)
  | openConfirmTimeout (n : Fin 8)
  | sessionEndReading (n : Fin 8)
  | feedbackChange (n : Fin 8) (closed : Bool)
  | evOvercurrent (n : Fin 8)
  | moduleLost (n : Fin 8)
  | dcStatusFrame (port : Fin 2) (f : CanFrame)
  | canFrameRx (port : Fin 2) (f : CanFrame)
  | canFrameTx (port : Fin 2) (q : Take)
  | evcPilotDriverFault (n : Fin 8)
  | authMessage (n : Fin 8) (q : Take)
  | slacParmRequest (n : Fin 8) (mac : BitVec 48) (atten : Nat)
  | slacMatch (n : Fin 8)
  | slacLost (n : Fin 8)
  | gpFrameRx (n : Fin 8) (bytes : List Byte)
  | gpFrameTx (n : Fin 8) (q : Take)
  -- Kaolin
  | kaolinSourceActive (n : Fin 8) (src : Fin 16)
  | kaolinSourceInactive (n : Fin 8) (src : Fin 16)
  | closeRequest (n : Fin 8)
  | closeWithdraw (n : Fin 8)
  | releaseWindowEnd (n : Fin 8)
  | rearm (n : Fin 8)
  | heartbeatWrite (ag : Agent) (data : Word)
  | heartbeatPoll
  | heartbeatLost
  | graceEnd
  | xcheckEvaluate (n : Fin 8)
  | resSelftestStart (n : Fin 8)
  | resTestComplete (n : Fin 8) (pass : Bool)
  | resTestExpire (n : Fin 8)
  | escalationWindowEnd (n : Fin 8)
  | imdMeasurement (i : Fin 4) (kohm : Nat) (settled : Bool)
  | kaolinInternalFault (cause : KaoInternal)
  | switchSelftestComplete
  | confirm (ag : Agent) (arg : BitVec 24)
  | lockRelease (ag : Agent) (arg : BitVec 24)
  | resTest (ag : Agent) (arg : BitVec 24)
  | tripTest (ag : Agent) (arg : BitVec 24)
  | tripTestForceEnd (n : Fin 8)
  -- load switches
  | swOn (ag : Agent) (arg : BitVec 24)
  | swOff (ag : Agent) (arg : BitVec 24)
  | swRelease (ag : Agent) (arg : BitVec 24)
  | inrushEnd (c : Fin 16)
  | shortDetect (c : Fin 16)
  | overloadDetect (c : Fin 16)
  | thermalLatch (c : Fin 16)
  | thermalAutoRelease (c : Fin 16) (tj : Int)
  | backoffEnd (c : Fin 16)
  | retryBudgetReset (c : Fin 16)
  | vlswUndervoltage (g : Fin 4)
  | vlswRecover (g : Fin 4)
  | loadShed (avgMa : Nat)
  | limpChange (active : Bool)
  | linInputChange (i : Fin 8) (level : Bool)
  -- power-line mesh and zero-crossing channel
  | meshFrameRx (f : MeshFrame) (m : RxMeas)
  | meshTransmit (tones : Nat × Nat) (x : MeshStart)
  | meshDeferEnd (tones : Nat × Nat) (x : Crossing)
  | meshTxComplete (limits : List Bool) (rest : Nat)
  | ackTimeout
  | beaconPeriod
  | pairChangeBeacon
  | neighbourExpiry (addr : BitVec 16)
  | penaltyDecay
  | headendLatticeRequest (f : MeshFrame)
  | meshSignedReading (q : Take)
  | routeClear (ag : Agent) (arg : BitVec 24)
  | plcCountClear (ag : Agent) (arg : BitVec 24)
  | beacon (ag : Agent) (arg : BitVec 24)
  | zxMessage (cycles : List Int)
  | zxAuthenticated
  | disconnect (mask : Byte)
  | reconnect (mask : Byte)
  | stopCharging (mask : Byte)
  | loadLimit (mask : Byte) (params : Word)
  | tariffOverride (mask : Byte) (params : Word)
  | ping
  | zxConfirmation
  -- key store
  | keyStage (ag : Agent) (arg : BitVec 24)
  | keyVerify (ag : Agent) (arg : BitVec 24)
  | keyCommit (ag : Agent) (arg : BitVec 24)
  | keyDiscard (ag : Agent) (arg : BitVec 24)
  | keyDestroy (ag : Agent) (arg : BitVec 24)
  | keyGen (ag : Agent) (arg : BitVec 24)
  | keyRespond (ag : Agent) (arg : BitVec 24)
  | keyChallenge (ag : Agent) (arg : BitVec 24)
  | keyCheck (ag : Agent) (arg : BitVec 24)
  | keyAttest (ag : Agent) (arg : BitVec 24)
  | krootRemask
  | useCountCommit (k : Fin 64)
  | tamperEvent
  -- card reader and service tag
  | readerPoll (card : Option Card)
  | readerExchange (q : Take) (answer : CardAnswer)
  | readerExchangeTimeout (cardLost : Bool)
  | rdrPoll (ag : Agent) (arg : BitVec 24)
  | serviceFieldOn
  | serviceFieldOff
  | fdetRelease
  | getIdentity
  | fieldRead (blk : BitVec 16) (p : SvcProt)
  | auth1 (rH : BitVec 128)
  | auth2 (answer : BitVec 128)
  | fieldWrite (blk : BitVec 16) (data : BitVec 256) (p : SvcProt) (energy : Bool) (c : Collapse)
  | fieldInc (ctr : Byte) (amount : BitVec 16) (p : SvcProt) (energy : Bool) (c : Collapse)
  | fieldData (bytes : List Byte) (p : SvcTake)
  | fieldLattice (accs : List Access) (p : SvcProt)
  | fieldEnd (p : SvcProt)
  | sessionIdleTimeout
  | tagStoreRecovery
  | tagRead (ag : Agent) (arg : BitVec 24)
  | tagWrite (ag : Agent) (arg : BitVec 24)
  | tagDeferredWrite
  | tagInc (ag : Agent) (arg : BitVec 24)
  | svcEnd (ag : Agent) (arg : BitVec 24)
  | svcSignedReading (q : Take)
  -- panel
  | pnlUpdate (ag : Agent) (arg : BitVec 24)
  | adopt (ag : Agent) (arg : BitVec 24)
  | clear (ag : Agent) (arg : BitVec 24)
  | panelFrameInstant
  | panelUpdateComplete (r : Fin 16)
  | panelClearComplete (r : Fin 16)
  | panelAutoClear
  | stripUpdate
  | panelPowerGood
  | panelPowerDown
  | panelFault (cause : PanelFaultCause)
  | panelWindowAccess (ag : Agent) (write : Option Word)
  | panelMemoryAccess (ag : Agent) (write : Option Word)
  | stressSave
  -- store and firmware
  | storeWindowAccess (ag : Agent) (write : Option Word)
  | scrub (ag : Agent) (arg : BitVec 24)
  | stoCountClear (ag : Agent) (arg : BitVec 24)
  | scrubPass
  | scrubComplete (corrected : Nat) (uncorrectable : List Nat)
  | fwOpen (ag : Agent) (arg : BitVec 24)
  | fwPending (ag : Agent) (arg : BitVec 24)
  | fwConfirm (ag : Agent) (arg : BitVec 24)
  | fwRevert (ag : Agent) (arg : BitVec 24)
  | firmwareStart
  | trialTimeout
  | rcvBlock (q : Take)
  | rcvDone (q : Take)
  -- Aulan ring
  | dataFrame (portB : Bool) (f : RingFrame)
  | bridgeQueueSend (q : Take)
  | lreq (portB : Bool) (f : RingFrame)
  | ringSync (portB : Bool) (f : RingFrame)
  | delayReq (portB : Bool)
  | delayResp (portB : Bool) (t2 t3 : BitVec 64)
  | delayExchangeTimer
  | ringEnum (portB : Bool) (f : RingFrame)
  | ringRoute (portB : Bool) (f : RingFrame)
  | ringLink (portB : Bool) (f : RingFrame)
  | frameForward (portB : Bool) (f : RingFrame)
  | pauseReceived (portB : Bool) (cls : Fin 4)
  | goReceived (portB : Bool) (cls : Fin 4)
  | c0HoldRelease (q : Take)
  | portDown (portB : Bool)
  | portUp (portB : Bool)
  | aulCountClear (ag : Agent) (arg : BitVec 24)
  | portRetrain (ag : Agent) (arg : BitVec 24)
  -- power and reset
  | powerFailTrip (mv : Nat)
  | resetNLow (mv : Nat)
  | switchUndervoltage
  | samplingCutoff
  | storeWriterStop
  | powerOnReset
  | brownoutReset
  | coldReset (cause : ColdCause)
  | siltReset
  | vsiltLow
  | vpilotFault (positive : Bool) (mv : Int)
  | hkScan (r : HkReadings)
  | residualSlewEnd
  | zxConfirmationEnd
  | tamperInactive
deriving DecidableEq, Repr

end Sys2Proof
end

