-- ==== Sys2Proof/Decode.lean ====
section
/-! DEFINITION. The command a table word spells. The block is driven by accesses, frames and events, and no row of
spec/opcode_table.json gives a bit of an encoding, so no word spells a command. -/

namespace Sys2Proof

/-- The command that the `nbits` low bits of `w` spell: none, since no row of the table gives bits. -/
def decodeTableWord (_nbits _w : Nat) : Option Instr := none

end Sys2Proof
end

