-- ==== Sys2Proof/Config.lean ====
section
/-! DEFINITION. What the manual leaves open, as constants without a body (log entries 2 to 5, DESIGN CHOICE): nothing in Lean
can evaluate one or prove a value of it, so a statement holds whatever the part does.

* free values: applied to the counter `Dev.fresh`, which each draw advances;
* published cryptographic functions, which the manual names and does not define (R51, R240, R380, R411, R427);
* per-part constants. -/

namespace Sys2Proof.Config

/-- A free choice between two outcomes (a rounding direction, a free point inside a window). -/
opaque freeBit : Nat → Bool

/-- A free natural number. -/
opaque freeNat : Nat → Nat

/-- A free 32-bit word. -/
opaque freeWord : Nat → Word

/-- A free 256-bit value: a draw of the random source (R389, R406, R411, R426). -/
opaque freeWide : Nat → BitVec 256

/-- A free rational number: the output of a filter whose taps the manual does not give (R175, R177). -/
opaque freeRat : Nat → Rat

/-- A byte of the retained store whose record layout the manual does not give (R463, R467, R469). -/
opaque storeByte : Nat → Nat → Byte

/-- The event number of a logging rule (R468: as the Chroanlet build listing states). -/
opaque eventNumber : Nat → BitVec 12

/-- The 16-byte device identity, KEY_ID_0 to KEY_ID_3 (12_keys.md, reset per part). -/
opaque partId : Nat → Word

/-- The check bits of a queue word: the SECDED code over its data and notice mark, whose matrix the manual does not give
(R114). -/
opaque secded : QData → Bool → BitVec 8

/-- SHA-256 of a byte string. -/
opaque sha256 : List Byte → BitVec 256

/-- HMAC-SHA-256 under a key. -/
opaque hmac : BitVec 256 → List Byte → BitVec 256

/-- AES-128 encryption of a 16-byte block under a key. -/
opaque aes : BitVec 128 → List Byte → BitVec 128

/-- AES-128-CCM: the tag of a message under a key and a counter. -/
opaque ccmTag : BitVec 128 → Nat → List Byte → BitVec 128

/-- AES-128-CCM: the message with its text encrypted or decrypted under a key and a counter. -/
opaque ccmText : BitVec 128 → Nat → List Byte → List Byte

/-- ECDSA P-256: whether a signature of a byte string verifies under a public key. -/
opaque ecdsaVerify : BitVec 512 → List Byte → BitVec 512 → Bool

/-- ECDSA P-256 signature of a byte string under a private scalar; the last argument is the nonce draw. -/
opaque ecdsaSign : BitVec 256 → List Byte → Nat → BitVec 512

/-- The P-256 public key of a private scalar. -/
opaque publicKey : BitVec 256 → BitVec 512

/-- ECDH on P-256: the X coordinate of the shared point of a private scalar and a public key. -/
opaque ecdh : BitVec 256 → BitVec 512 → BitVec 256

/-- Place of the certificate of K3 and of K4 in the key certificate area (R405, R463), which the manual does not
give. -/
opaque certOffset : Nat → Nat

/-- The origin signature of the part (R425), r then s. -/
opaque originSig : BitVec 512

/-- The Plynaro provisioning key in the recovery ROM (R404). -/
opaque provisioningKey : BitVec 512

/-- The Plynaro public key in the recovery ROM (R475). -/
opaque romKey : BitVec 512

/-- The type and the words of the queue message that carries a CAN frame, which the manual does not lay out (R275):
extended identifier, identifier, data. -/
opaque canType : Byte
/-- Its words after the header. -/
opaque canWords : Bool → BitVec 29 → List Byte → List QData
/-- The CAN frame that the words of a queue message spell: extended identifier, identifier, data. -/
opaque canFrame : List QData → Bool × BitVec 29 × List Byte

/-- The type and the words of the queue message that carries an Ethernet frame of a modem (R274). -/
opaque gpType : Byte
/-- Its words after the header. -/
opaque gpWords : List Byte → List QData
/-- The Ethernet frame that the words of a queue message spell. -/
opaque gpFrame : List QData → List Byte

/-- The path cost and the hops that the payload of a mesh routing frame carries, which the manual does not lay out
(R369). -/
opaque meshCost : List Byte → Nat
/-- The hops it carries. -/
opaque meshHops : List Byte → Nat
/-- The payload of a mesh routing frame of a type that carries a cost and hops. -/
opaque meshPayload : Nat → Nat → Nat → List Byte

/-- Whether an SNR estimate that is not whole rounds up (R367). -/
opaque snrUp : Rat → Bool

end Sys2Proof.Config
end

