-- ==== Sys2Proof/Machine/Operands.lean ====
section
/-! DEFINITION. Operand forms: bit fields of words, packing of words from fields, byte orders, the checksums the
manual names, and the numbers of agents, groups and slices. -/

namespace Sys2Proof.Machine

/-- Bits [hi:lo] of a number. -/
def bits (w hi lo : Nat) : Nat := w / 2 ^ lo % 2 ^ (hi + 1 - lo)

/-- Bits [hi:lo] of a register word. -/
def fld (w : Word) (hi lo : Nat) : Nat := bits w.toNat hi lo

/-- Bit `b` of a register word. -/
def bit (w : Word) (b : Nat) : Bool := w.getLsbD b

/-- 1 for true. -/
def b1 (b : Bool) : Nat := if b then 1 else 0

/-- A number from its fields, highest first, each given as (width, value). -/
def pack (fs : List (Nat × Nat)) : Nat := fs.foldl (fun acc f => acc * 2 ^ f.1 + f.2 % 2 ^ f.1) 0

/-- A register word from its fields, highest first. -/
def packW (fs : List (Nat × Nat)) : Word := BitVec.ofNat 32 (pack fs)

/-- A queue word from its fields, highest first. -/
def packQ (fs : List (Nat × Nat)) : QData := BitVec.ofNat 64 (pack fs)

/-- A mask with bit `b` set. -/
def bitMask (b : Nat) : Nat := 2 ^ b

/-- Whether bit `b` of a number is set. -/
def nbit (w b : Nat) : Bool := w.testBit b

/-- The signed reading of an n-bit number. -/
def signed (n w : Nat) : Int := if w % 2 ^ n < 2 ^ (n - 1) then (w % 2 ^ n : Nat) else (w % 2 ^ n : Nat) - (2 ^ n : Nat)

/-- The n-bit two's complement of an integer. -/
def twos (n : Nat) (v : Int) : Nat := (v % (2 ^ n : Nat)).toNat

/-- The low 32 bits of a number as a word. -/
def w32 (n : Nat) : Word := BitVec.ofNat 32 n

/-- Bits [63:32] of a number as a word. -/
def hi32 (n : Nat) : Word := BitVec.ofNat 32 (n / 2 ^ 32)

/-- A signed number as a word. -/
def wInt (v : Int) : Word := BitVec.ofNat 32 (twos 32 v)

/-- Addition that saturates at the largest n-bit number. -/
def satAdd (n a b : Nat) : Nat := min (a + b) (2 ^ n - 1)

/-- The n little-endian bytes of a number. -/
def leBytes : Nat → Nat → List Byte
  | 0, _ => []
  | n + 1, v => BitVec.ofNat 8 v :: leBytes n (v / 256)

/-- The number that little-endian bytes spell. -/
def fromLE : List Byte → Nat
  | [] => 0
  | b :: bs => b.toNat + 256 * fromLE bs

/-- The n big-endian bytes of a number. -/
def beBytes (n v : Nat) : List Byte := (leBytes n v).reverse

/-- The number that big-endian bytes spell. -/
def fromBE (bs : List Byte) : Nat := fromLE bs.reverse

/-- `n` bytes of a list from an offset. -/
def slice {α : Type} (xs : List α) (off n : Nat) : List α := (xs.drop off).take n

/-- The little-endian number in `n` bytes at an offset. -/
def leAt (bs : List Byte) (off n : Nat) : Nat := fromLE (slice bs off n)

/-- Groups of eight bytes of a list as queue words: byte k of a word in [8k+7:8k]; a short last group is padded
with 0. -/
def packWords : Nat → List Byte → List QData
  | 0, _ => []
  | n + 1, bs => BitVec.ofNat 64 (fromLE (bs.take 8)) :: packWords n (bs.drop 8)

/-- The bytes of queue words, byte k of a word from [8k+7:8k]. -/
def unpackWords (ws : List QData) : List Byte := ws.flatMap fun w => leBytes 8 w.toNat

/-- One bit step of a reflected CRC. -/
def crcBit (poly c : Nat) : Nat := if c % 2 = 1 then Nat.xor (c / 2) poly else c / 2

/-- One byte step of a reflected CRC. -/
def crcByte (poly c : Nat) (b : Byte) : Nat := (List.range 8).foldl (fun c _ => crcBit poly c) (Nat.xor c b.toNat)

/-- A reflected CRC-32 with initial value and final inversion 0xFFFF_FFFF. -/
def crc32 (poly : Nat) (bs : List Byte) : Nat := Nat.xor (bs.foldl (crcByte poly) 0xFFFFFFFF) 0xFFFFFFFF

/-- CRC-32C (R49, R310): polynomial 0x1EDC_6F41, reflected. -/
def crc32c (bs : List Byte) : Nat := crc32 0x82F63B78 bs

/-- CRC-32 of IEEE 802.3 (R449): polynomial 0x04C1_1DB7, reflected. -/
def crc32ieee (bs : List Byte) : Nat := crc32 0xEDB88320 bs

/-- Agent numbers (01_architecture.md, Agents). -/
def agentNum : Agent → Nat
  | .boot => 0
  | .core => 1
  | .host => 2
  | .headend => 3
  | .service => 4
  | .kaolin => 5

/-- Group numbers (01_architecture.md, The Lattice). -/
def groupNum : Group → Nat
  | .sys => 0
  | .tim => 1
  | .que => 2
  | .mtr => 3
  | .bil => 4
  | .evc => 5
  | .kao => 6
  | .lsw => 7
  | .plc => 8
  | .aul => 9
  | .key => 10
  | .tag => 11
  | .pnl => 12
  | .sto => 13
  | .img => 14
  | .rsvd => 15

/-- The group of a number. -/
def groupOf : Nat → Group
  | 0 => .sys
  | 1 => .tim
  | 2 => .que
  | 3 => .mtr
  | 4 => .bil
  | 5 => .evc
  | 6 => .kao
  | 7 => .lsw
  | 8 => .plc
  | 9 => .aul
  | 10 => .key
  | 11 => .tag
  | 12 => .pnl
  | 13 => .sto
  | 14 => .img
  | _ => .rsvd

/-- Argument bits of a command (03_lattice.md, `<GRP>_CMD`). -/
def argBits (arg : BitVec 24) (hi lo : Nat) : Nat := bits arg.toNat hi lo

/-- The eight slices. -/
def slices : List (Fin 8) := [0, 1, 2, 3, 4, 5, 6, 7]

/-- The slices whose bit a mask names. -/
def maskSlices (m : Nat) : List (Fin 8) := slices.filter fun n => nbit m n.val

/-- Floor of a rational number divided towards minus infinity. -/
def ratFloor (q : Rat) : Int := q.floor

/-- The whole part of a rational number, rounded toward zero. -/
def ratTrunc (q : Rat) : Int := if q < 0 then -((-q).floor) else q.floor

/-- Absolute value of a rational number. -/
def ratAbs (q : Rat) : Rat := if q < 0 then -q else q

/-- One bit of the integer square root: the root so far, raised by 2^b where its square stays within n. -/
def isqrtStep (n r b : Nat) : Nat := if (r + 2 ^ b) * (r + 2 ^ b) ≤ n then r + 2 ^ b else r

/-- The integer square root of a number below 2^192, rounded down, bit by bit. -/
def isqrt (n : Nat) : Nat := (List.range 96).reverse.foldl (isqrtStep n) 0

end Sys2Proof.Machine
end

