-- ==== Sys2Proof/Machine/RegTable.lean ====
section
/-! DEFINITION. The register map: one row per register table of chapters 02 to 17 (R15, R17, R81), giving the
Lattice group, the units, the words, the reset value, the RW and RWS bits and the bits "written while stopped"
(R106). Reserved fields are in no mask, so they read as 0 (R16). -/

namespace Sys2Proof.Machine

/-- The registers by name, without their unit and word numbers. -/
inductive RegId where
  | cmd | cmdst | func
  | sysCompat | sysAgent | sysIslandRun | sysOverrun | sysFlags | sysIrqEn | sysStall | sysStallAddr |
  sysStateRej | sysPermRej | sysPwrStatus | sysResetCause | sysPwrFlags | sysPwrIrqEn | sysVmon | sysVpilot |
  sysHk
  | timNowLo | timNowHi | timStatus | timErr | timFlags | timCmpFlags | timIrqEn | timSetvalLo | timSetvalHi |
  timUtc | timServo | timOffset | timTrim | timLastoff | timCmpCtrl | timCmpTarget | timCmpPeriod | timAlmLo |
  timAlmHi | timCapCtrl | timCapLo | timCapHi
  | queCfg | queEnds | queFill | queFlags | queNotice | queEcc | queLoss | queFlushed | queIds | queIdq |
  queIdrej
  | mtrCfg | mtrPq | mtrCable | mtrFlags | mtrIrqEn | mtrPeriodLo | mtrPeriodHi | mtrPeriodInfo | mtrFreq |
  mtrIncMtr | mtrIncVeh | mtrIncLoss | mtrIncReact | mtrP | mtrQ | mtrS | mtrPqState | mtrPqCnt | mtrHarmSel |
  mtrHarm | mtrChScale | mtrCalGain | mtrCalOffs | mtrCalPhase | mtrGain | mtrRangeTrim | mtrChRms | mtrChMean
  | mtrChPeak | mtrPulseCfg | mtrPulseK | mtrPulseStat
  | bilStatus | bilCfg | bilFlags | bilIrqEn | bilDmdLast | bilDmdLastExp | bilDmdInfo | bilOvrState |
  bilRdSeq | bilKrSeq | bilELo | bilEHi | bilQLo | bilQHi | bilLossLo | bilLossHi | bilMd | bilMdtLo |
  bilMdtHi | bilDevCfg | bilLocal | bilCalActive | bilCalPassive | bilCalState | bilOvrStartLo | bilOvrStartHi
  | bilOvrParam | bilNonceLo | bilNonceHi | bilTmpCnt | bilTmpFirstLo | bilTmpFirstHi | bilTmpLastLo |
  bilTmpLastHi
  | evcCfg | evcTiming | evcSession | evcSessionHint | evcSid | evcPilot | evcPp | evcGrant | evcHostLimit |
  evcGrid | evcExport | evcFlags | evcIrqEn | evcLock | evcContact | evcAuthRef | evcDcId | evcDcCfg |
  evcDcSet | evcDcStat | evcDcStat2 | evcGpCfg | evcGpState | evcGpMacLo | evcGpMacHi
  | kaoState | kaoActive | kaoTrip | kaoTrips | kaoRes | kaoImd | kaoStatus | kaoCheck | kaoConfirmed |
  kaoConfirmVal | kaoMasks | kaoExt | kaoFlags | kaoIrqEn | kaoHb | kaoHbStat
  | lswCfg | lswRetry | lswInput | lswState | lswMeas | lswCount | lswStatus | lswVlsw | lswFlags | lswIrqEn
  | plcCfg | plcAddr | plcLink | plcStatus | plcFlags | plcIrqEn | plcRxCnt | plcTxCnt | plcRej | plcHes |
  plcTblSel | plcTbl0 | plcTbl1 | plcZxCfg | plcZxSeq | plcZxMsgLo | plcZxMsgHi | plcZxCnt | plcZxState
  | aulRole | aulCfg | aulStatus | aulFlags | aulIrqEn | aulDrop | aulC0 | aulSyncOff | aulPortState |
  aulPortErr
  | keySlot | keyUses | keyLimit | keyImpser | keyPub | keyStatus | keyId | keyFlags | keyIrqEn | keyBlob |
  keyChal | keyResp
  | tagRdrCfg | tagRdrStatus | tagRdrCnt | tagSvcStatus | tagSvcRej | tagBlk | tagStore | tagDefer | tagFlags
  | tagIrqEn
  | pnlCfg | pnlStatus | pnlVerified | pnlFlags | pnlIrqEn | pnlWinAddr | pnlWinData | pnlMemAddr | pnlMemData
  | pnlAge | pnlStrip | pnlRgnX | pnlRgnY | pnlRgnState | pnlRgnCrc | pnlRgnReq
  | stoAddr | stoData | stoStatus | stoEcc | stoUeAddr | stoPf | stoFlags | stoIrqEn
  | imgSiStatus | imgSiSerial | imgSiCheck | imgSiDiff | imgSiLevel | imgFwState | imgFwTrial | imgFwVerA |
  imgFwVerB | imgCfgState | imgCfgTags | imgFlags | imgIrqEn
deriving DecidableEq, Repr

/-- One register table: its units `u0 ..< u0 + un`, its words at `off + stride * i` for `i < cnt`, its reset
value, and the masks of its RW and RWS bits and of the bits written only while the function is stopped. -/
structure RegDef where
  id : RegId
  u0 : Nat
  un : Nat
  off : Nat
  stride : Nat := 4
  cnt : Nat := 1
  reset : Nat := 0
  rw : Nat := 0
  rws : Nat := 0
  stop : Nat := 0
deriving DecidableEq, Repr

/-- Registers of group 0x0. -/
def sysRegs : List RegDef :=
  [ ⟨.sysCompat, 0x0, 1, 0x0, 4, 1, 0x8800100, 0x0, 0x0, 0x0⟩,
    ⟨.sysAgent, 0x0, 1, 0x4, 4, 1, 0x0, 0x0, 0x0, 0x0⟩,
    ⟨.sysIslandRun, 0x0, 1, 0x8, 4, 1, 0x8803, 0x0, 0x0, 0x0⟩,
    ⟨.sysOverrun, 0x0, 1, 0xc, 4, 1, 0x0, 0x0, 0x0, 0x0⟩,
    ⟨.sysFlags, 0x0, 1, 0x10, 4, 1, 0x0, 0x0, 0x0, 0x0⟩,
    ⟨.sysIrqEn, 0x0, 1, 0x14, 4, 1, 0x0, 0x1f, 0x0, 0x0⟩,
    ⟨.sysStall, 0x0, 1, 0x18, 4, 1, 0x0, 0x0, 0x0, 0x0⟩,
    ⟨.sysStallAddr, 0x0, 1, 0x1c, 4, 1, 0x0, 0x0, 0x0, 0x0⟩,
    ⟨.sysStateRej, 0x0, 1, 0x20, 4, 1, 0x0, 0x0, 0x0, 0x0⟩,
    ⟨.sysPermRej, 0x0, 1, 0x24, 4, 1, 0x0, 0x0, 0x0, 0x0⟩,
    ⟨.sysPwrStatus, 0x1, 1, 0x0, 4, 1, 0x0, 0x0, 0x0, 0x0⟩,
    ⟨.sysResetCause, 0x1, 1, 0x4, 4, 1, 0x0, 0x0, 0x0, 0x0⟩,
    ⟨.sysPwrFlags, 0x1, 1, 0x8, 4, 1, 0x0, 0x0, 0x0, 0x0⟩,
    ⟨.sysPwrIrqEn, 0x1, 1, 0xc, 4, 1, 0x0, 0xf, 0x0, 0x0⟩,
    ⟨.sysVmon, 0x1, 1, 0x10, 4, 1, 0x0, 0x0, 0x0, 0x0⟩,
    ⟨.sysVpilot, 0x1, 1, 0x14, 4, 1, 0x0, 0x0, 0x0, 0x0⟩,
    ⟨.sysHk, 0x2, 1, 0x0, 4, 16, 0x0, 0x0, 0x0, 0x0⟩ ]

/-- Registers of group 0x1. -/
def timRegs : List RegDef :=
  [ ⟨.func, 0x1, 1, 0x0, 4, 1, 0x0, 0x0, 0x0, 0x0⟩,
    ⟨.timNowLo, 0x0, 1, 0x0, 4, 1, 0x0, 0x0, 0x0, 0x0⟩,
    ⟨.timNowHi, 0x0, 1, 0x4, 4, 1, 0x0, 0x0, 0x0, 0x0⟩,
    ⟨.timStatus, 0x0, 1, 0x8, 4, 1, 0x0, 0x0, 0x0, 0x0⟩,
    ⟨.timErr, 0x0, 1, 0xc, 4, 1, 0xffffffff, 0x0, 0x0, 0x0⟩,
    ⟨.timFlags, 0x0, 1, 0x10, 4, 1, 0x0, 0x0, 0x0, 0x0⟩,
    ⟨.timCmpFlags, 0x0, 1, 0x14, 4, 1, 0x0, 0x0, 0x0, 0x0⟩,
    ⟨.timIrqEn, 0x0, 1, 0x18, 4, 1, 0x0, 0xffffffff, 0x0, 0x0⟩,
    ⟨.timSetvalLo, 0x0, 1, 0x1c, 4, 1, 0x0, 0xffffffff, 0x0, 0x0⟩,
    ⟨.timSetvalHi, 0x0, 1, 0x20, 4, 1, 0x0, 0xffffffff, 0x0, 0x0⟩,
    ⟨.timUtc, 0x0, 1, 0x24, 4, 1, 0x0, 0x1ffff, 0x0, 0x0⟩,
    ⟨.timServo, 0x1, 1, 0x4, 4, 1, 0x8140003, 0x0, 0xffff0307, 0x0⟩,
    ⟨.timOffset, 0x1, 1, 0x8, 4, 1, 0x0, 0x0, 0x0, 0x0⟩,
    ⟨.timTrim, 0x1, 1, 0xc, 4, 1, 0x0, 0x0, 0x0, 0x0⟩,
    ⟨.timLastoff, 0x1, 1, 0x10, 4, 1, 0x0, 0x0, 0x0, 0x0⟩,
    ⟨.timCmpCtrl, 0x10, 16, 0x0, 4, 1, 0x0, 0x3, 0x0, 0x0⟩,
    ⟨.timCmpTarget, 0x10, 16, 0x4, 4, 1, 0x0, 0xffffffff, 0x0, 0x0⟩,
    ⟨.timCmpPeriod, 0x10, 16, 0x8, 4, 1, 0x0, 0xffffffff, 0x0, 0x0⟩,
    ⟨.timAlmLo, 0x20, 8, 0x0, 4, 1, 0x0, 0xffffffff, 0x0, 0x0⟩,
    ⟨.timAlmHi, 0x20, 8, 0x4, 4, 1, 0x0, 0xffffffff, 0x0, 0x0⟩,
    ⟨.timCapCtrl, 0x30, 8, 0x0, 4, 1, 0x0, 0xff, 0x0, 0x0⟩,
    ⟨.timCapLo, 0x30, 8, 0x4, 4, 1, 0x0, 0x0, 0x0, 0x0⟩,
    ⟨.timCapHi, 0x30, 8, 0x8, 4, 1, 0x0, 0x0, 0x0, 0x0⟩ ]

/-- Registers of group 0x2. -/
def queRegs : List RegDef :=
  [ ⟨.queCfg, 0x0, 64, 0x0, 4, 1, 0x0, 0x0, 0x0, 0x0⟩,
    ⟨.queEnds, 0x0, 64, 0x4, 4, 1, 0x0, 0xff0000, 0x0, 0x0⟩,
    ⟨.queFill, 0x0, 64, 0x8, 4, 1, 0x0, 0x0, 0x0, 0x0⟩,
    ⟨.queFlags, 0x0, 64, 0xc, 4, 1, 0x0, 0x0, 0x0, 0x0⟩,
    ⟨.queNotice, 0x0, 64, 0x10, 4, 1, 0x0, 0xffffffff, 0x0, 0x0⟩,
    ⟨.queEcc, 0x0, 64, 0x14, 4, 1, 0x0, 0x0, 0x0, 0x0⟩,
    ⟨.queLoss, 0x0, 64, 0x18, 4, 1, 0x0, 0x0, 0x0, 0x0⟩,
    ⟨.queFlushed, 0x0, 64, 0x1c, 4, 1, 0x0, 0x0, 0x0, 0x0⟩,
    ⟨.queIds, 0x81, 12, 0x0, 4, 1, 0x0, 0x0, 0x0, 0x0⟩,
    ⟨.queIdq, 0x81, 12, 0x4, 4, 1, 0x0, 0x0, 0x0, 0x0⟩,
    ⟨.queIdrej, 0x81, 12, 0x8, 4, 1, 0x0, 0x0, 0x0, 0x0⟩ ]

/-- Registers of group 0x3. -/
def mtrRegs1 : List RegDef :=
  [ ⟨.func, 0x0, 9, 0x0, 4, 1, 0x0, 0x0, 0x0, 0x0⟩,
    ⟨.mtrCfg, 0x0, 9, 0x4, 4, 1, 0x8fc00, 0x15, 0xffffff00, 0x5⟩,
    ⟨.mtrPq, 0x0, 9, 0x8, 4, 1, 0xb4dc0a04, 0x0, 0xffffffff, 0x0⟩,
    ⟨.mtrCable, 0x0, 9, 0xc, 4, 1, 0x0, 0x0, 0x80ffffff, 0x0⟩,
    ⟨.mtrFlags, 0x0, 9, 0x10, 4, 1, 0x0, 0x0, 0x0, 0x0⟩,
    ⟨.mtrIrqEn, 0x0, 9, 0x14, 4, 1, 0x0, 0x7f, 0x0, 0x0⟩,
    ⟨.mtrPeriodLo, 0x0, 9, 0x18, 4, 1, 0x0, 0x0, 0x0, 0x0⟩,
    ⟨.mtrPeriodHi, 0x0, 9, 0x1c, 4, 1, 0x0, 0x0, 0x0, 0x0⟩,
    ⟨.mtrPeriodInfo, 0x0, 9, 0x20, 4, 1, 0x0, 0x0, 0x0, 0x0⟩,
    ⟨.mtrFreq, 0x0, 9, 0x24, 4, 1, 0x0, 0x0, 0x0, 0x0⟩,
    ⟨.mtrIncMtr, 0x0, 9, 0x28, 4, 1, 0x0, 0x0, 0x0, 0x0⟩,
    ⟨.mtrIncVeh, 0x0, 9, 0x2c, 4, 1, 0x0, 0x0, 0x0, 0x0⟩,
    ⟨.mtrIncLoss, 0x0, 9, 0x30, 4, 1, 0x0, 0x0, 0x0, 0x0⟩,
    ⟨.mtrIncReact, 0x0, 9, 0x34, 4, 1, 0x0, 0x0, 0x0, 0x0⟩,
    ⟨.mtrP, 0x0, 9, 0x40, 4, 4, 0x0, 0x0, 0x0, 0x0⟩,
    ⟨.mtrQ, 0x0, 9, 0x50, 4, 4, 0x0, 0x0, 0x0, 0x0⟩,
    ⟨.mtrS, 0x0, 9, 0x60, 4, 4, 0x0, 0x0, 0x0, 0x0⟩,
    ⟨.mtrPqState, 0x0, 9, 0x70, 4, 1, 0x0, 0x0, 0x0, 0x0⟩,
    ⟨.mtrPqCnt, 0x0, 9, 0x74, 4, 3, 0x0, 0x0, 0x0, 0x0⟩,
    ⟨.mtrHarmSel, 0x0, 9, 0x80, 4, 1, 0x0, 0xff3f, 0x0, 0x0⟩,
    ⟨.mtrHarm, 0x0, 9, 0x84, 4, 1, 0x0, 0x0, 0x0, 0x0⟩,
    ⟨.mtrChScale, 0x40, 64, 0x0, 4, 1, 0x0, 0xffffffff, 0x0, 0xffffffff⟩,
    ⟨.mtrCalGain, 0x40, 64, 0x4, 4, 1, 0x0, 0x0, 0xffffffff, 0x0⟩,
    ⟨.mtrCalOffs, 0x40, 64, 0x8, 4, 1, 0x0, 0x0, 0xffffffff, 0x0⟩,
    ⟨.mtrCalPhase, 0x40, 64, 0xc, 4, 1, 0x0, 0x0, 0xffff, 0x0⟩ ]

/-- Registers of group 0x3. -/
def mtrRegs2 : List RegDef :=
  [ ⟨.mtrGain, 0x40, 64, 0x10, 4, 1, 0x1, 0x31, 0x0, 0x0⟩,
    ⟨.mtrRangeTrim, 0x40, 64, 0x14, 4, 1, 0x0, 0x0, 0xffffff, 0x0⟩,
    ⟨.mtrChRms, 0x40, 64, 0x18, 4, 1, 0x0, 0x0, 0x0, 0x0⟩,
    ⟨.mtrChMean, 0x40, 64, 0x1c, 4, 1, 0x0, 0x0, 0x0, 0x0⟩,
    ⟨.mtrChPeak, 0x40, 64, 0x20, 4, 1, 0x0, 0x0, 0x0, 0x0⟩,
    ⟨.mtrPulseCfg, 0x10, 4, 0x0, 4, 1, 0x20, 0x0, 0x830007ff, 0x0⟩,
    ⟨.mtrPulseK, 0x10, 4, 0x4, 4, 1, 0x2710, 0x0, 0xffffffff, 0x0⟩,
    ⟨.mtrPulseStat, 0x10, 4, 0x8, 4, 1, 0x0, 0x0, 0x0, 0x0⟩ ]

/-- Registers of group 0x3. -/
def mtrRegs : List RegDef := mtrRegs1 ++ mtrRegs2

/-- Registers of group 0x4. -/
def bilRegs1 : List RegDef :=
  [ ⟨.bilStatus, 0x0, 8, 0x0, 4, 1, 0x80000001, 0x0, 0x0, 0x0⟩,
    ⟨.bilCfg, 0x0, 8, 0x4, 4, 1, 0x21040000, 0x0, 0xff0f0000, 0x0⟩,
    ⟨.bilFlags, 0x0, 8, 0x8, 4, 1, 0x0, 0x0, 0x0, 0x0⟩,
    ⟨.bilIrqEn, 0x0, 8, 0xc, 4, 1, 0x0, 0x1ff, 0x0, 0x0⟩,
    ⟨.bilDmdLast, 0x0, 8, 0x10, 4, 1, 0x0, 0x0, 0x0, 0x0⟩,
    ⟨.bilDmdLastExp, 0x0, 8, 0x14, 4, 1, 0x0, 0x0, 0x0, 0x0⟩,
    ⟨.bilDmdInfo, 0x0, 8, 0x18, 4, 1, 0x0, 0x0, 0x0, 0x0⟩,
    ⟨.bilOvrState, 0x0, 8, 0x1c, 4, 1, 0x0, 0x0, 0x0, 0x0⟩,
    ⟨.bilRdSeq, 0x0, 8, 0x20, 4, 1, 0x0, 0x0, 0x0, 0x0⟩,
    ⟨.bilKrSeq, 0x0, 8, 0x24, 4, 1, 0x0, 0x0, 0x0, 0x0⟩,
    ⟨.bilELo, 0x0, 8, 0x100, 8, 32, 0x0, 0x0, 0x0, 0x0⟩,
    ⟨.bilEHi, 0x0, 8, 0x104, 8, 32, 0x0, 0x0, 0x0, 0x0⟩,
    ⟨.bilQLo, 0x0, 8, 0x200, 8, 4, 0x0, 0x0, 0x0, 0x0⟩,
    ⟨.bilQHi, 0x0, 8, 0x204, 8, 4, 0x0, 0x0, 0x0, 0x0⟩,
    ⟨.bilLossLo, 0x0, 8, 0x220, 4, 1, 0x0, 0x0, 0x0, 0x0⟩,
    ⟨.bilLossHi, 0x0, 8, 0x224, 4, 1, 0x0, 0x0, 0x0, 0x0⟩,
    ⟨.bilMd, 0x0, 8, 0x300, 4, 32, 0x0, 0x0, 0x0, 0x0⟩,
    ⟨.bilMdtLo, 0x0, 8, 0x400, 8, 32, 0x0, 0x0, 0x0, 0x0⟩,
    ⟨.bilMdtHi, 0x0, 8, 0x404, 8, 32, 0x0, 0x0, 0x0, 0x0⟩,
    ⟨.bilDevCfg, 0x8, 1, 0x0, 4, 1, 0xa000001, 0x0, 0xff00001f, 0x0⟩,
    ⟨.bilLocal, 0x8, 1, 0x4, 4, 1, 0x0, 0x0, 0x0, 0x0⟩,
    ⟨.bilCalActive, 0x8, 1, 0x8, 4, 1, 0x0, 0x0, 0x0, 0x0⟩,
    ⟨.bilCalPassive, 0x8, 1, 0xc, 4, 1, 0x0, 0x0, 0x0, 0x0⟩,
    ⟨.bilCalState, 0x8, 1, 0x10, 4, 1, 0x0, 0x0, 0x0, 0x0⟩,
    ⟨.bilOvrStartLo, 0x8, 1, 0x14, 4, 1, 0x0, 0xffffffff, 0x0, 0x0⟩ ]

/-- Registers of group 0x4. -/
def bilRegs2 : List RegDef :=
  [ ⟨.bilOvrStartHi, 0x8, 1, 0x18, 4, 1, 0x0, 0xffffffff, 0x0, 0x0⟩,
    ⟨.bilOvrParam, 0x8, 1, 0x1c, 4, 1, 0x0, 0xffffffff, 0x0, 0x0⟩,
    ⟨.bilNonceLo, 0x8, 1, 0x20, 4, 1, 0x0, 0xffffffff, 0x0, 0x0⟩,
    ⟨.bilNonceHi, 0x8, 1, 0x24, 4, 1, 0x0, 0xffffffff, 0x0, 0x0⟩,
    ⟨.bilTmpCnt, 0x20, 24, 0x0, 4, 1, 0x0, 0x0, 0x0, 0x0⟩,
    ⟨.bilTmpFirstLo, 0x20, 24, 0x4, 4, 1, 0x0, 0x0, 0x0, 0x0⟩,
    ⟨.bilTmpFirstHi, 0x20, 24, 0x8, 4, 1, 0x0, 0x0, 0x0, 0x0⟩,
    ⟨.bilTmpLastLo, 0x20, 24, 0xc, 4, 1, 0x0, 0x0, 0x0, 0x0⟩,
    ⟨.bilTmpLastHi, 0x20, 24, 0x10, 4, 1, 0x0, 0x0, 0x0, 0x0⟩ ]

/-- Registers of group 0x4. -/
def bilRegs : List RegDef := bilRegs1 ++ bilRegs2

/-- Registers of group 0x5. -/
def evcRegs1 : List RegDef :=
  [ ⟨.func, 0x0, 8, 0x0, 4, 1, 0x0, 0x0, 0x0, 0x0⟩,
    ⟨.evcCfg, 0x0, 8, 0x4, 4, 1, 0x1e0000a0, 0xff1f1fff, 0x0, 0xb0000⟩,
    ⟨.evcTiming, 0x0, 8, 0x8, 4, 1, 0x1e326403, 0xffffffff, 0x0, 0x0⟩,
    ⟨.evcSession, 0x0, 8, 0xc, 4, 1, 0x0, 0x0, 0x0, 0x0⟩,
    ⟨.evcSessionHint, 0x0, 8, 0x10, 4, 1, 0x0, 0x1, 0x0, 0x0⟩,
    ⟨.evcSid, 0x0, 8, 0x14, 4, 1, 0x0, 0x0, 0x0, 0x0⟩,
    ⟨.evcPilot, 0x0, 8, 0x18, 4, 1, 0x0, 0x0, 0x0, 0x0⟩,
    ⟨.evcPp, 0x0, 8, 0x1c, 4, 1, 0x0, 0x0, 0x0, 0x0⟩,
    ⟨.evcGrant, 0x0, 8, 0x20, 4, 1, 0x0, 0x0, 0x0, 0x0⟩,
    ⟨.evcHostLimit, 0x0, 8, 0x24, 4, 1, 0xffff, 0xffff, 0x0, 0x0⟩,
    ⟨.evcGrid, 0x0, 8, 0x28, 4, 1, 0xffff, 0x0, 0x0, 0x0⟩,
    ⟨.evcExport, 0x0, 8, 0x2c, 4, 1, 0x0, 0x8000ffff, 0x0, 0x0⟩,
    ⟨.evcFlags, 0x0, 8, 0x30, 4, 1, 0x0, 0x0, 0x0, 0x0⟩,
    ⟨.evcIrqEn, 0x0, 8, 0x34, 4, 1, 0x0, 0x1fff, 0x0, 0x0⟩,
    ⟨.evcLock, 0x0, 8, 0x38, 4, 1, 0x0, 0x8f00ffff, 0x0, 0x0⟩,
    ⟨.evcContact, 0x0, 8, 0x3c, 4, 1, 0x0, 0x0, 0x0, 0x0⟩,
    ⟨.evcAuthRef, 0x0, 8, 0x40, 4, 8, 0x0, 0xffffffff, 0x0, 0x0⟩,
    ⟨.evcDcId, 0x0, 8, 0x60, 4, 1, 0x0, 0xdfffffff, 0x0, 0x1fffffff⟩,
    ⟨.evcDcCfg, 0x0, 8, 0x64, 4, 1, 0xa320000, 0xffff0001, 0x0, 0x0⟩,
    ⟨.evcDcSet, 0x0, 8, 0x68, 4, 1, 0x0, 0xffffffff, 0x0, 0x0⟩,
    ⟨.evcDcStat, 0x0, 8, 0x6c, 4, 1, 0x0, 0x0, 0x0, 0x0⟩,
    ⟨.evcDcStat2, 0x0, 8, 0x70, 4, 1, 0x0, 0x0, 0x0, 0x0⟩,
    ⟨.evcGpCfg, 0x10, 8, 0x0, 4, 1, 0x32060000, 0xffff0000, 0x0, 0x0⟩,
    ⟨.evcGpState, 0x10, 8, 0x4, 4, 1, 0x0, 0x0, 0x0, 0x0⟩,
    ⟨.evcGpMacLo, 0x10, 8, 0x8, 4, 1, 0x0, 0x0, 0x0, 0x0⟩ ]

/-- Registers of group 0x5. -/
def evcRegs2 : List RegDef :=
  [ ⟨.evcGpMacHi, 0x10, 8, 0xc, 4, 1, 0x0, 0x0, 0x0, 0x0⟩ ]

/-- Registers of group 0x5. -/
def evcRegs : List RegDef := evcRegs1 ++ evcRegs2

/-- Registers of group 0x6. -/
def kaoRegs : List RegDef :=
  [ ⟨.kaoState, 0x0, 8, 0x0, 4, 1, 0x0, 0x0, 0x0, 0x0⟩,
    ⟨.kaoActive, 0x0, 8, 0x4, 4, 1, 0x0, 0x0, 0x0, 0x0⟩,
    ⟨.kaoTrip, 0x0, 8, 0x8, 4, 1, 0x0, 0x0, 0x0, 0x0⟩,
    ⟨.kaoTrips, 0x0, 8, 0xc, 4, 1, 0x0, 0x0, 0x0, 0x0⟩,
    ⟨.kaoRes, 0x0, 8, 0x10, 4, 1, 0x0, 0x0, 0x0, 0x0⟩,
    ⟨.kaoImd, 0x0, 8, 0x14, 4, 1, 0x0, 0x0, 0x0, 0x0⟩,
    ⟨.kaoStatus, 0x8, 1, 0x0, 4, 1, 0x0, 0x0, 0x0, 0x0⟩,
    ⟨.kaoCheck, 0x8, 1, 0x4, 4, 1, 0x0, 0x0, 0x0, 0x0⟩,
    ⟨.kaoConfirmed, 0x8, 1, 0x8, 4, 1, 0x0, 0x0, 0x0, 0x0⟩,
    ⟨.kaoConfirmVal, 0x8, 1, 0xc, 4, 1, 0x0, 0xffffffff, 0x0, 0x0⟩,
    ⟨.kaoMasks, 0x8, 1, 0x10, 4, 1, 0x0, 0x0, 0x0, 0x0⟩,
    ⟨.kaoExt, 0x8, 1, 0x14, 4, 1, 0x0, 0x0, 0x0, 0x0⟩,
    ⟨.kaoFlags, 0x8, 1, 0x18, 4, 1, 0x0, 0x0, 0x0, 0x0⟩,
    ⟨.kaoIrqEn, 0x8, 1, 0x1c, 4, 1, 0x0, 0x1fff, 0x0, 0x0⟩,
    ⟨.kaoHb, 0x9, 1, 0x0, 4, 1, 0x0, 0xffffffff, 0x0, 0x0⟩,
    ⟨.kaoHbStat, 0x9, 1, 0x4, 4, 1, 0x0, 0x0, 0x0, 0x0⟩ ]

/-- Registers of group 0x7. -/
def lswRegs : List RegDef :=
  [ ⟨.lswCfg, 0x0, 16, 0x0, 4, 1, 0x32141438, 0xfffffff8, 0x0, 0x0⟩,
    ⟨.lswRetry, 0x0, 16, 0x4, 4, 1, 0x1, 0xff, 0x0, 0x0⟩,
    ⟨.lswInput, 0x0, 16, 0x8, 4, 1, 0x0, 0xc7c70000, 0x0, 0x0⟩,
    ⟨.lswState, 0x0, 16, 0x10, 4, 1, 0xff00, 0x0, 0x0, 0x0⟩,
    ⟨.lswMeas, 0x0, 16, 0x14, 4, 1, 0x0, 0x0, 0x0, 0x0⟩,
    ⟨.lswCount, 0x0, 16, 0x18, 4, 1, 0x0, 0x0, 0x0, 0x0⟩,
    ⟨.lswStatus, 0x10, 1, 0x0, 4, 1, 0x0, 0x0, 0x0, 0x0⟩,
    ⟨.lswVlsw, 0x10, 1, 0x4, 4, 1, 0x0, 0x0, 0x0, 0x0⟩,
    ⟨.lswFlags, 0x10, 1, 0x8, 4, 1, 0x0, 0x0, 0x0, 0x0⟩,
    ⟨.lswIrqEn, 0x10, 1, 0xc, 4, 1, 0x0, 0xff, 0x0, 0x0⟩ ]

/-- Registers of group 0x8. -/
def plcRegs : List RegDef :=
  [ ⟨.func, 0x0, 2, 0x0, 4, 1, 0x0, 0x0, 0x0, 0x0⟩,
    ⟨.plcCfg, 0x0, 1, 0x4, 4, 1, 0xe03c00, 0x0, 0x3f0ff00, 0x0⟩,
    ⟨.plcAddr, 0x0, 1, 0x8, 4, 1, 0x0, 0xffffffff, 0x0, 0xffffffff⟩,
    ⟨.plcLink, 0x0, 1, 0xc, 4, 1, 0x10080a10, 0x0, 0xffffff1f, 0x0⟩,
    ⟨.plcStatus, 0x0, 1, 0x10, 4, 1, 0x0, 0x0, 0x0, 0x0⟩,
    ⟨.plcFlags, 0x0, 1, 0x14, 4, 1, 0x0, 0x0, 0x0, 0x0⟩,
    ⟨.plcIrqEn, 0x0, 1, 0x18, 4, 1, 0x0, 0x7ff, 0x0, 0x0⟩,
    ⟨.plcRxCnt, 0x0, 1, 0x1c, 4, 1, 0x0, 0x0, 0x0, 0x0⟩,
    ⟨.plcTxCnt, 0x0, 1, 0x20, 4, 1, 0x0, 0x0, 0x0, 0x0⟩,
    ⟨.plcRej, 0x0, 1, 0x24, 4, 1, 0x0, 0x0, 0x0, 0x0⟩,
    ⟨.plcHes, 0x0, 1, 0x28, 4, 1, 0x0, 0x1, 0x0, 0x0⟩,
    ⟨.plcTblSel, 0x0, 1, 0x30, 4, 1, 0x0, 0xc00000ff, 0x0, 0x0⟩,
    ⟨.plcTbl0, 0x0, 1, 0x34, 4, 1, 0x0, 0x0, 0x0, 0x0⟩,
    ⟨.plcTbl1, 0x0, 1, 0x38, 4, 1, 0x0, 0x0, 0x0, 0x0⟩,
    ⟨.plcZxCfg, 0x1, 1, 0x4, 4, 1, 0x419, 0xffffffff, 0x0, 0xfff01000⟩,
    ⟨.plcZxSeq, 0x1, 1, 0x8, 4, 1, 0x0, 0x0, 0x0, 0x0⟩,
    ⟨.plcZxMsgLo, 0x1, 1, 0xc, 4, 1, 0x0, 0x0, 0x0, 0x0⟩,
    ⟨.plcZxMsgHi, 0x1, 1, 0x10, 4, 1, 0x0, 0x0, 0x0, 0x0⟩,
    ⟨.plcZxCnt, 0x1, 1, 0x14, 4, 1, 0x0, 0x0, 0x0, 0x0⟩,
    ⟨.plcZxState, 0x1, 1, 0x18, 4, 1, 0x0, 0x0, 0x0, 0x0⟩ ]

/-- Registers of group 0x9. -/
def aulRegs : List RegDef :=
  [ ⟨.aulRole, 0x0, 1, 0x0, 4, 1, 0x0, 0x0, 0x0, 0x0⟩,
    ⟨.aulCfg, 0x0, 1, 0x4, 4, 1, 0xa, 0xff, 0x0, 0x0⟩,
    ⟨.aulStatus, 0x0, 1, 0x8, 4, 1, 0x0, 0x0, 0x0, 0x0⟩,
    ⟨.aulFlags, 0x0, 1, 0xc, 4, 1, 0x0, 0x0, 0x0, 0x0⟩,
    ⟨.aulIrqEn, 0x0, 1, 0x10, 4, 1, 0x0, 0x1ff, 0x0, 0x0⟩,
    ⟨.aulDrop, 0x0, 1, 0x14, 4, 1, 0x0, 0x0, 0x0, 0x0⟩,
    ⟨.aulC0, 0x0, 1, 0x18, 4, 1, 0x0, 0x0, 0x0, 0x0⟩,
    ⟨.aulSyncOff, 0x0, 1, 0x1c, 4, 1, 0x0, 0x0, 0x0, 0x0⟩,
    ⟨.aulPortState, 0x10, 2, 0x0, 4, 1, 0x0, 0x0, 0x0, 0x0⟩,
    ⟨.aulPortErr, 0x10, 2, 0x4, 4, 1, 0x0, 0x0, 0x0, 0x0⟩ ]

/-- Registers of group 0xa. -/
def keyRegs : List RegDef :=
  [ ⟨.keySlot, 0x0, 64, 0x0, 4, 1, 0x0, 0x0, 0x0, 0x0⟩,
    ⟨.keyUses, 0x0, 64, 0x4, 4, 1, 0x0, 0x0, 0x0, 0x0⟩,
    ⟨.keyLimit, 0x0, 64, 0x8, 4, 1, 0x0, 0x0, 0x0, 0x0⟩,
    ⟨.keyImpser, 0x0, 64, 0xc, 4, 1, 0x0, 0x0, 0x0, 0x0⟩,
    ⟨.keyPub, 0x0, 64, 0x40, 4, 16, 0x0, 0x0, 0x0, 0x0⟩,
    ⟨.keyStatus, 0x40, 1, 0x0, 4, 1, 0x0, 0x0, 0x0, 0x0⟩,
    ⟨.keyId, 0x40, 1, 0x4, 4, 4, 0x0, 0x0, 0x0, 0x0⟩,
    ⟨.keyFlags, 0x40, 1, 0x14, 4, 1, 0x0, 0x0, 0x0, 0x0⟩,
    ⟨.keyIrqEn, 0x40, 1, 0x18, 4, 1, 0x0, 0x1ff, 0x0, 0x0⟩,
    ⟨.keyBlob, 0x40, 1, 0x100, 4, 64, 0x0, 0xffffffff, 0x0, 0x0⟩,
    ⟨.keyChal, 0x40, 1, 0x200, 4, 8, 0x0, 0xffffffff, 0x0, 0x0⟩,
    ⟨.keyResp, 0x40, 1, 0x220, 4, 8, 0x0, 0xffffffff, 0x0, 0x0⟩ ]

/-- Registers of group 0xb. -/
def tagRegs : List RegDef :=
  [ ⟨.func, 0x0, 2, 0x0, 4, 1, 0x0, 0x0, 0x0, 0x0⟩,
    ⟨.tagRdrCfg, 0x0, 1, 0x4, 4, 1, 0x1483000a, 0xfff000ff, 0x0, 0x0⟩,
    ⟨.tagRdrStatus, 0x0, 1, 0x8, 4, 1, 0x0, 0x0, 0x0, 0x0⟩,
    ⟨.tagRdrCnt, 0x0, 1, 0xc, 4, 1, 0x0, 0x0, 0x0, 0x0⟩,
    ⟨.tagSvcStatus, 0x1, 1, 0x4, 4, 1, 0x0, 0x0, 0x0, 0x0⟩,
    ⟨.tagSvcRej, 0x1, 1, 0x8, 4, 1, 0x0, 0x0, 0x0, 0x0⟩,
    ⟨.tagBlk, 0x2, 1, 0x0, 4, 8, 0x0, 0xffffffff, 0x0, 0x0⟩,
    ⟨.tagStore, 0x2, 1, 0x20, 4, 1, 0x0, 0x0, 0x0, 0x0⟩,
    ⟨.tagDefer, 0x2, 1, 0x24, 4, 1, 0x0, 0x0, 0x0, 0x0⟩,
    ⟨.tagFlags, 0x3, 1, 0x0, 4, 1, 0x0, 0x0, 0x0, 0x0⟩,
    ⟨.tagIrqEn, 0x3, 1, 0x4, 4, 1, 0x0, 0x1ff, 0x0, 0x0⟩ ]

/-- Registers of group 0xc. -/
def pnlRegs : List RegDef :=
  [ ⟨.func, 0x0, 1, 0x0, 4, 1, 0x0, 0x0, 0x0, 0x0⟩,
    ⟨.pnlCfg, 0x0, 1, 0x4, 4, 1, 0x780000, 0xfff0000, 0x0, 0xff0000⟩,
    ⟨.pnlStatus, 0x0, 1, 0x8, 4, 1, 0x0, 0x0, 0x0, 0x0⟩,
    ⟨.pnlVerified, 0x0, 1, 0xc, 4, 1, 0x0, 0x0, 0x0, 0x0⟩,
    ⟨.pnlFlags, 0x0, 1, 0x10, 4, 1, 0x0, 0x0, 0x0, 0x0⟩,
    ⟨.pnlIrqEn, 0x0, 1, 0x14, 4, 1, 0x0, 0x3f, 0x0, 0x0⟩,
    ⟨.pnlWinAddr, 0x0, 1, 0x18, 4, 1, 0x0, 0x3ff007f, 0x0, 0x0⟩,
    ⟨.pnlWinData, 0x0, 1, 0x1c, 4, 1, 0x0, 0xffffffff, 0x0, 0x0⟩,
    ⟨.pnlMemAddr, 0x0, 1, 0x20, 4, 1, 0x0, 0xc0007fff, 0x0, 0x0⟩,
    ⟨.pnlMemData, 0x0, 1, 0x24, 4, 1, 0x0, 0xffffffff, 0x0, 0x0⟩,
    ⟨.pnlAge, 0x0, 1, 0x28, 4, 1, 0x64, 0x8000ffff, 0x0, 0x0⟩,
    ⟨.pnlStrip, 0x0, 1, 0x2c, 4, 1, 0x0, 0x83ff007f, 0x0, 0x80000000⟩,
    ⟨.pnlRgnX, 0x10, 16, 0x0, 4, 1, 0x0, 0x0, 0x0, 0x0⟩,
    ⟨.pnlRgnY, 0x10, 16, 0x4, 4, 1, 0x0, 0x0, 0x0, 0x0⟩,
    ⟨.pnlRgnState, 0x10, 16, 0x8, 4, 1, 0x0, 0x0, 0x0, 0x0⟩,
    ⟨.pnlRgnCrc, 0x10, 16, 0xc, 4, 1, 0x0, 0x0, 0x0, 0x0⟩,
    ⟨.pnlRgnReq, 0x10, 16, 0x10, 4, 1, 0x0, 0xffffffff, 0x0, 0x0⟩ ]

/-- Registers of group 0xd. -/
def stoRegs : List RegDef :=
  [ ⟨.stoAddr, 0x0, 1, 0x0, 4, 1, 0x0, 0x3fffffc, 0x0, 0x0⟩,
    ⟨.stoData, 0x0, 1, 0x4, 4, 1, 0x0, 0xffffffff, 0x0, 0x0⟩,
    ⟨.stoStatus, 0x0, 1, 0x8, 4, 1, 0x0, 0x0, 0x0, 0x0⟩,
    ⟨.stoEcc, 0x0, 1, 0xc, 4, 1, 0x0, 0x0, 0x0, 0x0⟩,
    ⟨.stoUeAddr, 0x0, 1, 0x10, 4, 1, 0x0, 0x0, 0x0, 0x0⟩,
    ⟨.stoPf, 0x0, 1, 0x14, 4, 1, 0x0, 0x0, 0x0, 0x0⟩,
    ⟨.stoFlags, 0x0, 1, 0x18, 4, 1, 0x0, 0x0, 0x0, 0x0⟩,
    ⟨.stoIrqEn, 0x0, 1, 0x1c, 4, 1, 0x0, 0x1f, 0x0, 0x0⟩ ]

/-- Registers of group 0xe. -/
def imgRegs : List RegDef :=
  [ ⟨.imgSiStatus, 0x1, 1, 0x0, 4, 1, 0xf000000, 0x0, 0x0, 0x0⟩,
    ⟨.imgSiSerial, 0x1, 1, 0x4, 4, 1, 0x0, 0x0, 0x0, 0x0⟩,
    ⟨.imgSiCheck, 0x1, 1, 0x8, 4, 1, 0x0, 0x0, 0x0, 0x0⟩,
    ⟨.imgSiDiff, 0x1, 1, 0xc, 4, 1, 0x0, 0x0, 0x0, 0x0⟩,
    ⟨.imgSiLevel, 0x1, 1, 0x10, 4, 1, 0x0, 0x0, 0x0, 0x0⟩,
    ⟨.imgFwState, 0x0, 1, 0x0, 4, 1, 0x800000, 0x0, 0x0, 0x0⟩,
    ⟨.imgFwTrial, 0x0, 1, 0x4, 4, 1, 0x0, 0x0, 0x0, 0x0⟩,
    ⟨.imgFwVerA, 0x0, 1, 0x8, 4, 1, 0x0, 0x0, 0x0, 0x0⟩,
    ⟨.imgFwVerB, 0x0, 1, 0xc, 4, 1, 0x0, 0x0, 0x0, 0x0⟩,
    ⟨.imgCfgState, 0x0, 1, 0x10, 4, 1, 0x0, 0x0, 0x0, 0x0⟩,
    ⟨.imgCfgTags, 0x0, 1, 0x14, 4, 1, 0x0, 0x0, 0x0, 0x0⟩,
    ⟨.imgFlags, 0x0, 1, 0x18, 4, 1, 0x0, 0x0, 0x0, 0x0⟩,
    ⟨.imgIrqEn, 0x0, 1, 0x1c, 4, 1, 0x0, 0x3f, 0x0, 0x0⟩ ]

/-- The group control unit of every group (R81): <GRP>_CMD and <GRP>_CMDST. -/
def controlRegs : List RegDef :=
  [ ⟨.cmd, 0xFF, 1, 0x0, 4, 1, 0x0, 0x0, 0x0, 0x0⟩,
    ⟨.cmdst, 0xFF, 1, 0x4, 4, 1, 0x0, 0x0, 0x0, 0x0⟩ ]

/-- The registers of a group; group 0xF is reserved (R81). -/
def groupRegs : Nat → List RegDef
  | 0 => sysRegs ++ controlRegs
  | 1 => timRegs ++ controlRegs
  | 2 => queRegs ++ controlRegs
  | 3 => mtrRegs ++ controlRegs
  | 4 => bilRegs ++ controlRegs
  | 5 => evcRegs ++ controlRegs
  | 6 => kaoRegs ++ controlRegs
  | 7 => lswRegs ++ controlRegs
  | 8 => plcRegs ++ controlRegs
  | 9 => aulRegs ++ controlRegs
  | 10 => keyRegs ++ controlRegs
  | 11 => tagRegs ++ controlRegs
  | 12 => pnlRegs ++ controlRegs
  | 13 => stoRegs ++ controlRegs
  | 14 => imgRegs ++ controlRegs
  | _ => []

/-- Whether word `off` of unit `u` belongs to a register, and which word of it. -/
def RegDef.covers (r : RegDef) (u off : Nat) : Bool :=
  r.u0 ≤ u && u < r.u0 + r.un && r.off ≤ off && off < r.off + r.stride * r.cnt && (off - r.off) % r.stride == 0

/-- A mapped register word: its row, its unit number counted from the row's first, and its word number. -/
structure RegAt where
  row  : RegDef
  unit : Nat
  idx  : Nat
deriving DecidableEq, Repr

/-- The register at a group, unit and byte offset (R80 to R82); none where no chapter maps the address. -/
def regAt (g u off : Nat) : Option RegAt :=
  ((groupRegs g).find? (·.covers u off)).map fun r => { row := r, unit := u - r.u0, idx := (off - r.off) / r.stride }

/-- The reset value of a register word: the heading's value, but for LSW_CFG of LSW0 to LSW7, whose table gives
0x3214_1408. -/
def RegAt.reset (r : RegAt) : Nat :=
  if r.row.id = .lswCfg ∧ r.unit < 8 then 0x32141408 else r.row.reset

/-- The Lattice address of a register word (00_scope.md, Names). -/
def lattice (g u off : Nat) : Nat := g * 0x10000000 + u * 0x100000 + off

/-- The reset value of the word at a live address; 0 where nothing is mapped (R81). -/
def resetAt (addr : Nat) : Nat :=
  match regAt (addr / 0x10000000) (addr / 0x100000 % 0x100) (addr % 0x80000) with
  | some r => r.reset
  | none => 0

end Sys2Proof.Machine
end

