-- ==== Sys2Proof/Machine/State.lean ====
section
/-! DEFINITION. The state of the TGA880 as plain data, and its value at reset. `Dev` is the device: one field for
each chapter of the spec that gives it state. `State` is the device and the queue of commands that wait.
Registers of the Lattice that only hold what was last written or published live in one sparse register file
(`RegFile`); registers that show a machine's state are computed from that machine's own fields. -/

namespace Sys2Proof.Machine

/-- The ways a step can stop with a fault. None of the 247 rows stops: each has an effect the spec gives. -/
inductive Fault where
  /-- A production test mode selected by TEST0 to TEST3 (R531), which the spec does not describe. No row of the
  table reads those balls, so no meaning raises it; stopping there would be safe. -/
  | productionTestMode
deriving DecidableEq, Repr

/-- The ways a step can be refused. -/
inductive Refusal where
  /-- Raised only by an arm of `exec` whose command has no meaning yet (safe: nothing is claimed of it). -/
  | notModelled (mnemonic : String)
deriving DecidableEq, Repr

/-- A sparse file of 32-bit registers keyed by Lattice address: addresses strictly rising, no entry equal to the
register's reset value (see `RegFile.wf`). -/
abbrev RegFile := List (Nat × BitVec 32)

/-- The sparse bytes of a memory: addresses strictly rising, no zero byte listed (see `Memory.wf`). -/
abbrev Memory := List Host.Cell

/-- One *_FLAGS register (R92 to R94): the 48-bit count, the flag bits, the count of each bit's most recent set
and the full count each agent last read. -/
structure FlagReg where
  count   : Nat := 0
  bits    : BitVec 16 := 0
  lastSet : Vector Nat 16 := Vector.replicate 16 0
  kept    : Vector Nat 6 := Vector.replicate 6 0
deriving DecidableEq, Repr

/-- The answer to the last access of an agent: agent number, status code of R98 and read data (R84). -/
structure Reply where
  agent  : Agent := .boot
  status : Byte := 0
  data   : Word := 0
deriving DecidableEq, Repr

/-- A command that is PENDING in its group (R98, R99). -/
structure PendingCmd where
  group : Group
  agent : Agent
  opcode : Byte
  arg   : BitVec 24
deriving DecidableEq, Repr

/-- A request of several accesses (R375, R430, R494): what is still to do, an access or an operation code that names
none, and the answers so far. `cls` and `word` are the class and the first word of an LREQ. -/
structure Request where
  agent : Agent
  cls   : Fin 4 := 1
  word  : QData := 0
  todo  : List (Option Access)
  got   : List Reply := []
  /-- a head-end request: the K5 secret that authenticated it and its reply (R409) -/
  key   : BitVec 256 := 0
deriving DecidableEq, Repr

/-- An access that waits at the crossing into a stopped island (R110). -/
structure HungAccess where
  agent  : Agent
  island : Nat
  addr   : Nat
  /-- elapsed time at which it began to wait -/
  since  : Nat
  /-- the stall monitor has recorded it -/
  noted  : Bool
  /-- the request that carries it, which waits with it (R544) -/
  req    : Option Request := none
deriving DecidableEq, Repr

/-- The log limiter of R86 for one agent and group, and of R551 for one agent and area. -/
structure RateLimit where
  agent : Agent
  key   : Nat
  last  : Nat
  count : Nat
deriving DecidableEq, Repr

/-- An event log entry (R468): site time, sequence, agent (0xFF the device), slice (0xFF none), group, the event
number within the group and up to three data words. -/
structure LogEntry where
  time  : Nat
  seq   : Nat
  agent : Nat
  slice : Nat
  group : Nat
  event : Nat
  data  : List Word
deriving DecidableEq, Repr

/-- Function states (R102). -/
inductive FuncState where
  | off | stopped | running | fault
deriving DecidableEq, Repr

/-- A function: its state and its fault code (R102). -/
structure Func where
  st   : FuncState := .off
  code : Byte := 0
deriving DecidableEq, Repr

/-! ### Structure image (02_structure_image.md) -/

/-- Slice kinds (R53). -/
inductive Kind where
  | absent | ac3 | ac1 | dc | bidir
deriving DecidableEq, Repr

/-- One QUEUE entry (R56). -/
structure QueueEntry where
  cls    : Nat
  depth  : Nat
  prod   : Nat
  cons   : Nat
  thresh : Nat
deriving DecidableEq, Repr

/-- One PERM grant (R57). -/
structure Grant where
  agent  : Nat
  group  : Nat
  first  : Nat
  last   : Nat
  rights : Nat
deriving DecidableEq, Repr

/-- A decoded structure image (R47 to R57, R305, R543): header fields, section versions and bodies. -/
structure Image where
  serial  : Word
  built   : Nat
  member  : Nat
  major   : Nat
  minor   : Nat
  check   : Word
  /-- version of section 1 to 7 -/
  vers    : List Nat
  kinds   : List Nat
  /-- (owner, role) of the 64 channels -/
  chans   : List (Nat × Nat)
  /-- the 26 bytes of SWITCH -/
  switch  : List Nat
  /-- the 576 bytes of KAOLIN -/
  kaolin  : List Nat
  queues  : List QueueEntry
  perms   : List Grant
  /-- the 256 bytes of PERSONA -/
  persona : List Nat
deriving DecidableEq, Repr

/-- load_state of IMG_SI_STATUS (R78). -/
inductive LoadState where
  | none | loaded | fallback | reloading
deriving DecidableEq, Repr

/-- What the boot record holds (R463). -/
structure BootRec where
  seq : Nat := 0
  fwA : Nat := 0
  fwB : Nat := 0
  activeSlot : Nat := 0
  boots : Nat := 0
  trialSec : Nat := 0
  cfgArea0 : Nat := 0
  cfgArea1 : Nat := 0
  cfgTag0 : Nat := 0
  cfgTag1 : Nat := 0
deriving DecidableEq, Repr

/-- The image loader (R61 to R78). -/
structure ImgState where
  loaded   : Option Image := none
  load     : LoadState := .none
  /-- slot of the loaded image: 0, 1 or 0xF -/
  slot     : Nat := 0xF
  reason   : Nat := 0
  rule     : Nat := 0
  lastMask : Nat := 0
  diffSlot : Nat := 0
  diffSlices : Nat := 0
  diffSections : Nat := 0
  /-- the slots that passed SI_VERIFY and were not written since (R69) -/
  verified : List Nat := []
  /-- the image, slot and mask of an accepted SI_RELOAD that waits for its swap (R70) -/
  prepared : Option (Image × Nat × Nat) := none
  /-- firmware slot states A and B (R476), 0 to 6 -/
  fwA : Nat := 0
  fwB : Nat := 0
  /-- running image: A (0), B (1), ROM (2) -/
  running : Nat := 2
  boots   : Nat := 0
  reasonFw : Nat := 0
  pendReason : Nat := 0
  trialSec : Nat := 0
  /-- the active structure slot pointer of the boot record (R61, R463) -/
  activeSlot : Nat := 0
  cfgArea0 : Nat := 0
  cfgArea1 : Nat := 0
  cfgTag0  : Nat := 0
  cfgTag1  : Nat := 0
  /-- the two copies of the boot record, of which the one with the higher sequence is the newer (R463) -/
  bootA : BootRec := {}
  bootB : BootRec := {}
  cfgRejected : Nat := 0
  recovery : Bool := false
  /-- producer code of the recovery input the ROM took its last message from (R481) -/
  rcvLast : Nat := 0
  /-- the ROM has selected and verified this slot and waits to transfer control (R478 step 6) -/
  selected : Option Nat := none
  /-- the configuration load of R473 and the billing restore of R230 have completed (R190) -/
  cfgDone  : Bool := false
  restoreDone : Bool := false
  /-- the start of the hardware functions at step 7 of R523 has happened -/
  started  : Bool := false
deriving DecidableEq, Repr

/-! ### Queues (04_queues.md) -/

/-- A committed message (R115, R121): its words, header first, its commit instants and what was read of it. -/
structure QMsg where
  words : List QData
  /-- site time of the commit (R132) -/
  time  : Nat
  /-- elapsed time of the commit (R128) -/
  since : Nat
  notified : Bool
  /-- words already delivered through the queue port -/
  taken : Nat
deriving DecidableEq, Repr

/-- One hardware queue. -/
structure Queue where
  entry : QueueEntry := { cls := 0, depth := 0, prod := 0, cons := 0, thresh := 0 }
  msgs  : List QMsg := []
  /-- words of the core's message in progress, and the room reserved for the whole message (R121) -/
  building : List QData := []
  reserved : Nat := 0
  /-- words of a flushed message that the producer has still to write (R139) -/
  dropRest : Nat := 0
  /-- messages a hardware producer keeps for want of room, oldest first (R125) -/
  held : List (List QData) := []
deriving DecidableEq, Repr

/-- One identifier space (R133, R134, R137). -/
structure IdSpace where
  epoch  : BitVec 8 := 0
  index  : BitVec 24 := 0
  issued : Bool := false
  /-- the quarantine runs, since this elapsed time -/
  quar   : Option Nat := none
  /-- length of the running quarantine in ns -/
  quarLen : Nat := 0
  /-- elapsed time of the last issue of the current epoch -/
  lastIssue : Nat := 0
  /-- an issue waits for the end of the quarantine -/
  waiting : Bool := false
deriving DecidableEq, Repr

/-- Millefeuille layer L2. -/
structure QueState where
  q      : Vector Queue 64 := Vector.replicate 64 {}
  spaces : Vector IdSpace 13 := Vector.replicate 13 {}
  /-- the application core's queue notice line (R128) -/
  coreNotice : Bool := false
  /-- result code and word of the last operation of the core's queue port (R122) -/
  portResult : Nat := 0
  portWord : QData := 0
  /-- the queue served last, by consumer code × 4 + class (R126) -/
  turns : List (Nat × Nat) := []
deriving DecidableEq, Repr

/-! ### Site time (05_time.md) -/

/-- Time quality (R150). -/
inductive Quality where
  | notValid | holdover | mesh | ring
deriving DecidableEq, Repr

/-- A compare unit (R160, R161). -/
structure Cmp where
  armed : Bool := false
  stepFire : Bool := false
  late  : Bool := false
  /-- the next target, low 32 bits of site time -/
  target : Word := 0
deriving DecidableEq, Repr

/-- A step of site time that waits for its sample instant (R157). -/
structure PendingStep where
  delta : Int
  set   : Bool
  accUs : Nat
deriving DecidableEq, Repr

structure TimState where
  /-- site time in ns since 2000-01-01T00:00:00 TAI (R140) -/
  now  : Nat := 0
  /-- fraction of a ns of elapsed time not yet in `elapsed`, in 10⁻⁹ ns -/
  frac : Nat := 0
  /-- elapsed time in ns: never stepped -/
  elapsed : Nat := 0
  trim : Int := 0
  slew : Int := 0
  /-- residual of a step that is being slewed, in ns, and the elapsed time of the step (R157) -/
  residual : Int := 0
  resSince : Nat := 0
  /-- the site time at which each schedule of R144 last ran, by schedule (the model's own: a schedule's event
  happens once at an instant) -/
  done : List (Nat × Nat) := []
  quality : Quality := .notValid
  /-- source in use: NONE (0), RING (1), MESH (2) -/
  source : Nat := 0
  /-- error bound in µs at its last setting, and the elapsed time of that setting (R151) -/
  errBase : Nat := 0xFFFFFFFF
  errSince : Nat := 0
  step : Option PendingStep := none
  cmp  : Vector Cmp 16 := Vector.replicate 16 {}
  almArmed : BitVec 8 := 0
  /-- latest capture of CAP0 to CAP7 (R163) -/
  cap  : Vector (BitVec 64) 8 := Vector.replicate 8 0
  /-- the servo, TIM unit 0x01 (R146 to R153) -/
  servo : Func := {}
  /-- a step was applied during the interval (R149), in `stepped` below; offsets of the interval in ns by source -/
  ringOffs : List Int := []
  meshOffs : List Int := []
  /-- whether RING and MESH delivered an offset in the last 4 ended intervals, newest first -/
  ringHist : List Bool := []
  meshHist : List Bool := []
  good : Nat := 0
  missed : Nat := 0
  stepped : Bool := false
  /-- the RTC (Silt domain): count in 2⁻¹⁵ s, validity, and the saved TIM_ERR (R154, R155) -/
  rtc : Nat := 0
  rtcValid : Bool := false
  rtcErr : Nat := 0xFFFFFFFF
  /-- elapsed time at which the RTC count was last loaded -/
  rtcEl : Nat := 0
deriving DecidableEq, Repr

/-! ### Metrology (06_metrology.md) -/

/-- The window of Urms(1/2) of a voltage channel (R191). -/
structure Wave where
  /-- squares of the last samples in µV², newest first -/
  sq    : List Rat := []
  /-- samples since the last zero crossing, and in the half cycle before it; 0 where that one is not whole -/
  half  : Nat := 0
  prev  : Nat := 0
  /-- a crossing has been seen -/
  begun : Bool := false
  /-- refreshes at nominal half-cycle steps since the last crossing -/
  steps : Nat := 0
  /-- the mean square over the cycle that a crossing has ended, waiting for its refresh -/
  due   : Option Rat := none
deriving DecidableEq, Repr

/-- An analog channel's measuring state (R170 to R174). -/
structure Chan where
  /-- path A gain code: ×1 (0), ×4 (1), ×16 (2), ×64 (3) -/
  gain   : Nat := 0
  /-- settling instants left (R170) -/
  settle : Nat := 0
  /-- sample instants since the reference instant, and the peaks of the last 320 of them (R171) -/
  sinceRef : Nat := 0
  peaks  : List Rat := []
  /-- instants in a row with paths A and F differing by more than 0.5 % (R173) -/
  differ : Nat := 0
  /-- the last 4 codes as parts of full scale with their gain, newest first (the delay of R174) -/
  past   : List (Rat × Nat) := []
  /-- last calibrated sample in µV or µA -/
  x      : Rat := 0
  /-- the cycle that Urms(1/2) is taken over (R191) -/
  wave   : Wave := {}
  /-- sums of the period: Σx, Σx², max |x|, samples -/
  sx     : Rat := 0
  sxx    : Rat := 0
  px     : Rat := 0
  n      : Nat := 0
  /-- samples kept for a capture, newest first (R204) -/
  cap    : List Int := []
deriving DecidableEq, Repr

/-- The running sums of R177. -/
structure Sums where
  svv : Vector Rat 3 := Vector.replicate 3 0
  sii : Vector Rat 3 := Vector.replicate 3 0
  svi : Vector Rat 3 := Vector.replicate 3 0
  sqi : Vector Rat 3 := Vector.replicate 3 0
  sloss : Rat := 0
  n   : Nat := 0
deriving DecidableEq, Repr

/-- States of a phase under R192. -/
inductive PqState where
  | normal | sag | swell | intr
deriving DecidableEq, Repr

structure PqPhase where
  st : PqState := .normal
  /-- lowest or highest Urms(1/2) of the event in µV, and its refreshes so far (R193, R200) -/
  ext : Nat := 0
  refreshes : Nat := 0
deriving DecidableEq, Repr

/-- One metrology engine (units 0 to 7) or the grid monitor (unit 8). -/
structure Engine where
  fn   : Func := {}
  /-- delivery in progress, and the closed deliveries of the period -/
  dlv  : Sums := {}
  per  : Sums := {}
  remVeh : Rat := 0
  remQ : Rat := 0
  /-- what the period handed over so far: e_mtr (exact), whole veh, whole loss, abs wq, quadrant -/
  eMtr : Rat := 0
  incVeh : Int := 0
  incExp : Nat := 0
  incLoss : Nat := 0
  incReact : Nat := 0
  quadrant : Nat := 0
  /-- flags of the period in progress -/
  fStart : Bool := false
  fStep  : Bool := false
  fReading : Bool := false
  fBridged : Bool := false
  fCreep : Bool := false
  /-- the site time at which the period in progress began, where that was no period boundary: a start or a step (R158, R188) -/
  begun : Option Nat := none
  phases : Vector PqPhase 3 := Vector.replicate 3 {}
  /-- waiting messages by type PERIOD, PQ_EVENT, HARMONICS, CAPTURE (R199) -/
  waiting : List (List QData) := []
  /-- capture: samples still to take and the site time of the first (R204) -/
  capLeft : Option Nat := none
  capTime : Nat := 0
  /-- harmonic window results: each ended window with its instant and (channel, THD and harmonics 1-63), waiting in order;
  the published ones (R182) -/
  harmWait : List (Nat × List (Nat × List Nat)) := []
  harm : List (Nat × List Nat) := []
deriving DecidableEq, Repr

/-- A pulse output (R194, R195). -/
structure Pulse where
  acc : Rat := 0
  backlog : Nat := 0
  emitted : BitVec 16 := 0
  /-- sample periods the output stays high, then the low periods still due -/
  high : Nat := 0
  low  : Nat := 0
deriving DecidableEq, Repr

structure MtrState where
  eng : Vector Engine 9 := Vector.replicate 9 {}
  ch  : Vector Chan 64 := Vector.replicate 64 {}
  pulse : Vector Pulse 4 := Vector.replicate 4 {}
  /-- the pulse output levels -/
  out : BitVec 4 := 0
  /-- sampling has stopped at the cut-off (R228, R517) -/
  stopped : Bool := false
deriving DecidableEq, Repr

/-! ### Billing (07_billing.md) -/

/-- Tariff sources (R208). -/
inductive TariffSource where
  | calendar | override | fallback
deriving DecidableEq, Repr

/-- An interval in progress (R219, R222, R236). -/
structure Interval where
  /-- site time and elapsed time of its start -/
  start : Nat := 0
  since : Nat := 0
  flags : Byte := 0
  imp : Nat := 0
  exp : Nat := 0
  q   : Vector Nat 4 := Vector.replicate 4 0
deriving DecidableEq, Repr

/-- An override of a slice (R217, R218). -/
structure Override where
  tariff : Nat
  start  : Nat
  minutes : Nat
  active : Bool
deriving DecidableEq, Repr

/-- What billing holds of a session that has its SESSION_START reading (R244, R245). -/
structure SessRec where
  sid  : Word := 0
  t0   : Nat := 0
  rdSeq : Nat := 0
  imp0 : Nat := 0
  exp0 : Nat := 0
  loss0 : Nat := 0
  e0   : Vector Nat 16 := Vector.replicate 16 0
  quality0 : Nat := 0
  maxErr : Nat := 0
  flags : Byte := 0
  method : Nat := 0
  ref  : List Word := []
deriving DecidableEq, Repr

/-- The billing registers of one slice. -/
structure BilSlice where
  /-- energy registers j = 0-31 in µWh: IMP T1-T16, then EXP T1-T16 -/
  e   : Vector Nat 32 := Vector.replicate 32 0
  q   : Vector Nat 4 := Vector.replicate 4 0
  loss : Nat := 0
  remLoss : Rat := 0
  /-- the engine's delivery remainders as committed with the register set (R209); 0 but in a committed set -/
  comVeh : Rat := 0
  comQ : Rat := 0
  md  : Vector Nat 32 := Vector.replicate 32 0
  mdt : Vector Nat 32 := Vector.replicate 32 0
  dmdLast : Nat := 0
  dmdLastExp : Nat := 0
  /-- duration in s, flags and tariff of the last closed subinterval -/
  infoDur : Nat := 0
  infoFlags : Byte := 0
  infoTariff : Nat := 0
  tariff : Nat := 1
  source : TariffSource := .fallback
  ovr : Option Override := none
  ovrCancel : Bool := false
  dmd : Interval := {}
  /-- the closed subintervals of the sliding demand, newest first: (imp, exp, duration in ns) (R220) -/
  past : List (Nat × Nat × Nat) := []
  lp  : Option Interval := none
  /-- site time of the last executed boundary of each remembered type (R224, R226) -/
  lastDmd : Nat := 0
  lastLp : Nat := 0
  lastBp : Nat := 0
  lastCal : Nat := 0
  rdSeq : Nat := 0
  krSeq : Nat := 0
  lpSeq : Nat := 0
  /-- tamper types counted since the slice's previous BILLING_PERIOD reading (R240) -/
  tampered : BitVec 24 := 0
  sess : Option SessRec := none
  /-- episodes of types 6, 20, 21 and 22 in progress (R247) -/
  ep6 : Bool := false
  /-- periods in a row in which the type 20 condition held, by phase, up to 5 -/
  ep20 : Vector Nat 3 := Vector.replicate 3 0
  ep21 : Bool := false
  ep22 : Bool := false
  /-- elapsed time since which the PHASE_MISSING condition holds for each phase (type 21) -/
  pm21 : Vector (Option Nat) 3 := Vector.replicate 3 none
deriving DecidableEq, Repr

/-- A tamper record (R246). -/
structure Tamper where
  count : Nat := 0
  first : Nat := 0
  last  : Nat := 0
deriving DecidableEq, Repr

/-- A calendar block that R213 accepts, decoded (R212). -/
structure Calendar where
  calId : Word
  activate : Nat
  stdOffset : Int
  dstOffset : Nat
  /-- month, week, weekday, time in 15-minute steps -/
  dstStart : Nat × Nat × Nat × Nat
  dstEnd : Nat × Nat × Nat × Nat
  billDay : Nat
  billTime : Nat
  mdAuto : Bool
  /-- (month, day, day types Monday to Sunday) -/
  seasons : List (Nat × Nat × List Nat)
  /-- for each of the 8 day types its switch points (hour, minute, tariff) -/
  dayTypes : List (List (Nat × Nat × Nat))
  /-- (year or 0xFFFF, month, day, day type) -/
  specials : List (Nat × Nat × Nat × Nat)
deriving DecidableEq, Repr

/-- A block that waits for the signer, or that it keeps for want of a path (R241 to R243). -/
structure SignJob where
  /-- true: a signed reading; false: a Karurn record -/
  reading : Bool
  kind  : Nat
  slice : Nat
  /-- the issuing agent of an ON_REQUEST reading -/
  agent : Agent
  /-- the block without its signature -/
  bytes : List Byte
  rdSeq : Nat
deriving DecidableEq, Repr

/-- An entry of the panel's update journal (R452): running or not, table and frame number; whether it is there, and the
CRC and the kind of the last completed operation. -/
structure RgnJournal where
  running : Bool := false
  table : Nat := 0
  frame : Nat := 0
  valid : Bool := false
  crc : Word := 0
  update : Bool := false
deriving DecidableEq, Repr

/-- A power-fail snapshot (R227, R469). -/
structure Snapshot where
  seq : Nat
  time : Nat
  slices : Vector BilSlice 8
  uses : List Nat
  spaces : Vector IdSpace 13
  trialSec : Nat
  words : List (Nat × List QData)
  jobs : List SignJob
  overflow : Bool
  /-- ms from the trip to the commit -/
  ms : Nat
  /-- the panel journal: PR0 to PR15, then the strip -/
  panel : List RgnJournal
deriving DecidableEq, Repr

structure BilState where
  s : Vector BilSlice 8 := Vector.replicate 8 {}
  tamper : Vector Tamper 24 := Vector.replicate 24 {}
  active : Option Calendar := none
  armed : Option Calendar := none
  calReason : Nat := 0
  /-- blocks that wait for the signer, in the order they were taken -/
  jobs : List SignJob := []
  /-- records kept for want of a path to the store (R243), oldest first, at most 64 -/
  noPath : List SignJob := []
  /-- the two copies of the register set in the billing area, with a commit count and site time (R209) -/
  copyA : Nat × Nat × Vector BilSlice 8 := (0, 0, Vector.replicate 8 {})
  copyB : Nat × Nat × Vector BilSlice 8 := (0, 0, Vector.replicate 8 {})
  /-- the newest snapshot is newer than both copies: no restore has committed since it (R230, R518) -/
  snapLive : Bool := false
  /-- snapshot slots 0 and 1, and the Silt-domain pointer (R229) -/
  snap0 : Option Snapshot := none
  snap1 : Option Snapshot := none
  siltPtr : Option Nat := none
  /-- tail record: the register sets with the increments since the snapshot reading, and the site time of the
  last sample included (R228) -/
  tail : Option (Vector BilSlice 8 × Nat) := none
  /-- the armed calendar's block -/
  armedBytes : List Byte := []
  /-- blocks written so far into the signed reading ring and the Karurn ring of the store (R244, R467) -/
  rdCount : Nat := 0
  karCount : Nat := 0
deriving DecidableEq, Repr

/-! ### Connector control (08_connector.md) -/

/-- Session states (R258). -/
inductive Sess where
  | idle | plugged | authorizing | authorized | energizing | charging | suspended | stopping | finished | fault
deriving DecidableEq, Repr

/-- Pilot states (R251). -/
inductive Pilot where
  | A | B | C | D | E | F | invalid
deriving DecidableEq, Repr

/-- Who suspended a session (R262). -/
inductive Susp where
  | vehicle | command | grant | lifted
deriving DecidableEq, Repr

/-- How far the close sequence of R265 has come. -/
inductive CloseStep where
  | none | lock | locked | requested | ken | energized
deriving DecidableEq, Repr

/-- A pre-authorisation (R263). -/
structure PreAuth where
  method : Nat
  ref : List Word
  since : Nat
deriving DecidableEq, Repr

structure EvcSlice where
  fn : Func := {}
  st : Sess := .idle
  refuse : Nat := 0
  reason : Nat := 0
  method : Nat := 0
  ref : List Word := []
  sid : Word := 0
  preauth : Option PreAuth := none
  susp : Susp := .lifted
  /-- elapsed times of entry into PLUGGED, AUTHORIZING and ENERGIZING -/
  tPlug : Nat := 0
  tAuth : Nat := 0
  tEnergize : Nat := 0
  /-- accepted pilot state, and the candidate with its count (R251) -/
  pilot : Pilot := .A
  cand : Pilot := .A
  candN : Nat := 0
  highMv : Int := 0
  /-- what Kaolin's pilot comparators follow: elapsed time since which the high level lies in the hold band, and that it
  has left the A band with KENn released and no request, so that a residual self-test is due (R289, R293) -/
  holdSince : Option Nat := none
  leftA : Bool := false
  lowMv : Int := 0
  pwmOn : Bool := false
  duty : Nat := 0
  /-- 0 inert, 1 constant -12 V, 2 constant +12 V, 3 PWM (R252) -/
  drive : Nat := 0
  diode : Bool := false
  /-- HLC_THEN_PWM has fallen back to PWM; the modem reached MATCHED within 20 s of entry into PLUGGED (R253) -/
  fellBack : Bool := false
  matchedInTime : Bool := false
  /-- the state was entered after the last control cycle instant, so the next one does not end it (R262) -/
  young : Bool := false
  ppCode : Nat := 0
  ppOhm : Nat := 0
  grant : Nat := 0
  limiter : Nat := 0
  disc : Bool := false
  limActive : Bool := false
  limDa : Nat := 0xFFFF
  close : CloseStep := .none
  tClose : Nat := 0
  tLsw : Nat := 0
  lockOn : Bool := false
  lockOk : Bool := false
  /-- open sequence: elapsed time at which the wait ends, at which LSWn went off, and FBn seen open -/
  waitEnd : Nat := 0
  waiting : Bool := false
  tOpen : Option Nat := none
  /-- the open sequence ends in SUSPENDED instead of STOPPING (R262, R268) -/
  toSusp : Bool := false
  startTaken : Bool := false
  /-- a SESSION_END reading is due: the close sequence was entered and none was taken since (R268) -/
  endDue : Bool := false
  overRun : Nat := 0
  ops : Nat := 0
  /-- DC module: sequence sent, status byte, module sequence, freshness, arrival of the last frame (R275) -/
  txSeq : Byte := 0
  rxStatus : Byte := 0
  rxSeq : Byte := 0
  fresh : Bool := false
  tRx : Nat := 0
  outDv : BitVec 16 := 0
  outDa : BitVec 16 := 0
  /-- the setpoint frame last sent -/
  lastTx : List Byte := []
  /-- connector control asks for the close of KENn: it has toggled its close-request pair (R283) -/
  asking : Bool := false
  /-- a Kaolin trip of the slice that the next control cycle acts on (R318) -/
  tripSeen : Bool := false
deriving DecidableEq, Repr

/-- Green PHY modem states (EVC_GP_STATE). -/
inductive GpSt where
  | off | wait | slac | matched | lost
deriving DecidableEq, Repr

structure Modem where
  st : GpSt := .off
  atten : Nat := 0
  attempts : Nat := 0
  /-- the attenuation of each other modem that runs or ran the SLAC with the same vehicle at the same time (R274) -/
  rivals : Vector (Option Nat) 8 := Vector.replicate 8 none
  /-- the EV MAC address of the SLAC in progress and of the match -/
  slacMac : BitVec 48 := 0
  mac : BitVec 48 := 0
  nmk : BitVec 128 := 0
  tRx : Nat := 0
  /-- the Ethernet frame last sent on the line -/
  lastTx : List Byte := []
deriving DecidableEq, Repr

structure EvcState where
  s : Vector EvcSlice 8 := Vector.replicate 8 {}
  gp : Vector Modem 8 := Vector.replicate 8 {}
  /-- the frame last sent on CAN0 and CAN1 -/
  canTx : Vector (Option CanFrame) 2 := Vector.replicate 2 none
deriving DecidableEq, Repr

/-! ### Kaolin (09_kaolin.md) -/

/-- Slice machine states (R314). -/
inductive KaoSt where
  | unconfirmed | armed | tripped | lockout
deriving DecidableEq, Repr

structure KaoSlice where
  st : KaoSt := .unconfirmed
  ken : Bool := false
  req : Bool := false
  fb : Bool := false
  /-- release window: elapsed time of its start (R296) -/
  window : Option Nat := none
  resValid : Bool := false
  resSince : Nat := 0
  resRunning : Bool := false
  resFail : Bool := false
  resPassed : BitVec 16 := 0
  resCmd : Bool := false
  refuse : Nat := 0
  escCount : Nat := 0
  escSince : Nat := 0
  active : BitVec 16 := 0
  latched : BitVec 16 := 0
  /-- the raw conditions as far as they are known, the charge of each filter in ns, and the elapsed time at which the
  charge had that value (R299) -/
  raw : BitVec 16 := 0
  charge : Vector Nat 16 := Vector.replicate 16 0
  chargeAt : Vector Nat 16 := Vector.replicate 16 0
  /-- elapsed times of the last trip and of the last close request: what comes together with them (R301, R318) -/
  tripAt : Option Nat := none
  reqAt : Option Nat := none
  tripSource : Nat := 0
  tripAction : Nat := 0
  tripDetail : Nat := 0
  tripTest : Bool := false
  /-- source forced by TRIP_TEST and the elapsed time of the command -/
  force : Option (Nat × Nat) := none
  imdAlarm : Bool := false
  imdWarn : Bool := false
  imdFault : Bool := false
  imdValid : Bool := false
  imdKohm : Nat := 0
  /-- elapsed time since which the rearm conditions hold (R315) -/
  rearmSince : Option Nat := none
  /-- XCHECK histories: diag 0 beats in a row, RES_PATH and BYPASS periods, SESSION reads (R323) -/
  xDiag : Nat := 0
  xRes : Nat := 0
  xByp : Nat := 0
  xSess : Nat := 0
  xSessAt : Nat := 0
  xDetail : Nat := 0
  /-- the metrology period last evaluated, and KENn released with FBn open throughout the present one (R323) -/
  xPeriod : Nat := 0
  xBypOk : Bool := false
  /-- the 64-byte slice block in use (R307) -/
  block : List Nat := []
  /-- elapsed time of the last residual self-test (R293) -/
  resLast : Nat := 0
  /-- the queue message kept for want of room (R330) -/
  kept : Option (List QData) := none
deriving DecidableEq, Repr

/-- One copy of the confirmation cell (R312). -/
structure KaoCell where
  seq : Nat := 0
  /-- the copy was verified after its write and marked valid: its CRC matches -/
  valid : Bool := true
  check : Word := 0
  confirmed : Byte := 0
  lockout : Byte := 0
  upstream : Byte := 0
  trips : Vector Nat 8 := Vector.replicate 8 0
deriving DecidableEq, Repr

structure KaoState where
  m : Vector KaoSlice 8 := Vector.replicate 8 {}
  /-- section NONE, received (not bad), bad (R308) -/
  received : Bool := false
  bad : Bool := false
  badReason : Nat := 0
  badSlice : Nat := 0
  badSource : Nat := 0
  check : Word := 0
  /-- the common part in use (R305) -/
  common : List Nat := []
  /-- the two copies of the confirmation cell (R312) -/
  cellA : KaoCell := {}
  cellB : KaoCell := {}
  internal : Nat := 0
  selfTest : Bool := false
  estop : Bool := false
  hbLost : Bool := true
  /-- elapsed time of the last accepted beat, beats in a row, last count, diag, losses (R319 to R322) -/
  hbLast : Nat := 0
  hbRun : Nat := 0
  hbCount : BitVec 16 := 0
  hbDiag : Byte := 0
  hbLosses : Nat := 0
  /-- grace time: elapsed time of its start (R321) -/
  grace : Option Nat := none
deriving DecidableEq, Repr

/-! ### Load switches (10_load_switches.md) -/

/-- Channel states (R345). -/
inductive LswSt where
  | off | inrush | on | backoff | latched | lockedOff
deriving DecidableEq, Repr

structure LswChan where
  st : LswSt := .off
  reason : Nat := 0
  used : Nat := 0
  demand : Bool := false
  hold : Bool := false
  /-- elapsed time of entry into the state, of the turn-on, and when the backoff ends -/
  since : Nat := 0
  onSince : Nat := 0
  /-- elapsed time at which the channel restarts after its group's supply has recovered (R352) -/
  restart : Option Nat := none
  backoffEnd : Nat := 0
  ma : Nat := 0
  tj : Int := -40
deriving DecidableEq, Repr

structure LswState where
  c : Vector LswChan 16 := Vector.replicate 16 {}
  limp : Bool := false
  lin : BitVec 8 := 0
  uv : BitVec 4 := 0
  /-- elapsed time of the fall of each group's supply (R352) -/
  uvSince : Vector Nat 4 := Vector.replicate 4 0
  totalMa : Nat := 0
  lastShed : Nat := 0
  /-- the group supplies as last measured (LSW_VLSW) -/
  vlsw : Word := 0
deriving DecidableEq, Repr

/-! ### Power-line mesh and zero-crossing channel (11_powerline.md) -/

/-- A neighbour entry (R367, R368); snr and fail are exact averages. -/
structure Neighbour where
  addr : BitVec 16
  snr : Rat
  fail : Rat
  penalty : Nat
  /-- path cost and hops of its last BEACON; none before one -/
  advertised : Option (Nat × Nat)
  /-- elapsed time of the last good frame -/
  heard : Nat
deriving DecidableEq, Repr

/-- A route entry (R369). -/
structure MeshRoute where
  dest : BitVec 16
  next : BitVec 16
  cost : Nat
  hops : Nat
  used : Nat
deriving DecidableEq, Repr

/-- mesh transmitter states (PLC_STATUS.tx). -/
inductive MeshTx where
  | idle | defer | sending | reduced
deriving DecidableEq, Repr

/-- A frame the modem is to send or waits to have acknowledged. -/
structure MeshJob where
  frame : MeshFrame
  /-- attempts made so far and the deferral exponent k (R360, R370) -/
  attempts : Nat
  k : Nat
  /-- the frame comes from PLC_TX, and a PLC_TX_DONE is due -/
  own : Bool
  /-- fragment of a SIGNED_READING block (R378) -/
  frag : Bool
  degraded : Bool
  /-- elapsed time at which the frame entered this node, and the age it came with (R371) -/
  since : Nat
  ageIn : BitVec 16
deriving DecidableEq, Repr

/-- A frame of this node whose message ID has not been issued, or a reply without a route (R373, R375). -/
inductive MeshOrig where
  | beacon (first : Bool)
  | route (ftype : Nat) (ldst dest : BitVec 16) (cost hops : Nat)
  | reply (payload : List Byte) (key : BitVec 256)
deriving DecidableEq, Repr

structure PlcState where
  mesh : Func := {}
  zx : Func := {}
  nbrs : List Neighbour := []
  routes : List MeshRoute := []
  /-- the duplicate cache (R372): origin, message ID, elapsed time -/
  cache : List (BitVec 16 × Word × Nat) := []
  tx : MeshTx := .idle
  /-- the frame being sent, deferred or waiting for its ACK, and frames waiting to be sent -/
  cur : Option MeshJob := none
  awaitAck : Option Nat := none
  waiting : List MeshJob := []
  /-- mains cycles that the deferral of cur lasts; 0 with none (R360) -/
  deferCycles : Nat := 0
  /-- the acknowledgement on the line (R370) -/
  ack : Option MeshJob := none
  /-- frames of this node that wait for their message ID -/
  held : List MeshOrig := []
  /-- the frame on the line: the tone in kHz of each of its bits, its amplitude in mV peak to peak, the bits sent and
  the bits in a row at the driver's limit at the lowered amplitude (R359, R365) -/
  txTones : List Nat := []
  txMv : Nat := 0
  txBit : Nat := 0
  limRun : Nat := 0
  /-- SIGNED_READING block in progress: bytes, next fragment, message ID of fragment 0 -/
  block : Option (List Byte × Nat × Word) := none
  lastBeacon : Nat := 0
  /-- elapsed time of a staging write of the pair or level that no frame end has taken (R362) -/
  stagedAt : Option Nat := none
  lastDecay : Nat := 0
  idWait : Bool := false
  stopped : Bool := false
  /-- PLC_ZX_SEQ, retained (R382), and the last authenticated message (PLC_ZX_MSG) -/
  zxSeq : Word := 0
  zxLast : BitVec 64 := 0
  /-- a message whose check succeeded and that awaits its commit: message, sequence, site time of the last bit -/
  zxAwait : Option (BitVec 64 × Word × Nat) := none
  /-- the receiver: d of the mains cycles of the sync search or of a bit begun, and the bits received after the sync
  (R379) -/
  zxWin : List Int := []
  zxMsg : Option (List ZxBit) := none
  /-- mains cycles counted while the channel runs, and the count at the last bit of the last whole message (R385) -/
  zxCount : Nat := 0
  zxBitAt : Nat := 0
  /-- the confirmation on ZXI_DRV: whether each of its mains cycles has a pulse, and a pulse's width in ns (R385) -/
  zxiPulses : List Bool := []
  zxiWidth : Nat := 0
  /-- the count of mains cycles at which the confirmation began -/
  confAt : Nat := 0
  /-- confirmation waiting or sending: body and the count of mains cycles at its slot; sending; the pending slot -/
  conf : Option (Word × Nat) := none
  confSending : Bool := false
  confPending : Option (Word × Nat) := none
deriving DecidableEq, Repr

/-! ### Key store (12_keys.md) -/

/-- Slot states (R396). -/
inductive KeySt where
  | empty | valid | orphaned | expired | exhausted | invalid
deriving DecidableEq, Repr

/-- Staged copy states (KEY_SLOT.staged). -/
inductive StagedSt where
  | none | staged | verified
deriving DecidableEq, Repr

/-- One copy of a slot: type, parent, attributes, limit, import serial and material (R393). -/
structure KeyCopy where
  ktype : Nat := 0
  parent : Nat := 0
  attrs : Byte := 0
  limit : Word := 0
  serial : Word := 0
  /-- secret or private scalar; public key X then Y -/
  secret : BitVec 256 := 0
  pub : BitVec 512 := 0
  /-- the certificate of a CERT import -/
  cert : List Byte := []
deriving DecidableEq, Repr

structure KeySlot where
  st : KeySt := .empty
  live : KeyCopy := {}
  staged : StagedSt := .none
  copy : KeyCopy := {}
  /-- known-answer message and answer; the staged copy was generated (R407) -/
  katMsg : BitVec 256 := 0
  katExp : BitVec 256 := 0
  generated : Bool := false
  gen : Byte := 0
  uses : Nat := 0
  /-- committed reservation or count of the slot record (R400) -/
  reserved : Nat := 0
  impser : Word := 0
  /-- elapsed time of the last commit of the count, and of the uses of the last second (R400) -/
  tUse : Nat := 0
  recent : List Nat := []
deriving DecidableEq, Repr

structure KeyState where
  slots : Vector KeySlot 64 := Vector.replicate 64 {}
  /-- the two shares of KROOT (R389, R390) -/
  share : Option (BitVec 256 × BitVec 256) := none
  rootGen : Byte := 0
  tamper : Bool := false
  rngOk : Bool := false
  /-- elapsed time of the last replacement of the mask share (R390) -/
  tMask : Nat := 0
  /-- a Silt reset expired a slot while the dies were held: KEY_FLAGS.expired is due (R401) -/
  darkExpired : Bool := false
deriving DecidableEq, Repr

/-! ### Card reader and service tag (13_contactless.md) -/

inductive RdrSt where
  /-- in an exchange, and in one whose card has not answered yet, TAG_RDR_STATUS shows EXCHANGE (R418) -/
  | idle | exchange | awaiting
deriving DecidableEq, Repr

/-- TAG_SVC_STATUS.state without NO_FIELD (that is the field). -/
structure SvcSession where
  rH : BitVec 128
  rD : BitVec 128
  ks : BitVec 128
  rxCtr : Nat
  txCtr : Nat
  frames : Nat
  tLast : Nat
deriving DecidableEq, Repr

/-- A journal entry of the tag store (R433, R435). -/
structure TagJournal where
  blk : Nat
  data : BitVec 256
  marker : Bool
  primary : Bool
  done : Bool
  seq : Nat
deriving DecidableEq, Repr

structure TagState where
  rdr : Func := {}
  rdrSt : RdrSt := .idle
  card : Option Card := none
  /-- the UIDs reported, latest first, each with the polls in which it did not answer since (R417) -/
  seen : List (List Byte × Nat) := []
  tRdr : Nat := 0
  lastPoll : Nat := 0
  pollDue : Bool := false
  rfField : Bool := false
  svc : Func := { st := .running }
  field : Bool := false
  /-- a Part 4 command was answered in the present field (TAG_SVC_STATUS.state ACTIVE) -/
  active : Bool := false
  /-- the level of the FDET output: low while it signals a field -/
  fdet : Bool := true
  tFieldLost : Nat := 0
  /-- rD of an AUTH1 that waits for AUTH2 -/
  pendAuth : Option (BitVec 128 × BitVec 128) := none
  sess : Option SvcSession := none
  authFails : Nat := 0
  locked : Bool := false
  /-- the tag copy of K8 (two shares) (R428) -/
  keyCopy : Option (BitVec 128 × BitVec 128) := none
  /-- supply: VMAIN (0), VSILT (1), HARVEST (2) -/
  supply : Nat := 0
  /-- the tag store: block to 32 bytes, sparse and rising; zero blocks unlisted -/
  store : List (Nat × BitVec 256) := []
  journal : Option TagJournal := none
  /-- the stored energy failed: recovery runs when the tag's supply comes up again (R435) -/
  dead : Bool := false
  jseq : Nat := 0
  lastStep : Nat := 0
  recoveries : Nat := 0
  /-- a deferred host write: agent, block, data, elapsed time of the command (R436) -/
  defer : Option (Agent × Nat × BitVec 256 × Nat) := none
  /-- a signed-reading block being delivered, and the next fragment (R440) -/
  block : Option (List Byte × Nat) := none
  /-- the field-shared map as of the start of the session (R431) -/
  sharedMap : List (Nat × BitVec 256) := []
  /-- the last reply frame to the handheld: status byte and data bytes -/
  reply : List Byte := []
  /-- the frame counter and the CCM tag it carries in a session (R427) -/
  replyProt : Option SvcProt := none
deriving DecidableEq, Repr

/-! ### Panel (14_panel.md) -/

inductive RgnSt where
  | idle | running | clearing | unknown | held
deriving DecidableEq, Repr

structure Region where
  st : RgnSt := .idle
  table : Nat := 0
  /-- expected CRC of the present or last operation -/
  exp : Word := 0
  /-- pending slot: table and expected CRC -/
  pending : Option (Nat × Word) := none
  crc : Word := 0
  lastUpdate : Bool := false
  frame : Nat := 0
  /-- the update has driven its first frame; the band fixed for it (R447) -/
  started : Bool := false
  band : Nat := 0
  done : BitVec 16 := 0
  /-- Silt journal: running, CRC and kind of the last completed operation; none when lost (R452) -/
  jRunning : Bool := false
  jValid : Bool := false
  jCrc : Word := 0
  jUpdate : Bool := false
  /-- the table and the frame number the journal has of the operation (R452) -/
  jTable : Nat := 0
  jFrame : Nat := 0
deriving DecidableEq, Repr

structure PnlState where
  fn : Func := {}
  r : Vector Region 16 := Vector.replicate 16 {}
  /-- the new and the old buffer: pixel index (row × 1024 + column) to grey, sparse, zero (black) unlisted -/
  new : List (Nat × BitVec 4) := []
  old : List (Nat × BitVec 4) := []
  /-- the drive codes other than NONE that the present frame sends on PNL_D0 to PNL_D15, by pixel index (R444) -/
  codes : List (Nat × BitVec 2) := []
  /-- the strip's entry of the journal (R452) -/
  stripJ : RgnJournal := {}
  wave : RegFile := []
  glyph : RegFile := []
  stress : RegFile := []
  /-- the stress counters as last saved (R448) -/
  stressSaved : RegFile := []
  /-- lengths of the four tables by band (R446), computed at FUNC_START -/
  lengths : List (List Nat) := []
  band : Nat := 0
  tempValid : Bool := false
  temp : Nat := 0
  pwrUp : Bool := false
  pwrGood : Bool := false
  /-- elapsed time at which the last update ended -/
  tIdle : Nat := 0
  /-- strip: running with its frame; cells shown; a change waits; must be cleared first -/
  strip : RgnSt := .idle
  stripFrame : Nat := 0
  stripBand : Nat := 0
  stripShown : List Nat := []
  /-- the strip's operation has driven its first frame -/
  stripStarted : Bool := false
  /-- the strip was cleared since the cold reset and may be drawn (R457) -/
  stripReady : Bool := false
  /-- the UNKNOWN regions and the strip still wait for the CLEAR of R453 -/
  autoClear : Bool := false
  /-- the start of R453 after the configuration load has been tried -/
  autoDone : Bool := false
  /-- elapsed time of the last save of the stress counters (R448) -/
  tStress : Nat := 0
  stopped : Bool := false
deriving DecidableEq, Repr

/-! ### Retained store (15_store_update.md) -/

structure StoState where
  /-- the bytes of the MRAM die that agents and the loader read and write, by address (R459) -/
  mram : Memory := []
  holdup : Bool := false
  scrubRunning : Bool := false
  /-- elapsed time of the last completed pass -/
  scrubAt : Nat := 0
  eccBad : Nat := 0
  eccFixed : Nat := 0
  ueAddr : Nat := 0
  /-- addresses of uncorrectable words (R462) -/
  bad : List Nat := []
  pfValid : Bool := false
  pfOverflow : Bool := false
  pfMs : Nat := 0
  pfBlocks : Nat := 0
  pfWords : Nat := 0
  /-- the store writer has stopped (R515 step 7) -/
  stopped : Bool := false
deriving DecidableEq, Repr

/-! ### Aulan host link (16_aulan.md) -/

inductive PortSt where
  | down | training | up
deriving DecidableEq, Repr

/-- What a transmitter sends on its line (R486, R489): bytes `first` to `stop` of a frame, counted from its first header
byte, with SOF before the first and EOF after the last; PRE and RES around the C0 frames that interrupt it. -/
inductive WireItem where
  | bytes (f : RingFrame) (first stop : Nat)
  | pre | res
deriving DecidableEq, Repr

structure Port where
  st : PortSt := .down
  paused : BitVec 4 := 0
  pausing : BitVec 4 := 0
  /-- (t4 − t1) − (t3 − t2) of the last exchanges in ns, newest first, at most 8 (R502) -/
  delays : List Int := []
  t1 : Option Nat := none
  violations : Nat := 0
  lockLosses : Nat := 0
  /-- elapsed times of the own C0 frames started in this direction (R495) -/
  c0Starts : List Nat := []
  lastReq : Nat := 0
  /-- frames sent through this port, newest first -/
  sent : List RingFrame := []
  /-- what is on the line and follows it, and the elapsed time at which its first item began (R489) -/
  line : List WireItem := []
  lineAt : Nat := 0
  /-- the C1 to C3 frames that wait for the line, oldest first, each with whether it is the module's own (R490) -/
  waiting : List (Bool × RingFrame) := []
  /-- what each class has had of the line, and where the class served last stood: a block of C1 counts 1, of C2 2, of C3 4 -/
  shares : Vector Nat 4 := Vector.replicate 4 0
  shareNow : Nat := 0
  /-- bit c: the last frame of class c was the module's own -/
  ownLast : BitVec 4 := 0
deriving DecidableEq, Repr

structure AulState where
  a : Port := {}
  b : Port := {}
  hostB : Bool := false
  number : Nat := 0
  position : Nat := 0
  numbered : Bool := false
  /-- an ENUM pass has been seen and no number taken yet -/
  enumerating : Bool := false
  idWait : Bool := false
  crc : Nat := 0
  misrouted : Nat := 0
  held : Nat := 0
  sentC0 : BitVec 16 := 0
  syncOff : Int := 0
  /-- frames held in the forwarding buffers, oldest first, each with its arrival port (R491, R492) -/
  rxHeld : List (Bool × RingFrame) := []
  /-- LREP frames that wait for their class or for the host port (R491, R494) -/
  repHeld : List RingFrame := []
  /-- the cut-off has stopped both ports (R505) -/
  stopped : Bool := false
  /-- C0 queues whose front message waits under R495 and was counted -/
  c0Wait : List Nat := []
deriving DecidableEq, Repr

/-! ### Power and reset (17_power_reset.md) -/

structure PwrState where
  pf : Bool := false
  snapshot : Bool := false
  resetReq : Bool := false
  vsiltLow : Bool := false
  vposOk : Bool := false
  vnegOk : Bool := false
  coldCause : Nat := 0
  warmKind : Bool := false
  warmCause : Nat := 0
  siltFound : Bool := false
  warmCount : Nat := 0
  /-- an accepted command asked for a warm reset with this cause, which follows its completion (R113, R477, R481) -/
  warmDue : Option Nat := none
  /-- elapsed times of the trip and of the snapshot's commit -/
  tTrip : Nat := 0
  tSnap : Nat := 0
  /-- a snapshot is taken in this hold-up (R518) -/
  takesSnap : Bool := false
  /-- hold-ups without snapshot: number and site times of first and last (R518), in the Silt domain -/
  darkCount : Nat := 0
  darkFirst : Nat := 0
  darkLast : Nat := 0
  /-- a Silt reset has occurred since the last cold reset -/
  siltReset : Bool := false
  /-- a reset holds every die -/
  held : Bool := false
  /-- elapsed time at which VMAIN was lost, while it is (R154) -/
  tOff : Option Nat := none
  /-- the switches have released at the undervoltage lockout -/
  uvlo : Bool := false
  vmainMv : Nat := 0
  vsiltMv : Nat := 0
  vposMv : Int := 0
  vnegMv : Int := 0
  hkMv : Vector Nat 16 := Vector.replicate 16 0
  hkTemp : Vector (Option Int) 16 := Vector.replicate 16 none
  /-- a compare unit asked for an extra scan (R161, R525) -/
  hkReq : Bool := false
  /-- the VSILT supply is at 2.0 V or above (R510) -/
  siltPresent : Bool := true
  /-- the VSILT supply is below 1.6 V, so that the Silt domain lives on VMAIN alone (R29, R30) -/
  siltGone : Bool := false
deriving DecidableEq, Repr

/-- The device. -/
structure Dev where
  /-- live values of the stored registers, by live address -/
  regs : RegFile := []
  /-- staged words that were written since the last boundary, by live address (R89) -/
  staged : RegFile := []
  /-- registers kept with one view per agent, and captured words (R34): key agent × 2³² + address -/
  views : RegFile := []
  flags : List (Nat × FlagReg) := []
  /-- the application core runs a verified firmware image and acts as A1 (R37) -/
  coreA1 : Bool := false
  reply : Reply := {}
  /-- replies of the accesses of the last Lattice request, in order (R84) -/
  replies : List Reply := []
  /-- the ABORTED response of the application core's last access that an ISLAND_RESET ended (R84, R110) -/
  coreReply : Option Reply := none
  busy : List PendingCmd := []
  hung : List HungAccess := []
  /-- requests released by an ISLAND_RESET that have still to go on (R544) -/
  resume : List Request := []
  permLog : List RateLimit := []
  cfgLog : List RateLimit := []
  log : List LogEntry := []
  logSeq : Nat := 0
  islandRun : BitVec 16 := 0x8803
  /-- islands that stopped on loss of their clock (R109) -/
  clockLost : BitVec 16 := 0
  img : ImgState := {}
  que : QueState := {}
  tim : TimState := {}
  mtr : MtrState := {}
  bil : BilState := {}
  evc : EvcState := {}
  kao : KaoState := {}
  lsw : LswState := {}
  plc : PlcState := {}
  key : KeyState := {}
  tag : TagState := {}
  pnl : PnlState := {}
  sto : StoState := {}
  aul : AulState := {}
  pwr : PwrState := {}
  /-- the model's own counter of open values drawn so far (not state of the spec) -/
  fresh : Nat := 0
deriving DecidableEq, Repr

/-- The state: the device and the commands that wait, first in first out. -/
structure State where
  dev : Dev := {}
  pending : List Instr := []
deriving DecidableEq, Repr

/-- The block right after power-on reset, before its start-up sequence (R523): every register at its reset value,
no image loaded, nothing retained, no command waiting. -/
def State.reset : State := {}

end Sys2Proof.Machine
end

