-- ==== Sys2Proof/Machine/Ops.lean ====
section
/-! DEFINITION. The named operations over registers, memories and the parts of the device that every family
uses: the register file in canonical form, byte memory, draws of free values, the event log, slices and islands,
function states. -/

namespace Sys2Proof.Machine

/-! ### Sparse register files (RegFile) -/

/-- The word listed at an address. -/
def RegFile.find : RegFile → Nat → Option Word
  | [], _ => none
  | (k, v) :: r, a => if k = a then some v else RegFile.find r a

/-- List a word at an address, keeping the addresses rising. -/
def RegFile.put : RegFile → Nat → Word → RegFile
  | [], a, v => [(a, v)]
  | (k, u) :: r, a, v =>
    if a < k then (a, v) :: (k, u) :: r
    else if a = k then (a, v) :: r
    else (k, u) :: RegFile.put r a v

/-- Remove the word listed at an address. -/
def RegFile.del (f : RegFile) (a : Nat) : RegFile := f.filter fun e => e.1 ≠ a

/-- Strictly rising addresses: the canonical form of a staged or view file. -/
def RegFile.sorted (f : RegFile) : Bool := decide ((f.map (·.1)).Pairwise (· < ·))

/-- The canonical form of the live register file: rising addresses, no entry equal to its reset value. -/
def RegFile.wf (f : RegFile) : Bool :=
  RegFile.sorted f && f.all fun e => e.2 ≠ BitVec.ofNat 32 (resetAt e.1)

/-- The value of a register word: the listed one, else its reset value (R15). -/
def RegFile.value (f : RegFile) (a : Nat) : Word := (f.find a).getD (BitVec.ofNat 32 (resetAt a))

/-- Set a register word; a word at its reset value is not listed. -/
def RegFile.set (f : RegFile) (a : Nat) (v : Word) : RegFile :=
  if v = BitVec.ofNat 32 (resetAt a) then f.del a else f.put a v

/-! ### Byte memories (Host.Cell lists) -/

/-- The byte at an address; an unlisted byte reads 0 (log entry 7, DESIGN CHOICE). -/
def Memory.read : Memory → Nat → Byte
  | [], _ => 0
  | (k, v) :: r, a => if k = a then v else Memory.read r a

/-- List a byte, keeping the addresses rising. -/
def Memory.put : Memory → Nat → Byte → Memory
  | [], a, v => [(a, v)]
  | (k, u) :: r, a, v =>
    if a < k then (a, v) :: (k, u) :: r
    else if a = k then (a, v) :: r
    else (k, u) :: Memory.put r a v

/-- Write one byte; a byte of 0 is not listed. -/
def Memory.write (m : Memory) (a : Nat) (v : Byte) : Memory :=
  if v = 0 then m.filter fun e => e.1 ≠ a else m.put a v

/-- Write bytes at rising addresses. -/
def Memory.writes (m : Memory) (a : Nat) : List Byte → Memory
  | [] => m
  | b :: bs => Memory.writes (m.write a b) (a + 1) bs

/-- `n` bytes from an address. -/
def Memory.reads (m : Memory) (a n : Nat) : List Byte := (List.range n).map fun i => m.read (a + i)

/-- The canonical form: rising addresses, no byte of 0 listed. -/
def Memory.wf (m : Memory) : Bool := decide ((m.map (·.1)).Pairwise (· < ·)) && m.all fun e => e.2 ≠ 0

/-! ### Registers of the device -/

/-- The live stored value of the register word at a group, unit and byte offset. -/
def Dev.reg (d : Dev) (g u off : Nat) : Word := d.regs.value (lattice g u off)

/-- Set the live stored value of a register word. -/
def Dev.setReg (d : Dev) (g u off : Nat) (v : Word) : Dev := { d with regs := d.regs.set (lattice g u off) v }

/-- Bits [hi:lo] of a stored register word. -/
def Dev.rfld (d : Dev) (g u off hi lo : Nat) : Nat := fld (d.reg g u off) hi lo

/-- Replace bits [hi:lo] of a word. -/
def setFld (w : Word) (hi lo v : Nat) : Word :=
  BitVec.ofNat 32 (w.toNat - bits w.toNat hi lo * 2 ^ lo + v % 2 ^ (hi + 1 - lo) * 2 ^ lo)

/-- Set bits [hi:lo] of a stored register word. -/
def Dev.setRfld (d : Dev) (g u off hi lo v : Nat) : Dev := d.setReg g u off (setFld (d.reg g u off) hi lo v)

/-- Add to the counter in bits [hi:lo] of a stored register word, saturating. -/
def Dev.count (d : Dev) (g u off hi lo : Nat) (k : Nat := 1) : Dev :=
  d.setRfld g u off hi lo (satAdd (hi + 1 - lo) (d.rfld g u off hi lo) k)

/-- Add to the counter in bits [hi:lo] of a stored register word, modulo its width. -/
def Dev.countMod (d : Dev) (g u off hi lo : Nat) (k : Nat := 1) : Dev :=
  d.setRfld g u off hi lo (d.rfld g u off hi lo + k)

/-- The key of a per-agent view of a register. -/
def viewKey (ag : Agent) (addr : Nat) : Nat := agentNum ag * 0x100000000 + addr

/-- An agent's view of a register kept with one view per agent; 0 before the agent wrote it. -/
def Dev.view (d : Dev) (ag : Agent) (addr : Nat) : Word := (d.views.find (viewKey ag addr)).getD 0

/-- Set an agent's view of a register. -/
def Dev.setView (d : Dev) (ag : Agent) (addr : Nat) (v : Word) : Dev :=
  { d with views := if v = 0 then d.views.del (viewKey ag addr) else d.views.put (viewKey ag addr) v }

/-- Several views of one agent at consecutive words, as bytes, little-endian. -/
def Dev.viewBytes (d : Dev) (ag : Agent) (addr n : Nat) : List Byte :=
  (List.range n).flatMap fun i => leBytes 4 (d.view ag (addr + 4 * i)).toNat

/-- Store bytes into an agent's views at consecutive words. -/
def Dev.setViewBytes (d : Dev) (ag : Agent) (addr : Nat) : Nat → List Byte → Dev
  | 0, _ => d
  | n + 1, bs => Dev.setViewBytes (d.setView ag addr (w32 (fromLE (bs.take 4)))) ag (addr + 4) n (bs.drop 4)

/-! ### Free values -/

/-- Draw a free value: the counter moves on. -/
def Dev.draw (d : Dev) : Nat × Dev := (d.fresh, { d with fresh := d.fresh + 1 })

/-- Round a rational number to a neighbouring integer, the direction free where it is not whole (log entry 4, DESIGN CHOICE). -/
def Dev.round (d : Dev) (q : Rat) : Int × Dev :=
  if q.den = 1 then (q.num, d)
  else (q.floor + (if Config.freeBit d.fresh then 1 else 0), { d with fresh := d.fresh + 1 })

/-! ### The boot record (R463) -/

/-- What the boot record is to hold now. -/
def ImgState.bootRecord (x : ImgState) (seq : Nat) : BootRec :=
  { seq := seq, fwA := x.fwA, fwB := x.fwB, activeSlot := x.activeSlot, boots := x.boots, trialSec := x.trialSec
    cfgArea0 := x.cfgArea0, cfgArea1 := x.cfgArea1, cfgTag0 := x.cfgTag0, cfgTag1 := x.cfgTag1 }

/-- Copy B is the newer one. -/
def ImgState.bootNewerB (x : ImgState) : Bool := decide (x.bootA.seq < x.bootB.seq)

/-- The newer copy. -/
def ImgState.bootNewest (x : ImgState) : BootRec := if x.bootNewerB then x.bootB else x.bootA

/-- Address of a copy, and its size (log entry 120, DEDUCED). -/
def bootAddr (copy : Nat) : Nat := 0x800 * copy

/-- Write the boot record where it has changed: to the older copy, with sequence + 1, which makes the words of that copy
good. -/
def Dev.bootCommit (d : Dev) : Dev :=
  let seq := d.img.bootNewest.seq
  if d.img.bootRecord seq = d.img.bootNewest then d
  else
    let r := d.img.bootRecord (seq + 1)
    let k := if d.img.bootNewerB then 0 else 1
    { d with
      img := { d.img with bootA := if k = 0 then r else d.img.bootA, bootB := if k = 0 then d.img.bootB else r }
      sto := { d.sto with bad := d.sto.bad.filter fun (a : Nat) => decide (a < bootAddr k) || decide (bootAddr k + 0x800 ≤ a) } }

/-- The device takes what a boot record holds. -/
def Dev.takeBoot (d : Dev) (r : BootRec) : Dev :=
  { d with img := { d.img with
      fwA := r.fwA, fwB := r.fwB, activeSlot := r.activeSlot, boots := r.boots, trialSec := r.trialSec
      cfgArea0 := r.cfgArea0, cfgArea1 := r.cfgArea1, cfgTag0 := r.cfgTag0, cfgTag1 := r.cfgTag1 } }

/-- A word of a copy is uncorrectable. -/
def Dev.bootBad (d : Dev) (copy : Nat) : Bool :=
  d.sto.bad.any fun (a : Nat) => decide (bootAddr copy ≤ a) && decide (a < bootAddr copy + 0x800)

/-- What the device takes where neither copy is good: free values within their fields (log entry 120). -/
def freeBoot (n : Nat) : BootRec :=
  { fwA := Config.freeNat n % 7, fwB := Config.freeNat (n + 1) % 7, activeSlot := Config.freeNat (n + 2) % 2
    boots := Config.freeNat (n + 3) % 16, trialSec := Config.freeNat (n + 4) % 65536
    cfgArea0 := Config.freeNat (n + 5) % 4, cfgArea1 := Config.freeNat (n + 6) % 4
    cfgTag0 := Config.freeNat (n + 7) % 65536, cfgTag1 := Config.freeNat (n + 8) % 65536 }

/-- Read the boot record (R462, R478 step 1): where a word of the newer copy is uncorrectable the other one is used. -/
def Dev.readBoot (d : Dev) : Dev :=
  let k := b1 d.img.bootNewerB
  if !d.bootBad k then d
  else if d.bootBad (1 - k) then (({ d with fresh := d.fresh + 9 }).takeBoot (freeBoot d.fresh)).bootCommit
  else (d.takeBoot (if k = 0 then d.img.bootB else d.img.bootA)).bootCommit

/-! ### Vectors indexed by a bounded number -/

/-- Change one element of a vector. -/
def vmod {α : Type} {n : Nat} (v : Vector α n) (i : Fin n) (f : α → α) : Vector α n := v.set i.val (f v[i.val]) i.isLt

/-- The element at a number, if it is in range. -/
def vget? {α : Type} {n : Nat} (v : Vector α n) (i : Nat) : Option α := v[i]?

/-! ### Time -/

/-- Site time in ns (R140). -/
def Dev.now (d : Dev) : Nat := d.tim.now

/-- Elapsed time in ns: unaffected by steps of site time (R86, R128). -/
def Dev.el (d : Dev) : Nat := d.tim.elapsed

/-- Whether at least `ns` of elapsed time passed since `t`. -/
def Dev.after (d : Dev) (t ns : Nat) : Bool := t + ns ≤ d.tim.elapsed

/-- Milliseconds, in ns. -/
def ms (n : Nat) : Nat := n * 1000000

/-- Seconds, in ns. -/
def sec (n : Nat) : Nat := n * 1000000000

/-- The sample period of 62.5 µs, in ns (R26, R144). -/
def samplePeriod : Nat := 62500

/-- The metrology period of 200 ms, in ns (R186). -/
def mtrPeriod : Nat := 200000000

/-! ### The event log (R468) -/

/-- The number an agent has in a log entry: its own, or 0xFF for the device. -/
def logAgent : Option Agent → Nat
  | some a => agentNum a
  | none => 0xFF

/-- Write an event log entry: the newest first, at most the ring's 131 072 entries (R468). `event` is the number
of the logging rule, from which Config.eventNumber gives the entry's own event number. -/
def Dev.logEvent (d : Dev) (g : Group) (event : Nat) (data : List Word) (ag : Option Agent := none)
    (sl : Nat := 0xFF) : Dev :=
  { d with
    logSeq := d.logSeq + 1
    log := ({ time := d.tim.now, seq := d.logSeq + 1, agent := logAgent ag, slice := sl, group := groupNum g,
              event := event, data := data } :: d.log).take 131072 }

/-! ### Slices, kinds and islands -/

/-- The kind of code `k` (R53). -/
def kindOf : Nat → Kind
  | 1 => .ac3
  | 2 => .ac1
  | 3 => .dc
  | 4 => .bidir
  | _ => .absent

/-- The kind of a slice; every slice is ABSENT with no image loaded (R65). -/
def Dev.kind (d : Dev) (n : Nat) : Kind :=
  match d.img.loaded with
  | some im => kindOf (im.kinds.getD n 0)
  | none => .absent

/-- Whether a slice is present. -/
def Dev.present (d : Dev) (n : Nat) : Bool := d.kind n ≠ .absent

/-- DC and BIDIR slices. -/
def Kind.isDc : Kind → Bool
  | .dc => true
  | .bidir => true
  | _ => false

/-- AC3 and AC1 slices. -/
def Kind.isAc : Kind → Bool
  | .ac3 => true
  | .ac1 => true
  | _ => false

/-- The PERSONA byte at an offset (R543); 0 with no image. -/
def Dev.persona (d : Dev) (off : Nat) : Nat :=
  match d.img.loaded with
  | some im => im.persona.getD off 0
  | none => 0

/-- A little-endian 16-bit PERSONA field. -/
def Dev.persona16 (d : Dev) (off : Nat) : Nat := d.persona off + 256 * d.persona (off + 1)

/-- Owner and role of a channel: UNUSED with no image. -/
def Dev.chan (d : Dev) (ch : Nat) : Nat × Nat :=
  match d.img.loaded with
  | some im => im.chans.getD ch (0xFF, 0)
  | none => (0xFF, 0)

/-- A byte of the SWITCH section (R55): UNUSED with no image. -/
def Dev.switchByte (d : Dev) (i : Nat) : Nat :=
  match d.img.loaded with
  | some im => im.switch.getD i 0xFF
  | none => 0xFF

/-- Whether an island runs (R109). -/
def Dev.runs (d : Dev) (i : Nat) : Bool := d.islandRun.getLsbD i

/-- Set or clear an island's run bit. -/
def Dev.setRun (d : Dev) (i : Nat) (on : Bool) : Dev :=
  let m := d.islandRun.toNat
  { d with islandRun := BitVec.ofNat 16 (if on then m ||| 2 ^ i else m - (m &&& 2 ^ i)) }

/-- Islands 0, 1, 11 and 15 are always-run islands (R28). -/
def alwaysRun (i : Nat) : Bool := i = 0 || i = 1 || i = 11 || i = 15

/-- The island a Lattice unit lies in, if any (R27, R111, 08_connector.md): a Green PHY modem in island 2 + n, the
PLC units in island 10. No register of the panel or of the card reader and service tag lies in island 12, 13 or 14
(R423, 14_panel.md). -/
def islandOf (g u : Nat) : Option Nat :=
  if g = 5 ∧ 0x10 ≤ u ∧ u < 0x18 then some (2 + (u - 0x10))
  else if g = 8 ∧ u ≠ 0xFF then some 10
  else none

/-! ### Results that may leave their format -/

/-- Publish a signed result; one outside the 32-bit format reads as a free value (log entry 34, DESIGN CHOICE). -/
def Dev.putInt (d : Dev) (g u off : Nat) (v : Int) : Dev :=
  if -2147483648 ≤ v ∧ v < 2147483648 then d.setReg g u off (wInt v)
  else { d.setReg g u off (Config.freeWord d.fresh) with fresh := d.fresh + 1 }

/-- Publish an unsigned result, likewise. -/
def Dev.putNat (d : Dev) (g u off v : Nat) : Dev :=
  if v < 4294967296 then d.setReg g u off (w32 v)
  else { d.setReg g u off (Config.freeWord d.fresh) with fresh := d.fresh + 1 }

/-! ### Parts of the device, by index -/

/-- Change connector slice `n`. -/
def Dev.updEvc (d : Dev) (n : Fin 8) (f : EvcSlice → EvcSlice) : Dev := { d with evc := { d.evc with s := vmod d.evc.s n f } }

/-- Change modem `n`. -/
def Dev.updGp (d : Dev) (n : Fin 8) (f : Modem → Modem) : Dev := { d with evc := { d.evc with gp := vmod d.evc.gp n f } }

/-- Change Kaolin slice machine `n`. -/
def Dev.updKao (d : Dev) (n : Fin 8) (f : KaoSlice → KaoSlice) : Dev := { d with kao := { d.kao with m := vmod d.kao.m n f } }

/-- Change the state that Kaolin's slice machines share. -/
def Dev.modKao (d : Dev) (f : KaoState → KaoState) : Dev := { d with kao := f d.kao }

/-- Change load switch channel `c`. -/
def Dev.updLsw (d : Dev) (c : Fin 16) (f : LswChan → LswChan) : Dev := { d with lsw := { d.lsw with c := vmod d.lsw.c c f } }

/-- Change metrology unit `u`. -/
def Dev.updEng (d : Dev) (u : Fin 9) (f : Engine → Engine) : Dev := { d with mtr := { d.mtr with eng := vmod d.mtr.eng u f } }

/-- Change an analog channel. -/
def Dev.updCh (d : Dev) (c : Fin 64) (f : Chan → Chan) : Dev := { d with mtr := { d.mtr with ch := vmod d.mtr.ch c f } }

/-- Change a pulse output. -/
def Dev.updPulse (d : Dev) (p : Fin 4) (f : Pulse → Pulse) : Dev := { d with mtr := { d.mtr with pulse := vmod d.mtr.pulse p f } }

/-- Change the billing registers of slice `n`. -/
def Dev.updBil (d : Dev) (n : Fin 8) (f : BilSlice → BilSlice) : Dev := { d with bil := { d.bil with s := vmod d.bil.s n f } }

/-- Change queue `q`. -/
def Dev.updQ (d : Dev) (q : Fin 64) (f : Queue → Queue) : Dev := { d with que := { d.que with q := vmod d.que.q q f } }

/-- Change identifier space `s`. -/
def Dev.updSpace (d : Dev) (s : Fin 13) (f : IdSpace → IdSpace) : Dev :=
  { d with que := { d.que with spaces := vmod d.que.spaces s f } }

/-- Change key slot `k`. -/
def Dev.updKey (d : Dev) (k : Fin 64) (f : KeySlot → KeySlot) : Dev := { d with key := { d.key with slots := vmod d.key.slots k f } }

/-- Change panel region `r`. -/
def Dev.updRgn (d : Dev) (r : Fin 16) (f : Region → Region) : Dev := { d with pnl := { d.pnl with r := vmod d.pnl.r r f } }

/-- Change compare unit `c`. -/
def Dev.updCmp (d : Dev) (c : Fin 16) (f : Cmp → Cmp) : Dev := { d with tim := { d.tim with cmp := vmod d.tim.cmp c f } }

/-- Change Aulan port A or B. -/
def Dev.updPort (d : Dev) (portB : Bool) (f : Port → Port) : Dev :=
  if portB then { d with aul := { d.aul with b := f d.aul.b } } else { d with aul := { d.aul with a := f d.aul.a } }

/-! ### Functions (R102) -/

/-- The code of a function state. -/
def FuncState.code : FuncState → Nat
  | .off => 0
  | .stopped => 1
  | .running => 2
  | .fault => 3

/-- The function of a group and unit (R102): TIM 1, MTR 0 to 8, EVC 0 to 7, PLC 0 and 1, TAG 0 and 1, PNL 0. -/
def Dev.func? (d : Dev) (g : Group) (u : Nat) : Option Func :=
  match g with
  | .tim => if u = 1 then some d.tim.servo else none
  | .mtr => (d.mtr.eng[u]?).map (·.fn)
  | .evc => (d.evc.s[u]?).map (·.fn)
  | .plc => if u = 0 then some d.plc.mesh else if u = 1 then some d.plc.zx else none
  | .tag => if u = 0 then some d.tag.rdr else if u = 1 then some d.tag.svc else none
  | .pnl => if u = 0 then some d.pnl.fn else none
  | _ => none

/-- Set the function of a group and unit. -/
def Dev.setFunc (d : Dev) (g : Group) (u : Nat) (f : Func) : Dev :=
  match g with
  | .tim => if u = 1 then { d with tim := { d.tim with servo := f } } else d
  | .mtr => if h : u < 9 then d.updEng ⟨u, h⟩ fun e => { e with fn := f } else d
  | .evc => if h : u < 8 then d.updEvc ⟨u, h⟩ fun e => { e with fn := f } else d
  | .plc =>
    if u = 0 then { d with plc := { d.plc with mesh := f } }
    else if u = 1 then { d with plc := { d.plc with zx := f } } else d
  | .tag =>
    if u = 0 then { d with tag := { d.tag with rdr := f } }
    else if u = 1 then { d with tag := { d.tag with svc := f } } else d
  | .pnl => if u = 0 then { d with pnl := { d.pnl with fn := f } } else d
  | _ => d

/-- Whether a function is OFF or STOPPED. -/
def Func.idle (f : Func) : Bool := f.st = .off || f.st = .stopped

/-- Whether a function is RUNNING. -/
def Func.isRunning (f : Func) : Bool := f.st = .running

/-- Whether the metrology function of unit `u` is RUNNING. -/
def Dev.mtrRuns (d : Dev) (u : Nat) : Bool :=
  match d.mtr.eng[u]? with
  | some e => e.fn.st = .running
  | none => false

/-! ### Staged values (R89 to R91) -/

/-- The live addresses staged in a unit. -/
def Dev.stagedIn (d : Dev) (g u : Nat) : RegFile := d.staged.filter fun e => e.1 / 0x100000 = g * 0x100 + u

/-- Swap the staged values of a unit into use at one instant (R90). -/
def Dev.swapUnit (d : Dev) (g u : Nat) : Dev :=
  { d with
    regs := (d.stagedIn g u).foldl (fun r e => r.set e.1 e.2) d.regs
    staged := d.staged.filter fun e => e.1 / 0x100000 ≠ g * 0x100 + u }

/-- Discard the staged values of a unit (R73). -/
def Dev.dropStaged (d : Dev) (g u : Nat) : Dev :=
  { d with staged := d.staged.filter fun e => e.1 / 0x100000 ≠ g * 0x100 + u }

/-- Set every stored register of a unit to its reset value (R73). -/
def Dev.defaultUnit (d : Dev) (g u : Nat) : Dev :=
  { d.dropStaged g u with regs := d.regs.filter fun e => e.1 / 0x100000 ≠ g * 0x100 + u }

end Sys2Proof.Machine
end

