-- ==== Sys2Proof/Machine/Flags.lean ====
section
/-! DEFINITION. The flag registers (R92 to R96): hardware set, read, token clear, and the interrupt line they
drive. -/

namespace Sys2Proof.Machine

/-- The flag register at an address; all 0 before its first set (log entry 10, DESIGN CHOICE). -/
def Dev.flagReg (d : Dev) (addr : Nat) : FlagReg := ((d.flags.find? fun e => e.1 = addr).map (·.2)).getD {}

/-- Store a flag register, addresses rising. -/
def putFlag : List (Nat × FlagReg) → Nat → FlagReg → List (Nat × FlagReg)
  | [], a, f => [(a, f)]
  | (k, g) :: r, a, f =>
    if a < k then (a, f) :: (k, g) :: r
    else if a = k then (a, f) :: r
    else (k, g) :: putFlag r a f

/-- Store a flag register of the device. -/
def Dev.putFlag (d : Dev) (addr : Nat) (f : FlagReg) : Dev := { d with flags := Machine.putFlag d.flags addr f }

/-- One hardware event sets the bits of a mask: the 48-bit count rises by 1 and every bit set records it (R93). -/
def FlagReg.raise (f : FlagReg) (mask : Nat) : FlagReg :=
  let c := (f.count + 1) % 2 ^ 48
  { f with
    count := c
    bits := f.bits ||| BitVec.ofNat 16 mask
    lastSet := Vector.ofFn fun i : Fin 16 => if mask.testBit i then c else f.lastSet[i] }

/-- A read keeps the full count for the reading agent (R94). -/
def FlagReg.noteRead (f : FlagReg) (ag : Nat) : FlagReg :=
  { f with kept := Vector.ofFn fun i : Fin 6 => if i.val = ag then f.count else f.kept[i] }

/-- The word a read returns: the low 16 bits of the count, and the bits (R92). -/
def FlagReg.word (f : FlagReg) : Word := packW [(16, f.count), (16, f.bits.toNat)]

/-- The count an agent's most recent read returned. -/
def FlagReg.keptOf (f : FlagReg) (ag : Nat) : Nat := (f.kept[ag]?).getD 0

/-- Whether the device accepts a clear write of this agent with this token (R94). -/
def FlagReg.accepts (f : FlagReg) (ag token : Nat) : Bool := token = f.keptOf ag % 2 ^ 16

/-- Whether an accepted clear write clears bit `i` (R95). -/
def FlagReg.clears (f : FlagReg) (ag mask : Nat) (i : Fin 16) : Bool :=
  mask.testBit i && decide (f.lastSet[i] ≤ f.keptOf ag)

/-- An accepted clear write (R95). -/
def FlagReg.clear (f : FlagReg) (ag mask : Nat) : FlagReg :=
  { f with
    bits := BitVec.ofNat 16
      ((List.finRange 16).foldl (fun (acc : Nat) (i : Fin 16) => acc + b1 (f.bits.getLsbD i && !f.clears ag mask i) * 2 ^ i.val) 0) }

/-- A hardware set of flag bits at a group, unit and offset. -/
def Dev.raise (d : Dev) (g u off mask : Nat) : Dev :=
  d.putFlag (lattice g u off) ((d.flagReg (lattice g u off)).raise mask)

/-- A flag register after one hardware event that took it from `old` to `new`: however many of its bits the event set,
the count rises by 1, and every bit set records it (R93). -/
def FlagReg.joined (old new : FlagReg) : FlagReg :=
  if new.count = old.count then new
  else
    let c := (old.count + 1) % 2 ^ 48
    { new with count := c, lastSet := Vector.ofFn fun i : Fin 16 => if new.lastSet[i] = old.lastSet[i] then old.lastSet[i] else c }

/-- Run one hardware event: what it sets in a flag register counts once (R93; log entry 93, DEDUCED). -/
def Dev.oneEvent (d : Dev) (f : Dev → Dev) : Dev :=
  let d1 := f d
  { d1 with flags := d1.flags.map fun (e : Nat × FlagReg) => (e.1, (d.flagReg e.1).joined e.2) }

/-- Whether a flag bit is set. -/
def Dev.flagBit (d : Dev) (g u off b : Nat) : Bool := (d.flagReg (lattice g u off)).bits.getLsbD b

/-- Whether a register row is a flag register (R92). -/
def RegId.isFlags : RegId → Bool
  | .sysOverrun => true
  | .sysFlags => true
  | .sysPwrFlags => true
  | .timFlags => true
  | .timCmpFlags => true
  | .queFlags => true
  | .mtrFlags => true
  | .bilFlags => true
  | .evcFlags => true
  | .kaoFlags => true
  | .lswFlags => true
  | .plcFlags => true
  | .aulFlags => true
  | .keyFlags => true
  | .tagFlags => true
  | .pnlFlags => true
  | .stoFlags => true
  | .imgFlags => true
  | _ => false

/-- SYS_FLAGS (03_lattice.md). -/
def Dev.raiseSys (d : Dev) (b : Nat) : Dev := d.raise 0 0 0x10 (2 ^ b)
/-- TIM_FLAGS. -/
def Dev.raiseTim (d : Dev) (b : Nat) : Dev := d.raise 1 0 0x10 (2 ^ b)
/-- QUE_FLAGS of queue `q`. -/
def Dev.raiseQue (d : Dev) (q b : Nat) : Dev := d.raise 2 q 0xC (2 ^ b)
/-- MTR_FLAGS of unit `u`. -/
def Dev.raiseMtr (d : Dev) (u b : Nat) : Dev := d.raise 3 u 0x10 (2 ^ b)
/-- BIL_FLAGS of slice `n`. -/
def Dev.raiseBil (d : Dev) (n b : Nat) : Dev := d.raise 4 n 0x8 (2 ^ b)
/-- EVC_FLAGS of slice `n`. -/
def Dev.raiseEvc (d : Dev) (n b : Nat) : Dev := d.raise 5 n 0x30 (2 ^ b)
/-- KAO_FLAGS. -/
def Dev.raiseKao (d : Dev) (b : Nat) : Dev := d.raise 6 8 0x18 (2 ^ b)
/-- LSW_FLAGS. -/
def Dev.raiseLsw (d : Dev) (b : Nat) : Dev := d.raise 7 0x10 0x8 (2 ^ b)
/-- PLC_FLAGS. -/
def Dev.raisePlc (d : Dev) (b : Nat) : Dev := d.raise 8 0 0x14 (2 ^ b)
/-- AUL_FLAGS. -/
def Dev.raiseAul (d : Dev) (b : Nat) : Dev := d.raise 9 0 0xC (2 ^ b)
/-- KEY_FLAGS. -/
def Dev.raiseKey (d : Dev) (b : Nat) : Dev := d.raise 10 0x40 0x14 (2 ^ b)
/-- TAG_FLAGS. -/
def Dev.raiseTag (d : Dev) (b : Nat) : Dev := d.raise 11 3 0x0 (2 ^ b)
/-- PNL_FLAGS. -/
def Dev.raisePnl (d : Dev) (b : Nat) : Dev := d.raise 12 0 0x10 (2 ^ b)
/-- STO_FLAGS. -/
def Dev.raiseSto (d : Dev) (b : Nat) : Dev := d.raise 13 0 0x18 (2 ^ b)
/-- IMG_FLAGS. -/
def Dev.raiseImg (d : Dev) (b : Nat) : Dev := d.raise 14 0 0x18 (2 ^ b)
/-- SYS_PWR_FLAGS. -/
def Dev.raisePwr (d : Dev) (b : Nat) : Dev := d.raise 0 1 0x8 (2 ^ b)

/-- The flag registers with an interrupt enable: (group, unit, offset of the flags, offset and low bit of the
enable field). -/
def irqPairs : List (Nat × Nat × Nat × Nat × Nat) :=
  [(0, 0, 0x10, 0x14, 0), (0, 1, 0x8, 0xC, 0), (1, 0, 0x10, 0x18, 0), (1, 0, 0x14, 0x18, 16)] ++
  (List.range 9).map (fun n => (3, n, 0x10, 0x14, 0)) ++
  (List.range 8).map (fun n => (4, n, 0x8, 0xC, 0)) ++
  (List.range 8).map (fun n => (5, n, 0x30, 0x34, 0)) ++
  [(6, 8, 0x18, 0x1C, 0), (7, 0x10, 0x8, 0xC, 0), (8, 0, 0x14, 0x18, 0), (9, 0, 0xC, 0x10, 0),
   (10, 0x40, 0x14, 0x18, 0), (11, 3, 0x0, 0x4, 0), (12, 0, 0x10, 0x14, 0), (13, 0, 0x18, 0x1C, 0),
   (14, 0, 0x18, 0x1C, 0)]

/-- IRQ_N is asserted while a flag bit is set whose enable bit is 1 (the IRQ_EN registers). -/
def Dev.irq (d : Dev) : Bool :=
  irqPairs.any fun (g, u, f, e, lo) =>
    ((d.flagReg (lattice g u f)).bits &&& BitVec.ofNat 16 (bits (d.reg g u e).toNat (lo + 15) lo)) ≠ 0

end Sys2Proof.Machine
end

