-- ==== Sys2Proof/Machine/Access.lean ====
section
/-! DEFINITION. How an access is checked and a command issued: agents present (R36 to R39), grants (R40, R57,
R58), the order of checks (R83 to R86), command status and its views (R97 to R100), hung accesses (R110, R544). -/

namespace Sys2Proof.Machine

/-- What a command completes with (R98); STATE carries the state of the target, which R100 logs. -/
inductive CmdSt where
  | ok | busy | state (target : Nat) | perm | arg | auth | aborted | pending
deriving DecidableEq, Repr

/-- The status codes of R98. -/
def CmdSt.code : CmdSt → Nat
  | .ok => 0
  | .busy => 1
  | .state _ => 2
  | .perm => 3
  | .arg => 4
  | .auth => 5
  | .aborted => 6
  | .pending => 0xFF

/-- The right an access needs: reads, writes, commands (R57). -/
inductive Right where
  | read | write | command
deriving DecidableEq, Repr

/-- The bit of a right in a grant's rights byte (R57). -/
def Right.bitNo : Right → Nat
  | .read => 0
  | .write => 1
  | .command => 2

/-- An agent's hung access exists (R544). -/
def Dev.hangs (d : Dev) (ag : Agent) : Bool := d.hung.any fun h => h.agent = ag

/-- Whether an agent is present (01_architecture.md, Agents; R37, R38). -/
def Dev.agentPresent (d : Dev) : Agent → Bool
  | .boot => !d.coreA1 && !d.pwr.held
  | .core => d.coreA1
  | .host => d.aul.numbered && (if d.aul.hostB then d.aul.b.st else d.aul.a.st) = .up
  | .headend => d.plc.mesh.isRunning && bit (d.reg 8 0 0x28) 0
  | .service => d.tag.sess.isSome && d.tag.supply = 0
  | .kaolin => !d.pwr.held

/-- The application core waits on a hung access of its own (R544). -/
def Dev.coreHangs (d : Dev) : Bool := d.hangs .boot || d.hangs .core

/-- The agent can issue an access now: it is present, and the application core does not wait on a hung access of
its own (R110, R544). -/
def Dev.canIssue (d : Dev) (ag : Agent) : Bool :=
  d.agentPresent ag && !((ag = .boot || ag = .core) && d.coreHangs)

/-- Whether one grant of the image gives a right (R57, R58). -/
def Grant.covers (gr : Grant) (ag g u : Nat) (r : Right) : Bool :=
  gr.agent = ag && gr.group = g && gr.first ≤ u && u ≤ gr.last && nbit gr.rights r.bitNo

/-- The rights of A0 that hold whether or not an image is loaded (R40, R58). -/
def bootRight (g : Nat) (r : Right) : Bool :=
  g = 0 || g = 0xD || g = 0xE || g = 9 || g = 0xB || (g = 0xA && r = .read)

/-- The units A5 reads (R324): all of KAO, the engines and channels of MTR, and the slices of EVC. Which of their
registers it reads is in `kaolinReads` of Lattice.lean. -/
def kaolinRight (g u : Nat) (r : Right) : Bool :=
  r = .read && (g = 6 || (g = 5 && u < 8) || (g = 3 && (u < 8 || (0x40 ≤ u && u ≤ 0x77))))

/-- Whether a grant covers the access (R40, R57, R58). -/
def Dev.granted (d : Dev) (ag : Agent) (g u : Nat) (r : Right) : Bool :=
  match ag with
  | .kaolin => d.img.loaded.isSome && kaolinRight g u r
  | _ =>
    (match d.img.loaded with
     | some im => im.perms.any fun gr => gr.covers (agentNum ag) g u r
     | none => ag = .host && g = 0 && r = .read) ||
    (ag = .boot && bootRight g r)

/-- The answer to an access (R84). -/
def Dev.answer (d : Dev) (ag : Agent) (st : CmdSt) (data : Word := 0) : Dev :=
  { d with reply := { agent := ag, status := BitVec.ofNat 8 st.code, data := data } }

/-- The rate limit of R86 and R551: whether an entry is written now, the number it carries, and the new list. -/
def limitLog (ls : List RateLimit) (ag : Agent) (key now : Nat) : Option Nat × List RateLimit :=
  match ls.find? fun l => l.agent = ag && l.key = key with
  | none => (some 1, { agent := ag, key := key, last := now, count := 0 } :: ls)
  | some l =>
    if l.last + sec 1 ≤ now then
      (some (l.count + 1), ls.map fun x => if x.agent = ag && x.key = key then { x with last := now, count := 0 } else x)
    else (none, ls.map fun x => if x.agent = ag && x.key = key then { x with count := x.count + 1 } else x)

/-- An access completes with PERM (3) (R86): counted, flagged, and logged at most once a second of elapsed time
for the agent and group. -/
def Dev.permReject (d : Dev) (ag : Agent) (g : Nat) : Dev :=
  let d1 := (d.count 0 0 0x24 31 0).raiseSys 2
  let (entry, ls) := limitLog d.permLog ag g d.el
  let d2 := { d1 with permLog := ls }
  match entry with
  | some k => (d2.logEvent .sys 86 [w32 g, w32 k] (some ag)).answer ag .perm
  | none => d2.answer ag .perm

/-- A command completes with STATE (2) (R100): counted, flagged and logged, with no other effect. -/
def Dev.stateReject (d : Dev) (ag : Agent) (g u op target : Nat) : Dev :=
  (((d.count 0 0 0x20 31 0).raiseSys 1).logEvent .sys 100 [packW [(8, g), (8, u), (8, op)], w32 target] (some ag)).answer
    ag (.state target)

/-- The address of <GRP>_CMDST. -/
def cmdstAddr (g : Nat) : Nat := lattice g 0xFF 4

/-- The view of <GRP>_CMDST after a write that passes check 2: the opcode, the sequence + 1, and a status (R97). -/
def Dev.noteCommand (d : Dev) (ag : Agent) (g op : Nat) (st : CmdSt) : Dev :=
  d.setView ag (cmdstAddr g) (packW [(8, op), (16, fld (d.view ag (cmdstAddr g)) 23 8 + 1), (8, st.code)])

/-- The status field of an agent's <GRP>_CMDST view. -/
def Dev.cmdStatus (d : Dev) (ag : Agent) (g : Nat) : Nat := fld (d.view ag (cmdstAddr g)) 7 0

/-- The sequence field of an agent's <GRP>_CMDST view. -/
def Dev.cmdSeq (d : Dev) (ag : Agent) (g : Nat) : Nat := fld (d.view ag (cmdstAddr g)) 23 8

/-- A PENDING command of the group ends (R98, R99): its agent sees the status, unless a later write replaced the
view. -/
def Dev.endCommand (d : Dev) (g : Nat) (st : CmdSt) : Dev :=
  match d.busy.find? fun b => groupNum b.group = g with
  | none => d
  | some b =>
    let d1 := { d with busy := d.busy.filter fun x => groupNum x.group ≠ g }
    let v := d.view b.agent (cmdstAddr g)
    if fld v 7 0 = 0xFF then d1.setView b.agent (cmdstAddr g) (setFld v 7 0 st.code) else d1

/-- Issue a command (R83, R85, R97 to R101). `u` is the unit its argument names, or 0xFF. `h` is the command's own
meaning: ARG and STATE checks first, then its effect. A command that ends with STATE or PERM leaves only the
status behind. -/
def issueCommand (ag : Agent) (g op : Nat) (arg : BitVec 24) (u : Nat) (h : Dev → CmdSt × Dev) (d : Dev) : Dev :=
  if !d.canIssue ag then d
  else if !d.granted ag g u .command then d.permReject ag g
  else if d.busy.any fun b => groupNum b.group = g then (d.noteCommand ag g op .busy).answer ag .busy
  else
    match h d with
    | (.state t, _) => (d.noteCommand ag g op (.state t)).stateReject ag g u op t
    | (.perm, _) => (d.noteCommand ag g op .perm).permReject ag g
    | (.pending, d1) =>
      let d2 := (d1.noteCommand ag g op .pending).answer ag .pending
      { d2 with busy := { group := groupOf g, agent := ag, opcode := BitVec.ofNat 8 op, arg := arg } :: d2.busy }
    | (st, d1) => (d1.noteCommand ag g op st).answer ag st

/-- The unit a command names in argument [23:16] (R85). -/
def argUnit (arg : BitVec 24) : Nat := argBits arg 23 16

/-- A command whose argument is 0 completes with ARG for any other. -/
def noArg (arg : BitVec 24) (h : Dev → CmdSt × Dev) (d : Dev) : CmdSt × Dev := if arg = 0 then h d else (.arg, d)

/-- An access reaches a crossing into a stopped island and waits there (R110). -/
def Dev.hang (d : Dev) (ag : Agent) (isl addr : Nat) : Dev :=
  { d.answer ag .pending with
    hung := d.hung ++ [{ agent := ag, island := isl, addr := addr, since := d.el, noted := false }] }

/-- The stopped island an access to a unit would wait at, if any (R110). -/
def Dev.stoppedIsland (d : Dev) (g u : Nat) : Option Nat :=
  match islandOf g u with
  | some i => if d.runs i then none else some i
  | none => none

/-- A write of one mapped register word (R83): the agent, the grant, the crossing, then the register's own effect.
`addr` is the address written, `u` its unit. -/
def writeAccess (ag : Agent) (g u addr : Nat) (eff : Dev → CmdSt × Dev) (d : Dev) : Dev :=
  if !d.canIssue ag then d
  else if !d.granted ag g u .write then d.permReject ag g
  else
    match d.stoppedIsland g u with
    | some i => d.hang ag i addr
    | none =>
      match eff d with
      | (.perm, _) => d.permReject ag g
      | (st, d1) => d1.answer ag st

/-- A read of one mapped register word (R83, R84): a read without a right returns 0. -/
def readAccess (ag : Agent) (g u addr : Nat) (eff : Dev → CmdSt × Word × Dev) (d : Dev) : Dev :=
  if !d.canIssue ag then d
  else if !d.granted ag g u .read then d.permReject ag g
  else
    match d.stoppedIsland g u with
    | some i => d.hang ag i addr
    | none =>
      match eff d with
      | (.perm, _, _) => d.permReject ag g
      | (st, w, d1) => d1.answer ag st w

/-- Whether a field "written while stopped" is being changed while its function runs (R106). -/
def stopChange (row : RegDef) (f : Option Func) (old new : Word) : Bool :=
  match f with
  | some fn => !fn.idle && (old.toNat &&& row.stop) ≠ (new.toNat &&& row.stop)
  | none => false

/-- The word after its bits of `mask` are replaced from `new`. -/
def mergeMask (old new mask : Nat) : Nat := (old - (old &&& mask)) + (new &&& mask)

/-- Write the RW fields of a register word at once and stage its RWS fields (R89, R91): a staged value equal to the
live one is no longer staged. Fields in `hold` keep their value (R106). -/
def Dev.writeFields (d : Dev) (row : RegDef) (addr : Nat) (hold : Nat) (data : Word) : Dev :=
  let old := (d.regs.value addr).toNat
  let rw := row.rw - (row.rw &&& hold)
  let rws := row.rws - (row.rws &&& hold)
  let live := mergeMask old data.toNat rw
  let stg := mergeMask (((d.staged.find addr).getD (w32 old)).toNat &&& row.rws) data.toNat rws &&& row.rws
  let d1 := { d with regs := d.regs.set addr (w32 live) }
  if row.rws = 0 then d1
  else if stg = (live &&& row.rws) then { d1 with staged := d1.staged.del addr }
  else { d1 with staged := d1.staged.put addr (w32 (mergeMask live stg row.rws)) }

end Sys2Proof.Machine
end

