-- ==== Sys2Proof/Machine/Queues.lean ====
section
/-! DEFINITION. Millefeuille queues (04_queues.md): room, commit, notices, read-out with its checks, identifier
spaces, the core's queue port and the commands of QUE. -/

namespace Sys2Proof.Machine

/-! ### Messages -/

/-- A message header (R116). -/
def msgHeader (ty len prod src : Nat) (ident : Word) : QData :=
  packQ [(8, ty), (8, len), (8, prod), (8, src), (32, ident.toNat)]

/-- A message: its header and its words (R115). -/
def mkMsg (ty prod src : Nat) (ident : Word) (body : List QData) : List QData :=
  msgHeader ty body.length prod src ident :: body

/-- Fields of a header. -/
def hdrType (w : QData) : Nat := bits w.toNat 63 56
/-- Words that follow the header. -/
def hdrLen (w : QData) : Nat := bits w.toNat 55 48
/-- Producer code. -/
def hdrProd (w : QData) : Nat := bits w.toNat 47 40
/-- Source index. -/
def hdrSource (w : QData) : Nat := bits w.toNat 39 32
/-- Identifier. -/
def hdrIdent (w : QData) : Nat := bits w.toNat 31 0

/-- The first word of a message. -/
def msgHead (ws : List QData) : QData := ws.headD 0

/-! ### Fill and room (R121) -/

/-- Words of a message still in the queue. -/
def QMsg.left (m : QMsg) : Nat := m.words.length - m.taken

/-- Committed words waiting. -/
def Queue.fill (x : Queue) : Nat := (x.msgs.map QMsg.left).sum

/-- Whether a message of `n` words finds room. -/
def Queue.room (x : Queue) (n : Nat) : Bool := x.fill + x.reserved + n ≤ x.entry.depth

/-- The 73-bit word of the queue SRAM: check bits, notice mark, data (R114). -/
def queueWord (data : QData) (mark : Bool) : BitVec 73 := (Config.secded data mark ++ BitVec.ofBool mark) ++ data

/-- The words a message takes in the queue SRAM, with the notice mark on the last (R114, R115). -/
def QMsg.sram (m : QMsg) : List (BitVec 73) :=
  ((List.range m.words.length).map fun i => queueWord (m.words.getD i 0) (i + 1 = m.words.length)).drop m.taken

/-- The first SRAM word of a queue: queues lie one after another in queue-number order from word 0 (R123). -/
def Dev.queueBase (d : Dev) (q : Nat) : Nat := ((List.range q).map fun i => (d.que.q[i]?.map fun x => x.entry.depth).getD 0).sum

/-- The words a queue's messages take up in its area of the SRAM, as (position, word) pairs: the first is at the queue's
base, and those after it follow (log entry 17, DESIGN CHOICE: the order within an area). -/
def Dev.sramOf (d : Dev) (q : Fin 64) : List (Nat × BitVec 73) :=
  let ws := d.que.q[q].msgs.flatMap QMsg.sram
  (List.range ws.length).map fun i => (d.queueBase q.val + i, ws.getD i 0)

/-- The lowest-numbered queue whose entry meets a condition. -/
def Dev.findQueue (d : Dev) (p : QueueEntry → Bool) : Option (Fin 64) :=
  (List.finRange 64).find? fun q => d.que.q[q].entry.depth ≠ 0 && p d.que.q[q].entry

/-- Every queue whose entry meets a condition, in queue-number order. -/
def Dev.findQueues (d : Dev) (p : QueueEntry → Bool) : List (Fin 64) :=
  (List.finRange 64).filter fun q => d.que.q[q].entry.depth ≠ 0 && p d.que.q[q].entry

/-! ### Notices and commits -/

/-- A notice of a queue (R128): its flag, the core's line when the core consumes, and no message left unnotified. -/
def Dev.notice (d : Dev) (q : Fin 64) : Dev :=
  let d1 := (d.raiseQue q.val 0).updQ q fun x => { x with msgs := x.msgs.map fun m => { m with notified := true } }
  if d.que.q[q].entry.cons = 1 then { d1 with que := { d1.que with coreNotice := true } } else d1

/-- The notice threshold in force. -/
def Dev.threshold (d : Dev) (q : Nat) : Nat := d.rfld 2 q 0x10 31 16

/-- Whether a commit that raises the fill from `old` to `new` gives a notice (R128). -/
def noticeDue (cls thr old new : Nat) : Bool := cls = 0 || thr = 0 || (decide (old < thr) && decide (thr ≤ new))

/-- A message is committed (R121): it joins the queue with its instants, and the consumer is notified by R128. -/
def Dev.commit (d : Dev) (q : Fin 64) (ws : List QData) : Dev :=
  let x := d.que.q[q]
  let m : QMsg := { words := ws, time := d.tim.now, since := d.el, notified := false, taken := 0 }
  let d1 := d.updQ q fun x => { x with msgs := x.msgs ++ [m] }
  if noticeDue x.entry.cls (d.threshold q.val) x.fill (x.fill + ws.length) then d1.notice q else d1

/-- A hardware producer writes a message (R125). With no room it sets full; in C0 and C1 the producer keeps the
message behind those it keeps already, in C2 and C3 it is discarded and counted. A queue of depth 0 takes nothing. -/
def Dev.produce (d : Dev) (q : Fin 64) (ws : List QData) : Dev :=
  let x := d.que.q[q]
  if x.entry.depth = 0 then d
  else if x.held = [] ∧ x.room ws.length then d.commit q ws
  else
    if x.entry.cls ≤ 1 then (d.raiseQue q.val 1).updQ q fun x => { x with held := x.held ++ [ws] }
    else (d.count 2 q.val 0x18 31 16).raise 2 q.val 0xC 6

/-- Kept messages that now find room are written, oldest first (R125). -/
def Dev.writeHeld (q : Fin 64) : List (List QData) → Dev → Dev
  | [], d => d
  | ws :: rest, d =>
    if d.que.q[q].room ws.length then Dev.writeHeld q rest ((d.updQ q fun x => { x with held := rest }).commit q ws)
    else d

/-! ### Identifier spaces (R133 to R137) -/

/-- The quarantine of a space in ns (R133). -/
def quarantineOf (s : Nat) : Nat := if s = 11 ∨ s = 12 then sec 610 else sec 11

/-- Spaces 10 and 12 accept the current and the next epoch, the others the current one (R133). -/
def IdSpace.accepts (x : IdSpace) (s epoch : Nat) : Bool :=
  epoch = x.epoch.toNat || ((s = 10 || s = 12) && epoch = (x.epoch.toNat + 1) % 256)

/-- A space issues its next identifier, or none while it waits (R134, R137). -/
def IdSpace.issue (x : IdSpace) (s el : Nat) : Option Word × IdSpace :=
  if x.quar.isSome then (none, { x with waiting := true })
  else
    let wrap := x.index = 0xFFFFFF
    let e := if wrap then x.epoch + 1 else x.epoch
    let i := if wrap then 1 else x.index + 1
    let y := { x with
      epoch := e, index := i, issued := true, lastIssue := el, waiting := false
      quar := if i = 0xFFFFFF then some el else none
      quarLen := if i = 0xFFFFFF then quarantineOf s else x.quarLen }
    (some (e ++ i), y)

/-- Issue an identifier of space `s`. -/
def Dev.issueId (d : Dev) (s : Fin 13) : Option Word × Dev :=
  let (w, x) := d.que.spaces[s].issue s.val d.el
  (w, d.updSpace s fun _ => x)

/-- The quarantine of a space has passed (R134, R137). -/
def IdSpace.quarOver (x : IdSpace) (el : Nat) : Bool :=
  match x.quar with
  | some t => t + x.quarLen ≤ el
  | none => false

/-- End a space's quarantine. -/
def Dev.endQuarantine (d : Dev) (s : Fin 13) : Dev := d.updSpace s fun x => { x with quar := none }

/-! ### Read-out (R129 to R132, R135) -/

/-- A message committed more than 10 s of site time earlier; never in a queue of the store writer (R132). -/
def QMsg.expired (m : QMsg) (cons now : Nat) : Bool := cons ≠ 3 && decide (m.time + sec 10 < now)

/-- The identifier space a queue's read-out checks; 0 for none. -/
def Dev.idSpace (d : Dev) (q : Nat) : Nat := d.rfld 2 q 4 23 16

/-- The space at a number 1 to 12. -/
def spaceAt (s : Nat) : Fin 13 := ⟨min s 12, by omega⟩

/-- Whether read-out rejects an identifier for its epoch (R135). -/
def Dev.epochBad (d : Dev) (q ident : Nat) : Bool :=
  d.idSpace q ≠ 0 && ident ≠ 0 && !(d.que.spaces[spaceAt (d.idSpace q)]).accepts (d.idSpace q) (ident / 2 ^ 24)

/-- An accepted identifier of space 10 or 12 becomes the last accepted one; the first of the next epoch makes that
epoch current (R135). -/
def Dev.adoptEpoch (d : Dev) (q ident : Nat) : Dev :=
  let s := d.idSpace q
  if (s = 10 ∨ s = 12) ∧ ident ≠ 0 then
    d.updSpace (spaceAt s) fun x => { x with epoch := BitVec.ofNat 8 (ident / 2 ^ 24), index := BitVec.ofNat 24 ident }
  else d

/-- Discard what read-out discards at the front of a queue: expired messages and messages of a rejected epoch. A message
the core has begun to read stays until its last word is read (log entry 95, DESIGN CHOICE: the spec does not say). -/
def Dev.dropStale (q : Fin 64) : List QMsg → Dev → Dev
  | [], d => d
  | m :: ms, d =>
    if m.taken ≠ 0 then d
    else if m.expired d.que.q[q].entry.cons d.tim.now then
      Dev.dropStale q ms (((d.updQ q fun x => { x with msgs := ms }).count 2 q.val 0x18 15 0).raiseQue q.val 5)
    else if d.epochBad q.val (hdrIdent (msgHead m.words)) then
      Dev.dropStale q ms
        (((d.updQ q fun x => { x with msgs := ms }).count 2 (0x80 + d.idSpace q.val) 8 31 0).raiseQue q.val 6)
    else d

/-- The front of a queue after read-out discarded what it discards. -/
def Dev.freshFront (d : Dev) (q : Fin 64) : Dev := Dev.dropStale q d.que.q[q].msgs d

/-- The poison word of a queue (R130). -/
def poisonWord (prod discarded : Nat) : QData := msgHeader 0xFF 0 prod 0xFF (w32 discarded)

/-- How many words the scan after an uncorrectable header takes in (R130): on to the next correctable word with
notice mark 1. `marks` says for each following word whether it carries the mark, `cs` how it checks. -/
def scanPoison : List Bool → List WordCheck → Nat
  | [], _ => 0
  | m :: ms, cs => if m && cs.headD .good ≠ .double then 1 else 1 + scanPoison ms cs.tail

/-- The notice marks of the words left in a list of messages. -/
def marksOf (ms : List QMsg) : List Bool :=
  ms.flatMap fun m => (List.range m.left).map fun i => i + 1 = m.left

/-- Remove `n` words from the front of a list of messages. -/
def dropWords : Nat → List QMsg → List QMsg
  | _, [] => []
  | n, m :: ms => if m.left ≤ n then dropWords (n - m.left) ms else { m with taken := m.taken + n } :: ms

/-- The result of a queue port operation (R122). -/
def Dev.portDone (d : Dev) (result : Nat) (w : QData) : Dev := { d with que := { d.que with portResult := result, portWord := w } }

/-- QUE_ECC.poison and QUE_FLAGS.poison (R130). -/
def Dev.countPoison (d : Dev) (q : Nat) : Dev := (d.count 2 q 0x14 31 16).raiseQue q 4

/-- QUE_ECC.corrected and QUE_FLAGS.corrected (R129). -/
def Dev.countCorrected (d : Dev) (q : Nat) : Dev := (d.count 2 q 0x14 15 0).raiseQue q 3

/-- Each single-bit error among words read out is corrected and counted (R129). -/
def Dev.countSingles (d : Dev) (q : Nat) (cs : List WordCheck) : Dev :=
  cs.foldl (fun (acc : Dev) (c : WordCheck) => if c = .single then acc.countCorrected q else acc) d

/-- The words of a damaged message after an uncorrectable header at the front of a queue, the header included. -/
def headSpan (m : QMsg) (ms : List QMsg) (cs : List WordCheck) : Nat :=
  1 + (if m.left = 1 then scanPoison (marksOf ms) cs.tail else scanPoison (marksOf (m :: ms)).tail cs.tail)

/-- The words of a damaged message with a correctable header, by the header's length field. -/
def lengthSpan (m : QMsg) : Nat := hdrLen (msgHead m.words) + 1

/-- The words a poison word replaces at the front of a queue whose words check as `cs`; 0 when every word of the front
message is correctable (R130). -/
def poisonSpan (m : QMsg) (ms : List QMsg) (cs : List WordCheck) : Nat :=
  if cs.headD .good = .double then headSpan m ms cs
  else if (cs.take m.left).contains .double then lengthSpan m
  else 0

/-- The queues of one consumer and class that have a word waiting and can be served, in queue-number order (R126). -/
def Dev.waits (d : Dev) (cons cls : Nat) (can : Fin 64 → Bool) : List (Fin 64) :=
  (List.finRange 64).filter fun q =>
    d.que.q[q].entry.cons = cons && d.que.q[q].entry.cls = cls && !d.que.q[q].msgs.isEmpty && can q

/-- The queue of a consumer and class whose turn it is: the next waiting one after the one served last (R126). -/
def Dev.turn (d : Dev) (cons cls : Nat) (can : Fin 64 → Bool) : Option (Fin 64) :=
  let last := ((d.que.turns.find? fun t => t.1 = 4 * cons + cls).map (·.2)).getD 63
  let ws := d.waits cons cls can
  (ws.find? fun q => decide (last < q.val)).or ws.head?

/-- A hardware consumer may serve this queue now: a C0 queue goes before the others, and within a class it is the queue's
turn (R126). Which of C1 to C3 goes next within their shares is the command's choice (log entry 96). -/
def Dev.serves (d : Dev) (q : Fin 64) (can : Fin 64 → Bool := fun _ => true) : Bool :=
  let e := d.que.q[q].entry
  (e.cls = 0 || (d.waits e.cons 0 can).isEmpty) && d.turn e.cons e.cls can = some q

/-- The queue a consumer serves that chooses by itself: C0 first, else a free one of the classes that wait (R126). -/
def Dev.nextQueue (d : Dev) (cons : Nat) (can : Fin 64 → Bool) : Option (Fin 64) × Dev :=
  match d.turn cons 0 can with
  | some q => (some q, d)
  | none =>
    let qs := [1, 2, 3].filterMap fun c => d.turn cons c can
    if qs.length ≤ 1 then (qs.head?, d)
    else (qs[Config.freeNat d.fresh % qs.length]?, { d with fresh := d.fresh + 1 })

/-- The queue has had its turn. -/
def Dev.noteTurn (d : Dev) (q : Fin 64) : Dev :=
  let k := 4 * d.que.q[q].entry.cons + d.que.q[q].entry.cls
  { d with que := { d.que with turns := (k, q.val) :: d.que.turns.filter fun t => t.1 ≠ k } }

/-- A hardware consumer takes the next message of a queue, whole, its words checking as `cs`: the message, or the poison
word that stands for it (R120, R129, R130, R132, R135). -/
def Dev.takeMsg (d : Dev) (q : Fin 64) (cs : List WordCheck) : Option (List QData) × Dev :=
  let d1 := d.freshFront q
  match d1.que.q[q].msgs with
  | [] => (none, d1)
  | m :: ms =>
    let n := poisonSpan m ms cs
    if n = 0 then
      (some m.words, (((d1.updQ q fun x => { x with msgs := ms }).countSingles q.val (cs.take m.left)).adoptEpoch q.val
        (hdrIdent (msgHead m.words))).noteTurn q)
    else
      (some [poisonWord d1.que.q[q].entry.prod n],
        (((d1.updQ q fun x => { x with msgs := dropWords n (m :: ms) }).countSingles q.val (cs.take n)).countPoison q.val).noteTurn q)

/-- A message a consumer took is a poison word. -/
def isPoison (ws : List QData) : Bool := hdrType (msgHead ws) = 0xFF

/-- The core reads the next word of a queue whose front is fresh. -/
def Dev.portWordRead (d : Dev) (q : Fin 64) (cs : List WordCheck) : Dev :=
  match d.que.q[q].msgs with
  | [] => d.portDone 1 0
  | m :: ms =>
    match cs.headD .good with
    | .double =>
      let prod := d.que.q[q].entry.prod
      if m.taken = 0 then
        let n := headSpan m ms cs
        (((d.updQ q fun x => { x with msgs := dropWords n x.msgs }).countSingles q.val (cs.take n)).countPoison q.val).portDone 3
          (poisonWord prod n)
      else
        ((d.updQ q fun x => { x with msgs := dropWords (lengthSpan m - m.taken) x.msgs }).countPoison q.val).portDone 3
          (poisonWord prod (lengthSpan m))
    | c =>
      let w := m.words.getD m.taken 0
      let d1 := d.updQ q fun x => { x with msgs := dropWords 1 x.msgs }
      let d2 := if m.taken = 0 then d1.adoptEpoch q.val (hdrIdent w) else d1
      (if c = .single then d2.countCorrected q.val else d2).portDone 0 w

/-- The core is the producer or consumer a queue port operation needs. -/
def Dev.coreIs (d : Dev) (code : Nat) : Bool := code = 1 && (d.coreA1 || !d.pwr.held)

/-- QUEUE_PORT_READ (R122): one word, with the checks of read-out. The core's notice line drops as it reads. -/
def Dev.portRead (d : Dev) (q : Fin 64) (cs : List WordCheck) : Dev :=
  if d.coreHangs then d
  else if d.coreIs d.que.q[q].entry.cons then
    ({ d with que := { d.que with coreNotice := false } }.freshFront q).portWordRead q cs
  else d.portDone 5 0

/-- QUEUE_PORT_WRITE (R121, R122): a header reserves room for the whole message; the word with notice mark 1
commits it. A word beyond those the header declared is refused with LONG (R117; log entry 97, DESIGN CHOICE). Words of a
message that a flush cut are discarded and counted (R139). -/
def Dev.portWrite (d : Dev) (q : Fin 64) (data : QData) (mark : Bool) : Dev :=
  let x := d.que.q[q]
  if d.coreHangs then d
  else if !d.coreIs x.entry.prod then d.portDone 5 0
  else if x.dropRest ≠ 0 then
    ((d.updQ q fun x => { x with dropRest := if mark then 0 else x.dropRest - 1 }).count 2 q.val 0x1C 31 0).portDone 0 0
  else if x.building = [] then
    let n := hdrLen data + 1
    if 256 < n ∨ (x.entry.cls = 0 ∧ 8 < n) then d.portDone 4 0
    else if !x.room n then (d.raiseQue q.val 1).portDone 2 0
    else if mark then (d.commit q [data]).portDone 0 0
    else (d.updQ q fun x => { x with building := [data], reserved := n }).portDone 0 0
  else if x.reserved ≤ x.building.length then d.portDone 4 0
  else if mark then
    ((d.updQ q fun x => { x with building := [], reserved := 0 }).commit q (x.building ++ [data])).portDone 0 0
  else (d.updQ q fun x => { x with building := x.building ++ [data] }).portDone 0 0

/-- NOTICE_HOLD_EXPIRY (R128): the oldest committed message not yet notified has waited hold × 10 µs. -/
def Dev.noticeHold (d : Dev) (q : Fin 64) : Dev :=
  let hold := d.rfld 2 q.val 0x10 15 0
  match d.que.q[q].msgs.find? fun m => !m.notified with
  | some m => if d.que.q[q].entry.cls ≠ 0 ∧ hold ≠ 0 ∧ d.after m.since (hold * 10000) then d.notice q else d
  | none => d

/-! ### Commands (R138, R139) -/

/-- Whether a producer's function is STOPPED or OFF; a producer without a function state never is (R138). -/
def Dev.producerIdle (d : Dev) (code : Nat) : Bool :=
  let f : Option Func :=
    if 0x10 ≤ code ∧ code < 0x18 then d.func? .mtr (code - 0x10)
    else if 0x20 ≤ code ∧ code < 0x28 then d.func? .evc (code - 0x20)
    else if code = 5 then d.func? .plc 0
    else if code = 6 then d.func? .plc 1
    else if code = 7 then d.func? .tag 0
    else if code = 8 then d.func? .tag 1
    else none
  match f with
  | some fn => fn.idle
  | none => false

/-- QUE_FLUSH (R138, R139). -/
def queFlushCmd (arg : BitVec 24) (d : Dev) : CmdSt × Dev :=
  if h : argUnit arg < 64 then
    let q : Fin 64 := ⟨argUnit arg, h⟩
    let x := d.que.q[q]
    if x.entry.depth = 0 then (.arg, d)
    else if x.entry.cons = 3 ∨ (x.entry.cls ≤ 1 ∧ !d.producerIdle x.entry.prod) then (.state x.fill, d)
    else
      let d1 := d.count 2 q.val 0x1C 31 0 (x.fill + x.building.length)
      (.ok, d1.updQ q fun x => { x with msgs := [], building := [], reserved := 0, dropRest := x.dropRest + (x.reserved - x.building.length) })
  else (.arg, d)

/-- COUNT_CLEAR of a queue (R138). -/
def queCountClearCmd (arg : BitVec 24) (d : Dev) : CmdSt × Dev :=
  if h : argUnit arg < 64 then
    if d.que.q[argUnit arg].entry.depth = 0 then (.arg, d)
    else (.ok, ((d.setReg 2 (argUnit arg) 0x14 0).setReg 2 (argUnit arg) 0x18 0).setReg 2 (argUnit arg) 0x1C 0)
  else (.arg, d)

/-- A write of QUE_ENDS.id_space: ARG above 12, STATE while the queue holds a committed or reserved word. -/
def Dev.writeQueEnds (d : Dev) (q : Fin 64) (data : Word) : CmdSt × Dev :=
  if 12 < fld data 23 16 then (.arg, d)
  else if d.que.q[q].fill + d.que.q[q].reserved ≠ 0 then (.state d.que.q[q].fill, d)
  else (.ok, d.setReg 2 q.val 4 (w32 (fld data 23 16 * 2 ^ 16)))

/-- Load the QUEUE section or the boot allocation (R61 step 6, R66, R123): every queue is empty. -/
def Dev.loadQueues (d : Dev) (es : List QueueEntry) : Dev :=
  let d1 := { d with que := { d.que with q := Vector.ofFn fun i : Fin 64 =>
    { entry := es.getD i.val { cls := 0, depth := 0, prod := 0, cons := 0, thresh := 0 } } } }
  (List.range 64).foldl (fun acc q => acc.setReg 2 q 0x10 (w32 ((d1.que.q[q]?.map fun x => x.entry.thresh).getD 0 * 2 ^ 16))) d1

/-- The boot allocation (R66). -/
def bootQueues : List QueueEntry :=
  List.replicate 60 { cls := 0, depth := 0, prod := 0, cons := 0, thresh := 0 } ++
  [ { cls := 2, depth := 1024, prod := 8, cons := 1, thresh := 0 },
    { cls := 2, depth := 1024, prod := 1, cons := 8, thresh := 0 },
    { cls := 2, depth := 4096, prod := 2, cons := 1, thresh := 0 },
    { cls := 2, depth := 4096, prod := 1, cons := 2, thresh := 0 } ]

/-! ### The commands of the table -/

/-- QUEUE_PORT_WRITE. -/
def execQueuePortWrite (q : Fin 64) (data : QData) (mark : Bool) (s : State) : Host.Outcome State Fault Refusal :=
  .next { s with dev := s.dev.portWrite q data mark }

/-- QUEUE_PORT_READ. -/
def execQueuePortRead (q : Fin 64) (checks : List WordCheck) (s : State) : Host.Outcome State Fault Refusal :=
  .next { s with dev := s.dev.portRead q checks }

/-- NOTICE_HOLD_EXPIRY. -/
def execNoticeHoldExpiry (q : Fin 64) (s : State) : Host.Outcome State Fault Refusal :=
  .next { s with dev := s.dev.noticeHold q }

/-- QUE_FLUSH. -/
def execQueFlush (ag : Agent) (arg : BitVec 24) (s : State) : Host.Outcome State Fault Refusal :=
  .next { s with dev := issueCommand ag 2 0x10 arg (argUnit arg) (queFlushCmd arg) s.dev }

/-- COUNT_CLEAR of QUE. -/
def execQueCountClear (ag : Agent) (arg : BitVec 24) (s : State) : Host.Outcome State Fault Refusal :=
  .next { s with dev := issueCommand ag 2 0x11 arg (argUnit arg) (queCountClearCmd arg) s.dev }

end Sys2Proof.Machine
end

