-- ==== Sys2Proof/Machine/Dates.lean ====
section
/-! DEFINITION. Dates of the Gregorian calendar from site time (R140: 2000-01-01T00:00:00 TAI), for TIM_UTC (R143)
and the billing calendar (R210 to R216). -/

namespace Sys2Proof.Machine

/-- Whether a year has 366 days. -/
def leapYear (y : Nat) : Bool := (y % 4 = 0 && y % 100 ≠ 0) || y % 400 = 0

/-- Days in a month of a year. -/
def monthDays (y m : Nat) : Nat :=
  if m = 2 then (if leapYear y then 29 else 28)
  else if m = 4 ∨ m = 6 ∨ m = 9 ∨ m = 11 then 30 else 31

/-- Days from 2000-01-01 to January 1 of year 2000 + k. -/
def yearStart (k : Nat) : Nat :=
  let y := k
  365 * y + (y + 3) / 4 - (y + 99) / 100 + (y + 399) / 400

/-- Days from January 1 to the first of month m. -/
def monthStart (y m : Nat) : Nat := ((List.range (m - 1)).map fun i => monthDays y (i + 1)).foldl (· + ·) 0

/-- Day number from 2000-01-01 of a date. -/
def dayNumber (y m dd : Nat) : Nat := yearStart (y - 2000) + monthStart y m + (dd - 1)

/-- The year of a day number. -/
def yearOf (n : Nat) : Nat :=
  let k := n / 366
  2000 + (if yearStart (k + 1) ≤ n then (if yearStart (k + 2) ≤ n then
    (List.range (k / 4 + 4)).foldl (fun acc i => if yearStart (k + i) ≤ n then k + i else acc) k else k + 1) else k)

/-- A civil date: year, month and day of month. -/
structure Civil where
  year : Nat
  month : Nat
  day : Nat
deriving DecidableEq, Repr

/-- The date of a day number. -/
def civil (n : Nat) : Civil :=
  let y := yearOf n
  let r := n - yearStart (y - 2000)
  let m := (List.range 12).foldl (fun acc i => if monthStart y (i + 1) ≤ r then i + 1 else acc) 1
  { year := y, month := m, day := r - monthStart y m + 1 }

/-- Weekday of a day number: Monday 0 to Sunday 6 (2000-01-01 was a Saturday). -/
def weekday (n : Nat) : Nat := (n + 5) % 7

/-- Nanoseconds in a day. -/
def dayNs : Nat := 86400000000000

end Sys2Proof.Machine
end

