-- ==== Sys2Proof/Machine/Time.lean ====
section
/-! DEFINITION. Site time (05_time.md): the counter, the servo, compare units, alarms, captures, and the commands
of TIM. The step of site time itself is in TimeStep.lean, since it ends metrology periods. -/

namespace Sys2Proof.Machine

/-! ### The counter -/

/-- Clamp an integer to ±m. -/
def clampInt (v : Int) (m : Nat) : Int := if (m : Int) < v then m else if v < -(m : Int) then -(m : Int) else v

/-- Elapsed time in which the residual of a step is slewed out at 500 000 ppb (R157). -/
def residualTime (r : Int) : Nat := r.natAbs * 2000

/-- The elapsed time at which the residual has been slewed out. -/
def Dev.residualEnd (d : Dev) : Nat := d.tim.resSince + residualTime d.tim.residual

/-- The slew in force in ppb: the servo's and the residual's share the limit of R141. -/
def Dev.slewNow (d : Dev) : Int :=
  if d.tim.residual ≠ 0 ∧ d.el < d.residualEnd then
    clampInt (d.tim.slew + (if d.tim.residual < 0 then -500000 else 500000)) 500000
  else d.tim.slew

/-- What is still to be slewed of a residual (R157). -/
def Dev.residualLeft (d : Dev) : Int :=
  let left : Nat := d.tim.residual.natAbs - (d.el - d.tim.resSince) / 2000
  if d.tim.residual < 0 then -left else left

/-- The rate of site time in 10⁻⁹ of the nominal under a slew (R141). -/
def Dev.rateOf (d : Dev) (slew : Int) : Nat := (1000000000 + d.tim.trim + slew).toNat

/-- Move site time on to an instant at a rate, and elapsed time by what the reference takes for it (R141). -/
def Dev.advanceAt (d : Dev) (rate target : Nat) : Dev :=
  let q := (target - d.tim.now) * 1000000000000000000 / rate + d.tim.frac
  { d with tim := { d.tim with now := target, elapsed := d.tim.elapsed + q / 1000000000, frac := q % 1000000000 } }

/-- Move site time on to an instant; where the residual of a step ends on the way, the rate changes there (R157). -/
def Dev.advance (d : Dev) (target : Nat) : Dev :=
  let mid := d.now + (d.residualEnd - d.el) * d.rateOf d.slewNow / 1000000000
  if d.tim.residual ≠ 0 ∧ d.el < d.residualEnd ∧ mid < target then
    (d.advanceAt (d.rateOf d.slewNow) mid).advanceAt (d.rateOf d.tim.slew) target
  else d.advanceAt (d.rateOf d.slewNow) target

/-- The next multiple of 62.5 µs of site time. -/
def nextSample (now : Nat) : Nat := (now / samplePeriod + 1) * samplePeriod

/-- d of R160: the target minus the low 32 bits of site time, as a signed 32-bit value. -/
def cmpDelta (target : Word) (now : Nat) : Int := signed 32 ((target - BitVec.ofNat 32 now).toNat)

/-- The 64-bit target of an alarm. -/
def Dev.almTarget (d : Dev) (a : Nat) : Nat := (d.reg 1 (0x20 + a) 4).toNat * 2 ^ 32 + (d.reg 1 (0x20 + a) 0).toNat

/-- The instants at which an armed compare unit or alarm fires. -/
def Dev.fireInstants (d : Dev) : List Nat :=
  ((List.finRange 16).filterMap fun c =>
    let x := d.tim.cmp[c]
    if x.armed then some (d.now + (cmpDelta x.target d.now).toNat) else none) ++
  ((List.range 8).filterMap fun a => if d.tim.almArmed.getLsbD a then some (d.almTarget a) else none)

/-- The next instant at which something is timed: a sample instant, or the target of an armed compare unit or alarm that
lies before it (R144, R160 to R162). -/
def Dev.nextTimed (d : Dev) : Nat :=
  (d.fireInstants.filter fun t => decide (d.now < t)).foldl min (nextSample d.now)

/-- Count the trial timer by the whole seconds of elapsed time that passed, and save it (R479). -/
def Dev.countTrial (d : Dev) (before : Nat) : Dev :=
  if (d.img.fwA = 3 ∨ d.img.fwB = 3) ∧ !d.sto.holdup then
    { d with img := { d.img with trialSec := d.img.trialSec + (d.tim.elapsed / sec 1 - before / sec 1) } }.bootCommit
  else d

/-- What a step does when no command waits (log entry 1, DESIGN CHOICE): time moves on to the next timed instant. A part held by
its power-on reset has no running counter, nor has one whose island 11 lost its clock (R27, R109). -/
def Dev.tick (d : Dev) : Dev :=
  if d.pwr.held ∨ !d.runs 11 then { d with tim := { d.tim with elapsed := d.tim.elapsed + samplePeriod } }
  else (d.advance d.nextTimed).countTrial d.tim.elapsed

/-- The site time at which a schedule last ran. -/
def Dev.lastRun (d : Dev) (key : Nat) : Option Nat := (d.tim.done.find? fun e => e.1 = key).map (·.2)

/-- The instant of a schedule with this period is now, and its event has not run at it yet (R144). -/
def Dev.due (d : Dev) (key period : Nat) : Bool :=
  period ≠ 0 && d.tim.now % period = 0 && d.lastRun key ≠ some d.tim.now

/-- Note that a schedule's event has run at this instant. -/
def Dev.ran (d : Dev) (key : Nat) : Dev :=
  { d with tim := { d.tim with done := (key, d.tim.now) :: d.tim.done.filter fun e => e.1 ≠ key } }

/-- Schedule keys of the model. -/
def keySecond : Nat := 1
/-- The servo's sync interval. -/
def keySync : Nat := 2
/-- The metrology period. -/
def keyPeriod : Nat := 3
/-- The panel frame. -/
def keyFrame : Nat := 4
/-- The sample instant of a front-end die. -/
def keySample (dieB : Bool) : Nat := if dieB then 6 else 5
/-- The control cycle of slice n. -/
def keyCycle (n : Nat) : Nat := 16 + n

/-! ### Error and quality -/

/-- The code of a time quality (R150). -/
def Quality.code : Quality → Nat
  | .notValid => 0
  | .holdover => 1
  | .mesh => 2
  | .ring => 3

/-- Whether the quality is RING or MESH. -/
def Quality.locked : Quality → Bool
  | .mesh => true
  | .ring => true
  | _ => false

/-- Ceiling division. -/
def ceilDiv (a b : Nat) : Nat := (a + b - 1) / b

/-- TIM_ERR (R151): in HOLDOVER it grows 3 µs for each second of elapsed time, rounded up. -/
def Dev.timErr (d : Dev) : Nat :=
  match d.tim.quality with
  | .notValid => 0xFFFFFFFF
  | .holdover => min (d.tim.errBase + ceilDiv (3 * (d.el - d.tim.errSince)) (sec 1)) 0xFFFFFFFF
  | .mesh => 5000
  | .ring => 1

/-- Every session in progress keeps the largest TIM_ERR so far (R245), noted before the bound is set anew. -/
def Dev.noteErr (d : Dev) : Dev :=
  { d with bil := { d.bil with s := d.bil.s.map fun (b : BilSlice) =>
      { b with sess := b.sess.map fun (x : SessRec) => { x with maxErr := max x.maxErr d.timErr } } } }

/-- The quality falls to HOLDOVER: the bound starts from the error it had (R151). -/
def Dev.holdover (d : Dev) : Dev :=
  if d.tim.quality.locked then
    { d with tim := { d.tim with quality := .holdover, errBase := d.timErr, errSince := d.el } }
  else d

/-! ### The servo (R146 to R153) -/

/-- The sync interval in ns: 125 ms × 2ⁿ. -/
def Dev.syncInterval (d : Dev) : Nat := 125000000 * 2 ^ d.rfld 1 1 4 2 0

/-- TIM_SERVO.select: AUTO (0), RING (1), MESH (2), NONE (3). -/
def Dev.servoSelect (d : Dev) : Nat := d.rfld 1 1 4 9 8

/-- An offset of a source reaches the servo (R146, R147); it is ignored while the servo does not run (R153).
`mesh` tells the source, `off` is in ns. -/
def Dev.servoOffset (d : Dev) (mesh : Bool) (off : Int) : Dev :=
  if d.tim.servo.isRunning then
    if mesh then { d with tim := { d.tim with meshOffs := off :: d.tim.meshOffs } }
    else { d with tim := { d.tim with ringOffs := off :: d.tim.ringOffs } }
  else d

/-- The source the servo uses under a selection, by the last intervals (R148): NONE (0), RING (1), MESH (2). -/
def chooseSource (select : Nat) (ring mesh : List Bool) : Nat :=
  if select = 1 then 1
  else if select = 2 then 2
  else if select = 3 then 0
  else if ring.length = 4 ∧ ring.all id then 1
  else if mesh.length = 4 ∧ mesh.all id then 2
  else 0

/-- The mean of the offsets of an interval. -/
def meanOffset (xs : List Int) : Rat := (xs.sum : Rat) / (xs.length : Rat)

/-- Locking limit of a source in ns (R146). -/
def lockLimit (source : Nat) : Nat := if source = 1 then 1000 else 5000000

/-- The quality of a source. -/
def sourceQuality (source : Nat) : Quality := if source = 1 then .ring else .mesh

/-- The last branch of R149: the interval delivered offsets of the selected source. -/
def Dev.servoLock (d : Dev) (offs : List Int) : Dev :=
  d.oneEvent fun d =>
  let off := meanOffset offs
  let iv : Rat := d.syncInterval
  let raw := off * 1000000000 / iv / ((2 ^ d.rfld 1 1 4 23 20 : Nat) : Rat)
  let big := 500000 < ratAbs raw
  let (slew0, d1) := d.round raw
  let slew : Int := if big then (if off < 0 then -500000 else 500000) else slew0
  let d2 := if big then d1.raiseTim 2 else d1
  let (last, d3) := d2.round off
  let d4 := { d3.setReg 1 1 0x10 (wInt (clampInt last 0x7FFFFFFF)) with
              tim := { d3.tim with missed := 0, slew := slew } }
  if ratAbs off ≤ (lockLimit d.tim.source : Rat) then
    let (t, d5) := d4.round ((d.tim.trim : Rat) + off * 1000000000 / iv / ((2 ^ d.rfld 1 1 4 19 16 : Nat) : Rat))
    let d6 := { d5 with tim := { d5.tim with trim := clampInt t 100000, good := d5.tim.good + 1 } }
    if 4 ≤ d6.tim.good ∧ d6.tim.quality ≠ sourceQuality d.tim.source ∧ d6.tim.quality ≠ .notValid then
      { (d6.noteErr).raiseTim 4 with tim := { d6.tim with quality := sourceQuality d.tim.source } }
    else d6
  else { d4 with tim := { d4.tim with good := 0 } }

/-- The servo's work at the end of a sync interval (R149), before the interval's offsets are discarded. -/
def Dev.servoEnd (d : Dev) : Dev :=
  let offs := if d.tim.source = 1 then d.tim.ringOffs else if d.tim.source = 2 then d.tim.meshOffs else []
  if d.tim.stepped then { d with tim := { d.tim with good := 0, slew := 0 } }
  else if offs = [] then
    let d1 := { d with tim := { d.tim with slew := 0, missed := d.tim.missed + 1 } }
    if d.rfld 1 1 4 31 24 ≤ d1.tim.missed ∧ d.tim.quality.locked then (d1.holdover).raiseTim 3 else d1
  else d.servoLock offs

/-- SERVO_INTERVAL_END (R147 to R149, R75): the servo works, staged values of TIM_SERVO swap, and the source of the
next interval is chosen. While the servo does not run, the interval delivered no offset (R153), and a step made in it
ends with it. -/
def Dev.servoIntervalEnd (d : Dev) : Dev :=
  if d.tim.servo.isRunning && d.due keySync d.syncInterval then
    let d1 := d.servoEnd
    let ring := ((!d.tim.ringOffs.isEmpty) :: d.tim.ringHist).take 4
    let mesh := ((!d.tim.meshOffs.isEmpty) :: d.tim.meshHist).take 4
    let d2 := (d1.swapUnit 1 1).ran keySync
    { d2 with tim := { d2.tim with
        ringOffs := [], meshOffs := [], stepped := false, ringHist := ring, meshHist := mesh,
        source := chooseSource d2.servoSelect ring mesh } }
  else if d.due keySync d.syncInterval then
    { d.ran keySync with tim := { (d.ran keySync).tim with
        stepped := false, ringHist := (false :: d.tim.ringHist).take 4, meshHist := (false :: d.tim.meshHist).take 4 } }
  else d

/-- The servo stops (R153). TIM_STATUS shows no source from the stop on (log entry 98, DESIGN CHOICE: the spec does not
say what it shows while the servo does not run). -/
def Dev.servoStop (d : Dev) : Dev :=
  let d1 := d.holdover
  { d1 with tim := { d1.tim with servo := { st := .stopped }, slew := 0, source := 0, ringOffs := [], meshOffs := [] } }

/-- The servo starts: its staged values take effect (R77, R104). -/
def Dev.servoStart (d : Dev) : Dev :=
  let d1 := d.swapUnit 1 1
  { d1 with tim := { d1.tim with servo := { st := .running }, source := chooseSource d1.servoSelect d1.tim.ringHist d1.tim.meshHist } }

/-- FUNC_RESTART of the servo (R153): offsets, counters and the last offset are cleared; the trim is kept. -/
def Dev.servoRestart (d : Dev) : Dev :=
  let d1 := d.setReg 1 1 0x10 0
  { d1 with tim := { d1.tim with servo := { st := .stopped }, ringOffs := [], meshOffs := [], good := 0, missed := 0 } }

/-- A write of TIM_OFFSET (R152): STATE unless the selection is MESH, or AUTO with RING not in use. -/
def Dev.writeOffset (d : Dev) (data : Word) : CmdSt × Dev :=
  if d.servoSelect = 2 ∨ (d.servoSelect = 0 ∧ d.tim.source ≠ 1) then (.ok, d.servoOffset true (signed 32 data.toNat * 1000))
  else (.state d.servoSelect, d)

/-! ### Compare units, alarms and captures -/

/-- A compare unit fires (R160, R161): its flag, a housekeeping scan if asked for, and its next target. -/
def Dev.fireCmp (d : Dev) (c : Fin 16) (step late : Bool) : Dev :=
  let u := 0x10 + c.val
  let period := (d.reg 1 u 0x8).toNat
  let lateBy := (-(cmpDelta d.tim.cmp[c].target d.tim.now)).toNat
  let k := lateBy / period + 1
  let d1 := d.raise 1 0 0x14 (2 ^ c.val)
  let d2 := if bit (d.reg 1 u 0) 1 then { d1 with pwr := { d1.pwr with hkReq := true } } else d1
  d2.updCmp c fun x =>
    if period = 0 then { x with armed := false, stepFire := step, late := late }
    else { x with stepFire := step, late := late || 1 < k, target := x.target + BitVec.ofNat 32 (k * period) }

/-- CMP_FIRE (R160): the unit is armed and its target is reached. -/
def Dev.cmpFire (d : Dev) (c : Fin 16) : Dev :=
  if d.tim.cmp[c].armed && decide (cmpDelta d.tim.cmp[c].target d.tim.now ≤ 0) then d.fireCmp c false false else d

/-- A write of TIM_CMP_TARGET (R160): it arms while enable is 1, and fires at once with late when d ≤ 0. -/
def Dev.writeCmpTarget (d : Dev) (c : Fin 16) (target : Word) : Dev :=
  if bit (d.reg 1 (0x10 + c.val) 0) 0 then
    let d1 := d.updCmp c fun _ => { armed := true, target := target }
    if cmpDelta target d.tim.now ≤ 0 then d1.fireCmp c false true else d1
  else d.updCmp c fun x => { x with target := target }

/-- A write of TIM_CMP_CTRL: writing enable 0 disarms. -/
def Dev.writeCmpCtrl (d : Dev) (c : Fin 16) (ctrl : Word) : Dev :=
  let d1 := d.setReg 1 (0x10 + c.val) 0 (w32 (bits ctrl.toNat 1 0))
  if bit ctrl 0 then d1 else d1.updCmp c fun x => { x with armed := false }

/-- A write of TIM_ALM_HI arms the alarm (R162). -/
def Dev.writeAlmHi (d : Dev) (a : Fin 8) (hi : Word) : Dev :=
  let d1 := d.setReg 1 (0x20 + a.val) 4 hi
  { d1 with tim := { d1.tim with almArmed := BitVec.ofNat 8 (d1.tim.almArmed.toNat ||| 2 ^ a.val) } }

/-- Disarm an alarm. -/
def Dev.disarmAlm (d : Dev) (a : Nat) : Dev :=
  { d with tim := { d.tim with almArmed := BitVec.ofNat 8 (d.tim.almArmed.toNat - (d.tim.almArmed.toNat &&& 2 ^ a)) } }

/-- ALM_FIRE (R162): an armed alarm whose target is reached sets its flag and disarms. -/
def Dev.almFire (d : Dev) (a : Fin 8) : Dev :=
  if d.tim.almArmed.getLsbD a.val && decide (d.almTarget a.val ≤ d.tim.now) then
    (d.raiseTim (8 + a.val)).disarmAlm a.val
  else d

/-- Whether capture unit k records an edge of this source (R163). -/
def Dev.capTakes (d : Dev) (k : Nat) (src : CapSource) (rising : Bool) : Bool :=
  let w := d.reg 1 (0x30 + k) 0
  src.val ≠ 0 && fld w 5 0 = src.val &&
    (fld w 7 6 = 2 || (fld w 7 6 = 0 && rising) || (fld w 7 6 = 1 && !rising))

/-- CAPTURE_EDGE (R163): each capture unit set to the source and edge keeps the site time and counts. -/
def Dev.captureEdge (d : Dev) (src : CapSource) (rising : Bool) : Dev :=
  (List.finRange 8).foldl (fun (acc : Dev) (k : Fin 8) =>
    if d.capTakes k.val src rising then
      let d1 := acc.countMod 1 (0x30 + k.val) 0 31 16
      { d1 with tim := { d1.tim with cap := d1.tim.cap.set k.val (BitVec.ofNat 64 d.tim.now) k.isLt } }
    else acc) d

/-! ### UTC (R143) and the whole second (R154) -/

/-- TAI − UTC in ns. -/
def Dev.taiUtc (d : Dev) : Nat := sec (d.rfld 1 0 0x24 7 0)

/-- The site time at which UTC next reaches 00:00:00 on the first of a month, at or after `t`. -/
def Dev.nextMonthStart (d : Dev) (t : Nat) : Nat :=
  let utc := t - d.taiUtc
  let c := civil (utc / dayNs)
  let first := dayNumber c.year c.month 1 * dayNs
  if t ≤ d.taiUtc then d.taiUtc
  else if first = utc then t
  else (if c.month = 12 then dayNumber (c.year + 1) 1 1 else dayNumber c.year (c.month + 1) 1) * dayNs + d.taiUtc

/-- tai_utc_next replaces tai_utc (R143). -/
def Dev.applyLeap (d : Dev) : Dev :=
  let w := d.reg 1 0 0x24
  (d.setReg 1 0 0x24 (packW [(16, 0), (8, fld w 15 8), (8, fld w 15 8)])).raiseTim 5

/-- LEAP_APPLY (R143): next_valid is 1 and UTC reaches 00:00:00 on the first of a month now. -/
def Dev.leapApply (d : Dev) : Dev :=
  if bit (d.reg 1 0 0x24) 16 && d.nextMonthStart d.tim.now = d.tim.now then d.applyLeap else d

/-- WHOLE_SECOND (R154): the RTC count and TIM_ERR are saved in the Silt domain while VMAIN is present. -/
def Dev.saveRtc (d : Dev) : Dev :=
  { d with tim := { d.tim with rtc := d.tim.now * 32768 / sec 1, rtcErr := d.timErr, rtcEl := d.el } }

/-! ### Commands of TIM (R156) -/

/-- TIM_SETVAL. -/
def Dev.setVal (d : Dev) : Nat := (d.reg 1 0 0x20).toNat * 2 ^ 32 + (d.reg 1 0 0x1C).toNat

/-- TIME_SET: accepted with TIM_SETVAL below 2⁶³; the step waits for its sample instant (R156, R157). -/
def timeSetCmd (arg : BitVec 24) (d : Dev) : CmdSt × Dev :=
  if d.setVal < 2 ^ 63 then
    (.pending, { d with tim := { d.tim with
      step := some { delta := (d.setVal : Int) - d.tim.now, set := true, accUs := arg.toNat } } })
  else (.arg, d)

/-- TIME_ADJUST: accepted while site time plus the signed delta lies from 0 to 2⁶³ − 1 (R156, R157). -/
def timeAdjustCmd (arg : BitVec 24) (d : Dev) : CmdSt × Dev :=
  let delta := signed 64 d.setVal
  if 0 ≤ (d.tim.now : Int) + delta ∧ (d.tim.now : Int) + delta < (2 ^ 63 : Nat) then
    (.pending, { d with tim := { d.tim with step := some { delta := delta, set := false, accUs := arg.toNat } } })
  else (.arg, d)

/-- ALARM_CANCEL disarms alarm [23:16]. -/
def alarmCancelCmd (arg : BitVec 24) (d : Dev) : CmdSt × Dev :=
  if argUnit arg < 8 then (.ok, d.disarmAlm (argUnit arg)) else (.arg, d)

/-! ### The commands of the table -/

/-- LEAP_APPLY. -/
def execLeapApply (s : State) : Host.Outcome State Fault Refusal := .next { s with dev := s.dev.leapApply }

/-- SERVO_INTERVAL_END. -/
def execServoIntervalEnd (s : State) : Host.Outcome State Fault Refusal := .next { s with dev := s.dev.servoIntervalEnd }

/-- TIM_OFFSET_WRITE. -/
def execTimOffsetWrite (ag : Agent) (data : Word) (s : State) : Host.Outcome State Fault Refusal :=
  .next { s with dev := writeAccess ag 1 1 (lattice 1 1 8) (fun d => d.writeOffset data) s.dev }

/-- TIME_SET. -/
def execTimeSet (ag : Agent) (arg : BitVec 24) (s : State) : Host.Outcome State Fault Refusal :=
  .next { s with dev := issueCommand ag 1 0x10 arg 0xFF (timeSetCmd arg) s.dev }

/-- TIME_ADJUST. -/
def execTimeAdjust (ag : Agent) (arg : BitVec 24) (s : State) : Host.Outcome State Fault Refusal :=
  .next { s with dev := issueCommand ag 1 0x11 arg 0xFF (timeAdjustCmd arg) s.dev }

/-- ALARM_CANCEL. -/
def execAlarmCancel (ag : Agent) (arg : BitVec 24) (s : State) : Host.Outcome State Fault Refusal :=
  .next { s with dev := issueCommand ag 1 0x12 arg (0x20 + argUnit arg) (alarmCancelCmd arg) s.dev }

/-- CMP_ARM: a write of TIM_CMP_TARGET. -/
def execCmpArm (ag : Agent) (c : Fin 16) (target : Word) (s : State) : Host.Outcome State Fault Refusal :=
  .next { s with dev := writeAccess ag 1 (0x10 + c.val) (lattice 1 (0x10 + c.val) 4) (fun d => (.ok, d.writeCmpTarget c target)) s.dev }

/-- CMP_DISARM: a write of TIM_CMP_CTRL. -/
def execCmpDisarm (ag : Agent) (c : Fin 16) (ctrl : Word) (s : State) : Host.Outcome State Fault Refusal :=
  .next { s with dev := writeAccess ag 1 (0x10 + c.val) (lattice 1 (0x10 + c.val) 0) (fun d => (.ok, d.writeCmpCtrl c ctrl)) s.dev }

/-- CMP_FIRE. -/
def execCmpFire (c : Fin 16) (s : State) : Host.Outcome State Fault Refusal := .next { s with dev := s.dev.cmpFire c }

/-- ALM_ARM: a write of TIM_ALM_HI. -/
def execAlmArm (ag : Agent) (a : Fin 8) (hi : Word) (s : State) : Host.Outcome State Fault Refusal :=
  .next { s with dev := writeAccess ag 1 (0x20 + a.val) (lattice 1 (0x20 + a.val) 4) (fun d => (.ok, d.writeAlmHi a hi)) s.dev }

/-- ALM_FIRE. -/
def execAlmFire (a : Fin 8) (s : State) : Host.Outcome State Fault Refusal := .next { s with dev := s.dev.almFire a }

/-- CAPTURE_EDGE. -/
def execCaptureEdge (src : CapSource) (rising : Bool) (s : State) : Host.Outcome State Fault Refusal :=
  .next { s with dev := s.dev.captureEdge src rising }

/-- RESIDUAL_SLEW_END (R157): the residual has been slewed out. -/
def execResidualSlewEnd (s : State) : Host.Outcome State Fault Refusal :=
  .next { s with dev :=
    if s.dev.tim.residual ≠ 0 ∧ s.dev.residualEnd ≤ s.dev.el then
      { s.dev with tim := { s.dev.tim with residual := 0 } }
    else s.dev }

end Sys2Proof.Machine
end

