-- ==== Sys2Proof/Machine/Aulan.lean ====
section
/-! DEFINITION. The Aulan host link (16_aulan.md): frames on the two ports, the bridge's queues, numbering and the
host port, link faults, link delays and time transfer. The execution of LREQ is in Lattice.lean. -/

namespace Sys2Proof.Machine

/-! ### Ports (R483, R484, R500) -/

/-- Port A (false) or B (true). -/
def Dev.port (d : Dev) (portB : Bool) : Port := if portB then d.aul.b else d.aul.a

/-- PERSONA ring role LINE_END (R484). -/
def Dev.lineEnd (d : Dev) : Bool := d.persona 0 = 1

/-- The module's role uses a port. -/
def Dev.portUsed (d : Dev) (portB : Bool) : Bool := !portB || !d.lineEnd

/-- A port is UP. -/
def Dev.portIsUp (d : Dev) (portB : Bool) : Bool := (d.port portB).st = .up

/-- AUL_STATUS.state: DOWN (0), ENUM (1), UP (2), SPLIT (3) (log entry 32, DEDUCED). -/
def Dev.aulState (d : Dev) : Nat :=
  if !(d.portIsUp false || (d.portUsed true && d.portIsUp true)) then 0
  else if d.aul.enumerating then 1
  else if d.aul.hostB || !d.portIsUp false || (d.portUsed true && !d.portIsUp true) then 3
  else 2

/-- Run an event and set the split flag when the module enters SPLIT. -/
def Dev.watchSplit (d : Dev) (f : Dev → Dev) : Dev :=
  d.oneEvent fun d =>
    let d1 := f d
    if d.aulState ≠ 3 ∧ d1.aulState = 3 then d1.raiseAul 2 else d1

/-- A module makes a port its host port; a LINE_END never makes B its host port (R499). -/
def Dev.setHostPort (d : Dev) (portB : Bool) : Dev :=
  if d.portUsed portB then { d with aul := { d.aul with hostB := portB } } else d

/-- The host port is lost: the other port takes over when it is UP (R500). -/
def Dev.loseHostPort (d : Dev) : Dev := if d.portIsUp (!d.aul.hostB) then d.setHostPort (!d.aul.hostB) else d

/-! ### Sending -/

/-- Bytes of a frame from its header to its CRC: header, payload and CRC. -/
def ringBytes (f : RingFrame) : Nat := 12 + 8 * f.payload.length

/-- A whole frame on the line. -/
def wholeFrame (f : RingFrame) : WireItem := .bytes f 0 (ringBytes f)

/-- How long an item takes: 20 ns a symbol; SOF goes before a frame's first byte, EOF and two commas after its last
(R486). -/
def WireItem.ns : WireItem → Nat
  | .bytes f first stop => 20 * (stop - first + b1 (first = 0) + (if stop = ringBytes f then 3 else 0))
  | .pre => 20
  | .res => 20

/-- What is left on a line at an elapsed time, and when its first item began, or the last one ended. -/
def lineNow : List WireItem → Nat → Nat → List WireItem × Nat
  | [], t, _ => ([], t)
  | x :: xs, t, el => if t + x.ns ≤ el then lineNow xs (t + x.ns) el else (x :: xs, t)

/-- A C0 frame takes its place in what has not begun: behind the C0 frames that go first, within a pre-emption already
placed, before everything else. -/
def putC0 (f : RingFrame) : List WireItem → List WireItem
  | [] => [wholeFrame f]
  | .bytes g a b :: xs => if g.cls = 0 then .bytes g a b :: putC0 f xs else wholeFrame f :: .bytes g a b :: xs
  | .pre :: xs => .pre :: putC0 f xs
  | x :: xs => wholeFrame f :: x :: xs

/-- A C0 frame at a transmitter whose first item is under way for `dt` ns: a C1 to C3 frame ends its current 8-byte block,
counted from the first header byte, then PRE, the C0 frames and RES, then its rest (R489). A C0 frame is never
interrupted. -/
def interrupt (f : RingFrame) (dt : Nat) : List WireItem → List WireItem
  | [] => [wholeFrame f]
  | .bytes g a b :: xs =>
    let cut := a + 8 * ((dt - 20 * b1 (a = 0)) / 160 + 1)
    if g.cls = 0 ∨ b ≤ cut then .bytes g a b :: putC0 f xs
    else .bytes g a cut :: .pre :: wholeFrame f :: .res :: .bytes g cut b :: xs
  | .pre :: xs => .pre :: putC0 f xs
  | .res :: xs => .res :: .pre :: wholeFrame f :: .res :: xs

/-- The 8-byte blocks of a frame. -/
def ringBlocks (f : RingFrame) : Nat := 1 + f.payload.length

/-- Whether a class has a frame waiting that no PAUSE holds (R491). -/
def Port.classWaits (p : Port) (c : Fin 4) : Bool := c ≠ 0 && !p.paused.getLsbD c.val && p.waiting.any fun (x : Bool × RingFrame) => x.2.cls = c

/-- The class that has had the least of its share of the line, among those that wait (R490). -/
def Port.nextClass (p : Port) : Option (Fin 4) :=
  ([1, 2, 3] : List (Fin 4)).foldl (fun (best : Option (Fin 4)) (c : Fin 4) =>
    if p.classWaits c then
      match best with
      | some b => if p.shares[c] < p.shares[b] then some c else best
      | none => some c
    else best) none

/-- The next frame of a class: forwarded and own ones in turn (R490). -/
def Port.nextOf (p : Port) (c : Fin 4) : Option (Bool × RingFrame) :=
  match p.waiting.find? fun (x : Bool × RingFrame) => x.2.cls = c && x.1 ≠ p.ownLast.getLsbD c.val with
  | some x => some x
  | none => p.waiting.find? fun (x : Bool × RingFrame) => x.2.cls = c

/-- A waiting frame takes the line: its class is charged for its blocks, C1 to C3 in the ratio 4:2:1 (R490). -/
def Port.start (p : Port) (c : Fin 4) (x : Bool × RingFrame) : Port :=
  { p with
    line := [wholeFrame x.2], waiting := p.waiting.erase x, shareNow := p.shares[c]
    shares := vmod p.shares c fun n => n + ringBlocks x.2 * 2 ^ (c.val - 1)
    ownLast := BitVec.ofNat 4 (p.ownLast.toNat - (p.ownLast.toNat &&& 2 ^ c.val) + b1 x.1 * 2 ^ c.val) }

/-- The line up to an elapsed time: as one frame ends the next one that waits begins. The first argument bounds how many. -/
def Port.run : Nat → Port → Nat → Port
  | 0, p, _ => p
  | n + 1, p, el =>
    let x := lineNow p.line p.lineAt el
    let q := { p with line := x.1, lineAt := x.2 }
    match x.1, q.nextClass.bind fun c => (q.nextOf c).map fun y => (c, y) with
    | [], some (c, y) => Port.run n (q.start c y) el
    | [], none => { q with lineAt := el }
    | _, _ => q

/-- The line now. -/
def Port.now (p : Port) (el : Nat) : Port := p.run (p.waiting.length + 1) el

/-- A C1 to C3 frame joins those that wait; a class that had none waiting takes no share for that time (R126, R490). -/
def Port.enqueue (p : Port) (own : Bool) (f : RingFrame) : Port :=
  { p with
    waiting := p.waiting ++ [(own, f)]
    shares := if p.waiting.any fun (x : Bool × RingFrame) => x.2.cls = f.cls then p.shares else vmod p.shares f.cls fun n => max n p.shareNow }

/-- A frame is handed to a transmitter at an elapsed time. -/
def Port.transmit (p : Port) (own : Bool) (f : RingFrame) (el : Nat) : Port :=
  let q := p.now el
  let r := { q with sent := f :: q.sent }
  if f.cls = 0 then { r with line := interrupt f (el - r.lineAt) r.line } else (r.enqueue own f).now el

/-- Bytes of a class that a port's buffer holds: frames that wait for a queue or for GO, and those the port has passed on
that wait for the other port's line (R491). -/
def Dev.held (d : Dev) (portB : Bool) (cls : Nat) : Nat :=
  ((d.aul.rxHeld.filter fun (x : Bool × RingFrame) => x.1 = portB && x.2.cls.val = cls).map fun (x : Bool × RingFrame) => ringBytes x.2).sum +
  ((((d.port (!portB)).now d.el).waiting.filter fun (x : Bool × RingFrame) => !x.1 && x.2.cls.val = cls).map fun (x : Bool × RingFrame) => ringBytes x.2).sum

/-- PAUSE above 5 KiB and GO below 2 KiB, for C1 to C3 of a port (R491). -/
def Dev.flowPort (d : Dev) (portB : Bool) : Dev :=
  d.updPort portB fun p => { p with pausing := BitVec.ofNat 4 ([1, 2, 3].foldl (fun (acc : Nat) (c : Nat) =>
    acc + b1 (decide (5120 < d.held portB c) || (p.pausing.getLsbD c && decide (2048 ≤ d.held portB c))) * 2 ^ c) 0) }

/-- PAUSE and GO of both ports. -/
def Dev.flow (d : Dev) : Dev := (d.flowPort false).flowPort true

/-- A frame leaves through a port: one that is forwarded, or the module's own. -/
def Dev.sendRing (d : Dev) (portB : Bool) (f : RingFrame) (own : Bool := false) : Dev :=
  (d.updPort portB fun p => p.transmit own f d.el).flow

/-- A frame of this module's own (R486). -/
def Dev.ownFrame (d : Dev) (cls : Fin 4) (ty : Nat) (queue : Nat) (payload : List QData) : RingFrame :=
  { cls := cls, ftype := BitVec.ofNat 6 ty, dest := 0, source := BitVec.ofNat 8 d.aul.number, hops := 0
    queue := BitVec.ofNat 8 queue, payload := payload, crcOk := true, eofBad := false }

/-- An own C0 frame starts in a direction (R495). -/
def Dev.startC0 (d : Dev) (portB : Bool) (f : RingFrame) : Dev :=
  let d1 := (d.sendRing portB f true).updPort portB fun p => { p with c0Starts := (d.el :: p.c0Starts).take 2 }
  { d1 with aul := { d1.aul with sentC0 := d1.aul.sentC0 + 1 } }

/-- Fewer than 2 own C0 frames have started in this direction within the preceding 250 µs (R495). -/
def Dev.c0Free (d : Dev) (portB : Bool) : Bool :=
  decide (((d.port portB).c0Starts.filter fun (t : Nat) => decide (d.el < t + 250000)).length < 2)

/-- LINK DOWN (0) or UP (1) of a port, sent through the other one (R500, R501). -/
def Dev.sendLink (d : Dev) (portB : Bool) (up : Nat) : Dev :=
  if d.portUsed (!portB) ∧ d.portIsUp (!portB) ∧ !d.aul.stopped then
    d.startC0 (!portB) (d.ownFrame 0 8 0 [packQ [(8, up), (8, b1 portB), (48, 0)]])
  else d

/-! ### Queue messages to the host (R492, R493, R495) -/

/-- The message with an identifier in its header. -/
def withIdent (ws : List QData) (ident : Word) : List QData :=
  match ws with
  | [] => []
  | h :: rest => BitVec.ofNat 64 (h.toNat / 2 ^ 32 * 2 ^ 32 + ident.toNat) :: rest

/-- The bridge takes the front message of a queue and sends it; a message identifier of 0 is replaced in a queue of
space 9. -/
def Dev.bridgeTake (d : Dev) (q : Fin 64) (cls : Fin 4) (cs : List WordCheck) : Dev :=
  match (d.freshFront q).que.q[q].msgs with
  | [] => d.freshFront q
  | m :: ms =>
    let d0 := d.freshFront q
    let bad := poisonSpan m ms cs ≠ 0
    let need := d.idSpace q.val = 9 && hdrIdent (msgHead m.words) = 0 && !bad
    let (ident, d1) := if need then d0.issueId 9 else (some (w32 (hdrIdent (msgHead m.words))), d0)
    match ident with
    | none => ({ d1 with aul := { d1.aul with idWait := true } }).raiseAul 7
    | some w =>
      let (ws, d2) := d1.takeMsg q cs
      let f := d2.ownFrame cls 0 q.val (if bad then ws.getD [] else withIdent m.words w)
      let d3 := { d2 with aul := { d2.aul with c0Wait := d2.aul.c0Wait.filter fun (x : Nat) => x ≠ q.val } }
      if cls = 0 then d3.startC0 d3.aul.hostB f else d3.sendRing d3.aul.hostB f true

/-- The bridge may send a frame of a class now (R491, R498, R505): the module has a number, its host port is UP, the
class is not paused, and in hold-up only C0 is sent. -/
def Dev.bridgeMay (d : Dev) (cls : Fin 4) : Bool :=
  d.aul.numbered && d.portIsUp d.aul.hostB && !d.aul.stopped && (cls = 0 || (!d.sto.holdup && !(d.port d.aul.hostB).paused.getLsbD cls.val))

/-- A queue the bridge can serve now: not one whose front waits under R495 or for an issue of space 9. -/
def Dev.bridgeCan (d : Dev) (q : Fin 64) : Bool :=
  (d.que.q[q].entry.cls ≠ 0 || d.c0Free d.aul.hostB) && !(d.aul.idWait && d.idSpace q.val = 9)

/-- BRIDGE_QUEUE_SEND (R126, R492 to R495). -/
def Dev.bridgeSend (d : Dev) (q : Fin 64) (cs : List WordCheck) : Dev :=
  let e := d.que.q[q].entry
  if h : e.cls < 4 then
    let cls : Fin 4 := ⟨e.cls, h⟩
    if e.cons ≠ 2 ∨ e.depth = 0 ∨ !d.bridgeMay cls ∨ (d.aul.idWait ∧ d.idSpace q.val = 9) then d
    else if cls = 0 ∧ !d.c0Free d.aul.hostB then
      if d.que.q[q].msgs = [] ∨ d.aul.c0Wait.contains q.val then d
      else { d with aul := { d.aul with held := satAdd 16 d.aul.held 1, c0Wait := q.val :: d.aul.c0Wait } }
    else if d.serves q d.bridgeCan then d.bridgeTake q cls cs
    else d
  else d

/-- C0_HOLD_RELEASE (R495): the waiting frame starts once the rule permits. -/
def Dev.c0Release (d : Dev) (q : Fin 64) (cs : List WordCheck) : Dev :=
  if d.aul.c0Wait.contains q.val ∧ d.c0Free d.aul.hostB then d.bridgeSend q cs else d

/-! ### Frames received (R488, R491, R492) -/

/-- A frame is addressed to this module, or to all. -/
def Dev.forMe (d : Dev) (f : RingFrame) : Bool := f.dest = 0xFF || (d.aul.numbered && f.dest.toNat = d.aul.number)

/-- A CRC error is counted (R488). -/
def Dev.countCrc (d : Dev) : Dev := ({ d with aul := { d.aul with crc := satAdd 16 d.aul.crc 1 } }).raiseAul 5

/-- A frame is dropped as misrouted (R492, R505). -/
def Dev.misroute (d : Dev) : Dev := ({ d with aul := { d.aul with misrouted := satAdd 16 d.aul.misrouted 1 } }).raiseAul 6

/-- The other port can carry a forwarded frame of this class now. -/
def Dev.canForward (d : Dev) (portB : Bool) (cls : Fin 4) : Bool := cls = 0 || !(d.port (!portB)).paused.getLsbD cls.val

/-- A frame goes on through the other port, if the role uses it and it is UP. -/
def Dev.passOn (d : Dev) (portB : Bool) (f : RingFrame) : Dev :=
  if d.portUsed (!portB) ∧ d.portIsUp (!portB) then d.sendRing (!portB) { f with hops := f.hops + 1 } else d

/-- Hold a frame in the forwarding buffer of its port. -/
def Dev.holdFrame (d : Dev) (portB : Bool) (f : RingFrame) : Dev :=
  ({ d with aul := { d.aul with rxHeld := d.aul.rxHeld ++ [(portB, f)] } }).flow

/-- The queue a DATA frame names, when the bridge accepts the frame (R492). -/
def Dev.dataQueue (d : Dev) (f : RingFrame) : Option (Fin 64) :=
  if h : f.queue.toNat < 64 then
    let e := d.que.q[f.queue.toNat].entry
    if e.prod ≠ 2 ∨ e.depth = 0 ∨ e.cls ≠ f.cls.val ∨ (f.cls = 0 ∧ 8 < f.payload.length) ∨
        f.payload.length ≠ hdrLen (msgHead f.payload) + 1 then none
    else some ⟨f.queue.toNat, h⟩
  else none

/-- A held frame must wait behind an earlier one: of its port and class for C1 to C3, for its queue in C0. -/
def behind (portB : Bool) (f : RingFrame) (x : Bool × RingFrame) : Bool :=
  x.1 = portB && x.2.cls = f.cls && (f.cls ≠ 0 || (x.2.ftype = f.ftype && x.2.dest = f.dest && x.2.queue = f.queue))

/-- A DATA frame for this module whose CRC checked: into its queue, or held (C0, C1), or under R125 (C2, C3). -/
def Dev.takeData (d : Dev) (portB : Bool) (f : RingFrame) : Dev :=
  match d.dataQueue f with
  | none => d.misroute
  | some q =>
    if 2 ≤ f.cls.val ∨ ((d.que.q[q]).room f.payload.length ∧ !d.aul.rxHeld.any (behind portB f)) then d.produce q f.payload
    else if f.cls = 0 ∧ 16384 < d.held portB 0 + ringBytes f then d.misroute
    else (d.raiseQue q.val 1).holdFrame portB f

/-- A frame for another module whose header has arrived: forwarded, or held behind others of its class. -/
def Dev.forwardFrame (d : Dev) (portB : Bool) (f : RingFrame) : Dev :=
  let g := if f.crcOk then f else { f with eofBad := true }
  let d1 := if !f.crcOk ∧ !f.eofBad then d.countCrc else d
  if f.cls ≠ 0 ∧ (!d1.canForward portB f.cls ∨ d1.aul.rxHeld.any (behind portB f)) then d1.holdFrame portB g
  else d1.passOn portB g

/-- Write or forward what can go on of the frames held, oldest first; `kept` are those that stay. -/
def Dev.releaseRing : List (Bool × RingFrame) → List (Bool × RingFrame) → Dev → Dev
  | [], kept, d => { d with aul := { d.aul with rxHeld := kept } }
  | (p, f) :: rest, kept, d =>
    if kept.any (behind p f) then Dev.releaseRing rest (kept ++ [(p, f)]) d
    else if d.forMe f ∧ f.ftype = 0 then
      match d.dataQueue f with
      | none => Dev.releaseRing rest kept d.misroute
      | some q =>
        if (d.que.q[q]).room f.payload.length then Dev.releaseRing rest kept (d.produce q f.payload)
        else Dev.releaseRing rest (kept ++ [(p, f)]) d
    else if d.canForward p f.cls then Dev.releaseRing rest kept (d.passOn p f)
    else Dev.releaseRing rest (kept ++ [(p, f)]) d

/-- Work through the forwarding buffers, then PAUSE and GO. -/
def Dev.workBuffers (d : Dev) : Dev := (Dev.releaseRing d.aul.rxHeld [] d).flow

/-- A frame that arrives on an UP port (R488): it is taken when its CRC checks and it ends with EOF. Otherwise a frame
addressed to this module is dropped, uncounted with EOF_BAD and counted with a CRC error, and one that goes on, to
another module or to all, goes marked EOF_BAD (log entry 33, DEDUCED). -/
def Dev.receive (d : Dev) (portB : Bool) (f : RingFrame) (take : Dev → Dev) : Dev :=
  if !d.portIsUp portB ∨ d.aul.stopped then d
  else if f.crcOk ∧ !f.eofBad then take d
  else if f.dest = 0xFF ∨ !d.forMe f then d.forwardFrame portB f
  else if f.eofBad then d
  else d.countCrc

/-- DATA_FRAME (R492). -/
def Dev.dataFrame (d : Dev) (portB : Bool) (f : RingFrame) : Dev :=
  if f.ftype = 0 ∧ d.forMe f then
    d.receive portB f fun x =>
      let x1 := x.takeData portB f
      if f.dest = 0xFF then x1.forwardFrame portB f else x1
  else d

/-- FRAME_FORWARD (R488): link-local types are never forwarded. -/
def Dev.frameForward (d : Dev) (portB : Bool) (f : RingFrame) : Dev :=
  if d.forMe f ∨ f.ftype = 4 ∨ f.ftype = 5 ∨ !d.portIsUp portB ∨ d.aul.stopped then d else d.forwardFrame portB f

/-- PAUSE for a class, from the next frame boundary on; C0 is never paused (R491). -/
def Dev.pauseRx (d : Dev) (portB : Bool) (cls : Fin 4) : Dev :=
  if cls = 0 ∨ !d.portIsUp portB then d else d.updPort portB fun p => { p.now d.el with paused := BitVec.ofNat 4 (p.paused.toNat ||| 2 ^ cls.val) }

/-- The LREP frames that wait are sent where their class may be, oldest first. -/
def Dev.sendReps (d : Dev) : Dev :=
  let go := d.aul.repHeld.filter fun (f : RingFrame) => d.bridgeMay f.cls
  go.foldl (fun (acc : Dev) (f : RingFrame) => acc.sendRing acc.aul.hostB f true)
    { d with aul := { d.aul with repHeld := d.aul.repHeld.filter fun (f : RingFrame) => !d.bridgeMay f.cls } }

/-- GO for a class: held frames go on. -/
def Dev.goRx (d : Dev) (portB : Bool) (cls : Fin 4) : Dev :=
  ((d.updPort portB fun p =>
    ({ p.now d.el with paused := BitVec.ofNat 4 (p.paused.toNat - (p.paused.toNat &&& 2 ^ cls.val)) }).now d.el).workBuffers).sendReps

/-! ### Numbering and routes (R498 to R501) -/

/-- The lowest clear number of a map of 64. -/
def lowestClear (m : Nat) : Option Nat := (List.range 64).find? fun i => !nbit m i

/-- The module takes a number. -/
def Dev.takeNumber (d : Dev) (n : Nat) : Dev :=
  ({ d with aul := { d.aul with number := n, numbered := true } }).raiseAul 3

/-- ENUM acts on this module (R498): the module and the map after it. -/
def Dev.enumAct (d : Dev) (pass : Nat) (m : Nat) : Dev × Nat :=
  if pass = 1 then
    let pref := d.persona 1
    let d1 := { d with aul := { d.aul with number := 0, numbered := false, enumerating := true } }
    if 1 ≤ pref ∧ pref ≤ 64 ∧ !nbit m (pref - 1) then (d1.takeNumber pref, m + 2 ^ (pref - 1)) else (d1, m)
  else
    let d1 := { d with aul := { d.aul with enumerating := false } }
    if d1.aul.numbered then (d1, m)
    else
      match lowestClear m with
      | some i => (d1.takeNumber (i + 1), m + 2 ^ i)
      | none => (d1.raiseAul 4, m)

/-- ENUM: the count rises by one and gives the position, the host port follows, and the frame goes on with the new
count and map. -/
def Dev.ringEnum (d : Dev) (portB : Bool) (f : RingFrame) : Dev :=
  if f.ftype = 6 then
    d.receive portB f fun x => x.watchSplit fun y =>
      match f.payload with
      | w1 :: w2 :: _ =>
        let pass := bits w1.toNat 63 56
        let count := (bits w1.toNat 55 48 + 1) % 256
        if pass = 1 ∨ pass = 2 then
          let y1 := { y.setHostPort portB with aul := { (y.setHostPort portB).aul with position := count } }
          let (y2, m) := y1.enumAct pass w2.toNat
          y2.forwardFrame portB { f with payload := [packQ [(8, pass), (8, count), (48, 0)], BitVec.ofNat 64 m] }
        else y.forwardFrame portB f
      | _ => y
  else d

/-- ROUTE (R499): the host port becomes the port of arrival. -/
def Dev.ringRoute (d : Dev) (portB : Bool) (f : RingFrame) : Dev :=
  if f.ftype = 7 then
    d.receive portB f fun x => (x.watchSplit fun y => y.setHostPort portB).forwardFrame portB f
  else d

/-- LINK (R500): DOWN on the host port moves the host port to the other port when that is UP. -/
def Dev.ringLink (d : Dev) (portB : Bool) (f : RingFrame) : Dev :=
  if f.ftype = 8 then
    d.receive portB f fun x =>
      let down := bits (msgHead f.payload).toNat 63 56 = 0
      (x.watchSplit fun y => if down ∧ portB = y.aul.hostB then y.loseHostPort else y).forwardFrame portB f
  else d

/-- A port goes DOWN and retrains at once (R500). The code violations it has counted are not known to a command:
the count moves on by a free amount. -/
def Dev.dropPort (d : Dev) (portB : Bool) : Dev :=
  d.watchSplit fun x =>
    let x1 := (x.updPort portB fun p =>
      { p with st := .training, lockLosses := satAdd 16 p.lockLosses 1, violations := satAdd 16 p.violations (Config.freeNat x.fresh)
               paused := 0, pausing := 0, delays := [], t1 := none, line := [], waiting := [] })
    let x2 := ({ x1 with fresh := x1.fresh + 1 }).raiseAul 0
    let x3 := if x2.aul.hostB = portB then x2.loseHostPort else x2
    x3.sendLink portB 0

/-- PORT_DOWN. -/
def Dev.portDown (d : Dev) (portB : Bool) : Dev := if d.portIsUp portB then d.dropPort portB else d

/-- PORT_UP: the port has held lock for 1 ms (R500, R501). -/
def Dev.portUp (d : Dev) (portB : Bool) : Dev :=
  if d.portIsUp portB ∨ !d.portUsed portB ∨ d.aul.stopped ∨ d.pwr.held then d
  else (d.watchSplit fun x => ((x.updPort portB fun p => { p with st := .up, lastReq := d.el }).raiseAul 1).sendLink portB 1).sendReps.flow

/-! ### Link delay and time (R502, R503) -/

/-- The mean of the last exchanges in ns. -/
def Port.delay (p : Port) : Rat := if p.delays = [] then 0 else (p.delays.sum : Rat) / ((2 * p.delays.length : Nat) : Rat)

/-- DELAY_REQ arrives: answered with DELAY_RESP, whose send time is a free instant from the receipt on. -/
def Dev.delayReq (d : Dev) (portB : Bool) : Dev :=
  if d.portIsUp portB ∧ !d.aul.stopped ∧ !d.sto.holdup then
    let t3 := d.tim.now + Config.freeNat d.fresh
    ({ d with fresh := d.fresh + 1 }).sendRing portB (d.ownFrame 1 5 0 [BitVec.ofNat 64 d.tim.now, BitVec.ofNat 64 t3]) true
  else d

/-- DELAY_RESP arrives at t4. -/
def Dev.delayResp (d : Dev) (portB : Bool) (t2 t3 : BitVec 64) : Dev :=
  match (d.port portB).t1 with
  | some t1 =>
    if d.portIsUp portB then
      let x : Int := ((d.tim.now : Int) - t1) - ((t3.toNat : Int) - t2.toNat)
      d.updPort portB fun p => { p with t1 := none, delays := (x :: p.delays).take 8 }
    else d
  | none => d

/-- A port sends DELAY_REQ at t1. -/
def Dev.sendDelayReq (d : Dev) (portB : Bool) : Dev :=
  if d.portIsUp portB ∧ d.after (d.port portB).lastReq (d.rfld 9 0 4 7 0 * ms 100) then
    (d.sendRing portB (d.ownFrame 1 4 0 []) true).updPort portB fun p => { p with t1 := some d.tim.now, lastReq := d.el }
  else d

/-- DELAY_EXCHANGE_TIMER. -/
def Dev.delayTimer (d : Dev) : Dev := if d.aul.stopped ∨ d.sto.holdup then d else (d.sendDelayReq false).sendDelayReq true

/-- SYNC (R503): on the host port the offset goes to the servo; the frame goes on with its residence and the delay of
the arrival port added to the correction. The residence is a free number of ns. -/
def Dev.ringSync (d : Dev) (portB : Bool) (f : RingFrame) : Dev :=
  if f.ftype = 3 then
    d.receive portB f fun x =>
      match f.payload with
      | w1 :: w2 :: rest =>
        let delay := (x.port portB).delay
        let corr : Rat := (signed 64 w2.toNat : Rat)
        let x1 :=
          if portB = x.aul.hostB then
            let (off, y) := x.round ((w1.toNat : Rat) + corr / 65536 + delay - (x.tim.now : Rat))
            ({ y with aul := { y.aul with syncOff := clampInt off 0x7FFFFFFF } }).servoOffset false off
          else x
        let stay : Rat := (Config.freeNat x1.fresh : Rat)
        let (c, x2) := ({ x1 with fresh := x1.fresh + 1 }).round (corr + (stay + delay) * 65536)
        x2.forwardFrame portB { f with payload := w1 :: BitVec.ofNat 64 (twos 64 c) :: rest }
      | _ => x
  else d

/-! ### Commands (R506) -/

/-- COUNT_CLEAR (0x10). -/
def aulCountClearCmd (arg : BitVec 24) (d : Dev) : CmdSt × Dev :=
  if arg ≠ 0 then (.arg, d) else
  let d1 := { d with aul := { d.aul with crc := 0, misrouted := 0, held := 0, sentC0 := 0 } }
  (.ok, (d1.updPort false fun p => { p with violations := 0, lockLosses := 0 }).updPort true fun p => { p with violations := 0, lockLosses := 0 })

/-- PORT_RETRAIN (0x11). -/
def portRetrainCmd (ag : Agent) (arg : BitVec 24) (d : Dev) : CmdSt × Dev :=
  if 1 < argUnit arg ∨ argBits arg 15 0 ≠ 0 then (.arg, d)
  else
    let portB := argUnit arg = 1
    if ag = .host ∧ d.aul.hostB = portB then (.state (d.aulState), d)
    else if d.portIsUp portB then (.ok, d.dropPort portB)
    else (.ok, d.updPort portB fun p => { p with st := .training, line := [], waiting := [] })

/-- The cut-off stops both ports (R505). -/
def Dev.stopPorts (d : Dev) : Dev :=
  { d with aul := { d.aul with stopped := true, a := { d.aul.a with st := .down, line := [], waiting := [] }, b := { d.aul.b with st := .down, line := [], waiting := [] } } }

/-! ### Registers -/

/-- The code of a port state. -/
def PortSt.code : PortSt → Nat
  | .down => 0
  | .training => 1
  | .up => 2

/-- AUL_ROLE. -/
def Dev.readAulRole (d : Dev) : Word := packW [(1, b1 d.lineEnd), (23, 0), (8, d.persona 1)]

/-- AUL_STATUS. -/
def Dev.readAulStatus (d : Dev) : Word :=
  packW [(4, d.aulState), (1, b1 d.aul.hostB), (1, b1 d.aul.numbered), (1, b1 d.aul.idWait), (1, 0), (8, d.aul.number),
    (8, d.aul.position), (6, 0), (1, b1 (d.portIsUp true)), (1, b1 (d.portIsUp false))]

/-- AUL_PORT_STATE: the delay rounds to a neighbouring ns; a mean outside the field's range reads as a free value. -/
def Dev.readPortState (d : Dev) (portB : Bool) : Word × Dev :=
  let p := d.port portB
  let (v, d1) := d.round (if p.st = .up then p.delay else 0)
  let w := if 0 ≤ v ∧ v ≤ 0xFFFF then v.toNat else (Config.freeWord d1.fresh).toNat
  (packW [(4, p.st.code), (4, p.paused.toNat), (4, p.pausing.toNat), (4, 0), (16, w)], { d1 with fresh := d1.fresh + 1 })

/-! ### The commands of the table -/

/-- DATA_FRAME. -/
def execDataFrame (portB : Bool) (f : RingFrame) (s : State) : Host.Outcome State Fault Refusal :=
  .next { s with dev := s.dev.dataFrame portB f }

/-- BRIDGE_QUEUE_SEND. -/
def execBridgeQueueSend (q : Take) (s : State) : Host.Outcome State Fault Refusal :=
  .next { s with dev := s.dev.bridgeSend q.q q.checks }

/-- SYNC. -/
def execRingSync (portB : Bool) (f : RingFrame) (s : State) : Host.Outcome State Fault Refusal :=
  .next { s with dev := s.dev.ringSync portB f }

/-- DELAY_REQ. -/
def execDelayReq (portB : Bool) (s : State) : Host.Outcome State Fault Refusal := .next { s with dev := s.dev.delayReq portB }

/-- DELAY_RESP. -/
def execDelayResp (portB : Bool) (t2 t3 : BitVec 64) (s : State) : Host.Outcome State Fault Refusal :=
  .next { s with dev := s.dev.delayResp portB t2 t3 }

/-- DELAY_EXCHANGE_TIMER. -/
def execDelayExchangeTimer (s : State) : Host.Outcome State Fault Refusal := .next { s with dev := s.dev.delayTimer }

/-- ENUM. -/
def execRingEnum (portB : Bool) (f : RingFrame) (s : State) : Host.Outcome State Fault Refusal :=
  .next { s with dev := s.dev.ringEnum portB f }

/-- ROUTE. -/
def execRingRoute (portB : Bool) (f : RingFrame) (s : State) : Host.Outcome State Fault Refusal :=
  .next { s with dev := s.dev.ringRoute portB f }

/-- LINK. -/
def execRingLink (portB : Bool) (f : RingFrame) (s : State) : Host.Outcome State Fault Refusal :=
  .next { s with dev := s.dev.ringLink portB f }

/-- FRAME_FORWARD. -/
def execFrameForward (portB : Bool) (f : RingFrame) (s : State) : Host.Outcome State Fault Refusal :=
  .next { s with dev := s.dev.frameForward portB f }

/-- PAUSE_RECEIVED. -/
def execPauseReceived (portB : Bool) (cls : Fin 4) (s : State) : Host.Outcome State Fault Refusal :=
  .next { s with dev := s.dev.pauseRx portB cls }

/-- GO_RECEIVED. -/
def execGoReceived (portB : Bool) (cls : Fin 4) (s : State) : Host.Outcome State Fault Refusal :=
  .next { s with dev := s.dev.goRx portB cls }

/-- C0_HOLD_RELEASE. -/
def execC0HoldRelease (q : Take) (s : State) : Host.Outcome State Fault Refusal :=
  .next { s with dev := s.dev.c0Release q.q q.checks }

/-- PORT_DOWN. -/
def execPortDown (portB : Bool) (s : State) : Host.Outcome State Fault Refusal := .next { s with dev := s.dev.portDown portB }

/-- PORT_UP. -/
def execPortUp (portB : Bool) (s : State) : Host.Outcome State Fault Refusal := .next { s with dev := s.dev.portUp portB }

/-- COUNT_CLEAR of AUL. -/
def execAulCountClear (ag : Agent) (arg : BitVec 24) (s : State) : Host.Outcome State Fault Refusal :=
  .next { s with dev := issueCommand ag 9 0x10 arg 0xFF (aulCountClearCmd arg) s.dev }

/-- PORT_RETRAIN. -/
def execPortRetrain (ag : Agent) (arg : BitVec 24) (s : State) : Host.Outcome State Fault Refusal :=
  .next { s with dev := issueCommand ag 9 0x11 arg (0x10 + argUnit arg) (portRetrainCmd ag arg) s.dev }

end Sys2Proof.Machine
end

