-- ==== Sys2Proof/Machine/Calendar.lean ====
section
/-! DEFINITION. Calendars (R210 to R214): local time, daylight saving, day types, the block of R212 and its
checks. -/

namespace Sys2Proof.Machine

/-- Nanoseconds in a minute. -/
def minuteNs : Nat := 60000000000

/-- The day of month that a week and weekday rule names (R211): week 5 is the last. -/
def ruleDay (y m week wday : Nat) : Nat :=
  let first := (wday + 7 - weekday (dayNumber y m 1)) % 7 + 1
  let day := first + 7 * (week - 1)
  if monthDays y m < day then day - 7 else day

/-- The instant of a daylight saving rule in a year, in ns of the local scale it is read in. -/
def ruleInstant (y : Nat) (r : Nat × Nat × Nat × Nat) : Nat :=
  dayNumber y r.1 (ruleDay y r.1 r.2.1 r.2.2.1) * dayNs + r.2.2.2 * 15 * minuteNs

/-- Whether daylight saving is in force at a local standard time (R211). The end is read in daylight time: one in the
first minutes of a year lies in the old year of local standard time. -/
def Calendar.dst (c : Calendar) (std : Nat) : Bool :=
  if c.dstOffset = 0 then false
  else
    let y := (civil (std / dayNs)).year
    let s := ruleInstant y c.dstStart
    let e := fun (k : Nat) => ruleInstant k c.dstEnd - c.dstOffset * minuteNs
    (if s < e y then decide (s ≤ std) && decide (std < e y) else decide (s ≤ std) || decide (std < e y)) &&
      decide (std < e (y + 1))

/-- UTC of a site time in ns (R210). -/
def Dev.utc (d : Dev) (t : Nat) : Nat := t - d.taiUtc

/-- std_offset in minutes; 0 while no calendar has been activated (R210). -/
def Dev.stdOffset (d : Dev) : Int := (d.bil.active.map (·.stdOffset)).getD 0

/-- Local standard time of a site time (R210). -/
def Dev.localStd (d : Dev) (t : Nat) : Nat := ((d.utc t : Int) + d.stdOffset * (minuteNs : Int)).toNat

/-- The site time of a local standard time. -/
def Dev.siteOf (d : Dev) (std : Nat) : Nat := ((std : Int) - d.stdOffset * (minuteNs : Int)).toNat + d.taiUtc

/-- Whether daylight saving is in force at a site time. -/
def Dev.dstAt (d : Dev) (t : Nat) : Bool := (d.bil.active.map fun c => c.dst (d.localStd t)).getD false

/-- Local time of a site time (R210). -/
def Dev.localTime (d : Dev) (t : Nat) : Nat :=
  d.localStd t + (if d.dstAt t then ((d.bil.active.map (·.dstOffset)).getD 0) * minuteNs else 0)

/-- Whether date (m, dd) a is not after date b, by month and then day (R214). -/
def dateLe (a b : Nat × Nat) : Bool := a.1 < b.1 || (a.1 = b.1 && a.2 ≤ b.2)

/-- The index of the season in use on a date (R214): the latest start on or before it, wrapping to the previous
year. -/
def Calendar.season (c : Calendar) (m dd : Nat) : Nat :=
  let used := (List.range c.seasons.length).filter fun i => (c.seasons.getD i (0, 0, [])).1 ≠ 0
  let start := fun i => let s := c.seasons.getD i (0, 0, []); (s.1, s.2.1)
  let before := used.filter fun i => dateLe (start i) (m, dd)
  let pool := if before = [] then used else before
  pool.foldl (fun acc i => if dateLe (start acc) (start i) then i else acc) (pool.headD 0)

/-- The day type of a local date (R214). -/
def Calendar.dayType (c : Calendar) (date : Civil) (wday : Nat) : Nat :=
  match c.specials.find? fun s => s.1 = date.year && s.2.1 = date.month && s.2.2.1 = date.day with
  | some s => s.2.2.2
  | none =>
    match c.specials.find? fun s => s.1 = 0xFFFF && s.2.1 = date.month && s.2.2.1 = date.day with
    | some s => s.2.2.2
    | none => ((c.seasons.getD (c.season date.month date.day) (0, 0, [])).2.2).getD wday 0

/-- The tariff of a day type at a minute of the day: the used switch point with the greatest time not after it. -/
def Calendar.tariffAt (c : Calendar) (dt minute : Nat) : Nat :=
  let pts := (c.dayTypes.getD dt []).filter fun p => p.1 ≠ 0xFF && p.1 * 60 + p.2.1 ≤ minute
  (pts.foldl (fun acc p => if acc.1 * 60 + acc.2.1 ≤ p.1 * 60 + p.2.1 then p else acc) (pts.headD (0, 0, 1))).2.2

/-- The calendar's tariff at a site time (R208, R214). -/
def Dev.calendarTariff (d : Dev) (c : Calendar) (t : Nat) : Nat :=
  let l := d.localTime t
  c.tariffAt (c.dayType (civil (l / dayNs)) (weekday (l / dayNs))) (l % dayNs / minuteNs)

/-! ### The calendar block (R212, R213) -/

/-- The two bytes of day types and so on: a byte of a block. -/
def byteAt (bs : List Byte) (i : Nat) : Nat := (bs.getD i 0).toNat

/-- Decode the fields of a calendar block. -/
def decodeCalendar (bs : List Byte) : Calendar :=
  let rule := fun o => (byteAt bs o, byteAt bs (o + 1), byteAt bs (o + 2), byteAt bs (o + 3))
  { calId := w32 (leAt bs 8 4), activate := leAt bs 0x10 8, stdOffset := signed 16 (leAt bs 0x18 2)
    dstOffset := byteAt bs 0x1A, dstStart := rule 0x1C, dstEnd := rule 0x20, billDay := byteAt bs 0x24
    billTime := byteAt bs 0x25, mdAuto := byteAt bs 0x26 = 1
    seasons := (List.range 4).map fun i =>
      (byteAt bs (0x40 + 12 * i), byteAt bs (0x41 + 12 * i), (List.range 7).map fun k => byteAt bs (0x42 + 12 * i + k))
    dayTypes := (List.range 8).map fun dt => (List.range 12).map fun sp =>
      (byteAt bs (0x70 + 48 * dt + 4 * sp), byteAt bs (0x71 + 48 * dt + 4 * sp), byteAt bs (0x72 + 48 * dt + 4 * sp))
    specials := ((List.range 32).map fun i =>
      (leAt bs (0x1F0 + 8 * i) 2, byteAt bs (0x1F2 + 8 * i), byteAt bs (0x1F3 + 8 * i), byteAt bs (0x1F4 + 8 * i))).filter
        fun s => s.1 ≠ 0 }

/-- `n` bytes from an offset are 0. -/
def zeros (bs : List Byte) (off n : Nat) : Bool := (slice bs off n).all fun b => b = 0

/-- Days of a month in a leap year. -/
def longMonth (m : Nat) : Nat := monthDays 2000 m

/-- A daylight saving rule lies in its ranges (R212). -/
def ruleOk (r : Nat × Nat × Nat × Nat) : Bool :=
  1 ≤ r.1 && r.1 ≤ 12 && 1 ≤ r.2.1 && r.2.1 ≤ 5 && r.2.2.1 ≤ 6 && r.2.2.2 ≤ 95

/-- Reserved fields of a calendar block (R212, R213 RANGE). -/
def calendarReserved (bs : List Byte) : Bool :=
  zeros bs 0xC 4 && zeros bs 0x1B 1 && zeros bs 0x27 25 && zeros bs 0x2F4 12 &&
  (List.range 4).all (fun i => zeros bs (0x40 + 12 * i + 9) 3 && (byteAt bs (0x40 + 12 * i) ≠ 0 || zeros bs (0x40 + 12 * i) 12)) &&
  (List.range 96).all (fun i => byteAt bs (0x73 + 4 * i) = 0 &&
    (byteAt bs (0x70 + 4 * i) ≠ 0xFF || zeros bs (0x71 + 4 * i) 3)) &&
  (List.range 32).all (fun i => zeros bs (0x1F0 + 8 * i + 5) 3 && (leAt bs (0x1F0 + 8 * i) 2 ≠ 0 || zeros bs (0x1F0 + 8 * i) 8))

/-- The ranges of R212 (R213 RANGE). -/
def calendarRanges (c : Calendar) (bs : List Byte) : Bool :=
  decide (-720 ≤ c.stdOffset) && decide (c.stdOffset ≤ 840) && c.dstOffset ≤ 120 && ruleOk c.dstStart && ruleOk c.dstEnd &&
  c.billDay ≤ 28 && c.billTime ≤ 95 && byteAt bs 0x26 ≤ 1 &&
  c.seasons.all (fun s => s.1 ≤ 12 && (s.1 = 0 || (1 ≤ s.2.1 && s.2.1 ≤ longMonth s.1))) &&
  c.dayTypes.all (fun t => t.all fun p => p.1 = 0xFF || (p.1 ≤ 23 && p.2.1 ≤ 59 && 1 ≤ p.2.2 && p.2.2 ≤ 16))

/-- Whether a list has no repeats. -/
def distinct {α : Type} [DecidableEq α] (xs : List α) : Bool := decide xs.Nodup

/-- Used seasons (R213 SEASON). -/
def calendarSeasons (c : Calendar) : Bool :=
  let used := c.seasons.filter fun s => s.1 ≠ 0
  !used.isEmpty && distinct (used.map fun s => (s.1, s.2.1)) && used.all fun s => s.2.2.all (· ≤ 7)

/-- Day types that seasons and special days name (R213 DAYTYPE); a name above 7 is reported by SEASON or SPECIAL. -/
def calendarDayTypes (c : Calendar) : Bool :=
  let named := ((c.seasons.filter fun s => s.1 ≠ 0).flatMap fun s => s.2.2) ++ c.specials.map fun s => s.2.2.2
  named.all (fun t => 7 < t || (c.dayTypes.getD t []).any fun p => p.1 = 0 && p.2.1 = 0) &&
  c.dayTypes.all fun t => distinct ((t.filter fun p => p.1 ≠ 0xFF).map fun p => (p.1, p.2.1))

/-- Special days (R213 SPECIAL). -/
def calendarSpecials (c : Calendar) : Bool :=
  distinct (c.specials.map fun s => (s.1, s.2.1, s.2.2.1)) &&
  c.specials.all fun s => 1 ≤ s.2.1 && s.2.1 ≤ 12 && 1 ≤ s.2.2.1 &&
    s.2.2.1 ≤ (if s.1 = 0xFFFF then longMonth s.2.1 else monthDays s.1 s.2.1) && s.2.2.2 ≤ 7

/-- The reason R213 refuses a block with; 0 when it accepts it. A block that breaks several rules reports the one with
the lowest number (log entry 102, DESIGN CHOICE). -/
def calendarReason (bs : List Byte) : Nat :=
  let c := decodeCalendar bs
  if leAt bs 0 4 ≠ 0x41434754 ∨ leAt bs 4 2 ≠ 1 ∨ leAt bs 6 2 ≠ 0x300 ∨ bs.length ≠ 768 then 1
  else if leAt bs 0x2F0 4 ≠ crc32c (bs.take 0x2F0) then 2
  else if !(calendarReserved bs && calendarRanges c bs) then 3
  else if !calendarSeasons c then 4
  else if !calendarDayTypes c then 5
  else if !calendarSpecials c then 6
  else if c.dstOffset ≠ 0 ∧ c.dstStart.1 = c.dstEnd.1 then 7
  else 0

/-! ### Grids (R211, R219, R226) -/

/-- The first grid instant strictly after `t`, for a grid of `len` ns from local-standard midnight (R219, R226). -/
def Dev.gridNext (d : Dev) (t len : Nat) : Nat := t + (len - d.localStd t % len)

/-- The daylight saving start that a local standard time follows: the one of its year, or of the year before. -/
def Calendar.lastStart (c : Calendar) (std : Nat) : Nat :=
  let y := (civil (std / dayNs)).year
  if ruleInstant y c.dstStart ≤ std then ruleInstant y c.dstStart else ruleInstant (y - 1) c.dstStart

/-- The billing period end of a month (R211), as a site time. -/
def Dev.billEnd (d : Dev) (c : Calendar) (y m : Nat) : Nat :=
  let target := dayNumber y m c.billDay * dayNs + c.billTime * 15 * minuteNs
  let off := c.dstOffset * minuteNs
  let std := if c.dst (target - off) then target - off else if c.dst target then c.lastStart target else target
  d.siteOf std

/-- The first billing period end strictly after `t`; none without one (R210, R211). -/
def Dev.billNext (d : Dev) (t : Nat) : Option Nat :=
  match d.bil.active with
  | none => none
  | some c =>
    if c.billDay = 0 then none
    else
      let date := civil (d.localStd t / dayNs)
      let next := if date.month = 12 then (date.year + 1, 1) else (date.year, date.month + 1)
      let after := if next.2 = 12 then (next.1 + 1, 1) else (next.1, next.2 + 1)
      [(date.year, date.month), next, after].map (fun ym => d.billEnd c ym.1 ym.2) |>.find? fun x => t < x

end Sys2Proof.Machine
end

