-- ==== Sys2Proof/Machine/Metrology.lean ====
section
/-! DEFINITION. The metrology engines (06_metrology.md): channels, automatic gain, calibration, the sums of a
delivery, power-quality states, pulse outputs and captures. Closing a delivery hands energy to billing and is in
MeterEvents.lean. -/

namespace Sys2Proof.Machine

/-! ### Channels (R164 to R166) -/

/-- Unit number of a channel. -/
def chUnit (ch : Nat) : Nat := 0x40 + ch

/-- Whether a channel has a current path with two modulators (R164, R165). -/
def isCurrentPath (ch : Nat) : Bool := ch < 56 && 3 ≤ ch % 7

/-- The channels of a front-end die, in channel order (R164). -/
def dieChannels (dieB : Bool) : List (Fin 64) :=
  (List.finRange 64).filter fun c => if dieB then (28 ≤ c.val && c.val < 56) || 60 ≤ c.val else c.val < 28 || (56 ≤ c.val && c.val < 60)

/-- The metrology unit a channel belongs to (R166): its owning slice, or the grid monitor for role GRID. -/
def Dev.chanUnit (d : Dev) (ch : Nat) : Option Nat :=
  let (owner, role) := d.chan ch
  if role = 7 then (if owner = 0xFE then some 8 else none)
  else if owner < 8 then some owner else none

/-- The units that own a channel of a die. -/
def Dev.dieUnits (d : Dev) (dieB : Bool) : List (Fin 9) :=
  (List.finRange 9).filter fun u => (dieChannels dieB).any fun c => d.chanUnit c.val = some u.val

/-- The channels a unit owns, in channel order. -/
def Dev.ownedChannels (d : Dev) (u : Nat) : List (Fin 64) :=
  (List.finRange 64).filter fun c => d.chanUnit c.val = some u

/-- Whether a unit's configuration is valid: every owned channel has a non-zero fs (R190). -/
def Dev.mtrConfigValid (d : Dev) (u : Nat) : Bool := (d.ownedChannels u).all fun c => d.reg 3 (chUnit c.val) 0 ≠ 0

/-! ### Automatic gain (R170 to R173) -/

/-- The factor of a gain code: ×1, ×4, ×16, ×64. -/
def gainOf (code : Nat) : Nat := 4 ^ code

/-- The input in V that a code stands for at ×1: full scale is ±0.5 V (R165; log entry 20, DEDUCED). -/
def codeVolts (code : Int) : Rat := (code : Rat) / 16777216

/-- Full scale of a code. -/
def fullCode : Rat := 8388608

/-- A code reaches 95 % of full scale (R170). -/
def clips (code : Int) : Bool := 95 / 100 * fullCode ≤ ratAbs (code : Rat)

/-- The highest gain code whose input keeps within 0.5 V (R171); ×1 where none does (log entry 20, DEDUCED). -/
def bestGain (codeF : Int) : Nat :=
  let v := ratAbs (codeVolts codeF)
  if v * 64 ≤ 1 / 2 then 3 else if v * 16 ≤ 1 / 2 then 2 else if v * 4 ≤ 1 / 2 then 1 else 0

/-- The peak of one instant over both paths, as a fraction of full scale at ×1; path A counts unless it settles. -/
def instantPeak (c : Chan) (a f : Int) : Rat :=
  let pf := ratAbs (f : Rat) / fullCode
  let pa := ratAbs (a : Rat) / fullCode / (gainOf c.gain : Rat)
  if c.settle = 0 ∧ pf < pa then pa else pf

/-- The largest of a list of rational numbers, 0 of none. -/
def maxRat (xs : List Rat) : Rat := xs.foldl (fun m x => if m < x then x else m) 0

/-- Path A is usable at this instant (R170). -/
def usableA (c : Chan) (a : Int) : Bool := c.settle = 0 && !clips a

/-- The gain the automatic rule gives this instant, if it changes it (R171). -/
def autoGain (c : Chan) (a f : Int) : Option Nat :=
  let peaks := instantPeak c a f :: c.peaks
  if c.settle = 0 ∧ clips a then (if bestGain f ≠ c.gain then some (bestGain f) else none)
  else if c.settle ≠ 0 ∧ 475 / 1000 ≤ ratAbs (codeVolts f) * (gainOf c.gain : Rat) then
    (if bestGain f ≠ c.gain then some (bestGain f) else none)
  else if c.settle = 0 ∧ 320 ≤ c.sinceRef + 1 ∧ maxRat (peaks.take 320) * (gainOf c.gain * 4 : Nat) < 8 / 10 ∧ c.gain < 3 then
    some (c.gain + 1)
  else none

/-- A gain change: settling starts and the instant is the new reference (R170, R171). -/
def Chan.changeGain (c : Chan) (g : Nat) : Chan := { c with gain := g, settle := 4, sinceRef := 0, peaks := [] }

/-- Paths A and F differ by more than 0.5 % of full scale at ×1 (R173). -/
def pathsDiffer (c : Chan) (a f : Int) : Bool :=
  1 / 200 * fullCode < ratAbs ((a : Rat) / (gainOf c.gain : Rat) - (f : Rat))

/-- A current-path channel after one instant: its gain state, settling and mismatch run. The second part says
whether the gain changed automatically. -/
def Chan.instant (c : Chan) (auto : Bool) (a f : Int) : Chan × Bool :=
  let differ := if usableA c a then (if pathsDiffer c a f then c.differ + 1 else 0) else 0
  let next := { c with
    settle := c.settle - 1, differ := differ, sinceRef := min (c.sinceRef + 1) 320
    peaks := (instantPeak c a f :: c.peaks).take 320 }
  match (if auto then autoGain c a f else none) with
  | some g => (next.changeGain g, true)
  | none => (next, false)

/-! ### Calibration (R174) -/

/-- The range trim byte of a gain code (MTR_RANGE_TRIM). -/
def trimOf (w : Word) (code : Nat) : Int :=
  if code = 1 then signed 8 (fld w 7 0) else if code = 2 then signed 8 (fld w 15 8)
  else if code = 3 then signed 8 (fld w 23 16) else 0

/-- The sample a phase correction selects from a channel's codes, this instant's first: the one of a whole number of
sample periods ago, or for any other correction the output of the fractional-delay filter, a free value (R174; log
entry 18, DESIGN CHOICE). -/
def Dev.delayed (d : Dev) (phase : Int) (codes : List (Rat × Nat)) : (Rat × Nat) × Dev :=
  match (if 0 ≤ phase ∧ phase % 1024 = 0 then codes[(phase / 1024).toNat]? else none) with
  | some c => (c, d)
  | none => ((Config.freeRat d.fresh, (codes.headD (0, 0)).2), { d with fresh := d.fresh + 1 })

/-- The calibrated value in µV or µA of a code at a gain code (R174). -/
def Dev.calibrate (d : Dev) (ch : Nat) (code : Int) (gain : Nat) (past : List (Rat × Nat)) : Rat × Dev :=
  let u := chUnit ch
  let fs : Rat := (d.reg 3 u 0).toNat
  let k : Rat := signed 32 (d.reg 3 u 4).toNat
  let offs : Rat := signed 32 (d.reg 3 u 8).toNat
  let ((raw, g), d1) := d.delayed (signed 16 (d.rfld 3 u 0xC 15 0)) (((code : Rat) / fullCode, gain) :: past)
  let t : Rat := trimOf (d.reg 3 u 0x14) g
  (fs * (raw / (gainOf g : Rat) * (1 + t / 32768) - offs / 2147483648) * (1 + k / 2147483648), d1)

/-- One sample of a channel enters its period sums; a capture of its unit keeps it, rounded, up to 480 samples (R178,
R204). -/
def Chan.take (c : Chan) (x : Rat) (keep : Option Int) : Chan :=
  { c with
    x := x, sx := c.sx + x, sxx := c.sxx + x * x, px := if c.px < ratAbs x then ratAbs x else c.px, n := c.n + 1
    cap := match keep with
      | some v => if c.cap.length < 480 then v :: c.cap else c.cap
      | none => c.cap }

/-! ### The cycle of Urms(1/2) (R191) -/

/-- So many samples last (3 + 2k) / 4 mains cycles of a nominal frequency: 1.5 half cycles for k = 0, a half cycle more
for each k. -/
def halfSteps (f k samples : Nat) : Bool := (3 + 2 * k) * sec 1 ≤ 4 * f * (samples * samplePeriod)

/-- The samples of one nominal cycle. -/
def cycleSamples (f : Nat) : Nat := sec 1 / (f * samplePeriod)

/-- The mean square of the last k samples. -/
def Wave.meanSq (w : Wave) (k : Nat) : Rat := (w.sq.take k).sum / ((w.sq.take k).length : Rat)

/-- A sample whose sign differs from the one before is a zero crossing (log entry 119, DEDUCED): the two half cycles that
end with it are the cycle of a refresh, or one nominal cycle where no crossing had come for 1.5 half cycles. -/
def Wave.cross (w : Wave) (f : Nat) : Wave :=
  let long : Bool := halfSteps f 0 w.half || halfSteps f 0 w.prev
  { w with
    due := if w.prev = 0 then w.due else some (w.meanSq (if long then cycleSamples f else w.half + w.prev))
    prev := if w.begun then w.half else 0, half := 0, begun := true, steps := 0 }

/-- One sample x of the voltage, after the sample `last`, at nominal frequency f. -/
def Wave.take (w : Wave) (f : Nat) (last x : Rat) : Wave :=
  let w1 := if decide (last < 0) ≠ decide (x < 0) then w.cross f else w
  { w1 with sq := (x * x :: w1.sq).take 480, half := w1.half + 1 }

/-- The mean square a refresh is due with: after a crossing, or without one for 1.5 nominal half cycles at each nominal
half cycle. -/
def Wave.refreshWith (w : Wave) (f : Nat) : Option Rat :=
  w.due.orElse fun _ => if halfSteps f w.steps w.half ∧ cycleSamples f ≤ w.sq.length then some (w.meanSq (cycleSamples f)) else none

/-- The refresh has taken place. -/
def Wave.refreshed (w : Wave) : Wave := if w.due.isSome then { w with due := none } else { w with steps := w.steps + 1 }

/-- The nominal frequency of a unit (MTR_CFG.fnom). -/
def Dev.nominalHz (d : Dev) (u : Nat) : Nat := if bit (d.reg 3 u 4) 0 then 60 else 50

/-- A capture of the unit runs. -/
def Engine.capturing (e : Engine) : Bool := e.capLeft.isSome

/-- One sample instant of one channel (R166, R170, R174): nothing is computed from an UNUSED channel. -/
def Dev.sampleChannel (d : Dev) (ch : Fin 64) (codes : Int × Int) : Dev :=
  let cur := isCurrentPath ch.val
  let c := d.mtr.ch[ch]
  let auto := bit (d.reg 3 (chUnit ch.val) 0x10) 0
  let fromA := !cur || usableA c codes.1
  let (c1, switched) := if cur then c.instant auto codes.1 codes.2 else (c, false)
  let d1 := d.updCh ch fun _ => c1
  let d2 := if switched then d1.count 3 (chUnit ch.val) 0x10 31 16 else d1
  match d.chanUnit ch.val with
  | none => d2
  | some u =>
    if d.mtrRuns u then
      let (code, gain) := if fromA then (codes.1, if cur then c.gain else 0) else (codes.2, 0)
      let (x, d3) := d2.calibrate ch.val code gain c.past
      let cap := ((d.mtr.eng[u]?).map Engine.capturing).getD false
      let (v, d4) := if cap then d3.round x else (0, d3)
      let d5 := d4.updCh ch fun c =>
        { c.take x (if cap then some (clampInt v 0x7FFFFFFF) else none) with
          past := (((code : Rat) / fullCode, gain) :: c.past).take 4
          wave := if cur then c.wave else c.wave.take (d.nominalHz u) c.x x }
      if h : u < 9 ∧ !fromA ∧ auto then d5.updEng ⟨u, h.1⟩ fun e => { e with fBridged := true } else d5
    else d2

/-! ### Per-sample sums of an engine (R177) -/

/-- Channel of a phase: voltage 7n + p, current 7n + 3 + p (R164). -/
def vChan (n : Fin 8) (p : Fin 3) : Fin 64 := ⟨7 * n.val + p.val, by omega⟩
/-- Current channel of a phase. -/
def iChan (n : Fin 8) (p : Fin 3) : Fin 64 := ⟨7 * n.val + 3 + p.val, by omega⟩

/-- The phases of a slice kind. -/
def Kind.phases : Kind → List (Fin 3)
  | .ac3 => [0, 1, 2]
  | .absent => []
  | _ => [0]

/-- Cable resistance in force, in Ω; 0 while disabled (R177). -/
def Dev.cableOhm (d : Dev) (n : Nat) : Rat :=
  if bit (d.reg 3 n 0xC) 31 then (d.rfld 3 n 0xC 23 0 : Rat) / 1000000 else 0

/-- The products of one phase at one instant: v in V, i in A, and the quadrature of v, which is 0 on DC and BIDIR
slices and otherwise a free value (R177). -/
def Dev.samplePhase (d : Dev) (n : Fin 8) (p : Fin 3) : Dev :=
  let v := d.mtr.ch[vChan n p].x / 1000000
  let i := d.mtr.ch[iChan n p].x / 1000000
  let dc := (d.kind n.val).isDc
  let vq : Rat := if dc then 0 else Config.freeRat d.fresh
  let rc := d.cableOhm n.val
  let d1 := d.updEng ⟨n.val, by omega⟩ fun e => { e with dlv := { e.dlv with
    svv := e.dlv.svv.set p.val (e.dlv.svv[p] + v * v) p.isLt
    sii := e.dlv.sii.set p.val (e.dlv.sii[p] + i * i) p.isLt
    svi := e.dlv.svi.set p.val (e.dlv.svi[p] + v * i) p.isLt
    sqi := e.dlv.sqi.set p.val (e.dlv.sqi[p] + vq * i) p.isLt
    sloss := e.dlv.sloss + i * i * rc } }
  { d1 with fresh := d1.fresh + (if dc then 0 else 1) }

/-- One sample instant of a slice's engine (R177). -/
def Dev.sampleSlice (d : Dev) (n : Fin 8) : Dev :=
  let d1 := ((d.kind n.val).phases).foldl (fun (acc : Dev) p => acc.samplePhase n p) d
  d1.updEng ⟨n.val, by omega⟩ fun e => { e with dlv := { e.dlv with n := e.dlv.n + 1 } }

/-- A running capture counts its sample; the first one fixes its time (R204). -/
def Engine.countCapture (e : Engine) (now : Nat) : Engine :=
  match e.capLeft with
  | some (k + 1) => { e with capLeft := some k, capTime := if k = 479 then now else e.capTime }
  | _ => e

/-- The sum of three. -/
def sum3 (v : Vector Rat 3) : Rat := v[0] + v[1] + v[2]

/-! ### Pulse outputs (R194 to R197) -/

/-- The slice a pulse output belongs to (R55). -/
def Dev.pulseSlice (d : Dev) (p : Nat) : Option Nat :=
  let o := d.switchByte (22 + p)
  if o < 8 then some o else none

/-- Whether a pulse output works (R197). -/
def Dev.pulseOn (d : Dev) (p : Nat) : Bool :=
  bit (d.reg 3 (0x10 + p) 0) 31 &&
    (match d.pulseSlice p with
     | some n => d.mtrRuns n
     | none => false)

/-- The energy one sample adds to a pulse accumulator, in units of 1/k kWh (R194): `prod` is the sample's Σ v·i for
the ACT sources, Σ vq·i for the REACT ones. -/
def pulseShare (source k : Nat) (act react : Rat) : Rat :=
  let e := (if source = 0 then act else if source = 1 then -act else if source = 2 then react else -react)
  e * 625 / 10000000 / 3600000 * (k : Rat)

/-- One sample instant of a pulse output: its accumulator, never below −1, each +1 a pulse of backlog; and its
output, high and then low for the width (R194, R195). -/
def Pulse.instant (x : Pulse) (share : Rat) (width : Nat) : Pulse × Bool :=
  let a := x.acc + share
  let n := if 1 ≤ a then a.floor.toNat else 0
  let acc := if a < -1 then -1 else a - (n : Rat)
  ({ x with
     acc := acc, backlog := min (x.backlog + n) 65535
     high := x.high - 1, low := if x.high = 1 then width else x.low - 1 }, 0 < n)

/-- One sample instant of pulse output `p`, with the products of its slice's sample. The flag is set while there is a
backlog. An output that is disabled adds nothing up (log entry 100, DESIGN CHOICE: the spec says only that it is low). -/
def Dev.samplePulse (d : Dev) (p : Fin 4) (n : Nat) (act react : Rat) : Dev :=
  if d.pulseOn p.val ∧ d.pulseSlice p.val = some n then
    let cfg := d.reg 3 (0x10 + p.val) 0
    let (x, more) := d.mtr.pulse[p].instant (pulseShare (fld cfg 25 24) (d.reg 3 (0x10 + p.val) 4).toNat act react) (fld cfg 10 0)
    let d1 := d.updPulse p fun _ => x
    let m := d1.mtr.out.toNat
    let d2 := if x.high = 0 then { d1 with mtr := { d1.mtr with out := BitVec.ofNat 4 (m - (m &&& 2 ^ p.val)) } } else d1
    if more ∨ (0 < x.backlog ∧ !d2.flagBit 3 n 0x10 5) then d2.raiseMtr n 5 else d2
  else d

/-- Clear a pulse output: low, no backlog, no accumulated energy (R197). -/
def Dev.clearPulse (d : Dev) (p : Fin 4) : Dev :=
  let m := d.mtr.out.toNat
  let d1 := d.updPulse p fun x => { x with acc := 0, backlog := 0, high := 0, low := 0 }
  { d1 with mtr := { d1.mtr with out := BitVec.ofNat 4 (m - (m &&& 2 ^ p.val)) } }

/-- The pulse outputs of a slice. -/
def Dev.pulsesOf (d : Dev) (n : Nat) : List (Fin 4) := (List.finRange 4).filter fun p => d.pulseSlice p.val = some n

/-- PULSE_EMIT (R195): a working output with a backlog starts its next pulse at a sample instant, whose sample it has
taken. -/
def Dev.pulseEmit (d : Dev) (p : Fin 4) : Dev :=
  let x := d.mtr.pulse[p]
  let taken : Bool := ((d.pulseSlice p.val).map fun n => decide (d.lastRun (keySample (decide (4 ≤ n))) = some d.now)).getD false
  if d.pulseOn p.val ∧ 0 < x.backlog ∧ x.high = 0 ∧ x.low = 0 ∧ taken then
    let d1 := d.updPulse p fun x =>
      { x with backlog := x.backlog - 1, emitted := x.emitted + 1, high := fld (d.reg 3 (0x10 + p.val) 0) 10 0 }
    { d1 with mtr := { d1.mtr with out := BitVec.ofNat 4 (d1.mtr.out.toNat ||| 2 ^ p.val) } }
  else d

/-! ### The good path of a sample transfer (R167, R177) -/

/-- The slices whose own channels lie on a die. -/
def dieSlices (dieB : Bool) : List (Fin 8) := if dieB then [4, 5, 6, 7] else [0, 1, 2, 3]

/-- The engine and pulse outputs of one slice at one sample instant, after its channels. -/
def Dev.sampleEngine (d : Dev) (n : Fin 8) : Dev :=
  if d.mtrRuns n.val then
    let before := d.mtr.eng[n.val].dlv
    let d1 := d.sampleSlice n
    let after := d1.mtr.eng[n.val].dlv
    let act := sum3 after.svi - sum3 before.svi
    let react := sum3 after.sqi - sum3 before.sqi
    (d1.pulsesOf n.val).foldl (fun (acc : Dev) p => acc.samplePulse p n.val act react) d1
  else d

/-- Every engine of a die counts the capture's sample. -/
def Dev.countCaptures (d : Dev) (dieB : Bool) : Dev :=
  (dieSlices dieB).foldl (fun (acc : Dev) n => if acc.mtrRuns n.val then acc.updEng ⟨n.val, by omega⟩ fun e => e.countCapture d.tim.now else acc) d

/-- A frame of good samples: every channel of the die, then every engine whose slice is of the die. -/
def Dev.takeSamples (d : Dev) (dieB : Bool) (codes : List (Int × Int)) : Dev :=
  let d1 := ((dieChannels dieB).zip codes).foldl (fun (acc : Dev) x => acc.sampleChannel x.1 x.2) d
  let d2 := (dieSlices dieB).foldl (fun (acc : Dev) n => acc.sampleEngine n) d1
  d2.countCaptures dieB

/-! ### Energy of a delivery (R178 to R180, R184) -/

/-- ts / 3600 × 10⁶: from W·samples to µWh. -/
def sampleHour : Rat := 625 / 36000

/-- The energies of a delivery after the rules of R180 and R184. -/
structure Energies where
  mtr : Rat
  loss : Rat
  veh : Rat
  q : Rat
  creep : Bool
deriving DecidableEq, Repr

/-- The energies of a delivery (R178, R180, R184); `creep` is MTR_CFG.creep. A delivery without samples has no power
to test. -/
def deliveryEnergies (x : Sums) (creep : Nat) : Energies :=
  let em := sum3 x.svi * sampleHour
  let el := x.sloss * sampleHour
  let eq := sum3 x.sqi * sampleHour
  let below := creep ≠ 0 ∧ x.n ≠ 0 ∧ ratAbs (sum3 x.svi / (x.n : Rat)) < (creep : Rat) / 100
  if below then { mtr := 0, loss := 0, veh := 0, q := 0, creep := true }
  else { mtr := em, loss := el, veh := if 0 ≤ em ∧ em - el < 0 then 0 else em - el, q := eq, creep := false }

/-- The quadrant of a delivery (R179). -/
def quadrantOf (em : Rat) (wq : Int) : Nat :=
  if 0 ≤ em ∧ 0 ≤ wq then 0 else if em < 0 ∧ 0 ≤ wq then 1 else if em < 0 ∧ wq < 0 then 2 else 3

/-- What a delivery hands to billing (R179): whole IMP and EXP µWh, exact loss, quadrant and its whole µvarh. -/
structure Handover where
  imp : Nat
  exp : Nat
  loss : Rat
  quadrant : Nat
  q : Nat
deriving DecidableEq, Repr

/-- Add sums. -/
def Sums.add (a b : Sums) : Sums :=
  { svv := Vector.ofFn fun i : Fin 3 => a.svv[i] + b.svv[i]
    sii := Vector.ofFn fun i : Fin 3 => a.sii[i] + b.sii[i]
    svi := Vector.ofFn fun i : Fin 3 => a.svi[i] + b.svi[i]
    sqi := Vector.ofFn fun i : Fin 3 => a.sqi[i] + b.sqi[i]
    sloss := a.sloss + b.sloss, n := a.n + b.n }

/-- Close the delivery in progress (R179): what billing receives, and the engine with its remainders carried. -/
def Engine.close (e : Engine) (creep : Nat) : Handover × Engine :=
  let en := deliveryEnergies e.dlv creep
  let a := en.veh + (if en.creep then 0 else e.remVeh)
  let whole := ratTrunc a
  let b := en.q + (if en.creep then 0 else e.remQ)
  let wq := ratTrunc b
  let h : Handover := { imp := whole.toNat, exp := (-whole).toNat, loss := en.loss, quadrant := quadrantOf en.mtr wq, q := wq.natAbs }
  (h, { e with
    dlv := {}, per := e.per.add e.dlv, remVeh := a - (whole : Rat), remQ := b - (wq : Rat), eMtr := e.eMtr + en.mtr
    incVeh := e.incVeh + whole, incExp := e.incExp + (-whole).toNat, incReact := e.incReact + wq.natAbs, quadrant := quadrantOf en.mtr wq
    fCreep := e.fCreep || en.creep })

/-! ### Published results (R178, R181, R186) -/

/-- The square root of a non-negative rational, rounded to a neighbouring whole number, the direction free where it
is not exact (log entry 4, DESIGN CHOICE). -/
def Dev.roundSqrt (d : Dev) (q : Rat) : Nat × Dev :=
  let r := isqrt q.floor.toNat
  if ((r * r : Nat) : Rat) = q then (r, d)
  else (r + (if Config.freeBit d.fresh then 1 else 0), { d with fresh := d.fresh + 1 })

/-- A whole number is the square root of a non-negative rational, or one of its two neighbours where it is not exact. -/
def nearRoot (q : Rat) (k : Nat) : Bool :=
  let r := isqrt q.floor.toNat
  k = r || (((r * r : Nat) : Rat) ≠ q && k = r + 1)

/-- Results of a channel for the period that closes; 0 for an unused one (R166, R178). -/
def Dev.publishChannel (d : Dev) (ch : Fin 64) : Dev :=
  let c := d.mtr.ch[ch]
  let n : Rat := c.n
  let (rms, d1) := if c.n = 0 then (0, d) else d.roundSqrt (c.sxx / n)
  let (mean, d2) := if c.n = 0 then (0, d1) else d1.round (c.sx / n)
  let (peak, d3) := d2.round c.px
  let d4 := ((d3.putNat 3 (chUnit ch.val) 0x18 rms).putInt 3 (chUnit ch.val) 0x1C mean).putNat 3 (chUnit ch.val) 0x20 peak.toNat
  d4.updCh ch fun c => { c with sx := 0, sxx := 0, px := 0, n := 0 }

/-- S of one phase, rounded. -/
def Dev.apparent (d : Dev) (x : Sums) (p : Fin 3) : Nat × Dev :=
  if x.n = 0 then (0, d) else d.roundSqrt (x.svv[p] * x.sii[p] / ((x.n * x.n : Nat) : Rat) * 1000000)

/-- Publish P, Q and S of one phase from the sums of the period. -/
def Dev.publishPhase (d : Dev) (n : Fin 8) (x : Sums) (p : Fin 3) : Dev :=
  let k : Rat := x.n
  let (pw, d1) := if x.n = 0 then (0, d) else d.round (x.svi[p] / k * 1000)
  let (q, d2) := if x.n = 0 then (0, d1) else d1.round (x.sqi[p] / k * 1000)
  let (s, d3) := d2.apparent x p
  ((d3.putInt 3 n.val (0x40 + 4 * p.val) pw).putInt 3 n.val (0x50 + 4 * p.val) q).putNat 3 n.val (0x60 + 4 * p.val) s

/-- The square of the apparent power of a phase in mVA². -/
def Sums.apparentSq (x : Sums) (p : Fin 3) : Rat := x.svv[p] * x.sii[p] / ((x.n * x.n : Nat) : Rat) * 1000000

/-- S_T: the sum of three square roots, each to 2⁻³² mVA, rounded to a neighbouring whole number (R178; log entry 4, DESIGN
CHOICE). -/
def Dev.apparentTotal (d : Dev) (x : Sums) : Nat × Dev :=
  let roots := [0, 1, 2].map fun (p : Fin 3) => isqrt (x.apparentSq p * 18446744073709551616).floor.toNat
  let exact := [0, 1, 2].all fun (p : Fin 3) =>
    let r := isqrt (x.apparentSq p).floor.toNat
    ((r * r : Nat) : Rat) = x.apparentSq p
  let low := roots.sum / 4294967296
  if x.n = 0 then (0, d)
  else if exact then (low, d)
  else
    (low + b1 (Config.freeBit d.fresh) + b1 ((roots.sum + 3) / 4294967296 ≠ low && Config.freeBit (d.fresh + 1)),
     { d with fresh := d.fresh + 2 })

/-- Publish the totals: arithmetic sums over the phases (R178), at full resolution before they are rounded (R550). A slice
of one phase has that phase's results as its totals. -/
def Dev.publishTotals (d : Dev) (n : Nat) (x : Sums) : Dev :=
  if (d.kind n).phases.length = 1 then
    ((d.setReg 3 n 0x4C (d.reg 3 n 0x40)).setReg 3 n 0x5C (d.reg 3 n 0x50)).setReg 3 n 0x6C (d.reg 3 n 0x60)
  else
    let k : Rat := x.n
    let (pw, d1) := if x.n = 0 then (0, d) else d.round (sum3 x.svi / k * 1000)
    let (q, d2) := if x.n = 0 then (0, d1) else d1.round (sum3 x.sqi / k * 1000)
    let (s, d3) := d2.apparentTotal x
    ((d3.putInt 3 n 0x4C pw).putInt 3 n 0x5C q).putNat 3 n 0x6C s

/-- The frequency in mHz of (whole cycles, time between the crossings in ns), or none for no_freq (R181). -/
def freqOf (c : Nat × Nat) : Option Rat :=
  if c.1 < 2 ∨ c.2 = 0 then none
  else
    let f : Rat := (c.1 : Rat) * 1000000000000 / (c.2 : Rat)
    if f < 42500 ∨ 69000 < f then none else some f

/-- MTR_PERIOD_INFO [7:0] of the period in progress, without no_freq (R188). -/
def Engine.periodFlags (e : Engine) (fault stopped noFreq : Bool) : Nat :=
  pack [(1, b1 e.fReading), (1, b1 noFreq), (1, b1 e.fBridged), (1, b1 e.fCreep), (1, b1 fault), (1, b1 e.fStep),
        (1, b1 stopped), (1, b1 e.fStart)]

/-! ### Messages of the engine (R198 to R200) -/

/-- Whether a C1 or C3 queue of producer 0x10 + n is the one its messages go to (R198). -/
def Dev.mtrQueue (d : Dev) (n cls : Nat) : Option (Fin 64) := d.findQueue fun e => e.prod = 0x10 + n && e.cls = cls

/-- The engine writes a C1 message. With no room it keeps one waiting message of each type; a newer one replaces it
and sets msg_lost (R199). -/
def Dev.mtrSend (d : Dev) (n : Fin 8) (ws : List QData) : Dev :=
  match d.mtrQueue n.val 1 with
  | none => d
  | some q =>
    let u : Fin 9 := ⟨n.val, by omega⟩
    let same := fun (w : List QData) => hdrType (msgHead w) = hdrType (msgHead ws)
    let waiting := d.mtr.eng[u].waiting
    if d.que.q[q].room ws.length ∧ !waiting.any same then d.commit q ws
    else
      let d1 := d.raiseQue q.val 1
      let d2 := if waiting.any same then d1.raiseMtr n.val 4 else d1
      d2.updEng u fun e => { e with waiting := (e.waiting.filter fun w => !same w) ++ [ws] }

/-- Waiting messages of an engine that now find room are written (R199). -/
def Dev.mtrFlushWaiting (n : Fin 8) (q : Fin 64) : List (List QData) → Dev → Dev
  | [], d => d
  | ws :: rest, d =>
    if d.que.q[q].room ws.length then
      Dev.mtrFlushWaiting n q rest ((d.updEng ⟨n.val, by omega⟩ fun e => { e with waiting := rest }).commit q ws)
    else d

/-! ### Power-quality events (R191 to R193) -/

/-- The code of a state (MTR_PQ_STATE). -/
def PqState.code : PqState → Nat
  | .normal => 0
  | .sag => 1
  | .swell => 2
  | .intr => 3

/-- The target state of a refresh (R192); thresholds in µV. -/
def pqTarget (st : PqState) (u sag swell intr hyst : Nat) : PqState :=
  if u < intr then .intr
  else if st = .intr ∧ u < intr + hyst then .intr
  else if u < sag then .sag
  else if st = .sag ∧ u < sag + hyst then .sag
  else if swell < u then .swell
  else if st = .swell ∧ swell < u + hyst then .swell
  else .normal

/-- A threshold field in µV: field × 0.5 % × udecl, udecl in 0.1 V steps (R192). -/
def Dev.pqThreshold (d : Dev) (u hi lo : Nat) : Nat := d.rfld 3 u 8 hi lo * d.rfld 3 u 4 23 8 * 500

/-- A PQ_EVENT message (R200). -/
def pqMessage (n : Nat) (now : Nat) (ph : Nat) (st : PqState) (ending : Bool) (refreshes ext : Nat) : List QData :=
  mkMsg 0x11 (0x10 + n) n 0
    [BitVec.ofNat 64 now, packQ [(8, ph), (8, st.code), (8, b1 ending), (8, 0), (32, refreshes)], packQ [(32, ext), (32, 0)]]

/-- Write a PQ_EVENT message; the grid monitor writes none (R198). -/
def Dev.sendPq (d : Dev) (u : Fin 9) (ph : Nat) (st : PqState) (ending : Bool) (refreshes ext : Nat) : Dev :=
  if h : u.val < 8 then d.mtrSend ⟨u.val, h⟩ (pqMessage u.val d.tim.now ph st ending refreshes ext) else d

/-- The bits of MTR_PQ_CNT that count a state. -/
def pqCountBits : PqState → Nat × Nat
  | .sag => (9, 0)
  | .swell => (19, 10)
  | _ => (29, 20)

/-- Begin the capture of a slice's channels (R204). -/
def Dev.startCapture (d : Dev) (n : Fin 8) : Dev :=
  let d1 := (d.ownedChannels n.val).foldl (fun (acc : Dev) c => acc.updCh c fun x => { x with cap := [] }) d
  d1.updEng ⟨n.val, by omega⟩ fun e => { e with capLeft := some 480 }

/-- A capture can start: a C3 queue of the producer exists and none runs (R205). -/
def Dev.canCapture (d : Dev) (n : Fin 8) : Bool := (d.mtrQueue n.val 3).isSome && d.mtr.eng[n.val].capLeft.isNone

/-- A capture started by a power-quality event (R193). -/
def Dev.pqCapture (d : Dev) (u : Fin 9) : Dev :=
  if h : u.val < 8 then
    if bit (d.reg 3 u.val 4) 4 ∧ d.canCapture ⟨u.val, h⟩ then d.startCapture ⟨u.val, h⟩ else d
  else d

/-- An event ends at a refresh (R192, R193). -/
def Dev.pqEnd (d : Dev) (u : Fin 9) (ph : Fin 3) (x : PqPhase) : Dev :=
  ((d.raiseMtr u.val 2).sendPq u ph.val x.st true x.refreshes x.ext).pqCapture u

/-- An event starts at a refresh (R192, R193). -/
def Dev.pqStart (d : Dev) (u : Fin 9) (ph : Fin 3) (st : PqState) (uv : Nat) : Dev :=
  let (hi, lo) := pqCountBits st
  (((d.raiseMtr u.val 1).count 3 u.val (0x74 + 4 * ph.val) hi lo).sendPq u ph.val st false 0 uv).pqCapture u

/-- One refresh of a phase (R192, R193). -/
def Dev.pqRefresh (d : Dev) (u : Fin 9) (ph : Fin 3) (uv : Nat) : Dev :=
  let x := d.mtr.eng[u].phases[ph]
  let t := pqTarget x.st uv (d.pqThreshold u.val 31 24) (d.pqThreshold u.val 23 16) (d.pqThreshold u.val 15 8) (d.pqThreshold u.val 7 0)
  let ext := if x.st = .swell then max x.ext uv else min x.ext uv
  if t = x.st then
    d.updEng u fun e => { e with phases := e.phases.set ph.val { x with ext := ext, refreshes := x.refreshes + 1 } ph.isLt }
  else
    let d1 := if x.st = .normal then d else d.pqEnd u ph { x with refreshes := x.refreshes + 1 }
    let d2 := if t = .normal then d1 else d1.pqStart u ph t uv
    d2.updEng u fun e => { e with phases := e.phases.set ph.val { st := t, ext := uv, refreshes := 0 } ph.isLt }

/-- Power-quality events run on the voltage phases of AC slices and of the grid monitor. -/
def Dev.pqWatches (d : Dev) (u : Fin 9) (ph : Fin 3) : Bool :=
  d.mtrRuns u.val && (u.val = 8 || ((d.kind u.val).isAc && ((d.kind u.val).phases).contains ph))

/-! ### Working state (R205) -/

/-- What FUNC_RESTART clears of a unit: gains, frequency tracker, Urms windows and phase states, harmonic window,
pulse accumulators and backlogs; the remainders stay. -/
def Dev.clearWorking (d : Dev) (u : Fin 9) : Dev :=
  let d1 := (d.ownedChannels u.val).foldl (fun (acc : Dev) c => acc.updCh c fun x => { x with gain := 0, settle := 0, sinceRef := 0, peaks := [], differ := 0, wave := {} }) d
  let d2 := d1.updEng u fun e => { e with phases := Vector.replicate 3 {}, harmWait := [] }
  (d2.pulsesOf u.val).foldl (fun (acc : Dev) p => acc.clearPulse p) d2

/-- Path A begins at ×1 and the reference instant is the start (R171). The start is no gain change: no settling follows it
(log entry 101, DESIGN CHOICE: R170 names settling only after a change). -/
def Dev.startGains (d : Dev) (u : Nat) : Dev :=
  (d.ownedChannels u).foldl (fun (acc : Dev) c => acc.updCh c fun x =>
    { x with gain := if bit (d.reg 3 (chUnit c.val) 0x10) 0 then 0 else d.rfld 3 (chUnit c.val) 0x10 5 4
             settle := 0, sinceRef := 0, peaks := [], differ := 0, past := [], wave := {}, sx := 0, sxx := 0, px := 0, n := 0 }) d

/-! ### Register writes of this chapter -/

/-- A write of MTR_GAIN (R171, R172): with auto_en 0 the gain becomes fixed; setting auto_en makes the instant the
reference and keeps the gain. -/
def Dev.writeGain (d : Dev) (ch : Fin 64) (data : Word) : Dev :=
  let u := chUnit ch.val
  let was := bit (d.reg 3 u 0x10) 0
  let d1 := (d.setRfld 3 u 0x10 5 4 (fld data 5 4)).setRfld 3 u 0x10 0 0 (b1 (bit data 0))
  if bit data 0 then (if was then d1 else d1.updCh ch fun c => { c with sinceRef := 0, peaks := [] })
  else d1.updCh ch fun c => if c.gain = fld data 5 4 then c else c.changeGain (fld data 5 4)

/-- A write of MTR_GAIN: ARG on a voltage-path channel (MTR_GAIN register map). -/
def Dev.gainWrite (d : Dev) (ch : Fin 64) (data : Word) : CmdSt × Dev :=
  if isCurrentPath ch.val then (.ok, d.writeGain ch data) else (.arg, d)

/-- PQ_COUNT_CLEAR (R204). -/
def pqCountClearCmd (arg : BitVec 24) (d : Dev) : CmdSt × Dev :=
  let u := argUnit arg
  if u ≤ 8 then (.ok, ((d.setReg 3 u 0x74 0).setReg 3 u 0x78 0).setReg 3 u 0x7C 0) else (.arg, d)

/-- CAPTURE (R204, R205). -/
def captureCmd (arg : BitVec 24) (d : Dev) : CmdSt × Dev :=
  if h : argUnit arg < 8 then
    let n : Fin 8 := ⟨argUnit arg, h⟩
    if d.mtrRuns n.val ∧ d.canCapture n then (.ok, d.startCapture n)
    else (.state (((d.func? .mtr n.val).map fun f => f.st.code).getD 0), d)
  else (.arg, d)

/-- One CAPTURE message of a channel (R200): 480 samples, two a word. -/
def captureMessage (n ch time : Nat) (xs : List Int) : List QData :=
  mkMsg 0x13 (0x10 + n) ch 0
    (BitVec.ofNat 64 time :: (List.range 240).map fun j => packQ [(32, twos 32 (xs.getD (2 * j) 0)), (32, twos 32 (xs.getD (2 * j + 1) 0))])

/-- The capture of a slice has its 480 samples of every channel the slice owns. -/
def Dev.captureFull (d : Dev) (n : Fin 8) : Bool :=
  d.mtr.eng[n.val].capLeft = some 0 && (d.ownedChannels n.val).all fun (c : Fin 64) => d.mtr.ch[c].cap.length = 480

/-- CAPTURE_COMPLETE (R204): 480 samples are taken, one message for each channel the slice owns. -/
def Dev.captureComplete (d : Dev) (n : Fin 8) : Dev :=
  let e := d.mtr.eng[n.val]
  if d.captureFull n then
    let d1 := match d.mtrQueue n.val 3 with
      | some q => (d.ownedChannels n.val).foldl (fun (acc : Dev) (c : Fin 64) => acc.produce q (captureMessage n.val c.val e.capTime (acc.mtr.ch[c].cap.reverse))) d
      | none => d
    let d2 := (d1.ownedChannels n.val).foldl (fun (acc : Dev) (c : Fin 64) => acc.updCh c fun x => { x with cap := [] }) d1
    d2.updEng ⟨n.val, by omega⟩ fun e => { e with capLeft := none }
  else d

/-- THD in 0.001 % of the harmonics 1 to 63, to a neighbouring whole number (R182; log entry 4, DESIGN CHOICE); a free value
where harmonic 1 is 0 or the result does not fit its 31 bits (log entry 34, DESIGN CHOICE). -/
def Dev.thd (d : Dev) (xs : List Nat) : Nat × Dev :=
  let x1 := xs.headD 0
  let (k, d1) := d.roundSqrt ((((xs.drop 1).map fun x => x * x).sum * 10000000000 : Nat) / (x1 * x1 : Nat))
  if x1 = 0 ∨ 2 ^ 31 ≤ k then (Config.freeNat d1.fresh % 2 ^ 31, { d1 with fresh := d1.fresh + 1 }) else (k, d1)

/-- The results of a window, each channel's with its THD before it. -/
def Dev.withThd : List (Nat × List Nat) → Dev → List (Nat × List Nat) × Dev
  | [], d => ([], d)
  | r :: rs, d =>
    let (k, d1) := d.thd r.2
    let (xs, d2) := Dev.withThd rs d1
    ((r.1, k :: r.2) :: xs, d2)

/-- The mains cycles of a harmonic window (R182). -/
def Dev.windowCycles (d : Dev) (u : Nat) : Nat := if bit (d.reg 3 u 4) 0 then 12 else 10

/-- HARMONIC_WINDOW_END (R182): a window of so many cycles, with the harmonics 1 to 63 of its channels, waits for the next
period boundary. No window runs on DC and BIDIR slices, nor while no_freq is set. -/
def Dev.harmonicEnd (d : Dev) (u : Fin 9) (cycles : Nat) (rs : List (Nat × List Nat)) : Dev :=
  if d.mtrRuns u.val ∧ (u.val = 8 ∨ (d.kind u.val).isAc) ∧ !bit (d.reg 3 u.val 0x20) 6 ∧ cycles = d.windowCycles u.val then
    let (xs, d1) := Dev.withThd (rs.filter fun r => d.chanUnit r.1 = some u.val) d
    d1.updEng u fun e => { e with harmWait := e.harmWait ++ [(d.tim.now, xs)] }
  else d

/-! ### The commands of the table -/

/-- HARMONIC_WINDOW_END. -/
def execHarmonicWindowEnd (u : Fin 9) (w : HarmWindow) (s : State) : Host.Outcome State Fault Refusal :=
  .next { s with dev := s.dev.harmonicEnd u w.cycles w.results }

/-- PULSE_EMIT. -/
def execPulseEmit (p : Fin 4) (s : State) : Host.Outcome State Fault Refusal := .next { s with dev := s.dev.pulseEmit p }

/-- CAPTURE. -/
def execCapture (ag : Agent) (arg : BitVec 24) (s : State) : Host.Outcome State Fault Refusal :=
  .next { s with dev := issueCommand ag 3 0x10 arg (argUnit arg) (captureCmd arg) s.dev }

/-- CAPTURE_COMPLETE. -/
def execCaptureComplete (n : Fin 8) (s : State) : Host.Outcome State Fault Refusal :=
  .next { s with dev := s.dev.captureComplete n }

/-- PQ_COUNT_CLEAR. -/
def execPqCountClear (ag : Agent) (arg : BitVec 24) (s : State) : Host.Outcome State Fault Refusal :=
  .next { s with dev := issueCommand ag 3 0x11 arg (argUnit arg) (pqCountClearCmd arg) s.dev }

/-- A write of MTR_GAIN at an address; an address that is no MTR_GAIN is not this command. -/
def Dev.mtrGainWrite (d : Dev) (ag : Agent) (addr : Nat) (data : Word) : Dev :=
  let u := addr / 0x100000 % 0x100
  if h : 0x40 ≤ u ∧ u < 0x80 ∧ addr / 0x10000000 = 3 ∧ addr % 0x80000 = 0x10 then
    writeAccess ag 3 u addr (fun d => d.gainWrite ⟨u - 0x40, by omega⟩ data) d
  else d

/-- MTR_GAIN_WRITE. -/
def execMtrGainWrite (ag : Agent) (addr data : Word) (s : State) : Host.Outcome State Fault Refusal :=
  .next { s with dev := s.dev.mtrGainWrite ag addr.toNat data }

end Sys2Proof.Machine
end

