-- ==== Sys2Proof/Machine/Billing.lean ====
section
/-! DEFINITION. Billing (07_billing.md): accumulation, tariffs, demand, load profile, boundaries, signed readings,
Karurn records, tamper records and the commands of BIL. -/

namespace Sys2Proof.Machine

/-! ### Small helpers -/

/-- The largest accumulator value: accumulators saturate at 2⁶⁴ − 1 (R207). -/
def satQ (a b : Nat) : Nat := satAdd 64 a b

/-- The metrology unit of a slice. -/
def mtrUnit (n : Fin 8) : Fin 9 := ⟨n.val, by omega⟩

/-- The session is ENERGIZING, CHARGING, SUSPENDED or STOPPING (R176, R222). -/
def Dev.billedSession (d : Dev) (n : Fin 8) : Bool :=
  match d.evc.s[n].st with
  | .energizing => true
  | .charging => true
  | .suspended => true
  | .stopping => true
  | _ => false

/-- The code of a session state (EVC_SESSION.state, R258). -/
def Sess.code : Sess → Nat
  | .idle => 0
  | .plugged => 1
  | .authorizing => 2
  | .authorized => 3
  | .energizing => 4
  | .charging => 5
  | .suspended => 6
  | .stopping => 7
  | .finished => 8
  | .fault => 9

/-- Write bytes into the retained store; a word written carries a fresh code (R460). -/
def Dev.storeWrite (d : Dev) (addr : Nat) (bs : List Byte) : Dev :=
  { d with sto := { d.sto with
      mram := d.sto.mram.writes addr bs
      bad := d.sto.bad.filter fun (a : Nat) => decide (a + 8 ≤ addr) || decide (addr + bs.length ≤ a) } }

/-! ### Tamper records (R246, R247) -/

/-- A tamper type marks the reading of a slice, and its session (R240, R245). -/
def BilSlice.markTamper (b : BilSlice) (k : Nat) : BilSlice :=
  { b with
    tampered := b.tampered ||| BitVec.ofNat 24 (2 ^ k)
    sess := b.sess.map fun x => { x with flags := x.flags ||| 0x10 } }

/-- Count tamper type `k`, for a slice where one applies: the record, the log entry, and the mark on the slice, or on
every slice where none applies (R246; log entry 22, DEDUCED). -/
def Dev.tamper (d : Dev) (k : Fin 24) (sl : Option (Fin 8)) : Dev :=
  let t := d.bil.tamper[k]
  let t1 : Tamper := { count := satAdd 32 t.count 1, first := if t.count = 0 then d.now else t.first, last := d.now }
  let d1 := { d with bil := { d.bil with tamper := d.bil.tamper.set k.val t1 k.isLt } }
  let d2 := match sl with
    | some n => d1.updBil n fun b => b.markTamper k.val
    | none => slices.foldl (fun (acc : Dev) n => acc.updBil n fun b => b.markTamper k.val) d1
  d2.logEvent .bil 246 [w32 k.val, w32 t1.count] none ((sl.map (·.val)).getD 0xFF)

/-! ### Accumulation (R207) -/

/-- Add an increment to an interval in progress. -/
def Interval.add (i : Interval) (h : Handover) : Interval :=
  { i with
    imp := i.imp + h.imp, exp := i.exp + h.exp
    q := Vector.ofFn fun k : Fin 4 => if k.val = h.quadrant then i.q[k] + h.q else i.q[k] }

/-- Credit a delivery to a slice (R207): the energy register of the tariff in force, the quadrant total, the cable
loss with its own remainder, and the intervals in progress. -/
def BilSlice.credit (b : BilSlice) (h : Handover) : BilSlice :=
  let l := h.loss + b.remLoss
  let whole := (ratTrunc l).toNat
  { b with
    e := Vector.ofFn fun j : Fin 32 =>
      if j.val + 1 = b.tariff then satQ b.e[j] h.imp else if j.val + 1 = b.tariff + 16 then satQ b.e[j] h.exp else b.e[j]
    q := Vector.ofFn fun k : Fin 4 => if k.val = h.quadrant then satQ b.q[k] h.q else b.q[k]
    loss := satQ b.loss whole, remLoss := l - (whole : Rat)
    dmd := b.dmd.add h, lp := b.lp.map fun i => i.add h }

/-- The whole µWh of cable loss a delivery credits. -/
def BilSlice.lossWhole (b : BilSlice) (h : Handover) : Nat := (ratTrunc (h.loss + b.remLoss)).toNat

/-- Close the delivery of a slice's engine and credit it (R179, R187, R207). Energy credited under NOT_VALID counts
tamper type 6 once per episode. -/
def Dev.closeDelivery (d : Dev) (n : Fin 8) : Dev :=
  let (h, e) := (d.mtr.eng[mtrUnit n]).close (d.rfld 3 n.val 4 31 24)
  let l := (d.bil.s[n]).lossWhole h
  let d1 := (d.updEng (mtrUnit n) fun _ => { e with incLoss := e.incLoss + l }).updBil n fun b => b.credit h
  if d.tim.quality = .notValid ∧ h.imp + h.exp ≠ 0 ∧ !d.bil.s[n].ep6 then
    (d1.updBil n fun b => { b with ep6 := true }).tamper 6 (some n)
  else d1

/-- A mid-period reading (R187) of a running engine; one that does not run has nothing to hand over. -/
def Dev.midPeriod (d : Dev) (n : Fin 8) : Dev :=
  if d.mtrRuns n.val then (d.updEng (mtrUnit n) fun e => { e with fReading := true }).closeDelivery n else d

/-! ### The tariff in force (R208, R217, R218) -/

/-- The fallback tariff. -/
def Dev.fallback (d : Dev) : Nat := d.rfld 4 8 0 4 0

/-- End of an override as a site time. -/
def Override.stop (o : Override) : Nat := o.start + o.minutes * minuteNs

/-- A pending override whose start is reached becomes active and counts OVERRIDE_APPLIED (R218). -/
def Dev.overrideStart (d : Dev) (n : Fin 8) (o : Override) (t : Nat) : Dev :=
  if !o.active ∧ o.start ≤ t then
    ((d.updBil n fun b => { b with ovr := some { o with active := true } }).raiseBil n.val 4).tamper 13 (some n)
  else d

/-- Override start and end at a period boundary (R218): a cancel removes it, a pending one whose start is reached becomes
active, and one whose end is reached too ends here. -/
def Dev.switchOverride (d : Dev) (n : Fin 8) (t : Nat) : Dev :=
  let b := d.bil.s[n]
  match b.ovr with
  | none => d.updBil n fun b => { b with ovrCancel := false }
  | some o =>
    if b.ovrCancel then
      let d1 := d.updBil n fun b => { b with ovr := none, ovrCancel := false }
      if o.active then d1.raiseBil n.val 4 else d1
    else
      let d1 := d.overrideStart n o t
      if o.stop ≤ t then (d1.updBil n fun b => { b with ovr := none }).raiseBil n.val 4 else d1

/-- The tariff and its source at an instant, by the precedence of R208. -/
def Dev.chooseTariff (d : Dev) (n : Fin 8) (t : Nat) : Nat × TariffSource :=
  let active := (d.bil.s[n].ovr).filter fun o => o.active
  match active with
  | some o => (o.tariff, .override)
  | none =>
    if d.tim.quality = .notValid then (d.fallback, .fallback)
    else
      match d.bil.active with
      | some c => (d.calendarTariff c t, .calendar)
      | none => (d.fallback, .fallback)

/-- Fix the tariff in force from an instant on (R208, R224 order 6). -/
def Dev.setTariff (d : Dev) (n : Fin 8) (t : Nat) : Dev :=
  let (tf, src) := d.chooseTariff n t
  let old := d.bil.s[n].tariff
  let d1 := d.updBil n fun b => { b with
    tariff := tf, source := src
    sess := b.sess.map fun x => if src = .override then { x with flags := x.flags ||| 4 } else x }
  if old = tf then d1 else d1.raiseBil n.val 2

/-- The tariff switch step of an instant (R224 order 6). -/
def Dev.switchTariff (d : Dev) (n : Fin 8) (t : Nat) : Dev := (d.switchOverride n t).setTariff n t

/-! ### Demand (R219 to R223) -/

/-- Minutes of BIL_CFG.dmd_len. -/
def dmdMinutes (code : Nat) : Nat := if code = 0 then 5 else if code = 1 then 10 else if code = 2 then 15 else if code = 3 then 30 else 60

/-- Minutes of BIL_CFG.lp_period; 0 for OFF. -/
def lpMinutes (code : Nat) : Nat :=
  if code = 1 then 1 else if code = 2 then 5 else if code = 3 then 10 else if code = 4 then 15 else if code = 5 then 30
  else if code = 6 then 60 else 0

/-- The demand interval of a slice in ns. -/
def Dev.dmdLen (d : Dev) (n : Nat) : Nat := dmdMinutes (d.rfld 4 n 4 31 28) * minuteNs

/-- Subintervals of a demand interval. -/
def Dev.dmdSubs (d : Dev) (n : Nat) : Nat := d.rfld 4 n 4 27 24

/-- The subinterval length in ns. -/
def Dev.subLen (d : Dev) (n : Nat) : Nat := d.dmdLen n / max 1 (d.dmdSubs n)

/-- The load profile interval of a slice in ns; 0 for OFF. -/
def Dev.lpLen (d : Dev) (n : Nat) : Nat := lpMinutes (d.rfld 4 n 4 19 16) * minuteNs

/-- Demand in mW of an energy in µWh over a time in ns (R220), truncated. -/
def demandMw (e tact len : Nat) : Nat := min (e * 3600000000 / max tact len) 0xFFFFFFFF

/-- The flags of an interval with SHORT and LONG by its duration and the nominal one (R223): when it opens, by the
instant it will run to; when it closes, by the actual duration. -/
def closeFlags (flags : Byte) (dur nominal : Nat) : Byte :=
  (flags &&& 0xCF) ||| (if dur < nominal then 0x10 else 0) ||| (if nominal < dur then 0x20 else 0)

/-- Whether an interval's flags set BIL_FLAGS.flagged: POWER_FAIL, TIME_STEP or NOT_VALID. -/
def flaggedBits (flags : Byte) : Bool := flags &&& 0x0B ≠ 0

/-- A demand raises the maximum of its register (R221). -/
def BilSlice.raiseMd (b : BilSlice) (j mw t : Nat) : BilSlice :=
  { b with
    md := Vector.ofFn fun i : Fin 32 => if i.val = j ∧ b.md[i] < mw then mw else b.md[i]
    mdt := Vector.ofFn fun i : Fin 32 => if i.val = j ∧ b.md[i] < mw then t else b.mdt[i] }

/-- Whether a demand exceeds the maximum of register j. -/
def BilSlice.exceeds (b : BilSlice) (j mw : Nat) : Bool := (b.md[j]?.getD 0) < mw

/-- The demand subinterval of a slice closes at instant `t` after `dur` ns (R220, R221): demand of each direction,
credited to the tariff in force. `extra` are flags of the cause that closes it. -/
def Dev.closeDemand (d : Dev) (n : Fin 8) (t dur : Nat) (extra : Byte) : Dev :=
  let b := d.bil.s[n]
  let subs := d.dmdSubs n.val
  let past := ((b.dmd.imp, b.dmd.exp, dur) :: b.past).take subs
  let tact := (past.map fun x => x.2.2).sum
  let imp := demandMw ((past.map fun x => x.1).sum) tact (d.dmdLen n.val)
  let exp := demandMw ((past.map fun x => x.2.1).sum) tact (d.dmdLen n.val)
  let flags := closeFlags (b.dmd.flags ||| extra) dur (d.subLen n.val)
  let ji := b.tariff - 1
  let je := b.tariff + 15
  let new := b.exceeds ji imp || b.exceeds je exp
  let d1 := d.updBil n fun b =>
    { ((b.raiseMd ji imp t).raiseMd je exp t) with
      past := past, dmdLast := imp, dmdLastExp := exp, infoDur := min (dur / sec 1) 0xFFFF, infoFlags := flags
      infoTariff := b.tariff }
  d1.raise 4 n.val 8 (1 + b1 new * 2 + b1 (flaggedBits flags) * 128)

/-- The next instants of a slice's remembered boundaries (R226). -/
def Dev.nextDmd (d : Dev) (n : Fin 8) : Nat := d.gridNext d.bil.s[n].lastDmd (d.subLen n.val)
/-- Next load profile boundary, if the profile is on. -/
def Dev.nextLp (d : Dev) (n : Fin 8) : Option Nat :=
  if d.lpLen n.val = 0 then none else some (d.gridNext d.bil.s[n].lastLp (d.lpLen n.val))
/-- A demand interval opens (R224 order 7). -/
def Dev.openDemand (d : Dev) (n : Fin 8) (t : Nat) (flags : Byte) : Dev :=
  let nv : Byte := if d.tim.quality = .notValid then 8 else 0
  let fl := if nv = 0 then closeFlags flags (d.nextDmd n - t) (d.subLen n.val) else flags ||| nv
  d.updBil n fun b => { b with dmd := { start := t, since := d.el, flags := fl } }

/-! ### Load profile (R236, R237) -/

/-- A load profile record (R236). -/
def lpRecord (b : BilSlice) (n : Nat) (i : Interval) (t dur : Nat) (flags : Byte) (quality : Nat) : List Byte :=
  let body := leBytes 8 t ++ leBytes 8 i.imp ++ leBytes 8 i.exp ++
    ((List.finRange 4).flatMap fun k => leBytes 4 (i.q[k] / 1000)) ++ leBytes 4 (min (dur / 1000000) 0xFFFFFFFF) ++
    [flags, BitVec.ofNat 8 b.tariff, BitVec.ofNat 8 quality, BitVec.ofNat 8 n] ++ leBytes 4 (b.lpSeq + 1) ++ leBytes 8 0
  body ++ leBytes 4 (crc32c body)

/-- Store address of record `seq` of a slice's ring (R237, R459). -/
def lpAddr (n seq : Nat) : Nat := 0x01E40000 + 64 * (32768 * n + (seq - 1) % 32768)

/-- The load profile interval of a slice closes: its record is written (R236). -/
def Dev.closeLp (d : Dev) (n : Fin 8) (t dur : Nat) (extra : Byte) (len : Nat) : Dev :=
  let b := d.bil.s[n]
  match b.lp with
  | none => d
  | some i =>
    let flags := closeFlags (i.flags ||| extra) dur len
    let rec_ := lpRecord b n.val i t dur flags d.tim.quality.code
    let d1 := (d.storeWrite (lpAddr n.val (b.lpSeq + 1)) rec_).updBil n fun b => { b with lpSeq := b.lpSeq + 1, lp := none }
    d1.raise 4 n.val 8 (64 + b1 (flaggedBits flags) * 128)

/-- A load profile interval opens while the period is not OFF. -/
def Dev.openLp (d : Dev) (n : Fin 8) (t : Nat) (flags : Byte) : Dev :=
  let nv : Byte := if d.tim.quality = .notValid then 8 else 0
  let fl := fun (x : Nat) => if nv = 0 then closeFlags flags (x - t) (d.lpLen n.val) else flags ||| nv
  d.updBil n fun b => { b with lp := (d.nextLp n).map fun (x : Nat) => { start := t, since := d.el, flags := fl x } }

/-! ### Signed readings (R238 to R240) -/

/-- KEY_ID_0 to KEY_ID_3 (12_keys.md): bytes 0 and 1 are the family member 0x0880, the others are per part. -/
def keyId (i : Nat) : Word := if i = 0 then setFld (Config.partId 0) 15 0 0x0880 else Config.partId i

/-- The device identity as bytes. -/
def deviceId : List Byte := (List.range 4).flatMap fun i => leBytes 4 (keyId i).toNat

/-- Serial of the loaded image. -/
def Dev.imageSerial (d : Dev) : Nat :=
  match d.img.loaded with
  | some im => im.serial.toNat
  | none => 0

/-- The code of a tariff source. -/
def TariffSource.code : TariffSource → Nat
  | .calendar => 0
  | .override => 1
  | .fallback => 2

/-- The IMP total over all tariffs. -/
def BilSlice.impTotal (b : BilSlice) : Nat := ((b.e.toList).take 16).sum

/-- The EXP total over all tariffs. -/
def BilSlice.expTotal (b : BilSlice) : Nat := ((b.e.toList).drop 16).sum

/-- Bytes 0x000 to 0x17F of a signed reading block (R240). -/
def Dev.readingBytes (d : Dev) (n : Fin 8) (kind t : Nat) (nonce : List Byte) : List Byte :=
  let b := d.bil.s[n]
  [0x54, 0x47, 0x52, 0x44, 0x01, BitVec.ofNat 8 n.val, BitVec.ofNat 8 kind, BitVec.ofNat 8 d.tim.quality.code] ++
  leBytes 8 t ++ leBytes 4 d.timErr ++ leBytes 4 (b.rdSeq + 1) ++ deviceId ++ leBytes 4 d.imageSerial ++
  leBytes 4 (d.bil.tamper[7]).count ++ [BitVec.ofNat 8 b.tariff, BitVec.ofNat 8 b.source.code, 0, 0] ++
  leBytes 4 b.tampered.toNat ++ leBytes 8 b.loss ++ (b.e.toList.flatMap fun x => leBytes 8 x) ++
  (b.q.toList.flatMap fun x => leBytes 8 x) ++ leBytes 8 b.impTotal ++ leBytes 8 b.expTotal ++ nonce ++ leBytes 8 0

/-- Take a signed reading of a slice at an instant whose energy is already credited: its block joins the signer's
work (R238, R240). A BILLING_PERIOD reading starts the tamper mask again. -/
def Dev.addReading (d : Dev) (n : Fin 8) (kind t : Nat) (ag : Agent) (nonce : List Byte) : Dev :=
  let job : SignJob := { reading := true, kind := kind, slice := n.val, agent := ag, bytes := d.readingBytes n kind t nonce, rdSeq := d.bil.s[n].rdSeq + 1 }
  let d1 := d.updBil n fun b => { b with rdSeq := b.rdSeq + 1, tampered := if kind = 3 then 0 else b.tampered }
  { d1 with bil := { d1.bil with jobs := d1.bil.jobs ++ [job] } }

/-- A retained reading, with nonce 0. -/
def Dev.reading (d : Dev) (n : Fin 8) (kind t : Nat) : Dev := d.addReading n kind t .kaolin (leBytes 8 0)

/-! ### Maximum demand reset, billing period end, calendar activation -/

/-- Reset the maxima of a slice (R221). -/
def Dev.resetMd (d : Dev) (n : Fin 8) : Dev :=
  (d.updBil n fun b => { b with md := Vector.replicate 32 0, mdt := Vector.replicate 32 0 }).tamper 12 (some n)

/-- A billing period end of a slice (R224 order 4). -/
def Dev.billingEnd (d : Dev) (n : Fin 8) (t : Nat) : Dev :=
  let d1 := (d.reading n 3 t).raiseBil n.val 3
  let d2 := if (d.bil.active.map (·.mdAuto)).getD false then d1.resetMd n else d1
  d2.updBil n fun b => { b with lastBp := t }

/-- Address of a configuration area (R459). -/
def cfgAreaAddr (a : Nat) : Nat := 0x01240000 + a * 0x200000

/-- The configuration areas that are CURRENT or TRIAL (R474). -/
def Dev.liveAreas (d : Dev) : List Nat :=
  (if d.img.cfgArea0 = 1 ∨ d.img.cfgArea0 = 2 then [0] else []) ++ (if d.img.cfgArea1 = 1 ∨ d.img.cfgArea1 = 2 then [1] else [])

/-- The present slices. -/
def Dev.presentSlices (d : Dev) : List (Fin 8) := slices.filter fun n => d.present n.val

/-- Calendar activation (R216, R224 order 5, R474). -/
def Dev.activateCalendar (d : Dev) (t : Nat) : Dev :=
  match d.bil.armed with
  | none => d
  | some c =>
    if c.activate ≤ t then
      let d1 := d.liveAreas.foldl (fun (acc : Dev) a => acc.storeWrite (cfgAreaAddr a + 0x1000) d.bil.armedBytes) d
      let d2 := { d1 with bil := { d1.bil with active := some c, armed := none, armedBytes := [] } }
      let d3 := d2.presentSlices.foldl (fun (acc : Dev) n => (acc.updBil n fun b => { b with lastCal := t }).raiseBil n.val 5) d2
      d3.tamper 11 none
    else d

/-! ### Boundaries (R224 to R226, R233) -/

/-- How the boundaries of an instant are executed: in the run of time; missed while unpowered (R230); skipped by a
set-forward (R233). -/
inductive BoundaryMode where
  | live | missed | skipped
deriving DecidableEq, Repr

/-- The flag intervals closed and opened in a mode carry. -/
def BoundaryMode.flag : BoundaryMode → Byte
  | .live => 0
  | .missed => 1
  | .skipped => 2

/-- The actual duration of an interval that closes at `t`: 0 between skipped boundaries (R233; log entry 23, DEDUCED). -/
def intervalDur (m : BoundaryMode) (start t : Nat) : Nat := if m = .skipped then 0 else t - start

/-- Next billing period end. -/
def Dev.nextBp (d : Dev) (n : Fin 8) : Option Nat := d.billNext d.bil.s[n].lastBp

/-- The remembered boundary after an interval closed at `t`: under NOT_VALID the retained one stays (R235). -/
def Dev.executed (d : Dev) (old t : Nat) : Nat := if d.tim.quality = .notValid then old else t

/-- Orders 2 and 3 for one slice at an instant: the subinterval and the load profile interval due there close. A
staged change of the demand fields (`chg.1`) or of the load profile period (`chg.2`) closes its interval too, with
CFG_CHANGE (R222). -/
def Dev.closeDue (d : Dev) (n : Fin 8) (t : Nat) (m : BoundaryMode) (due chg : Bool × Bool) : Dev :=
  let b := d.bil.s[n]
  let d1 := if due.1 ∨ chg.1 then
      (d.closeDemand n t (intervalDur m b.dmd.start t) (m.flag ||| (if chg.1 then 4 else 0))).updBil n fun b =>
        { b with lastDmd := d.executed b.lastDmd t, past := if chg.1 then [] else b.past }
    else d
  if due.2 ∨ chg.2 then
    (d1.closeLp n t (intervalDur m ((b.lp.map (·.start)).getD t) t) (m.flag ||| (if chg.2 then 4 else 0)) (d.lpLen n.val)).updBil n fun b =>
      { b with lastLp := d.executed b.lastLp t }
  else d1

/-- Order 4 for one slice. A period end that a newly activated calendar puts between the last one executed and its
activation is executed at the next period boundary (log entry 103, DEDUCED). -/
def Dev.endDue (d : Dev) (n : Fin 8) (t : Nat) : Dev :=
  match d.nextBp n with
  | some x => if x ≤ t then d.billingEnd n t else d
  | none => d

/-- Order 7 for one slice: what closed at this instant opens under the new tariff. -/
def Dev.openDue (d : Dev) (n : Fin 8) (t : Nat) (m : BoundaryMode) (due chg : Bool × Bool) : Dev :=
  let d1 := if due.1 ∨ chg.1 then d.openDemand n t (m.flag ||| (if chg.1 then 4 else 0)) else d
  if due.2 ∨ chg.2 then d1.openLp n t (m.flag ||| (if chg.2 then 4 else 0)) else d1

/-- Before a missed instant, a calendar source takes the tariff of the period that ends there (R208, R230). -/
def Dev.missedTariff (d : Dev) (n : Fin 8) (t : Nat) (m : BoundaryMode) : Dev :=
  match m, d.bil.s[n].source, d.bil.active with
  | .missed, .calendar, some c => d.updBil n fun b => { b with tariff := d.calendarTariff c (t - mtrPeriod) }
  | _, _, _ => d

/-- The demand and load profile boundaries due at an instant; none under NOT_VALID (R235). -/
def Dev.dueAt (d : Dev) (t : Nat) (n : Fin 8) : Bool × Bool :=
  if d.tim.quality = .notValid then (false, false)
  else
    (decide (d.nextDmd n ≤ t),
     match d.nextLp n with
     | some x => decide (x ≤ t)
     | none => false)

/-- Execute the boundaries of one instant, orders 2 to 7 (R224): `chg` are the staged changes of the demand and load
profile grids that take effect here (R222), and `swap` replaces staged values by live ones (R90), after the intervals
in progress closed under the old ones. Under NOT_VALID only overrides take effect (R235). -/
def Dev.boundarySteps (d : Dev) (t : Nat) (m : BoundaryMode) (chg : Fin 8 → Bool × Bool) (swap : Dev → Dev) : Dev :=
  d.oneEvent fun d =>
  let ps := d.presentSlices
  let d0 := ps.foldl (fun (acc : Dev) n => acc.missedTariff n t m) d
  let d1 := ps.foldl (fun (acc : Dev) n => acc.closeDue n t m (d0.dueAt t n) (chg n)) d0
  let d2 := if d.tim.quality = .notValid then d1 else (ps.foldl (fun (acc : Dev) n => acc.endDue n t) d1).activateCalendar t
  let d3 := ps.foldl (fun (acc : Dev) n => acc.switchTariff n t) (swap d2)
  ps.foldl (fun (acc : Dev) n => acc.openDue n t m (d0.dueAt t n) (chg n)) d3

/-- Execute the boundaries of one instant that was missed or skipped. -/
def Dev.boundariesAt (d : Dev) (t : Nat) (m : BoundaryMode) : Dev := d.boundarySteps t m (fun _ => (false, false)) fun x => x

/-- The earliest instant of a remembered boundary not yet executed, up to `t`. -/
def Dev.nextInstant (d : Dev) (t : Nat) : Option Nat :=
  let cands := d.presentSlices.flatMap fun n => [d.nextDmd n] ++ (d.nextLp n).toList ++ (d.nextBp n).toList
  let cands := cands ++ (d.bil.armed.map fun c => ceilDiv c.activate mtrPeriod * mtrPeriod).toList
  (cands.filter (· ≤ t)).foldl (fun acc x => match acc with
    | none => some x
    | some y => some (min x y)) none

/-- Execute every remembered boundary up to `t`, once each, in order (R230, R233). The first argument bounds how many
instants there can be. -/
def Dev.runBoundaries : Nat → Nat → BoundaryMode → Dev → Dev
  | 0, _, _, d => d
  | k + 1, t, m, d =>
    match d.nextInstant t with
    | none => d
    | some x => Dev.runBoundaries k t m (d.boundariesAt x m)

/-- A bound on the instants of remembered boundaries between the oldest executed one and `t`: one a minute. -/
def Dev.boundaryBound (d : Dev) (t : Nat) : Nat :=
  let oldest := d.presentSlices.foldl (fun acc n => min acc (min d.bil.s[n].lastDmd (min d.bil.s[n].lastLp d.bil.s[n].lastBp))) t
  (t - oldest) / minuteNs * 4 + 64

/-! ### Register set commits (R209) -/

/-- The full register set of every slice, the engine's delivery remainders with it. -/
def Dev.registerSet (d : Dev) : Vector BilSlice 8 :=
  Vector.ofFn fun n : Fin 8 =>
    { d.bil.s[n] with comVeh := (d.mtr.eng[mtrUnit n]).remVeh, comQ := (d.mtr.eng[mtrUnit n]).remQ }

/-- Bytes of one register copy in the billing area (R467). -/
def copySize : Nat := 0x10000

/-- Address of register copy A (0) or B (1) in the billing area (R467; log entry 104, DEDUCED). -/
def copyAddr (k : Nat) : Nat := 0x1640000 + copySize * k

/-- The words of a register copy carry fresh codes. -/
def Dev.copyWritten (d : Dev) (k : Nat) : Dev :=
  { d with sto := { d.sto with
      bad := d.sto.bad.filter fun (a : Nat) => decide (a < copyAddr k) || decide (copyAddr k + copySize ≤ a) } }

/-- Commit the register set of every slice to the older of the two copies. -/
def Dev.commitBilling (d : Dev) : Dev :=
  if d.bil.copyA.1 ≤ d.bil.copyB.1 then
    { d.copyWritten 0 with bil := { d.bil with copyA := (d.bil.copyB.1 + 1, d.now, d.registerSet) } }
  else { d.copyWritten 1 with bil := { d.bil with copyB := (d.bil.copyA.1 + 1, d.now, d.registerSet) } }

/-! ### BIL_CFG changes (R222) -/

/-- Whether a staged BIL_CFG of a slice changes demand fields, and load profile fields. -/
def Dev.stagedBilCfg (d : Dev) (n : Nat) : Bool × Bool :=
  match d.staged.find (lattice 4 n 4) with
  | some w =>
    (fld w 31 24 ≠ d.rfld 4 n 4 31 24, fld w 19 16 ≠ d.rfld 4 n 4 19 16)
  | none => (false, false)

/-- A write of BIL_CFG: its range, its session condition, the change staged, logged and counted (R222). `who` is none
for the configuration load, whose writes are neither logged nor counted. -/
def Dev.writeBilCfg (d : Dev) (who : Option Agent) (n : Fin 8) (data : Word) : CmdSt × Dev :=
  let len := dmdMinutes (fld data 31 28)
  let subs := fld data 27 24
  if 4 < fld data 31 28 ∨ subs = 0 ∨ len % subs ≠ 0 ∨ 6 < fld data 19 16 then (.arg, d)
  else
    let addr := lattice 4 n.val 4
    let old := ((d.staged.find addr).getD (d.reg 4 n.val 4)).toNat
    let row : RegDef := { id := .bilCfg, u0 := 0, un := 8, off := 4, reset := 0x21040000, rws := 0xFF0F0000 }
    let same := (old &&& row.rws) = (data.toNat &&& row.rws)
    if same then (.ok, d.writeFields row addr 0 data)
    else if d.billedSession n then (.state (d.evc.s[n].st).code, d)
    else
      let d1 := d.writeFields row addr 0 data
      match who with
      | some ag => (.ok, (d1.logEvent .bil 222 [w32 addr, w32 old, data] (some ag) n.val).tamper 9 (some n))
      | none => (.ok, d1)

/-! ### Karurn records (R244, R245) -/

/-- Bytes 0x00 to 0xBF of a Karurn record. -/
def Dev.karurnBytes (d : Dev) (n : Fin 8) (x : SessRec) (reason tEnd : Nat) (flags : Byte) : List Byte :=
  let b := d.bil.s[n]
  let rc := if bit (d.reg 3 n.val 0xC) 31 then d.rfld 3 n.val 0xC 23 0 else 0
  [0x54, 0x47, 0x4B, 0x52, 0x01, BitVec.ofNat 8 n.val, BitVec.ofNat 8 reason, flags] ++
  leBytes 4 x.sid.toNat ++ leBytes 4 (b.krSeq + 1) ++ leBytes 8 x.t0 ++ leBytes 8 tEnd ++ leBytes 8 x.imp0 ++
  leBytes 8 b.impTotal ++ leBytes 8 x.exp0 ++ leBytes 8 b.expTotal ++ leBytes 8 (b.loss - x.loss0) ++ leBytes 4 rc ++
  [BitVec.ofNat 8 x.quality0, BitVec.ofNat 8 d.tim.quality.code, 0, 0] ++ leBytes 4 (max x.maxErr d.timErr) ++
  leBytes 4 x.rdSeq ++ [BitVec.ofNat 8 x.method, 0, 0, 0] ++ leBytes 4 d.imageSerial ++
  (x.ref.flatMap fun w => leBytes 4 w.toNat) ++
  (List.finRange 16).flatMap fun j => leBytes 4 ((b.e[j.val] - x.e0[j]) / 10000)

/-- Build the Karurn record of a slice's session and end its billing record (R244). -/
def Dev.buildKarurn (d : Dev) (n : Fin 8) (reason tEnd : Nat) (extra : Byte) : Dev :=
  match d.bil.s[n].sess with
  | none => d
  | some x =>
    let nv : Byte := if x.quality0 = 0 ∨ d.tim.quality = .notValid then 8 else 0
    let job : SignJob :=
      { reading := false, kind := 0, slice := n.val, agent := .kaolin
        bytes := d.karurnBytes n x reason tEnd (x.flags ||| extra ||| nv), rdSeq := d.bil.s[n].krSeq + 1 }
    let d1 := d.updBil n fun b => { b with krSeq := b.krSeq + 1, sess := none }
    { d1 with bil := { d1.bil with jobs := d1.bil.jobs ++ [job] } }

/-- SESSION_START reading (R238, R244): billing keeps the registers of the start. -/
def Dev.sessionStart (d : Dev) (n : Fin 8) (sid : Word) (method : Nat) (ref : List Word) : Dev :=
  let d1 := (d.midPeriod n).reading n 1 d.now
  let src : Byte := if (d1.bil.s[n]).source = .override then 4 else 0
  d1.updBil n fun b =>
    let x : SessRec :=
      { sid := sid, t0 := d.now, rdSeq := b.rdSeq, imp0 := b.impTotal, exp0 := b.expTotal, loss0 := b.loss
        e0 := Vector.ofFn fun j : Fin 16 => b.e[j.val], quality0 := d.tim.quality.code, maxErr := d.timErr, flags := src
        method := method, ref := (ref ++ List.replicate 8 0).take 8 }
    { b with sess := some x }

/-- SESSION_END reading and the Karurn record (R238, R244). -/
def Dev.sessionEnd (d : Dev) (n : Fin 8) (reason : Nat) : Dev :=
  ((d.midPeriod n).reading n 2 d.now).buildKarurn n reason d.now 0

/-! ### Commands (R248) -/

/-- The consumer code an agent's ON_REQUEST block goes to (R242). -/
def signConsumer : Agent → Nat
  | .boot => 1
  | .core => 1
  | .host => 2
  | .headend => 5
  | .service => 8
  | .kaolin => 0

/-- The queue an ON_REQUEST block goes to (R242). -/
def Dev.signQueue (d : Dev) (ag : Agent) : Option (Fin 64) :=
  d.findQueue fun e => e.cls = 1 && e.prod = 4 && e.cons = signConsumer ag

/-- The queue retained blocks go to (R242): one of at least 256 words (R243). -/
def Dev.retainQueue (d : Dev) : Option (Fin 64) :=
  d.findQueue fun e => e.cls = 1 && e.prod = 4 && e.cons = 3 && 256 ≤ e.depth

/-- ON_REQUEST readings that wait for the signer. -/
def Dev.waitingRequests (d : Dev) : Nat := (d.bil.jobs.filter fun j => j.reading && j.kind = 0).length

/-- READ_SIGNED (R239, R242, R248). -/
def readSignedCmd (ag : Agent) (arg : BitVec 24) (d : Dev) : CmdSt × Dev :=
  if h : argUnit arg < 8 then
    let n : Fin 8 := ⟨argUnit arg, h⟩
    if !d.present n.val ∨ (d.signQueue ag).isNone then (.state (d.evc.s[n].st).code, d)
    else if 4 ≤ d.waitingRequests then (.busy, d)
    else (.ok, (d.midPeriod n).addReading n 0 d.now ag (d.viewBytes ag (lattice 4 8 0x20) 2))
  else (.arg, d)

/-- MD_RESET (R221, R248): 0xFF names every present slice. -/
def mdResetCmd (arg : BitVec 24) (d : Dev) : CmdSt × Dev :=
  if argUnit arg = 0xFF then (.ok, d.presentSlices.foldl (fun (acc : Dev) n => acc.resetMd n) d)
  else if h : argUnit arg < 8 then
    if d.present (argUnit arg) then (.ok, d.resetMd ⟨argUnit arg, h⟩) else (.state 0, d)
  else (.arg, d)

/-- The configuration area in use (R473): the TRIAL area while a trial runs, else the CURRENT one. -/
def Dev.areaInUse (d : Dev) : Option Nat :=
  if d.img.cfgArea0 = 2 then some 0 else if d.img.cfgArea1 = 2 then some 1
  else if d.img.cfgArea0 = 1 then some 0 else if d.img.cfgArea1 = 1 then some 1 else none

/-- The passive calendar block of the area in use (R215, R472). -/
def Dev.passiveBlock (d : Dev) : List Byte :=
  match d.areaInUse with
  | some a => d.sto.mram.reads (cfgAreaAddr a + 0x1400) 768
  | none => List.replicate 768 0

/-- CAL_ARM (R215): validates the passive block and arms it. BIL_CAL_STATE.reason keeps the last rejection. -/
def calArmCmd (d : Dev) : CmdSt × Dev :=
  if d.tim.quality = .notValid ∧ d.bil.armed.isNone then (.state 0, d)
  else
    let bs := d.passiveBlock
    let r := calendarReason bs
    if r = 0 then
      let d1 := { d with bil := { d.bil with armed := some (decodeCalendar bs), armedBytes := bs } }
      (.ok, d1.tamper 10 none)
    else (.arg, { d with bil := { d.bil with calReason := r } })

/-- CAL_CANCEL (R215). -/
def calCancelCmd (d : Dev) : CmdSt × Dev :=
  if d.bil.armed.isSome then (.ok, { d with bil := { d.bil with armed := none, armedBytes := [] } }) else (.state 0, d)

/-- An override of the slices of a mask (R217): it replaces a pending or active one; tariff 0 cancels at the next
boundary. A replaced active override's tariff stays in force to the end of the period; its end raises no
BIL_FLAGS.override of its own (log entry 105, DESIGN CHOICE). -/
def Dev.putOverride (d : Dev) (mask tariff start minutes : Nat) : Dev :=
  (maskSlices mask).foldl (fun (acc : Dev) n => acc.updBil n fun b =>
    if tariff = 0 then { b with ovrCancel := b.ovr.isSome }
    else { b with ovr := some { tariff := tariff, start := start, minutes := minutes, active := false }, ovrCancel := false }) d

/-- A mask names only present slices. -/
def Dev.maskPresent (d : Dev) (mask : Nat) : Bool := (maskSlices mask).all fun n => d.present n.val

/-- OVERRIDE (R217, R248). -/
def overrideCmdSt (d : Dev) : CmdSt × Dev :=
  let w := d.reg 4 8 0x1C
  let tariff := fld w 31 24
  let start := (d.reg 4 8 0x18).toNat * 2 ^ 32 + (d.reg 4 8 0x14).toNat
  if tariff ≤ 16 ∧ d.maskPresent (fld w 23 16) ∧ 1 ≤ fld w 15 0 then (.ok, d.putOverride (fld w 23 16) tariff start (fld w 15 0))
  else (.state 0, d)

/-! ### The commands of the table -/

/-- Whether an address is BIL_CFG of a slice. -/
def bilCfgSlice (addr : Nat) : Option (Fin 8) :=
  let u := addr / 0x100000 % 0x100
  if h : u < 8 then (if addr / 0x10000000 = 4 ∧ addr % 0x80000 = 4 then some ⟨u, h⟩ else none) else none

/-- A write of BIL_CFG at an address; another address is not this command. -/
def Dev.billingCfgWrite (d : Dev) (ag : Agent) (addr : Nat) (data : Word) : Dev :=
  match bilCfgSlice addr with
  | some n => writeAccess ag 4 n.val addr (fun d => d.writeBilCfg (some ag) n data) d
  | none => d

/-- BILLING_CFG_WRITE. -/
def execBillingCfgWrite (ag : Agent) (addr data : Word) (s : State) : Host.Outcome State Fault Refusal :=
  .next { s with dev := s.dev.billingCfgWrite ag addr.toNat data }

/-- READ_SIGNED. -/
def execReadSigned (ag : Agent) (arg : BitVec 24) (s : State) : Host.Outcome State Fault Refusal :=
  .next { s with dev := issueCommand ag 4 0x10 arg (argUnit arg) (readSignedCmd ag arg) s.dev }

/-- MD_RESET. -/
def execMdReset (ag : Agent) (arg : BitVec 24) (s : State) : Host.Outcome State Fault Refusal :=
  .next { s with dev := issueCommand ag 4 0x11 arg (argUnit arg) (mdResetCmd arg) s.dev }

/-- CAL_ARM. -/
def execCalArm (ag : Agent) (arg : BitVec 24) (s : State) : Host.Outcome State Fault Refusal :=
  .next { s with dev := issueCommand ag 4 0x12 arg 0xFF (noArg arg calArmCmd) s.dev }

/-- CAL_CANCEL. -/
def execCalCancel (ag : Agent) (arg : BitVec 24) (s : State) : Host.Outcome State Fault Refusal :=
  .next { s with dev := issueCommand ag 4 0x13 arg 0xFF (noArg arg calCancelCmd) s.dev }

/-- OVERRIDE. -/
def execOverrideCmd (ag : Agent) (arg : BitVec 24) (s : State) : Host.Outcome State Fault Refusal :=
  .next { s with dev := issueCommand ag 4 0x14 arg 0xFF (noArg arg overrideCmdSt) s.dev }

/-- MID_PERIOD_READING. -/
def execMidPeriodReading (n : Fin 8) (s : State) : Host.Outcome State Fault Refusal :=
  .next { s with dev := s.dev.midPeriod n }

end Sys2Proof.Machine
end

