-- ==== Sys2Proof/Machine/Keys.lean ====
section
/-! DEFINITION. The key store and the signer (12_keys.md; R240 to R243): slots, the key tree, uses, loading, commit,
challenge and response, KROOT, and the signing of readings and Karurn records. -/

namespace Sys2Proof.Machine

/-! ### Slots and the key tree (R394 to R399) -/

/-- The code of a slot state (R396). -/
def KeySt.code : KeySt → Nat
  | .empty => 0
  | .valid => 1
  | .orphaned => 2
  | .expired => 3
  | .exhausted => 4
  | .invalid => 5

/-- The code of a staged copy's state (KEY_SLOT.staged). -/
def StagedSt.code : StagedSt → Nat
  | .none => 0
  | .staged => 1
  | .verified => 2

/-- The type a fixed slot has (R395); none for a customer slot. -/
def fixedType (k : Nat) : Option Nat :=
  if k = 0 ∨ k = 1 then some 1 else if k = 2 then some 6 else if k = 3 ∨ k = 4 then some 2
  else if k = 5 ∨ k = 6 then some 3 else if k = 7 then some 5 else if k = 8 then some 4 else none

/-- Whether a parent code is one R395 and R397 permit for a slot and type. -/
def parentAllowed (k ty parent : Nat) : Bool :=
  if ty = 2 then parent = 0xFE
  else if k = 0 ∨ k = 2 ∨ k = 7 then parent = 0xFF
  else if k = 5 ∨ k = 6 then decide (parent < 64)
  else parent = 0xFF || decide (parent < 64)

/-- Expire_reset, limit_en and agent_use of an attribute byte (R402). -/
def KeyCopy.expireReset (c : KeyCopy) : Bool := c.attrs.getLsbD 0
/-- limit_en. -/
def KeyCopy.limitEn (c : KeyCopy) : Bool := c.attrs.getLsbD 1
/-- agent_use. -/
def KeyCopy.agentUse (c : KeyCopy) : Bool := c.attrs.getLsbD 2

/-- The slot at a number. -/
def Dev.keySlot (d : Dev) (k : Nat) : KeySlot := (d.key.slots[k]?).getD {}

/-- Whether a slot is VALID. -/
def Dev.keyValid (d : Dev) (k : Nat) : Bool := (d.keySlot k).st = .valid

/-- Whether a slot is a VALID WRAP slot (R397). -/
def Dev.isWrap (d : Dev) (k : Nat) : Bool := decide (k < 64) && d.keyValid k && (d.keySlot k).live.ktype = 5

/-- KROOT is present (KEY_STATUS.root). -/
def Dev.rootPresent (d : Dev) : Bool := d.key.share.isSome

/-- The slots on the way from a parent code up to KROOT or ANCHOR, the parent first. The bound is the number of
slots. -/
def Dev.chainUp (d : Dev) : Nat → Nat → List Nat
  | 0, _ => []
  | fuel + 1, p => if p < 64 then p :: Dev.chainUp d fuel (d.keySlot p).live.parent else []

/-- Whether a slot is a descendant of slot `k`: its parent chain passes through `k` (R398). -/
def Dev.descends (d : Dev) (x k : Nat) : Bool := (d.chainUp 64 (d.keySlot x).live.parent).contains k

/-- A chain that starts with this parent ends at KROOT. -/
def Dev.rooted (d : Dev) (parent : Nat) : Bool :=
  ((d.chainUp 64 parent).getLast?.map fun p => (d.keySlot p).live.parent).getD parent = 0xFF

/-- Whether a slot's parent chain ends at KROOT (R391). -/
def Dev.chainsToRoot (d : Dev) (x : Nat) : Bool := d.rooted (d.keySlot x).live.parent

/-- A slot that holds a key, usable or not: what orphaning reaches (log entry 24, DEDUCED). -/
def KeySt.holds : KeySt → Bool
  | .valid => true
  | .expired => true
  | .exhausted => true
  | _ => false

/-- Overwrite the live material of a slot: type, parent and attributes stay. -/
def KeyCopy.wipe (c : KeyCopy) : KeyCopy := { c with secret := 0, pub := 0, cert := [] }

/-- A slot becomes ORPHANED: its material is overwritten and its staged copy discarded (R391, R398, R414). -/
def Dev.orphan (d : Dev) (k : Fin 64) : Dev :=
  if d.key.slots[k].st.holds then
    (d.updKey k fun s => { s with st := .orphaned, live := s.live.wipe, staged := .none, copy := {} }).raiseKey 2
  else d

/-- The staged copy of a slot is discarded. -/
def Dev.discardCopy (d : Dev) (k : Fin 64) : Dev := d.updKey k fun s => { s with staged := .none, copy := {} }

/-- Every slot whose chain leads to KROOT is orphaned, and a staged copy whose chain does is discarded (R391, R392). -/
def Dev.orphanRooted (d : Dev) : Dev :=
  (List.finRange 64).foldl (fun (acc : Dev) k =>
    let a := if d.chainsToRoot k.val then acc.orphan k else acc
    if d.rooted d.key.slots[k].copy.parent then a.discardCopy k else a) d

/-! ### Uses (R400) -/

/-- The count of a slot reached its limit: it becomes EXHAUSTED. -/
def Dev.exhaust (d : Dev) (k : Fin 64) : Dev :=
  let s := d.key.slots[k]
  if s.live.limitEn ∧ s.live.limit.toNat ≤ s.uses ∧ s.st = .valid then
    (d.updKey k fun s => { s with st := .exhausted }).raiseKey 4
  else d

/-- One use of a slot: counted, with a new reservation where the count would pass it (R400). A reservation that falls due
within 1 s of the last commit is committed at the end of that second; how long the use's result waits for it is left out
(log entry 113, DEDUCED). -/
def Dev.useKey (d : Dev) (k : Fin 64) : Dev :=
  let el := d.el
  let d1 := d.updKey k fun s =>
    let recent := s.recent.filter fun t => el < t + sec 1
    let uses := satAdd 32 s.uses 1
    let res := if s.live.limitEn ∧ s.reserved < uses then min s.live.limit.toNat (s.uses + max 64 recent.length) else s.reserved
    { s with uses := uses, recent := el :: recent, reserved := res, tUse := if res = s.reserved then s.tUse else max el (s.tUse + sec 1) }
  d1.exhaust k

/-- USE_COUNT_COMMIT (R400): without a limit, a count that changed is committed at most once every 10 s. -/
def Dev.useCommit (d : Dev) (k : Fin 64) : Dev :=
  let s := d.key.slots[k]
  if !s.live.limitEn ∧ s.uses ≠ s.reserved ∧ d.after s.tUse (sec 10) then
    d.updKey k fun s => { s with reserved := s.uses, tUse := d.el }
  else d

/-! ### Byte forms of secrets, keys and signatures -/

/-- Bytes of a number, big-endian, and back: 256-bit secrets and answers. -/
def wideOf (bs : List Byte) : BitVec 256 := BitVec.ofNat 256 (fromBE bs)
/-- A 64-byte public key or signature. -/
def pairOf (bs : List Byte) : BitVec 512 := BitVec.ofNat 512 (fromBE bs)
/-- The bytes of a 256-bit value. -/
def wideBytes (v : BitVec 256) : List Byte := beBytes 32 v.toNat
/-- The bytes of a 512-bit value. -/
def pairBytes (v : BitVec 512) : List Byte := beBytes 64 v.toNat
/-- The first 16 bytes of a secret: an AES key (R402). -/
def aesOf (v : BitVec 256) : BitVec 128 := BitVec.ofNat 128 (v.toNat / 2 ^ 128)

/-! ### KROOT (R389 to R392) -/

/-- Draw a 256-bit value from the random source. -/
def Dev.drawWide (d : Dev) : BitVec 256 × Dev := (Config.freeWide d.fresh, { d with fresh := d.fresh + 1 })

/-- A new KROOT where none is present and TAMPER_N is inactive (R389). -/
def Dev.makeRoot (d : Dev) : Dev :=
  if d.key.share.isNone ∧ !d.key.tamper then
    let (mask, d1) := d.drawWide
    let (other, d2) := d1.drawWide
    { d2 with key := { d2.key with share := some (mask, other), rootGen := d2.key.rootGen + 1, tMask := d2.el } }.raiseKey 1
  else d

/-- KROOT_REMASK (R390): the mask share is replaced once a second, the XOR of the shares unchanged. Whether the random
source still passes its continuous health tests (R388) is a free value of each second. -/
def Dev.remask (d : Dev) : Dev :=
  match d.key.share with
  | some (m, o) =>
    if d.after d.key.tMask (sec 1) then
      let (n, d1) := d.drawWide
      let tagMask := aesOf n
      { d1 with
        key := { d1.key with share := some (n, m ^^^ o ^^^ n), tMask := d1.el, rngOk := Config.freeBit d.fresh }
        tag := { d1.tag with keyCopy := d1.tag.keyCopy.map fun c => (tagMask, c.1 ^^^ c.2 ^^^ tagMask) } }
    else d
  | none => d

/-- KROOT is lost: both shares are cleared and every slot that needs it is orphaned (R391, R392). -/
def Dev.loseRoot (d : Dev) : Dev :=
  { d.orphanRooted with key := { d.orphanRooted.key with share := none } }

/-! ### Import and certificates (R402 to R405) -/

/-- "TGA-IMPORT". -/
def importLabel : List Byte := [0x54, 0x47, 0x41, 0x2D, 0x49, 0x4D, 0x50, 0x4F, 0x52, 0x54]

/-- The import key of a blob (R403). -/
def importKey (z : BitVec 256) (k : Nat) (blob : List Byte) : BitVec 128 :=
  aesOf (Config.hmac z (importLabel ++ [BitVec.ofNat 8 k] ++ blob.take 16))

/-- Open the secret of a blob: the 32 bytes, where the tag verifies (R403). -/
def openSecret (key : BitVec 128) (blob : List Byte) : Option (List Byte) :=
  let nonce := fromLE (blob.take 13)
  let plain := Config.ccmText key nonce (slice blob 0x50 32)
  let tag := BitVec.ofNat 128 (fromBE (slice blob 0x70 16))
  if Config.ccmTag key nonce (blob.take 16 ++ plain) = tag then some plain else none

/-- The signature of a certificate verifies (R404). -/
def certSigned (cert : List Byte) : Bool :=
  Config.ecdsaVerify Config.provisioningKey (cert.take 0x70) (pairOf (slice cert 0x70 64))

/-- The checks of a certificate other than its signature (R404), with the last accepted serial. -/
def certMatches (k : Nat) (impser : Word) (cert : List Byte) : Bool :=
  cert.take 5 = [0x54, 0x47, 0x4B, 0x43, 0x01] && byteAt cert 5 = k && leAt cert 6 2 = 0x0880 &&
  (slice cert 0x10 16 = List.replicate 16 0 || slice cert 0x10 16 = deviceId) && decide (impser.toNat < leAt cert 8 4)

/-- The copy a certificate fills, with the attributes of its blob (R402). -/
def certCopy (attrs : Byte) (cert : List Byte) : KeyCopy :=
  { ktype := 2, parent := 0xFE, attrs := attrs, serial := w32 (leAt cert 8 4), pub := pairOf (slice cert 0x20 64), cert := cert }

/-- Put a staged copy into a slot. -/
def Dev.stage (d : Dev) (k : Fin 64) (c : KeyCopy) (msg exp : BitVec 256) (generated : Bool) : Dev :=
  d.updKey k fun s => { s with staged := .staged, copy := c, katMsg := msg, katExp := exp, generated := generated }

/-- Number of WRAP slots a chain from a slot with this parent passes (R397). -/
def Dev.chainLength (d : Dev) (parent : Nat) : Nat := (d.chainUp 64 parent).length

/-- A parent that is the slot itself or one of its descendants, or a chain of more than 4 WRAP slots (R397). -/
def Dev.treeBad (d : Dev) (k parent : Nat) : Bool :=
  parent = k || (d.chainUp 64 parent).contains k || decide (4 < d.chainLength parent)

/-- ARG conditions common to KEY_STAGE and KEY_GEN (R395, R397): type, attributes of a fixed slot, parent. -/
def Dev.keyArgBad (d : Dev) (k ty parent attrs : Nat) : Bool :=
  ty = 0 || decide (6 < ty) || (match fixedType k with
    | some t => ty ≠ t || attrs % 4 ≠ 0
    | none => ty = 2) ||
  !parentAllowed k ty parent || d.treeBad k parent

/-- The parent a staged or committed copy names can hold it: KROOT present, ANCHOR, or a VALID WRAP slot
(R397, R412). -/
def Dev.parentReady (d : Dev) (parent : Nat) : Bool :=
  if parent = 0xFE then true else if parent = 0xFF then d.rootPresent else d.isWrap parent && d.rootPresent

/-- Slots a key command may name: ARG above 63 and for K9 to K15 (R395, R412). -/
def keyTarget (arg : BitVec 24) : Option (Fin 64) :=
  if h : argUnit arg < 64 then (if 9 ≤ argUnit arg ∧ argUnit arg ≤ 15 then none else some ⟨argUnit arg, h⟩) else none

/-- The STATE answer of a key command carries the slot's state. -/
def Dev.keyState (d : Dev) (k : Fin 64) : CmdSt := .state d.key.slots[k].st.code

/-- A copy's attributes and limit from a blob (R402): the limit is 0 without limit_en. -/
def blobCopy (blob : List Byte) (ty parent : Nat) : KeyCopy :=
  { ktype := ty, parent := parent, attrs := blob.getD 2 0, limit := if (blob.getD 2 0).getLsbD 1 then w32 (leAt blob 8 4) else 0 }

/-- KEY_STAGE of a certificate (R404). -/
def Dev.stageCert (d : Dev) (k : Fin 64) (blob : List Byte) : CmdSt × Dev :=
  let cert := slice blob 0x10 176
  let d1 := d.raiseKey 8
  if !certSigned cert then (.auth, d1)
  else if !certMatches k.val d.key.slots[k].impser cert then (.arg, d1)
  else (.ok, d.stage k (certCopy (blob.getD 2 0) cert) 0 0 false)

/-- KEY_STAGE of a wrapped secret under z (R403). `user` is the slot the unwrap uses. -/
def Dev.stageSecret (d : Dev) (k : Fin 64) (blob : List Byte) (z : BitVec 256) (user : Fin 64) : CmdSt × Dev :=
  let d1 := d.useKey user
  match openSecret (importKey z k.val blob) blob with
  | none => (.auth, d1)
  | some plain =>
    if leAt blob 0xC 4 ≤ d.key.slots[k].impser.toNat then (.arg, d1)
    else
      let c := { blobCopy blob (byteAt blob 0) (byteAt blob 1) with serial := w32 (leAt blob 0xC 4), secret := wideOf plain }
      (.ok, d1.stage k c (wideOf (slice blob 0x80 32)) (wideOf (slice blob 0xA0 32)) false)

/-- KEY_STAGE (R402 to R404, R412). -/
def keyStageCmd (ag : Agent) (arg : BitVec 24) (d : Dev) : CmdSt × Dev :=
  match keyTarget arg with
  | none => (.arg, d)
  | some k =>
    let blob := d.viewBytes ag (lattice 10 0x40 0x100) 64
    let ty := byteAt blob 0
    let parent := byteAt blob 1
    let wrap := byteAt blob 3
    let ws := byteAt blob 4
    if argBits arg 15 0 ≠ 0 ∨ d.keyArgBad k.val ty parent (byteAt blob 2) ∨ 2 < wrap ∨ (wrap = 2 ↔ ty ≠ 2) ∨ ty = 1 ∨ ty = 6 ∨
        (wrap = 1 ∧ 63 < ws) then (.arg, d)
    else if d.key.slots[k].staged = .verified ∨ !d.parentReady parent then (d.keyState k, d)
    else if wrap = 2 then d.stageCert k blob
    else if wrap = 0 then
      if d.keyValid 2 then
        d.stageSecret k blob (Config.ecdh (d.keySlot 2).live.secret (pairOf (slice blob 0x10 64))) 2
      else (d.keyState k, d)
    else if h : ws < 64 then
      if d.isWrap ws then d.stageSecret k blob (d.keySlot ws).live.secret ⟨ws, h⟩ else (d.keyState k, d)
    else (.arg, d)

/-- KEY_GEN (R406, R412). -/
def keyGenCmd (ag : Agent) (arg : BitVec 24) (d : Dev) : CmdSt × Dev :=
  match keyTarget arg with
  | none => (.arg, d)
  | some k =>
    let blob := d.viewBytes ag (lattice 10 0x40 0x100) 64
    let ty := argBits arg 15 8
    let parent := argBits arg 7 0
    if ty = 2 ∧ fixedType k.val = some 2 then (d.keyState k, d)
    else if d.keyArgBad k.val ty parent (byteAt blob 2) then (.arg, d)
    else if d.key.slots[k].staged = .verified ∨ !d.rootPresent ∨ !d.parentReady parent then (d.keyState k, d)
    else
      let (v, d1) := d.drawWide
      let secret := if ty = 4 then BitVec.ofNat 256 (v.toNat / 2 ^ 128 * 2 ^ 128) else v
      let pub := if ty = 1 ∨ ty = 6 then Config.publicKey v else 0
      (.ok, d1.stage k { blobCopy blob ty parent with secret := secret, pub := pub } 0 0 true)

/-! ### Known-answer test, commit, discard, destroy (R398, R399, R407 to R409) -/

/-- The test of R407 on a staged copy; the last argument numbers the nonce draw of a signature. -/
def KeySlot.katPass (s : KeySlot) (draw : Nat) : Bool :=
  let c := s.copy
  if c.ktype = 2 then certSigned c.cert
  else if c.ktype = 1 ∨ c.ktype = 6 then
    Config.ecdsaVerify c.pub (wideBytes s.katMsg) (Config.ecdsaSign c.secret (wideBytes s.katMsg) draw)
  else if s.generated then true
  else if c.ktype = 4 then Config.aes (aesOf c.secret) ((wideBytes s.katMsg).take 16) = aesOf s.katExp
  else Config.hmac c.secret (wideBytes s.katMsg) = s.katExp

/-- KEY_VERIFY (R407). -/
def keyVerifyCmd (arg : BitVec 24) (d : Dev) : CmdSt × Dev :=
  match keyTarget arg with
  | none => (.arg, d)
  | some k =>
    let s := d.key.slots[k]
    if argBits arg 15 0 ≠ 0 then (.arg, d)
    else if s.staged ≠ .staged then (d.keyState k, d)
    else
      let d1 := { d with fresh := d.fresh + 1 }
      if s.katPass d.fresh then (.ok, d1.updKey k fun s => { s with staged := .verified })
      else (.auth, (d1.updKey k fun s => { s with staged := .none, copy := {} }).raiseKey 6)

/-- Store address of the certificate of K3 or K4: each in a half of its own of the key certificate area, so that neither
overwrites the other (R405, R463). -/
def certAddr (k : Nat) : Nat := 0x9000 + (k - 3) * 0x800 + Config.certOffset k % (0x800 - 175)

/-- The tag copy of K8 is loaded as two shares, while K8 is VALID (R428). -/
def Dev.loadTagCopy (d : Dev) : Dev :=
  if d.keyValid 8 then
    let (v, d1) := d.drawWide
    let mask := aesOf v
    { d1 with tag := { d1.tag with keyCopy := some (mask, mask ^^^ aesOf (d.keySlot 8).live.secret) } }
  else d

/-- The staged copy of a slot becomes live (R399, R408): VALID, the generation up by 1, a fresh use count, which a limit of
0 has reached already (R400). -/
def Dev.makeLive (d : Dev) (k : Fin 64) : Dev :=
  let c := d.key.slots[k].copy
  let d1 := d.updKey k fun s =>
    { s with st := .valid, live := c, staged := .none, copy := {}, gen := s.gen + 1, uses := 0, reserved := 0, recent := []
             impser := if s.generated then s.impser else c.serial }
  let d2 := if c.ktype = 2 then d1.storeWrite (certAddr k.val) c.cert else d1
  ((if k = 8 then d2.loadTagCopy else d2).raiseKey 5).exhaust k

/-- KEY_DISCARD. -/
def keyDiscardCmd (arg : BitVec 24) (d : Dev) : CmdSt × Dev :=
  match keyTarget arg with
  | none => (.arg, d)
  | some k =>
    if argBits arg 15 0 ≠ 0 then (.arg, d)
    else if d.key.slots[k].staged = .none then (d.keyState k, d)
    else (.ok, d.updKey k fun s => { s with staged := .none, copy := {} })

/-- KEY_DESTROY (R398): the slot becomes INVALID, its descendants ORPHANED. -/
def keyDestroyCmd (arg : BitVec 24) (d : Dev) : CmdSt × Dev :=
  match keyTarget arg with
  | none => (.arg, d)
  | some k =>
    let s := d.key.slots[k]
    if argBits arg 15 0 ≠ 0 then (.arg, d)
    else if s.st = .empty ∨ s.st = .invalid then (d.keyState k, d)
    else
      let ds := (List.finRange 64).filter fun x => d.descends x.val k.val
      let d1 := d.updKey k fun s => { s with st := .invalid, live := s.live.wipe, staged := .none, copy := {} }
      (.ok, ds.foldl (fun (acc : Dev) x => acc.orphan x) d1)

/-! ### Challenge and response (R411), attestation (R406) -/

/-- KEY_CHAL of an agent. -/
def Dev.chal (d : Dev) (ag : Agent) : List Byte := d.viewBytes ag (lattice 10 0x40 0x200) 8

/-- The answer of a slot to an agent's challenge. -/
def Dev.response (d : Dev) (ag : Agent) (k : Fin 64) : BitVec 256 :=
  Config.hmac d.key.slots[k].live.secret (d.chal ag ++ deviceId)

/-- A customer HMAC slot that agents may use (R411). -/
def Dev.agentSlot (d : Dev) (k : Fin 64) : Bool :=
  decide (16 ≤ k.val) && d.keyValid k.val && d.key.slots[k].live.ktype = 3 && d.key.slots[k].live.agentUse

/-- KEY_RESPOND. -/
def keyRespondCmd (ag : Agent) (arg : BitVec 24) (d : Dev) : CmdSt × Dev :=
  match keyTarget arg with
  | none => (.arg, d)
  | some k =>
    if argBits arg 15 0 ≠ 0 ∨ !d.agentSlot k then (.arg, d)
    else (.ok, (d.setViewBytes ag (lattice 10 0x40 0x220) 8 (wideBytes (d.response ag k))).useKey k)

/-- KEY_CHALLENGE names no slot. -/
def keyChallengeCmd (ag : Agent) (arg : BitVec 24) (d : Dev) : CmdSt × Dev :=
  if arg ≠ 0 then (.arg, d)
  else if !d.key.rngOk then (.state 0, d)
  else
    let (v, d1) := d.drawWide
    (.ok, d1.setViewBytes ag (lattice 10 0x40 0x200) 8 (wideBytes v))

/-- KEY_CHECK. -/
def keyCheckCmd (ag : Agent) (arg : BitVec 24) (d : Dev) : CmdSt × Dev :=
  match keyTarget arg with
  | none => (.arg, d)
  | some k =>
    if argBits arg 15 0 ≠ 0 ∨ !d.agentSlot k then (.arg, d)
    else if d.chal ag = List.replicate 32 0 then (d.keyState k, d)
    else
      let same := wideOf (d.viewBytes ag (lattice 10 0x40 0x220) 8) = d.response ag k
      let d1 := (d.useKey k).setViewBytes ag (lattice 10 0x40 0x200) 8 (List.replicate 32 0)
      (if same then .ok else .auth, d1)

/-- KEY_ATTEST (R406). -/
def keyAttestCmd (ag : Agent) (arg : BitVec 24) (d : Dev) : CmdSt × Dev :=
  match keyTarget arg with
  | none => (.arg, d)
  | some k =>
    let s := d.key.slots[k]
    if argBits arg 15 0 ≠ 0 then (.arg, d)
    else if s.st ≠ .valid ∨ (s.live.ktype ≠ 1 ∧ s.live.ktype ≠ 6) ∨ !d.keyValid 0 then (d.keyState k, d)
    else
      let body := deviceId ++ [BitVec.ofNat 8 k.val, BitVec.ofNat 8 s.live.ktype, s.gen, 0] ++ leBytes 4 s.uses ++
        pairBytes s.live.pub ++ List.replicate 8 0
      let sig := Config.ecdsaSign (d.keySlot 0).live.secret body d.fresh
      let d1 := { d with fresh := d.fresh + 1 }
      (.ok, (d1.useKey 0).setViewBytes ag (lattice 10 0x40 0x100) 40 (body ++ pairBytes sig))

/-! ### The signer (R240 to R243, R410) -/

/-- The place of a job in the signer's order (R241). -/
def SignJob.rank (j : SignJob) : Nat :=
  if !j.reading then 6 else if j.kind = 2 then 0 else if j.kind = 1 then 1 else if j.kind = 5 then 2 else if j.kind = 6 then 3
  else if j.kind = 4 then 4 else if j.kind = 3 then 5 else 7

/-- The job the signer serves next: the first of the lowest rank. -/
def nextJob : List SignJob → Option SignJob
  | [] => none
  | j :: js =>
    match nextJob js with
    | some k => if k.rank < j.rank then some k else some j
    | none => some j

/-- The block with its signature: 64 bytes of 0 where K1 is not VALID (R410). -/
def Dev.signBytes (d : Dev) (bs : List Byte) : List Byte × Dev :=
  if d.keyValid 1 then
    (bs ++ pairBytes (Config.ecdsaSign (d.keySlot 1).live.secret bs d.fresh), ({ d with fresh := d.fresh + 1 }).useKey 1)
  else (bs ++ List.replicate 64 0, d.raiseKey 7)

/-- The message of a signed block (R242). -/
def signMessage (j : SignJob) (bs : List Byte) : List QData :=
  if j.reading then mkMsg 0x20 4 j.slice 0 (packWords 56 bs) else mkMsg 0x21 4 j.slice 0 (packWords 32 bs)

/-- A signed record with no path to the store: the signer keeps the latest 64 (R243). -/
def Dev.keepRecord (d : Dev) (j : SignJob) (bs : List Byte) : Dev :=
  let kept := d.bil.noPath ++ [{ j with bytes := bs }]
  { d with bil := { d.bil with noPath := kept.drop (kept.length - 64) } }.raiseBil j.slice 8

/-- Kept records go into the retain queue once there is one, oldest first (log entry 25, DEDUCED). -/
def Dev.writeKept (d : Dev) (q : Fin 64) : Dev :=
  { d.bil.noPath.foldl (fun (acc : Dev) (j : SignJob) => acc.produce q (signMessage j j.bytes)) d with
    bil := { d.bil with noPath := [] } }

/-- Write a signed block to its queue (R242, R243). -/
def Dev.deliverBlock (d : Dev) (j : SignJob) (bs : List Byte) : Dev :=
  if j.reading ∧ j.kind = 0 then
    match d.signQueue j.agent with
    | some q => d.produce q (signMessage j bs)
    | none => d
  else
    match d.retainQueue with
    | some q => (d.writeKept q).produce q (signMessage j bs)
    | none => d.keepRecord j bs

/-- SIGNATURE_COMPLETE: the signer completes its next block. -/
def Dev.signNext (d : Dev) : Dev :=
  match nextJob d.bil.jobs with
  | none => d
  | some j =>
    let d1 := { d with bil := { d.bil with jobs := d.bil.jobs.erase j } }
    let (bs, d2) := d1.signBytes j.bytes
    d2.deliverBlock j bs

/-- Sign everything that waits; the first argument bounds the work. -/
def Dev.signAll : Nat → Dev → Dev
  | 0, d => d
  | n + 1, d => if d.bil.jobs = [] then d else Dev.signAll n d.signNext

/-- The WRAP slots between slot x and slot k, with k, where k is on x's way up. -/
def Dev.wrapsBelow (d : Dev) (x k : Nat) : Nat := ((d.chainUp 64 (d.keySlot x).live.parent).takeWhile fun p => p ≠ k).length + 1

/-- A commit that would break the tree below the slot (R397, R399): a VALID descendant would pass more than 4 WRAP slots,
or lose its WRAP slot (log entry 112, DEDUCED). -/
def Dev.commitBad (d : Dev) (k : Nat) (c : KeyCopy) : Bool :=
  d.treeBad k c.parent ||
  (List.range 64).any fun x => d.keyValid x && d.descends x k && (c.ktype ≠ 5 || decide (4 < d.wrapsBelow x k + d.chainLength c.parent))

/-- KEY_COMMIT (R408, R409): a commit of K1 waits until every block taken before it is signed. -/
def keyCommitCmd (arg : BitVec 24) (d : Dev) : CmdSt × Dev :=
  match keyTarget arg with
  | none => (.arg, d)
  | some k =>
    let s := d.key.slots[k]
    if argBits arg 15 0 ≠ 0 ∨ (s.staged = .verified ∧ d.commitBad k.val s.copy) then (.arg, d)
    else if s.staged ≠ .verified ∨ !d.parentReady s.copy.parent then (d.keyState k, d)
    else (.ok, (if k = 1 then d.signAll d.bil.jobs.length else d).makeLive k)

/-! ### Tamper and expiry (R391, R401) -/

/-- TAMPER_INACTIVE: TAMPER_N is inactive again (KEY_STATUS.tamper). -/
def Dev.tamperInactive (d : Dev) : Dev := { d with key := { d.key with tamper := false } }

/-- A slot that a reset expires. -/
def KeySlot.expires (s : KeySlot) : Bool := s.live.expireReset && (s.st = .valid || s.st = .exhausted)

/-- Expiry at a reset (R401): slots with expire_reset become EXPIRED, their material overwritten, and what descends from
them ORPHANED (R396). -/
def Dev.expireKeys (d : Dev) : Dev :=
  let gone := (List.finRange 64).filter fun (k : Fin 64) => d.key.slots[k].expires
  let d1 := gone.foldl (fun (acc : Dev) (k : Fin 64) =>
    (acc.updKey k fun s => { s with st := .expired, live := s.live.wipe }).raiseKey 3) d
  let below := (List.finRange 64).filter fun (x : Fin 64) => !gone.contains x && gone.any fun k => d.descends x.val k.val
  below.foldl (fun (acc : Dev) x => acc.orphan x) d1

/-! ### The commands of the table -/

/-- A key command. -/
def Dev.keyCommand (d : Dev) (ag : Agent) (op : Nat) (arg : BitVec 24) (h : Dev → CmdSt × Dev) : Dev :=
  issueCommand ag 10 op arg (argUnit arg) h d

/-- KEY_STAGE. -/
def execKeyStage (ag : Agent) (arg : BitVec 24) (s : State) : Host.Outcome State Fault Refusal :=
  .next { s with dev := s.dev.keyCommand ag 0x10 arg (keyStageCmd ag arg) }

/-- KEY_VERIFY. -/
def execKeyVerify (ag : Agent) (arg : BitVec 24) (s : State) : Host.Outcome State Fault Refusal :=
  .next { s with dev := s.dev.keyCommand ag 0x11 arg (keyVerifyCmd arg) }

/-- KEY_COMMIT. -/
def execKeyCommit (ag : Agent) (arg : BitVec 24) (s : State) : Host.Outcome State Fault Refusal :=
  .next { s with dev := s.dev.keyCommand ag 0x12 arg (keyCommitCmd arg) }

/-- KEY_DISCARD. -/
def execKeyDiscard (ag : Agent) (arg : BitVec 24) (s : State) : Host.Outcome State Fault Refusal :=
  .next { s with dev := s.dev.keyCommand ag 0x13 arg (keyDiscardCmd arg) }

/-- KEY_DESTROY. -/
def execKeyDestroy (ag : Agent) (arg : BitVec 24) (s : State) : Host.Outcome State Fault Refusal :=
  .next { s with dev := s.dev.keyCommand ag 0x14 arg (keyDestroyCmd arg) }

/-- KEY_GEN. -/
def execKeyGen (ag : Agent) (arg : BitVec 24) (s : State) : Host.Outcome State Fault Refusal :=
  .next { s with dev := s.dev.keyCommand ag 0x15 arg (keyGenCmd ag arg) }

/-- KEY_RESPOND. -/
def execKeyRespond (ag : Agent) (arg : BitVec 24) (s : State) : Host.Outcome State Fault Refusal :=
  .next { s with dev := s.dev.keyCommand ag 0x16 arg (keyRespondCmd ag arg) }

/-- KEY_CHALLENGE: it names no unit, so its right is checked against unit 0xFF (R85). -/
def execKeyChallenge (ag : Agent) (arg : BitVec 24) (s : State) : Host.Outcome State Fault Refusal :=
  .next { s with dev := issueCommand ag 10 0x17 arg 0xFF (keyChallengeCmd ag arg) s.dev }

/-- KEY_CHECK. -/
def execKeyCheck (ag : Agent) (arg : BitVec 24) (s : State) : Host.Outcome State Fault Refusal :=
  .next { s with dev := s.dev.keyCommand ag 0x18 arg (keyCheckCmd ag arg) }

/-- KEY_ATTEST. -/
def execKeyAttest (ag : Agent) (arg : BitVec 24) (s : State) : Host.Outcome State Fault Refusal :=
  .next { s with dev := s.dev.keyCommand ag 0x19 arg (keyAttestCmd ag arg) }

/-- KROOT_REMASK. -/
def execKrootRemask (s : State) : Host.Outcome State Fault Refusal := .next { s with dev := s.dev.remask }

/-- USE_COUNT_COMMIT. -/
def execUseCountCommit (k : Fin 64) (s : State) : Host.Outcome State Fault Refusal := .next { s with dev := s.dev.useCommit k }

/-- TAMPER_INACTIVE. -/
def execTamperInactive (s : State) : Host.Outcome State Fault Refusal := .next { s with dev := s.dev.tamperInactive }

/-- SIGNATURE_COMPLETE. -/
def execSignatureComplete (s : State) : Host.Outcome State Fault Refusal := .next { s with dev := s.dev.signNext }

end Sys2Proof.Machine
end

