-- ==== Sys2Proof/Machine/Contactless.lean ====
section
/-! DEFINITION. The card reader and the service tag (13_contactless.md): polls and exchanges, field and sessions, the
tag store with its journalled writes, host access, and what TAMPER_N does. The LATTICE frame is in Lattice.lean. -/

namespace Sys2Proof.Machine

/-! ### Queues of the two interfaces (R439) -/

/-- The reader writes into the lowest-numbered C2 queue from 0x07 to the core. -/
def Dev.rdrSend (d : Dev) (ty : Nat) (body : List QData) : Dev :=
  match d.findQueue fun e => e.cls = 2 && e.prod = 7 && e.cons = 1 with
  | some q => d.produce q (mkMsg ty 7 0xFF 0 body)
  | none => d

/-- The service tag writes into the lowest-numbered C2 queue from 0x08 to the core. -/
def Dev.svcSend (d : Dev) (ty : Nat) (body : List QData) : Dev :=
  match d.findQueue fun e => e.cls = 2 && e.prod = 8 && e.cons = 1 with
  | some q => d.produce q (mkMsg ty 8 0xFF 0 body)
  | none => d

/-- An SVC_EVENT message. -/
def Dev.svcEvent (d : Dev) (ev cause : Nat) : Dev :=
  d.svcSend 0x68 [BitVec.ofNat 64 d.now, packQ [(8, ev), (8, cause), (48, 0)]]

/-! ### The card reader (R417 to R420) -/

/-- Whether the reader's field works for a card type under PERSONA (R59, R543). -/
def Dev.cardEnabled (d : Dev) (c : Card) : Bool := nbit (d.persona 5) (if c.typeB then 1 else 0)

/-- TAG_RDR_STATUS.state: an exchange continues to its end; else HELD while the service tag detects a field. -/
def Dev.rdrState (d : Dev) : Nat :=
  if d.tag.rdrSt ≠ .idle then 2 else if d.tag.rdr.isRunning ∧ d.tag.field then 3 else 0

/-- The reader's field goes off and island 13 stops. -/
def Dev.rdrFieldOff (d : Dev) : Dev :=
  ({ d with tag := { d.tag with rfField := false, rdrSt := .idle, card := none } }).setRun 13 false

/-- CARD_SEEN (R439). -/
def Dev.cardSeen (d : Dev) (c : Card) : Dev :=
  let u := c.uid
  let tail := if u.length = 10 then (byteAt u 8) * 256 + byteAt u 9 else 0
  let w2 := packQ [(8, if c.typeB then 2 else 1), (8, u.length), (16, c.atqa.toNat), (8, c.sak.toNat), (8, b1 c.part4), (16, tail)]
  let w3 := BitVec.ofNat 64 (fromBE ((u ++ List.replicate 8 0).take 8))
  ((d.rdrSend 0x60 [BitVec.ofNat 64 d.now, w2, w3]).count 11 0 0xC 31 16).raiseTag 0

/-- The cards reported after a poll in which none answered: two such polls, and a card may be reported again. -/
def missedCards (seen : List (List Byte × Nat)) : List (List Byte × Nat) :=
  (seen.map fun (e : List Byte × Nat) => (e.1, e.2 + 1)).filter fun (e : List Byte × Nat) => decide (e.2 < 2)

/-- The same after a poll in which the card with a UID answered: for the others it is a poll without an answer (log entry
71, DEDUCED). -/
def answeredCards (seen : List (List Byte × Nat)) (uid : List Byte) : List (List Byte × Nat) :=
  (uid, 0) :: missedCards (seen.filter fun (e : List Byte × Nat) => e.1 ≠ uid)

/-- A poll in which no enabled card answered. -/
def Dev.pollMissed (d : Dev) : Dev := ({ d with tag := { d.tag with seen := missedCards d.tag.seen } }).rdrFieldOff

/-- A poll in which a card answered: reported once, and then held for the exchange (R417). -/
def Dev.pollFound (d : Dev) (c : Card) : Dev :=
  let seen := answeredCards d.tag.seen c.uid
  if d.tag.seen.any fun (e : List Byte × Nat) => e.1 = c.uid then ({ d with tag := { d.tag with seen := seen } }).rdrFieldOff
  else
    let d1 := (d.cardSeen c).setRun 13 true
    { d1 with tag := { d1.tag with rdrSt := .exchange, card := some c, seen := seen, tRdr := d.el, rfField := true } }

/-- READER_POLL: the reader runs, no exchange runs, and a poll is due. -/
def Dev.readerPoll (d : Dev) (card : Option Card) : Dev :=
  if d.tag.rdr.isRunning ∧ d.tag.rdrSt = .idle ∧ (d.tag.pollDue ∨ d.after d.tag.lastPoll (ms (10 * d.rfld 11 0 4 31 24))) then
    let d1 := { d with tag := { d.tag with lastPoll := d.el, pollDue := false } }
    if d.tag.field then d1.raiseTag 8
    else
      match card with
      | some c => if d.cardEnabled c then d1.pollFound c else d1.pollMissed
      | none => d1.pollMissed
  else d

/-- RDR_RX with a status and bytes. -/
def Dev.rdrRx (d : Dev) (status : Nat) (bs : List Byte) : Dev :=
  d.rdrSend 0x61 (packQ [(16, bs.length), (8, status), (40, 0)] :: packWords ((bs.length + 7) / 8) bs)

/-- An exchange ends with TIMEOUT, ERROR or CARD_LOST. -/
def Dev.exchangeFail (d : Dev) (status : Nat) : Dev := (d.rdrRx status []).count 11 0 0xC 15 0 |>.rdrFieldOff

/-- READER_EXCHANGE: the reader takes an RDR_TX from a queue it consumes (R418). While a card is silent it takes no
other. -/
def Dev.readerExchange (d : Dev) (q : Fin 64) (cs : List WordCheck) (answer : CardAnswer) : Dev :=
  if d.tag.rdrSt = .exchange ∧ d.que.q[q].entry.cons = 7 ∧ d.serves q then
    match d.takeMsg q cs with
    | (none, d1) => d1
    | (some ws, d1) =>
      if hdrType (msgHead ws) ≠ 0x62 then d1
      else if bits (ws.getD 1 0).toNat 63 48 = 0 then d1.rdrFieldOff
      else
        match answer with
        | .bytes b => { d1.rdrRx 0 b with tag := { (d1.rdrRx 0 b).tag with tRdr := d.el } }
        | .error => d1.exchangeFail 2
        | .lost => d1.exchangeFail 3
        | .silent => { d1 with tag := { d1.tag with rdrSt := .awaiting, tRdr := d.el } }
  else d

/-- READER_EXCHANGE_TIMEOUT: no RDR_TX for 1 s, or no answer of a silent card within fwt (R418). -/
def Dev.readerTimeout (d : Dev) (cardLost : Bool) : Dev :=
  match d.tag.rdrSt, cardLost with
  | .exchange, false => if d.after d.tag.tRdr (sec 1) then d.exchangeFail 1 else d
  | .awaiting, true => if d.after d.tag.tRdr (ms (d.rfld 11 0 4 7 0)) then d.exchangeFail 3 else d
  | _, _ => d

/-- RDR_POLL (R441). -/
def rdrPollCmd (arg : BitVec 24) (d : Dev) : CmdSt × Dev :=
  if arg ≠ 0 then (.arg, d)
  else if d.tag.rdr.isRunning ∧ d.rdrState ≠ 3 then (.ok, { d with tag := { d.tag with pollDue := true } })
  else (.state d.rdrState, d)

/-! ### The tag store (R431 to R438) -/

/-- The block listed at a number; an unlisted block is 0. -/
def findBlk : List (Nat × BitVec 256) → Nat → BitVec 256
  | [], _ => 0
  | (k, v) :: r, b => if k = b then v else findBlk r b

/-- List a block, numbers rising. -/
def putBlk : List (Nat × BitVec 256) → Nat → BitVec 256 → List (Nat × BitVec 256)
  | [], b, v => [(b, v)]
  | (k, u) :: r, b, v =>
    if b < k then (b, v) :: (k, u) :: r else if b = k then (b, v) :: r else (k, u) :: putBlk r b v

/-- Store a block; a block of 0 is not listed. -/
def setBlk (m : List (Nat × BitVec 256)) (b : Nat) (v : BitVec 256) : List (Nat × BitVec 256) :=
  if v = 0 then m.filter fun e => e.1 ≠ b else putBlk m b v

/-- The bytes of a block, byte 0 first. -/
def blkBytes (v : BitVec 256) : List Byte := leBytes 32 v.toNat
/-- A block from its bytes. -/
def blkOf (bs : List Byte) : BitVec 256 := BitVec.ofNat 256 (fromLE bs)

/-- The security mode: ORIGIN_SIG with no image (R426). -/
def Dev.mutualAes (d : Dev) : Bool := d.persona 6 = 1

/-- The primary content of a block: 0 to 2 hold the identity and the origin signature (R425). -/
def Dev.primaryBlk (d : Dev) (b : Nat) : BitVec 256 :=
  if b = 0 then blkOf (deviceId ++ [0x80, 0x08, 0x01, BitVec.ofNat 8 (b1 d.mutualAes)])
  else if b = 1 then blkOf (beBytes 32 (Config.originSig.toNat / 2 ^ 256))
  else if b = 2 then blkOf (beBytes 32 Config.originSig.toNat)
  else findBlk d.tag.store b

/-- The committed content of a block: the journal copy from the marker until the entry is done (R437). -/
def Dev.tagBlk (d : Dev) (b : Nat) : BitVec 256 :=
  match d.tag.journal with
  | some j => if j.marker ∧ !j.done ∧ j.blk = b then j.data else d.primaryBlk b
  | none => d.primaryBlk b

/-- A whole write sequence of R433 that completes: the journal entry is done and the primary holds the data. -/
def Dev.tagCommit (d : Dev) (b : Nat) (v : BitVec 256) : Dev :=
  { d with tag := { d.tag with
      store := setBlk d.tag.store b v, jseq := d.tag.jseq + 1
      journal := some { blk := b, data := v, marker := true, primary := true, done := true, seq := d.tag.jseq + 1 } } }

/-- A write sequence that the stored energy does not carry past its marker, or past the primary block (`primary`): the
journal entry stays open (R435). -/
def Dev.tagCutOff (d : Dev) (b : Nat) (v : BitVec 256) (primary : Bool) : Dev :=
  { d with tag := { d.tag with
      store := if primary then setBlk d.tag.store b v else d.tag.store, jseq := d.tag.jseq + 1, dead := true
      journal := some { blk := b, data := v, marker := true, primary := primary, done := false, seq := d.tag.jseq + 1 } } }

/-- A write sequence abandoned in step 1 or before step 2: an entry without a marker. -/
def Dev.tagAbandon (d : Dev) (b : Nat) (v : BitVec 256) : Dev :=
  { d with tag := { d.tag with
      jseq := d.tag.jseq + 1
      journal := some { blk := b, data := v, marker := false, primary := false, done := false, seq := d.tag.jseq + 1 } } }

/-- The block of a counter, and its byte offset (R431). -/
def ctrBlk (c : Nat) : Nat := 8 + c / 8
/-- Byte offset of a counter in its block. -/
def ctrOff (c : Nat) : Nat := 4 * (c % 8)

/-- A block with counter `c` raised, saturating at 0xFFFF_FFFF. -/
def incBlk (v : BitVec 256) (c amount : Nat) : BitVec 256 :=
  let lo := 8 * ctrOff c
  let old := bits v.toNat (lo + 31) lo
  BitVec.ofNat 256 (v.toNat - old * 2 ^ lo + satAdd 32 old amount * 2 ^ lo)

/-- A block is marked in a field-shared map (R431). -/
def sharedIn (m : List (Nat × BitVec 256)) (b : Nat) : Bool := (findBlk m (12 + b / 256)).getLsbD (b % 256)

/-- TAG_STORE_RECOVERY (R435). -/
def Dev.tagRecovery (d : Dev) : Dev :=
  match d.tag.journal with
  | none => { d with tag := { d.tag with lastStep := 0, dead := false } }
  | some j =>
    if j.done then { d with tag := { d.tag with lastStep := 0, dead := false } }
    else
      let n := satAdd 16 d.tag.recoveries 1
      if !j.marker then { d with tag := { d.tag with lastStep := 1, recoveries := n, journal := none, dead := false } }
      else
        ({ d with tag := { d.tag with
          lastStep := if j.primary then 3 else 2, recoveries := n, store := setBlk d.tag.store j.blk j.data, dead := false
          journal := some { j with primary := true, done := true } } }).raiseTag 5

/-- The tag's supply comes up: where the stored energy had failed, recovery runs before any access (R435). -/
def Dev.tagSupplyUp (d : Dev) : Dev := if d.tag.dead then d.tagRecovery else d

/-! ### Field and sessions (R424, R427 to R429) -/

/-- VMAIN is present for the tag. -/
def Dev.tagMain (d : Dev) : Bool := d.tag.supply = 0

/-- A session ends with a cause (R429, R439); a block not wholly delivered is discarded (R440). -/
def Dev.endSession (d : Dev) (cause : Nat) : Dev :=
  match d.tag.sess with
  | none => d
  | some _ =>
    let d1 := { d with tag := { d.tag with sess := none, pendAuth := none, block := none } }
    let d2 := if d.tag.block.isSome then d1.count 11 1 8 31 16 else d1
    (d2.svcEvent 3 cause).raiseTag 3

/-- SERVICE_FIELD_ON: a field appears at the service tag and supplies it (R419, R424, R435). -/
def Dev.fieldOn (d : Dev) : Dev :=
  if d.tag.field then d
  else
    let d := d.tagSupplyUp
    let d1 := ({ d with tag := { d.tag with
      field := true, fdet := false, authFails := 0, active := false
      locked := d.tag.locked && !d.after d.tag.tFieldLost (sec 1) } }).setRun 14 true
    (d1.svcEvent 0 0).raiseTag 1

/-- The field is lost: the session ends with FIELD_LOST (R429). -/
def Dev.fieldOff (d : Dev) : Dev :=
  if d.tag.field then
    let d1 := d.endSession 1
    (({ d1 with tag := { d1.tag with
      field := false, active := false, authFails := 0, pendAuth := none, tFieldLost := d.el } }).setRun 14 false).svcEvent 1 0
  else d

/-- FDET_RELEASE: 100 ms after the field is lost (R424). -/
def Dev.fdetRelease (d : Dev) : Dev :=
  if !d.tag.field ∧ !d.tag.fdet ∧ d.after d.tag.tFieldLost (ms 100) then { d with tag := { d.tag with fdet := true } } else d

/-- The UID with which the service tag answers: bytes 9 to 15 of the device identity (R416). -/
def svcUid : List Byte := slice deviceId 9 7

/-- The CCM nonce of a frame (R427): the direction, the counter and the first 8 bytes of rD. -/
def svcNonce (dir counter : Nat) (rD : BitVec 128) : Nat :=
  fromLE ([BitVec.ofNat 8 dir] ++ leBytes 4 counter ++ (beBytes 16 rD.toNat).take 8)

/-- The counter and the tag of the session's next frame to the handheld (R427). -/
def SvcSession.protects (x : SvcSession) (bs : List Byte) : SvcProt :=
  { counter := w32 (x.txCtr + 1), mac := Config.ccmTag x.ks (svcNonce 1 (x.txCtr + 1) x.rD) bs }

/-- The reply frame to the handheld, protected in a session. -/
def Dev.tagReply (d : Dev) (bs : List Byte) : Dev :=
  { d with tag := { d.tag with
      reply := bs, replyProt := d.tag.sess.map fun x => x.protects bs, active := true
      sess := d.tag.sess.map fun x => { x with txCtr := x.txCtr + 1 } } }

/-- Status bytes of R430. -/
def stOk : Byte := 0
/-- STATE. -/
def stState : Byte := 2
/-- PERM. -/
def stPerm : Byte := 3
/-- ARG. -/
def stArg : Byte := 4
/-- AUTH. -/
def stAuth : Byte := 5
/-- ENERGY. -/
def stEnergy : Byte := 16

/-- A protected frame is accepted: its counter is greater than the last and its tag verifies (R427). -/
def SvcSession.accepts (x : SvcSession) (p : SvcProt) (msg : List Byte) : Bool :=
  decide (x.rxCtr < p.counter.toNat) && Config.ccmTag x.ks (svcNonce 0 p.counter.toNat x.rD) msg = p.mac

/-- A session frame: the device after it, or none where the frame is dropped and counted (R427). -/
def Dev.sessionFrame (d : Dev) (x : SvcSession) (p : SvcProt) (msg : List Byte) : Option Dev :=
  if x.accepts p msg then
    some { d with tag := { d.tag with sess := some { x with rxCtr := p.counter.toNat, frames := (x.frames + 1) % 65536, tLast := d.el } } }
  else none

/-- A dropped session frame is counted. -/
def Dev.dropFrame (d : Dev) : Dev := d.count 11 1 8 31 16

/-- The tag hears the handheld: a field is there and island 14 runs (R27, R109). -/
def Dev.tagOn (d : Dev) : Bool := d.tag.field && d.runs 14

/-- A field command whose frame is `msg`: outside a field nothing arrives; in a session the frame is checked first.
`h` says what it does, and is told whether a session holds. -/
def Dev.fieldCommand (d : Dev) (p : SvcProt) (msg : List Byte) (h : Bool → Dev → Dev) : Dev :=
  if !d.tagOn then d
  else
    match d.tag.sess with
    | none => h false d
    | some x =>
      match d.sessionFrame x p msg with
      | some d1 => h true d1
      | none => d.dropFrame

/-- GET_IDENTITY (R425). -/
def Dev.getIdentity (d : Dev) : Dev :=
  if d.tagOn then d.tagReply (stOk :: (blkBytes (d.tagBlk 0) ++ blkBytes (d.tagBlk 1) ++ blkBytes (d.tagBlk 2))) else d

/-- Whether the field side may read a block (R431); `sess` tells a session. -/
def fieldReadable (b : Nat) (sess : Bool) : Bool := decide (b ≤ 3) || (decide (16 ≤ b) && decide (b < 64)) || (sess && decide (8 ≤ b))

/-- READ (R430, R431, R437). On harvested energy it takes the identity blocks, 0 to 2 (R425), and the PUBLIC ones
(R421). -/
def Dev.fieldRead (d : Dev) (blk : BitVec 16) (p : SvcProt) : Dev :=
  d.fieldCommand p (2 :: leBytes 2 blk.toNat) fun sess d =>
    let b := blk.toNat
    if 1023 < b then d.tagReply [stArg]
    else if !fieldReadable b sess then d.tagReply [stPerm]
    else if d.tag.supply = 2 ∧ ¬(b ≤ 2 ∨ (16 ≤ b ∧ b < 64)) then d.tagReply [stState]
    else d.tagReply (stOk :: blkBytes (d.tagBlk b))

/-- An authentication fails: counted and flagged. -/
def Dev.authFailed (d : Dev) : Dev := ((d.count 11 1 8 31 16).raiseTag 4).tagReply [stAuth]

/-- K8 from its tag copy, while K8 is VALID (R428). -/
def Dev.tagKey (d : Dev) : Option (BitVec 128) :=
  if d.keyValid 8 then d.tag.keyCopy.map fun c => c.1 ^^^ c.2 else none

/-- AUTH1 (R426 to R428). A frame without protection inside a session is dropped. -/
def Dev.auth1 (d : Dev) (rH : BitVec 128) : Dev :=
  if !d.tagOn then d
  else if d.tag.sess.isSome then d.dropFrame
  else if d.tag.supply = 2 ∨ !d.mutualAes then d.tagReply [stState]
  else
    match d.tagKey with
    | none => d.authFailed
    | some k =>
      if d.tag.locked then d.authFailed
      else
        let (v, d1) := d.drawWide
        let rD := aesOf v
        let d2 := { d1 with tag := { d1.tag with pendAuth := some (rH, rD) } }
        (d2.useKey 8).tagReply (stOk :: (beBytes 16 rD.toNat ++ beBytes 16 (Config.aes k (beBytes 16 rH.toNat)).toNat))

/-- A failed AUTH2: the third in one presence of the field locks AUTH1 (R428). -/
def Dev.auth2Failed (d : Dev) : Dev :=
  let n := satAdd 8 d.tag.authFails 1
  ({ d with tag := { d.tag with authFails := n, pendAuth := none, locked := d.tag.locked || decide (3 ≤ n) } }).authFailed

/-- The field-shared map as it stands. -/
def Dev.sharedNow (d : Dev) : List (Nat × BitVec 256) := d.tag.store.filter fun e => 12 ≤ e.1 && e.1 ≤ 15

/-- AUTH2 (R427): on a match a session opens; its answer is still unprotected. -/
def Dev.auth2 (d : Dev) (answer : BitVec 128) : Dev :=
  if !d.tagOn then d
  else if d.tag.sess.isSome then d.dropFrame
  else if d.tag.supply = 2 ∨ !d.mutualAes then d.tagReply [stState]
  else
    match d.tag.pendAuth, d.tagKey with
    | some (rH, rD), some k =>
      if Config.aes k (beBytes 16 rD.toNat) = answer then
        let ks := Config.aes k ((beBytes 16 rH.toNat).take 8 ++ (beBytes 16 rD.toNat).take 8)
        let x : SvcSession := { rH := rH, rD := rD, ks := ks, rxCtr := 0, txCtr := 0, frames := 0, tLast := d.el }
        let d0 := d.tagReply [stOk]
        let d1 := { d0 with tag := { d0.tag with pendAuth := none, sess := some x, sharedMap := d.sharedNow } }
        (((d1.useKey 8).useKey 8).svcEvent 2 0).raiseTag 2
      else (d.useKey 8).auth2Failed
    | _, _ => d.auth2Failed

/-- The energy gate of R433 passes. -/
def Dev.gate (d : Dev) (energy : Bool) : Bool := d.tagMain || energy

/-- A field write sequence of a block (R433 to R435): `c` says where a field collapse falls. A collapse ends the
session with the loss of the field. The stored energy fails only without VMAIN. -/
def Dev.fieldSequence (d : Dev) (b : Nat) (v : BitVec 256) (energy : Bool) (c : Collapse) : Dev :=
  match c with
  | .beforeStep1 => ({ d with tag := { d.tag with reply := [] } }).fieldOff
  | _ =>
    if !d.gate energy then
      let d1 := (d.raiseTag 7).tagReply [stEnergy]
      if c = .none then d1 else d1.fieldOff
    else
      match c with
      | .none => (d.tagCommit b v).tagReply [stOk]
      | .afterReply => ((d.tagCommit b v).tagReply [stOk]).fieldOff
      | .deadAfterMarker =>
        let d1 := if d.tagMain then d.tagCommit b v else d.tagCutOff b v false
        ({ d1 with tag := { d1.tag with reply := [] } }).fieldOff
      | .deadAfterPrimary =>
        let d1 := if d.tagMain then d.tagCommit b v else d.tagCutOff b v true
        ({ d1 with tag := { d1.tag with reply := [] } }).fieldOff
      | .deadBeforeMarker =>
        let d1 := d.tagAbandon b v
        ({ d1 with tag := { d1.tag with reply := [], dead := !d.tagMain } }).fieldOff
      | .afterMarker => ({ d.tagCommit b v with tag := { (d.tagCommit b v).tag with reply := [] } }).fieldOff
      | _ => ({ d.tagAbandon b v with tag := { (d.tagAbandon b v).tag with reply := [] } }).fieldOff

/-- WRITE (R430, R431): DATA blocks only, in a session. -/
def Dev.fieldWrite (d : Dev) (blk : BitVec 16) (data : BitVec 256) (p : SvcProt) (energy : Bool) (c : Collapse) : Dev :=
  d.fieldCommand p (5 :: (leBytes 2 blk.toNat ++ blkBytes data)) fun sess d =>
    let b := blk.toNat
    if d.tag.supply = 2 then d.tagReply [stState]
    else if 1023 < b ∨ (8 ≤ b ∧ b ≤ 11) then d.tagReply [stArg]
    else if !sess ∨ b < 64 then d.tagReply [stPerm]
    else d.fieldSequence b data energy c

/-- INC (R430, R431, R438). -/
def Dev.fieldInc (d : Dev) (ctr : Byte) (amount : BitVec 16) (p : SvcProt) (energy : Bool) (c : Collapse) : Dev :=
  d.fieldCommand p (6 :: ctr :: leBytes 2 amount.toNat) fun sess d =>
    let k := ctr.toNat
    if d.tag.supply = 2 then d.tagReply [stState]
    else if 31 < k ∨ amount = 0 then d.tagReply [stArg]
    else if !sess then d.tagReply [stPerm]
    else d.fieldSequence (ctrBlk k) (incBlk (d.tagBlk (ctrBlk k)) k amount.toNat) energy c

/-- The queues the service tag consumes, after read-out (R132, R135). -/
def Dev.svcFresh (d : Dev) : Dev := (d.findQueues fun e => e.cons = 8).foldl (fun (acc : Dev) q => acc.freshFront q) d

/-- The front of a queue is a SIGNED_READING message. -/
def Dev.frontIsBlock (d : Dev) (q : Fin 64) : Bool :=
  (d.que.q[q].msgs.head?.map fun m => decide (hdrType (msgHead m.words) = 0x20)).getD false

/-- The bytes an SVC_DATA message carries. -/
def svcBytes (ws : List QData) : List Byte := (unpackWords (ws.drop 2)).take (bits (ws.getD 1 0).toNat 63 48)

/-- The data a DATA reply carries: a fragment of a waiting block in a session, else the next SVC_DATA (R440). -/
def Dev.dataReply (d : Dev) (sess : Bool) (cs : List WordCheck) : Dev :=
  match d.tag.block, sess with
  | some (bs, i), true =>
    let frag := [0x53, BitVec.ofNat 8 i] ++ slice bs (224 * i) 224
    ({ d with tag := { d.tag with block := if i = 0 then some (bs, 1) else none } }).tagReply (stOk :: frag)
  | _, _ =>
    let d0 := d.svcFresh
    match d0.nextQueue 8 (fun q => !d0.frontIsBlock q) with
    | (none, d1) => d1.tagReply [stOk]
    | (some q, d2) =>
      match d2.takeMsg q cs with
      | (some ws, d1) => d1.tagReply (stOk :: (if hdrType (msgHead ws) = 0x69 then svcBytes ws else []))
      | (none, d1) => d1.tagReply [stOk]

/-- DATA (R426, R430, R439): needs VMAIN. -/
def Dev.fieldData (d : Dev) (bs : List Byte) (p : SvcProt) (cs : List WordCheck) : Dev :=
  d.fieldCommand p (7 :: bs) fun sess d =>
    if !d.tagMain then d.tagReply [stState]
    else if 240 < bs.length then d.tagReply [stArg]
    else
      let d1 := d.svcSend 0x69 (packQ [(16, bs.length), (8, b1 sess), (40, 0)] :: packWords ((bs.length + 7) / 8) bs)
      d1.dataReply sess cs

/-- END (R429): the session ends. Without a session there is nothing to end, and on harvested energy it is not
available (R421). -/
def Dev.fieldEnd (d : Dev) (p : SvcProt) : Dev :=
  d.fieldCommand p [9] fun sess d => if sess ∧ d.tag.supply ≠ 2 then (d.tagReply [stOk]).endSession 2 else d.tagReply [stState]

/-- SESSION_IDLE_TIMEOUT (R429). -/
def Dev.sessionIdle (d : Dev) : Dev :=
  match d.tag.sess with
  | some x => if d.after x.tLast (sec 10) then d.endSession 3 else d
  | none => d

/-- SVC_SIGNED_READING (R440): a block waits for the next DATA replies of the session. -/
def Dev.svcReading (d : Dev) (q : Fin 64) (cs : List WordCheck) : Dev :=
  if d.que.q[q].entry.cons = 8 ∧ d.tag.block.isNone then
    let d0 := d.freshFront q
    match d0.que.q[q].msgs with
    | [] => d0
    | m :: _ =>
      if hdrType (msgHead m.words) = 0x20 ∧ d0.serves q then
        let (ws, d1) := d0.takeMsg q cs
        if isPoison (ws.getD []) then d1
        else if d.tag.sess.isSome then { d1 with tag := { d1.tag with block := some (unpackWords ((ws.getD []).drop 1), 0) } }
        else d1.count 11 1 8 31 16
      else d0
  else d

/-! ### Host side (R431, R436, R441) -/

/-- TAG_READ. -/
def tagReadCmd (ag : Agent) (arg : BitVec 24) (d : Dev) : CmdSt × Dev :=
  let b := arg.toNat
  if 1023 < b ∨ (4 ≤ b ∧ b ≤ 7) then (.arg, d)
  else (.ok, d.setViewBytes ag (lattice 11 2 0) 8 (blkBytes (d.tagBlk b)))

/-- The data of an agent's TAG_BLK view. -/
def Dev.tagView (d : Dev) (ag : Agent) : BitVec 256 := blkOf (d.viewBytes ag (lattice 11 2 0) 8)

/-- TAG_WRITE (R433, R436): deferred for a field-shared block during a session. -/
def tagWriteCmd (ag : Agent) (arg : BitVec 24) (d : Dev) : CmdSt × Dev :=
  let b := arg.toNat
  if 1023 < b ∨ b < 12 then (.arg, d)
  else if d.tag.sess.isSome ∧ sharedIn d.tag.sharedMap b then
    let d1 := { d with tag := { d.tag with defer := some (ag, b, d.tagView ag, d.el) } }
    (.pending, d1.raiseTag 6)
  else (.ok, d.tagCommit b (d.tagView ag))

/-- TAG_DEFERRED_WRITE: the session has ended or 200 ms have passed (R436). -/
def Dev.deferredWrite (d : Dev) : Dev :=
  match d.tag.defer with
  | some (_, b, v, t) =>
    if d.tag.sess.isNone ∨ d.after t (ms 200) then
      let d1 := d.tagCommit b v
      ({ d1 with tag := { d1.tag with defer := none } }).endCommand 11 .ok
    else d
  | none => d

/-- TAG_INC (R433, R438). -/
def tagIncCmd (arg : BitVec 24) (d : Dev) : CmdSt × Dev :=
  let c := argUnit arg
  let amount := argBits arg 15 0
  if 31 < c ∨ amount = 0 then (.arg, d)
  else (.ok, d.tagCommit (ctrBlk c) (incBlk (d.tagBlk (ctrBlk c)) c amount))

/-- SVC_END. -/
def svcEndCmd (arg : BitVec 24) (d : Dev) : CmdSt × Dev :=
  if arg ≠ 0 then (.arg, d)
  else if d.tag.sess.isSome then (.ok, d.endSession 4)
  else (.state (if d.tag.field then 1 else 0), d)

/-! ### Tamper (R391, R413, R429) -/

/-- The key store's per-agent views are cleared (R414). -/
def Dev.clearKeyViews (d : Dev) : Dev :=
  { d with views := d.views.filter fun (e : Nat × Word) =>
      decide (e.1 % 0x100000000 < lattice 10 0x40 0x100) || decide (lattice 10 0x40 0x240 ≤ e.1 % 0x100000000) }

/-- TAMPER_EVENT: KROOT and every key that hangs on it are lost, key commands abort, the tag session ends, type 0
is counted, the key views are cleared. -/
def Dev.tamperEvent (d : Dev) : Dev :=
  if d.key.tamper ∨ (d.pwr.held ∧ d.pwr.siltGone) then d
  else
    let had := d.rootPresent
    let d1 := (((d.endCommand 10 .aborted).loseRoot).endSession 6).clearKeyViews
    let d2 := { d1 with key := { d1.key with tamper := true }, tag := { d1.tag with keyCopy := none } }
    (d.oneEvent fun _ => if had then d2.raiseKey 0 else d2).tamper 0 none

/-! ### The commands of the table -/

/-- READER_POLL. -/
def execReaderPoll (card : Option Card) (s : State) : Host.Outcome State Fault Refusal := .next { s with dev := s.dev.readerPoll card }

/-- READER_EXCHANGE. -/
def execReaderExchange (q : Take) (answer : CardAnswer) (s : State) : Host.Outcome State Fault Refusal :=
  .next { s with dev := s.dev.readerExchange q.q q.checks answer }

/-- READER_EXCHANGE_TIMEOUT. -/
def execReaderExchangeTimeout (cardLost : Bool) (s : State) : Host.Outcome State Fault Refusal :=
  .next { s with dev := s.dev.readerTimeout cardLost }

/-- RDR_POLL. -/
def execRdrPoll (ag : Agent) (arg : BitVec 24) (s : State) : Host.Outcome State Fault Refusal :=
  .next { s with dev := issueCommand ag 11 0x14 arg 0xFF (rdrPollCmd arg) s.dev }

/-- SERVICE_FIELD_ON. -/
def execServiceFieldOn (s : State) : Host.Outcome State Fault Refusal := .next { s with dev := s.dev.fieldOn }

/-- SERVICE_FIELD_OFF. -/
def execServiceFieldOff (s : State) : Host.Outcome State Fault Refusal := .next { s with dev := s.dev.fieldOff }

/-- FDET_RELEASE. -/
def execFdetRelease (s : State) : Host.Outcome State Fault Refusal := .next { s with dev := s.dev.fdetRelease }

/-- GET_IDENTITY. -/
def execGetIdentity (s : State) : Host.Outcome State Fault Refusal := .next { s with dev := s.dev.getIdentity }

/-- READ. -/
def execFieldRead (blk : BitVec 16) (p : SvcProt) (s : State) : Host.Outcome State Fault Refusal :=
  .next { s with dev := s.dev.fieldRead blk p }

/-- AUTH1. -/
def execAuth1 (rH : BitVec 128) (s : State) : Host.Outcome State Fault Refusal := .next { s with dev := s.dev.auth1 rH }

/-- AUTH2. -/
def execAuth2 (answer : BitVec 128) (s : State) : Host.Outcome State Fault Refusal := .next { s with dev := s.dev.auth2 answer }

/-- WRITE. -/
def execFieldWrite (blk : BitVec 16) (data : BitVec 256) (p : SvcProt) (energy : Bool) (c : Collapse) (s : State) :
    Host.Outcome State Fault Refusal := .next { s with dev := s.dev.fieldWrite blk data p energy c }

/-- INC. -/
def execFieldInc (ctr : Byte) (amount : BitVec 16) (p : SvcProt) (energy : Bool) (c : Collapse) (s : State) :
    Host.Outcome State Fault Refusal := .next { s with dev := s.dev.fieldInc ctr amount p energy c }

/-- DATA. -/
def execFieldData (bytes : List Byte) (p : SvcTake) (s : State) : Host.Outcome State Fault Refusal :=
  .next { s with dev := s.dev.fieldData bytes p.prot p.checks }

/-- END. -/
def execFieldEnd (p : SvcProt) (s : State) : Host.Outcome State Fault Refusal := .next { s with dev := s.dev.fieldEnd p }

/-- SESSION_IDLE_TIMEOUT. -/
def execSessionIdleTimeout (s : State) : Host.Outcome State Fault Refusal := .next { s with dev := s.dev.sessionIdle }

/-- TAG_STORE_RECOVERY. -/
def execTagStoreRecovery (s : State) : Host.Outcome State Fault Refusal := .next { s with dev := s.dev.tagRecovery }

/-- TAG_READ. -/
def execTagRead (ag : Agent) (arg : BitVec 24) (s : State) : Host.Outcome State Fault Refusal :=
  .next { s with dev := issueCommand ag 11 0x10 arg 0xFF (tagReadCmd ag arg) s.dev }

/-- TAG_WRITE. -/
def execTagWrite (ag : Agent) (arg : BitVec 24) (s : State) : Host.Outcome State Fault Refusal :=
  .next { s with dev := issueCommand ag 11 0x11 arg 0xFF (tagWriteCmd ag arg) s.dev }

/-- TAG_DEFERRED_WRITE. -/
def execTagDeferredWrite (s : State) : Host.Outcome State Fault Refusal := .next { s with dev := s.dev.deferredWrite }

/-- TAG_INC. -/
def execTagInc (ag : Agent) (arg : BitVec 24) (s : State) : Host.Outcome State Fault Refusal :=
  .next { s with dev := issueCommand ag 11 0x12 arg 0xFF (tagIncCmd arg) s.dev }

/-- SVC_END. -/
def execSvcEnd (ag : Agent) (arg : BitVec 24) (s : State) : Host.Outcome State Fault Refusal :=
  .next { s with dev := issueCommand ag 11 0x13 arg 0xFF (svcEndCmd arg) s.dev }

/-- SVC_SIGNED_READING. -/
def execSvcSignedReading (q : Take) (s : State) : Host.Outcome State Fault Refusal :=
  .next { s with dev := s.dev.svcReading q.q q.checks }

/-- TAMPER_EVENT. -/
def execTamperEvent (s : State) : Host.Outcome State Fault Refusal := .next { s with dev := s.dev.tamperEvent }

end Sys2Proof.Machine
end

