-- ==== Sys2Proof/Machine/LoadSwitch.lean ====
section
/-! DEFINITION. The protected load switch channels (10_load_switches.md): owners, demand, inrush windows, retry and
backoff, thermal latch, limp-home, supply groups and load shedding. What a contactor channel's turn-off does to its
session is in Connector.lean. -/

namespace Sys2Proof.Machine

/-! ### Owners, functions and supply groups (R333, R334, R55) -/

/-- LSW_STATE.owner of a channel: slice c on LSW0 to LSW7, else the SWITCH entry. -/
def Dev.lswOwner (d : Dev) (c : Nat) : Nat := if c < 8 then c else d.switchByte (2 * (c - 8))

/-- LSW_STATE.function of a channel: CONTACTOR (0x10) on LSW0 to LSW7; GENERAL with no image. -/
def Dev.lswFunction (d : Dev) (c : Nat) : Nat :=
  if c < 8 then 0x10 else if d.img.loaded.isSome then d.switchByte (2 * (c - 8) + 1) else 0

/-- The channel has an owner, and its slice is present: others stay OFF (R333). -/
def Dev.lswOwned (d : Dev) (c : Nat) : Bool :=
  d.img.loaded.isSome && (d.lswOwner c = 0xF0 || (d.lswOwner c < 8 && d.present (d.lswOwner c)))

/-- CONTACTOR and LOCK channels, whose demand connector control drives. -/
def Dev.lswConnector (d : Dev) (c : Nat) : Bool := d.lswFunction c = 0x10 || d.lswFunction c = 4

/-- Supply group of a channel (R334). -/
def lswGroup (c : Fin 16) : Fin 4 := ⟨c.val / 4, by omega⟩

/-- The channels of a supply group, in channel order. -/
def groupChannels (g : Fin 4) : List (Fin 16) := (List.finRange 16).filter fun c => c.val / 4 = g.val

/-- Whether the supply of a channel's group is below its threshold (R352). -/
def Dev.lswUv (d : Dev) (c : Fin 16) : Bool := d.lsw.uv.getLsbD (c.val / 4)

/-- The level of a LIN input, inverted where its configuration says so. -/
def Dev.linActive (d : Dev) (lin : Nat) (inv : Bool) : Bool := d.lsw.lin.getLsbD lin != inv

/-- The limp-home mapping drives the channel's demand now (R349, R350). -/
def Dev.limpMapped (d : Dev) (c : Nat) : Bool :=
  d.lsw.limp && d.img.loaded.isSome && bit (d.reg 7 c 8) 23

/-- INRUSH or ON. -/
def LswSt.driven : LswSt → Bool
  | .inrush => true
  | .on => true
  | _ => false

/-- The codes of LSW_STATE.state. -/
def LswSt.code : LswSt → Nat
  | .off => 0
  | .inrush => 1
  | .on => 2
  | .backoff => 3
  | .latched => 4
  | .lockedOff => 5

/-- The output conducts (R348, R352): INRUSH or ON, supplied, its restart due, and its gating input active. -/
def Dev.lswOut (d : Dev) (c : Fin 16) : Bool :=
  let x := d.lsw.c[c]
  let inp := d.reg 7 c.val 8
  x.st.driven && x.restart.isNone && !d.lswUv c && !d.pwr.uvlo &&
    (!bit inp 31 || d.linActive (fld inp 26 24) (bit inp 30))

/-! ### State changes -/

/-- Enter INRUSH and start the window; a window of 0 goes straight to ON (R337). -/
def Dev.lswInrush (d : Dev) (c : Fin 16) : Dev :=
  let st : LswSt := if d.rfld 7 c.val 0 15 8 = 0 then .on else .inrush
  d.updLsw c fun x => { x with st := st, hold := false, since := d.el, onSince := d.el, restart := none }

/-- Enter OFF. -/
def Dev.lswOff (d : Dev) (c : Fin 16) : Dev := d.updLsw c fun x => { x with st := .off, hold := false, since := d.el, restart := none }

/-- Enter INRUSH if the demand is 1, and OFF otherwise (R340, R341, R345). -/
def Dev.lswResume (d : Dev) (c : Fin 16) : Dev := if d.lsw.c[c].demand then d.lswInrush c else d.lswOff c

/-- Of two waiting channels, the one whose backoff ended first, the lower number at equal ends (R342). -/
def Dev.earlier (d : Dev) (a b : Fin 16) : Fin 16 := if d.lsw.c[b].backoffEnd < d.lsw.c[a].backoffEnd then b else a

/-- The waiting channel of a group that is released first (R342). -/
def Dev.firstHeld (d : Dev) (g : Fin 4) : Option (Fin 16) :=
  ((groupChannels g).filter fun c => d.lsw.c[c].hold).foldl (fun acc c => match acc with
    | none => some c
    | some a => some (d.earlier a c)) none

/-- A channel of the group is in INRUSH. -/
def Dev.groupInrush (d : Dev) (g : Fin 4) : Bool := (groupChannels g).any fun c => d.lsw.c[c].st = .inrush

/-- Release waiting retries while the group has no channel in INRUSH (R342); at most the group's four. -/
def Dev.releaseHeld (g : Fin 4) : Nat → Dev → Dev
  | 0, d => d
  | k + 1, d =>
    if d.groupInrush g || d.lsw.uv.getLsbD g.val then d
    else
      match d.firstHeld g with
      | none => d
      | some c => Dev.releaseHeld g k (d.lswResume c)

/-- After a channel left INRUSH, its group may release a retry. -/
def Dev.lswSettle (d : Dev) (c : Fin 16) : Dev := Dev.releaseHeld (lswGroup c) 4 d

/-- The demand of a channel changes (R345). A retry that waits has its backoff behind it: with the demand 0 it is OFF. -/
def Dev.lswDemand (d : Dev) (c : Fin 16) (on : Bool) : Dev :=
  let x := d.lsw.c[c]
  let d1 := d.updLsw c fun y => { y with demand := on }
  if x.demand = on ∨ !d.lswOwned c.val then d
  else if on then (if x.st = .off then d1.lswInrush c else d1)
  else if x.st.driven then (d1.lswOff c).lswSettle c
  else if x.hold then d1.lswOff c
  else d1

/-- Connector control drives a channel's demand, unless limp-home replaces it (R349). -/
def Dev.evcDemand (d : Dev) (c : Fin 16) (on : Bool) : Dev := if d.limpMapped c.val then d else d.lswDemand c on

/-- LSWn of a slice. -/
def coil (n : Fin 8) : Fin 16 := ⟨n.val, by omega⟩

/-- The lock channels of a slice. -/
def Dev.lockChannels (d : Dev) (n : Nat) : List (Fin 16) :=
  (List.finRange 16).filter fun c => 8 ≤ c.val && d.lswOwned c.val && d.lswOwner c.val = n && d.lswFunction c.val = 4

/-! ### Protection (R338 to R344) -/

/-- The backoff after the retry count rose to `used`, in ns: base × 10 ms × 2^(used−1), at most 1 s (R341). -/
def backoffNs (base used : Nat) : Nat := min (base * ms 10 * 2 ^ (used - 1)) (sec 1)

/-- A protective turn-off with reason SHORT (1) or OVERLOAD (2) (R341). -/
def Dev.protectOff (d : Dev) (c : Fin 16) (reason : Nat) : Dev :=
  let x := d.lsw.c[c]
  let d1 := d.count 7 c.val 0x18 31 16
  let d2 :=
    if x.used < d.rfld 7 c.val 0 7 4 then
      (d1.raiseLsw (reason - 1)).updLsw c fun x =>
        { x with st := .backoff, reason := reason, used := x.used + 1, since := d.el
                 backoffEnd := d.el + backoffNs (d.rfld 7 c.val 4 7 0) (x.used + 1) }
    else (d1.updLsw c fun x => { x with st := .lockedOff, reason := reason, since := d.el }).raise 7 0x10 8 (2 ^ (reason - 1) + 8)
  d2.lswSettle c

/-- The thermal latch was entered at this very instant and the budget is exhausted: with a short or an overload together
the channel is LOCKED_OFF, whatever its temperature (R343). -/
def Dev.latchToLocked (d : Dev) (c : Fin 16) (reason : Nat) : Dev :=
  let x := d.lsw.c[c]
  if x.st = .latched ∧ x.since = d.el ∧ d.rfld 7 c.val 0 7 4 ≤ x.used then
    ((d.count 7 c.val 0x18 31 16).updLsw c fun x => { x with st := .lockedOff, reason := reason }).raise 7 0x10 8
      (2 ^ (reason - 1) + 8)
  else d

/-- A short turns a driven channel off (R339). -/
def Dev.shortOff (d : Dev) (c : Fin 16) : Dev := if d.lswOut c then d.protectOff c 1 else d.latchToLocked c 1

/-- An overload turns a channel in ON off (R338). -/
def Dev.overloadOff (d : Dev) (c : Fin 16) : Dev :=
  if d.lsw.c[c].st = .on ∧ d.lswOut c then d.protectOff c 2 else d.latchToLocked c 2

/-- Enter LATCHED with reason THERMAL. -/
def Dev.lswLatch (d : Dev) (c : Fin 16) : Dev :=
  ((d.count 7 c.val 0x18 15 0).updLsw c fun x =>
    { x with st := .latched, reason := 3, since := d.el, restart := none, tj := max x.tj 170 }).raiseLsw 2

/-- The junction reaches 170 °C: a channel in INRUSH or ON enters LATCHED (R340). So does one whose protective turn-off
came at this very instant, and its retry is not consumed (R343). -/
def Dev.thermalOff (d : Dev) (c : Fin 16) : Dev :=
  let x := d.lsw.c[c]
  if x.st.driven then (d.lswLatch c).lswSettle c
  else if x.st = .backoff ∧ x.since = d.el then (d.updLsw c fun x => { x with used := x.used - 1 }).lswLatch c
  else d

/-- THERMAL_AUTO_RELEASE (R340): Tj is below 140 °C with latch_auto 1. -/
def Dev.thermalRelease (d : Dev) (c : Fin 16) (tj : Int) : Dev :=
  let d1 := d.updLsw c fun x => { x with tj := tj }
  if d.lsw.c[c].st = .latched ∧ bit (d.reg 7 c.val 0) 3 ∧ tj < 140 then d1.lswResume c else d1

/-- INRUSH_END (R337): the window ends. -/
def Dev.inrushEnd (d : Dev) (c : Fin 16) : Dev :=
  let x := d.lsw.c[c]
  if x.st = .inrush ∧ x.restart.isNone ∧ !d.lswUv c ∧ d.after x.since (ms (d.rfld 7 c.val 0 15 8)) then
    (d.updLsw c fun x => { x with st := .on, since := d.el }).lswSettle c
  else d

/-- BACKOFF_END (R341, R342): the backoff has elapsed. -/
def Dev.backoffEnd (d : Dev) (c : Fin 16) : Dev :=
  let x := d.lsw.c[c]
  if x.st = .backoff ∧ !d.lswUv c ∧ x.backoffEnd ≤ d.el then
    if !x.demand then d.lswOff c
    else if x.hold then d
    else if d.groupInrush (lswGroup c) then d.updLsw c fun x => { x with hold := true }
    else d.lswInrush c
  else d

/-- RETRY_BUDGET_RESET (R344): 60 s in ON without interruption (undervoltage interrupts). -/
def Dev.budgetReset (d : Dev) (c : Fin 16) : Dev :=
  if d.lsw.c[c].st = .on ∧ !d.lswUv c ∧ d.after d.lsw.c[c].since (sec 60) then d.updLsw c fun x => { x with used := 0 } else d

/-! ### Supply groups, total current, limp-home -/

/-- VLSW_UNDERVOLTAGE (R352). -/
def Dev.vlswFall (d : Dev) (g : Fin 4) : Dev :=
  if d.lsw.uv.getLsbD g.val then d
  else
    let d1 := { d with lsw := { d.lsw with
      uv := d.lsw.uv ||| BitVec.ofNat 4 (2 ^ g.val), uvSince := d.lsw.uvSince.set g.val d.el g.isLt } }
    ((groupChannels g).foldl (fun (acc : Dev) c => acc.updLsw c fun x => { x with restart := none }) d1).raiseLsw 5

/-- A channel restarts in INRUSH with a full window (R352): the window began at the instant the restart was due. -/
def Dev.lswRestart (d : Dev) (c : Fin 16) (t : Nat) : Dev :=
  (d.lswInrush c).updLsw c fun x => { x with since := t, onSince := t }

/-- A restart of a channel that is due. -/
def Dev.restartOne (d : Dev) (c : Fin 16) : Dev :=
  match d.lsw.c[c].restart with
  | some t => if t ≤ d.el then d.lswRestart c t else d
  | none => d

/-- The restarts that are due (R352). -/
def Dev.restartDue (d : Dev) : Dev := (List.finRange 16).foldl (fun (acc : Dev) c => acc.restartOne c) d

/-- VLSW_RECOVER (R352): channels that were in INRUSH or ON restart in channel order, 2 ms apart; each keeps its state
until then. A backoff goes on from where its timer stopped. -/
def Dev.vlswRise (d : Dev) (g : Fin 4) : Dev :=
  if d.lsw.uv.getLsbD g.val then
    let gone := d.el - d.lsw.uvSince[g]
    let m := d.lsw.uv.toNat
    let d1 := { d with lsw := { d.lsw with uv := BitVec.ofNat 4 (m - (m &&& 2 ^ g.val)) } }
    let d2 := (groupChannels g).foldl (fun (acc : Dev) c =>
      if acc.lsw.c[c].st = .backoff then acc.updLsw c fun x => { x with backoffEnd := x.backoffEnd + gone } else acc) d1
    let up := (groupChannels g).filter fun c => d.lsw.c[c].st.driven
    let d3 := up.zipIdx.foldl (fun (acc : Dev) x => acc.updLsw x.1 fun y => { y with restart := some (d.el + ms (2 * x.2)) }) d2
    Dev.releaseHeld g 4 d3.restartDue
  else d

/-- The channels that may be shed, in the order of R353: HEATER, FAN, LIGHT, GENERAL, and within a function from the
highest channel. -/
def Dev.shedOrder (d : Dev) : List (Fin 16) :=
  [3, 2, 1, 0].flatMap fun f => ((List.finRange 16).reverse).filter fun c => d.lsw.c[c].st = .on && d.lsw.c[c].restart.isNone && d.lswFunction c.val = f

/-- LOAD_SHED (R353): the 1 s average of the total current. -/
def Dev.loadShed (d : Dev) (avg : Nat) : Dev :=
  let was := d.lsw.totalMa
  let d1 := { d with lsw := { d.lsw with totalMa := min avg 0xFFFF } }
  if avg ≤ 6000 then d1
  else
    let crossed := if was ≤ 6000 then 64 else 0
    let d2 := if was ≤ 6000 then d1.raiseLsw 6 else d1
    if was ≤ 6000 ∨ d.after d.lsw.lastShed (ms 100) then
      match d1.shedOrder with
      | [] => d2
      | c :: _ =>
        let d3 := d1.updLsw c fun x => { x with st := .off, reason := 4, demand := false, since := d.el, restart := none }
        { d3.raise 7 0x10 8 (16 + crossed) with lsw := { d3.lsw with lastShed := d.el } }
    else d2

/-- The demand of a mapped channel takes its input's level (R349). -/
def Dev.followLimp (d : Dev) (c : Fin 16) : Dev :=
  if d.limpMapped c.val then
    d.lswDemand c (d.linActive (d.rfld 7 c.val 8 18 16) (bit (d.reg 7 c.val 8) 22))
  else d

/-- Every mapped channel follows its input. -/
def Dev.followAll (d : Dev) : Dev := (List.finRange 16).foldl (fun (acc : Dev) c => acc.followLimp c) d

/-- LIMP_CHANGE (R349): an edge of the filtered LIMP input. -/
def Dev.limpChange (d : Dev) (active : Bool) : Dev :=
  if d.lsw.limp = active then d
  else (({ d with lsw := { d.lsw with limp := active } }.raiseLsw 7).logEvent .lsw 349 [w32 (b1 active)]).followAll

/-- The mapped channels that an input drives follow its edge. -/
def Dev.followInput (d : Dev) (i : Fin 8) : Dev :=
  (List.finRange 16).foldl (fun (acc : Dev) c => if acc.rfld 7 c.val 8 18 16 = i.val then acc.followLimp c else acc) d

/-- LIN_INPUT_CHANGE (R348, R349): an edge of one input turns its own channels on or off; a channel shed meanwhile stays
off until its input rises again (R353). -/
def Dev.linChange (d : Dev) (i : Fin 8) (level : Bool) : Dev :=
  let m := d.lsw.lin.toNat
  if d.lsw.lin.getLsbD i.val = level then d
  else { d with lsw := { d.lsw with lin := BitVec.ofNat 8 (m - (m &&& 2 ^ i.val) + b1 level * 2 ^ i.val) } }.followInput i

/-! ### Register writes -/

/-- A write of LSW_CFG (LSW register map); the budget of LSW0 to LSW7 stays 0 (R346). -/
def Dev.writeLswCfg (d : Dev) (c : Fin 16) (data : Word) : CmdSt × Dev :=
  let ilim := fld data 31 24
  let irush := fld data 23 16
  if ilim < 10 ∨ 100 < ilim ∨ irush < 10 ∨ 40 < irush ∨ irush * 10 < ilim ∨ 100 < fld data 15 8 then (.arg, d)
  else if d.lsw.c[c].st ≠ .off ∧ d.lsw.c[c].st ≠ .lockedOff then (.state d.lsw.c[c].st.code, d)
  else (.ok, d.setReg 7 c.val 0 (setFld (if c.val < 8 then setFld data 7 4 0 else data) 2 0 0))

/-- A write of LSW_RETRY: base 1 to 100. -/
def Dev.writeLswRetry (d : Dev) (c : Fin 16) (data : Word) : CmdSt × Dev :=
  if fld data 7 0 = 0 ∨ 100 < fld data 7 0 then (.arg, d) else (.ok, d.setReg 7 c.val 4 (w32 (fld data 7 0)))

/-- A write of LSW_INPUT (R347): gate_en cannot be set on CONTACTOR and LOCK channels. -/
def Dev.writeLswInput (d : Dev) (c : Fin 16) (data : Word) : CmdSt × Dev :=
  if bit data 31 ∧ d.lswConnector c.val then (.arg, d)
  else
    let w := w32 (data.toNat &&& 0xC7C70000)
    let d1 := d.setReg 7 c.val 8 w
    (.ok, if w = d.reg 7 c.val 8 then d1 else d1.followLimp c)

/-- LSW_STATE. -/
def Dev.readLswState (d : Dev) (c : Fin 16) : Word :=
  let x := d.lsw.c[c]
  packW [(4, x.st.code), (4, x.reason), (4, x.used), (1, b1 x.demand), (1, b1 x.hold), (1, b1 (d.lswOut c)),
         (1, b1 (d.limpMapped c.val)), (8, if d.img.loaded.isSome then d.lswOwner c.val else 0xFF), (8, if d.img.loaded.isSome then d.lswFunction c.val else 0)]

/-- LSW_MEAS. -/
def Dev.readLswMeas (d : Dev) (c : Fin 16) : Word :=
  packW [(16, min d.lsw.c[c].ma 0xFFFF), (8, (d.lsw.c[c].tj + 40).toNat), (8, 0)]

/-- LSW_STATUS. -/
def Dev.readLswStatus (d : Dev) : Word :=
  packW [(1, b1 d.lsw.limp), (3, 0), (4, d.lsw.uv.toNat), (8, 0), (16, d.lsw.totalMa)]

/-! ### Commands (R355) -/

/-- The checks of R355 that every LSW command shares: [15:0] is 0, channel, owner, and the state its target shows. -/
def lswCommand (arg : BitVec 24) (h : Fin 16 → Dev → CmdSt × Dev) (d : Dev) : CmdSt × Dev :=
  if argBits arg 15 0 ≠ 0 then (.arg, d)
  else if hc : argUnit arg < 16 then
    let c : Fin 16 := ⟨argUnit arg, hc⟩
    if d.lswOwned c.val then h c d else (.state d.lsw.c[c].st.code, d)
  else (.arg, d)

/-- A channel an agent may switch: not CONTACTOR or LOCK, not limp-mapped now (R347, R349). -/
def Dev.lswFree (d : Dev) (c : Fin 16) : Bool := !d.lswConnector c.val && !d.limpMapped c.val

/-- SW_ON. -/
def swOnCmd (c : Fin 16) (d : Dev) : CmdSt × Dev :=
  let st := d.lsw.c[c].st
  if d.lswFree c ∧ (st = .off ∨ st = .backoff ∨ st = .latched) then (.ok, d.lswDemand c true) else (.state st.code, d)

/-- SW_OFF. -/
def swOffCmd (c : Fin 16) (d : Dev) : CmdSt × Dev :=
  if d.lswFree c ∧ d.lsw.c[c].st ≠ .off then (.ok, d.lswDemand c false) else (.state d.lsw.c[c].st.code, d)

/-- SW_RELEASE of a CONTACTOR or LOCK channel needs its slice's session IDLE, FINISHED or FAULT (R347). -/
def Dev.releaseAllowed (d : Dev) (c : Fin 16) : Bool :=
  !d.lswConnector c.val ||
    (match d.evc.s[d.lswOwner c.val]? with
     | some x => x.st = .idle || x.st = .finished || x.st = .fault
     | none => true)

/-- SW_RELEASE (R340, R345). -/
def swReleaseCmd (c : Fin 16) (d : Dev) : CmdSt × Dev :=
  let x := d.lsw.c[c]
  if !d.releaseAllowed c then (.state x.st.code, d)
  else if x.st = .latched ∧ x.tj < 140 then (.ok, d.lswResume c)
  else if x.st = .lockedOff then
    let d1 := d.updLsw c fun x => { x with used := 0 }
    if 140 ≤ x.tj then (.ok, (d1.updLsw c fun x => { x with st := .latched, reason := 3, since := d.el }).raiseLsw 2)
    else (.ok, d1.lswResume c)
  else (.state x.st.code, d)

/-! ### The commands of the table -/

/-- SW_ON. -/
def execSwOn (ag : Agent) (arg : BitVec 24) (s : State) : Host.Outcome State Fault Refusal :=
  .next { s with dev := issueCommand ag 7 0x10 arg (argUnit arg) (lswCommand arg swOnCmd) s.dev }

/-- SW_OFF. -/
def execSwOff (ag : Agent) (arg : BitVec 24) (s : State) : Host.Outcome State Fault Refusal :=
  .next { s with dev := issueCommand ag 7 0x11 arg (argUnit arg) (lswCommand arg swOffCmd) s.dev }

/-- SW_RELEASE. -/
def execSwRelease (ag : Agent) (arg : BitVec 24) (s : State) : Host.Outcome State Fault Refusal :=
  .next { s with dev := issueCommand ag 7 0x12 arg (argUnit arg) (lswCommand arg swReleaseCmd) s.dev }

/-- INRUSH_END. -/
def execInrushEnd (c : Fin 16) (s : State) : Host.Outcome State Fault Refusal := .next { s with dev := s.dev.inrushEnd c }

/-- THERMAL_AUTO_RELEASE. -/
def execThermalAutoRelease (c : Fin 16) (tj : Int) (s : State) : Host.Outcome State Fault Refusal :=
  .next { s with dev := s.dev.thermalRelease c tj }

/-- BACKOFF_END. -/
def execBackoffEnd (c : Fin 16) (s : State) : Host.Outcome State Fault Refusal := .next { s with dev := s.dev.backoffEnd c }

/-- RETRY_BUDGET_RESET. -/
def execRetryBudgetReset (c : Fin 16) (s : State) : Host.Outcome State Fault Refusal :=
  .next { s with dev := s.dev.budgetReset c }

/-- VLSW_UNDERVOLTAGE. -/
def execVlswUndervoltage (g : Fin 4) (s : State) : Host.Outcome State Fault Refusal := .next { s with dev := s.dev.vlswFall g }

/-- VLSW_RECOVER. -/
def execVlswRecover (g : Fin 4) (s : State) : Host.Outcome State Fault Refusal := .next { s with dev := s.dev.vlswRise g }

/-- LOAD_SHED. -/
def execLoadShed (avgMa : Nat) (s : State) : Host.Outcome State Fault Refusal := .next { s with dev := s.dev.loadShed avgMa }

/-- LIMP_CHANGE. -/
def execLimpChange (active : Bool) (s : State) : Host.Outcome State Fault Refusal :=
  .next { s with dev := s.dev.limpChange active }

/-- LIN_INPUT_CHANGE. -/
def execLinInputChange (i : Fin 8) (level : Bool) (s : State) : Host.Outcome State Fault Refusal :=
  .next { s with dev := s.dev.linChange i level }

end Sys2Proof.Machine
end

