-- ==== Sys2Proof/Machine/Kaolin.lean ====
section
/-! DEFINITION. The Kaolin safety logic (09_kaolin.md): sources and their actions, close permission, the heartbeat,
the cross-check, residual and insulation tests, the confirmation cell and the commands of KAO. What a trip, a refusal
or a feedback change does to a session is in Connector.lean; the check of a KAOLIN section is in KaolinSection.lean. -/

namespace Sys2Proof.Machine

/-! ### Parameters in use (R305, R307) -/

/-- Byte `i` of the slice block in use. -/
def Dev.kaoByte (d : Dev) (n : Fin 8) (i : Nat) : Nat := d.kao.m[n].block.getD i 0

/-- The 16-bit field at byte `i` of the slice block in use. -/
def Dev.kao16 (d : Dev) (n : Fin 8) (i : Nat) : Nat := d.kaoByte n i + 256 * d.kaoByte n (i + 1)

/-- The filter of a source in ns: 0.2 ms steps (R299). -/
def Dev.kaoFilter (d : Dev) (n : Fin 8) (s : Nat) : Nat := d.kaoByte n (0x0C + s) * 200000

/-- The action of a source: NONE (0), TRIP (1), LOCK (2), UPSTREAM (3) (R300). -/
def Dev.kaoAction (d : Dev) (n : Fin 8) (s : Nat) : Nat := d.kaoByte n (0x1C + s)

/-- Byte `i` of the common part in use. -/
def Dev.kaoCommon (d : Dev) (i : Nat) : Nat := d.kao.common.getD i 0

/-- The codes of KAO_STATE.state (R314). -/
def KaoSt.code : KaoSt → Nat
  | .unconfirmed => 0
  | .armed => 1
  | .tripped => 2
  | .lockout => 3

/-- A source is active. -/
def KaoSlice.isActive (x : KaoSlice) (s : Nat) : Bool := x.active.getLsbD s

/-- Source 0 or 1 has an action other than NONE. -/
def Dev.resUsed (d : Dev) (n : Fin 8) : Bool := d.kaoAction n 0 ≠ 0 || d.kaoAction n 1 ≠ 0

/-! ### The confirmation cell (R312) -/

/-- Copy B is the one in force: valid, and newer than copy A where that is valid too. -/
def KaoState.cellIsB (k : KaoState) : Bool := k.cellB.valid && (!k.cellA.valid || decide (k.cellA.seq < k.cellB.seq))

/-- The content in force: the valid copy with the higher sequence number. -/
def Dev.cell (d : Dev) : KaoCell := if d.kao.cellIsB then d.kao.cellB else d.kao.cellA

/-- Replace the copy that is not in force. -/
def KaoState.putOlder (k : KaoState) (c : KaoCell) : KaoState :=
  if k.cellIsB then { k with cellA := c } else { k with cellB := c }

/-- Write the older copy with sequence + 1; only when it is verified is it marked valid, and comes into force. -/
def Dev.writeCell (d : Dev) (f : KaoCell → KaoCell) : Dev :=
  let c := { f d.cell with seq := d.cell.seq + 1, valid := false }
  (d.modKao fun k => k.putOlder c).modKao fun k => k.putOlder { c with valid := true }

/-- Set bits of a slice mask. -/
def orMask (m : Byte) (k : Nat) : Byte := m ||| BitVec.ofNat 8 k

/-- Clear the bit of slice `n`. -/
def clearSlice (m : Byte) (n : Nat) : Byte := m &&& ~~~ (BitVec.ofNat 8 (2 ^ n))

/-! ### SAFE_OK (R303) -/

/-- SAFE_OK is high. -/
def Dev.safeOk (d : Dev) : Bool := d.kao.internal = 0 && d.kao.selfTest && d.cell.upstream = 0

/-- A fall of SAFE_OK sets its flag. -/
def Dev.watchSafe (d : Dev) (f : Dev → Dev) : Dev :=
  d.oneEvent fun d =>
    let d1 := f d
    if d.safeOk && !d1.safeOk then d1.raiseKao 10 else d1

/-! ### Messages (R329, R330) -/

/-- The lowest-numbered C0 queue of slice machine n. -/
def Dev.kaoQueue (d : Dev) (n : Nat) : Option (Fin 64) := d.findQueue fun e => e.prod = 0x30 + n && e.cls = 0

/-- A slice machine writes a message; with no room it keeps its oldest one and discards newer ones. -/
def Dev.kaoSend (d : Dev) (n : Fin 8) (ws : List QData) : Dev :=
  match d.kaoQueue n.val with
  | none => d
  | some q =>
    if d.kao.m[n].kept.isSome then d.raiseKao 11
    else if d.que.q[q].room ws.length then d.commit q ws
    else (d.raiseQue q.val 1).updKao n fun x => { x with kept := some ws }

/-- A kept message finds room. -/
def Dev.kaoFlush (d : Dev) (n : Fin 8) (q : Fin 64) : Dev :=
  match d.kao.m[n].kept with
  | some ws => if d.que.q[q].room ws.length then (d.updKao n fun x => { x with kept := none }).commit q ws else d
  | none => d

/-- A KAO_TRIP message. -/
def kaoTripMsg (n now src act detail st : Nat) (test : Bool) (esc : Nat) : List QData :=
  mkMsg 0x40 (0x30 + n) n 0
    [BitVec.ofNat 64 now, packQ [(8, src), (8, act), (8, detail), (8, st), (8, b1 test), (8, esc), (16, 0)]]

/-- A KAO_STATE message. -/
def Dev.sendKaoState (d : Dev) (n : Fin 8) (old new : KaoSt) (cause : Nat) : Dev :=
  d.kaoSend n (mkMsg 0x41 (0x30 + n.val) n.val 0
    [BitVec.ofNat 64 d.tim.now, packQ [(8, old.code), (8, new.code), (8, cause), (40, 0)]])

/-! ### KENn and the rearm conditions (R296, R315) -/

/-- KENn releases: a closed one opens a release window. One whose close request came at this very instant has never
closed (R318). -/
def Dev.kenRelease (d : Dev) (n : Fin 8) : Dev :=
  if d.kao.m[n].ken then
    d.updKao n fun x => { x with ken := false, window := if x.reqAt = some d.el then x.window else some d.el }
  else d

/-- No source of the slice whose action is not NONE is active. -/
def Dev.noActive (d : Dev) (n : Fin 8) : Bool :=
  (List.range 16).all fun s => !(d.kao.m[n].isActive s && d.kaoAction n s ≠ 0)

/-- The rearm conditions of R315. -/
def Dev.rearmOk (d : Dev) (n : Fin 8) : Bool :=
  let x := d.kao.m[n]
  d.noActive n && !x.req && !x.fb && x.window.isNone && !x.isActive 14

/-- Follow the rearm conditions of a slice: the rearm time starts when they begin to hold. -/
def Dev.rearmTrack (d : Dev) (n : Fin 8) : Dev :=
  let t := if d.rearmOk n then (d.kao.m[n].rearmSince).orElse fun _ => some d.el else none
  d.updKao n fun x => { x with rearmSince := t }

/-- A TRIP_TEST of the slice is PENDING: it completes OK when the machine leaves ARMED (R331). -/
def Dev.endTripTest (d : Dev) (n : Fin 8) : Dev :=
  if d.busy.any fun b => b.group = .kao && b.opcode = 0x13 && argUnit b.arg = n.val then d.endCommand 6 .ok else d

/-- A RES_TEST of the slice is PENDING: it completes OK when the test ends. -/
def Dev.endResTest (d : Dev) (n : Fin 8) : Dev :=
  if d.busy.any fun b => b.group = .kao && b.opcode = 0x12 && argUnit b.arg = n.val then d.endCommand 6 .ok else d

/-- The machine enters ARMED: the latched half clears but for what is still active (R315; log entry 26, DEDUCED). -/
def Dev.enterArmed (d : Dev) (n : Fin 8) : Dev :=
  (d.updKao n fun x => { x with st := .armed, latched := x.active }).raiseKao 2

/-- The machine enters LOCKOUT: its lockout bit is set, with the upstream bit for UPSTREAM. -/
def Dev.enterLockout (d : Dev) (n : Fin 8) (upstream : Bool) : Dev :=
  ((d.updKao n fun x => { x with st := .lockout }).writeCell fun c =>
    { c with lockout := orMask c.lockout (2 ^ n.val)
             upstream := if upstream then orMask c.upstream (2 ^ n.val) else c.upstream }).raiseKao 1

/-- Connector control sees a trip of the slice at its next control cycle (R318, R268). -/
def Dev.markTrip (d : Dev) (n : Fin 8) : Dev := d.updEvc n fun x => { x with tripSeen := true }

/-! ### Trips (R300 to R302) -/

/-- KAO_TRIPS of the slice counts, in the cell. -/
def Dev.countTrip (d : Dev) (n : Fin 8) : Dev :=
  d.writeCell fun c => { c with trips := c.trips.set n.val (satAdd 32 c.trips[n] 1) n.isLt }

/-- A TRIP-action trip enters the escalation count (R302). -/
def Dev.escalate (d : Dev) (n : Fin 8) : Dev :=
  d.updKao n fun x => { x with escCount := min (x.escCount + 1) 255, escSince := if x.escCount = 0 then d.el else x.escSince }

/-- The machine trips on a source with an action, to a new state. -/
def Dev.trip (d : Dev) (n : Fin 8) (s act detail : Nat) (test toLockout : Bool) : Dev :=
  let wasArmed := d.kao.m[n].st = .armed
  let d1 := ((d.kenRelease n).countTrip n).updKao n fun x =>
    { x with tripSource := s, tripAction := act, tripDetail := detail, tripTest := test, tripAt := some d.el
             refuse := if x.req ∧ x.reqAt = some d.el then 2 else x.refuse }
  let d2 := if toLockout then d1.enterLockout n (act = 3) else d1.updKao n fun x => { x with st := .tripped }
  let d3 := if wasArmed then (d2.raiseKao 0).endTripTest n else d2
  (d3.markTrip n).kaoSend n
    (kaoTripMsg n.val d.tim.now s act detail (d3.kao.m[n].st).code test d3.kao.m[n].escCount)

/-- A source becomes active together with the one that tripped the machine (R301): where its action is stronger, or
equal with a lower number, the record takes it, and the machine goes on to LOCKOUT with no second trip counted. -/
def Dev.joinTrip (d : Dev) (n : Fin 8) (s act detail : Nat) : Dev :=
  let x := d.kao.m[n]
  if act < x.tripAction ∨ (act = x.tripAction ∧ x.tripSource ≤ s) then d
  else
    let counted := x.tripAction = 1 ∧ 2 ≤ act ∧ !x.tripTest ∧ d.kaoCommon 1 ≠ 0
    let d1 := d.updKao n fun x =>
      { x with
        tripSource := s, tripAction := act, tripDetail := detail
        escCount := if counted then x.escCount - 1 else x.escCount }
    if act < 2 then d1
    else if x.st = .tripped then d1.enterLockout n (act = 3)
    else if act = 3 then d1.writeCell fun c => { c with upstream := orMask c.upstream (2 ^ n.val) }
    else d1

/-- The machine's last trip came at this very instant. -/
def Dev.tripsNow (d : Dev) (n : Fin 8) : Bool :=
  d.kao.m[n].tripAt = some d.el && (d.kao.m[n].st = .tripped || d.kao.m[n].st = .lockout)

/-- The action of a source that has become active (R300 to R302, R314). -/
def Dev.sourceAction (d : Dev) (n : Fin 8) (s detail : Nat) : Dev :=
  let act := d.kaoAction n s
  if act ≠ 0 ∧ d.tripsNow n then d.joinTrip n s act detail
  else
  let test := (d.kao.m[n].force.map (·.1)) = some s
  match d.kao.m[n].st with
  | .unconfirmed => d
  | .armed =>
    if act = 0 then d
    else if act = 1 then
      let limit := d.kaoCommon 1
      if limit = 0 ∨ test then d.trip n s act detail test false
      else
        let d1 := d.escalate n
        d1.trip n s act detail test (decide (limit ≤ d1.kao.m[n].escCount))
    else d.trip n s act detail test true
  | .tripped => if 2 ≤ act then d.trip n s act detail test true else d
  | .lockout => if act = 3 then d.writeCell fun c => { c with upstream := orMask c.upstream (2 ^ n.val) } else d

/-- A source becomes active (R299 to R302); an absent slice has no sources. -/
def Dev.sourceActive (d : Dev) (n : Fin 8) (s : Fin 16) (detail : Nat) : Dev :=
  if !d.present n.val ∨ s.val = 15 ∨ d.kao.m[n].isActive s.val then d
  else
    d.watchSafe fun d =>
      let m := BitVec.ofNat 16 (2 ^ s.val)
      let d1 := d.updKao n fun x => { x with active := x.active ||| m, latched := x.latched ||| m }
      let d2 := if s.val = 12 then d1.raiseKao 6 else d1
      (d2.sourceAction n s.val detail).rearmTrack n

/-- A source becomes inactive (R299). -/
def Dev.sourceInactive (d : Dev) (n : Fin 8) (s : Fin 16) : Dev :=
  (d.updKao n fun x => { x with active := x.active &&& ~~~ (BitVec.ofNat 16 (2 ^ s.val)) }).rearmTrack n

/-- The charge of a source's filter now: it rises while the raw condition holds and falls at the same rate while it does
not, between 0 and F (R299). -/
def Dev.chargeNow (d : Dev) (n : Fin 8) (s : Fin 16) : Nat :=
  let x := d.kao.m[n]
  let run := d.el - x.chargeAt[s]
  if x.raw.getLsbD s.val then min (d.kaoFilter n s.val) (x.charge[s] + run) else x.charge[s] - run

/-- The raw condition of a source from now on. -/
def Dev.setRaw (d : Dev) (n : Fin 8) (s : Fin 16) (on : Bool) : Dev :=
  let k := d.chargeNow n s
  let m := BitVec.ofNat 16 (2 ^ s.val)
  d.updKao n fun x =>
    { x with raw := if on then x.raw ||| m else x.raw &&& ~~~m
             charge := x.charge.set s.val k s.isLt, chargeAt := x.chargeAt.set s.val d.el s.isLt }

/-- The charge of a source's filter is given: full at the moment the source became active, 0 when inactive. -/
def Dev.setCharge (d : Dev) (n : Fin 8) (s : Fin 16) (k : Nat) : Dev :=
  d.updKao n fun x =>
    { x with charge := x.charge.set s.val k s.isLt, chargeAt := x.chargeAt.set s.val d.el s.isLt }

/-- The charge has reached F, within the tolerance of R325. -/
def Dev.charged (d : Dev) (n : Fin 8) (s : Fin 16) : Bool := decide (9 * d.kaoFilter n s.val ≤ 10 * d.chargeNow n s)

/-- The charge has returned to 0, within the tolerance of R325. -/
def Dev.discharged (d : Dev) (n : Fin 8) (s : Fin 16) : Bool := decide (10 * d.chargeNow n s ≤ d.kaoFilter n s.val)

/-- A raw condition changes: with no filter the source follows it at once (R299). -/
def Dev.rawChange (d : Dev) (n : Fin 8) (s : Fin 16) (on : Bool) : Dev :=
  let d1 := d.setRaw n s on
  if d.kaoFilter n s.val ≠ 0 then d1 else if on then d1.sourceActive n s 0 else d1.sourceInactive n s

/-- The pilot high level lies in the band of pilot_band (R289). -/
def Dev.pilotInBand (d : Dev) (n : Fin 8) : Bool :=
  let mv := d.evc.s[n].highMv
  decide ((if d.kaoByte n 0x2C = 1 then (1500 : Int) else 4500) ≤ mv) && decide (mv < 7500)

/-- A high level lies in the hold band: the B band, and the D band with C_ONLY (R289). -/
def holdBand (band : Nat) (mv : Int) : Bool :=
  (decide (7500 ≤ mv) && decide (mv < 10500)) || (band = 0 && decide (1500 ≤ mv) && decide (mv < 4500))

/-- The raw condition of PILOT (R288, R289): a level outside both bands, or one that has stayed in the hold band for the
hold time, at least 135 ms, with KENn closed. The level is the last one measured (log entry 109, DEDUCED). -/
def Dev.pilotRaw (d : Dev) (n : Fin 8) : Bool :=
  let x := d.kao.m[n]
  if d.pilotInBand n then false
  else if holdBand (d.kaoByte n 0x2C) d.evc.s[n].highMv then
    x.ken && (match d.evc.s[n].holdSince with
      | some t => d.after t (ms 135)
      | none => false)
  else x.req || x.ken

/-- Whether the raw condition of a source can hold, by what the state shows (R288, R293, R298): WELD, HEARTBEAT and
XCHECK follow their own rules, and residual sources do not act during a test. -/
def Dev.rawPossible (d : Dev) (n : Fin 8) (s : Nat) : Bool :=
  let x := d.kao.m[n]
  if s = 0 ∨ s = 1 then !x.resRunning
  else if s = 3 then d.pilotRaw n
  else if s = 4 then x.ken && !x.fb && d.lsw.c[n.val].st.driven && d.after d.lsw.c[n.val].onSince (ms 300)
  else if s = 5 ∨ s = 11 ∨ s = 12 ∨ s = 15 then false
  else if s = 6 then x.imdAlarm
  else if s = 7 then d.kaoByte n 1 = 0 && (d.kind n.val).isDc
  else if s = 8 then d.kaoCommon 4 = 1 && nbit (d.kaoCommon 6) n.val
  else if s = 9 then d.kaoCommon 16 = 1 && nbit (d.kaoCommon 18) n.val
  else true

/-- What a source event shows beside the source: the level of ESTOP_N (KAO_STATUS.estop) and the IMD_FAULT condition
(KAO_IMD.fault). -/
def Dev.showSource (d : Dev) (n : Fin 8) (s : Fin 16) (on : Bool) : Dev :=
  if s.val = 10 then d.modKao fun k => { k with estop := on }
  else if s.val = 7 then d.updKao n fun x => { x with imdFault := on && d.rawPossible n 7 }
  else d

/-- A source becomes active with its filter full. -/
def Dev.filterRises (d : Dev) (n : Fin 8) (s : Fin 16) : Dev :=
  ((d.setRaw n s true).setCharge n s (d.kaoFilter n s.val)).sourceActive n s 0

/-- The filter of a source reaches F: one whose raw condition is known needs the charge for it, for another the event
itself says so (R299; log entry 110, DEDUCED). -/
def Dev.filterFull (d : Dev) (n : Fin 8) (s : Fin 16) : Dev :=
  if d.kao.m[n].raw.getLsbD s.val then (if d.charged n s then d.sourceActive n s 0 else d)
  else d.filterRises n s

/-- ESTOP_N is one input of every non-absent slice: those with no filter follow it at the same moment, the others
charge from now on (R297). -/
def Dev.estopOthers (d : Dev) (n : Fin 8) (on : Bool) : Dev :=
  slices.foldl (fun (acc : Dev) (m : Fin 8) =>
    if m ≠ n ∧ acc.present m.val ∧ acc.kao.m[m].raw.getLsbD 10 ≠ on then acc.rawChange m 10 on else acc) d

/-- KAOLIN_SOURCE_ACTIVE: a forced source needs 0.9 F since its TRIP_TEST (R325). -/
def Dev.kaolinActive (d : Dev) (n : Fin 8) (s : Fin 16) : Dev :=
  let d0 := d.showSource n s true
  let d1 := if s.val = 10 ∧ d.present n.val then d0.estopOthers n true else d0
  match d.kao.m[n].force with
  | some (f, t) =>
    if f = s.val then (if d.after t (d.kaoFilter n s.val * 9 / 10) then d1.filterRises n s else d1)
    else if d.rawPossible n s.val then d1.filterFull n s else d1
  | none => if d.rawPossible n s.val then d1.filterFull n s else d1

/-- A source whose end has a rule of its own: WELD, HEARTBEAT, XCHECK, RES_SENSOR after a failed test (R293), and a
forced source. -/
def Dev.endsByRule (d : Dev) (n : Fin 8) (s : Nat) : Bool :=
  s = 5 || s = 11 || s = 12 || (s = 2 && d.kao.m[n].resFail) || (d.kao.m[n].force.map (·.1)) = some s

/-- The filter of a source returns to 0: one whose raw condition is known to have ended needs the time for it. -/
def Dev.filterEmpty (d : Dev) (n : Fin 8) (s : Fin 16) : Dev :=
  if d.kao.m[n].raw.getLsbD s.val then ((d.setRaw n s false).setCharge n s 0).sourceInactive n s
  else if d.discharged n s then d.sourceInactive n s else d

/-- KAOLIN_SOURCE_INACTIVE. -/
def Dev.kaolinInactive (d : Dev) (n : Fin 8) (s : Fin 16) : Dev :=
  if d.endsByRule n s.val then d.showSource n s false
  else
    let d0 := d.showSource n s false
    (if s.val = 10 ∧ d.present n.val then d0.estopOthers n false else d0).filterEmpty n s

/-! ### Close permission (R316, R317) -/

/-- The first condition of R316 that fails, 0 for none. -/
def Dev.closeRefusal (d : Dev) (n : Fin 8) : Nat :=
  let x := d.kao.m[n]
  if x.st ≠ .armed then (if d.tripsNow n then 2 else 1)
  else if !d.noActive n then 2
  else if x.fb then 3
  else if d.resUsed n && !x.resValid then 4
  else if d.kao.hbLost then 5
  else if !d.pilotInBand n then 6
  else 0

/-- A close request becomes present (R294, R296, R316): the answer tells whether KENn closes. Happenings of one instant
reach the arbiter in the order of the queue; a trip of the same instant goes first (R318; log entry 111, DEDUCED). -/
def Dev.kaoRequest (d : Dev) (n : Fin 8) : Bool × Dev :=
  let d1 := (d.updKao n fun x => { x with req := true, reqAt := some d.el, resRunning := false }).endResTest n
  let r := d1.closeRefusal n
  if r = 0 ∧ !d.pwr.uvlo then
    (true, (d1.updKao n fun x => { x with ken := true, xBypOk := false }).rearmTrack n)
  else
    let d2 := if d1.kao.m[n].fb then d1.sourceActive n 5 0 else d1
    (false, (d2.updKao n fun x => { x with refuse := if r = 0 then x.refuse else r }).rearmTrack n)

/-- The close request is withdrawn (R284). -/
def Dev.kaoWithdraw (d : Dev) (n : Fin 8) : Dev :=
  ((d.updKao n fun x => { x with req := false }).kenRelease n).rearmTrack n

/-- The feedback input changes, as Kaolin sees it (R296). -/
def Dev.kaoFeedback (d : Dev) (n : Fin 8) (closed : Bool) : Dev :=
  let d1 := d.updKao n fun x => { x with fb := closed, xBypOk := x.xBypOk && !closed }
  (if closed then d1 else if d1.kao.m[n].isActive 5 then d1.sourceInactive n 5 else d1).rearmTrack n

/-- RELEASE_WINDOW_END (R285, R296): 105 cycles, at least 100.4 ms. -/
def Dev.windowEnd (d : Dev) (n : Fin 8) : Dev :=
  match d.kao.m[n].window with
  | some t =>
    if d.after t 100400000 then
      let d1 := d.updKao n fun x => { x with window := none }
      (if d1.kao.m[n].fb then d1.sourceActive n 5 0 else d1).rearmTrack n
    else d
  | none => d

/-- REARM (R315): the rearm conditions have held for the rearm time, at least 0.9 of it. -/
def Dev.rearm (d : Dev) (n : Fin 8) : Dev :=
  match d.kao.m[n].rearmSince with
  | some t =>
    if d.kao.m[n].st = .tripped ∧ d.rearmOk n ∧ d.after t (ms 90 * d.kaoByte n 0x2D) then
      (d.enterArmed n).sendKaoState n .tripped .armed 2
    else d
  | none => d

/-! ### Heartbeat (R319 to R322) -/

/-- The non-absent slices. -/
def Dev.kaoSlices (d : Dev) : List (Fin 8) := slices.filter fun n => d.present n.val

/-- Every non-absent machine reports a change of the heartbeat with its state. -/
def Dev.hbMessages (d : Dev) (cause : Nat) : Dev :=
  (d.kaoSlices).foldl (fun (acc : Dev) n => acc.sendKaoState n (acc.kao.m[n].st) (acc.kao.m[n].st) cause) d

/-- The check field of KAO_HB is correct (R319). -/
def hbCheckOk (w : Word) : Bool := fld w 7 0 = Nat.xor (Nat.xor (fld w 23 16) (fld w 15 8)) 0xFF

/-- Cause of an active cross-check, 0 for none (R323). -/
def KaoSlice.xCause (x : KaoSlice) : Nat :=
  if 2 ≤ x.xDiag then 1 else if 2 ≤ x.xRes then 2 else if 2 ≤ x.xByp then 3 else if 2 ≤ x.xSess then 4 else 0

/-- XCHECK follows the causes of a slice. -/
def Dev.xcheckFollow (d : Dev) (n : Fin 8) : Dev :=
  let c := d.kao.m[n].xCause
  if c ≠ 0 then d.sourceActive n 12 c
  else if d.kao.m[n].isActive 12 then d.sourceInactive n 12 else d

/-- The heartbeat is restored (R322). -/
def Dev.hbRestore (d : Dev) : Dev :=
  let d1 := d.modKao fun k => { k with hbLost := false, grace := none }
  let d2 := slices.foldl (fun (acc : Dev) n => acc.sourceInactive n 11) d1
  (d2.raiseKao 4).hbMessages 6

/-- One accepted beat enters the diagnosis history of a slice (R323 CORE_DIAG). -/
def Dev.diagBeat (d : Dev) (diag : Nat) (n : Fin 8) : Dev :=
  (d.updKao n fun x => { x with xDiag := if nbit diag n.val then 0 else min (x.xDiag + 1) 2 }).xcheckFollow n

/-- The accepted beats in a row, with one more: they are at most 10 ms apart (R322). -/
def Dev.beatRun (d : Dev) : Nat := if d.el ≤ d.kao.hbLast + ms 10 then d.kao.hbRun + 1 else 1

/-- A beat is accepted (R319). -/
def Dev.acceptBeat (d : Dev) (w : Word) : Dev :=
  d.modKao fun k =>
    { k with hbCount := BitVec.ofNat 16 (fld w 31 16), hbDiag := BitVec.ofNat 8 (fld w 15 8), hbLast := d.el
             hbRun := min d.beatRun 3 }

/-- The heartbeat is lost: the count of losses, the grace time where one is set, and the diagnosis history (R321). -/
def Dev.loseBeat (d : Dev) : Dev :=
  slices.foldl (fun (acc : Dev) n => acc.updKao n fun x => { x with xDiag := 0 }) (d.modKao fun k =>
    { k with hbLost := true, hbRun := 0, hbLosses := min (k.hbLosses + 1) 255
             grace := if d.kaoCommon 0 = 1 then some d.el else none })

/-- HEARTBEAT_LOST (R321): no beat was accepted for 18 ms. -/
def Dev.heartbeatLost (d : Dev) : Dev :=
  if !d.kao.hbLost && d.after d.kao.hbLast (ms 18) then
    let d1 := (d.loseBeat.raiseKao 3).hbMessages 5
    if d.kaoCommon 0 = 1 then d1 else d1.kaoSlices.foldl (fun (acc : Dev) n => acc.sourceActive n 11 0) d1
  else d

/-- One machine at the end of the grace time: HEARTBEAT becomes active, and the machine reports. -/
def Dev.graceSlice (d : Dev) (n : Fin 8) : Dev :=
  let old := d.kao.m[n].st
  let d1 := d.sourceActive n 11 0
  d1.sendKaoState n old d1.kao.m[n].st 7

/-- GRACE_END (R321): hb_grace has elapsed, at least 0.9 of it. -/
def Dev.graceEnd (d : Dev) : Dev :=
  match d.kao.grace with
  | some t =>
    if d.kao.hbLost && d.after t ((d.kaoCommon 2 + 256 * d.kaoCommon 3) * ms 900) then
      let d1 := d.modKao fun k => { k with grace := none }
      (d1.kaoSlices).foldl (fun (acc : Dev) n => acc.graceSlice n) d1
    else d
  | none => d

/-- A grace time that is over by every tolerance ends before the heartbeat is restored (R318). -/
def Dev.graceFirst (d : Dev) : Dev :=
  match d.kao.grace with
  | some t => if d.after t ((d.kaoCommon 2 + 256 * d.kaoCommon 3) * ms 1100) then d.graceEnd else d
  | none => d

/-- HEARTBEAT_POLL (R319): A5 reads KAO_HB and accepts a beat with a correct check and a new count. -/
def Dev.heartbeatPoll (d : Dev) : Dev :=
  let w := d.reg 6 9 0
  if hbCheckOk w ∧ fld w 31 16 ≠ d.kao.hbCount.toNat then
    if d.kao.hbLost then (if 3 ≤ d.beatRun then (d.graceFirst.acceptBeat w).hbRestore else d.acceptBeat w)
    else slices.foldl (fun (acc : Dev) n => acc.diagBeat (fld w 15 8) n) (d.acceptBeat w)
  else d

/-- A write of KAO_HB (R319): only A1's. -/
def Dev.writeHb (d : Dev) (ag : Agent) (data : Word) : CmdSt × Dev :=
  if ag = .core then (.ok, d.setReg 6 9 0 data) else (.perm, d)

/-! ### Cross-check (R323) -/

/-- The residual current of the slice as metrology last published it, in µA. -/
def Dev.iresRms (d : Dev) (n : Fin 8) : Nat := (d.reg 3 (0x40 + (7 * n.val + 6)) 0x18).toNat

/-- A current channel of the slice in role IA, IB or IC carries more than 1 A. -/
def Dev.phaseCurrent (d : Dev) (n : Fin 8) : Bool :=
  (List.finRange 64).any fun c =>
    (d.chan c.val).1 = n.val && 3 ≤ (d.chan c.val).2 && (d.chan c.val).2 ≤ 5 && 1000000 < (d.reg 3 (0x40 + c.val) 0x18).toNat

/-- The session state under which KENn may be closed. -/
def Sess.mayClose : Sess → Bool
  | .energizing => true
  | .charging => true
  | .stopping => true
  | _ => false

/-- The results of a new metrology period enter the histories of RES_PATH and BYPASS. -/
def Dev.xcheckPeriod (d : Dev) (n : Fin 8) : Dev :=
  let x := d.kao.m[n]
  let period := (d.reg 3 n.val 0x1C).toNat * 2 ^ 32 + (d.reg 3 n.val 0x18).toNat
  if period = x.xPeriod then d
  else
    let res := d.kaoAction n 1 ≠ 0 && !x.resRunning && !x.isActive 1 && decide (2 * (d.kao16 n 4 * 100) ≤ d.iresRms n)
    let byp := x.xBypOk && !x.ken && !x.fb && d.phaseCurrent n
    d.updKao n fun x =>
      { x with xPeriod := period, xRes := if res then min (x.xRes + 1) 2 else 0, xByp := if byp then min (x.xByp + 1) 2 else 0
               xBypOk := !x.ken && !x.fb }

/-- One read of EVC_SESSION; reads less than 2 ms apart do not count (R323 SESSION). -/
def Dev.xcheckSession (d : Dev) (n : Fin 8) : Dev :=
  let x := d.kao.m[n]
  if x.xSess ≠ 0 ∧ !d.after x.xSessAt (ms 2) then d
  else
    let bad := x.ken && !d.evc.s[n].st.mayClose
    d.updKao n fun x => { x with xSess := if bad then min (x.xSess + 1) 2 else 0, xSessAt := d.el }

/-- XCHECK_EVALUATE (R323). -/
def Dev.xcheck (d : Dev) (n : Fin 8) : Dev :=
  if d.present n.val then ((d.xcheckPeriod n).xcheckSession n).xcheckFollow n else d

/-! ### Residual self-test (R293, R294) -/

/-- The slice owns its Sn_IRES channel in role IRES. -/
def Dev.ownsIres (d : Dev) (n : Fin 8) : Bool := d.chan (7 * n.val + 6) = (n.val, 6)

/-- What the device drives on FGXn: nothing, the compensation loop, or the loop with the offset of a test. -/
inductive FgxDrive where
  | undriven | loop | test
deriving DecidableEq, Repr

/-- The drive of FGXn: only while slice n owns its Sn_IRES in role IRES (R22, R291, R293, R524). -/
def Dev.fgxDrive (d : Dev) (n : Fin 8) : FgxDrive :=
  if d.pwr.held ∨ !d.ownsIres n then .undriven else if d.kao.m[n].resRunning then .test else .loop

/-- A self-test is due: the pilot has left the A band, or 60 min of the trimmed oscillator, at least 57.4 min, have
passed since the last one (R285, R293). -/
def Dev.selftestDue (d : Dev) (n : Fin 8) : Bool := d.evc.s[n].leftA || d.after d.kao.m[n].resLast (sec 3444)

/-- RES_SELFTEST_START: only while KENn is released and no close request is present. -/
def Dev.selftestStart (d : Dev) (n : Fin 8) : Dev :=
  let x := d.kao.m[n]
  if d.present n.val ∧ d.ownsIres n ∧ !x.ken ∧ !x.req ∧ !x.resRunning ∧ d.selftestDue n then
    (d.updKao n fun x => { x with resRunning := true, resLast := d.el }).updEvc n fun x => { x with leftA := false }
  else d

/-- The result of a test: a passing one renews the validity, a failing one leaves what an earlier pass gave (R294). -/
def Dev.noteResTest (d : Dev) (n : Fin 8) (pass : Bool) : Dev :=
  d.updKao n fun x =>
    { x with resRunning := false, resFail := !pass, resValid := x.resValid || pass, resSince := if pass then d.el else x.resSince
             resPassed := if pass then x.resPassed + 1 else x.resPassed }

/-- RES_TEST_COMPLETE: a failing test is the raw condition of RES_SENSOR. -/
def Dev.testComplete (d : Dev) (n : Fin 8) (pass : Bool) : Dev :=
  if d.kao.m[n].resRunning then
    ((if pass then d.noteResTest n pass else (d.noteResTest n pass).raiseKao 12).rawChange n 2 (!pass)).endResTest n
  else d

/-- RES_TEST_EXPIRE (R285, R294): 82 080 000 cycles after the test, at least 21.8 h. -/
def Dev.testExpire (d : Dev) (n : Fin 8) : Dev :=
  if d.kao.m[n].resValid ∧ d.after d.kao.m[n].resSince (sec 78480) then d.updKao n fun x => { x with resValid := false } else d

/-- ESCALATION_WINDOW_END (R302, R285): at least 57.4 min after the first trip. -/
def Dev.escalationEnd (d : Dev) (n : Fin 8) : Dev :=
  if d.kao.m[n].escCount ≠ 0 ∧ d.after d.kao.m[n].escSince (sec 3444) then d.updKao n fun x => { x with escCount := 0 } else d

/-! ### Insulation (R295) -/

/-- The slice that owns an IMD input (R55) and measures with it. -/
def Dev.imdSlice (d : Dev) (i : Fin 4) : Option (Fin 8) :=
  let o := d.switchByte (16 + i.val)
  if h : o < 8 then (if d.kaoByte ⟨o, h⟩ 1 = 0 ∧ (d.kind o).isDc then some ⟨o, h⟩ else none) else none

/-- The result of a cycle against the two thresholds. -/
def Dev.imdResult (d : Dev) (n : Fin 8) (kohm : Nat) : Dev :=
  d.updKao n fun x =>
    { x with imdAlarm := decide (kohm < d.kao16 n 6), imdWarn := decide (kohm < d.kao16 n 8), imdFault := false
             imdValid := true, imdKohm := min kohm 0xFFFFFF }

/-- IMD_MEASUREMENT: a cycle completes, or has not settled within 5 s (source IMD_FAULT). -/
def Dev.imdMeasure (d : Dev) (i : Fin 4) (kohm : Nat) (settled : Bool) : Dev :=
  match d.imdSlice i with
  | none => d
  | some n =>
    if settled then
      ((if kohm < d.kao16 n 8 then (d.imdResult n kohm).raiseKao 5 else d.imdResult n kohm).rawChange n 6
        (decide (kohm < d.kao16 n 6))).rawChange n 7 false
    else (d.updKao n fun x => { x with imdFault := true }).rawChange n 7 true

/-! ### Internal fault and self-test (R286, R303) -/

/-- KAO_STATUS.internal of a cause. -/
def internalCode : KaoInternal → Nat
  | .dualRail => 1
  | .supply => 2
  | .overtemp => 3
  | .kenDriver => 4
  | .cell => 5

/-- One machine at an internal fault. -/
def Dev.internalSlice (d : Dev) (n : Fin 8) : Dev :=
  let old := d.kao.m[n].st
  let d1 := d.kenRelease n
  if old = .lockout then d1.rearmTrack n
  else
    let d2 := (d1.enterLockout n false).markTrip n
    let d3 := if old = .armed then d2.endTripTest n else d2
    (d3.sendKaoState n old .lockout 8).rearmTrack n

/-- KAOLIN_INTERNAL_FAULT (R286). -/
def Dev.internalFault (d : Dev) (c : KaoInternal) : Dev :=
  d.watchSafe fun d =>
    let d1 := (d.modKao fun k => { k with internal := internalCode c }).raiseKao 9
    d1.kaoSlices.foldl (fun (acc : Dev) n => acc.internalSlice n) d1

/-- SWITCH_SELFTEST_COMPLETE (R303). -/
def Dev.switchSelftest (d : Dev) : Dev := d.modKao fun k => { k with selfTest := true }

/-! ### Commands (R331, R332) -/

/-- KAO_CHECK equals the confirmed value (KAO_STATUS.section CONFIRMED). -/
def Dev.kaoConfirmed (d : Dev) : Bool := d.kao.received && !d.kao.bad && d.kao.check = d.cell.check

/-- One machine after CONFIRM (R313, R314); an entry into LOCKOUT writes the cell (R312). -/
def Dev.confirmSlice (d : Dev) (n : Fin 8) : Dev :=
  if d.kao.m[n].st = .unconfirmed then
    if nbit d.cell.lockout.toNat n.val then
      (d.enterLockout n false).sendKaoState n .unconfirmed .lockout 1
    else (d.enterArmed n).sendKaoState n .unconfirmed .armed 1
  else d

/-- The mask of the non-absent slices. -/
def Dev.presentMask (d : Dev) : Nat := (d.kaoSlices.map fun n => 2 ^ n.val).sum

/-- CONFIRM. -/
def confirmCmd (ag : Agent) (d : Dev) : CmdSt × Dev :=
  if !d.kao.received ∨ d.kao.bad ∨ d.img.load = .reloading ∨ d.kao.internal ≠ 0 ∨
      !(d.kaoSlices.any fun n => d.kao.m[n].st = .unconfirmed) then (.state 0, d)
  else if d.view ag (lattice 6 8 0xC) ≠ d.kao.check then (.arg, d)
  else
    let d1 := d.writeCell fun c => { c with check := d.kao.check, confirmed := BitVec.ofNat 8 d.presentMask }
    (.ok, d1.oneEvent fun d => (d.kaoSlices.foldl (fun (acc : Dev) n => acc.confirmSlice n) d).raiseKao 7)

/-- The checks every KAO command with a slice shares: slice above 7 ARG, absent slice STATE. -/
def kaoCommand (arg : BitVec 24) (h : Fin 8 → Dev → CmdSt × Dev) (d : Dev) : CmdSt × Dev :=
  if hn : argUnit arg < 8 then
    let n : Fin 8 := ⟨argUnit arg, hn⟩
    if d.present n.val then h n d else (.state (d.kao.m[n].st).code, d)
  else (.arg, d)

/-- LOCK_RELEASE. -/
def lockReleaseCmd (n : Fin 8) (d : Dev) : CmdSt × Dev :=
  if d.kao.m[n].st = .lockout ∧ d.rearmOk n then
    let d1 := d.writeCell fun c => { c with lockout := clearSlice c.lockout n.val, upstream := clearSlice c.upstream n.val }
    (.ok, (d1.enterArmed n).sendKaoState n .lockout .armed 3)
  else (.state (d.kao.m[n].st).code, d)

/-- RES_TEST. -/
def resTestCmd (n : Fin 8) (d : Dev) : CmdSt × Dev :=
  let x := d.kao.m[n]
  if (x.st = .armed ∨ x.st = .tripped) ∧ !x.ken ∧ !x.req ∧ d.resUsed n ∧ d.ownsIres n then
    (.pending, d.updKao n fun x => { x with resRunning := true, resLast := d.el })
  else (.state x.st.code, d)

/-- TRIP_TEST names source 0, 1, 3 or 6. -/
def tripSource (src : Nat) : Bool := src = 0 || src = 1 || src = 3 || src = 6

/-- TRIP_TEST of a source it may name. -/
def tripTestCmd (src : Nat) (n : Fin 8) (d : Dev) : CmdSt × Dev :=
  if d.kaoAction n src = 0 then (.arg, d)
  else if d.kao.m[n].st = .armed then (.pending, d.updKao n fun x => { x with force := some (src, d.el) })
  else (.state (d.kao.m[n].st).code, d)

/-- No condition of the slice is forced. -/
def Dev.unforce (d : Dev) (n : Fin 8) : Dev := d.updKao n fun x => { x with force := none }

/-- TRIP_TEST_FORCE_END (R331): 1.1 × F + 10 ms after the command; a source without a filter follows at once. -/
def Dev.forceEnd (d : Dev) (n : Fin 8) : Dev :=
  match d.kao.m[n].force with
  | some (s, t) =>
    if d.after t (d.kaoFilter n s * 11 / 10 + ms 10) then
      if h : s < 16 then (d.unforce n).rawChange n ⟨s, h⟩ (s = 6 && d.kao.m[n].imdAlarm) else d.unforce n
    else d
  | none => d

/-- A command that only A2 and A4 may issue: PERM for any other agent, whatever the grants say (R332). One that holds
the command grant sees it in its KAO_CMDST (R97). -/
def kaoRestricted (ag : Agent) (op : Nat) (arg : BitVec 24) (u : Nat) (h : Dev → CmdSt × Dev) (d : Dev) : Dev :=
  if ag = .host ∨ ag = .service then issueCommand ag 6 op arg u h d
  else if !d.canIssue ag then d
  else (if d.granted ag 6 u .command then d.noteCommand ag 6 op .perm else d).permReject ag 6

/-! ### Registers of the chapter -/

/-- KAO_STATE. -/
def Dev.readKaoState (d : Dev) (n : Fin 8) : Word :=
  let x := d.kao.m[n]
  packW [(2, x.st.code), (1, b1 x.ken), (1, b1 x.req), (1, b1 x.fb), (1, b1 x.window.isSome), (1, b1 x.resValid),
         (1, b1 d.kao.hbLost), (4, x.refuse), (4, 0), (8, x.escCount), (8, 0)]

/-- KAO_ACTIVE. -/
def Dev.readKaoActive (d : Dev) (n : Fin 8) : Word := d.kao.m[n].latched ++ d.kao.m[n].active

/-- KAO_TRIP. -/
def Dev.readKaoTrip (d : Dev) (n : Fin 8) : Word :=
  let x := d.kao.m[n]
  packW [(8, x.tripSource), (8, x.tripAction), (8, x.tripDetail), (7, 0), (1, b1 x.tripTest)]

/-- KAO_RES. -/
def Dev.readKaoRes (d : Dev) (n : Fin 8) : Word :=
  let x := d.kao.m[n]
  packW [(1, b1 x.resValid), (1, b1 x.resRunning), (1, b1 x.resFail), (13, 0), (16, x.resPassed.toNat)]

/-- KAO_IMD. -/
def Dev.readKaoImd (d : Dev) (n : Fin 8) : Word :=
  let x := d.kao.m[n]
  packW [(1, b1 x.imdAlarm), (1, b1 x.imdWarn), (1, b1 x.imdFault), (1, b1 x.imdValid), (4, 0), (24, x.imdKohm)]

/-- KAO_STATUS. -/
def Dev.readKaoStatus (d : Dev) : Word :=
  let sect := if d.kao.bad then 3 else if !d.kao.received then 0 else if d.kaoConfirmed then 2 else 1
  packW [(2, sect), (1, b1 d.safeOk), (1, b1 d.kao.estop), (1, b1 (!d.kao.hbLost)), (1, b1 d.kao.grace.isSome), (2, 0),
         (8, d.kao.badReason), (4, d.kao.badSlice), (4, d.kao.badSource), (8, d.kao.internal)]

/-- KAO_MASKS. -/
def Dev.readKaoMasks (d : Dev) : Word :=
  packW [(8, 0), (8, d.cell.upstream.toNat), (8, d.cell.lockout.toNat), (8, d.cell.confirmed.toNat)]

/-- KAO_HB_STAT. -/
def Dev.readHbStat (d : Dev) : Word := packW [(16, d.kao.hbCount.toNat), (8, d.kao.hbDiag.toNat), (8, d.kao.hbLosses)]

/-! ### The commands of the table -/

/-- KAOLIN_SOURCE_ACTIVE. -/
def execKaolinSourceActive (n : Fin 8) (src : Fin 16) (s : State) : Host.Outcome State Fault Refusal :=
  .next { s with dev := s.dev.kaolinActive n src }

/-- KAOLIN_SOURCE_INACTIVE. -/
def execKaolinSourceInactive (n : Fin 8) (src : Fin 16) (s : State) : Host.Outcome State Fault Refusal :=
  .next { s with dev := s.dev.kaolinInactive n src }

/-- RELEASE_WINDOW_END. -/
def execReleaseWindowEnd (n : Fin 8) (s : State) : Host.Outcome State Fault Refusal := .next { s with dev := s.dev.windowEnd n }

/-- REARM. -/
def execRearm (n : Fin 8) (s : State) : Host.Outcome State Fault Refusal := .next { s with dev := s.dev.rearm n }

/-- HEARTBEAT_WRITE. -/
def execHeartbeatWrite (ag : Agent) (data : Word) (s : State) : Host.Outcome State Fault Refusal :=
  .next { s with dev := writeAccess ag 6 9 (lattice 6 9 0) (fun d => d.writeHb ag data) s.dev }

/-- HEARTBEAT_POLL. -/
def execHeartbeatPoll (s : State) : Host.Outcome State Fault Refusal := .next { s with dev := s.dev.heartbeatPoll }

/-- HEARTBEAT_LOST. -/
def execHeartbeatLost (s : State) : Host.Outcome State Fault Refusal := .next { s with dev := s.dev.heartbeatLost }

/-- GRACE_END. -/
def execGraceEnd (s : State) : Host.Outcome State Fault Refusal := .next { s with dev := s.dev.graceEnd }

/-- XCHECK_EVALUATE. -/
def execXcheckEvaluate (n : Fin 8) (s : State) : Host.Outcome State Fault Refusal := .next { s with dev := s.dev.xcheck n }

/-- RES_SELFTEST_START. -/
def execResSelftestStart (n : Fin 8) (s : State) : Host.Outcome State Fault Refusal :=
  .next { s with dev := s.dev.selftestStart n }

/-- RES_TEST_COMPLETE. -/
def execResTestComplete (n : Fin 8) (pass : Bool) (s : State) : Host.Outcome State Fault Refusal :=
  .next { s with dev := s.dev.testComplete n pass }

/-- RES_TEST_EXPIRE. -/
def execResTestExpire (n : Fin 8) (s : State) : Host.Outcome State Fault Refusal := .next { s with dev := s.dev.testExpire n }

/-- ESCALATION_WINDOW_END. -/
def execEscalationWindowEnd (n : Fin 8) (s : State) : Host.Outcome State Fault Refusal :=
  .next { s with dev := s.dev.escalationEnd n }

/-- IMD_MEASUREMENT. -/
def execImdMeasurement (i : Fin 4) (kohm : Nat) (settled : Bool) (s : State) : Host.Outcome State Fault Refusal :=
  .next { s with dev := s.dev.imdMeasure i kohm settled }

/-- KAOLIN_INTERNAL_FAULT. -/
def execKaolinInternalFault (cause : KaoInternal) (s : State) : Host.Outcome State Fault Refusal :=
  .next { s with dev := s.dev.internalFault cause }

/-- SWITCH_SELFTEST_COMPLETE. -/
def execSwitchSelftestComplete (s : State) : Host.Outcome State Fault Refusal := .next { s with dev := s.dev.switchSelftest }

/-- CONFIRM. -/
def execConfirm (ag : Agent) (arg : BitVec 24) (s : State) : Host.Outcome State Fault Refusal :=
  .next { s with dev := kaoRestricted ag 0x10 arg 0xFF (noArg arg (confirmCmd ag)) s.dev }

/-- LOCK_RELEASE. -/
def execLockRelease (ag : Agent) (arg : BitVec 24) (s : State) : Host.Outcome State Fault Refusal :=
  .next { s with dev := kaoRestricted ag 0x11 arg (argUnit arg) (kaoCommand arg lockReleaseCmd) s.dev }

/-- RES_TEST. -/
def execResTest (ag : Agent) (arg : BitVec 24) (s : State) : Host.Outcome State Fault Refusal :=
  .next { s with dev := issueCommand ag 6 0x12 arg (argUnit arg) (kaoCommand arg resTestCmd) s.dev }

/-- TRIP_TEST. -/
def execTripTest (ag : Agent) (arg : BitVec 24) (s : State) : Host.Outcome State Fault Refusal :=
  .next { s with dev := kaoRestricted ag 0x13 arg (argUnit arg) (fun d =>
    if argUnit arg < 8 ∧ !tripSource (argBits arg 15 8) then (.arg, d)
    else kaoCommand arg (tripTestCmd (argBits arg 15 8)) d) s.dev }

/-- TRIP_TEST_FORCE_END. -/
def execTripTestForceEnd (n : Fin 8) (s : State) : Host.Outcome State Fault Refusal := .next { s with dev := s.dev.forceEnd n }

end Sys2Proof.Machine
end

