-- ==== Sys2Proof/Machine/Panel.lean ====
section
/-! DEFINITION. The price and status panel (14_panel.md): geometry, frame memory, waveforms, frames, regions, the
journal, the strip, and the commands of PNL. -/

namespace Sys2Proof.Machine

/-! ### Geometry (R442, R543) -/

/-- Panel width in pixels; 0 for no panel. -/
def Dev.pnlWidth (d : Dev) : Nat := d.persona16 0x18
/-- Panel height in rows. -/
def Dev.pnlHeight (d : Dev) : Nat := d.persona16 0x1A
/-- First column of a region. -/
def Dev.rgnX (d : Dev) (r : Nat) : Nat := d.persona16 (0x30 + 12 * r)
/-- Columns of a region; 0 for an unused one. -/
def Dev.rgnW (d : Dev) (r : Nat) : Nat := d.persona16 (0x32 + 12 * r)
/-- First row of a region. -/
def Dev.rgnY (d : Dev) (r : Nat) : Nat := d.persona16 (0x34 + 12 * r)
/-- Rows of a region. -/
def Dev.rgnH (d : Dev) (r : Nat) : Nat := d.persona16 (0x36 + 12 * r)
/-- A legal region. -/
def Dev.rgnLegal (d : Dev) (r : Nat) : Bool := d.rgnW r ≠ 0 && d.persona (0x38 + 12 * r) = 1
/-- A used region. -/
def Dev.rgnUsed (d : Dev) (r : Nat) : Bool := d.rgnW r ≠ 0

/-- The strip's first row and rows (PNL_STRIP), and whether it is on. -/
def Dev.stripFirst (d : Dev) : Nat := d.rfld 12 0 0x2C 25 16
/-- Strip rows. -/
def Dev.stripRows (d : Dev) : Nat := d.rfld 12 0 0x2C 6 0
/-- PNL_STRIP.enable. -/
def Dev.stripOn (d : Dev) : Bool := bit (d.reg 12 0 0x2C) 31

/-- The pixels of a rectangle as buffer indexes, row by row. -/
def rectPixels (x w y h : Nat) : List Nat := (List.range h).flatMap fun j => (List.range w).map fun i => (y + j) * 1024 + x + i

/-- The pixels of a region. -/
def Dev.rgnPixels (d : Dev) (r : Nat) : List Nat := rectPixels (d.rgnX r) (d.rgnW r) (d.rgnY r) (d.rgnH r)

/-- The pixels of the strip. -/
def Dev.stripPixels (d : Dev) : List Nat := rectPixels 0 d.pnlWidth d.stripFirst d.stripRows

/-! ### Buffers and waveform memory (R443, R446) -/

/-- A pixel of a buffer; an unlisted one is 0 (black). -/
def findPix : List (Nat × BitVec 4) → Nat → BitVec 4
  | [], _ => 0
  | (k, v) :: r, i => if k = i then v else findPix r i

/-- List a pixel, indexes rising. -/
def putPix : List (Nat × BitVec 4) → Nat → BitVec 4 → List (Nat × BitVec 4)
  | [], i, v => [(i, v)]
  | (k, u) :: r, i, v => if i < k then (i, v) :: (k, u) :: r else if i = k then (i, v) :: r else (k, u) :: putPix r i v

/-- Set a pixel; a pixel of 0 is not listed. -/
def setPix (m : List (Nat × BitVec 4)) (i : Nat) (v : BitVec 4) : List (Nat × BitVec 4) :=
  if v = 0 then m.filter fun e => e.1 ≠ i else putPix m i v

/-- A word of waveform, glyph or stress memory; 0 where unlisted. -/
def memWord (f : RegFile) (a : Nat) : Word := (f.find a).getD 0

/-- Set such a word; a word of 0 is not listed. -/
def setMemWord (f : RegFile) (a : Nat) (v : Word) : RegFile := if v = 0 then f.del a else f.put a v

/-- The drive code of a table, band, old and new grey in frame f (R446). -/
def Dev.driveCode (d : Dev) (table band old new f : Nat) : Nat :=
  bits (memWord d.pnl.wave (table * 8192 + (band * 256 + old * 16 + new) * 4 + f / 16)).toNat (2 * (f % 16) + 1) (2 * (f % 16))

/-- A code that drives: TO_BLACK or TO_WHITE (R444). -/
def drives (code : Nat) : Bool := code = 1 || code = 2

/-- Whether a table drives any pair of a band in frame f. -/
def Dev.drivesIn (d : Dev) (table band f : Nat) : Bool := (List.range 256).any fun p => drives (d.driveCode table band (p / 16) (p % 16) f)

/-- The length of a table in a band: 1 plus the last frame that drives any pair (R446). -/
def Dev.tableLength (d : Dev) (table band : Nat) : Nat :=
  (List.range 64).foldl (fun acc f => if d.drivesIn table band f then f + 1 else acc) 0

/-- The lengths of the four tables by band, as FUNC_START computes them. -/
def Dev.allLengths (d : Dev) : List (List Nat) := (List.range 4).map fun t => (List.range 8).map fun b => d.tableLength t b

/-- The computed length of a table in a band. -/
def Dev.lengthOf (d : Dev) (table band : Nat) : Nat := ((d.pnl.lengths)[table]?.bind fun l => l[band]?).getD 0

/-! ### Temperature and ageing (R447, R448) -/

/-- The band of a temperature in 0.1 °C. -/
def bandOf (t : Int) : Nat :=
  if t < 0 then 0 else if t < 50 then 1 else if t < 100 then 2 else if t < 150 then 3 else if t < 220 then 4
  else if t < 300 then 5 else if t < 400 then 6 else 7

/-- Read the temperature at the start of an update: band 4 and the flags where it is not valid. -/
def Dev.readBand (d : Dev) : Dev :=
  match (d.pwr.hkTemp[d.rfld 12 0 4 27 24]?).getD none with
  | some t =>
    let (c, d1) := d.round ((t : Rat) / 10)
    { d1 with pnl := { d1.pnl with band := bandOf t, tempValid := true, temp := twos 8 (c + 40) } }
  | none => ((({ d with pnl := { d.pnl with band := 4, tempValid := false } }).raisePnl 4).raisePwr 3)

/-- The block of 32 × 32 pixels a pixel lies in (PNL_MEM_ADDR). -/
def blockOf (pix : Nat) : Nat := (pix / 1024 / 32) * 32 + pix % 1024 / 32

/-- The effective band of a block (R448). -/
def Dev.bandEff (d : Dev) (band block : Nat) : Nat :=
  if bit (d.reg 12 0 0x28) 31 then
    band - min 3 ((memWord d.pnl.stress block).toNat / (d.rfld 12 0 0x28 15 0 * 10000))
  else band

/-- The blocks a list of pixels covers, once each. -/
def blocksOf (ps : List Nat) : List Nat := (ps.map blockOf).eraseDups

/-- The length of an operation over pixels: the longest among the blocks it covers (R448). -/
def Dev.opLength (d : Dev) (ps : List Nat) (table band : Nat) : Nat :=
  (blocksOf ps).foldl (fun acc b => max acc (d.lengthOf table (d.bandEff band b))) 0

/-- The code a pixel receives in frame f: INIT uses the pair old 0, new 15 (R446); a block whose length has passed
receives NONE (R448). -/
def Dev.pixelCode (d : Dev) (table band f pix : Nat) : Nat :=
  let b := d.bandEff band (blockOf pix)
  if d.lengthOf table b ≤ f then 0
  else if table = 0 then d.driveCode 0 b 0 15 f
  else d.driveCode table b (findPix d.pnl.old pix).toNat (findPix d.pnl.new pix).toNat f

/-- The pixels among some that are driven in frame f of an operation, with their codes. -/
def Dev.drivenCodes (d : Dev) (ps : List Nat) (table band f : Nat) : List (Nat × BitVec 2) :=
  ps.filterMap fun p => if drives (d.pixelCode table band f p) then some (p, BitVec.ofNat 2 (d.pixelCode table band f p)) else none

/-- Count the stress of a frame: each block with a driven pixel counts it once (R448). -/
def Dev.countStress (d : Dev) (blocks : List Nat) : Dev :=
  { d with pnl := { d.pnl with
      stress := blocks.eraseDups.foldl (fun m b => setMemWord m b (w32 (satAdd 32 (memWord m b).toNat 1))) d.pnl.stress } }

/-! ### Verification (R449, R451) -/

/-- A region runs an update or a clear. -/
def Region.busy (x : Region) : Bool := x.st = .running || x.st = .clearing

/-- A region is verified (R451). -/
def Region.verified (x : Region) : Bool := x.st = .idle && x.pending.isNone && x.lastUpdate && x.crc = x.exp

/-- Whether a region is verified. -/
def Dev.verified (d : Dev) (r : Fin 16) : Bool := d.rgnUsed r.val && (d.pnl.r[r]).verified

/-- Every legal region is verified (R259 PRICE_NOT_SHOWN). -/
def Dev.priceShown (d : Dev) : Bool := (List.finRange 16).all fun r => !d.rgnLegal r.val || d.verified r

/-- A change of the panel that sets legal_lost where a legal region stops being verified. -/
def Dev.watchLegal (d : Dev) (f : Dev → Dev) : Dev :=
  d.oneEvent fun d =>
    let d1 := f d
    if (List.finRange 16).any fun r => d.rgnLegal r.val && d.verified r && !d1.verified r then d1.raisePnl 5 else d1

/-- The pixels of a buffer as bytes, two to a byte, the left one in the high nibble (R449). -/
def pixBytes (m : List (Nat × BitVec 4)) : List Nat → List Byte
  | a :: b :: r => BitVec.ofNat 8 ((findPix m a).toNat * 16 + (findPix m b).toNat) :: pixBytes m r
  | _ => []

/-- The CRC-32 of a region in a buffer. -/
def Dev.rgnCrc (d : Dev) (m : List (Nat × BitVec 4)) (r : Nat) : Word := w32 (crc32ieee (pixBytes m (d.rgnPixels r)))

/-- Copy pixels of the new buffer into the old one. -/
def Dev.copyPixels (d : Dev) (ps : List Nat) : Dev :=
  { d with pnl := { d.pnl with old := ps.foldl (fun m p => setPix m p (findPix d.pnl.new p)) d.pnl.old } }

/-- Set pixels of the old buffer to white. -/
def Dev.whitePixels (d : Dev) (ps : List Nat) : Dev :=
  { d with pnl := { d.pnl with old := ps.foldl (fun m p => setPix m p 15) d.pnl.old } }

/-! ### Starting and ending operations (R445, R449, R450) -/

/-- Something of the panel runs. -/
def Dev.pnlBusy (d : Dev) : Bool := (d.pnl.r.toList.any fun x => x.busy) || d.pnl.strip = .running || d.pnl.strip = .clearing

/-- The controller accepts an update: it raises PNL_PWRUP where the supplies are off. -/
def Dev.raisePwrUp (d : Dev) : Dev := if d.pnl.stopped then d else { d with pnl := { d.pnl with pwrUp := true } }

/-- A region starts an operation; it drives from the first frame instant that follows. -/
def Dev.startRegion (d : Dev) (r : Fin 16) (st : RgnSt) (table : Nat) (exp : Word) : Dev :=
  (d.updRgn r fun x => { x with st := st, table := table, exp := exp, frame := 0, started := false, pending := none }).raisePwrUp

/-- What follows an operation of a region: IDLE, or its pending update (R450). -/
def Dev.afterRegion (d : Dev) (r : Fin 16) : Dev :=
  match (d.pnl.r[r]).pending with
  | some (t, e) => d.startRegion r .running t e
  | none => { d with pnl := { d.pnl with tIdle := d.el } }

/-- An operation of a region completes: counted, its CRC over the old buffer and its kind noted, also in the journal. -/
def Dev.closeRegion (d : Dev) (r : Fin 16) (update : Bool) : Dev :=
  let crc := d.rgnCrc d.pnl.old r.val
  (d.updRgn r fun x => { x with
    st := .idle, crc := crc, lastUpdate := update, frame := 0, started := false, done := x.done + 1
    jValid := true, jRunning := false, jCrc := crc, jUpdate := update }).afterRegion r

/-- The last frame of a region's operation has been driven. -/
def Dev.lastFrame (d : Dev) (r : Fin 16) : Bool :=
  let x := d.pnl.r[r]
  x.started && decide (d.opLength (d.rgnPixels r.val) x.table x.band ≤ x.frame + 1)

/-- PANEL_UPDATE_COMPLETE (R449). -/
def Dev.updateComplete (d : Dev) (r : Fin 16) : Dev :=
  if (d.pnl.r[r]).st = .running ∧ d.lastFrame r then
    (((d.copyPixels (d.rgnPixels r.val)).closeRegion r true).raisePnl 0)
  else d

/-- PANEL_CLEAR_COMPLETE (R453). -/
def Dev.clearComplete (d : Dev) (r : Fin 16) : Dev :=
  if (d.pnl.r[r]).st = .clearing ∧ d.lastFrame r then (d.whitePixels (d.rgnPixels r.val)).closeRegion r false else d

/-! ### The strip (R457) -/

/-- The glyph of a cell. -/
def Dev.stripGlyph (d : Dev) (n : Fin 8) : Nat :=
  if !d.present n.val then 10 else if !(d.evc.s[n]).fn.isRunning then 11 else (d.evc.s[n]).st.code

/-- The glyphs of the eight cells. -/
def Dev.stripCells (d : Dev) : List Nat := slices.map fun n => d.stripGlyph n

/-- The grey of a strip pixel: bit column of the cell's glyph, rows top down, four words a row. -/
def Dev.stripGrey (d : Dev) (cells : List Nat) (pix : Nat) : BitVec 4 :=
  let cellW := d.pnlWidth / 8
  let x := pix % 1024
  let row := pix / 1024 - d.stripFirst
  let g := cells.getD (x / cellW) 0
  if (memWord d.pnl.glyph (256 * g + 4 * row + x % cellW / 32)).getLsbD (x % cellW % 32) then 15 else 0

/-- Render the strip into the new buffer. -/
def Dev.renderStrip (d : Dev) (cells : List Nat) : Dev :=
  { d with pnl := { d.pnl with
      new := d.stripPixels.foldl (fun m p => setPix m p (d.stripGrey cells p)) d.pnl.new, stripShown := cells } }

/-- STRIP_UPDATE: a cell changed and nothing of the strip runs: it is redrawn with DU. -/
def Dev.stripUpdate (d : Dev) : Dev :=
  if d.pnl.fn.isRunning ∧ d.stripOn ∧ !d.pnl.stopped ∧ d.pnl.stripReady ∧ d.pnl.strip = .idle ∧ d.stripCells ≠ d.pnl.stripShown then
    let d1 := d.renderStrip d.stripCells
    ({ d1 with pnl := { d1.pnl with strip := .running, stripFrame := 0, stripStarted := false } }).raisePwrUp
  else d

/-- The table of the strip's operation: INIT for its clear, DU for an update. -/
def stripTable (st : RgnSt) : Nat := if st = .clearing then 0 else 3

/-- The strip's operation ends after its last frame. -/
def Dev.stripEnd (d : Dev) : Dev :=
  let ps := d.stripPixels
  if d.pnl.stripStarted ∧ d.opLength ps (stripTable d.pnl.strip) d.pnl.stripBand ≤ d.pnl.stripFrame + 1 then
    if d.pnl.strip = .running then
      ({ d.copyPixels ps with pnl := { (d.copyPixels ps).pnl with strip := .idle, stripStarted := false, stripFrame := 0, tIdle := d.el } }).raisePnl 1
    else if d.pnl.strip = .clearing then
      { d.whitePixels ps with pnl := { (d.whitePixels ps).pnl with
          strip := .idle, stripStarted := false, stripFrame := 0, stripReady := true, stripShown := [], tIdle := d.el } }
    else d
  else d

/-! ### Frames (R444, R445, R453) -/

/-- The number of the latest panel frame instant: ⌊n × 10⁹ / 85⌋ ns after each whole second (R144). -/
def frameNumber (now : Nat) : Nat := now / 1000000000 * 85 + (now % 1000000000 * 85 + 84) / 1000000000

/-- A panel frame instant has come that no frame was driven for. -/
def Dev.frameDue (d : Dev) : Bool := d.lastRun keyFrame ≠ some (frameNumber d.tim.now)

/-- The controller may drive frames (R445, R455). -/
def Dev.mayDrive (d : Dev) : Bool := d.pnl.fn.isRunning && d.runs 12 && d.pnl.pwrUp && d.pnl.pwrGood && !d.pnl.stopped

/-- One frame of one region: its first frame fixes the band. -/
def Dev.frameRegion (d : Dev) (r : Fin 16) : Dev :=
  let x := d.pnl.r[r]
  if x.busy then
    if x.started then d.updRgn r fun x => { x with frame := x.frame + 1 }
    else
      let d0 := d.readBand
      d0.updRgn r fun x => { x with started := true, frame := 0, band := d0.pnl.band }
  else d

/-- One frame of the strip. -/
def Dev.frameStrip (d : Dev) : Dev :=
  if d.pnl.strip = .running ∨ d.pnl.strip = .clearing then
    if d.pnl.stripStarted then { d with pnl := { d.pnl with stripFrame := d.pnl.stripFrame + 1 } }
    else
      let d0 := d.readBand
      { d0 with pnl := { d0.pnl with stripStarted := true, stripFrame := 0, stripBand := d0.pnl.band } }
  else d

/-- The codes of the present frame, over all regions and the strip (R444). -/
def Dev.frameCodes (d : Dev) : List (Nat × BitVec 2) :=
  ((List.finRange 16).flatMap fun r =>
    let x := d.pnl.r[r]
    if x.busy then d.drivenCodes (d.rgnPixels r.val) x.table x.band x.frame else []) ++
  (if d.pnl.strip = .running ∨ d.pnl.strip = .clearing then
    d.drivenCodes d.stripPixels (stripTable d.pnl.strip) d.pnl.stripBand d.pnl.stripFrame else [])

/-- The 16 bits that PNL_D0 to PNL_D15 carry for the eight pixels from column 8c of a row on: the pixel at column 8c + k
uses bits [2k + 1:2k] (R444). -/
def Dev.panelWord (d : Dev) (row c : Nat) : Nat :=
  ((List.range 8).map fun k =>
    ((d.pnl.codes.find? fun (e : Nat × BitVec 2) => e.1 = row * 1024 + 8 * c + k).map fun e => e.2.toNat * 4 ^ k).getD 0).sum

/-- One frame of every running region and the strip: it sends the codes, and counts the stress of the blocks it drives. -/
def Dev.driveFrame (d : Dev) : Dev :=
  let d1 := ((List.finRange 16).foldl (fun (acc : Dev) r => acc.frameRegion r) d).frameStrip
  let codes := d1.frameCodes
  ({ d1 with pnl := { d1.pnl with codes := codes } }).countStress (blocksOf (codes.map fun (e : Nat × BitVec 2) => e.1))

/-- No frame is driven: nothing is on the data balls. -/
def Dev.idleFrame (d : Dev) : Dev := { d with pnl := { d.pnl with codes := [] } }

/-- A region whose image nobody can vouch for: RUNNING in the journal (R452, R453). -/
def Region.unsure (x : Region) : Bool := x.busy || x.st = .unknown

/-- The journal of the regions and of the strip is rewritten at each frame instant (R452). -/
def Dev.journalPanel (d : Dev) : Dev :=
  { d with pnl := { d.pnl with
      r := d.pnl.r.map fun x => { x with jRunning := x.unsure, jValid := true, jTable := x.table, jFrame := x.frame }
      stripJ :=
        { running := d.pnl.strip ≠ RgnSt.idle, table := stripTable d.pnl.strip, frame := d.pnl.stripFrame, valid := true
          crc := 0, update := d.pnl.strip ≠ RgnSt.clearing } } }

/-- Operations whose last frame was driven before this instant complete. -/
def Dev.closeDone (d : Dev) : Dev :=
  (List.finRange 16).foldl (fun (acc : Dev) r => (acc.updateComplete r).clearComplete r) d.stripEnd

/-- The scan ends in time at the pixel clock (R444). -/
def Dev.scanFits (d : Dev) : Bool := decide (2 * ((d.pnlWidth / 8 + 16) * (d.pnlHeight + 4)) ≤ 2253 * d.rfld 12 0 4 23 16)

/-- The start conditions of the panel function (R444, R446, R457, R543). -/
def Dev.panelReady (d : Dev) : Bool :=
  d.pnlWidth ≠ 0 && d.scanFits && ((List.range 8).all fun b => d.tableLength 0 b ≠ 0 && d.tableLength 1 b ≠ 0) &&
  (!d.stripOn || (d.pnlWidth % 64 = 0 && d.persona 0x1E ≠ 0))

/-- A used region is UNKNOWN. -/
def Dev.unknownRegion (d : Dev) : Bool := (List.finRange 16).any fun r => d.rgnUsed r.val && (d.pnl.r[r]).st = .unknown

/-- The strip waits for its INIT (R457). -/
def Dev.stripDue (d : Dev) : Bool := d.stripOn && !d.pnl.stripReady

/-- The panel function starts: lengths are computed; a CLEAR of R453 or R457 still due raises the supplies. -/
def Dev.panelStart (d : Dev) : Dev :=
  let clear := d.pnl.autoClear && d.unknownRegion
  let d1 := { d with pnl := { d.pnl with fn := { st := .running }, lengths := d.allLengths, autoClear := clear } }
  if clear ∨ d.stripDue then d1.raisePwrUp else d1

/-- The start at the first frame instant after the configuration load (R453). -/
def Dev.panelAutoStart (d : Dev) : Dev :=
  if d.img.cfgDone ∧ !d.pnl.autoDone then
    let d1 := { d with pnl := { d.pnl with autoDone := true } }
    if d.pnl.fn.st = .off ∧ d.panelReady ∧ d.img.loaded.isSome then d1.panelStart else d1
  else d

/-- PANEL_FRAME_INSTANT: what ended completes, then every running region and the strip drive a frame. -/
def Dev.panelFrame (d : Dev) : Dev :=
  if d.frameDue ∧ !d.pwr.held then
    let d0 := { d with tim := { d.tim with done := (keyFrame, frameNumber d.tim.now) :: d.tim.done.filter fun e => e.1 ≠ keyFrame } }
    let d1 := d0.panelAutoStart
    if d1.pnl.fn.isRunning ∧ d1.runs 12 ∧ !d1.pnl.stopped then
      let d2 := d1.closeDone
      let d3 := if d2.mayDrive then d2.driveFrame else d2.idleFrame
      d3.journalPanel
    else d1
  else d

/-- The CLEAR of every UNKNOWN region (R453). -/
def Dev.clearUnknown (d : Dev) : Dev :=
  (List.finRange 16).foldl (fun (acc : Dev) r =>
    if (acc.pnl.r[r]).st = .unknown ∧ acc.rgnUsed r.val then acc.startRegion r .clearing 0 0 else acc) d

/-- The strip is driven with INIT where it still waits for it (R457). -/
def Dev.clearStrip (d : Dev) : Dev :=
  if d.stripDue ∧ d.pnl.strip ≠ .clearing then
    { d with pnl := { d.pnl with strip := .clearing, stripStarted := false, stripFrame := 0 } }
  else d

/-- PANEL_AUTO_CLEAR: at its first frame with the supplies up after a cold reset (R453, R457); the strip also after
its update met a fault. -/
def Dev.panelAutoClear (d : Dev) : Dev :=
  if d.mayDrive then
    if d.pnl.autoClear then ({ d.clearUnknown with pnl := { d.clearUnknown.pnl with autoClear := false } }).clearStrip
    else d.clearStrip
  else d

/-- PANEL_POWER_GOOD: PNL_PWRGOOD has been high for 1 ms (R445). -/
def Dev.panelPowerGood (d : Dev) : Dev := if d.pnl.pwrUp then { d with pnl := { d.pnl with pwrGood := true } } else d

/-- PANEL_POWER_DOWN: 100 ms after the last update ended PNL_PWRUP is lowered (R445). -/
def Dev.panelPowerDown (d : Dev) : Dev :=
  if d.pnl.pwrUp ∧ !d.pnlBusy ∧ !d.pnl.autoClear ∧ !(d.pnl.fn.isRunning && d.stripDue) ∧ d.after d.pnl.tIdle (ms 100) then
    { d with pnl := { d.pnl with pwrUp := false, pwrGood := false } }
  else d

/-- A panel fault (R454): running regions become UNKNOWN, their pending slots are emptied. -/
def Dev.panelFaultWith (d : Dev) (code : Byte) : Dev :=
  d.watchLegal fun d =>
    let f := fun (x : Region) => if x.busy then { x with st := .unknown, pending := none, started := false, frame := 0 } else x
    ({ d with pnl := { d.pnl with
        fn := { st := .fault, code := code }, r := d.pnl.r.map f
        strip := if d.pnl.strip = RgnSt.idle then RgnSt.idle else RgnSt.unknown
        stripReady := (decide (d.pnl.strip = RgnSt.idle)) && d.pnl.stripReady
        codes := [], stripStarted := false, stripFrame := 0, tIdle := if d.pnlBusy then d.el else d.pnl.tIdle } }).raisePnl 3

/-- PNL_PWRGOOD falls. -/
def Dev.powerBad (d : Dev) : Dev := { d with pnl := { d.pnl with pwrGood := false } }

/-- PANEL_FAULT: a fall of PNL_PWRGOOD is one only while an update runs (R445); after the power-fail trip the supplies
are down anyway (R455). -/
def Dev.panelFault (d : Dev) (c : PanelFaultCause) : Dev :=
  let d1 := if c = .powerGoodFell then d.powerBad else d
  if d.pnl.fn.isRunning ∧ !d.pnl.stopped ∧ (c = .pixelClockLost ∨ d.pnlBusy) then d1.panelFaultWith 1 else d1

/-- STRESS_SAVE: once an hour (R448). -/
def Dev.stressSave (d : Dev) : Dev :=
  if d.after d.pnl.tStress (sec 3600) then { d with pnl := { d.pnl with stressSaved := d.pnl.stress, tStress := d.el } } else d

/-! ### The window and the memories (R443, PNL_MEM_DATA) -/

/-- The buffer indexes of the word at PNL_WIN_ADDR. -/
def Dev.winPixels (d : Dev) : List Nat :=
  (List.range 8).map fun k => d.rfld 12 0 0x18 25 16 * 1024 + 8 * d.rfld 12 0 0x18 6 0 + k

/-- PNL_WIN_ADDR lies inside the panel. -/
def Dev.winInside (d : Dev) : Bool := decide (d.rfld 12 0 0x18 25 16 < d.pnlHeight) && decide (8 * d.rfld 12 0 0x18 6 0 < d.pnlWidth)

/-- The word holds a pixel of a RUNNING region. -/
def Dev.winRunning (d : Dev) : Bool :=
  (List.finRange 16).any fun r => (d.pnl.r[r]).st = .running && d.winPixels.any fun p => (d.rgnPixels r.val).contains p

/-- Advance PNL_WIN_ADDR by 8 pixels, wrapping to the next row at the panel width. -/
def Dev.winAdvance (d : Dev) : Dev :=
  let c := d.rfld 12 0 0x18 6 0 + 1
  if 8 * c < d.pnlWidth then d.setRfld 12 0 0x18 6 0 c
  else (d.setRfld 12 0 0x18 6 0 0).setRfld 12 0 0x18 25 16 (d.rfld 12 0 0x18 25 16 + 1)

/-- A write of PNL_WIN_DATA. -/
def Dev.writeWindow (d : Dev) (w : Word) : CmdSt × Dev :=
  if !d.winInside then (.arg, d)
  else if d.winRunning then (.state 1, d)
  else
    let new := (d.winPixels.zip (List.range 8)).foldl (fun m e => setPix m e.1 (BitVec.ofNat 4 (bits w.toNat (4 * e.2 + 3) (4 * e.2)))) d.pnl.new
    (.ok, ({ d with pnl := { d.pnl with new := new } }).winAdvance)

/-- A read of PNL_WIN_DATA. -/
def Dev.readWindow (d : Dev) : CmdSt × Word × Dev :=
  if !d.winInside then (.arg, 0, d)
  else (.ok, packW (d.winPixels.reverse.map fun p => (4, (findPix d.pnl.new p).toNat)), d.winAdvance)

/-- The memory PNL_MEM_ADDR selects, its word, and the number of words it has. -/
def Dev.memSel (d : Dev) : Nat × Nat × Nat :=
  let m := d.rfld 12 0 0x20 31 30
  (m, d.rfld 12 0 0x20 14 0, if m = 0 then 32768 else if m = 1 then 4096 else if m = 2 then 768 else 0)

/-- Advance PNL_MEM_ADDR. -/
def Dev.memAdvance (d : Dev) : Dev := d.countMod 12 0 0x20 14 0

/-- A write of PNL_MEM_DATA. -/
def Dev.writeMem (d : Dev) (w : Word) : CmdSt × Dev :=
  let (m, a, n) := d.memSel
  if n ≤ a ∨ m = 2 then (.arg, d)
  else if m = 0 then
    if d.pnl.fn.idle ∨ (d.pnl.wave.find a).getD 0 = w then (.ok, ({ d with pnl := { d.pnl with wave := setMemWord d.pnl.wave a w } }).memAdvance)
    else (.state d.pnl.fn.st.code, d)
  else (.ok, ({ d with pnl := { d.pnl with glyph := setMemWord d.pnl.glyph a w } }).memAdvance)

/-- A read of PNL_MEM_DATA. -/
def Dev.readMem (d : Dev) : CmdSt × Word × Dev :=
  let (m, a, n) := d.memSel
  if n ≤ a then (.arg, 0, d)
  else (.ok, memWord (if m = 0 then d.pnl.wave else if m = 1 then d.pnl.glyph else d.pnl.stress) a, d.memAdvance)

/-! ### Commands (R458) -/

/-- The code of a region state. -/
def RgnSt.code : RgnSt → Nat
  | .idle => 0
  | .running => 1
  | .clearing => 2
  | .unknown => 3
  | .held => 4

/-- A command on a region: ARG for an unused one or above 15, STATE unless the controller runs. -/
def Dev.onRegion (d : Dev) (arg : BitVec 24) (h : Fin 16 → CmdSt × Dev) : CmdSt × Dev :=
  if hr : argUnit arg < 16 then
    if !d.rgnUsed (argUnit arg) then (.arg, d)
    else if !d.pnl.fn.isRunning then (.state (d.pnl.r[argUnit arg]).st.code, d)
    else h ⟨argUnit arg, hr⟩
  else (.arg, d)

/-- UPDATE (R449, R450). -/
def updateCmd (ag : Agent) (arg : BitVec 24) (d : Dev) : CmdSt × Dev :=
  let t := argBits arg 15 8
  if t = 0 ∨ 3 < t then (.arg, d)
  else d.onRegion arg fun r =>
    let x := d.pnl.r[r]
    let exp := d.view ag (lattice 12 (0x10 + r.val) 0x10)
    if x.st = .idle then (.ok, d.watchLegal fun d => d.startRegion r .running t exp)
    else if x.busy then
      let d1 := d.updRgn r fun x => { x with pending := some (t, exp) }
      (.ok, if x.pending.isSome then d1.raisePnl 2 else d1)
    else (.state x.st.code, d)

/-- ADOPT (R453). -/
def adoptCmd (arg : BitVec 24) (d : Dev) : CmdSt × Dev :=
  d.onRegion arg fun r =>
    let x := d.pnl.r[r]
    if x.st ≠ .held then (.state x.st.code, d)
    else
      let crc := d.rgnCrc d.pnl.new r.val
      if crc = x.jCrc ∧ x.jUpdate ∧ x.jValid then
        (.ok, (d.copyPixels (d.rgnPixels r.val)).updRgn r fun x =>
          { x with st := .idle, crc := crc, exp := crc, lastUpdate := true, done := x.done + 1 })
      else (.arg, d)

/-- CLEAR (R453). -/
def clearCmd (arg : BitVec 24) (d : Dev) : CmdSt × Dev :=
  d.onRegion arg fun r =>
    let x := d.pnl.r[r]
    if x.busy then (.state x.st.code, d) else (.ok, d.watchLegal fun d => d.startRegion r .clearing 0 0)

/-! ### The commands of the table -/

/-- UPDATE. -/
def execPnlUpdate (ag : Agent) (arg : BitVec 24) (s : State) : Host.Outcome State Fault Refusal :=
  .next { s with dev := issueCommand ag 12 0x10 arg (0x10 + argUnit arg) (updateCmd ag arg) s.dev }

/-- ADOPT. -/
def execAdopt (ag : Agent) (arg : BitVec 24) (s : State) : Host.Outcome State Fault Refusal :=
  .next { s with dev := issueCommand ag 12 0x11 arg (0x10 + argUnit arg) (adoptCmd arg) s.dev }

/-- CLEAR. -/
def execClear (ag : Agent) (arg : BitVec 24) (s : State) : Host.Outcome State Fault Refusal :=
  .next { s with dev := issueCommand ag 12 0x12 arg (0x10 + argUnit arg) (clearCmd arg) s.dev }

/-- PANEL_FRAME_INSTANT. -/
def execPanelFrameInstant (s : State) : Host.Outcome State Fault Refusal := .next { s with dev := s.dev.panelFrame }

/-- PANEL_UPDATE_COMPLETE. -/
def execPanelUpdateComplete (r : Fin 16) (s : State) : Host.Outcome State Fault Refusal := .next { s with dev := s.dev.updateComplete r }

/-- PANEL_CLEAR_COMPLETE. -/
def execPanelClearComplete (r : Fin 16) (s : State) : Host.Outcome State Fault Refusal := .next { s with dev := s.dev.clearComplete r }

/-- PANEL_AUTO_CLEAR. -/
def execPanelAutoClear (s : State) : Host.Outcome State Fault Refusal := .next { s with dev := s.dev.panelAutoClear }

/-- STRIP_UPDATE. -/
def execStripUpdate (s : State) : Host.Outcome State Fault Refusal := .next { s with dev := s.dev.stripUpdate }

/-- PANEL_POWER_GOOD. -/
def execPanelPowerGood (s : State) : Host.Outcome State Fault Refusal := .next { s with dev := s.dev.panelPowerGood }

/-- PANEL_POWER_DOWN. -/
def execPanelPowerDown (s : State) : Host.Outcome State Fault Refusal := .next { s with dev := s.dev.panelPowerDown }

/-- PANEL_FAULT. -/
def execPanelFault (cause : PanelFaultCause) (s : State) : Host.Outcome State Fault Refusal := .next { s with dev := s.dev.panelFault cause }

/-- PANEL_WINDOW_ACCESS. -/
def execPanelWindowAccess (ag : Agent) (write : Option Word) (s : State) : Host.Outcome State Fault Refusal :=
  .next { s with dev := match write with
    | some w => writeAccess ag 12 0 (lattice 12 0 0x1C) (fun d => d.writeWindow w) s.dev
    | none => readAccess ag 12 0 (lattice 12 0 0x1C) (fun d => d.readWindow) s.dev }

/-- PANEL_MEMORY_ACCESS. -/
def execPanelMemoryAccess (ag : Agent) (write : Option Word) (s : State) : Host.Outcome State Fault Refusal :=
  .next { s with dev := match write with
    | some w => writeAccess ag 12 0 (lattice 12 0 0x24) (fun d => d.writeMem w) s.dev
    | none => readAccess ag 12 0 (lattice 12 0 0x24) (fun d => d.readMem) s.dev }

/-- STRESS_SAVE. -/
def execStressSave (s : State) : Host.Outcome State Fault Refusal := .next { s with dev := s.dev.stressSave }

end Sys2Proof.Machine
end

