-- ==== Sys2Proof/Machine/Connector.lean ====
section
/-! DEFINITION. Connector control (08_connector.md): control pilot, proximity, grant, sessions, the close and the
open sequence, DC module frames, Green PHY modems and the commands of EVC; and the events of Kaolin and the load
switches that a session acts on. -/

namespace Sys2Proof.Machine

/-! ### Pilot, proximity and grant (R250 to R257) -/

/-- The state a high level classifies as (R251). -/
def classify (mv : Int) : Pilot :=
  if 10500 ≤ mv then .A else if 7500 ≤ mv then .B else if 4500 ≤ mv then .C else if 1500 ≤ mv then .D
  else if -1500 ≤ mv then .E else .invalid

/-- EVC_PILOT.state. -/
def Pilot.code : Pilot → Nat
  | .A => 0
  | .B => 1
  | .C => 2
  | .D => 3
  | .E => 4
  | .F => 5
  | .invalid => 6

/-- The proximity code of a resistance (R254). -/
def ppCodeOf (ohm : Nat) : Nat :=
  if 2200 ≤ ohm then 5 else if 1000 ≤ ohm then 1 else if 500 ≤ ohm then 2 else if 160 ≤ ohm then 3 else if 60 ≤ ohm then 4 else 6

/-- The cable current of a proximity code in 0.1 A. -/
def cableDa (code : Nat) : Option Nat :=
  if code = 1 then some 130 else if code = 2 then some 200 else if code = 3 then some 320 else if code = 4 then some 630 else none

/-- EVC_CFG.comm: PWM_ONLY (0), HLC (1), HLC_THEN_PWM (2). -/
def Dev.evcComm (d : Dev) (n : Fin 8) : Nat := d.rfld 5 n.val 4 17 16

/-- The slice offers current by PWM: PWM_ONLY, or HLC_THEN_PWM after its fallback; a DC or BIDIR slice never does
(R253). -/
def Dev.inPwm (d : Dev) (n : Fin 8) : Bool :=
  !(d.kind n.val).isDc && (d.evcComm n = 0 || (d.evcComm n = 2 && d.evc.s[n].fellBack))

/-- A pilot in D without vent counts as B (R261). -/
def Dev.pilotOf (d : Dev) (n : Fin 8) : Pilot :=
  let p := d.evc.s[n].pilot
  if p = .D ∧ !bit (d.reg 5 n.val 4) 20 then .B else p

/-- Lower a grant to a limit below it, naming the limiter (R255). -/
def limitTo (g : Nat × Nat) (da limiter : Nat) : Nat × Nat := if da < g.1 then (da, limiter) else g

/-- The grant in 0.1 A and its limiter CFG (0), CABLE (1), HOST (2), GRID (3) (R255). -/
def Dev.grantOf (d : Dev) (n : Fin 8) (ppCode : Nat) : Nat × Nat :=
  let g0 := (d.rfld 5 n.val 4 12 0, 0)
  let g1 := match cableDa ppCode with
    | some c => if (d.kind n.val).isAc then limitTo g0 c 1 else g0
    | none => g0
  let g2 := limitTo g1 (d.rfld 5 n.val 0x24 15 0) 2
  if d.evc.s[n].limActive then limitTo g2 d.evc.s[n].limDa 3 else g2

/-- The duty of a grant in 0.1 %, or none (R255). -/
def dutyOf (grant : Nat) : Option Nat :=
  if grant < 60 then none else if grant ≤ 510 then some (grant * 10 / 6) else some (grant * 4 / 10 + 640)

/-- The session runs from PLUGGED to SUSPENDED. -/
def Sess.connected : Sess → Bool
  | .plugged => true
  | .authorizing => true
  | .authorized => true
  | .energizing => true
  | .charging => true
  | .suspended => true
  | _ => false

/-- The states in which the PWM of R255 runs in mode PWM_ONLY, and after a fallback (R252, R253; log entry 27, DEDUCED). -/
def Dev.pwmState (d : Dev) (n : Fin 8) : Bool :=
  match d.evc.s[n].st with
  | .authorized => true
  | .energizing => true
  | .charging => true
  | .suspended => d.evc.s[n].susp = .vehicle || (d.evc.s[n].susp = .lifted && !d.evc.s[n].waiting)
  | .plugged => d.evcComm n = 2
  | .authorizing => d.evcComm n = 2
  | _ => false

/-- The pilot output (R252): inert (0), constant −12 V (1), constant +12 V (2) or PWM (3), and its duty. -/
def Dev.pilotDrive (d : Dev) (n : Fin 8) : Nat × Nat :=
  let x := d.evc.s[n]
  if x.fn.st = .off then (0, 0)
  else if x.fn.st ≠ .running ∨ x.st = .fault then (1, 0)
  else if d.inPwm n then
    match (if d.pwmState n then dutyOf x.grant else none) with
    | some k => (3, k)
    | none => (2, 0)
  else if x.st.connected then (3, 50) else (2, 0)

/-- Set the pilot output to what R252 says, at a control cycle instant, where a rising edge may fall (R250). -/
def Dev.drivePilot (d : Dev) (n : Fin 8) : Dev :=
  let (k, duty) := d.pilotDrive n
  d.updEvc n fun x => { x with drive := k, duty := duty, pwmOn := k = 3 }

/-- Between control cycles a constant level comes at once, and PWM or a new duty waits for the next rising edge
(R250, R253). -/
def Dev.levelPilot (d : Dev) (n : Fin 8) : Dev := if (d.pilotDrive n).1 = 3 then d else d.drivePilot n

/-- The state a slice reads from a high level: F while the device itself holds the pilot at −12 V (R251). -/
def EvcSlice.pilotRead (x : EvcSlice) (mv : Int) : Pilot := if x.drive = 1 ∧ classify mv = .invalid then .F else classify mv

/-- Since when Kaolin's pilot comparators see the level in the hold band (R289). -/
def Dev.heldSince (d : Dev) (n : Fin 8) (mv : Int) : Option Nat :=
  if holdBand (d.kaoByte n 0x2C) mv then (d.evc.s[n].holdSince).orElse fun _ => some d.el else none

/-- The level has left the A band, so that a residual self-test is due, only while KENn is released and no close request
is present (R293). -/
def Dev.leavesA (d : Dev) (n : Fin 8) (mv : Int) : Bool :=
  let x := d.evc.s[n]
  !d.kao.m[n].ken && !d.kao.m[n].req && (x.leftA || (decide (10500 ≤ x.highMv) && decide (mv < 10500)))

/-- The levels of one control cycle enter the debounce (R251). -/
def Dev.takePilot (d : Dev) (n : Fin 8) (m : CycleMeas) : Dev :=
  let x := d.evc.s[n]
  let c := x.pilotRead m.highMv
  let k := if c = x.cand then x.candN + 1 else 1
  let accept := decide (d.rfld 5 n.val 8 7 0 ≤ k)
  let d1 := d.updEvc n fun x =>
    { x with highMv := m.highMv, holdSince := d.heldSince n m.highMv, leftA := d.leavesA n m.highMv, lowMv := m.lowMv, diode := x.pwmOn && decide (-10500 < m.lowMv), cand := c, candN := min k 20
             pilot := if accept then c else x.pilot }
  if accept ∧ x.pilot = .A ∧ c ≠ .A then d1.raiseEvc n.val 1 else d1

/-- The proximity resistance of one control cycle (R254). -/
def Dev.takePp (d : Dev) (n : Fin 8) (ohm : Nat) : Dev :=
  d.updEvc n fun x => { x with ppOhm := min ohm 0xFFFF, ppCode := ppCodeOf ohm }

/-- The grant of one control cycle (R255). -/
def Dev.takeGrant (d : Dev) (n : Fin 8) : Dev :=
  let (g, l) := d.grantOf n d.evc.s[n].ppCode
  d.updEvc n fun x => { x with grant := g, limiter := l }

/-! ### Session states and messages (R258, R277) -/

/-- The lowest-numbered C1 queue of the engine. -/
def Dev.evcQueue (d : Dev) (n : Nat) : Option (Fin 64) := d.findQueue fun e => e.prod = 0x20 + n && e.cls = 1

/-- A SESSION_EVENT message at a state change. -/
def Dev.sessionEvent (d : Dev) (n : Fin 8) (old : Sess) : Dev :=
  match d.evcQueue n.val with
  | none => d
  | some q =>
    let x := d.evc.s[n]
    let ident : Word := if x.st = .idle ∨ x.st = .plugged then 0 else x.sid
    d.produce q (mkMsg 0x30 (0x20 + n.val) n.val ident
      [BitVec.ofNat 64 d.tim.now,
       packQ [(8, old.code), (8, x.st.code), (8, x.reason), (8, x.refuse), (16, x.grant), (16, 0)]])

/-- The EVC_FLAGS bits a state change sets. -/
def sessMask (st : Sess) : Nat :=
  match st with
  | .authorizing => 0x5
  | .finished => 0x11
  | .fault => 0x21
  | _ => 0x1

/-- The session changes state. -/
def Dev.goSess (d : Dev) (n : Fin 8) (st : Sess) : Dev :=
  let old := d.evc.s[n].st
  let d1 := d.updEvc n fun x =>
    { x with st := st, young := true, refuse := if st = .plugged then x.refuse else 0, sid := if st = .idle ∨ st = .plugged then 0 else x.sid }
  ((d1.raise 5 n.val 0x30 (sessMask st)).sessionEvent n old).levelPilot n

/-- Switch the slice's LOCK load switches (R265, R268). -/
def Dev.setLock (d : Dev) (n : Fin 8) (on : Bool) : Dev :=
  let d1 := (d.lockChannels n.val).foldl (fun (acc : Dev) c => acc.evcDemand c on) d
  d1.updEvc n fun x => { x with lockOn := on && !(d.lockChannels n.val).isEmpty, lockOk := x.lockOk && on }

/-- LSWn is on. -/
def Dev.coilOn (d : Dev) (n : Fin 8) : Bool := d.lsw.c[coil n].st.driven

/-- LSWn switches off and the close request to Kaolin is withdrawn (R268 step 2). The 100 ms of step 4 count from then:
where LSWn is off already they go on. -/
def Dev.cutContactor (d : Dev) (n : Fin 8) : Dev :=
  (d.evcDemand (coil n) false).updEvc n fun x =>
    { x with
      asking := false, waiting := false, close := .none
      tOpen := if d.coilOn n ∨ x.tOpen.isNone then some d.el else x.tOpen }

/-- A SESSION_END reading that is due is taken, with the Karurn record (R238, R244). -/
def Dev.takeEnd (d : Dev) (n : Fin 8) : Dev :=
  (d.sessionEnd n d.evc.s[n].reason).updEvc n fun x => { x with endDue := false }

/-- What a session that FAULT_CLEAR ends still owes: its SESSION_END reading, and the release of its lock (R268). -/
def Dev.settleEnd (d : Dev) (n : Fin 8) : Dev :=
  let d1 := if d.evc.s[n].endDue then d.takeEnd n else d
  if d1.evc.s[n].lockOn then d1.setLock n false else d1

/-- The session enters IDLE. -/
def Dev.goIdle (d : Dev) (n : Fin 8) : Dev :=
  (d.goSess n .idle).updEvc n fun x =>
    { x with startTaken := false, endDue := false, fellBack := false, tOpen := none, waiting := false, close := .none, susp := .lifted, overRun := 0 }

/-- The session ends in FINISHED (R262, R263, R268 step 6). -/
def Dev.goFinished (d : Dev) (n : Fin 8) (reason : Nat) : Dev :=
  ((d.updEvc n fun x => { x with reason := reason, preauth := none }).goSess n .finished).setLock n false

/-- The session ends in FAULT: the coil path opens; the SESSION_END reading follows if one is due (R262, R270). -/
def Dev.goFault (d : Dev) (n : Fin 8) (reason : Nat) : Dev :=
  if d.evc.s[n].st = .fault then d
  else
    let d1 := d.cutContactor n
    let d2 := (d1.updEvc n fun x => { x with reason := reason, preauth := none }).goSess n .fault
    if d.evc.s[n].endDue then d2 else d2.setLock n false

/-! ### Stop causes and the open sequence (R266 to R268) -/

/-- The rung a stop cause serves (R42, R267). -/
def stopRung (reason : Nat) : Nat := if reason = 12 then 2 else if reason = 7 ∨ reason = 8 then 3 else 4

/-- The pilot reads A or B, which ends a wait early. -/
def Dev.pilotOpen (d : Dev) (n : Fin 8) : Bool := d.pilotOf n = .A || d.pilotOf n = .B

/-- A wait begins, or the contactor opens at once. -/
def Dev.beginOpen (d : Dev) (n : Fin 8) (wait : Nat) : Dev :=
  if wait = 0 ∨ d.pilotOpen n then d.cutContactor n
  else d.updEvc n fun x => { x with waiting := true, waitEnd := d.el + wait }

/-- The session moves to STOPPING (R262, R266). -/
def Dev.goStopping (d : Dev) (n : Fin 8) (reason wait : Nat) : Dev :=
  ((d.updEvc n fun x => { x with reason := reason, susp := .lifted, toSusp := false }).goSess n .stopping).beginOpen n wait

/-- A later cause during STOPPING (R267): a higher rung replaces the reason and may shorten the wait. -/
def Dev.overtakeStop (d : Dev) (n : Fin 8) (reason wait : Nat) : Dev :=
  if stopRung reason < stopRung d.evc.s[n].reason then
    d.updEvc n fun x => { x with reason := reason, waitEnd := if x.waiting then min x.waitEnd (d.el + wait) else x.waitEnd }
  else d

/-- A stop cause reaches the session (R262, R266, R267). -/
def Dev.stopCause (d : Dev) (n : Fin 8) (reason wait : Nat) : Dev :=
  match d.evc.s[n].st with
  | .authorizing => d.goFinished n reason
  | .authorized => d.goFinished n reason
  | .energizing => d.goStopping n reason wait
  | .charging => d.goStopping n reason wait
  | .suspended => d.goStopping n reason wait
  | .stopping => d.overtakeStop n reason wait
  | _ => d

/-- EVC_TIMING.ev_wait in ns. -/
def Dev.evWait (d : Dev) (n : Fin 8) : Nat := d.rfld 5 n.val 8 31 24 * ms 100
/-- EVC_TIMING.grid_wait in ns. -/
def Dev.gridWait (d : Dev) (n : Fin 8) : Nat := d.rfld 5 n.val 8 23 16 * ms 20

/-- The session is SUSPENDED, and its contactor opens: at once for the vehicle, after ev_wait for the device
(R262). -/
def Dev.goSuspended (d : Dev) (n : Fin 8) (by_ : Susp) : Dev :=
  ((d.updEvc n fun x => { x with susp := by_, toSusp := true, overRun := 0 }).goSess n .suspended).beginOpen n
    (if by_ = .vehicle then 0 else d.evWait n)

/-- Whether the contactor is open and nothing drives it. -/
def Dev.contactorOpen (d : Dev) (n : Fin 8) : Bool := !d.coilOn n && !d.evc.s[n].asking && !d.kao.m[n].fb && !d.kao.m[n].ken

/-- STOP_WAIT_END (R268 step 1). -/
def Dev.stopWaitEnd (d : Dev) (n : Fin 8) : Dev :=
  if d.evc.s[n].waiting ∧ d.evc.s[n].waitEnd ≤ d.el then d.cutContactor n else d

/-- SESSION_END_READING (R268 step 5): at the first sample instant after FBn shows open. In FAULT the lock then
releases. -/
def Dev.endReading (d : Dev) (n : Fin 8) : Dev :=
  let x := d.evc.s[n]
  if x.endDue ∧ x.tOpen.isSome ∧ (x.st = .stopping ∨ x.st = .fault) ∧ !d.kao.m[n].fb ∧ d.now % samplePeriod = 0 then
    let d1 := d.takeEnd n
    if x.st = .fault then d1.setLock n false else d1
  else d

/-- OPEN_CONFIRM_TIMEOUT (R268): FBn does not show open 100 ms after LSWn off. -/
def Dev.openTimeout (d : Dev) (n : Fin 8) : Dev :=
  let x := d.evc.s[n]
  match x.tOpen with
  | some t =>
    if d.after t (ms 100) ∧ d.kao.m[n].fb ∧ x.endDue ∧ (x.st = .stopping ∨ x.st = .suspended ∨ x.st = .fault) then
      let r := if x.st = .fault then x.reason else 16
      let d1 := (d.updEvc n fun x => { x with reason := r }).takeEnd n
      if x.st = .fault then d1.setLock n false else d1.goFault n 16
    else d
  | none => d

/-! ### Start and close conditions (R259 to R261) -/

/-- The first start condition that fails, 0 for none (R259). -/
def Dev.startRefuse (d : Dev) (n : Fin 8) : Nat :=
  let x := d.evc.s[n]
  if !d.priceShown then 1
  else if x.disc then 2
  else if (d.que.spaces[spaceAt (n.val + 1)]).quar.isSome then 3
  else if d.kao.m[n].st ≠ .armed then 4
  else if !d.mtrRuns n.val then 5
  else if x.ppCode = 0 ∨ 5 ≤ x.ppCode then 6
  else if d.evcComm n ≠ 0 ∧ !d.runs (2 + n.val) then 7
  else 0

/-- EVC_DC_STAT2.fresh: a status frame arrived within timeout (R275). -/
def Dev.dcFresh (d : Dev) (n : Fin 8) : Bool :=
  d.evc.s[n].fresh && !d.after d.evc.s[n].tRx (d.rfld 5 n.val 0x64 23 16 * ms 10)

/-- The close conditions of R261. -/
def Dev.closeConditions (d : Dev) (n : Fin 8) : Bool :=
  let x := d.evc.s[n]
  let p := d.pilotOf n
  (x.st = .authorized || (x.st = .suspended && (x.susp = .vehicle || x.susp = .lifted))) &&
    (p = .C || p = .D) && d.kao.m[n].st = .armed && !d.kao.hbLost && d.mtrRuns n.val &&
    (if (d.kind n.val).isAc then !d.inPwm n || decide (60 ≤ x.grant)
     else bit (d.reg 5 n.val 0x64) 0 && x.rxStatus.getLsbD 0 && d.dcFresh n)

/-- The session enters AUTHORIZED with a method and a reference. -/
def Dev.goAuthorized (d : Dev) (n : Fin 8) (method : Nat) (ref : List Word) : Dev :=
  (d.updEvc n fun x => { x with method := method, ref := ref, preauth := none }).goSess n .authorized

/-- A valid pre-authorisation, or free mode, authorises at once (R262 to R264). -/
def Dev.authorizeAtOnce (d : Dev) (n : Fin 8) : Dev :=
  match d.evc.s[n].preauth with
  | some p =>
    if d.after p.since (sec 120) then (if bit (d.reg 5 n.val 4) 18 then d.goAuthorized n 0 (List.replicate 8 0) else d)
    else d.goAuthorized n p.method p.ref
  | none => if bit (d.reg 5 n.val 4) 18 then d.goAuthorized n 0 (List.replicate 8 0) else d

/-- A start condition fails: refuse shows it, and a refuse that becomes non-zero sets its flag. -/
def Dev.noteRefuse (d : Dev) (n : Fin 8) (r : Nat) : Dev :=
  let d1 := d.updEvc n fun x => { x with refuse := r }
  if d.evc.s[n].refuse = 0 then d1.raiseEvc n.val 6 else d1

/-- The start conditions are checked in PLUGGED (R260). A pre-authorisation or free mode acts at the next control cycle,
since AUTHORIZING lasts one (R262; log entry 78, DEDUCED). -/
def Dev.tryStart (d : Dev) (n : Fin 8) : Dev :=
  let r := d.startRefuse n
  if r ≠ 0 then d.noteRefuse n r
  else
    match d.issueId (spaceAt (n.val + 1)) with
    | (some w, d1) =>
      (d1.updEvc n fun x => { x with sid := w, tAuth := d.el, method := 0, ref := List.replicate 8 0 }).goSess n .authorizing
    | (none, d1) => d1.noteRefuse n 3

/-! ### The close sequence (R265) -/

/-- ENERGIZING begins: the lock switches on if it is used and not on yet (steps 1 and 2). -/
def Dev.goEnergizing (d : Dev) (n : Fin 8) : Dev :=
  let useLock := bit (d.reg 5 n.val 4) 19 && !d.evc.s[n].lockOk
  let d1 := (d.updEvc n fun x =>
    { x with tEnergize := d.el, tClose := d.el, endDue := true, toSusp := false, tOpen := none, waiting := false
             close := if useLock then .lock else .locked }).goSess n .energizing
  if useLock then d1.setLock n true else d1

/-- The lock is confirmed: the HK input reads above the threshold, or no confirmation is asked for. -/
def Dev.lockConfirmed (d : Dev) (n : Fin 8) : Bool :=
  let w := d.reg 5 n.val 0x38
  !bit w 31 || decide (fld w 15 0 < (d.pwr.hkMv[fld w 27 24]?).getD 0)

/-- One control cycle of the close sequence. Where an opening of SUSPENDED had not yet released KENn, it is closed
already. -/
def Dev.closeCycle (d : Dev) (n : Fin 8) : Dev :=
  let x := d.evc.s[n]
  match x.close with
  | .lock => if d.lockConfirmed n then d.updEvc n fun x => { x with lockOk := true, close := .locked } else d
  | .locked => d.updEvc n fun x => { x with asking := true, close := if d.kao.m[n].ken then .ken else .requested, tClose := d.el }
  | .energized =>
    if d.kao.m[n].fb then
      (d.updEvc n fun x => { x with close := .none, overRun := 0 }).goSess n .charging
    else d
  | _ => d

/-- LOCK_CONFIRM_TIMEOUT (R265 step 3). -/
def Dev.lockTimeout (d : Dev) (n : Fin 8) : Dev :=
  let x := d.evc.s[n]
  if x.st = .energizing ∧ x.close = .lock ∧ d.after x.tEnergize (ms 500) ∧ !d.lockConfirmed n then d.goStopping n 14 0 else d

/-- CONTACTOR_ENERGIZE (R265 step 6): the first sample instant after Kaolin closes KENn. -/
def Dev.energize (d : Dev) (n : Fin 8) : Dev :=
  let x := d.evc.s[n]
  if x.st = .energizing ∧ x.close = .ken ∧ d.kao.m[n].ken ∧ d.mtrRuns n.val ∧ d.now % samplePeriod = 0 then
    let d1 := ((d.evcDemand (coil n) true).updEvc n fun x => { x with close := .energized, tLsw := d.el, startTaken := true }).raiseEvc n.val 3
    if x.startTaken then d1 else d1.sessionStart n x.sid x.method x.ref
  else d

/-- CLOSE_TIMEOUT (R265 step 7). -/
def Dev.closeTimeout (d : Dev) (n : Fin 8) : Dev :=
  let x := d.evc.s[n]
  if x.st = .energizing ∧ x.close = .energized ∧ !d.kao.m[n].fb ∧ d.after x.tLsw (ms (d.rfld 5 n.val 8 15 8)) then d.goFault n 18
  else d

/-- ENERGIZE_TIMEOUT (R265). -/
def Dev.energizeTimeout (d : Dev) (n : Fin 8) : Dev :=
  if d.evc.s[n].st = .energizing ∧ d.after d.evc.s[n].tEnergize (sec 60) then d.goStopping n 21 0 else d

/-! ### One control cycle -/

/-- A pilot fault: E, INVALID or diode_fault while the session may carry current (R262, R267). -/
def Dev.pilotFault (d : Dev) (n : Fin 8) : Bool :=
  let x := d.evc.s[n]
  (x.st = .energizing || x.st = .charging || x.st = .suspended || x.st = .stopping) &&
    (x.pilot = .E || x.pilot = .invalid || x.diode)

/-- The metrology function of the slice is in FAULT. -/
def Dev.mtrFault (d : Dev) (n : Fin 8) : Bool := ((d.mtr.eng[n.val]).fn.st) = .fault

/-- A wait ends early, and a suspension's opening that is confirmed ends. -/
def Dev.openCycle (d : Dev) (n : Fin 8) : Dev :=
  let x := d.evc.s[n]
  if x.waiting ∧ d.pilotOpen n then d.cutContactor n
  else if x.st = .suspended ∧ x.tOpen.isSome ∧ d.contactorOpen n then d.updEvc n fun x => { x with tOpen := none, toSusp := false }
  else d

/-- The transition of one control cycle, by the state (R260 to R262). -/
def Dev.sessionCycle (d : Dev) (n : Fin 8) : Dev :=
  let x := d.evc.s[n]
  let p := d.pilotOf n
  match x.st with
  | .idle =>
    if x.pilot = .B ∨ x.pilot = .C ∨ x.pilot = .D then (d.updEvc n fun x => { x with tPlug := d.el, refuse := 0, matchedInTime := false }).goSess n .plugged else d
  | .plugged => if p = .A then d.goIdle n else d.tryStart n
  | .authorizing => if p = .A then d.goFinished n 1 else d.authorizeAtOnce n
  | .authorized => if p = .A then d.goFinished n 1 else if d.closeConditions n then d.goEnergizing n else d
  | .energizing =>
    if p = .A then d.goStopping n 1 0 else if d.mtrFault n then d.goStopping n 12 0 else d.closeCycle n
  | .charging =>
    if p = .A then d.goStopping n 1 0
    else if d.mtrFault n then d.goStopping n 12 0
    else if p = .B then d.goSuspended n .vehicle
    else if d.inPwm n ∧ x.grant < 60 then d.goSuspended n .grant
    else if d.coilOn n ∧ !d.kao.m[n].ken then d.cutContactor n
    else d
  | .suspended =>
    if p = .A then d.goStopping n 1 0
    else if d.mtrFault n then d.goStopping n 12 0
    else
      let d1 := if x.susp = .grant ∧ 60 ≤ x.grant then d.updEvc n fun x => { x with susp := .lifted } else d
      if d1.closeConditions n then d1.goEnergizing n else d1
  | .stopping =>
    let d1 := if d.mtrFault n then d.overtakeStop n 12 0 else d
    if d1.evc.s[n].tOpen.isSome ∧ !d1.evc.s[n].endDue then d1.goFinished n d1.evc.s[n].reason else d1
  | .finished => if p = .A then d.goIdle n else d
  | .fault => d

/-- The session's transition of a control cycle. A state lasts at least one cycle (R262). -/
def Dev.sessionTurn (d : Dev) (n : Fin 8) : Dev :=
  let d1 := d.openCycle n
  if d.evc.s[n].young then d1 else d1.sessionCycle n

/-- The session's part of a control cycle: a Kaolin trip goes first, then a pilot fault (R262). -/
def Dev.sessionStep (d : Dev) (n : Fin 8) : Dev :=
  if d.evc.s[n].tripSeen then (d.updEvc n fun x => { x with tripSeen := false }).goFault n 11
  else if !d.evc.s[n].fn.isRunning then d
  else if d.pilotFault n then d.goFault n 13
  else d.sessionTurn n

/-! ### DC module frames (R275, R276) -/

/-- The current setpoint in 0.1 A after the clamps of R256 and R276. -/
def Dev.dcSetpoint (d : Dev) (n : Fin 8) : Int :=
  let x := d.evc.s[n]
  let want := signed 16 (d.rfld 5 n.val 0x68 15 0)
  let ex := d.reg 5 n.val 0x2C
  if 0 ≤ want then min want x.grant
  else if d.kind n.val = .bidir ∧ bit ex 31 then
    let m := min (fld ex 15 0) x.grant
    max want (-((if x.limActive then min m x.limDa else m) : Nat))
  else 0

/-- The setpoint frame. -/
def Dev.setpointFrame (d : Dev) (n : Fin 8) : List Byte :=
  let x := d.evc.s[n]
  let live := x.st = .energizing || x.st = .charging
  let exp := d.kind n.val = .bidir && bit (d.reg 5 n.val 0x2C) 31
  [x.txSeq + 1, BitVec.ofNat 8 (b1 (bit (d.reg 5 n.val 0x64) 0 && live) + 2 * b1 exp + 4 * b1 (x.st = .stopping))] ++
    leBytes 2 (d.rfld 5 n.val 0x68 31 16) ++ leBytes 2 (twos 16 (d.dcSetpoint n)) ++ leBytes 2 x.grant

/-- Put a frame on a CAN port. -/
def Dev.sendCan (d : Dev) (port : Fin 2) (f : CanFrame) : Dev :=
  { d with evc := { d.evc with canTx := d.evc.canTx.set port.val (some f) port.isLt } }

/-- The CAN port of EVC_DC_ID. -/
def Dev.dcPort (d : Dev) (n : Fin 8) : Fin 2 := if bit (d.reg 5 n.val 0x60) 30 then 1 else 0

/-- The hardware frames of a slice run: DC or BIDIR with a period. -/
def Dev.dcFrames (d : Dev) (n : Fin 8) : Bool := (d.kind n.val).isDc && d.rfld 5 n.val 0x64 31 24 ≠ 0

/-- A setpoint frame at every control cycle instant that is a multiple of the period. -/
def Dev.sendSetpoint (d : Dev) (n : Fin 8) : Dev :=
  if d.dcFrames n ∧ d.now % (d.rfld 5 n.val 0x64 31 24 * ms 10) = 0 then
    let f := d.setpointFrame n
    let w := d.reg 5 n.val 0x60
    (d.sendCan (d.dcPort n) { ext := bit w 31, id := BitVec.ofNat 29 (fld w 28 0), data := f }).updEvc n fun x =>
      { x with txSeq := x.txSeq + 1, lastTx := f }
  else d

/-- The slice whose status frame this is (R275). -/
def Dev.statusSlice (d : Dev) (port : Fin 2) (f : CanFrame) : Option (Fin 8) :=
  slices.find? fun n =>
    d.dcFrames n && d.dcPort n = port && bit (d.reg 5 n.val 0x60) 31 = f.ext &&
      f.id = BitVec.ofNat 29 (fld (d.reg 5 n.val 0x60) 28 0 + 1) && f.data.length = 8

/-- A status frame arrives. -/
def Dev.takeStatus (d : Dev) (n : Fin 8) (f : CanFrame) : Dev :=
  d.updEvc n fun x =>
    { x with rxSeq := f.data.headD 0, rxStatus := (f.data.drop 1).headD 0, outDv := BitVec.ofNat 16 (leAt f.data 2 2)
             outDa := BitVec.ofNat 16 (leAt f.data 4 2), fresh := true, tRx := d.el }

/-- A frame with another identifier passes to firmware through the port's queue. -/
def Dev.passCan (d : Dev) (port : Fin 2) (f : CanFrame) : Dev :=
  match d.findQueue fun e => e.prod = 0x0B + port.val with
  | some q => d.produce q (mkMsg Config.canType.toNat (0x0B + port.val) port.val 0 ((Config.canWords f.ext f.id f.data).take 255))
  | none => d

/-- A frame arrives on a CAN port. -/
def Dev.canRx (d : Dev) (port : Fin 2) (f : CanFrame) : Dev :=
  match d.statusSlice port f with
  | some n => d.takeStatus n f
  | none => d.passCan port f

/-- CAN_FRAME_TX (R118): a port sends a message of a queue it consumes. -/
def Dev.canSend (d : Dev) (port : Fin 2) (q : Fin 64) (cs : List WordCheck) : Dev :=
  if d.que.q[q].entry.cons = 0x0B + port.val ∧ d.serves q then
    match d.takeMsg q cs with
    | (some ws, d1) =>
      if isPoison ws then d1
      else
      let (ext, id, data) := Config.canFrame (ws.drop 1)
      d1.sendCan port { ext := ext, id := id, data := data }
    | (none, d1) => d1
  else d

/-- MODULE_LOST (R275). -/
def Dev.moduleLost (d : Dev) (n : Fin 8) : Dev :=
  let x := d.evc.s[n]
  if d.dcFrames n ∧ (x.st = .energizing ∨ x.st = .charging) ∧ d.after x.tRx (d.rfld 5 n.val 0x64 23 16 * ms 10) then
    d.oneEvent fun d => (((d.updEvc n fun x => { x with fresh := false }).raiseEvc n.val 10).goStopping n 15 0)
  else d

/-! ### Green PHY modems (R273, R274) -/

/-- The modem may take part in SLAC. -/
def Dev.gpOpen (d : Dev) (n : Fin 8) : Bool :=
  nbit (d.persona 7) n.val && d.runs (2 + n.val) && d.evc.s[n].st.connected && d.evc.s[n].drive = 3 && d.evc.s[n].duty = 50

/-- The modem follows the slice: it leaves the logical network at pilot A, and waits for SLAC while it may take part. -/
def Dev.gpFollow (d : Dev) (n : Fin 8) : Dev :=
  let g := d.evc.gp[n]
  if !d.runs (2 + n.val) then d
  else if d.evc.s[n].pilot = .A then (if g.st = .off then d else d.updGp n fun g => { g with st := .off, attempts := 0, nmk := 0 })
  else if d.gpOpen n then (if g.st = .off then d.updGp n fun g => { g with st := .wait } else d)
  else if g.st = .wait ∨ g.st = .slac then d.updGp n fun g => { g with st := .off }
  else d

/-- SLAC_PARM_REQUEST: the modem runs the EVSE side with a vehicle and measures its mean attenuation. -/
def Dev.slacParm (d : Dev) (n : Fin 8) (mac : BitVec 48) (atten : Nat) : Dev :=
  let g := d.evc.gp[n]
  if d.gpOpen n ∧ (g.st = .wait ∨ g.st = .slac ∨ g.st = .lost) then
    let a := min atten 255
    let rivals := Vector.ofFn fun m : Fin 8 =>
      if m ≠ n ∧ d.evc.gp[m].st = .slac ∧ d.evc.gp[m].slacMac = mac then some d.evc.gp[m].atten else none
    let d1 := slices.foldl (fun (acc : Dev) (m : Fin 8) =>
      if rivals[m].isSome then acc.updGp m fun g => { g with rivals := g.rivals.set n.val (some a) n.isLt } else acc) d
    d1.updGp n fun g => { g with st := .slac, slacMac := mac, atten := a, rivals := rivals, attempts := min (g.attempts + 1) 255 }
  else d

/-- Only a modem whose attenuation is lower, and lower by the margin, than that of every other modem that runs SLAC
with the same vehicle at the same time answers (R274). -/
def Dev.slacQualifies (d : Dev) (n : Fin 8) : Bool :=
  let g := d.evc.gp[n]
  g.rivals.toList.all fun r => match r with
    | some a => decide (g.atten < a) && decide (g.atten + d.rfld 5 (0x10 + n.val) 0 23 16 ≤ a)
    | none => true

/-- A match within 20 s of entry into PLUGGED keeps the 5 % (R253). -/
def Dev.noteMatch (d : Dev) (n : Fin 8) : Dev :=
  d.updEvc n fun x => { x with matchedInTime := x.matchedInTime || !d.after x.tPlug (sec 20) }

/-- SLAC_MATCH (R273): CM_SET_KEY with a fresh key. -/
def Dev.slacMatch (d : Dev) (n : Fin 8) : Dev :=
  let g := d.evc.gp[n]
  if d.gpOpen n ∧ g.st = .slac ∧ g.atten ≤ d.rfld 5 (0x10 + n.val) 0 31 24 ∧ d.slacQualifies n then
    let d1 := d.updGp n fun g => { g with st := .matched, mac := g.slacMac, nmk := (Config.freeWide d.fresh).setWidth 128, tRx := d.el }
    ({ d1 with fresh := d1.fresh + 1 }.noteMatch n).raiseEvc n.val 8
  else if g.st = .slac then d.updGp n fun g => { g with st := .wait }
  else d

/-- SLAC_LOST (R274): no frame from the vehicle for 1 s. -/
def Dev.slacLost (d : Dev) (n : Fin 8) : Dev :=
  if d.evc.gp[n].st = .matched ∧ d.after d.evc.gp[n].tRx (sec 1) then
    (d.updGp n fun g => { g with st := .lost }).raiseEvc n.val 9
  else d

/-- GP_FRAME_RX (R274). -/
def Dev.gpRx (d : Dev) (n : Fin 8) (bytes : List Byte) : Dev :=
  if d.evc.gp[n].st = .matched ∧ d.runs (2 + n.val) then
    let d1 := d.updGp n fun g => { g with tRx := d.el }
    match d1.findQueue fun e => e.prod = 0x28 + n.val with
    | some q => d1.produce q (mkMsg Config.gpType.toNat (0x28 + n.val) n.val 0 ((Config.gpWords bytes).take 255))
    | none => d1
  else d

/-- GP_FRAME_TX (R274). -/
def Dev.gpTx (d : Dev) (n : Fin 8) (q : Fin 64) (cs : List WordCheck) : Dev :=
  if d.evc.gp[n].st = .matched ∧ d.runs (2 + n.val) ∧ d.que.q[q].entry.cons = 0x28 + n.val ∧ d.serves q then
    match d.takeMsg q cs with
    | (some ws, d1) => if isPoison ws then d1 else d1.updGp n fun g => { g with lastTx := Config.gpFrame (ws.drop 1) }
    | (none, d1) => d1
  else d

/-- PWM_FALLBACK (R253); the duty changes at the next rising edge. -/
def Dev.pwmFallback (d : Dev) (n : Fin 8) : Dev :=
  let x := d.evc.s[n]
  if d.evcComm n = 2 ∧ !x.fellBack ∧ x.st.connected ∧ d.after x.tPlug (sec 20) ∧ !x.matchedInTime then
    d.updEvc n fun x => { x with fellBack := true }
  else d

/-! ### The control cycle and EVC faults (R144, R281) -/

/-- The EVC function enters FAULT, and the session with it (R262, R281). -/
def Dev.evcFault (d : Dev) (n : Fin 8) (code : Byte) : Dev :=
  if d.evc.s[n].fn.isRunning then ((d.updEvc n fun x => { x with fn := { st := .fault, code := code } }).goFault n 13).levelPilot n
  else d

/-- The monitor's currents and temperatures of LSWn and LSW(8+n) (R335), and the group supplies it shows in LSW_VLSW,
which no row carries: a free word (log entry 52, DESIGN CHOICE). -/
def Dev.takeLsw (d : Dev) (n : Fin 8) (m : CycleMeas) : Dev :=
  (({ d with lsw := { d.lsw with vlsw := Config.freeWord d.fresh }, fresh := d.fresh + 1 }).updLsw (coil n) fun x => { x with ma := m.coilMa, tj := m.coilTj }).updLsw ⟨8 + n.val, by omega⟩ fun x =>
    { x with ma := m.poolMa, tj := m.poolTj }

/-- The number the log gives the line die and its link, after front-end dies A (0) and B (1) (R21; log entry 94, DESIGN
CHOICE). -/
def lineDie : Nat := 2

/-- CONTROL_CYCLE (R144): measure, then one transition, then the pilot, the module frame and the modem. -/
def Dev.controlCycle (d : Dev) (n : Fin 8) (m : CycleMeas) : Dev :=
  if !d.due (keyCycle n.val) (ms 1) then d
  else
    let d1 := (d.ran (keyCycle n.val)).takeLsw n m
    if !d1.present n.val then d1
    else if !m.linkOk then ((d1.raiseSys 3).logEvent .sys 21 [w32 lineDie, w32 lineDie] none n.val).evcFault n 1
    else
      let d2 := ((d1.takePilot n m).takePp n m.ppOhm).takeGrant n
      let d3 := ((d2.sessionStep n).updEvc n fun x => { x with young := false }).drivePilot n
      let d4 := if d3.evc.s[n].fn.isRunning then d3.sendSetpoint n else d3
      d4.gpFollow n

/-- EVC_PILOT_DRIVER_FAULT (R281). -/
def Dev.pilotDriverFault (d : Dev) (n : Fin 8) : Dev := d.evcFault n 2

/-- EV_OVERCURRENT (R257): 25 periods in a row above the grant, in CHARGING. -/
def Dev.evOvercurrent (d : Dev) (n : Fin 8) : Dev :=
  if d.evc.s[n].st = .charging ∧ 25 ≤ d.evc.s[n].overRun then d.oneEvent fun d => (d.raiseEvc n.val 11).goStopping n 19 0
  else d

/-- The phase currents of one metrology period enter the count of R257. -/
def Dev.countOver (d : Dev) (n : Fin 8) : Dev :=
  let g := d.evc.s[n].grant
  let limit := g * 100000 + max (g * 10000) 500000
  let exceeded := (List.finRange 64).any fun c =>
    (d.chan c.val).1 = n.val && 3 ≤ (d.chan c.val).2 && (d.chan c.val).2 ≤ 5 && limit < (d.reg 3 (0x40 + c.val) 0x18).toNat
  d.updEvc n fun x => { x with overRun := if x.st = .charging ∧ exceeded then min (x.overRun + 1) 25 else 0 }

/-! ### Grid-operator effects on a session (R272) -/

/-- A stop cause finds a session that it can end. -/
def Sess.stoppable (st : Sess) : Bool := st ≠ .idle && st ≠ .plugged && st ≠ .finished && st ≠ .fault

/-- A remote disconnect (7) or stop-charging (8) of a slice; the latter acts only on a session. -/
def Dev.gridStop (d : Dev) (n : Fin 8) (reason : Nat) : Dev :=
  d.oneEvent fun d =>
  let d1 := if reason = 7 ∨ (d.evc.s[n].st).stoppable then d.raiseEvc n.val 7 else d
  let d2 := if reason = 7 then d1.updEvc n fun x => { x with disc := true } else d1
  d2.stopCause n reason (d.gridWait n)

/-- The reconnect command clears the block. -/
def Dev.gridReconnect (d : Dev) (n : Fin 8) : Dev := (d.raiseEvc n.val 7).updEvc n fun x => { x with disc := false }

/-- A load limit of a slice is set, or lifted. -/
def Dev.gridLimit (d : Dev) (n : Fin 8) (da : Option Nat) : Dev :=
  (d.raiseEvc n.val 7).updEvc n fun x =>
    match da with
    | some v => { x with limActive := true, limDa := v }
    | none => { x with limActive := false, limDa := 0xFFFF }

/-! ### Authorisation (R263, R264, R278) -/

/-- The methods an agent may name (R264). -/
def methodAllowed (ag : Agent) (m : Nat) : Bool :=
  match ag with
  | .core => m = 1 || m = 2
  | .host => m = 3
  | .headend => m = 3
  | .service => m = 4
  | _ => false

/-- An agent's view of EVC_AUTH_REF_0 to 7. -/
def Dev.authRef (d : Dev) (ag : Agent) (n : Fin 8) : List Word :=
  (List.range 8).map fun w => d.view ag (lattice 5 n.val (0x40 + 4 * w))

/-- AUTHORIZE. -/
def authorizeCmd (ag : Agent) (m : Nat) (n : Fin 8) (d : Dev) : CmdSt × Dev :=
  let x := d.evc.s[n]
  match x.st with
  | .idle => (.ok, d.updEvc n fun x => { x with preauth := some { method := m, ref := d.authRef ag n, since := d.el } })
  | .plugged => (.ok, d.updEvc n fun x => { x with preauth := some { method := m, ref := d.authRef ag n, since := d.el } })
  | .authorizing => (.ok, d.goAuthorized n m (d.authRef ag n))
  | st => (.state st.code, d)

/-- DENY. -/
def denyCmd (n : Fin 8) (d : Dev) : CmdSt × Dev :=
  if d.evc.s[n].st = .authorizing then (.ok, d.goFinished n 9) else (.state (d.evc.s[n].st).code, d)

/-- The stop reason of an agent: LOCAL_STOP, HOST_STOP, HEADEND_STOP or SERVICE_STOP. -/
def stopReason : Agent → Nat
  | .host => 4
  | .headend => 5
  | .service => 6
  | _ => 3

/-- A STOP of an agent with its reason and wait (R266). -/
def Dev.stopBy (d : Dev) (n : Fin 8) (reason wait : Nat) : CmdSt × Dev :=
  match d.evc.s[n].st with
  | .idle => (.ok, d.updEvc n fun x => { x with preauth := none })
  | .plugged => (.ok, d.updEvc n fun x => { x with preauth := none })
  | .stopping => (.state 7, d)
  | .finished => (.state 8, d)
  | .fault => (.state 9, d)
  | _ => (.ok, d.stopCause n reason wait)

/-- STOP: EVC_SESSION_HINT makes A1's STOP an EV_STOP with no wait, and is cleared by it. -/
def stopCmd (ag : Agent) (n : Fin 8) (d : Dev) : CmdSt × Dev :=
  if ag = .core ∧ bit (d.reg 5 n.val 0x10) 0 then
    match d.stopBy n 2 0 with
    | (.ok, d1) => (.ok, d1.setReg 5 n.val 0x10 0)
    | r => r
  else d.stopBy n (stopReason ag) (d.evWait n)

/-- SUSPEND. -/
def suspendCmd (n : Fin 8) (d : Dev) : CmdSt × Dev :=
  if d.evc.s[n].st = .charging then (.ok, d.goSuspended n .command) else (.state (d.evc.s[n].st).code, d)

/-- RESUME. -/
def resumeCmd (n : Fin 8) (d : Dev) : CmdSt × Dev :=
  if d.evc.s[n].st = .suspended ∧ d.evc.s[n].susp ≠ .vehicle then (.ok, d.updEvc n fun x => { x with susp := .lifted })
  else (.state (d.evc.s[n].st).code, d)

/-- FAULT_CLEAR (R262). -/
def faultClearCmd (n : Fin 8) (d : Dev) : CmdSt × Dev :=
  if d.evc.s[n].st = .fault ∧ d.evc.s[n].pilot = .A ∧ d.kao.m[n].st = .armed then (.ok, (d.settleEnd n).goIdle n)
  else (.state (d.evc.s[n].st).code, d)

/-- The checks every EVC command shares (R280): slice above 7 or a bad argument [15:8] ARG, absent slice STATE. -/
def evcCommand (arg : BitVec 24) (argOk : Bool) (h : Fin 8 → Dev → CmdSt × Dev) (d : Dev) : CmdSt × Dev :=
  if hn : argUnit arg < 8 then
    if !argOk then (.arg, d)
    else if d.present (argUnit arg) then h ⟨argUnit arg, hn⟩ d
    else (.state (d.evc.s[argUnit arg].st).code, d)
  else (.arg, d)

/-- Argument [15:8] is 0. -/
def noMethod (arg : BitVec 24) : Bool := argBits arg 15 8 = 0

/-- The agent an AUTH message stands for, by the queue's producer (R278). -/
def authAgent (prod : Nat) : Option Agent := if prod = 1 then some .core else if prod = 2 then some .host else none

/-- AUTH_MESSAGE (R278): a message of another type is discarded. -/
def Dev.authMessage (d : Dev) (n : Fin 8) (q : Fin 64) (cs : List WordCheck) : Dev :=
  let e := d.que.q[q].entry
  if e.cons = 0x20 + n.val ∧ d.present n.val ∧ d.serves q then
    match d.takeMsg q cs with
    | (none, d1) => d1
    | (some ws, d1) =>
      let h := msgHead ws
      if hdrType h ≠ 0x31 ∨ ws.length ≠ 5 then d1
      else
        let w1 := (ws.getD 1 0).toNat
        let method := bits w1 63 56
        let ok : Bool := match authAgent e.prod with
          | some ag => methodAllowed ag method
          | none => false
        let x := d1.evc.s[n]
        let ref := ((ws.drop 2).flatMap fun w => [w32 w.toNat, hi32 w.toNat]) ++ [0, 0]
        if ok ∧ x.st = .authorizing ∧ hdrIdent h = x.sid.toNat ∧ bits w1 55 48 ≤ 1 then
          (if bits w1 55 48 = 0 then d1.goAuthorized n method ref else d1.goFinished n 9)
        else d1.raiseEvc n.val 12
  else d

/-- AUTH_TIMEOUT. -/
def Dev.authTimeout (d : Dev) (n : Fin 8) : Dev :=
  let wait := d.rfld 5 n.val 4 31 24
  if d.evc.s[n].st = .authorizing ∧ wait ≠ 0 ∧ d.after d.evc.s[n].tAuth (wait * sec 10) then d.goFinished n 10 else d

/-- PREAUTH_EXPIRY (R263). -/
def Dev.preauthExpiry (d : Dev) (n : Fin 8) : Dev :=
  match d.evc.s[n].preauth with
  | some p => if d.after p.since (sec 120) then d.updEvc n fun x => { x with preauth := none } else d
  | none => d

/-! ### Kaolin and load switch events that a session acts on -/

/-- Kaolin's answer reaches a session that waits for it. -/
def Dev.closeAnswer (d : Dev) (n : Fin 8) (r : Bool × Dev) : Dev :=
  if d.evc.s[n].st = .energizing ∧ d.evc.s[n].close = .requested then
    (if r.1 then r.2.updEvc n fun x => { x with close := .ken } else r.2.goStopping n 20 0)
  else r.2

/-- CLOSE_REQUEST (R265 steps 4 and 5, R316). -/
def Dev.closeRequest (d : Dev) (n : Fin 8) : Dev :=
  if d.evc.s[n].asking ∧ !d.kao.m[n].req ∧ d.present n.val then
    d.closeAnswer n (d.kaoRequest n)
  else d

/-- CLOSE_WITHDRAW (R284): the pair stops toggling, by connector control or by a fault of the line. -/
def Dev.closeWithdraw (d : Dev) (n : Fin 8) : Dev := if d.kao.m[n].req then d.kaoWithdraw n else d

/-- FEEDBACK_CHANGE (R533): a contactor that closes is counted (EVC_CONTACT.ops). -/
def Dev.feedback (d : Dev) (n : Fin 8) (closed : Bool) : Dev :=
  let d1 := if closed ∧ !d.kao.m[n].fb then d.updEvc n fun x => { x with ops := min (x.ops + 1) 0xFFFFFF } else d
  d1.kaoFeedback n closed

/-- A protective or thermal turn-off of a contactor channel is a failed contactor (R346). -/
def Dev.contactorFailed (d d1 : Dev) (c : Fin 16) : Dev :=
  if h : c.val < 8 then
    if d.lsw.c[c].st.driven && !d1.lsw.c[c].st.driven then d1.goFault ⟨c.val, h⟩ 18 else d1
  else d1

/-- EVC_SESSION. -/
def Dev.readSession (d : Dev) (n : Fin 8) : Word :=
  let x := d.evc.s[n]
  packW [(4, x.st.code), (4, x.refuse), (8, x.reason), (3, x.method), (1, b1 x.preauth.isSome),
         (1, b1 (x.st = .suspended && x.susp = .vehicle)), (1, b1 x.lockOn), (10, 0)]

/-- EVC_PILOT: the levels in 0.1 V, rounded to a neighbouring integer (log entry 4, DESIGN CHOICE). -/
def Dev.readPilot (d : Dev) (n : Fin 8) : Word × Dev :=
  let x := d.evc.s[n]
  let (hi, d1) := d.round ((x.highMv : Rat) / 100)
  let (lo, d2) := d1.round ((x.lowMv : Rat) / 100)
  (packW [(4, x.pilot.code), (1, b1 x.pwmOn), (1, b1 x.diode), (10, x.duty), (8, min hi.toNat 255), (8, twos 8 (max (-128) (min 127 lo)))], d2)

/-- EVC_CONTACT. -/
def Dev.readContact (d : Dev) (n : Fin 8) : Word :=
  let x := d.evc.s[n]
  packW [(1, b1 d.kao.m[n].ken), (1, b1 (d.coilOn n)), (1, b1 d.kao.m[n].fb), (1, b1 x.lockOn), (1, b1 x.lockOk), (3, 0), (24, x.ops)]

/-- EVC_DC_STAT2. -/
def Dev.readDcStat2 (d : Dev) (n : Fin 8) : Word :=
  let x := d.evc.s[n]
  packW [(8, x.rxStatus.toNat), (1, b1 (x.rxStatus.getLsbD 0)), (1, b1 (d.dcFresh n)), (6, 0), (8, x.rxSeq.toNat), (8, x.txSeq.toNat)]

/-- EVC_GP_STATE. -/
def Dev.readGpState (d : Dev) (n : Fin 8) : Word :=
  let g := d.evc.gp[n]
  let st := match g.st with
    | .off => 0
    | .wait => 1
    | .slac => 2
    | .matched => 3
    | .lost => 4
  packW [(4, st), (12, 0), (8, g.atten), (8, g.attempts)]

/-! ### Register writes of the chapter -/

/-- A write of EVC_CFG: comm and max_da in range for the slice's kind. -/
def Dev.evcCfgOk (d : Dev) (n : Fin 8) (data : Word) : Bool :=
  let comm := fld data 17 16
  let da := fld data 12 0
  if (d.kind n.val).isDc then comm = 1 else comm ≤ 2 && 60 ≤ da && da ≤ 630

/-- A write of EVC_TIMING: each field in its range. -/
def evcTimingOk (data : Word) : Bool :=
  fld data 31 24 ≤ 100 && fld data 23 16 ≤ 150 && 10 ≤ fld data 15 8 && fld data 15 8 ≤ 250 && 1 ≤ fld data 7 0 && fld data 7 0 ≤ 20

/-- A write of EVC_DC_ID: the port serves the slice. -/
def Dev.evcDcIdOk (d : Dev) (n : Fin 8) (data : Word) : Bool := nbit (d.switchByte (20 + b1 (bit data 30))) n.val

/-- A write of EVC_DC_CFG: period and timeout in range. -/
def evcDcCfgOk (data : Word) : Bool := fld data 31 24 ≤ 100 && fld data 23 16 ≠ 0

/-! ### The commands of the table -/

/-- CONTROL_CYCLE. -/
def execControlCycle (n : Fin 8) (m : CycleMeas) (s : State) : Host.Outcome State Fault Refusal :=
  .next { s with dev := s.dev.controlCycle n m }

/-- AUTHORIZE. -/
def execAuthorize (ag : Agent) (arg : BitVec 24) (s : State) : Host.Outcome State Fault Refusal :=
  .next { s with dev := issueCommand ag 5 0x10 arg (argUnit arg) (evcCommand arg (methodAllowed ag (argBits arg 15 8)) (authorizeCmd ag (argBits arg 15 8))) s.dev }

/-- DENY. -/
def execDeny (ag : Agent) (arg : BitVec 24) (s : State) : Host.Outcome State Fault Refusal :=
  .next { s with dev := issueCommand ag 5 0x11 arg (argUnit arg) (evcCommand arg (noMethod arg) denyCmd) s.dev }

/-- STOP. -/
def execEvcStop (ag : Agent) (arg : BitVec 24) (s : State) : Host.Outcome State Fault Refusal :=
  .next { s with dev := issueCommand ag 5 0x12 arg (argUnit arg) (evcCommand arg (noMethod arg) (stopCmd ag)) s.dev }

/-- SUSPEND. -/
def execSuspend (ag : Agent) (arg : BitVec 24) (s : State) : Host.Outcome State Fault Refusal :=
  .next { s with dev := issueCommand ag 5 0x13 arg (argUnit arg) (evcCommand arg (noMethod arg) suspendCmd) s.dev }

/-- RESUME. -/
def execResume (ag : Agent) (arg : BitVec 24) (s : State) : Host.Outcome State Fault Refusal :=
  .next { s with dev := issueCommand ag 5 0x14 arg (argUnit arg) (evcCommand arg (noMethod arg) resumeCmd) s.dev }

/-- FAULT_CLEAR. -/
def execFaultClear (ag : Agent) (arg : BitVec 24) (s : State) : Host.Outcome State Fault Refusal :=
  .next { s with dev := issueCommand ag 5 0x15 arg (argUnit arg) (evcCommand arg (noMethod arg) faultClearCmd) s.dev }

/-- AUTH_TIMEOUT. -/
def execAuthTimeout (n : Fin 8) (s : State) : Host.Outcome State Fault Refusal := .next { s with dev := s.dev.authTimeout n }

/-- PREAUTH_EXPIRY. -/
def execPreauthExpiry (n : Fin 8) (s : State) : Host.Outcome State Fault Refusal := .next { s with dev := s.dev.preauthExpiry n }

/-- PWM_FALLBACK. -/
def execPwmFallback (n : Fin 8) (s : State) : Host.Outcome State Fault Refusal := .next { s with dev := s.dev.pwmFallback n }

/-- LOCK_CONFIRM_TIMEOUT. -/
def execLockConfirmTimeout (n : Fin 8) (s : State) : Host.Outcome State Fault Refusal := .next { s with dev := s.dev.lockTimeout n }

/-- CONTACTOR_ENERGIZE. -/
def execContactorEnergize (n : Fin 8) (s : State) : Host.Outcome State Fault Refusal := .next { s with dev := s.dev.energize n }

/-- CLOSE_TIMEOUT. -/
def execCloseTimeout (n : Fin 8) (s : State) : Host.Outcome State Fault Refusal := .next { s with dev := s.dev.closeTimeout n }

/-- ENERGIZE_TIMEOUT. -/
def execEnergizeTimeout (n : Fin 8) (s : State) : Host.Outcome State Fault Refusal := .next { s with dev := s.dev.energizeTimeout n }

/-- STOP_WAIT_END. -/
def execStopWaitEnd (n : Fin 8) (s : State) : Host.Outcome State Fault Refusal := .next { s with dev := s.dev.stopWaitEnd n }

/-- OPEN_CONFIRM_TIMEOUT. -/
def execOpenConfirmTimeout (n : Fin 8) (s : State) : Host.Outcome State Fault Refusal := .next { s with dev := s.dev.openTimeout n }

/-- SESSION_END_READING. -/
def execSessionEndReading (n : Fin 8) (s : State) : Host.Outcome State Fault Refusal := .next { s with dev := s.dev.endReading n }

/-- FEEDBACK_CHANGE. -/
def execFeedbackChange (n : Fin 8) (closed : Bool) (s : State) : Host.Outcome State Fault Refusal :=
  .next { s with dev := s.dev.feedback n closed }

/-- EV_OVERCURRENT. -/
def execEvOvercurrent (n : Fin 8) (s : State) : Host.Outcome State Fault Refusal := .next { s with dev := s.dev.evOvercurrent n }

/-- MODULE_LOST. -/
def execModuleLost (n : Fin 8) (s : State) : Host.Outcome State Fault Refusal := .next { s with dev := s.dev.moduleLost n }

/-- DC_STATUS_FRAME. -/
def execDcStatusFrame (port : Fin 2) (f : CanFrame) (s : State) : Host.Outcome State Fault Refusal :=
  .next { s with dev := match s.dev.statusSlice port f with
    | some n => s.dev.takeStatus n f
    | none => s.dev }

/-- CAN_FRAME_RX. -/
def execCanFrameRx (port : Fin 2) (f : CanFrame) (s : State) : Host.Outcome State Fault Refusal :=
  .next { s with dev := s.dev.canRx port f }

/-- CAN_FRAME_TX. -/
def execCanFrameTx (port : Fin 2) (q : Take) (s : State) : Host.Outcome State Fault Refusal :=
  .next { s with dev := s.dev.canSend port q.q q.checks }

/-- EVC_PILOT_DRIVER_FAULT. -/
def execEvcPilotDriverFault (n : Fin 8) (s : State) : Host.Outcome State Fault Refusal := .next { s with dev := s.dev.pilotDriverFault n }

/-- AUTH_MESSAGE. -/
def execAuthMessage (n : Fin 8) (q : Take) (s : State) : Host.Outcome State Fault Refusal :=
  .next { s with dev := s.dev.authMessage n q.q q.checks }

/-- SLAC_PARM_REQUEST. -/
def execSlacParmRequest (n : Fin 8) (mac : BitVec 48) (atten : Nat) (s : State) : Host.Outcome State Fault Refusal :=
  .next { s with dev := s.dev.slacParm n mac atten }

/-- SLAC_MATCH. -/
def execSlacMatch (n : Fin 8) (s : State) : Host.Outcome State Fault Refusal := .next { s with dev := s.dev.slacMatch n }

/-- SLAC_LOST. -/
def execSlacLost (n : Fin 8) (s : State) : Host.Outcome State Fault Refusal := .next { s with dev := s.dev.slacLost n }

/-- GP_FRAME_RX. -/
def execGpFrameRx (n : Fin 8) (bytes : List Byte) (s : State) : Host.Outcome State Fault Refusal := .next { s with dev := s.dev.gpRx n bytes }

/-- GP_FRAME_TX. -/
def execGpFrameTx (n : Fin 8) (q : Take) (s : State) : Host.Outcome State Fault Refusal :=
  .next { s with dev := s.dev.gpTx n q.q q.checks }

/-- CLOSE_REQUEST. -/
def execCloseRequest (n : Fin 8) (s : State) : Host.Outcome State Fault Refusal := .next { s with dev := s.dev.closeRequest n }

/-- CLOSE_WITHDRAW. -/
def execCloseWithdraw (n : Fin 8) (s : State) : Host.Outcome State Fault Refusal := .next { s with dev := s.dev.closeWithdraw n }

/-- SHORT_DETECT. -/
def execShortDetect (c : Fin 16) (s : State) : Host.Outcome State Fault Refusal :=
  .next { s with dev := s.dev.contactorFailed (s.dev.shortOff c) c }

/-- OVERLOAD_DETECT. -/
def execOverloadDetect (c : Fin 16) (s : State) : Host.Outcome State Fault Refusal :=
  .next { s with dev := s.dev.contactorFailed (s.dev.overloadOff c) c }

/-- THERMAL_LATCH. -/
def execThermalLatch (c : Fin 16) (s : State) : Host.Outcome State Fault Refusal :=
  .next { s with dev := s.dev.contactorFailed (s.dev.thermalOff c) c }

end Sys2Proof.Machine
end

