-- ==== Sys2Proof/Machine/Mesh.lean ====
section
/-! DEFINITION. The power-line mesh modem and the zero-crossing channel (11_powerline.md): frames, reception, links
and routes, transmission with deferral and acknowledgement, grid-operator commands and their confirmation. The
head-end's Lattice requests run in Lattice.lean. -/

namespace Sys2Proof.Machine

/-! ### Frames (R361, R374) -/

/-- One bit step of CRC-16-CCITT (polynomial 0x1021, most significant bit first). -/
def crc16Bit (c : Nat) : Nat := if c < 0x8000 then c * 2 else Nat.xor (c * 2 % 0x10000) 0x1021

/-- One byte step. -/
def crc16Byte (c : Nat) (b : Byte) : Nat := (List.range 8).foldl (fun c _ => crc16Bit c) (Nat.xor c (b.toNat * 256))

/-- CRC-16-CCITT with initial value 0xFFFF. -/
def crc16 (bs : List Byte) : Nat := bs.foldl crc16Byte 0xFFFF

/-- The 20 bytes from Type to Message ID. -/
def meshHead (f : MeshFrame) : List Byte :=
  [f.ftype, f.flags] ++ beBytes 2 f.cell.toNat ++ beBytes 2 f.lsrc.toNat ++ beBytes 2 f.ldst.toNat ++ beBytes 2 f.origin.toNat ++
  beBytes 2 f.dest.toNat ++ [f.hops, BitVec.ofNat 8 f.payload.length] ++ beBytes 2 f.age.toNat ++ beBytes 4 f.msgId.toNat

/-- The MAC is present (flags bit 1). -/
def meshHasMac (f : MeshFrame) : Bool := f.flags.getLsbD 1

/-- Everything from Type to the end of the MAC. -/
def meshBody (f : MeshFrame) : List Byte :=
  (meshHead f) ++ beBytes 2 f.hcheck.toNat ++ f.payload ++ (if (meshHasMac f) then beBytes 8 f.mac.toNat else [])

/-- The header check is right. -/
def meshHeadOk (f : MeshFrame) : Bool := f.hcheck.toNat = crc16 (meshHead f)

/-- The frame check is right. -/
def meshCheckOk (f : MeshFrame) : Bool := f.fcheck.toNat = crc32c (meshBody f)

/-- The frame with its header check and frame check computed. -/
def meshSeal (f : MeshFrame) : MeshFrame :=
  let g := { f with hcheck := BitVec.ofNat 16 (crc16 (meshHead f)) }
  { g with fcheck := BitVec.ofNat 32 (crc32c (meshBody g)) }

/-- The lower and the upper tone of a pair in kHz (R359). -/
def pairTones (p : Nat) : Nat × Nat :=
  if p = 0 then (60, 64) else if p = 1 then (72, 76) else if p = 2 then (60, 72) else (64, 76)

/-- The tone that carries a bit: bit 0 the lower, bit 1 the upper (R359). -/
def bitTone (p : Nat) (b : Bool) : Nat := if b then (pairTones p).2 else (pairTones p).1

/-- The n low bits of a number, most significant first. -/
def msbBits : Nat → Nat → List Bool
  | 0, _ => []
  | n + 1, x => x.testBit n :: msbBits n x

/-- The bytes of a frame as bits, most significant first (R359). -/
def bytesBits (bs : List Byte) : List Bool := bs.flatMap fun b => msbBits 8 b.toNat

/-- The bits of a frame on the line (R361): preamble, sync, and everything from Type to the frame check. -/
def frameBits (f : MeshFrame) : List Bool :=
  msbBits 24 0xAAAAAA ++ msbBits 16 0xE4B1 ++ bytesBits (meshBody f ++ beBytes 4 f.fcheck.toNat)

/-- The tone pair in force (PLC_CFG.pair). -/
def Dev.plcPair (d : Dev) : Nat := d.rfld 8 0 4 25 24

/-- The first n bytes of an HMAC as a number. -/
def macBytes (n : Nat) (key : BitVec 256) (bs : List Byte) : Nat := (Config.hmac key bs).toNat / 2 ^ (256 - 8 * n)

/-- What the mesh MAC covers (R374). -/
def meshMacText (f : MeshFrame) : List Byte :=
  [f.ftype, f.flags] ++ beBytes 2 f.cell.toNat ++ beBytes 2 f.origin.toNat ++ beBytes 2 f.dest.toNat ++
  [BitVec.ofNat 8 f.payload.length] ++ beBytes 4 f.msgId.toNat ++ f.payload

/-- The MAC verifies under the head-end mesh key K5, which must be VALID. -/
def Dev.meshMacOk (d : Dev) (f : MeshFrame) : Bool :=
  d.keyValid 5 && (meshHasMac f) && f.mac.toNat = macBytes 8 (d.keySlot 5).live.secret (meshMacText f)

/-- This node's address and cell. -/
def Dev.meshAddr (d : Dev) : BitVec 16 := BitVec.ofNat 16 (d.rfld 8 0 8 15 0)
/-- Its cell. -/
def Dev.meshCell (d : Dev) : BitVec 16 := BitVec.ofNat 16 (d.rfld 8 0 8 31 16)

/-- A frame of this node, not yet sealed. -/
def Dev.newFrame (d : Dev) (ty flags : Nat) (ldst dest : BitVec 16) (ident : Word) (payload : List Byte) : MeshFrame :=
  { ftype := BitVec.ofNat 8 ty, flags := BitVec.ofNat 8 flags, cell := d.meshCell, lsrc := d.meshAddr, ldst := ldst
    origin := d.meshAddr, dest := dest, hops := 0, age := 0, msgId := ident, hcheck := 0, payload := payload, mac := 0
    fcheck := 0 }

/-- A frame with its MAC under a key. -/
def macUnder (key : BitVec 256) (f : MeshFrame) : MeshFrame :=
  { f with mac := BitVec.ofNat 64 (macBytes 8 key (meshMacText f)) }

/-- A frame with its MAC, counted as a use of K5 (R400). -/
def Dev.withMac (d : Dev) (f : MeshFrame) : MeshFrame × Dev := (macUnder (d.keySlot 5).live.secret f, d.useKey 5)

/-! ### Link cost, neighbours and routes (R367 to R369) -/

/-- An SNR estimate as whole dB. -/
def snrDb (q : Rat) : Int := q.floor + (if q.den = 1 then 0 else if Config.snrUp q then 1 else 0)

/-- The cost of a link (R367). -/
def Neighbour.cost (x : Neighbour) : Nat :=
  min 255 (1 + min 20 (20 - snrDb x.snr).toNat + (x.fail * 32).floor.toNat + x.penalty)

/-- The neighbour with an address. -/
def Dev.nbr (d : Dev) (a : BitVec 16) : Option Neighbour := d.plc.nbrs.find? fun x => x.addr = a

/-- Change a neighbour's entry. -/
def Dev.updNbr (d : Dev) (a : BitVec 16) (f : Neighbour → Neighbour) : Dev :=
  { d with plc := { d.plc with nbrs := d.plc.nbrs.map fun x => if x.addr = a then f x else x } }

/-- The link cost to a node; 255 for one that is no neighbour. -/
def Dev.linkCost (d : Dev) (a : BitVec 16) : Nat := ((d.nbr a).map Neighbour.cost).getD 255

/-- The route to a node. -/
def Dev.route (d : Dev) (dest : BitVec 16) : Option MeshRoute := d.plc.routes.find? fun r => r.dest = dest

/-- A node is some route's next hop. -/
def Dev.isNextHop (d : Dev) (a : BitVec 16) : Bool := d.plc.routes.any fun r => r.next = a

/-- The entry a newcomer may replace in a full table: the highest cost that is no route's next hop (R368). -/
def Dev.worstNbr (d : Dev) : Option Neighbour :=
  (d.plc.nbrs.filter fun x => !d.isNextHop x.addr).foldl (fun acc x => match acc with
    | none => some x
    | some y => some (if y.cost < x.cost then x else y)) none

/-- A good frame from a node updates its SNR estimate, or enters it in the table (R367, R368). A new entry's estimate
starts at a free value. -/
def Dev.hear (d : Dev) (a : BitVec 16) (snr : Int) : Dev :=
  match d.nbr a with
  | some _ => d.updNbr a fun x => { x with snr := x.snr + ((snr : Rat) - x.snr) / 8, heard := d.el }
  | none =>
    let s0 := Config.freeRat d.fresh
    let x : Neighbour := { addr := a, snr := s0 + ((snr : Rat) - s0) / 8, fail := 0, penalty := 0, advertised := none, heard := d.el }
    let d1 := { d with fresh := d.fresh + 1 }
    if d.plc.nbrs.length < 64 then { d1 with plc := { d1.plc with nbrs := d1.plc.nbrs ++ [x] } }
    else
      match d.worstNbr with
      | some y =>
        if x.cost < y.cost then { d1 with plc := { d1.plc with nbrs := d1.plc.nbrs.map fun z => if z.addr = y.addr then x else z } }
        else d1
      | none => d1

/-- PLC_LINK.hyst and max_hops. -/
def Dev.meshHyst (d : Dev) : Nat := d.rfld 8 0 0xC 23 16
/-- Longest path used. -/
def Dev.maxHops (d : Dev) : Nat := d.rfld 8 0 0xC 4 0

/-- Enter a new route; a full table drops its least recently used entry (R369). -/
def putRoute (rs : List MeshRoute) (r : MeshRoute) : List MeshRoute :=
  let oldest := rs.foldl (fun acc x => min acc x.used) r.used
  let kept := if rs.length < 256 then rs else
    match rs.findIdx? fun x => x.used = oldest with
    | some i => rs.eraseIdx i
    | none => rs.drop 1
  kept ++ [r]

/-- A path to a node is offered through a neighbour (R369): the next hop changes only for a cost lower by more than
the hysteresis, or when the present one is removed or unusable. -/
def Dev.offerRoute (d : Dev) (dest next : BitVec 16) (cost hops : Nat) : Dev :=
  if d.maxHops < hops ∨ 255 ≤ d.linkCost next ∨ dest = d.meshAddr then d
  else
    let r : MeshRoute := { dest := dest, next := next, cost := min cost 0xFFFF, hops := hops, used := d.el }
    match d.route dest with
    | none => { d with plc := { d.plc with routes := putRoute d.plc.routes r } }.raisePlc 6
    | some old =>
      let put := { d with plc := { d.plc with routes := d.plc.routes.map fun x => if x.dest = dest then { r with used := x.used } else x } }
      if old.next = next then put
      else if cost + d.meshHyst < old.cost ∨ 255 ≤ d.linkCost old.next then put.raisePlc 6
      else d

/-- The neighbour with the least path cost to the head-end, of those whose path is not too long (R369). -/
def Dev.bestHead (d : Dev) : Option (Neighbour × Nat × Nat) :=
  (d.plc.nbrs.filterMap fun x => x.advertised.map fun a => (x, x.cost + a.1, a.2 + 1)).foldl (fun acc x =>
    if 255 ≤ x.1.cost ∨ d.maxHops < x.2.2 then acc
    else match acc with
      | none => some x
      | some y => some (if x.2.1 < y.2.1 then x else y)) none

/-- Recompute the route to the head-end: its present path first takes its present cost. -/
def Dev.recomputeHead (d : Dev) : Dev :=
  let d1 := match d.route 1 with
    | some r =>
      match (d.nbr r.next).bind fun x => x.advertised.map fun (a : Nat × Nat) => (x.cost + a.1, a.2 + 1) with
      | some (c, h) => { d with plc := { d.plc with routes := d.plc.routes.map fun (x : MeshRoute) => if x.dest = 1 then { x with cost := min c 0xFFFF, hops := h } else x } }
      | none => d
    | none => d
  match d1.bestHead with
  | some (x, c, h) => d1.offerRoute 1 x.addr c h
  | none => d1

/-- After link costs have changed since `before`, every route through a changed link takes its new path cost, and the
route to the head-end is chosen anew (R369). -/
def Dev.relinked (d before : Dev) : Dev :=
  { d with plc := { d.plc with routes := d.plc.routes.map fun (r : MeshRoute) =>
      if r.dest = 1 then r else { r with cost := min 0xFFFF (r.cost + d.linkCost r.next - before.linkCost r.next) } } }.recomputeHead

/-- The cost this node's BEACON carries, and its hops. -/
def Dev.headCost (d : Dev) : Nat × Nat := ((d.route 1).map fun r => (r.cost, r.hops)).getD (0xFFFF, 0)

/-! ### Jobs of the transmitter -/

/-- A frame to send that enters this node now. -/
def Dev.jobOf (d : Dev) (f : MeshFrame) : MeshJob :=
  { frame := f, attempts := 0, k := 0, own := false, frag := false, degraded := false, since := d.el, ageIn := f.age }

/-- An acknowledgement. -/
def MeshJob.isAck (j : MeshJob) : Bool := j.frame.ftype = 4

/-- A frame joins the frames that wait to be sent. -/
def Dev.enqueueMesh (d : Dev) (f : MeshFrame) : Dev := { d with plc := { d.plc with waiting := d.plc.waiting ++ [d.jobOf f] } }

/-- A frame goes before every waiting frame but the acknowledgements. -/
def Dev.enqueueFirst (d : Dev) (f : MeshFrame) : Dev :=
  { d with plc := { d.plc with waiting := d.plc.waiting.takeWhile MeshJob.isAck ++ d.jobOf f :: d.plc.waiting.dropWhile MeshJob.isAck } }

/-- An acknowledgement goes before every other frame (R370). -/
def Dev.enqueueAck (d : Dev) (f : MeshFrame) : Dev := d.enqueueFirst (d.newFrame 4 0 f.lsrc f.lsrc f.msgId [])

/-- Issue a message ID of space 11, or note that the issue waits (R373). -/
def Dev.meshId (d : Dev) : Option Word × Dev :=
  match d.issueId 11 with
  | (some w, d1) => (some w, { d1 with plc := { d1.plc with idWait := false } })
  | (none, d1) =>
    (none, if d.plc.idWait then d1 else { d1 with plc := { d1.plc with idWait := true } }.raisePlc 7)

/-- The next hop of a frame of this node: broadcast, or by its route. -/
def Dev.nextHop (d : Dev) (dest : BitVec 16) : Option (BitVec 16) :=
  if dest = 0xFFFF then some 0xFFFF else (d.route dest).map (·.next)

/-- A route has been used (R369: the least recently used entry leaves a full table). -/
def Dev.useRoute (d : Dev) (dest : BitVec 16) : Dev :=
  { d with plc := { d.plc with routes := d.plc.routes.map fun (x : MeshRoute) => if x.dest = dest then { x with used := d.el } else x } }

/-- A frame of this node waits for its message ID; one BEACON of a kind waits at a time. -/
def Dev.holdOrig (d : Dev) (o : MeshOrig) : Dev :=
  if (∃ b, o = .beacon b) ∧ o ∈ d.plc.held then d else { d with plc := { d.plc with held := d.plc.held ++ [o] } }

/-- A frame of this node takes its message ID and joins the frames to send; it waits while the issue waits (R373), and
a head-end reply waits for a route too (R375). The reply's MAC is a use of K5, which fails where the slot is not VALID
by now (R396, R398). -/
def Dev.originateNow (d : Dev) (o : MeshOrig) : Dev :=
  match o with
  | .reply bs key =>
    if !d.keyValid 5 then d
    else
      match d.nextHop 1 with
      | none => d.holdOrig o
      | some next =>
        match d.meshId with
        | (none, d1) => d1.holdOrig o
        | (some w, d1) => ((d1.useKey 5).useRoute 1).enqueueMesh (macUnder key (d1.newFrame 0 7 next 1 w bs))
  | .beacon first =>
    match d.meshId with
    | (none, d1) => d1.holdOrig o
    | (some w, d1) =>
      let f := d1.newFrame 1 0 0xFFFF 0xFFFF w (Config.meshPayload 1 d1.headCost.1 d1.headCost.2)
      if first then d1.enqueueFirst f else d1.enqueueMesh f
  | .route ty ldst dest cost hops =>
    match d.meshId with
    | (none, d1) => d1.holdOrig o
    | (some w, d1) => d1.enqueueMesh (d1.newFrame ty 0 ldst dest w (Config.meshPayload ty cost hops))

/-- Originate a frame of a routing type with its own message ID. -/
def Dev.originate (d : Dev) (ty : Nat) (ldst dest : BitVec 16) (cost hops : Nat) : Dev := d.originateNow (.route ty ldst dest cost hops)

/-- The frames that waited for a message ID try again. -/
def Dev.releaseOrigs (d : Dev) : Dev :=
  d.plc.held.foldl (fun (acc : Dev) o => acc.originateNow o) { d with plc := { d.plc with held := [] } }

/-- Send a BEACON with this node's path cost (R369). -/
def Dev.sendBeacon (d : Dev) : Dev := d.originateNow (.beacon false)

/-- The queue PLC_RX and PLC_TX_DONE go to (R377). -/
def Dev.plcQueue (d : Dev) : Option (Fin 64) := d.findQueue fun e => e.cls = 2 && e.prod = 5 && e.cons = 1

/-- A queue takes a message now. -/
def Dev.queueTakes (d : Dev) (q : Fin 64) (ws : List QData) : Bool :=
  let x := d.que.q[q]
  x.entry.depth ≠ 0 && x.held = [] && x.room ws.length

/-- Write a message of the mesh modem to firmware and set its flag; one that finds no room is discarded and was not
written (R125). -/
def Dev.plcSend (d : Dev) (ws : List QData) (flag : Nat) : Dev :=
  match d.plcQueue with
  | some q => if d.queueTakes q ws then (d.produce q ws).raisePlc flag else d.produce q ws
  | none => d

/-- A PLC_TX_DONE message (R377). -/
def Dev.txDone (d : Dev) (ident : Word) (status attempts : Nat) : Dev :=
  d.plcSend (mkMsg 0x52 5 0xFF ident [packQ [(8, status), (8, attempts), (48, 0)]]) 1

/-- The transmission of the present frame has ended with a status (R370, R377, R378). -/
def Dev.finishJob (d : Dev) (status : Nat) : Dev :=
  match d.plc.cur with
  | none => d
  | some j =>
    let d1 := { d with plc := { d.plc with cur := none, awaitAck := none, tx := .idle } }
    if j.frag then
      match d.plc.block with
      | some (bs, i, id0) =>
        let first := if i = 0 then j.frame.msgId else id0
        if status ≤ 1 ∧ i < 4 then { d1 with plc := { d1.plc with block := some (bs, i + 1, first) } }
        else { d1 with plc := { d1.plc with block := none } }.txDone first status j.attempts
      | none => d1
    else if j.own then d1.txDone j.frame.msgId status j.attempts
    else d1

/-- Status OK or DEGRADED of a frame that went through. -/
def MeshJob.okStatus (j : MeshJob) : Nat := if j.degraded then 1 else 0

/-! ### Reception (R363, R364, R370 to R374) -/

/-- Whether the lower and the upper tone of a window lie more than the step below their references. -/
def lowWindow (m : RxMeas) (step : Nat) (w : Int × Int) : Bool × Bool := (w.1 < m.refLo - step, w.2 < m.refHi - step)

/-- The number of windows received when a frame is abandoned with NOISE_STEP, if it is: one tone was low in two windows
in a row (R363). -/
def noiseStep (m : RxMeas) (step : Nat) : List (Int × Int) → Nat → Bool × Bool → Option Nat
  | [], _, _ => none
  | w :: ws, i, was =>
    let low := lowWindow m step w
    if (low.1 && was.1) || (low.2 && was.2) then some (i + 1) else noiseStep m step ws (i + 1) low

/-- The windows that can abandon a frame: those before its frame check (R363). -/
def rxWindows (f : MeshFrame) (m : RxMeas) : List (Int × Int) := m.windows.take (meshBody f).length

/-- A frame of this node is on the line. -/
def Dev.onLine (d : Dev) : Bool := d.plc.tx = .sending || d.plc.tx = .reduced

/-- A frame ends: staged values of PLC_CFG and PLC_LINK take effect (R362, R75), but not while another frame is on the
line. -/
def Dev.meshFrameEnd (d : Dev) : Dev :=
  if d.onLine then d
  else
    let d1 := d.swapUnit 8 0
    { d1 with plc := { d1.plc with stagedAt := none } }

/-- The header check is received with the 22nd byte after the sync (R361, R364). -/
def headerPassed (windows : Nat) : Bool := 22 ≤ windows

/-- A frame is abandoned (R364); the link source is penalised when the header check had passed. -/
def Dev.abandonFrame (d : Dev) (f : MeshFrame) (headPassed : Bool) : Dev :=
  d.oneEvent fun d =>
  let d1 := (d.count 8 0 0x1C 15 0).raisePlc 2
  if headPassed ∧ (meshHeadOk f) then
    (d1.updNbr f.lsrc fun x => { x with penalty := x.penalty + d.rfld 8 0 0xC 31 24 }).relinked d
  else d1

/-- The duplicate cache holds a frame (R372). -/
def Dev.inCache (d : Dev) (f : MeshFrame) : Bool :=
  d.plc.cache.any fun e => e.1 = f.origin && e.2.1 = f.msgId && decide (d.el ≤ e.2.2 + sec 600)

/-- Keep a frame's origin and message ID for 600 s, at most 8192 of them. -/
def Dev.remember (d : Dev) (f : MeshFrame) : Dev :=
  { d with plc := { d.plc with cache := ((f.origin, f.msgId, d.el) :: d.plc.cache.filter fun e => decide (d.el ≤ e.2.2 + sec 600)).take 8192 } }

/-- PLC_REJ.stale (R371, R372). -/
def Dev.meshStale (d : Dev) : Dev := d.count 8 0 0x24 15 0

/-- A frame from or for the head-end needs a MAC (R374). -/
def fromHeadEnd (f : MeshFrame) : Bool := f.flags.getLsbD 2 || f.origin = 1

/-- The epoch of a head-end frame is one space 12 accepts; the first of the next epoch makes it current (R133, R135,
R373). -/
def Dev.headEpoch (d : Dev) (f : MeshFrame) : Bool × Dev :=
  let e := f.msgId.toNat / 2 ^ 24
  if (d.que.spaces[(12 : Fin 13)]).accepts 12 e then
    (true, d.updSpace 12 fun x => { x with epoch := BitVec.ofNat 8 e, index := BitVec.ofNat 24 f.msgId.toNat })
  else (false, d.count 2 0x8C 8 31 0)

/-- A frame is addressed to this node, alone or with all others. -/
def Dev.addressed (d : Dev) (f : MeshFrame) : Bool := f.dest = d.meshAddr || f.dest = 0xFFFF

/-- A head-end frame fails its MAC: one addressed to this node is counted (R374). -/
def Dev.macReject (d : Dev) (f : MeshFrame) : Dev := if d.addressed f then (d.count 8 0 0x24 31 16).raisePlc 5 else d

/-- A frame of the head-end that carries no MAC is not valid (R374). -/
def lacksMac (f : MeshFrame) : Bool := fromHeadEnd f && !meshHasMac f

/-- The MAC of a head-end frame addressed to this node (R374). -/
def Dev.macAccept (d : Dev) (f : MeshFrame) : Bool × Dev :=
  if !(fromHeadEnd f) then (true, d)
  else
    let d1 := if d.keyValid 5 ∧ (meshHasMac f) then d.useKey 5 else d
    if d.meshMacOk f then (true, d1) else (false, d1.macReject f)

/-- A head-end frame addressed to this node passes its checks: MAC, then epoch (R374, R373). -/
def Dev.headAccept (d : Dev) (f : MeshFrame) : Bool × Dev :=
  match d.macAccept f with
  | (true, d1) => if f.origin = 1 then d1.headEpoch f else (true, d1)
  | (false, d1) => (false, d1)

/-- A head-end Lattice request for this node (R375). -/
def Dev.isLatticeRequest (d : Dev) (f : MeshFrame) : Bool :=
  f.ftype = 0 && f.origin = 1 && f.dest = d.meshAddr && f.payload.headD 0 = 0x4C

/-- A PLC_RX message (R377). -/
def plcRx (f : MeshFrame) : List QData :=
  mkMsg 0x51 5 0xFF f.msgId
    (packQ [(16, f.origin.toNat), (8, f.ftype.toNat), (8, f.flags.toNat), (8, f.payload.length), (8, f.hops.toNat), (16, f.age.toNat)] ::
      packWords ((f.payload.length + 7) / 8) f.payload)

/-- Forward a frame towards its destination: one hop more; with no route its origin gets a RERR (R369, R370). -/
def Dev.forward (d : Dev) (f : MeshFrame) (payload : List Byte) : Dev :=
  if d.maxHops ≤ f.hops.toNat then d
  else
    match d.route f.dest with
    | some r =>
      (d.useRoute f.dest).enqueueMesh { f with lsrc := d.meshAddr, ldst := r.next, hops := f.hops + 1, payload := payload }
    | none =>
      match d.route f.origin with
      | some r => d.originate 5 r.next f.origin 0 0
      | none => d

/-- Forward a flooded frame (R369). -/
def Dev.flood (d : Dev) (f : MeshFrame) (payload : List Byte) : Dev :=
  if 16 ≤ f.hops.toNat then d
  else d.enqueueMesh { f with lsrc := d.meshAddr, ldst := 0xFFFF, hops := f.hops + 1, payload := payload }

/-- A routing frame's carried cost with the link it came by. -/
def Dev.pathCost (d : Dev) (f : MeshFrame) : Nat := Config.meshCost f.payload + d.linkCost f.lsrc

/-- A routing frame offers the path to its origin. -/
def Dev.offerOrigin (d : Dev) (f : MeshFrame) : Dev := d.offerRoute f.origin f.lsrc (d.pathCost f) (f.hops.toNat + 1)

/-- An accepted frame for this node: DATA is delivered to firmware (R377); a Lattice request runs by its own command; a
BEACON advertises its sender's path; an RREQ is answered along the cheapest path this node knows; an RREP gives the
path to its origin (R369). -/
def Dev.takeMine (d : Dev) (f : MeshFrame) : Dev :=
  let ty := f.ftype.toNat
  if ty = 0 then d.plcSend (plcRx f) 0
  else if ty = 1 then (d.updNbr f.lsrc fun x => { x with advertised := some (Config.meshCost f.payload, Config.meshHops f.payload) }).recomputeHead
  else if ty = 2 then
    let d1 := d.offerOrigin f
    if f.dest = d.meshAddr then d1.originate 3 ((d1.nextHop f.origin).getD f.lsrc) f.origin 0 0
    else d1.flood f (Config.meshPayload 2 (d.pathCost f) (f.hops.toNat + 1))
  else if ty = 3 then d.offerOrigin f
  else d

/-- An accepted frame for another node is forwarded; the routing types offer their path on the way. -/
def Dev.meshPass (d : Dev) (f : MeshFrame) : Dev :=
  let ty := f.ftype.toNat
  if ty = 0 ∨ ty = 5 then d.forward f f.payload
  else if ty = 2 then (d.offerOrigin f).flood f (Config.meshPayload 2 (d.pathCost f) (f.hops.toNat + 1))
  else if ty = 3 then (d.offerOrigin f).forward f (Config.meshPayload 3 (d.pathCost f) (f.hops.toNat + 1))
  else d

/-- A frame that is neither stale nor a duplicate (R374): one for this node passes the head-end's checks first; others
are forwarded without a check of their MAC. -/
def Dev.takeFrame (d : Dev) (f : MeshFrame) : Dev :=
  if d.addressed f ∨ f.ftype = 1 then
    match d.headAccept f with
    | (true, d1) => (d1.remember f).takeMine f
    | (false, d1) => d1
  else (d.remember f).meshPass f

/-- The failure estimate of a link after a unicast frame to its node (R367); v is 1 when no ACK came after all attempts,
else 0. -/
def Dev.linkTried (d : Dev) (a : BitVec 16) (v : Rat) : Dev :=
  (d.updNbr a fun x => { x with fail := x.fail + (v - x.fail) / 8 }).relinked d

/-- An ACK of the frame that waits for one (R370): its link worked. -/
def Dev.takeAck (d : Dev) (f : MeshFrame) : Dev :=
  match d.plc.cur with
  | some j =>
    if d.plc.awaitAck.isSome ∧ f.lsrc = j.frame.ldst ∧ f.msgId = j.frame.msgId then
      d.oneEvent fun d => (d.linkTried j.frame.ldst 0).finishJob j.okStatus
    else d
  | none => d

/-- A good frame of this cell (R367, R370 to R372). -/
def Dev.goodFrame (d : Dev) (f : MeshFrame) (snr : Int) : Dev :=
  let d1 := ((d.count 8 0 0x1C 31 16).hear f.lsrc snr).relinked d
  if f.ldst ≠ d.meshAddr ∧ f.ldst ≠ 0xFFFF then d1
  else if lacksMac f then (if d.isLatticeRequest f then d1 else d1.macReject f)
  else if f.ftype = 4 then
    match d1.macAccept f with
    | (true, d2) => d2.takeAck f
    | (false, d2) => d2
  else
    let d2 := if f.flags.getLsbD 0 ∧ f.ldst = d.meshAddr then d1.enqueueAck f else d1
    if d.isLatticeRequest f then d2
    else if 600 < f.age.toNat ∨ d2.inCache f then d2.meshStale
    else d2.takeFrame f

/-- The mesh modem runs, its island too, and the power-fail stop has not come (R376). -/
def Dev.meshRuns (d : Dev) : Bool := d.plc.mesh.isRunning && d.runs 10 && !d.plc.stopped

/-- MESH_FRAME_RX: a frame on another tone pair than the modem's is not received (R362). -/
def Dev.meshRx (d : Dev) (f : MeshFrame) (m : RxMeas) : Dev :=
  if !d.meshRuns ∨ m.pair ≠ d.plcPair then d
  else
    let d1 := match noiseStep m (d.rfld 8 0 0xC 15 8) (rxWindows f m) 0 (false, false) with
      | some i => d.abandonFrame f (headerPassed i)
      | none =>
        if (meshHeadOk f) ∧ (meshCheckOk f) then
          (if f.cell = d.meshCell then d.goodFrame f (min m.refLo m.refHi) else d.count 8 0 0x1C 31 16)
        else d
    d1.meshFrameEnd

/-! ### Transmission (R360, R365, R370, R373, R377, R378) -/

/-- The seconds a frame has spent in this node, rounded up, and at least 1 (R371). -/
def Dev.secondsHere (d : Dev) (j : MeshJob) : Nat := max 1 (ceilDiv (d.el - j.since) (sec 1))

/-- The age a frame leaves with: one forwarded for another node has the seconds it spent here added to the age it came
with (R371). -/
def Dev.ageNow (d : Dev) (j : MeshJob) : Nat :=
  if j.frame.origin = d.meshAddr then j.ageIn.toNat else j.ageIn.toNat + d.secondsHere j

/-- A held frame whose age exceeds 600. -/
def Dev.aged (d : Dev) (j : MeshJob) : Bool := 600 < d.ageNow j

/-- A frame as it goes on the line, sealed. -/
def Dev.onAir (d : Dev) (j : MeshJob) : MeshJob :=
  { j with frame := meshSeal { j.frame with age := BitVec.ofNat 16 (d.ageNow j) } }

/-- A frame goes on the line: its bits as tones of the present pair, at the level of PLC_CFG (R359, R365). -/
def Dev.putOnLine (d : Dev) (f : MeshFrame) : Dev :=
  { d with plc := { d.plc with
      tx := .sending, txTones := (frameBits f).map (bitTone d.plcPair), txMv := 500 * d.rfld 8 0 4 23 20, txBit := 0, limRun := 0 } }

/-- The frame on the line has ended; a deferral that an acknowledgement interrupted goes on. -/
def Dev.offLine (d : Dev) : Dev :=
  { d with plc := { d.plc with tx := if d.plc.deferCycles = 0 then .idle else .defer, txTones := [] } }

/-- A frame start instant (R360): the first sample instant at or after the positive-going crossing at site time zx. -/
def Dev.startInstant (d : Dev) (zx : Nat) : Bool := d.now % samplePeriod = 0 && zx ≤ d.now && d.now < zx + samplePeriod

/-- Frames whose age has come to exceed 600 while they were held are discarded and counted (R371). -/
def Dev.dropAged (d : Dev) : Dev :=
  let d1 := (d.plc.waiting.filter d.aged).foldl (fun (acc : Dev) _ => acc.meshStale)
    { d with plc := { d.plc with waiting := d.plc.waiting.filter fun j => !d.aged j } }
  match d.plc.cur with
  | some j =>
    if d.aged j ∧ (!d.onLine ∨ d.plc.ack.isSome) then
      { d1 with plc := { d1.plc with cur := none, awaitAck := none, deferCycles := 0, tx := if d.onLine then d.plc.tx else .idle } }.meshStale
    else d1
  | none => d1

/-- What waits is looked through before a frame start: aged frames go, and held originations try again. -/
def Dev.readyFrames (d : Dev) : Dev := d.dropAged.releaseOrigs

/-- An acknowledgement that heads the waiting frames, and the rest. -/
def Dev.nextAck (d : Dev) : Option (MeshJob × Dev) :=
  match d.plc.waiting with
  | j :: js => if j.isAck ∧ !d.onLine then some (j, { d with plc := { d.plc with waiting := js } }) else none
  | [] => none

/-- An acknowledgement goes on the line at once: it starts within 50 ms, so it does not defer (R370). -/
def Dev.sendAck (d : Dev) (j : MeshJob) : Dev :=
  ({ d with plc := { d.plc with ack := some (d.onAir j) } }).putOnLine (d.onAir j).frame

/-- The tones are sensed: above 4 mV the modem defers by a random number of mains cycles, else it sends. -/
def Dev.senseTones (d : Dev) (lo hi : Nat) : Dev :=
  match d.plc.cur with
  | none => d
  | some j =>
    if 4000 < lo ∨ 4000 < hi then
      let k := min (j.k + 1) 5
      { d with fresh := d.fresh + 1, plc := { d.plc with
          cur := some { j with k := k }, tx := .defer, deferCycles := 1 + Config.freeNat d.fresh % 2 ^ k } }
    else ({ d with plc := { d.plc with cur := some (d.onAir j), deferCycles := 0 } }).putOnLine (d.onAir j).frame

/-- A frame becomes the one to be sent. -/
def Dev.loadJob (d : Dev) (j : MeshJob) : Dev := { d with plc := { d.plc with cur := some j } }

/-- The type and flags a frame of firmware carries (R361): the layout has types 0 to 5 and flags bits 0 to 2, a MAC where
bit 1 or bit 2 is set (R374); a type beyond it is a free value. -/
def Dev.ownType (d : Dev) (ty : Nat) : Nat := if ty ≤ 5 then ty else Config.freeNat d.fresh % 6
/-- Its flags. -/
def ownFlags (flags : Nat) : Nat := if nbit flags 1 || nbit flags 2 then flags % 8 ||| 2 else flags % 8

/-- A frame of this node starts, with its message ID and, where its flags ask for one, its MAC. With no route, or no
key for the MAC, it ends with NO_ROUTE and a route is asked for. -/
def Dev.startOwn (d : Dev) (ty flags : Nat) (dest : BitVec 16) (payload : List Byte) (frag : Bool) : Dev :=
  match ({ d with fresh := d.fresh + 1 }).meshId with
  | (none, d1) => d1
  | (some w, d0) =>
    let d1 := d0.useRoute dest
    let needMac := nbit (ownFlags flags) 1
    let ldst := (d1.nextHop dest).getD 0
    let f0 := d1.newFrame (d.ownType ty) (ownFlags flags) ldst dest w payload
    let j : MeshJob := { frame := f0, attempts := 0, k := 0, own := true, frag := frag, degraded := false, since := d1.el, ageIn := 0 }
    if (d1.nextHop dest).isNone ∨ (needMac ∧ !d1.keyValid 5) then
      let d2 := { d1 with plc := { d1.plc with cur := some j } }.finishJob 3
      if dest = 1 then d2 else d2.originate 2 0xFFFF dest 0 0
    else
      let (f1, d2) := if needMac then d1.withMac f0 else (f0, d1)
      d2.loadJob { j with frame := f1 }

/-- The PLC_TX messages at the front of a queue that read-out discards as expired (R132): the modem reports each
EXPIRED, with no message ID assigned. -/
def Dev.expiredTx (d : Dev) (q : Fin 64) : Nat :=
  ((d.que.q[q].msgs.takeWhile fun m => m.taken = 0 && m.expired d.que.q[q].entry.cons d.tim.now).filter
    fun m => hdrType (msgHead m.words) = 0x50).length

/-- The front of a queue the modem consumes, after read-out. -/
def Dev.plcFront (d : Dev) (q : Fin 64) : Dev :=
  (List.range (d.expiredTx q)).foldl (fun (acc : Dev) _ => acc.txDone 0 4 0) (d.freshFront q)

/-- The queues the modem consumes. -/
def Dev.plcConsumed (d : Dev) : List (Fin 64) := d.findQueues fun e => e.cons = 5

/-- The front of a queue is a PLC_TX message. -/
def Dev.frontIsTx (d : Dev) (q : Fin 64) : Bool :=
  (d.que.q[q].msgs.head?.map fun m => decide (hdrType (msgHead m.words) = 0x50)).getD false

/-- Take the next PLC_TX message of the queues the modem consumes (R126, R377); a message of another type is left for its
own command. -/
def Dev.takePlcTx (d : Dev) (cs : List WordCheck) : Dev :=
  let d0 := d.plcConsumed.foldl (fun (acc : Dev) q => acc.plcFront q) d
  match d0.nextQueue 5 d0.frontIsTx with
  | (none, d1) => d1
  | (some q, d1) =>
    match d1.takeMsg q cs with
    | (some ws, d2) =>
      let w1 := (ws.getD 1 0).toNat
      if isPoison ws then d2
      else d2.startOwn (bits w1 47 40) (bits w1 39 32) (BitVec.ofNat 16 (bits w1 63 48)) ((unpackWords (ws.drop 2)).take (min 96 (bits w1 31 24))) false
    | (none, d2) => d2

/-- A fragment of a signed reading block (R378). -/
def fragment (bs : List Byte) (i : Nat) : List Byte := [0x53, BitVec.ofNat 8 i] ++ slice bs (94 * i) (if i < 4 then 94 else 72)

/-- A PLC_TX message waits in a queue of the modem. -/
def Dev.txWaits (d : Dev) : Bool := d.plcConsumed.any d.frontIsTx

/-- The modem chooses what it sends next: a waiting frame, the next fragment of a block, or a PLC_TX message. No
frame of its own starts while an issue waits; messages in its queues expire meanwhile (R373). -/
def Dev.chooseFrame (d : Dev) (cs : List WordCheck) : Dev :=
  let quar := (d.que.spaces[(11 : Fin 13)]).quar.isSome
  match d.plc.waiting with
  | j :: js => ({ d with plc := { d.plc with waiting := js } }).loadJob j
  | [] =>
    match d.plc.block with
    | some (bs, i, _) => if quar then d.meshId.2 else d.startOwn 0 7 1 (fragment bs i) true
    | none =>
      if quar then
        let d1 := d.plcConsumed.foldl (fun (acc : Dev) q => acc.plcFront q) d
        if d1.txWaits then d1.meshId.2 else d1
      else d.takePlcTx cs

/-- MESH_TRANSMIT: at a frame start instant an acknowledgement goes first, else the frame in hand or the next one is
sensed for (R360, R370). -/
def Dev.meshTransmit (d : Dev) (lo hi zx : Nat) (cs : List WordCheck) : Dev :=
  if d.meshRuns ∧ d.startInstant zx then
    let d0 := d.readyFrames
    match d0.nextAck with
    | some (j, d1) => d1.sendAck j
    | none =>
      if d0.plc.tx = .idle ∧ d0.plc.awaitAck.isNone then
        (if d0.plc.cur.isSome then d0 else d0.chooseFrame cs).senseTones lo hi
      else d0
  else d

/-- MESH_DEFER_END: so many positive-going crossings since the deferral began; the deferral ends at the frame start
instant of the last of its mains cycles (R360). -/
def Dev.meshDeferEnd (d : Dev) (lo hi zx cycles : Nat) : Dev :=
  if d.meshRuns ∧ d.startInstant zx ∧ d.plc.tx = .defer ∧ d.plc.deferCycles ≤ cycles then
    let d0 := d.readyFrames
    match d0.nextAck with
    | some (j, d1) => d1.sendAck j
    | none => if d0.plc.tx = .defer then d0.senseTones lo hi else d0
  else d

/-- A frame has been sent: one that asks for an acknowledgement waits for it. -/
def Dev.sentFrame (d : Dev) (j : MeshJob) : Dev :=
  if j.frame.flags.getLsbD 0 ∧ j.frame.ldst ≠ 0xFFFF then
    { d with plc := { d.plc with cur := some j, tx := .idle, awaitAck := some d.el } }
  else
    let d1 := { d with plc := { d.plc with cur := some j } }
    (if j.frame.ldst = 0xFFFF then d1 else d1.linkTried j.frame.ldst 0).finishJob j.okStatus

/-- The counts of a frame sent. -/
def Dev.countSent (d : Dev) (degraded : Bool) : Dev :=
  let d1 := d.count 8 0 0x20 31 16
  if degraded then (d1.count 8 0 0x20 15 0).raisePlc 3 else d1

/-- One bit on the line (R365): at the driver's current limit the amplitude falls by 6 dB from the next bit; then
bits in a row at the limit count. -/
def lineBit (x : MeshTx × Nat) (limit : Bool) : MeshTx × Nat :=
  if x.1 = .reduced then (.reduced, if 8 ≤ x.2 then x.2 else if limit then x.2 + 1 else 0)
  else if limit then (.reduced, 0) else x

/-- The bits that went on the line, each with whether the driver reached its current limit. -/
def Dev.lineBits (d : Dev) (limits : List Bool) : Dev :=
  let x := (limits.take (d.plc.txTones.length - d.plc.txBit)).foldl lineBit (d.plc.tx, d.plc.limRun)
  { d with plc := { d.plc with
      tx := x.1, limRun := x.2, txBit := min d.plc.txTones.length (d.plc.txBit + limits.length)
      txMv := if x.1 = .reduced ∧ d.plc.tx ≠ .reduced then d.plc.txMv / 2 else d.plc.txMv } }

/-- The frame on the line ends, complete or with DRIVER_FAULT: an acknowledgement, or the frame in hand. -/
def Dev.meshLineEnd (d : Dev) (fault : Bool) : Dev :=
  let deg := d.plc.tx = .reduced
  let d1 := d.offLine
  match d.plc.ack with
  | some _ =>
    let d2 := { d1 with plc := { d1.plc with ack := none } }
    if fault then d2.raise 8 0 0x14 24 else d2.countSent deg
  | none =>
    match d.plc.cur with
    | none => d1
    | some j =>
      let j1 := { j with attempts := j.attempts + 1, degraded := deg }
      if fault then ({ d1 with plc := { d1.plc with cur := some j1 } }.finishJob 5).raise 8 0 0x14 24
      else (d1.countSent deg).sentFrame j1

/-- MESH_TX_COMPLETE (R365): the next bits of the frame on the line, each with whether the line driver reached its
current limit; with its last bit, or when the driver stops, the frame ends. -/
def Dev.meshTxComplete (d : Dev) (limits : List Bool) : Dev :=
  if d.onLine then
    let d1 := d.lineBits limits
    let fault := decide (8 ≤ d1.plc.limRun)
    if fault ∨ d1.plc.txTones.length ≤ d1.plc.txBit then (d1.oneEvent fun d => d.meshLineEnd fault).meshFrameEnd else d1
  else d

/-- ACK_TIMEOUT (R370): up to 4 attempts, then the link failed; a forwarding node tells the origin. -/
def Dev.ackTimeout (d : Dev) : Dev :=
  match d.plc.cur, d.plc.awaitAck with
  | some j, some t =>
    if d.after t (ms 50) then
      if j.attempts < 4 then { d with plc := { d.plc with awaitAck := none, cur := some { j with k := 0 } } }
      else
        let d2 := d.oneEvent fun d => (d.linkTried j.frame.ldst 1).finishJob 2
        if j.own then d2
        else
          match d2.route j.frame.origin with
          | some r => d2.originate 5 r.next j.frame.origin 0 0
          | none => d2
    else d
  | _, _ => d

/-- The beacon period in ns. -/
def Dev.beaconNs (d : Dev) : Nat := sec (d.rfld 8 0 4 15 8)

/-- BEACON_PERIOD. -/
def Dev.beaconPeriod (d : Dev) : Dev :=
  if d.meshRuns ∧ d.after d.plc.lastBeacon d.beaconNs then { d with plc := { d.plc with lastBeacon := d.el } }.sendBeacon else d

/-- PAIR_CHANGE_BEACON (R362). -/
def Dev.pairBeacon (d : Dev) : Dev :=
  match d.plc.stagedAt with
  | some t =>
    if d.meshRuns ∧ d.after t (sec 1) then
      let d1 := d.sendBeacon
      { d1 with plc := { d1.plc with stagedAt := none } }
    else d
  | none => d

/-- NEIGHBOUR_EXPIRY (R368). -/
def Dev.nbrExpiry (d : Dev) (a : BitVec 16) : Dev :=
  match d.nbr a with
  | some x =>
    if d.after x.heard (4 * d.beaconNs) then
      ({ d with plc := { d.plc with nbrs := d.plc.nbrs.filter fun y => y.addr ≠ a, routes := d.plc.routes.filter fun r => r.next ≠ a } }).recomputeHead
    else d
  | none => d

/-- PENALTY_DECAY (R367). -/
def Dev.penaltyDecay (d : Dev) : Dev :=
  if d.after d.plc.lastDecay (sec 60) then
    ({ d with plc := { d.plc with lastDecay := d.el, nbrs := d.plc.nbrs.map fun (x : Neighbour) => { x with penalty := x.penalty / 2 } } }).relinked d
  else d

/-- MESH_SIGNED_READING (R378): the modem takes a block; it starts no other before this one has ended. -/
def Dev.meshReading (d : Dev) (q : Fin 64) (cs : List WordCheck) : Dev :=
  if d.meshRuns ∧ d.plc.block.isNone ∧ d.que.q[q].entry.cons = 5 then
    let d1 := d.plcFront q
    match d1.que.q[q].msgs with
    | m :: _ =>
      if hdrType (msgHead m.words) = 0x20 ∧ d1.serves q then
        match d1.takeMsg q cs with
        | (some ws, d2) => if isPoison ws then d2 else { d2 with plc := { d2.plc with block := some ((unpackWords (ws.drop 1)).take 448, 0, 0) } }
        | (none, d2) => d2
      else d1
    | [] => d1
  else d

/-! ### Head-end Lattice requests (R375): the frame's checks, its accesses and the reply -/

/-- The accesses of a request, up to 8; an operation byte above 1 stands for no access. -/
def decodeAccesses : Nat → List Byte → List (Option Access)
  | 0, _ => []
  | n + 1, bs =>
    if bs.length < 9 then []
    else
      let addr := w32 (fromBE (slice bs 1 4))
      let acc : Option Access :=
        if bs.headD 0 = 0 then some { addr := addr, write := none }
        else if bs.headD 0 = 1 then some { addr := addr, write := some (w32 (fromBE (slice bs 5 4))) }
        else none
      acc :: decodeAccesses n (bs.drop 9)

/-- A Lattice request for this node passes the checks of every head-end frame (R371 to R374). -/
def Dev.hesAccept (d : Dev) (f : MeshFrame) : Bool × Dev :=
  if !(d.meshRuns && d.isLatticeRequest f) then (false, d)
  else if 600 < f.age.toNat ∨ d.inCache f then (false, d.meshStale)
  else
    match d.headAccept f with
    | (true, d1) => (true, d1.remember f)
    | (false, d1) => (false, d1)

/-- The reply of a request: for each access its status and its read data (log entry 28, DESIGN CHOICE). -/
def hesReply (rs : List (Byte × Word)) : List Byte := rs.flatMap fun r => r.1 :: beBytes 4 r.2.toNat

/-- Send the reply to the head-end, under the key of its request (R409); it waits for its message ID and its route. -/
def Dev.hesAnswer (d : Dev) (rs : List (Byte × Word)) (key : BitVec 256) : Dev := d.originateNow (.reply (hesReply rs) key)

/-! ### Zero-crossing channel: receiving (R379 to R382) -/

/-- The number that bits spell, the first the most significant. -/
def bitsToNat (bs : List ZxBit) : Nat := bs.foldl (fun acc b => acc * 2 + (if b = .one then 1 else 0)) 0

/-- The MAC of a sequence and message under K6. -/
def Dev.zxMac (d : Dev) (seq : Nat) (msg : BitVec 64) : Nat :=
  macBytes 4 (d.keySlot 6).live.secret (leBytes 4 seq ++ leBytes 8 msg.toNat)

/-- The first candidate of R381. -/
def zxCand (last seq : Nat) : Nat := if last / 256 * 256 + seq ≤ last then last / 256 * 256 + seq + 256 else last / 256 * 256 + seq

/-- The sequence a message is accepted with, if its MAC verifies for one of the 16 candidates. -/
def Dev.zxSequence (d : Dev) (msg : BitVec 64) (mac : Nat) : Option Nat :=
  let c := zxCand d.plc.zxSeq.toNat (bits msg.toNat 7 0)
  ((List.range 16).map fun j => c + 256 * j).find? fun s => d.zxMac s msg = mac

/-- The MAC verifies for a value up to the last sequence: a replay. -/
def Dev.zxReplay (d : Dev) (msg : BitVec 64) (mac : Nat) : Bool :=
  let last := d.plc.zxSeq.toNat
  (List.range (last / 256 + 1)).any fun k => 256 * k + bits msg.toNat 7 0 ≤ last && d.zxMac (256 * k + bits msg.toNat 7 0) msg = mac

/-- The channel runs. -/
def Dev.zxRuns (d : Dev) : Bool := d.plc.zx.isRunning && d.runs 10

/-- The check of a whole message (R381). A key that is not VALID verifies nothing; after the power-fail trip a message is
discarded and not counted (R382). -/
def Dev.zxCheck (d : Dev) (msg : BitVec 64) (mac : Nat) : Dev :=
  let grp := bits msg.toNat 59 48
  if d.sto.holdup ∨ (grp ≠ d.rfld 8 1 4 31 20 ∧ grp ≠ 0xFFF) then d
  else if d.keyValid 6 then
    let d1 := d.useKey 6
    match d.zxSequence msg mac with
    | some s => { d1 with plc := { d1.plc with zxAwait := some (msg, w32 s, d.now) } }
    | none => ((if d.zxReplay msg mac then d1.count 8 1 0x14 23 16 else d1.count 8 1 0x14 31 24)).raisePlc 9
  else (d.count 8 1 0x14 31 24).raisePlc 9

/-- The bit of two mains cycles: x is the difference of their d, thr the threshold, in µV (R379). -/
def zxDecide (thr x : Int) : ZxBit := if thr < x then .one else if x < -thr then .zero else .erasure

/-- The bits of whole pairs of mains cycles. -/
def zxBits (thr : Int) : List Int → List ZxBit
  | a :: b :: ds => zxDecide thr (a - b) :: zxBits thr ds
  | _ => []

/-- A bit of a number as a received bit. -/
def zxOf (b : Bool) : ZxBit := if b then .one else .zero

/-- The sync of a message (R379). -/
def zxSync : List ZxBit := (msbBits 16 0xD38C).map zxOf

/-- PLC_ZX_CFG.thr in µV: steps of 2 mV. -/
def Dev.zxThr (d : Dev) : Int := 2000 * (d.rfld 8 1 4 7 0 : Int)

/-- The 96 bits of a message are checked: 64 of the message, 32 of the MAC. -/
def Dev.zxWhole (d : Dev) (bs : List ZxBit) : Dev :=
  d.zxCheck (BitVec.ofNat 64 (bitsToNat (bs.take 64))) (bitsToNat ((bs.drop 64).take 32))

/-- One mains cycle of the receiver (R379): it searches for the sync at every cycle, over the last 32 of them, then reads
a bit from each pair of cycles; an erasure abandons the message. -/
def Dev.zxReceive (d : Dev) (x : Int) : Dev :=
  if d.plc.zxAwait.isSome then d
  else
    match d.plc.zxMsg with
    | none =>
      let win := d.plc.zxWin ++ [x]
      let win32 := win.drop (win.length - 32)
      if zxBits d.zxThr win32 = zxSync then { d with plc := { d.plc with zxWin := [], zxMsg := some [] } }
      else { d with plc := { d.plc with zxWin := win32 } }
    | some bs =>
      match d.plc.zxWin with
      | [] => { d with plc := { d.plc with zxWin := [x] } }
      | a :: _ =>
        let b := zxDecide d.zxThr (a - x)
        let d1 := { d with plc := { d.plc with zxWin := [], zxMsg := none } }
        if b = .erasure then (d1.count 8 1 0x14 15 8).raisePlc 10
        else if bs.length = 95 then { d1 with plc := { d1.plc with zxBitAt := d1.plc.zxCount } }.zxWhole (bs ++ [b])
        else { d with plc := { d.plc with zxWin := [], zxMsg := some (bs ++ [b]) } }

/-- One mains cycle is counted and received. -/
def Dev.zxCycle (d : Dev) (x : Int) : Dev :=
  { d with plc := { d.plc with zxCount := d.plc.zxCount + 1 } }.zxReceive x

/-- ZX_MESSAGE: d of the next mains cycles, in µV (R379). -/
def Dev.zxMessage (d : Dev) (cycles : List Int) : Dev :=
  if d.zxRuns then cycles.foldl (fun (acc : Dev) x => acc.zxCycle x) d else d

/-! ### Zero-crossing channel: executing (R383, R384) -/

/-- The present slices of a mask. -/
def Dev.zxSlices (d : Dev) (mask : Nat) : List (Fin 8) := (maskSlices mask).filter fun n => d.present n.val

/-- DISCONNECT. -/
def Dev.zxDisconnect (d : Dev) (mask : Nat) : Dev := (d.zxSlices mask).foldl (fun (acc : Dev) n => acc.gridStop n 7) d

/-- RECONNECT. -/
def Dev.zxReconnect (d : Dev) (mask : Nat) : Dev := (d.zxSlices mask).foldl (fun (acc : Dev) n => acc.gridReconnect n) d

/-- STOP_CHARGING. -/
def Dev.zxStop (d : Dev) (mask : Nat) : Dev := (d.zxSlices mask).foldl (fun (acc : Dev) n => acc.gridStop n 8) d

/-- LOAD_LIMIT: 0xFFFF lifts the limit. -/
def Dev.zxLimit (d : Dev) (mask : Nat) (params : Word) : Dev :=
  let da := fld params 31 16
  (d.zxSlices mask).foldl (fun (acc : Dev) n => acc.gridLimit n (if da = 0xFFFF then none else some da)) d

/-- Whether a TARIFF_OVERRIDE's parameters are in range: a tariff above 16, or no duration with a tariff, is not. -/
def zxTariffOk (params : Word) : Bool := fld params 31 27 ≤ 16 && (fld params 31 27 = 0 || fld params 26 15 ≠ 0)

/-- TARIFF_OVERRIDE from the site time of the message's last bit. -/
def Dev.zxTariff (d : Dev) (mask : Nat) (params : Word) (t : Nat) : Dev :=
  if zxTariffOk params then
    let ms := ((d.zxSlices mask).map fun n => 2 ^ n.val).sum
    d.putOverride ms (fld params 31 27) (t + fld params 14 7 * minuteNs) (fld params 26 15)
  else d

/-- The result code of a message (R383). -/
def Dev.zxResult (d : Dev) (op mask : Nat) (params : Word) : Nat :=
  if op = 0 ∨ 6 < op ∨ (op = 5 ∧ !zxTariffOk params) then 2
  else if op ≠ 6 ∧ d.zxSlices mask = [] then 1
  else 0

/-- Execute an authenticated message. -/
def Dev.zxExecute (d : Dev) (op mask : Nat) (params : Word) (t : Nat) : Dev :=
  if op = 1 then d.zxDisconnect mask
  else if op = 2 then d.zxReconnect mask
  else if op = 3 then d.zxStop mask
  else if op = 4 then d.zxLimit mask params
  else if op = 5 then d.zxTariff mask params t
  else d

/-- The body of a confirmation (R385). -/
def Dev.confBody (d : Dev) (msg : BitVec 64) (seq : Word) (result : Nat) : Word :=
  packW [(8, bits msg.toNat 7 0), (8, result),
         (16, macBytes 2 (d.keySlot 6).live.secret (leBytes 4 seq.toNat ++ [BitVec.ofNat 8 result] ++ deviceId))]

/-- A confirmation waits for its slot, in mains cycles after its message's last bit, or takes the pending slot behind the one
in progress (R385). -/
def Dev.queueConf (d : Dev) (body : Word) : Dev :=
  let c := (body, d.plc.zxBitAt + d.rfld 8 1 4 19 14 * 168)
  if d.plc.conf.isNone then { d with plc := { d.plc with conf := some c } }
  else { d with plc := { d.plc with confPending := some c } }

/-- ZX_AUTHENTICATED (R382 to R385): the sequence commits, the command executes, the event is written. A message
whose check ends after the power-fail trip is discarded. -/
def Dev.zxAuthenticated (d : Dev) : Dev :=
  match d.plc.zxAwait with
  | none => d
  | some (msg, seq, t) =>
    let d0 := { d with plc := { d.plc with zxAwait := none } }
    if d.sto.holdup then d0
    else
      let m := msg.toNat
      let op := bits m 63 60
      let mask := bits m 47 40
      let params := w32 (bits m 39 8)
      let result := d.zxResult op mask params
      let acted := if result = 0 ∧ op ≠ 6 then ((d.zxSlices mask).map fun n => 2 ^ n.val).sum else 0
      let d1 := { d0 with plc := { d0.plc with zxSeq := seq, zxLast := msg } }
      let d2 := (d1.zxExecute op mask params t).count 8 1 0x14 7 0
      let ev := mkMsg 0x58 6 0xFF 0 [BitVec.ofNat 64 t, msg, packQ [(8, result), (8, acted), (16, 0), (32, seq.toNat)]]
      let d3 := match d2.findQueue fun e => e.cls = 0 && e.prod = 6 with
        | some q => d2.produce q ev
        | none => d2
      let d4 := d3.raisePlc 8
      if bit (d.reg 8 1 4) 13 ∧ d.keyValid 6 then (d4.useKey 6).queueConf (d.confBody msg seq result) else d4

/-- The mains cycles of one bit of a confirmation that hold a pulse: the first two for 1, the last two for 0 (R385). -/
def confCycles (b : Bool) : List Bool := [b, b, !b, !b]

/-- The pulses of a confirmation: sync 0xB5, then the body, most significant bit first (log entry 114, DEDUCED). -/
def confPulses (body : Word) : List Bool := (msbBits 8 0xB5 ++ msbBits 32 body.toNat).flatMap confCycles

/-- ZX_CONFIRMATION, at a positive-going crossing: the waiting confirmation starts at its slot or later (R385). -/
def Dev.zxConfirm (d : Dev) : Dev :=
  match d.plc.conf with
  | some (body, due) =>
    if d.zxRuns ∧ !d.plc.confSending ∧ due ≤ d.plc.zxCount then
      { d with plc := { d.plc with
          confSending := true, confAt := d.plc.zxCount, zxiPulses := confPulses body, zxiWidth := 250000 * d.rfld 8 1 4 11 8 } }
    else d
  | none => d

/-- ZX_CONFIRMATION_END: after all 160 mains cycles ZXI_DRV rests, and the pending confirmation, if any, waits next. -/
def Dev.zxConfirmEnd (d : Dev) : Dev :=
  if d.plc.confSending ∧ d.plc.confAt + d.plc.zxiPulses.length ≤ d.plc.zxCount then
    { d with plc := { d.plc with confSending := false, zxiPulses := [], conf := d.plc.confPending, confPending := none } }
  else d

/-- ZXI_DRV in the mains cycle in progress, t ns after its positive-going crossing: a pulse starts at 1.5 ms (R385); low with
no confirmation (R386). -/
def Dev.zxiDrv (d : Dev) (t : Nat) : Bool :=
  d.plc.zxiPulses.getD (d.plc.zxCount - d.plc.confAt) false && 1500000 ≤ t && t < 1500000 + d.plc.zxiWidth

/-! ### Registers and commands of the chapter -/

/-- PLC_STATUS. -/
def Dev.readPlcStatus (d : Dev) : Word :=
  let tx := match d.plc.tx with
    | .idle => 0
    | .defer => 1
    | .sending => 2
    | .reduced => 3
  packW [(4, 0), (4, tx), (1, b1 d.plc.idWait), (7, d.plc.nbrs.length), (7, 0), (9, d.plc.routes.length)]

/-- PLC_TBL_0 and PLC_TBL_1 of the entry PLC_TBL_SEL names. -/
def Dev.readTbl (d : Dev) : Word × Word :=
  let i := d.rfld 8 0 0x30 7 0
  if d.rfld 8 0 0x30 31 30 = 0 then
    match d.plc.nbrs[i]? with
    | some x =>
      (packW [(16, x.addr.toNat), (8, x.cost), (8, twos 8 (max (-128) (min 127 (snrDb x.snr))))],
       packW [(8, min x.penalty 255), (8, min 255 (x.fail * 256).floor.toNat), (16, min 0xFFFF ((d.el - x.heard) / sec 1))])
    | none => (0, 0)
  else
    match d.plc.routes[i]? with
    | some r => (packW [(16, r.dest.toNat), (16, r.next.toNat)], packW [(16, r.cost), (5, r.hops), (11, 0)])
    | none => (0, 0)

/-- PLC_ZX_STATE. -/
def Dev.readZxState (d : Dev) : Word :=
  let rx := if d.plc.zxAwait.isSome then 3 else if d.plc.zxMsg.isSome then 2 else if d.zxRuns then 1 else 0
  let conf := if d.plc.confSending then 2 else if d.plc.conf.isSome then 1 else 0
  packW [(4, rx), (2, conf), (1, b1 d.plc.confPending.isSome), (18, 0), (7, if d.plc.zxAwait.isSome then 96 else (d.plc.zxMsg.map List.length).getD 0)]

/-- ROUTE_CLEAR. -/
def routeClearCmd (d : Dev) : CmdSt × Dev :=
  if d.plc.mesh.isRunning then (.ok, { d with plc := { d.plc with routes := [] } }) else (.state d.plc.mesh.st.code, d)

/-- COUNT_CLEAR of PLC. -/
def plcCountClearCmd (d : Dev) : CmdSt × Dev :=
  (.ok, (((d.setReg 8 0 0x1C 0).setReg 8 0 0x20 0).setReg 8 0 0x24 0).setReg 8 1 0x14 0)

/-- BEACON: it goes before the waiting frames, and waits while an issue waits (R373). -/
def beaconCmd (d : Dev) : CmdSt × Dev :=
  if d.plc.mesh.isRunning then (.ok, d.originateNow (.beacon true)) else (.state d.plc.mesh.st.code, d)

/-! ### The commands of the table -/

/-- MESH_FRAME_RX. -/
def execMeshFrameRx (f : MeshFrame) (m : RxMeas) (s : State) : Host.Outcome State Fault Refusal := .next { s with dev := s.dev.meshRx f m }

/-- MESH_TRANSMIT. -/
def execMeshTransmit (tones : Nat × Nat) (x : MeshStart) (s : State) : Host.Outcome State Fault Refusal :=
  .next { s with dev := s.dev.meshTransmit tones.1 tones.2 x.zx x.checks }

/-- MESH_DEFER_END. -/
def execMeshDeferEnd (tones : Nat × Nat) (x : Crossing) (s : State) : Host.Outcome State Fault Refusal :=
  .next { s with dev := s.dev.meshDeferEnd tones.1 tones.2 x.zx x.cycles }

/-- MESH_TX_COMPLETE. -/
def execMeshTxComplete (limits : List Bool) (rest : Nat) (s : State) : Host.Outcome State Fault Refusal :=
  .next { s with dev := s.dev.meshTxComplete (limits ++ List.replicate rest false) }

/-- ACK_TIMEOUT. -/
def execAckTimeout (s : State) : Host.Outcome State Fault Refusal := .next { s with dev := s.dev.ackTimeout }

/-- BEACON_PERIOD. -/
def execBeaconPeriod (s : State) : Host.Outcome State Fault Refusal := .next { s with dev := s.dev.beaconPeriod }

/-- PAIR_CHANGE_BEACON. -/
def execPairChangeBeacon (s : State) : Host.Outcome State Fault Refusal := .next { s with dev := s.dev.pairBeacon }

/-- NEIGHBOUR_EXPIRY. -/
def execNeighbourExpiry (addr : BitVec 16) (s : State) : Host.Outcome State Fault Refusal := .next { s with dev := s.dev.nbrExpiry addr }

/-- PENALTY_DECAY. -/
def execPenaltyDecay (s : State) : Host.Outcome State Fault Refusal := .next { s with dev := s.dev.penaltyDecay }

/-- MESH_SIGNED_READING. -/
def execMeshSignedReading (q : Take) (s : State) : Host.Outcome State Fault Refusal :=
  .next { s with dev := s.dev.meshReading q.q q.checks }

/-- ROUTE_CLEAR. -/
def execRouteClear (ag : Agent) (arg : BitVec 24) (s : State) : Host.Outcome State Fault Refusal :=
  .next { s with dev := issueCommand ag 8 0x10 arg 0xFF (noArg arg routeClearCmd) s.dev }

/-- COUNT_CLEAR of PLC. -/
def execPlcCountClear (ag : Agent) (arg : BitVec 24) (s : State) : Host.Outcome State Fault Refusal :=
  .next { s with dev := issueCommand ag 8 0x11 arg 0xFF (noArg arg plcCountClearCmd) s.dev }

/-- BEACON. -/
def execBeacon (ag : Agent) (arg : BitVec 24) (s : State) : Host.Outcome State Fault Refusal :=
  .next { s with dev := issueCommand ag 8 0x12 arg 0xFF (noArg arg beaconCmd) s.dev }

/-- ZX_MESSAGE. -/
def execZxMessage (cycles : List Int) (s : State) : Host.Outcome State Fault Refusal :=
  .next { s with dev := s.dev.zxMessage cycles }

/-- ZX_AUTHENTICATED. -/
def execZxAuthenticated (s : State) : Host.Outcome State Fault Refusal := .next { s with dev := s.dev.zxAuthenticated }

/-- DISCONNECT. -/
def execDisconnect (mask : Byte) (s : State) : Host.Outcome State Fault Refusal := .next { s with dev := s.dev.zxDisconnect mask.toNat }

/-- RECONNECT. -/
def execReconnect (mask : Byte) (s : State) : Host.Outcome State Fault Refusal := .next { s with dev := s.dev.zxReconnect mask.toNat }

/-- STOP_CHARGING. -/
def execStopCharging (mask : Byte) (s : State) : Host.Outcome State Fault Refusal := .next { s with dev := s.dev.zxStop mask.toNat }

/-- LOAD_LIMIT. -/
def execLoadLimit (mask : Byte) (params : Word) (s : State) : Host.Outcome State Fault Refusal :=
  .next { s with dev := s.dev.zxLimit mask.toNat params }

/-- TARIFF_OVERRIDE. -/
def execTariffOverride (mask : Byte) (params : Word) (s : State) : Host.Outcome State Fault Refusal :=
  .next { s with dev := s.dev.zxTariff mask.toNat params s.dev.now }

/-- PING. -/
def execPing (s : State) : Host.Outcome State Fault Refusal := .next s

/-- ZX_CONFIRMATION. -/
def execZxConfirmation (s : State) : Host.Outcome State Fault Refusal :=
  .next { s with dev := s.dev.zxConfirm }

/-- ZX_CONFIRMATION_END. -/
def execZxConfirmationEnd (s : State) : Host.Outcome State Fault Refusal :=
  .next { s with dev := s.dev.zxConfirmEnd }

end Sys2Proof.Machine
end

