-- ==== Sys2Proof/Machine/Store.lean ====
section
/-! DEFINITION. The retained store (15_store_update.md, R459 to R472, R551): its areas, the STO window, scrubbing,
the store writer's queue messages and the event log as bytes. -/

namespace Sys2Proof.Machine

/-! ### The map (R459, R463) -/

/-- The areas of the retained store, and within the boot block and a configuration area the parts that differ in
access. -/
inductive StoArea where
  /-- the boot block but for the next two -/
  | boot
  | keyRecords
  | keyCerts
  /-- firmware slot A (0) or B (1) -/
  | firmware (slot : Nat)
  | structure_ (slot : Nat)
  /-- configuration area 0 or 1 -/
  | config (area : Nat)
  /-- the active calendar block of a configuration area -/
  | activeCal (area : Nat)
  | passiveCal (area : Nat)
  | settings (area : Nat)
  | billing
  | profile
  | sessions
  | eventLog
  | customer
deriving DecidableEq, Repr

/-- The part of a configuration area at an offset (R472). -/
def cfgPart (area off : Nat) : StoArea :=
  if 0x1000 ≤ off ∧ off < 0x1300 then .activeCal area
  else if 0x1400 ≤ off ∧ off < 0x1700 then .passiveCal area
  else if 0x2008 ≤ off ∧ off < 0x2008 + 8 * 64000 then .settings area
  else .config area

/-- The area of a byte address (R459). -/
def stoArea (a : Nat) : StoArea :=
  if a < 0x1000 then .boot
  else if a < 0x9000 then .keyRecords
  else if a < 0xA000 then .keyCerts
  else if a < 0x40000 then .boot
  else if a < 0x840000 then .firmware 0
  else if a < 0x1040000 then .firmware 1
  else if a < 0x1140000 then .structure_ 0
  else if a < 0x1240000 then .structure_ 1
  else if a < 0x1440000 then cfgPart 0 (a - 0x1240000)
  else if a < 0x1640000 then cfgPart 1 (a - 0x1440000)
  else if a < 0x1E40000 then .billing
  else if a < 0x2E40000 then .profile
  else if a < 0x3A40000 then .sessions
  else if a < 0x3E40000 then .eventLog
  else .customer

/-- Address of a firmware slot. -/
def fwAddr (slot : Nat) : Nat := 0x40000 + slot * 0x800000

/-- Address of a structure slot. -/
def structAddr (slot : Nat) : Nat := 0x1040000 + slot * 0x100000

/-- Whether the 64-bit word that holds a byte is uncorrectable (R462). -/
def Dev.wordBad (d : Dev) (a : Nat) : Bool := d.sto.bad.any fun (b : Nat) => b / 8 = a / 8

/-- Whether some word of a range is uncorrectable. -/
def Dev.rangeBad (d : Dev) (a n : Nat) : Bool := d.sto.bad.any fun (b : Nat) => decide (a < b / 8 * 8 + 8) && decide (b / 8 * 8 < a + n)

/-! ### The event log as bytes (R468) -/

/-- The 32 bytes of a log entry. -/
def LogEntry.bytes (e : LogEntry) : List Byte :=
  let body := leBytes 8 e.time ++ leBytes 4 e.seq ++ [BitVec.ofNat 8 e.agent, BitVec.ofNat 8 e.slice] ++
    leBytes 2 (e.group * 4096 + (Config.eventNumber e.event).toNat) ++
    ((e.data ++ [0, 0, 0]).take 3).flatMap fun (w : Word) => leBytes 4 w.toNat
  body ++ leBytes 4 (crc32c body)

/-- Four bytes of the event log at an offset in its area. -/
def Dev.logWord (d : Dev) (off : Nat) : List Byte :=
  match d.log.find? fun e => (e.seq - 1) % 131072 = off / 32 with
  | some e => slice e.bytes (off % 32) 4
  | none => [0, 0, 0, 0]

/-! ### Reads of the store -/

/-- Whether the record layout at an address is the device's own, which the manual does not give (log entry 29, DESIGN CHOICE): the
boot record and device records (R463), register copies, snapshot slots and tamper records (R467). -/
def internalLayout (a : Nat) : Bool :=
  a < 0x1000 || (0xA000 ≤ a && a < 0x10000) || (0x1640000 ≤ a && a < 0x1640000 + 0xB0000)

/-- The word the store holds at a byte address. -/
def Dev.stoWord (d : Dev) (a : Nat) : Word × Dev :=
  if d.wordBad a then
    (0, ({ d with sto := { d.sto with ueAddr := a / 8 * 8 } }).raiseSto 1)
  else if internalLayout a then
    (w32 (fromLE ((List.range 4).map fun i => Config.storeByte d.fresh (a + i))), { d with fresh := d.fresh + 1 })
  else if stoArea a = .eventLog then (w32 (fromLE (d.logWord (a - 0x3A40000))), d)
  else (w32 (fromLE (d.sto.mram.reads a 4)), d)

/-! ### The STO window (R465, R466, R472, R551) -/

/-- An agent's STO_ADDR. -/
def Dev.stoAddr (d : Dev) (ag : Agent) : Nat := (d.view ag (lattice 13 0 0)).toNat &&& 0x3FFFFFC

/-- An agent's STO_ADDR advances by one word. -/
def Dev.stoAdvance (d : Dev) (ag : Agent) : Dev := d.setView ag (lattice 13 0 0) (w32 ((d.stoAddr ag + 4) % 0x4000000))

/-- A read of STO_DATA. -/
def Dev.stoRead (d : Dev) (ag : Agent) : CmdSt × Word × Dev :=
  if stoArea (d.stoAddr ag) = .keyRecords then (.arg, 0, d)
  else
    let (w, d1) := d.stoWord (d.stoAddr ag)
    (.ok, w, d1.stoAdvance ag)

/-- The state of a firmware slot (R476). -/
def Dev.fwState (d : Dev) (slot : Nat) : Nat := if slot = 0 then d.img.fwA else d.img.fwB

/-- The state of a configuration area (R472). -/
def Dev.cfgState (d : Dev) (area : Nat) : Nat := if area = 0 then d.img.cfgArea0 else d.img.cfgArea1

/-- A trial runs (R472): a firmware slot is TRIAL. -/
def Dev.trialRuns (d : Dev) : Bool := d.img.fwA = 3 || d.img.fwB = 3

/-- Whether STO writes into a configuration area are accepted: the TRIAL area while a trial runs, else the CURRENT
area. -/
def Dev.cfgWritable (d : Dev) (area : Nat) : Bool := d.cfgState area = (if d.trialRuns then 2 else 1)

/-- Whether the table of R466 permits a write into an area for some state (PERM for a certificate write by another
agent). -/
def StoArea.writeRefused (x : StoArea) (ag : Agent) : Option CmdSt :=
  match x with
  | .boot => some .arg
  | .keyRecords => some .arg
  | .keyCerts => if ag = .boot then none else some .perm
  | .activeCal _ => some .arg
  | .billing => some .arg
  | .profile => some .arg
  | .sessions => some .arg
  | .eventLog => some .arg
  | _ => none

/-- Whether the present state permits a write into an area (R466). -/
def Dev.stoWritable (d : Dev) : StoArea → Bool
  | .firmware slot => d.fwState slot = 1
  | .structure_ slot => d.img.slot ≠ slot
  | .config area => d.cfgWritable area
  | .passiveCal area => d.cfgWritable area
  | .settings area => d.cfgWritable area
  | _ => true

/-- A STO write completes with STATE (2) (R466). -/
def Dev.stoRefuse (d : Dev) (target : Nat) : CmdSt × Dev := (.state target, d.raiseSto 3)

/-- What an accepted write does beside the bytes: a structure slot is no longer verified (R69), a write into the
passive calendar while ARMED returns it to NONE (R472), a write into the settings is logged and counted (R551). -/
def Dev.stoNote (d : Dev) (ag : Agent) (a : Nat) : StoArea → Dev
  | .structure_ slot => { d with img := { d.img with verified := d.img.verified.filter fun (x : Nat) => x ≠ slot } }
  | .passiveCal _ => { d with bil := { d.bil with armed := none, armedBytes := [] } }
  | .settings area =>
    let (entry, ls) := limitLog d.cfgLog ag area d.el
    let d1 := { d with cfgLog := ls }
    match entry with
    | some k => (d1.logEvent .sto 551 [w32 a, w32 k] (some ag)).tamper 7 none
    | none => d1
  | _ => d

/-- A write of STO_DATA. A write of another agent into the certificate area is refused first, then any write during
hold-up, then what the table never permits, then the present state (log entry 30, DEDUCED). -/
def Dev.stoWrite (d : Dev) (ag : Agent) (data : Word) : CmdSt × Dev :=
  let a := d.stoAddr ag
  match (stoArea a).writeRefused ag with
  | some .perm => (.perm, d)
  | r =>
    if d.sto.holdup then d.stoRefuse 0
    else if r.isSome then (.arg, d)
    else if d.stoWritable (stoArea a) then
      (.ok, ((d.storeWrite a (leBytes 4 data.toNat)).stoNote ag a (stoArea a)).stoAdvance ag)
    else d.stoRefuse (a / 4)

/-- STORE_WINDOW_ACCESS: a read or a write of STO_DATA. -/
def Dev.storeWindow (d : Dev) (ag : Agent) (write : Option Word) : Dev :=
  match write with
  | none => readAccess ag 13 0 (lattice 13 0 4) (fun x => x.stoRead ag) d
  | some v => writeAccess ag 13 0 (lattice 13 0 4) (fun x => x.stoWrite ag v) d

/-! ### Scrubbing (R462) -/

/-- SCRUB (0x10): a pass starts at once. Its row names no argument (log entry 86, DEDUCED). -/
def scrubCmd (_arg : BitVec 24) (d : Dev) : CmdSt × Dev := (.ok, { d with sto := { d.sto with scrubRunning := true } })

/-- COUNT_CLEAR of STO (0x11): STO_ECC becomes 0. -/
def stoCountClearCmd (_arg : BitVec 24) (d : Dev) : CmdSt × Dev :=
  (.ok, { d with sto := { d.sto with eccBad := 0, eccFixed := 0 } })

/-- SCRUB_PASS: a pass starts 24 h after the last one completed (log entry 31, DEDUCED). -/
def Dev.scrubPass (d : Dev) : Dev :=
  if !d.sto.scrubRunning ∧ !d.sto.holdup ∧ d.after d.sto.scrubAt (sec 86400) then
    { d with sto := { d.sto with scrubRunning := true } }
  else d

/-- One uncorrectable word found by the pass: counted, flagged, its address kept; in the billing area the other copy
is used and STORE_ECC is counted (R462, R247). -/
def Dev.foundBad (d : Dev) (a : Nat) : Dev :=
  let d1 := { d with sto := { d.sto with eccBad := satAdd 16 d.sto.eccBad 1, ueAddr := a / 8 * 8, bad := if d.wordBad a then d.sto.bad else a :: d.sto.bad } }
  let d2 := d1.raiseSto 1
  if stoArea a = .billing then d2.tamper 23 none else d2

/-- SCRUB_COMPLETE: what the pass corrected and found uncorrectable. -/
def Dev.scrubComplete (d : Dev) (corrected : Nat) (bad : List Nat) : Dev :=
  if d.sto.scrubRunning then
    let d1 := { d with sto := { d.sto with scrubRunning := false, scrubAt := d.el, eccFixed := satAdd 16 d.sto.eccFixed corrected } }
    let d2 := if corrected = 0 then d1 else d1.raiseSto 0
    (bad.foldl (fun (acc : Dev) (a : Nat) => acc.foundBad (a % 0x4000000)) d2).raiseSto 4
  else d

/-! ### Messages to the store writer (R131, R242, R244, R467) -/

/-- Address of the next entry of the signed reading ring (R467). -/
def readingAddr (k : Nat) : Nat := 0x1640000 + 0xB0000 + 512 * (k % 14976)

/-- Address of the next record of the Karurn ring (R459). -/
def karurnAddr (k : Nat) : Nat := 0x2E40000 + 256 * (k % 49152)

/-- The store writer commits a message to its area; it discards one of another type. -/
def Dev.storeBlock (d : Dev) (ws : List QData) : Dev :=
  let body := unpackWords ws.tail
  if hdrType (msgHead ws) = 0x20 then
    let d1 := d.storeWrite (readingAddr d.bil.rdCount) (body.take 448 ++ List.replicate 64 0)
    { d1 with bil := { d1.bil with rdCount := d1.bil.rdCount + 1 } }
  else if hdrType (msgHead ws) = 0x21 then
    let d1 := d.storeWrite (karurnAddr d.bil.karCount) (body.take 256)
    { d1 with bil := { d1.bil with karCount := d1.bil.karCount + 1 } }
  else d

/-- STORE_MESSAGE (R131): the front message is committed; after a poison word the producer issues the messages it
cost again. -/
def Dev.storeMessage (d : Dev) (q : Fin 64) (cs : List WordCheck) : Dev :=
  let d0 := d.freshFront q
  if d.que.q[q].entry.cons ≠ 3 ∨ d.sto.holdup then d
  else if !d0.serves q then d0
  else
    match d0.que.q[q].msgs with
    | [] => d0
    | m :: ms =>
      let n := poisonSpan m ms cs
      let (ws, d1) := d0.takeMsg q cs
      if n = 0 then d1.storeBlock (ws.getD [])
      else
        ((m :: ms).take ((m :: ms).length - (dropWords n (m :: ms)).length)).foldl
          (fun (acc : Dev) (x : QMsg) => acc.produce q x.words) d1

/-! ### Registers -/

/-- STO_STATUS. -/
def Dev.readStoStatus (d : Dev) : Word :=
  packW [(1, b1 d.sto.holdup), (1, b1 d.sto.scrubRunning), (14, 0), (16, min ((d.el - d.sto.scrubAt) / sec 3600) 0xFFFF)]

/-- STO_PF. -/
def Dev.readStoPf (d : Dev) : Word :=
  packW [(1, b1 d.sto.pfValid), (1, b1 d.sto.pfOverflow), (6, min d.sto.pfMs 63), (8, min d.sto.pfBlocks 0xFF), (16, min d.sto.pfWords 0xFFFF)]

/-! ### The commands of the table -/

/-- STORE_MESSAGE. -/
def execStoreMessage (q : Fin 64) (checks : List WordCheck) (s : State) : Host.Outcome State Fault Refusal :=
  .next { s with dev := s.dev.storeMessage q checks }

/-- STORE_WINDOW_ACCESS. -/
def execStoreWindowAccess (ag : Agent) (write : Option Word) (s : State) : Host.Outcome State Fault Refusal :=
  .next { s with dev := s.dev.storeWindow ag write }

/-- SCRUB. -/
def execScrub (ag : Agent) (arg : BitVec 24) (s : State) : Host.Outcome State Fault Refusal :=
  .next { s with dev := issueCommand ag 13 0x10 arg 0xFF (scrubCmd arg) s.dev }

/-- COUNT_CLEAR of STO. -/
def execStoCountClear (ag : Agent) (arg : BitVec 24) (s : State) : Host.Outcome State Fault Refusal :=
  .next { s with dev := issueCommand ag 13 0x11 arg 0xFF (stoCountClearCmd arg) s.dev }

/-- SCRUB_PASS. -/
def execScrubPass (s : State) : Host.Outcome State Fault Refusal := .next { s with dev := s.dev.scrubPass }

/-- SCRUB_COMPLETE. -/
def execScrubComplete (corrected : Nat) (uncorrectable : List Nat) (s : State) : Host.Outcome State Fault Refusal :=
  .next { s with dev := s.dev.scrubComplete corrected uncorrectable }

end Sys2Proof.Machine
end

