-- ==== Sys2Proof/Machine/Snapshot.lean ====
section
/-! DEFINITION. What a power cut saves: the power-fail snapshot and the tail record (R227 to R229, R469 to R471). -/

namespace Sys2Proof.Machine

/-- The sequence of a snapshot slot; 0 while it holds none. -/
def snapSeq (x : Option Snapshot) : Nat := (x.map (·.seq)).getD 0

/-- The snapshot slot that the Silt pointer does not name (R469). -/
def Dev.freeSlot (d : Dev) : Nat := if d.bil.siltPtr = some 0 then 1 else 0

/-- The messages of the store writer's queues in queue order: those a producer still holds for want of room follow the
committed ones (log entry 35, DEDUCED). -/
def Dev.storeMessages (d : Dev) : List (Nat × List QData) :=
  (d.findQueues fun e => e.cons = 3).flatMap fun (q : Fin 64) =>
    (d.que.q[q].msgs.map fun (m : QMsg) => (q.val, m.words.drop m.taken)) ++
      (d.que.q[q].held.map fun (ws : List QData) => (q.val, ws))

/-- Keep whole messages while they fit in the room of R471, and say whether any was left out. -/
def fitMessages : Nat → List (Nat × List QData) → List (Nat × List QData) × Bool
  | _, [] => ([], false)
  | room, m :: ms =>
    if m.2.length ≤ room then
      let (kept, left_) := fitMessages (room - m.2.length) ms
      (m :: kept, left_)
    else ([], true)

/-- The retained readings and Karurn records not yet signed, at most 64 (R469). -/
def Dev.unsigned (d : Dev) : List SignJob := (d.bil.jobs.filter fun j => !j.reading || j.kind ≠ 0).take 64

/-- Commit the key use counts that go with the snapshot (R400). -/
def Dev.commitUses (d : Dev) : Dev :=
  (List.finRange 64).foldl (fun (acc : Dev) (k : Fin 64) => acc.updKey k fun s =>
    if s.live.limitEn then s else { s with reserved := s.uses }) d

/-- The panel's update journal as it stands (R452, R469). -/
def Dev.panelJournal (d : Dev) : List RgnJournal :=
  (d.pnl.r.toList.map fun (x : Region) =>
    { running := x.jRunning, table := x.jTable, frame := x.jFrame, valid := x.jValid, crc := x.jCrc, update := x.jUpdate }) ++ [d.pnl.stripJ]

/-- What a snapshot holds: the registers as they stand, the store writer's messages, the unsigned blocks and the
panel journal (R227, R469, R471). The time from the trip to the commit is free within its bound of 5 ms (log entry 35, DEDUCED). -/
def Dev.snapshotNow (d : Dev) : Snapshot :=
  { seq := max (snapSeq d.bil.snap0) (snapSeq d.bil.snap1) + 1, time := d.now, slices := d.registerSet
    uses := d.key.slots.toList.map fun (s : KeySlot) => s.uses
    spaces := d.que.spaces, trialSec := d.img.trialSec, words := (fitMessages 16384 d.storeMessages).1
    jobs := d.unsigned, overflow := (fitMessages 16384 d.storeMessages).2
    ms := Config.freeNat d.fresh % 6, panel := d.panelJournal }

/-- Put a snapshot into a slot and move the Silt pointer there (R469); the tail starts again. -/
def BilState.keep (b : BilState) (slot : Nat) (x : Snapshot) : BilState :=
  { b with
    snap0 := if slot = 0 then some x else b.snap0
    snap1 := if slot = 1 then some x else b.snap1
    siltPtr := some slot, tail := none, snapLive := true }

/-- Commit a snapshot into the slot the Silt pointer does not name, and move the pointer (R227, R469). -/
def Dev.commitSnapshot (d : Dev) : Dev :=
  { d.commitUses with
    fresh := d.commitUses.fresh + 1
    bil := d.commitUses.bil.keep d.freeSlot d.snapshotNow
    pwr := { d.commitUses.pwr with snapshot := true, tSnap := d.commitUses.el } }

/-- The snapshot reading of every present slice (R227), then the commit. -/
def Dev.takeSnapshot (d : Dev) : Dev := (d.presentSlices.foldl (fun (acc : Dev) n => acc.midPeriod n) d).commitSnapshot

/-- A slice's registers with the energy of the delivery in progress (R228). -/
def Dev.withTail (d : Dev) (n : Fin 8) : BilSlice :=
  if d.mtrRuns n.val then
    (d.bil.s[n]).credit ((d.mtr.eng[mtrUnit n]).close (d.rfld 3 n.val 4 31 24)).1
  else d.bil.s[n]

/-- Update the tail record after a sample instant of a hold-up whose snapshot has committed (R228). -/
def Dev.updateTail (d : Dev) : Dev :=
  if d.sto.holdup ∧ d.pwr.snapshot ∧ !d.sto.stopped then
    { d with bil := { d.bil with tail := some (Vector.ofFn fun n : Fin 8 => d.withTail n, d.now) } }
  else d

end Sys2Proof.Machine
end

