-- ==== Sys2Proof/Machine/MeterEvents.lean ====
section
/-! DEFINITION. Events of the metrology engines that reach billing (06_metrology.md): the sample transfer and its
faults, the period boundary with its order of steps (R224), Urms refreshes, and writes of calibration registers
(R175, R176). -/

namespace Sys2Proof.Machine

/-! ### Closing a period (R178, R186, R188, R550) -/

/-- The delivery of a unit closes; the grid monitor hands nothing to billing. -/
def Dev.closeUnit (d : Dev) (u : Fin 9) : Dev :=
  if h : u.val < 8 then d.closeDelivery ⟨u.val, h⟩
  else d.updEng u fun e => (e.close (d.rfld 3 8 4 31 24)).2

/-- Energies of the period, in whole units (R550): none on the grid monitor. -/
def Dev.publishEnergy (d : Dev) (n : Nat) (e : Engine) : Dev :=
  let d1 := (((d.putInt 3 n 0x28 (ratTrunc e.eMtr)).putInt 3 n 0x2C e.incVeh).putNat 3 n 0x30 e.incLoss)
  if e.incReact < 2 ^ 30 then d1.setReg 3 n 0x34 (packW [(2, e.quadrant), (30, e.incReact)])
  else { d1.setReg 3 n 0x34 (packW [(2, e.quadrant), (30, Config.freeNat d1.fresh)]) with fresh := d1.fresh + 1 }

/-- Whether a unit measures a frequency (R181): AC slices and the grid monitor. -/
def Dev.hasFreq (d : Dev) (u : Nat) : Bool := u = 8 || (d.kind u).isAc

/-- The PERIOD message of a slice, from the results just published (R200). -/
def Dev.periodMessage (d : Dev) (n : Nat) : List QData :=
  let info := d.reg 3 n 0x20
  mkMsg 0x10 (0x10 + n) n 0
    [BitVec.ofNat 64 d.now, packQ [(16, fld info 31 16), (8, fld info 7 0), (8, 0), (32, (d.reg 3 n 0x24).toNat)],
     packQ [(32, (d.reg 3 n 0x28).toNat), (32, (d.reg 3 n 0x2C).toNat)],
     packQ [(32, (d.reg 3 n 0x30).toNat), (32, (d.reg 3 n 0x34).toNat)],
     packQ [(32, (d.reg 3 n 0x4C).toNat), (32, (d.reg 3 n 0x5C).toNat)]]

/-- Publish the powers and energies of a slice's period. -/
def Dev.publishSlice (d : Dev) (u : Fin 9) (e : Engine) : Dev :=
  if h : u.val < 8 then
    let n : Fin 8 := ⟨u.val, h⟩
    let d1 := ((d.kind n.val).phases).foldl (fun (acc : Dev) p => acc.publishPhase n e.per p) d
    (d1.publishTotals n.val e.per).publishEnergy n.val e
  else d

/-- Tamper type 22 (R247): an EXP increment in a period without creep, on a slice that is not BIDIR. -/
def Dev.reverseEnergy (d : Dev) (n : Fin 8) (e : Engine) : Dev :=
  let on := e.incExp ≠ 0 && !e.fCreep && d.kind n.val ≠ .bidir
  let d1 := d.updBil n fun b => { b with ep22 := on }
  if on ∧ !d.bil.s[n].ep22 then d1.tamper 22 (some n) else d1

/-- Count one more period in which a condition holds, up to 5; none when it does not. -/
def countTo5 (on : Bool) (k : Nat) : Nat := if on then min (k + 1) 5 else 0

/-- The current of a phase exceeds the threshold of type 20 while the phase is in INTR (R247). -/
def Dev.currentNoVoltage (d : Dev) (n : Fin 8) (p : Fin 3) : Bool :=
  let ciwv := d.rfld 4 8 0 31 24
  ciwv ≠ 0 && ((d.mtr.eng[mtrUnit n]).phases[p]).st = .intr &&
    (d.ownedChannels n.val).any fun (c : Fin 64) =>
      (d.chan c.val).2 = 3 + p.val && decide (ciwv * (d.reg 3 (chUnit c.val) 0).toNat < 1000 * (d.reg 3 (chUnit c.val) 0x18).toNat)

/-- Tamper type 20 (R247): five periods in a row, once per episode. -/
def Dev.currentEpisode (d : Dev) (n : Fin 8) : Dev :=
  let old := d.bil.s[n].ep20
  let new : Vector Nat 3 := Vector.ofFn fun p : Fin 3 => countTo5 (d.currentNoVoltage n p) old[p]
  let d1 := d.updBil n fun b => { b with ep20 := new }
  let starts := (List.finRange 3).filter fun (p : Fin 3) => old[p] = 4 && new[p] = 5
  starts.foldl (fun (acc : Dev) _ => acc.tamper 20 (some n)) d1

/-- The tamper conditions that a closed period decides. -/
def Dev.periodTampers (d : Dev) (u : Fin 9) (e : Engine) : Dev :=
  if h : u.val < 8 then (d.reverseEnergy ⟨u.val, h⟩ e).currentEpisode ⟨u.val, h⟩ else d

/-- Close the period of a unit (R186, R188): its last delivery, the results, the flag and the PERIOD message.
`cycles` is what the frequency tracker counted; `stopped` and `fault` are the flags of R188. -/
def Dev.closePeriod (d : Dev) (u : Fin 9) (cycles : Nat × Nat) (stopped fault : Bool) : Dev :=
  let d1 := d.closeUnit u
  let e := d1.mtr.eng[u]
  let d2 := (d1.ownedChannels u.val).foldl (fun (acc : Dev) c => acc.publishChannel c) d1
  let d3 := d2.publishSlice u e
  let f := freqOf cycles
  let noFreq := d3.hasFreq u.val && f.isNone
  let (mhz, d4) := match (if d3.hasFreq u.val then f else none) with
    | some q => d3.round q
    | none => (0, d3)
  let d5 := ((d4.setReg 3 u.val 0x24 (wInt mhz)).setReg 3 u.val 0x18 (w32 d.now)).setReg 3 u.val 0x1C (hi32 d.now)
  let d6 := d5.setReg 3 u.val 0x20 (packW [(16, e.per.n), (8, 0), (8, e.periodFlags fault stopped noFreq)])
  let d7 := (d6.periodTampers u e).updEng u fun e =>
    { e with
      per := {}, eMtr := 0, incVeh := 0, incExp := 0, incLoss := 0, incReact := 0, begun := none
      fStart := false, fStep := false, fReading := false, fBridged := false, fCreep := false }
  d7.oneEvent fun d =>
    let d8 := d.raiseMtr u.val 0
    if h : u.val < 8 then d8.mtrSend ⟨u.val, h⟩ (d8.periodMessage u.val) else d8

/-- What the frequency tracker counted in a period that a stop, a fault or a step cuts short: nothing where 2 cycles of
69 Hz do not fit in its samples (R181), else a free value, since those commands carry no measurement (log entry 36,
DEDUCED). -/
def Dev.freeCycles (d : Dev) (samples : Nat) : (Nat × Nat) × Dev :=
  if samples * samplePeriod * 69 < sec 2 then ((0, 0), d)
  else ((Config.freeNat d.fresh, Config.freeNat (d.fresh + 1)), { d with fresh := d.fresh + 2 })

/-- Close a period that is cut short. -/
def Dev.cutPeriod (d : Dev) (u : Fin 9) (stopped fault : Bool) : Dev :=
  let e := d.mtr.eng[u]
  let (c, d1) := d.freeCycles (e.per.n + e.dlv.n)
  d1.closePeriod u c stopped fault

/-- A pulse output goes low. -/
def Dev.pulseLow (d : Dev) (p : Fin 4) : Dev :=
  let m := d.mtr.out.toNat
  let d1 := d.updPulse p fun x => { x with high := 0, low := 0 }
  { d1 with mtr := { d1.mtr with out := BitVec.ofNat 4 (m - (m &&& 2 ^ p.val)) } }

/-- The pulse outputs of a unit go low, since its function does not run (R197). -/
def Dev.pulsesLow (d : Dev) (u : Nat) : Dev := (d.pulsesOf u).foldl (fun (acc : Dev) (p : Fin 4) => acc.pulseLow p) d

/-- A function that leaves RUNNING takes no further samples: a capture in progress ends without messages, and a
harmonic window with it (log entry 36, DEDUCED). -/
def Dev.endWork (d : Dev) (u : Fin 9) : Dev := d.updEng u fun e => { e with capLeft := none, harmWait := [] }

/-- A metrology function enters FAULT (R188, R189): the period closes with FAULT, type 19 counts. -/
def Dev.meterFault (d : Dev) (u : Fin 9) (code : Byte) : Dev :=
  if d.mtrRuns u.val then
    let d1 := (((d.cutPeriod u false true).endWork u).pulsesLow u.val).updEng u fun e => { e with fn := { st := .fault, code := code } }
    if h : u.val < 8 then d1.tamper 19 (some ⟨u.val, h⟩) else d1.tamper 19 none
  else d

/-- Every unit that owns a channel of a die enters FAULT (R169, R189). -/
def Dev.dieFault (d : Dev) (dieB : Bool) (code : Byte) : Dev :=
  (d.dieUnits dieB).foldl (fun (acc : Dev) u => acc.meterFault u code) d

/-! ### Samples (R21, R108, R167 to R169, R173) -/

/-- The sample instant of a die is now, and the period boundary that falls on it has been executed (R186). -/
def Dev.sampleDue (d : Dev) (dieB : Bool) : Bool :=
  d.due (keySample dieB) samplePeriod && !d.mtr.stopped && !d.pwr.held && d.runs (b1 dieB) &&
    (d.tim.now % mtrPeriod ≠ 0 || d.lastRun keyPeriod = some d.tim.now)

/-- SAMPLE_TRANSFER: a frame that arrives at a busy crossing is discarded (R108, R169); one whose transfer and
retry fail is lost (R21); a good one is taken, and during a hold-up enters the tail (R228). -/
def Dev.sampleTransfer (d : Dev) (dieB : Bool) (f : SampleFrame) : Dev :=
  if !d.sampleDue dieB then d
  else
    let d1 := d.ran (keySample dieB)
    if f.overrun then ((d1.raise 0 0 0xC (2 ^ b1 dieB))).dieFault dieB 2
    else if !f.firstOk ∧ !f.retryOk then
      ((d1.raiseSys 3).logEvent .sys 21 [w32 (b1 dieB), w32 (b1 dieB)]).dieFault dieB 1
    else (d1.takeSamples dieB f.codes).updateTail

/-- PATH_MISMATCH (R173): the paths differed for 16 sample instants in a row. -/
def Dev.pathMismatch (d : Dev) (ch : Fin 64) : Dev :=
  if isCurrentPath ch.val ∧ 16 ≤ d.mtr.ch[ch].differ then
    match d.chanUnit ch.val with
    | some u => if h : u < 9 then d.meterFault ⟨u, h⟩ 4 else d
    | none => d
  else d

/-- AFE_REFERENCE_FAULT (R189): the voltage reference of a front-end die left its range. -/
def Dev.afeReferenceFault (d : Dev) (dieB : Bool) : Dev := d.dieFault dieB 3

/-! ### The period boundary (R182, R186, R224) -/

/-- Publish the results of one harmonic window (R182, R198): each channel's HARMONICS message. -/
def Dev.publishWindow (d : Dev) (u : Fin 9) (t : Nat) (rs : List (Nat × List Nat)) : Dev :=
  let d1 := (d.updEng u fun e => { e with harm := rs }).raiseMtr u.val 6
  match (if u.val < 8 then d1.mtrQueue u.val 3 else none) with
  | none => d1
  | some q =>
    rs.foldl (fun (acc : Dev) (r : Nat × List Nat) =>
      acc.produce q (mkMsg 0x12 (0x10 + u.val) r.1 0 (BitVec.ofNat 64 t ::
        (List.range 32).map fun j => packQ [(32, r.2.getD (2 * j) 0), (32, r.2.getD (2 * j + 1) 0)]))) d1

/-- Publish the windows that ended in the period, in order. -/
def Dev.publishHarmonics (d : Dev) (u : Fin 9) : Dev :=
  ((d.mtr.eng[u]).harmWait).foldl (fun (acc : Dev) (w : Nat × List (Nat × List Nat)) => acc.publishWindow u w.1 w.2)
    (d.updEng u fun e => { e with harmWait := [] })

/-- The unit whose crossings a unit's frequency comes from: the grid monitor's with MTR_CFG.fsrc GRID (R181). -/
def Dev.freqUnit (d : Dev) (u : Nat) : Nat := if u < 8 ∧ bit (d.reg 3 u 4) 2 then 8 else u

/-- Order 1 for one unit: a running unit closes its period, but for one that began at this very instant (R158, R188). -/
def Dev.endPeriod (d : Dev) (u : Fin 9) (cycles : Nat × Nat) : Dev :=
  if d.mtrRuns u.val ∧ (d.mtr.eng[u]).begun ≠ some d.now then
    let d1 := d.oneEvent fun d => (d.closePeriod u cycles false false).publishHarmonics u
    if h : u.val < 8 then d1.countOver ⟨u.val, h⟩ else d1
  else d

/-- The channel and pulse units that a metrology unit owns. -/
def Dev.ownUnits (d : Dev) (u : Nat) : List Nat :=
  ((d.ownedChannels u).map fun (c : Fin 64) => chUnit c.val) ++ ((d.pulsesOf u).map fun (p : Fin 4) => 0x10 + p.val)

/-- The channel and pulse units that no metrology unit owns. -/
def Dev.freeUnits (d : Dev) : List Nat :=
  (((List.finRange 64).filter fun (c : Fin 64) => (d.chanUnit c.val).isNone).map fun (c : Fin 64) => chUnit c.val) ++
  (((List.finRange 4).filter fun (p : Fin 4) => (d.pulseSlice p.val).isNone).map fun (p : Fin 4) => 0x10 + p.val)

/-- An output that is disabled, UNUSED or of a slice that does not run is low (R197). -/
def Dev.pulsesSettle (d : Dev) : Dev :=
  (List.finRange 4).foldl (fun (acc : Dev) (p : Fin 4) => if acc.pulseOn p.val then acc else acc.pulseLow p) d

/-- Staged values of a metrology unit and the units it owns take effect (R75, R77, R90). -/
def Dev.swapMeter (d : Dev) (u : Nat) : Dev := (u :: d.ownUnits u).foldl (fun (acc : Dev) x => acc.swapUnit 3 x) d

/-- The staged swap of the domain Metrology and billing (R75, R77, R90): running metrology units, the units no unit
owns, and the billing units. -/
def Dev.swapBoundary (d : Dev) : Dev :=
  let d1 := (List.range 9).foldl (fun (acc : Dev) u => if acc.mtrRuns u then acc.swapMeter u else acc) d
  let d2 := d1.freeUnits.foldl (fun (acc : Dev) x => acc.swapUnit 3 x) d1
  ((8 :: d2.presentSlices.map fun (n : Fin 8) => n.val).foldl (fun (acc : Dev) n => acc.swapUnit 4 n) d2).pulsesSettle

/-- The commits that follow the boundary while the store writer runs: the register sets (R209), and during a hold-up
the snapshot that was due here or a new one (R227, R229). -/
def Dev.boundaryCommit (d : Dev) : Dev :=
  if d.sto.stopped then d
  else
    let d1 := d.commitBilling
    if d.sto.holdup ∧ d.pwr.takesSnap then (if d.pwr.snapshot then d1.commitSnapshot else d1.takeSnapshot) else d1

/-- Types 6 and 21 end with their condition: the NOT_VALID episode ends with the quality (R247). -/
def Dev.endEpisodes (d : Dev) : Dev :=
  if d.tim.quality = .notValid then d
  else slices.foldl (fun (acc : Dev) n => acc.updBil n fun b => { b with ep6 := false }) d

/-- Before the restore of R230 completes, no boundary is executed: the restore executes them as missed ones. -/
def Dev.billingBoundary (d : Dev) : Dev :=
  if d.img.restoreDone then
    ((d.endEpisodes).boundarySteps d.now .live (fun n => d.stagedBilCfg n.val) Dev.swapBoundary).boundaryCommit
  else d.swapBoundary

/-- METROLOGY_PERIOD_BOUNDARY: orders 1 to 7 of R224 at one instant. `cycles` gives, for each unit, the whole cycles
and the time between the first and the last crossing (R181). -/
def Dev.periodBoundary (d : Dev) (cycles : List (Nat × Nat)) : Dev :=
  if d.due keyPeriod mtrPeriod ∧ !d.mtr.stopped ∧ !d.pwr.held then
    let d1 := (List.finRange 9).foldl (fun (acc : Dev) (u : Fin 9) => acc.endPeriod u (cycles.getD (d.freqUnit u.val) (0, 0))) (d.ran keyPeriod)
    d1.billingBoundary
  else d

/-! ### Urms refreshes (R191 to R193) and type 21 -/

/-- Phase `p` of an AC3 slice is in INTR while another is NORMAL (R247). -/
def Dev.phaseMissing (d : Dev) (n : Fin 8) (p : Fin 3) : Bool :=
  let ps := (d.mtr.eng[mtrUnit n]).phases
  d.kind n.val = .ac3 && ps[p].st = .intr && (ps.toList.any fun (x : PqPhase) => x.st = .normal)

/-- Since when each phase of a slice has been missing. -/
def Dev.missingSince (d : Dev) (n : Fin 8) : Vector (Option Nat) 3 :=
  Vector.ofFn fun p : Fin 3 =>
    if d.phaseMissing n p then some ((d.bil.s[n].pm21[p]).getD d.el) else none

/-- Type 21: the condition has held for one phase for 1 s, once per episode; the episode ends when no phase is missing. -/
def Dev.missingEpisode (d : Dev) (n : Fin 8) : Dev :=
  let since := d.missingSince n
  let held := since.toList.any fun (x : Option Nat) => (x.map fun t => d.after t (sec 1)).getD false
  let none_ := since.toList.all fun (x : Option Nat) => x.isNone
  let d1 := d.updBil n fun b => { b with pm21 := since, ep21 := if none_ then false else b.ep21 || held }
  if held ∧ !d.bil.s[n].ep21 then d1.tamper 21 (some n) else d1

/-- The voltage channel of a phase of a unit (R164, R166). -/
def urmsChan (u : Fin 9) (ph : Fin 3) : Fin 64 :=
  if h : u.val < 8 then vChan ⟨u.val, h⟩ ph else ⟨56 + ph.val, by omega⟩

/-- The mean square of the refresh that is due for a phase, in µV² (R191). -/
def Dev.urmsDue (d : Dev) (u : Fin 9) (ph : Fin 3) : Option Rat :=
  if d.pqWatches u ph then (d.mtr.ch[urmsChan u ph]).wave.refreshWith (d.nominalHz u.val) else none

/-- URMS_REFRESH: a phase of a running AC slice or of the grid monitor is refreshed, where a refresh is due and the row's
value is its Urms(1/2) to a neighbouring µV (R191; log entry 4, DESIGN CHOICE). -/
def Dev.urmsRefresh (d : Dev) (u : Fin 9) (ph : Fin 3) (uv : Nat) : Dev :=
  if (d.urmsDue u ph).any fun ms => nearRoot ms uv then
    let d1 := (d.updCh (urmsChan u ph) fun c => { c with wave := c.wave.refreshed }).pqRefresh u ph uv
    if h : u.val < 8 then d1.missingEpisode ⟨u.val, h⟩ else d1
  else d

/-! ### Calibration and metrology settings (R174 to R176) -/

/-- A signed word lies within ± m. -/
def within (w : Word) (m : Nat) : Bool := (signed 32 w.toNat).natAbs ≤ m

/-- The range of a metrology setting (06_metrology.md, MTR register map). -/
def mtrRangeOk (id : RegId) (u : Nat) (w : Word) : Bool :=
  match id with
  | .mtrCfg => fld w 23 8 ≠ 0
  | .mtrPq => fld w 15 8 + fld w 7 0 ≤ fld w 31 24
  | .mtrCable => u ≠ 8 && fld w 23 0 ≤ 1000000
  | .mtrChScale => w.toNat ≤ 4000000000
  | .mtrCalGain => within w (2 ^ 28)
  | .mtrCalOffs => within w (2 ^ 24)
  | .mtrCalPhase => (signed 16 (fld w 15 0)).natAbs ≤ 4096
  | .mtrPulseCfg => 1 ≤ fld w 10 0 && fld w 10 0 ≤ 1600
  | .mtrPulseK => 1 ≤ w.toNat && w.toNat ≤ 4000000000
  | _ => true

/-- The bits of a register that R176 protects. -/
def calMask : RegId → Nat
  | .mtrCfg => 0xFF000000
  | .mtrCable => 0x80FFFFFF
  | .mtrChScale => 0xFFFFFFFF
  | .mtrCalGain => 0xFFFFFFFF
  | .mtrCalOffs => 0xFFFFFFFF
  | .mtrCalPhase => 0xFFFF
  | .mtrRangeTrim => 0xFFFFFF
  | _ => 0

/-- The metrology unit that a unit's settings belong to: a channel's or pulse output's owner. -/
def Dev.meterOf (d : Dev) (u : Nat) : Option Nat :=
  if u ≤ 8 then some u else if 0x40 ≤ u then d.chanUnit (u - 0x40) else d.pulseSlice (u - 0x10)

/-- The slice of a metrology unit. -/
def sliceOf : Option Nat → Option (Fin 8)
  | some u => if h : u < 8 then some ⟨u, h⟩ else none
  | none => none

/-- The value a register would otherwise take effect with (R176): the staged one, or the live one. -/
def Dev.nextValue (d : Dev) (addr : Nat) : Word := (d.staged.find addr).getD (d.regs.value addr)

/-- A write of a metrology setting: its range, the state of its function (R106), the session of its slice (R176).
`who` is none for the configuration load, whose writes are neither logged nor counted. -/
def Dev.writeMeter (d : Dev) (who : Option Agent) (row : RegDef) (u addr : Nat) (data : Word) : CmdSt × Dev :=
  let m := d.meterOf u
  let f := m.bind fun x => d.func? .mtr x
  let old := d.nextValue addr
  let mask := calMask row.id
  let changed := (old.toNat &&& mask) ≠ (data.toNat &&& mask)
  let sl := sliceOf m
  if !mtrRangeOk row.id u data then (.arg, d)
  else if stopChange row f (d.regs.value addr) data then (.state ((f.map fun x => x.st.code).getD 0), d)
  else if changed && (sl.map d.billedSession).getD false then (.state ((sl.map fun n => (d.evc.s[n].st).code).getD 0), d)
  else
    let d1 := d.writeFields row addr 0 data
    match who with
    | some ag =>
      if changed then
        (.ok, (d1.logEvent .mtr 176 [w32 addr, old, data] (some ag) ((sl.map (·.val)).getD 0xFF)).tamper
          (if row.id = .mtrCable then 8 else 7) sl)
      else (.ok, d1)
    | none => (.ok, d1)

/-- CALIBRATION_WRITE: a write of a register that R176 names; any other address is not this command. -/
def Dev.calibrationWrite (d : Dev) (ag : Agent) (a : Nat) (data : Word) : Dev :=
  let u := a / 0x100000 % 0x100
  match (if a / 0x10000000 = 3 then regAt 3 u (a % 0x80000) else none) with
  | some r =>
    if calMask r.row.id ≠ 0 then
      writeAccess ag 3 u a (fun d => d.writeMeter (some ag) r.row u (lattice 3 u (a % 0x80000)) data) d
    else d
  | none => d

/-! ### The commands of the table -/

/-- SAMPLE_TRANSFER. -/
def execSampleTransfer (dieB : Bool) (f : SampleFrame) (s : State) : Host.Outcome State Fault Refusal :=
  .next { s with dev := s.dev.sampleTransfer dieB f }

/-- PATH_MISMATCH. -/
def execPathMismatch (ch : Fin 64) (s : State) : Host.Outcome State Fault Refusal := .next { s with dev := s.dev.pathMismatch ch }

/-- AFE_REFERENCE_FAULT. -/
def execAfeReferenceFault (dieB : Bool) (s : State) : Host.Outcome State Fault Refusal :=
  .next { s with dev := s.dev.afeReferenceFault dieB }

/-- METROLOGY_PERIOD_BOUNDARY. -/
def execMetrologyPeriodBoundary (cycles : List (Nat × Nat)) (s : State) : Host.Outcome State Fault Refusal :=
  .next { s with dev := s.dev.periodBoundary cycles }

/-- URMS_REFRESH. -/
def execUrmsRefresh (u : Fin 9) (phase : Fin 3) (uv : Nat) (s : State) : Host.Outcome State Fault Refusal :=
  .next { s with dev := s.dev.urmsRefresh u phase uv }

/-- CALIBRATION_WRITE. -/
def execCalibrationWrite (ag : Agent) (addr data : Word) (s : State) : Host.Outcome State Fault Refusal :=
  .next { s with dev := s.dev.calibrationWrite ag addr.toNat data }

/-- WHOLE_SECOND (R154): the count and error of site time are saved in the Silt domain while VMAIN is present. -/
def execWholeSecond (s : State) : Host.Outcome State Fault Refusal :=
  .next { s with dev := if s.dev.due keySecond (sec 1) ∧ !s.dev.pwr.held then (s.dev.ran keySecond).saveRtc else s.dev }

end Sys2Proof.Machine
end

