-- ==== Sys2Proof/Machine/Functions.lean ====
section
/-! DEFINITION. Functions and islands (03_lattice.md): FUNC_STOP, FUNC_START and FUNC_RESTART of every group (R102 to
R105), the automatic start of R190, the island commands of R113 and R546, loss of an island's clock and the stall
monitor. -/

namespace Sys2Proof.Machine

/-! ### Metrology functions (R188, R190, R197, R205) -/

/-- A metrology function stops: its period closes with STOPPED, its pulse outputs are cleared (R188, R197). -/
def Dev.stopMeter (d : Dev) (u : Fin 9) : Dev :=
  let d1 := if d.mtrRuns u.val then (d.cutPeriod u true false).endWork u else d
  let d2 := ((d1.pulsesOf u.val).foldl (fun (acc : Dev) p => acc.clearPulse p) d1).updEng u fun e => { e with fn := { st := .stopped } }
  if h : u.val < 8 then
    let n : Fin 8 := ⟨u.val, h⟩
    let d3 := if d2.evc.s[n].waiting then d2.cutContactor n else d2
    d3.tamper 18 (some n)
  else d2

/-- A metrology function starts (R171, R188): staged values take effect, its first period carries START, and the
tariff of that period is fixed (R208). -/
def Dev.startMeter (d : Dev) (u : Fin 9) : Dev :=
  let d1 := ((d.swapMeter u.val).startGains u.val).updEng u fun e =>
    { e with
      fn := { st := .running }, dlv := {}, per := {}, eMtr := 0, incVeh := 0, incExp := 0, incLoss := 0, incReact := 0
      fStart := true, fStep := false, fReading := false, fBridged := false, fCreep := false, begun := some d.now }
  if h : u.val < 8 then (if d1.img.restoreDone then d1.setTariff ⟨u.val, h⟩ d1.now else d1) else d1

/-- The start conditions of a metrology function (R104, R190). -/
def Dev.meterReady (d : Dev) (u : Nat) : Bool :=
  d.img.loaded.isSome && (u = 8 || d.present u) && d.mtrConfigValid u

/-! ### Connector control functions (R280, R281) -/

/-- A connector control function stops. -/
def Dev.stopEvc (d : Dev) (n : Fin 8) : Dev := (d.updEvc n fun x => { x with fn := { st := .stopped } }).levelPilot n

/-- It starts with its session in IDLE (R281). -/
def Dev.startEvc (d : Dev) (n : Fin 8) : Dev :=
  let d1 := ((d.swapUnit 5 n.val).swapUnit 5 (0x10 + n.val)).updEvc n fun x => { x with fn := { st := .running } }
  if d1.evc.s[n].st = .idle then d1.levelPilot n else d1.goIdle n

/-- FUNC_RESTART clears the debounce state and the count of R257 (R281). -/
def Dev.restartEvc (d : Dev) (n : Fin 8) : Dev :=
  (d.updEvc n fun x => { x with fn := { st := .stopped }, cand := .A, candN := 0, overRun := 0 }).levelPilot n

/-! ### PLC functions (R386, R387) -/

/-- The mesh modem stops: a frame on the line ends there and waits again, first of all (log entry 38, DEDUCED). -/
def Dev.stopMesh (d : Dev) : Dev :=
  { d with plc := { d.plc with
      mesh := { st := .stopped }, tx := .idle, awaitAck := none, deferCycles := 0, ack := none, txTones := []
      waiting := d.plc.ack.toList ++ d.plc.cur.toList ++ d.plc.waiting, cur := none } }

/-- The zero-crossing channel stops: ZXI_DRV is low (R386). -/
def Dev.stopZx (d : Dev) : Dev :=
  { d with plc := { d.plc with
      zx := { st := .stopped }, zxWin := [], zxMsg := none, zxiPulses := [], confSending := false
      conf := if d.plc.confSending then none else d.plc.conf } }

/-- FUNC_RESTART of the mesh modem: neighbours, routes and the duplicate cache are cleared. -/
def Dev.restartMesh (d : Dev) : Dev :=
  { d with plc := { d.plc with mesh := { st := .stopped }, nbrs := [], routes := [], cache := [] } }

/-- FUNC_RESTART of the zero-crossing channel: the receiver and any pending confirmation; the sequence stays. -/
def Dev.restartZx (d : Dev) : Dev :=
  { d with plc := { d.plc with
      zx := { st := .stopped }, zxAwait := none, zxWin := [], zxMsg := none, zxiPulses := [], conf := none
      confSending := false, confPending := none } }

/-- A valid PLC_ADDR. -/
def Dev.plcAddrValid (d : Dev) : Bool :=
  let a := d.rfld 8 0 8 15 0
  a ≠ 0 && a ≠ 1 && a ≠ 0xFFFF

/-! ### Reader and panel (R420, R458) -/

/-- The card reader stops, its field off. -/
def Dev.stopReader (d : Dev) : Dev :=
  let d1 := d.rdrFieldOff
  { d1 with tag := { d1.tag with rdr := { st := .stopped }, pollDue := false } }

/-- FUNC_RESTART of the panel empties the pending slots (R458). -/
def Dev.restartPanel (d : Dev) : Dev :=
  { d with pnl := { d.pnl with
      fn := { st := .stopped }, r := d.pnl.r.map fun (x : Region) => { x with pending := none } } }

/-! ### The common commands (R103, R104) -/

/-- Why a RUNNING function refuses FUNC_STOP (R45, R281, R387, R422, R458). -/
def Dev.stopRefused (d : Dev) (g : Group) (u : Nat) : Bool :=
  match g with
  | .mtr => (d.evc.s[u]?.map fun x => decide (x.st = .energizing) || decide (x.st = .charging)).getD false
  | .evc => !((d.evc.s[u]?.map fun x => decide (x.st = .idle) || decide (x.st = .finished) || decide (x.st = .fault)).getD false)
  | .plc => u = 1 && d.plc.zxAwait.isSome
  | .tag => u = 1
  | .pnl => d.pnlBusy
  | _ => false

/-- A function stops; from FAULT its fault is cleared. -/
def Dev.stopFunc (d : Dev) (g : Group) (u : Nat) : Dev :=
  match g with
  | .tim => d.servoStop
  | .mtr => if h : u < 9 then d.stopMeter ⟨u, h⟩ else d
  | .evc => if h : u < 8 then d.stopEvc ⟨u, h⟩ else d
  | .plc => if u = 0 then d.stopMesh else d.stopZx
  | .tag => if u = 0 then d.stopReader else d
  | .pnl => { d with pnl := { d.pnl with fn := { st := .stopped } } }
  | _ => d

/-- The start conditions of a function (R104, R190, R387, R444, R446, R457). -/
def Dev.startReady (d : Dev) (g : Group) (u : Nat) : Bool :=
  match g with
  | .tim => true
  | .mtr => d.meterReady u
  | .evc => d.present u
  | .plc => if u = 0 then d.persona 3 ≠ 0 && d.plcAddrValid else d.persona 4 ≠ 0
  | .tag => u = 0 && d.img.loaded.isSome && d.persona 5 ≠ 0
  | .pnl => d.panelReady
  | _ => false

/-- A function starts, its staged values taking effect (R77, R104). -/
def Dev.startFunc (d : Dev) (g : Group) (u : Nat) : Dev :=
  match g with
  | .tim => d.servoStart
  | .mtr => if h : u < 9 then d.startMeter ⟨u, h⟩ else d
  | .evc => if h : u < 8 then d.startEvc ⟨u, h⟩ else d
  | .plc => (d.swapUnit 8 u).setFunc .plc u { st := .running }
  | .tag => (d.swapUnit 11 u).setFunc .tag u { st := .running }
  | .pnl => (d.swapUnit 12 0).panelStart
  | _ => d

/-- FUNC_RESTART clears the working state the owning chapter lists; the function is STOPPED. -/
def Dev.restartFunc (d : Dev) (g : Group) (u : Nat) : Dev :=
  match g with
  | .tim => d.servoRestart
  | .mtr => if h : u < 9 then (d.clearWorking ⟨u, h⟩).setFunc .mtr u { st := .stopped } else d
  | .evc => if h : u < 8 then d.restartEvc ⟨u, h⟩ else d
  | .plc => if u = 0 then d.restartMesh else d.restartZx
  | .tag => (d.rdrFieldOff).setFunc .tag u { st := .stopped }
  | .pnl => d.restartPanel
  | _ => d

/-- A common command on the function its argument names; ARG when there is none (R103). `h` is its row of R104. -/
def Dev.onFunc (d : Dev) (g : Group) (arg : BitVec 24) (h : Nat → Func → CmdSt × Dev) : CmdSt × Dev :=
  if argBits arg 15 0 ≠ 0 then (.arg, d)
  else
    match d.func? g (argUnit arg) with
    | some f => h (argUnit arg) f
    | none => (.arg, d)

/-- FUNC_STOP (R104). -/
def funcStopCmd (g : Group) (arg : BitVec 24) (d : Dev) : CmdSt × Dev :=
  d.onFunc g arg fun u f =>
    if f.idle ∨ (f.isRunning ∧ d.stopRefused g u) then (.state f.st.code, d) else (.ok, d.stopFunc g u)

/-- FUNC_START (R104). -/
def funcStartCmd (g : Group) (arg : BitVec 24) (d : Dev) : CmdSt × Dev :=
  d.onFunc g arg fun u f => if f.idle ∧ d.startReady g u then (.ok, d.startFunc g u) else (.state f.st.code, d)

/-- FUNC_RESTART (R104): from STOPPED and FAULT; the service tag refuses it (R422). -/
def funcRestartCmd (g : Group) (arg : BitVec 24) (d : Dev) : CmdSt × Dev :=
  d.onFunc g arg fun u f =>
    if f.st = .stopped ∨ f.st = .fault then (.ok, d.restartFunc g u) else (.state f.st.code, d)

/-! ### The automatic start (R190, R523 step 7) -/

/-- Start a function that is OFF and whose conditions hold. -/
def Dev.tryStartFunc (d : Dev) (g : Group) (u : Nat) : Dev :=
  if ((d.func? g u).map fun f => decide (f.st = .off)).getD false ∧ d.startReady g u then d.startFunc g u else d

/-- The hardware functions of R41 that start with metrology: the panel has a start of its own (R453) and the card
reader waits for firmware (log entry 39, DEDUCED). -/
def hardwareFunctions : List (Group × Nat) :=
  ((List.range 9).map fun u => (Group.mtr, u)) ++ ((List.range 8).map fun u => (Group.evc, u)) ++ [(.plc, 0), (.plc, 1)]

/-- AUTO_FUNCTION_START: the first period boundary after the configuration load and the billing restore. With no
configuration area in use every function stays OFF (R473). -/
def Dev.autoStart (d : Dev) : Dev :=
  if d.img.loaded.isSome ∧ d.img.cfgDone ∧ d.img.restoreDone ∧ !d.img.started ∧ !d.pwr.held ∧ d.tim.now % mtrPeriod = 0 then
    let d1 := { d with img := { d.img with started := true } }
    if d1.areaInUse.isSome then hardwareFunctions.foldl (fun (acc : Dev) (f : Group × Nat) => acc.tryStartFunc f.1 f.2) d1 else d1
  else d

/-! ### Islands (R109, R110, R113, R546) -/

/-- The functions that use an island (R546). -/
def Dev.islandUsers (d : Dev) (i : Nat) : List (Group × Nat) :=
  if 2 ≤ i ∧ i ≤ 9 then (if nbit (d.persona 7) (i - 2) then [(.evc, i - 2)] else [])
  else if i = 10 then [(.plc, 0), (.plc, 1)]
  else if i = 12 then [(.pnl, 0)]
  else if i = 13 then [(.tag, 0)]
  else if i = 14 then [(.tag, 1)]
  else []

/-- Every function that uses the island is OFF or STOPPED. -/
def Dev.islandFree (d : Dev) (i : Nat) : Bool :=
  (d.islandUsers i).all fun (x : Group × Nat) => ((d.func? x.1 x.2).map Func.idle).getD true

/-- ISLAND_STOP. -/
def islandStopCmd (arg : BitVec 24) (d : Dev) : CmdSt × Dev :=
  let i := argUnit arg
  if 15 < i then (.arg, d)
  else if d.runs i ∧ !alwaysRun i ∧ d.islandFree i then (.ok, d.setRun i false)
  else (.state (b1 (d.runs i)), d)

/-- The clock or field of an island is present: a field for islands 13 and 14; after a loss of clock nothing in the
device tells, so it is a free value (log entry 40, DESIGN CHOICE). -/
def Dev.clockPresent (d : Dev) (i : Nat) : Bool × Dev :=
  if i = 13 then (d.tag.rfField, d)
  else if i = 14 then (d.tag.field, d)
  else if d.clockLost.getLsbD i then (Config.freeBit d.fresh, { d with fresh := d.fresh + 1 })
  else (true, d)

/-- ISLAND_START. -/
def islandStartCmd (arg : BitVec 24) (d : Dev) : CmdSt × Dev :=
  let i := argUnit arg
  if 15 < i then (.arg, d)
  else
    let (there, d1) := d.clockPresent i
    if !d.runs i ∧ there then
      let m := d1.clockLost.toNat
      (.ok, { d1.setRun i true with clockLost := BitVec.ofNat 16 (m - (m &&& 2 ^ i)) })
    else (.state (b1 (d.runs i)), d)

/-- A flag register's entries of a unit are dropped. -/
def Dev.dropFlags (d : Dev) (g u : Nat) : Dev :=
  { d with flags := d.flags.filter fun (e : Nat × FlagReg) => e.1 / 0x100000 ≠ g * 0x100 + u }

/-- A unit's registers take their reset values. -/
def Dev.resetUnit (d : Dev) (g u : Nat) : Dev := (d.defaultUnit g u).dropFlags g u

/-- A RUNNING function that uses a reset island enters FAULT with code ISLAND. -/
def Dev.islandFault (d : Dev) (g : Group) (u : Nat) : Dev :=
  if ((d.func? g u).map Func.isRunning).getD false then d.setFunc g u { st := .fault, code := 0xFF } else d

/-- Island 10 returns to its power-on state: both units, but for the retained PLC_ZX_SEQ, and PLC_CFG.pair from
PERSONA. -/
def Dev.resetPlc (d : Dev) : Dev :=
  let d1 := (((d.islandFault .plc 0).islandFault .plc 1).resetUnit 8 0).resetUnit 8 1
  let d2 := { d1 with plc := { mesh := d1.plc.mesh, zx := d1.plc.zx, zxSeq := d.plc.zxSeq, stopped := d.plc.stopped } }
  d2.setRfld 8 0 4 25 24 (d.persona 2)

/-- An island returns to its power-on state (R113, R454, R546). -/
def Dev.resetIsland (d : Dev) (i : Nat) : Dev :=
  if h : 2 ≤ i ∧ i ≤ 9 then
    let n : Fin 8 := ⟨i - 2, by omega⟩
    let d1 := if nbit (d.persona 7) n.val then d.evcFault n 0xFF else d
    (d1.updGp n fun _ => {}).resetUnit 5 (0x10 + n.val)
  else if i = 10 then d.resetPlc
  else if i = 12 then (if d.pnl.fn.isRunning then d.panelFaultWith 0xFF else d)
  else if i = 13 then (d.islandFault .tag 0).rdrFieldOff
  else if i = 14 then
    let d1 := d.endSession 1
    { d1 with tag := { d1.tag with active := false, pendAuth := none } }
  else d

/-- Abort the hung accesses to an island with ABORTED; the requests that carry them go on, and the application core sees
the response of its own in `coreReply` (R84, R110, R544). -/
def Dev.abortHung (d : Dev) (i : Nat) : Dev :=
  let mine := d.hung.filter fun (h : HungAccess) => h.island = i
  let d1 := { d with hung := d.hung.filter fun (h : HungAccess) => h.island ≠ i }
  mine.foldl (fun (acc : Dev) (h : HungAccess) =>
    let d2 := acc.answer h.agent .aborted
    { d2 with
      coreReply := if h.agent = .boot ∨ h.agent = .core then some d2.reply else d2.coreReply
      resume := d2.resume ++ (h.req.map fun (r : Request) => { r with got := r.got ++ [d2.reply] }).toList }) d1

/-- ISLAND_RESET. -/
def islandResetCmd (arg : BitVec 24) (d : Dev) : CmdSt × Dev :=
  let i := argUnit arg
  if 15 < i then (.arg, d)
  else if alwaysRun i then (.state (b1 (d.runs i)), d)
  else (.ok, ((d.abortHung i).resetIsland i).setRun i false)

/-- ISLAND_CLOCK_LOSS (R109). -/
def Dev.islandClockLoss (d : Dev) (i : Fin 16) : Dev :=
  if d.runs i.val then
    { (d.setRun i.val false).raiseSys 4 with clockLost := BitVec.ofNat 16 (d.clockLost.toNat ||| 2 ^ i.val) }
  else d

/-- STALL_DETECT (R110): the stall monitor records each access that has hung for 100 µs. -/
def Dev.stallDetect (d : Dev) : Dev :=
  let late := fun (h : HungAccess) => !h.noted && d.after h.since 100000
  if d.hung.any late then
    { d.raiseSys 0 with hung := d.hung.map fun (h : HungAccess) => if late h then { h with noted := true } else h }
  else d

/-- SYS_STALL. -/
def Dev.readStall (d : Dev) : Word :=
  match d.hung.find? fun (h : HungAccess) => h.noted with
  | some h => packW [(1, 1), (4, 0), (3, agentNum h.agent), (4, 0), (4, h.island), (16, min ((d.el - h.since) / 100000) 0xFFFF)]
  | none => 0

/-- SYS_STALL_ADDR. -/
def Dev.readStallAddr (d : Dev) : Word := ((d.hung.find? fun (h : HungAccess) => h.noted).map fun (h : HungAccess) => w32 h.addr).getD 0

/-! ### The commands of the table -/

/-- FUNC_STOP. -/
def execFuncStop (ag : Agent) (g : Group) (arg : BitVec 24) (s : State) : Host.Outcome State Fault Refusal :=
  .next { s with dev := issueCommand ag (groupNum g) 1 arg (argUnit arg) (funcStopCmd g arg) s.dev }

/-- FUNC_START. -/
def execFuncStart (ag : Agent) (g : Group) (arg : BitVec 24) (s : State) : Host.Outcome State Fault Refusal :=
  .next { s with dev := issueCommand ag (groupNum g) 2 arg (argUnit arg) (funcStartCmd g arg) s.dev }

/-- FUNC_RESTART. -/
def execFuncRestart (ag : Agent) (g : Group) (arg : BitVec 24) (s : State) : Host.Outcome State Fault Refusal :=
  .next { s with dev := issueCommand ag (groupNum g) 3 arg (argUnit arg) (funcRestartCmd g arg) s.dev }

/-- AUTO_FUNCTION_START. -/
def execAutoFunctionStart (s : State) : Host.Outcome State Fault Refusal := .next { s with dev := s.dev.autoStart }

/-- ISLAND_STOP. -/
def execIslandStop (ag : Agent) (arg : BitVec 24) (s : State) : Host.Outcome State Fault Refusal :=
  .next { s with dev := issueCommand ag 0 0x10 arg 0xFF (islandStopCmd arg) s.dev }

/-- ISLAND_START. -/
def execIslandStart (ag : Agent) (arg : BitVec 24) (s : State) : Host.Outcome State Fault Refusal :=
  .next { s with dev := issueCommand ag 0 0x11 arg 0xFF (islandStartCmd arg) s.dev }

/-- ISLAND_CLOCK_LOSS. -/
def execIslandClockLoss (isl : Fin 16) (s : State) : Host.Outcome State Fault Refusal :=
  .next { s with dev := s.dev.islandClockLoss isl }

/-- STALL_DETECT. -/
def execStallDetect (s : State) : Host.Outcome State Fault Refusal := .next { s with dev := s.dev.stallDetect }

end Sys2Proof.Machine
end

