-- ==== Sys2Proof/Machine/Firmware.lean ====
section
/-! DEFINITION. Firmware slots, the recovery ROM and the warm reset (15_store_update.md, R475 to R482; R113, R520 to
R522). -/

namespace Sys2Proof.Machine

/-! ### Slots (R475, R476) -/

/-- The state of a firmware slot changes (R476). -/
def Dev.putFw (d : Dev) (slot v : Nat) : Dev :=
  { d with img := { d.img with fwA := if slot = 0 then v else d.img.fwA, fwB := if slot = 0 then d.img.fwB else v } }

/-- Set the state of a firmware slot, in a boot record commit of its own (R463, R476). -/
def Dev.setFw (d : Dev) (slot v : Nat) : Dev := (d.putFw slot v).bootCommit

/-- The slot in a state, A first. -/
def Dev.fwIn (d : Dev) (v : Nat) : Option Nat := if d.img.fwA = v then some 0 else if d.img.fwB = v then some 1 else none

/-- `n` bytes at an offset of a firmware slot. -/
def Dev.fwBytes (d : Dev) (slot off n : Nat) : List Byte := d.sto.mram.reads (fwAddr slot + off) n

/-- A little-endian header field. -/
def Dev.fwField (d : Dev) (slot off n : Nat) : Nat := fromLE (d.fwBytes slot off n)

/-- core_length. -/
def Dev.coreLength (d : Dev) (slot : Nat) : Nat := d.fwField slot 0x10 4

/-- The header check of FW_PENDING (R9, R475): MAGIC (1), FAMILY (2), COMPAT (3), LENGTH (4); 0 when it passes. -/
def Dev.fwHeaderReason (d : Dev) (slot : Nat) : Nat :=
  if d.fwBytes slot 0 4 ≠ [0x54, 0x47, 0x46, 0x57] ∨ d.fwField slot 4 2 ≠ 1 ∨ d.rangeBad (fwAddr slot) 64 then 1
  else if d.fwField slot 6 2 ≠ 0x0880 then 2
  else if d.fwField slot 8 1 ≠ 1 ∨ d.fwField slot 9 1 ≠ 0 then 3
  else if d.coreLength slot % 64 ≠ 0 ∨ 0x800000 < 196 + d.coreLength slot then 4
  else 0

/-- The length of the customer partition. -/
def Dev.custLength (d : Dev) (slot : Nat) : Nat := d.fwField slot (128 + d.coreLength slot) 4

/-- The image of a slot fits in its slot and every word of it is correctable. -/
def Dev.fwFits (d : Dev) (slot : Nat) : Bool :=
  let n := 196 + d.coreLength slot + d.custLength slot
  decide (n ≤ 0x800000) && decide (d.custLength slot ≤ d.fwField slot 0x14 4) && !d.rangeBad (fwAddr slot) n

/-- The Plynaro signature over the header and the core. -/
def Dev.coreSigned (d : Dev) (slot : Nat) : Bool :=
  let n := 64 + d.coreLength slot
  Config.ecdsaVerify Config.romKey (d.fwBytes slot 0 n) (pairOf (d.fwBytes slot n 64))

/-- The customer signature: with K4, or a length of 0 when K4 is not VALID. -/
def Dev.custSigned (d : Dev) (slot : Nat) : Bool :=
  let o := 128 + d.coreLength slot
  let l := d.custLength slot
  if d.keyValid 4 then
    Config.ecdsaVerify (d.keySlot 4).live.pub (d.fwBytes slot o (4 + l)) (pairOf (d.fwBytes slot (o + 4 + l) 64))
  else l = 0

/-- Both signatures of a slot's image verify (R478 step 5). -/
def Dev.fwVerified (d : Dev) (slot : Nat) : Bool := d.fwHeaderReason slot = 0 && d.fwFits slot && d.coreSigned slot && d.custSigned slot

/-! ### The trial (R478 to R480) -/

/-- Set the state of a configuration area. -/
def Dev.setArea (d : Dev) (area v : Nat) : Dev :=
  { d with img := { d.img with cfgArea0 := if area = 0 then v else d.img.cfgArea0, cfgArea1 := if area = 0 then d.img.cfgArea1 else v } }

/-- The configuration area in a state. -/
def Dev.areaIn (d : Dev) (v : Nat) : Option Nat := if d.img.cfgArea0 = v then some 0 else if d.img.cfgArea1 = v then some 1 else none

/-- An area in a state changes to another. -/
def Dev.moveArea (d : Dev) (v w : Nat) : Dev :=
  match d.areaIn v with
  | some a => d.setArea a w
  | none => d

/-- A trial falls back (R478): its slot FAILED, its area EMPTY, type 17 counted. -/
def Dev.fallBack (d : Dev) (slot reason : Nat) : Dev :=
  let d1 := (d.putFw slot 5).moveArea 2 0
  ({ d1 with img := { d1.img with boots := 0, trialSec := 0, reasonFw := reason } }.bootCommit.raiseImg 3).tamper 17 none

/-- Copy a range of the store (R480). -/
def Dev.storeCopy (d : Dev) (src dst n : Nat) : Dev :=
  let kept := d.sto.mram.filter fun (c : Host.Cell) => !(decide (dst ≤ c.1) && decide (c.1 < dst + n))
  let new := d.sto.mram.filter fun (c : Host.Cell) => decide (src ≤ c.1) && decide (c.1 < src + n)
  { d with sto := { d.sto with
      mram := new.foldl (fun (m : Memory) (c : Host.Cell) => m.write (c.1 - src + dst) c.2) kept
      bad := d.sto.bad.filter fun (a : Nat) => !(decide (dst ≤ a) && decide (a < dst + n)) } }

/-- The area header: its magic; the layout of the rest is the device's own (log entry 29, DESIGN CHOICE). -/
def Dev.areaHeader (d : Dev) (area : Nat) : Dev :=
  let a := cfgAreaAddr area
  ({ d with fresh := d.fresh + 1 }).storeWrite a ([0x54, 0x47, 0x43, 0x46] ++ (List.range 60).map fun (i : Nat) => Config.storeByte d.fresh (a + 4 + i))

/-- The non-CURRENT area becomes TRIAL with the trial image's tag (R480). -/
def Dev.prepareArea (d : Dev) (slot : Nat) : Dev :=
  let tag := d.fwField slot 0xA 2
  let t := if d.img.cfgArea0 = 1 then 1 else 0
  let d1 := (d.areaHeader t).setArea t 2
  let d2 := { d1 with img := { d1.img with cfgTag0 := if t = 0 then tag else d1.img.cfgTag0, cfgTag1 := if t = 0 then d1.img.cfgTag1 else tag } }
  match d.areaIn 1 with
  | some c =>
    let d3 := d2.storeCopy (cfgAreaAddr c + 0x1000) (cfgAreaAddr t + 0x1000) 0x7F000
    if tag = (if c = 0 then d.img.cfgTag0 else d.img.cfgTag1) then d3.storeCopy (cfgAreaAddr c + 0x80000) (cfgAreaAddr t + 0x80000) 0x180000
    else d3
  | none => d2

/-- Steps 1 to 3 of R478: the boot record is read, a trial at its end falls back, a PENDING slot becomes TRIAL. -/
def Dev.romPrepare (d : Dev) : Dev :=
  let d := d.readBoot
  let d1 := match d.fwIn 3 with
    | some s => if d.img.boots = 3 then d.fallBack s 3 else if 600 ≤ d.img.trialSec then d.fallBack s 2 else d
    | none => d
  match d1.fwIn 2 with
  | some s =>
    let d2 := d1.putFw s 3
    ({ d2 with img := { d2.img with boots := 0, trialSec := 0 } }.prepareArea s).bootCommit.raiseImg 1
  | none => d1

/-- Step 4 of R478: the slot the ROM selects. -/
def Dev.romChoice (d : Dev) : Option Nat :=
  match d.fwIn 3 with
  | some s => some s
  | none =>
    match d.fwIn 4 with
    | some s => some s
    | none => d.fwIn 6

/-- Steps 4 to 7 of R478; the first argument bounds the slots tried. -/
def Dev.romSelect : Nat → Dev → Dev
  | 0, d => d
  | k + 1, d =>
    match d.romChoice with
    | none => { d with img := { d.img with recovery := true } }.raiseImg 4
    | some s =>
      let d1 := if d.keyValid 4 then d.useKey 4 else d
      if d.fwVerified s then
        let st := d1.fwState s
        let d2 := if st = 6 then d1.setFw s 4 else d1
        { d2 with img := { d2.img with selected := some s, boots := if st = 3 then d2.img.boots + 1 else d2.img.boots } }.bootCommit
      else if d.fwState s = 3 then Dev.romSelect k (d1.fallBack s 1)
      else Dev.romSelect k (d1.setFw s 5)

/-! ### The warm reset (R113, R520 to R522) -/

/-- The core's own agents. -/
def isCore : Agent → Bool
  | .boot => true
  | .core => true
  | _ => false

/-- What a warm reset clears (R520): the core is A0 again, its views and hung accesses are gone, the head-end port is
closed, the card reader is STOPPED and expiring keys expire. -/
def Dev.warmClear (d : Dev) : Dev :=
  let d1 := { d with
    coreA1 := false
    views := d.views.filter fun (e : Nat × Word) => 2 ≤ e.1 / 0x100000000
    hung := d.hung.filter fun (h : HungAccess) => !isCore h.agent
    resume := d.resume.filter fun (x : Request) => !isCore x.agent }
  let d2 := d1.setRfld 8 0 0x28 0 0 0
  (if d2.tag.rdr.st = FuncState.off then d2 else d2.stopReader).expireKeys

/-- A warm reset with a cause: COMMAND (1), TRIAL_TIMER (2), REVERT (3), RECOVERY (4). -/
def Dev.warmReset (d : Dev) (cause : Nat) : Dev :=
  let d1 := d.warmClear
  let d2 := { d1 with
    pwr := { d1.pwr with warmDue := none, warmKind := true, warmCause := cause, warmCount := satAdd 16 d1.pwr.warmCount 1 }
    img := { d1.img with running := 2, selected := none, recovery := false } }
  Dev.romSelect 4 d2.romPrepare

/-- The warm reset that an accepted command asked for follows its completion. -/
def Dev.settleReset (d : Dev) : Dev :=
  match d.pwr.warmDue with
  | some c => d.warmReset c
  | none => d

/-- An accepted command asks for a warm reset. -/
def Dev.askReset (d : Dev) (cause : Nat) : Dev := { d with pwr := { d.pwr with warmDue := some cause } }

/-- WARM_RESET: its argument is 0. -/
def warmResetCmd (arg : BitVec 24) (d : Dev) : CmdSt × Dev := if arg = 0 then (.ok, d.askReset 1) else (.arg, d)

/-! ### Commands (R477, R480) -/

/-- The argument names slot A or B (log entry 86, DEDUCED). -/
def fwArgOk (arg : BitVec 24) : Bool := decide (argUnit arg ≤ 1)

/-- FW_OPEN. -/
def fwOpenCmd (arg : BitVec 24) (d : Dev) : CmdSt × Dev :=
  let s := argUnit arg
  if !fwArgOk arg then (.arg, d)
  else if (d.fwState s = 0 ∨ d.fwState s = 5 ∨ d.fwState s = 6) ∧ !d.trialRuns then
    (.ok, (d.setFw s 1).storeWrite (fwAddr s) (List.replicate 64 0))
  else (.state (d.fwState s), d)

/-- FW_PENDING. -/
def fwPendingCmd (arg : BitVec 24) (d : Dev) : CmdSt × Dev :=
  let s := argUnit arg
  if !fwArgOk arg then (.arg, d)
  else if (d.fwState s = 1 ∨ d.fwState s = 6) ∧ d.fwState (1 - s) ≠ 2 ∧ d.fwState (1 - s) ≠ 3 then
    if d.fwHeaderReason s = 0 then (.ok, (d.setFw s 2).raiseImg 0)
    else (.arg, { d with img := { d.img with pendReason := d.fwHeaderReason s } })
  else (.state (d.fwState s), d)

/-- FW_CONFIRM (R480): only A1 in a trial; one boot record commit. -/
def fwConfirmCmd (ag : Agent) (arg : BitVec 24) (d : Dev) : CmdSt × Dev :=
  if ag ≠ .core then (.perm, d)
  else if !fwArgOk arg then (.arg, d)
  else if d.fwState d.img.running = 3 ∧ d.img.running < 2 then
    let d1 := match d.fwIn 4 with
      | some s => d.putFw s 6
      | none => d
    let d2 := ((d1.putFw d.img.running 4).moveArea 1 3).moveArea 2 1
    (.ok, ({ d2 with img := { d2.img with boots := 0, trialSec := 0 } }.bootCommit.tamper 16 none).raiseImg 2)
  else (.state (if d.img.running < 2 then d.fwState d.img.running else 0), d)

/-- FW_REVERT: PENDING returns to STAGING; a trial falls back through a warm reset. -/
def fwRevertCmd (arg : BitVec 24) (d : Dev) : CmdSt × Dev :=
  if !fwArgOk arg then (.arg, d)
  else
    match d.fwIn 3 with
    | some s => (.ok, (d.fallBack s 4).askReset 3)
    | none =>
      match d.fwIn 2 with
      | some s => (.ok, d.setFw s 1)
      | none => (.state (d.fwState (argUnit arg)), d)

/-- FIRMWARE_START: the ROM transfers control to the selected slot; the core acts as A1 (R37, R478). -/
def Dev.firmwareStart (d : Dev) : Dev :=
  match d.img.selected with
  | some s =>
    if d.coreA1 ∨ d.pwr.held ∨ d.hangs .boot then d
    else { d with coreA1 := true, img := { d.img with running := s, selected := none } }
  | none => d

/-- TRIAL_TIMEOUT (R479). -/
def Dev.trialTimeout (d : Dev) : Dev := if d.trialRuns ∧ 600 ≤ d.img.trialSec ∧ !d.pwr.held then d.warmReset 2 else d

/-! ### Recovery download (R481) -/

/-- The ROM takes recovery messages: recovery mode, and no hung access of its own. -/
def Dev.inRecovery (d : Dev) : Bool := d.img.recovery && !d.coreA1 && !d.pwr.held && !d.hangs .boot

/-- The recovery input with a producer code. -/
def Dev.rcvInput (d : Dev) (prod : Nat) : Option (Fin 64) := d.findQueue fun e => e.cls = 2 && e.prod = prod && e.cons = 1

/-- The queue is a recovery input whose turn it is: with both inputs waiting, not the one taken from last. -/
def Dev.rcvTurn (d : Dev) (q : Fin 64) : Bool :=
  let p := d.que.q[q].entry.prod
  (p = 2 || p = 8) && d.rcvInput p = some q &&
    (d.img.rcvLast ≠ p || ((d.rcvInput (10 - p)).map fun (o : Fin 64) => (d.freshFront o).que.q[o].msgs.isEmpty).getD true)

/-- The ROM's reply, RCV_ACK. -/
def Dev.rcvAck (d : Dev) (prod slot off status : Nat) : Dev :=
  match d.findQueue fun e => e.cls = 2 && e.prod = 1 && e.cons = prod with
  | some q =>
    if d.que.q[q].room 2 then d.commit q (mkMsg 0x72 1 0 0 [packQ [(8, slot), (24, off), (8, status), (24, 0)]])
    else d.raiseQue q.val 1
  | none => d

/-- Take the message of a recovery input. -/
def Dev.rcvTake (d : Dev) (q : Fin 64) (cs : List WordCheck) : Option (List QData) × Dev :=
  let (m, d1) := d.takeMsg q cs
  (m, { d1 with img := { d1.img with rcvLast := d.que.q[q].entry.prod } })

/-- A slot number as a command argument. -/
def slotArg (slot : Nat) : BitVec 24 := BitVec.ofNat 24 (slot * 0x10000)

/-- The ROM issues a firmware command as A0, and the status it completes with. -/
def Dev.romCommand (d : Dev) (op slot : Nat) (h : BitVec 24 → Dev → CmdSt × Dev) : Nat × Dev :=
  let d1 := issueCommand .boot 14 op (slotArg slot) 0xFF (h (slotArg slot)) d
  (d1.reply.status.toNat, d1)

/-- The words of an RCV_BLOCK lie in their ranges. -/
def rcvBlockOk (ws : List QData) : Bool :=
  let w := (ws.getD 1 0).toNat
  let off := bits w 55 32
  let n := bits w 31 16
  2 ≤ hdrLen (msgHead ws) && bits w 63 56 ≤ 1 && off % 8 = 0 && 8 ≤ n && n ≤ 2024 && off + n ≤ 0x800000 &&
    n ≤ 8 * (hdrLen (msgHead ws) - 1)

/-- A block is written into its slot, which the ROM opens first if needed. -/
def Dev.rcvWrite (d : Dev) (ws : List QData) : Nat × Dev :=
  let w := (ws.getD 1 0).toNat
  let s := bits w 63 56
  if !rcvBlockOk ws then (4, d)
  else
    let (st, d1) := if d.fwState s = 1 then (0, d) else d.romCommand 0x10 s fwOpenCmd
    if st ≠ 0 then (st, d1)
    else if d1.sto.holdup then (2, d1.raiseSto 3)
    else (0, d1.storeWrite (fwAddr s + bits w 55 32) ((unpackWords (ws.drop 2)).take (bits w 31 16)))

/-- RCV_BLOCK: a message that is neither of the two the ROM accepts, or a poison word, is discarded. -/
def Dev.rcvBlock (d : Dev) (q : Fin 64) (cs : List WordCheck) : Dev :=
  if !d.inRecovery ∨ !d.rcvTurn q then d
  else
    let d0 := d.freshFront q
    match d0.que.q[q].msgs with
    | [] => d0
    | m :: _ =>
      if hdrType (msgHead m.words) = 0x71 then d0
      else
        let (ws, d1) := d0.rcvTake q cs
        let w := ws.getD []
        if hdrType (msgHead w) = 0x70 then
          let (st, d2) := d1.rcvWrite w
          d2.rcvAck (d.que.q[q].entry.prod) (bits (w.getD 1 0).toNat 63 56) (bits (w.getD 1 0).toNat 55 32) st
        else d1

/-- Open a slot that is not open yet, where its state allows it (R480). -/
def Dev.rcvOpen (d : Dev) (slot : Nat) : Dev :=
  if slot ≤ 1 ∧ (d.fwState slot = 0 ∨ d.fwState slot = 5) then (d.romCommand 0x10 slot fwOpenCmd).2 else d

/-- The end of a recovery download: FW_PENDING of the slot, its acknowledgement, and on success the warm reset. -/
def Dev.rcvPend (d : Dev) (prod slot : Nat) : Dev :=
  let r := (d.rcvOpen slot).romCommand 0x11 slot fwPendingCmd
  let d1 := r.2.rcvAck prod slot 0 r.1
  if r.1 = 0 then d1.warmReset 4 else d1

/-- RCV_DONE: the slot is opened if needed, then pended; on OK a warm reset follows. -/
def Dev.rcvDone (d : Dev) (q : Fin 64) (cs : List WordCheck) : Dev :=
  if !d.inRecovery ∨ !d.rcvTurn q then d
  else
    let d0 := d.freshFront q
    match d0.que.q[q].msgs with
    | [] => d0
    | m :: _ =>
      if hdrType (msgHead m.words) ≠ 0x71 then d0
      else
        let (ws, d1) := d0.rcvTake q cs
        if isPoison (ws.getD []) then d1
        else d1.rcvPend (d.que.q[q].entry.prod) (bits (m.words.getD 1 0).toNat 63 56)

/-! ### Registers -/

/-- IMG_FW_STATE. -/
def Dev.readFwState (d : Dev) : Word :=
  packW [(4, d.img.fwA), (4, d.img.fwB), (2, d.img.running), (2, 0), (4, d.img.boots), (8, d.img.reasonFw), (8, d.img.pendReason)]

/-- IMG_FW_VER_A and IMG_FW_VER_B: 0 while EMPTY or STAGING. -/
def Dev.readFwVer (d : Dev) (slot : Nat) : Word :=
  if d.fwState slot ≤ 1 then 0 else w32 (d.fwField slot 0xC 4)

/-- IMG_CFG_STATE. -/
def Dev.readCfgState (d : Dev) : Word := packW [(4, d.img.cfgArea0), (4, d.img.cfgArea1), (8, 0), (16, min d.img.cfgRejected 0xFFFF)]

/-- IMG_CFG_TAGS. -/
def Dev.readCfgTags (d : Dev) : Word := packW [(16, d.img.cfgTag1), (16, d.img.cfgTag0)]

/-! ### The commands of the table -/

/-- WARM_RESET. -/
def execWarmReset (ag : Agent) (arg : BitVec 24) (s : State) : Host.Outcome State Fault Refusal :=
  .next { s with dev := (issueCommand ag 0 0x18 arg 0xFF (warmResetCmd arg) s.dev).settleReset }

/-- FW_OPEN. -/
def execFwOpen (ag : Agent) (arg : BitVec 24) (s : State) : Host.Outcome State Fault Refusal :=
  .next { s with dev := issueCommand ag 14 0x10 arg 0xFF (fwOpenCmd arg) s.dev }

/-- FW_PENDING. -/
def execFwPending (ag : Agent) (arg : BitVec 24) (s : State) : Host.Outcome State Fault Refusal :=
  .next { s with dev := issueCommand ag 14 0x11 arg 0xFF (fwPendingCmd arg) s.dev }

/-- FW_CONFIRM. -/
def execFwConfirm (ag : Agent) (arg : BitVec 24) (s : State) : Host.Outcome State Fault Refusal :=
  .next { s with dev := issueCommand ag 14 0x12 arg 0xFF (fwConfirmCmd ag arg) s.dev }

/-- FW_REVERT. -/
def execFwRevert (ag : Agent) (arg : BitVec 24) (s : State) : Host.Outcome State Fault Refusal :=
  .next { s with dev := (issueCommand ag 14 0x13 arg 0xFF (fwRevertCmd arg) s.dev).settleReset }

/-- FIRMWARE_START. -/
def execFirmwareStart (s : State) : Host.Outcome State Fault Refusal := .next { s with dev := s.dev.firmwareStart }

/-- TRIAL_TIMEOUT. -/
def execTrialTimeout (s : State) : Host.Outcome State Fault Refusal := .next { s with dev := s.dev.trialTimeout }

/-- RCV_BLOCK. -/
def execRcvBlock (q : Take) (s : State) : Host.Outcome State Fault Refusal :=
  .next { s with dev := s.dev.rcvBlock q.q q.checks }

/-- RCV_DONE. -/
def execRcvDone (q : Take) (s : State) : Host.Outcome State Fault Refusal :=
  .next { s with dev := s.dev.rcvDone q.q q.checks }

end Sys2Proof.Machine
end

