-- ==== Sys2Proof/Machine/KaolinSection.lean ====
section
/-! DEFINITION. Kaolin's own check of the KAOLIN section (R305 to R311): the layout of the common part and of the slice
blocks, the eight checks, and the safety check value. -/

namespace Sys2Proof.Machine

/-- A body byte as a number. -/
def natAt (bs : List Nat) (i : Nat) : Nat := bs.getD i 0

/-- A little-endian 16-bit field. -/
def nat16 (bs : List Nat) (i : Nat) : Nat := natAt bs i + 256 * natAt bs (i + 1)

/-- A little-endian 32-bit field. -/
def nat32 (bs : List Nat) (i : Nat) : Nat := nat16 bs i + 65536 * nat16 bs (i + 2)

/-- Whether `n` bytes from an offset are 0. -/
def natZeros (bs : List Nat) (off n : Nat) : Bool := (slice bs off n).all fun (b : Nat) => b = 0

/-- The bytes of a body. -/
def bodyBytes (bs : List Nat) : List Byte := bs.map fun (b : Nat) => BitVec.ofNat 8 b

/-- What Kaolin receives at step 6 of R61 (R308). -/
structure KaoInput where
  body : List Nat
  ver  : Nat
  /-- kaolin_check of the image header -/
  check : Word
  /-- slice kinds by code -/
  kinds : List Nat
  /-- owners of IMD0 to IMD3 -/
  imd : List Nat
  /-- slice n owns its own Sn_IRES channel in role IRES -/
  ires : List Bool
deriving DecidableEq, Repr

/-- The common part (R305). -/
def kaoCommonPart (body : List Nat) : List Nat := slice body 0 64

/-- The block of slice n (R305). -/
def kaoBlock (body : List Nat) (n : Nat) : List Nat := slice body (64 + 64 * n) 64

/-- The safety check value of a section (R310). -/
def safetyCheck (ver : Nat) (body : List Nat) : Word :=
  w32 (crc32c ([4, BitVec.ofNat 8 ver, 0, 0] ++ leBytes 4 body.length ++ bodyBytes body))

/-- Entry k of the external inputs (R306). -/
def extEntry (body : List Nat) (k : Nat) : List Nat := slice body (4 + 12 * k) 12

/-- An ext entry serves a slice (R306). -/
def extServes (body : List Nat) (k n : Nat) : Bool := natAt (extEntry body k) 0 = 1 && nbit (natAt (extEntry body k) 2) n

/-- A slice is in the mask of an ext entry, whatever its mode. -/
def extMask (body : List Nat) (k n : Nat) : Bool := nbit (natAt (extEntry body k) 2) n

/-- Range of an ext entry: mode, role, and in WINDOW mode the edges. -/
def extRangeOk (e : List Nat) : Bool :=
  let lo := signed 16 (nat16 e 4)
  let hi := signed 16 (nat16 e 6)
  natAt e 0 ≤ 1 && natAt e 1 ≤ 1 &&
  (natAt e 0 = 0 || (decide (-10000 ≤ lo) && decide (lo ≤ 10000) && decide (lo < hi) && decide (hi ≤ 10000)))

/-- RANGE of the common part. -/
def commonRangeOk (body : List Nat) : Bool :=
  let grace := nat16 body 2
  natAt body 0 ≤ 1 && natAt body 1 ≤ 15 &&
  (if natAt body 0 = 1 then decide (1 ≤ grace) && decide (grace ≤ 900) else grace = 0) &&
  extRangeOk (extEntry body 0) && extRangeOk (extEntry body 1)

/-- RANGE of the fields of a slice block that belong to no source (R307, R308). -/
def blockRangeOk (b : List Nat) : Bool :=
  let dc := nat16 b 2
  let ac := nat16 b 4
  let alarm := nat16 b 6
  let warn := nat16 b 8
  let turns := nat16 b 10
  natAt b 1 ≤ 3 && decide (10 ≤ dc) && decide (dc ≤ 600) && decide (50 ≤ ac) && decide (ac ≤ 3000) &&
  decide (10 ≤ alarm) && decide (alarm ≤ 5000) && (warn = 0 || (decide (alarm ≤ warn) && decide (warn ≤ 10000))) &&
  decide (100 ≤ turns) && decide (turns ≤ 2000) && decide (2 * turns ≤ 100 * dc) && decide (150 * ac ≤ 400 * turns) &&
  natAt b 0x2C ≤ 1 && decide (5 ≤ natAt b 0x2D) && decide (natAt b 0x2D ≤ 100)

/-- Filter and action byte of a source. -/
def blkFilter (b : List Nat) (s : Nat) : Nat := natAt b (0x0C + s)
/-- The action of a source. -/
def blkAction (b : List Nat) (s : Nat) : Nat := natAt b (0x1C + s)

/-- The minimum action of a source of a non-absent slice (R308). -/
def actionOk (i : KaoInput) (n s : Nat) : Bool :=
  let b := kaoBlock i.body n
  let a := blkAction b s
  let dc := natAt i.kinds n = 3 || natAt i.kinds n = 4
  if s = 0 ∨ s = 1 ∨ s = 2 then
    if !dc then decide (1 ≤ a)
    else if !(i.ires.getD n false) then a = 0
    else if s = 2 ∧ (blkAction b 0 ≠ 0 ∨ blkAction b 1 ≠ 0) then decide (1 ≤ a) else true
  else if s = 3 ∨ s = 10 ∨ s = 12 then decide (1 ≤ a)
  else if s = 5 ∨ s = 13 then decide (2 ≤ a)
  else if s = 6 ∨ s = 7 then (if dc then decide (1 ≤ a) else a = 0)
  else if s = 8 ∨ s = 9 then
    if extMask i.body (s - 8) n then (natAt b 1 ≠ s - 7 || decide (1 ≤ a)) else a = 0
  else if s = 14 then a = 3
  else if s = 15 then a = 0
  else true

/-- IMD_SRC of a non-absent slice (R308). -/
def imdSrcOk (i : KaoInput) (n : Nat) : Bool :=
  let src := natAt (kaoBlock i.body n) 1
  if natAt i.kinds n = 3 ∨ natAt i.kinds n = 4 then
    if src = 0 then i.imd.contains n
    else if src = 1 ∨ src = 2 then extServes i.body (src - 1) n && natAt (extEntry i.body (src - 1)) 1 = 1
    else false
  else src = 3

/-- EXT (R308): an UNUSED entry is all 0, and the mask names only present slices. -/
def extOk (i : KaoInput) : Bool :=
  [0, 1].all fun (k : Nat) =>
    let e := extEntry i.body k
    (natAt e 0 ≠ 0 || natZeros e 0 12) && (List.range 8).all fun (n : Nat) => !nbit (natAt e 2) n || natAt i.kinds n ≠ 0

/-- RESERVED of the common part. -/
def commonReservedOk (body : List Nat) : Bool :=
  natZeros body 0x1C 36 && [0, 1].all fun (k : Nat) => natAt (extEntry body k) 3 = 0 && natZeros (extEntry body k) 8 4

/-- RESERVED of a slice block; an ABSENT slice's block is 0 but for its kind. -/
def blockReservedOk (i : KaoInput) (n : Nat) : Bool :=
  natZeros (kaoBlock i.body n) 0x2E 18 && (natAt i.kinds n ≠ 0 || natZeros (kaoBlock i.body n) 1 63)

/-- The present slices of an input. -/
def KaoInput.present (i : KaoInput) : List Nat := (List.range 8).filter fun (n : Nat) => natAt i.kinds n ≠ 0

/-- A failure where a condition does not hold: (reason, slice or 0xF, source). -/
def failIf (ok : Bool) (reason sl src : Nat) : List (Nat × Nat × Nat) := if ok then [] else [(reason, sl, src)]

/-- Every failure of the section, in the order in which KAO_STATUS prefers to show them (R308). -/
def kaolinFailures (i : KaoInput) : List (Nat × Nat × Nat) :=
  ((List.range 8).flatMap fun (n : Nat) => failIf (natAt (kaoBlock i.body n) 0 = natAt i.kinds n) 1 n 0) ++
  failIf (commonRangeOk i.body) 2 0xF 0 ++
  (i.present.flatMap fun (n : Nat) => failIf (blockRangeOk (kaoBlock i.body n)) 2 n 0 ++
    (List.range 16).flatMap fun (s : Nat) =>
      failIf (blkFilter (kaoBlock i.body n) s ≤ 200 && blkAction (kaoBlock i.body n) s ≤ 3) 2 n s) ++
  (i.present.flatMap fun (n : Nat) => (List.range 16).flatMap fun (s : Nat) => failIf (actionOk i n s) 3 n s) ++
  (i.present.flatMap fun (n : Nat) => [5, 11, 12, 13, 14].flatMap fun (s : Nat) =>
    failIf (blkFilter (kaoBlock i.body n) s = 0) 4 n s) ++
  (i.present.flatMap fun (n : Nat) => failIf (imdSrcOk i n) 5 n 0) ++
  failIf (extOk i) 6 0xF 0 ++
  failIf (commonReservedOk i.body) 7 0xF 0 ++
  ((List.range 8).flatMap fun (n : Nat) => failIf (blockReservedOk i n) 7 n 0) ++
  failIf (safetyCheck i.ver i.body = i.check) 8 0xF 0

/-- The failure KAO_STATUS shows; none for a good section. -/
def kaolinFailure (i : KaoInput) : Option (Nat × Nat × Nat) := (kaolinFailures i).head?

end Sys2Proof.Machine
end

