-- ==== Sys2Proof/Machine/ImageCheck.lean ====
section
/-! DEFINITION. The checks of the image loader (R47 to R60, R543, R549): header, directory, sections, signature and the
fifteen rules. `checkImage` answers the decoded image, or the failure's reason code and rule. -/

namespace Sys2Proof.Machine

/-! ### Header and directory (R48 to R50, R549) -/

/-- The bytes of a structure slot as numbers, as far as the header's length reaches. -/
structure RawImage where
  bytes : List Nat
  /-- whether some byte of a range (offset, length) is in an uncorrectable word (R462) -/
  bad : Nat → Nat → Bool

/-- Header length field. -/
def RawImage.len (r : RawImage) : Nat := nat32 r.bytes 0xC

/-- A directory entry. -/
structure DirEntry where
  id  : Nat
  ver : Nat
  off : Nat
  len : Nat
  crc : Nat
deriving DecidableEq, Repr

/-- Entry i of the directory. -/
def RawImage.entry (r : RawImage) (i : Nat) : DirEntry :=
  let e := slice r.bytes (64 + 16 * i) 16
  { id := natAt e 0, ver := natAt e 1, off := nat32 e 4, len := nat32 e 8, crc := nat32 e 12 }

/-- The seven entries. -/
def RawImage.entries (r : RawImage) : List DirEntry := (List.range 7).map r.entry

/-- The entry of a section ID. -/
def RawImage.sec (r : RawImage) (id : Nat) : DirEntry :=
  (r.entries.find? fun (e : DirEntry) => e.id = id).getD { id := 0, ver := 0, off := 0, len := 0, crc := 0 }

/-- The body of a section. -/
def RawImage.body (r : RawImage) (id : Nat) : List Nat := slice r.bytes (r.sec id).off (r.sec id).len

/-- Two bodies share no byte. -/
def disjoint (a b : DirEntry) : Bool := a.len = 0 || b.len = 0 || decide (a.off + a.len ≤ b.off) || decide (b.off + b.len ≤ a.off)

/-- The directory layout (R549). -/
def RawImage.dirOk (r : RawImage) : Bool :=
  natAt r.bytes 0xA = 7 &&
  ((List.range 7).all fun (i : Nat) => (r.entries.map (·.id)).contains (i + 1)) &&
  (r.entries.all fun (e : DirEntry) => e.off % 16 = 0 && decide (176 ≤ e.off) && decide (e.off + e.len + 64 ≤ r.len)) &&
  (List.range 7).all fun (i : Nat) => (List.range i).all fun (j : Nat) => disjoint (r.entry i) (r.entry j)

/-- The length a version 1 body has (R549); PERM's follows its count. -/
def RawImage.bodyLenOk (r : RawImage) (id : Nat) : Bool :=
  let n := (r.sec id).len
  if id = 1 then n = 128 else if id = 2 then n = 256 else if id = 3 then n = 26 else if id = 4 then n = 576
  else if id = 5 then n = 512
  else if id = 6 then decide (nat16 (r.body 6) 0 ≤ 512) && decide (2 ≤ n) && n = 8 + 8 * nat16 (r.body 6) 0
  else n = 256

/-- Step 2 of R61: the reason code of the first failure. -/
def RawImage.headReason (r : RawImage) : Option Nat :=
  if slice r.bytes 0 4 ≠ [0x54, 0x47, 0x53, 0x49] then some 1
  else if nat16 r.bytes 4 ≠ 1 then some 11
  else if nat16 r.bytes 6 ≠ 0x0880 then some 2
  else if natAt r.bytes 8 ≠ 1 ∨ natAt r.bytes 9 ≠ 0 then some 3
  else if r.len < 240 ∨ 1048576 < r.len then some 4
  else if !r.dirOk then some 10
  else none

/-- The check of one section at step 3 (R549). -/
def RawImage.secReason (r : RawImage) (id : Nat) : Option Nat :=
  let e := r.sec id
  if e.ver ≠ 1 then some 9
  else if crc32c (bodyBytes (r.body id)) ≠ e.crc ∨ r.bad e.off e.len then some 5
  else if !r.bodyLenOk id then some 10
  else none

/-- Step 3 of R61. -/
def RawImage.sectionReason (r : RawImage) : Option Nat :=
  match [1, 2, 3, 4, 5, 6, 7].findSome? r.secReason with
  | some x => some x
  | none => if safetyCheck (r.sec 4).ver (r.body 4) = w32 (nat32 r.bytes 0x2C) then none else some 6

/-- The signature at step 4 of R61 (R51). -/
def RawImage.signed (r : RawImage) (key : BitVec 512) : Bool :=
  Config.ecdsaVerify key (bodyBytes (r.bytes.take (r.len - 64)))
    (BitVec.ofNat 512 (fromBE (bodyBytes (slice r.bytes (r.len - 64) 64)))) && !r.bad 0 r.len

/-! ### The rules of R60 -/

/-- Kind code of slice n. -/
def RawImage.kind (r : RawImage) (n : Nat) : Nat := natAt (r.body 1) (16 * n)
/-- Owner of a channel. -/
def RawImage.owner (r : RawImage) (ch : Nat) : Nat := natAt (r.body 2) (4 * ch)
/-- Role of a channel. -/
def RawImage.role (r : RawImage) (ch : Nat) : Nat := natAt (r.body 2) (4 * ch + 1)
/-- A byte of SWITCH (R55). -/
def RawImage.sw (r : RawImage) (i : Nat) : Nat := natAt (r.body 3) i
/-- DC or BIDIR. -/
def RawImage.isDc (r : RawImage) (n : Nat) : Bool := r.kind n = 3 || r.kind n = 4

/-- All eight slices. -/
def all8 (p : Nat → Bool) : Bool := (List.range 8).all p

/-- A slice has its own channel k in role k (R60 rules 2 to 4). -/
def RawImage.ownRole (r : RawImage) (n k : Nat) : Bool := r.owner (7 * n + k) = n && r.role (7 * n + k) = k

/-- The channels of its own that a kind uses (R60 rules 2 to 4). -/
def kindUses (kind : Nat) : List Nat := if kind = 1 then [0, 1, 2, 3, 4, 5, 6] else if kind = 2 then [0, 3, 6] else if kind = 0 then [] else [0, 3]

/-- Rule 1. -/
def RawImage.rule1 (r : RawImage) : Bool :=
  all8 fun n => r.kind n ≠ 0 ||
    (((List.range 64).all fun (ch : Nat) => r.owner ch ≠ n) && (all8 fun k => r.sw (2 * k) ≠ n) &&
     ([16, 17, 18, 19, 22, 23, 24, 25].all fun (i : Nat) => r.sw i ≠ n) && !nbit (r.sw 20) n && !nbit (r.sw 21) n)

/-- Rules 2 and 3, by kind. -/
def RawImage.ownChannels (r : RawImage) (kind : Nat) : Bool :=
  all8 fun n => r.kind n ≠ kind || (kindUses kind).all fun (k : Nat) => r.ownRole n k

/-- Rule 4. -/
def RawImage.rule4 (r : RawImage) : Bool :=
  (all8 fun n => !r.isDc n ||
    (r.ownRole n 0 && r.ownRole n 3 && (nbit (r.sw 20) n || nbit (r.sw 21) n) &&
     (([16, 17, 18, 19].any fun (i : Nat) => r.sw i = n) ||
      natAt (kaoBlock (r.body 4) n) 1 = 1 || natAt (kaoBlock (r.body 4) n) 1 = 2))) &&
  all8 fun n => r.isDc n || (!nbit (r.sw 20) n && !nbit (r.sw 21) n)

/-- Rule 5; an owner code that names no slice is left to the other rules (log entry 65, DEDUCED). -/
def RawImage.rule5 (r : RawImage) : Bool :=
  (List.range 64).all fun (ch : Nat) =>
    r.role ch ≠ 6 || (decide (ch < 56) && ch % 7 = 6 && (r.owner ch = ch / 7 || decide (8 ≤ r.owner ch)))

/-- Rule 6. -/
def RawImage.rule6 (r : RawImage) : Bool :=
  (List.range 56).all fun (ch : Nat) =>
    let n := ch / 7
    r.owner ch = n || decide (8 ≤ r.owner ch) || (!(kindUses (r.kind n)).contains (ch % 7) && r.role ch = 8)

/-- Rule 7. -/
def RawImage.rule7 (r : RawImage) : Bool :=
  (List.range 64).all fun (ch : Nat) =>
    if 56 ≤ ch ∧ ch < 60 then r.owner ch = 0xFE && r.role ch = 7 else r.owner ch ≠ 0xFE && r.role ch ≠ 7

/-- Rule 8. -/
def RawImage.rule8 (r : RawImage) : Bool :=
  [60, 61, 62, 63].all fun (ch : Nat) => r.owner ch = 0xFF || (decide (r.owner ch < 8) && r.role ch = 8)

/-- Rule 9. -/
def RawImage.rule9 (r : RawImage) : Bool :=
  all8 fun n => decide ((([16, 17, 18, 19].filter fun (i : Nat) => r.sw i = n)).length ≤ (if r.isDc n then 1 else 0))

/-- Rule 11. -/
def RawImage.rule11 (r : RawImage) : Bool :=
  (all8 fun n => decide (((List.range 8).filter fun (k : Nat) => r.sw (2 * k) = n && r.sw (2 * k + 1) = 4).length ≤ 1)) &&
  all8 fun k => r.sw (2 * k + 1) ≠ 4 || decide (r.sw (2 * k) < 8)

/-- A code R118 permits as producer of a queue of a class. -/
def producerOk (code cls : Nat) : Bool :=
  code = 1 || code = 2 || (decide (4 ≤ code) && decide (code ≤ 9)) || (code = 0xA && cls = 0) || code = 0xB || code = 0xC ||
  (decide (0x10 ≤ code) && decide (code < 0x30)) || (decide (0x30 ≤ code) && decide (code < 0x38) && cls = 0)

/-- A code R118 permits as consumer. -/
def consumerOk (code : Nat) : Bool :=
  (decide (1 ≤ code) && decide (code ≤ 8)) || code = 0xB || code = 0xC || (decide (0x20 ≤ code) && decide (code < 0x30))

/-- QUEUE entry q (R56). -/
def RawImage.queue (r : RawImage) (q : Nat) : QueueEntry :=
  let b := slice (r.body 5) (8 * q) 8
  { cls := natAt b 0, depth := natAt b 1 + 256 * natAt b 2 + 65536 * natAt b 3, prod := natAt b 4, cons := natAt b 5, thresh := nat16 b 6 }

/-- Rule 12 (R119). -/
def RawImage.rule12 (r : RawImage) : Bool :=
  let qs := (List.range 64).map r.queue
  (qs.all fun (e : QueueEntry) => e.depth = 0 ||
    (e.depth % 64 = 0 && decide (e.depth ≤ 262144) && producerOk e.prod e.cls && consumerOk e.cons && e.prod ≠ e.cons)) &&
  decide ((qs.map (·.depth)).sum ≤ 262144)

/-- Grant g (R57). -/
def RawImage.grant (r : RawImage) (g : Nat) : Grant :=
  let b := slice (r.body 6) (8 + 8 * g) 8
  { agent := natAt b 0, group := natAt b 1, first := natAt b 2, last := natAt b 3, rights := natAt b 4 }

/-- The grants. -/
def RawImage.grants (r : RawImage) : List Grant := (List.range (nat16 (r.body 6) 0)).map r.grant

/-- Rule 13. -/
def RawImage.rule13 (r : RawImage) : Bool :=
  r.grants.all fun (x : Grant) => x.agent ≠ 5 && !(x.agent = 3 && x.group = 6 && decide (2 ≤ x.rights % 8))

/-- CAN bit rates of a port (R543). -/
def canRateOk (mask nom data : Nat) : Bool :=
  if mask = 0 then nom = 0 && data = 0
  else decide (10000 ≤ nom) && decide (nom ≤ 1000000) && decide (nom ≤ data) && decide (data ≤ 5000000) &&
    80000000 % nom = 0 && 80000000 % data = 0

/-- A region entry of PERSONA: x, width, y, height, legal. -/
def personaRegion (p : List Nat) (k : Nat) : Nat × Nat × Nat × Nat × Nat :=
  let b := slice p (0x30 + 12 * k) 12
  (nat16 b 0, nat16 b 2, nat16 b 4, nat16 b 6, natAt b 8)

/-- Two rectangles (x, width, y, height) share no pixel. -/
def apart (a b : Nat × Nat × Nat × Nat) : Bool :=
  decide (a.1 + a.2.1 ≤ b.1) || decide (b.1 + b.2.1 ≤ a.1) || decide (a.2.2.1 + a.2.2.2 ≤ b.2.2.1) || decide (b.2.2.1 + b.2.2.2 ≤ a.2.2.1)

/-- The rectangles of the used regions and the strip. -/
def personaRects (p : List Nat) : List (Nat × Nat × Nat × Nat) :=
  (((List.range 16).map (personaRegion p)).filter fun (x : Nat × Nat × Nat × Nat × Nat) => x.2.1 ≠ 0).map
    (fun (x : Nat × Nat × Nat × Nat × Nat) => (x.1, x.2.1, x.2.2.1, x.2.2.2.1)) ++
  (if natAt p 0x1E = 0 then [] else [(0, nat16 p 0x18, nat16 p 0x1C, natAt p 0x1E)])

/-- One region entry (R442, R543). -/
def regionOk (w h : Nat) (x : Nat × Nat × Nat × Nat × Nat) : Bool :=
  if x.2.1 = 0 then x.1 = 0 && x.2.2.1 = 0 && x.2.2.2.1 = 0 && x.2.2.2.2 = 0
  else x.1 % 8 = 0 && x.2.1 % 8 = 0 && decide (x.1 + x.2.1 ≤ w) && decide (1 ≤ x.2.2.2.1) && decide (x.2.2.1 + x.2.2.2.1 ≤ h) &&
    x.2.2.2.2 ≤ 1

/-- The panel's fields of PERSONA. -/
def panelOk (p : List Nat) : Bool :=
  let w := nat16 p 0x18
  let h := nat16 p 0x1A
  let rs := personaRects p
  (if w = 0 then h = 0 && nat16 p 0x1C = 0 && natAt p 0x1E = 0 && natZeros p 0x30 192
   else w % 8 = 0 && decide (w ≤ 1024) && decide (1 ≤ h) && decide (h ≤ 758)) &&
  natAt p 0x1E ≤ 64 && (natAt p 0x1E ≠ 0 || nat16 p 0x1C = 0) && (natAt p 0x1E = 0 || decide (nat16 p 0x1C + natAt p 0x1E ≤ h)) &&
  ((List.range 16).all fun (k : Nat) => regionOk w h (personaRegion p k)) &&
  (List.range rs.length).all fun (i : Nat) => (List.range i).all fun (j : Nat) => apart (rs.getD i (0, 0, 0, 0)) (rs.getD j (0, 0, 0, 0))

/-- Rule 14 (R543). -/
def RawImage.rule14 (r : RawImage) : Bool :=
  let p := r.body 7
  natAt p 0 ≤ 1 && natAt p 1 ≤ 64 && natAt p 2 ≤ 3 && natAt p 3 ≤ 1 && natAt p 4 ≤ 1 && decide (1 ≤ natAt p 5) && natAt p 5 ≤ 3 &&
  natAt p 6 ≤ 1 && (all8 fun n => !nbit (natAt p 7) n || r.kind n ≠ 0) &&
  canRateOk (r.sw 20) (nat32 p 8) (nat32 p 0xC) && canRateOk (r.sw 21) (nat32 p 0x10) (nat32 p 0x14) &&
  panelOk p && (List.range 16).all fun (x : Nat) => natAt p (0x20 + x) ≤ 3

/-- Whether a byte of the image lies in some body. -/
def RawImage.inBody (r : RawImage) (i : Nat) : Bool := r.entries.any fun (e : DirEntry) => decide (e.off ≤ i) && decide (i < e.off + e.len)

/-- An owner code: a slice, or one of the codes listed. -/
def ownerOk (x : Nat) (codes : List Nat) : Bool := decide (x < 8) || codes.contains x

/-- The reserved bytes of KAOLIN are 0 (R305 to R307). -/
def kaoReservedOk (body : List Nat) : Bool :=
  commonReservedOk body && (List.range 8).all fun (n : Nat) => natZeros (kaoBlock body n) 0x2E 18

/-- Rule 15. -/
def RawImage.rule15 (r : RawImage) : Bool :=
  let p := r.body 7
  natAt r.bytes 0xB = 0 && natZeros r.bytes 0x30 16 &&
  ((List.range 7).all fun (i : Nat) => natZeros r.bytes (64 + 16 * i + 2) 2) &&
  ((List.range (r.len - 64)).all fun (i : Nat) => decide (i < 176) || r.inBody i || natAt r.bytes i = 0) &&
  (all8 fun n => r.kind n ≤ 4 && natZeros (r.body 1) (16 * n + 1) 15) &&
  ((List.range 64).all fun (ch : Nat) => ownerOk (r.owner ch) [0xFE, 0xFF] && r.role ch ≤ 8 && natZeros (r.body 2) (4 * ch + 2) 2) &&
  (all8 fun k => ownerOk (r.sw (2 * k)) [0xF0, 0xFF] && r.sw (2 * k + 1) ≤ 4) &&
  ([16, 17, 18, 19, 22, 23, 24, 25].all fun (i : Nat) => ownerOk (r.sw i) [0xFF]) &&
  ((List.range 64).all fun (q : Nat) => (r.queue q).cls ≤ 3) &&
  natZeros (r.body 6) 2 6 &&
  ((List.range (nat16 (r.body 6) 0)).all fun (g : Nat) =>
    (r.grant g).agent ≤ 5 && (r.grant g).group ≤ 14 && decide ((r.grant g).rights < 8) && natZeros (r.body 6) (8 + 8 * g + 5) 3) &&
  kaoReservedOk (r.body 4) && natAt p 0x1F = 0 && natZeros p 0xF0 16 && (List.range 16).all fun (k : Nat) => natZeros p (0x30 + 12 * k + 9) 3

/-- The rules in order; rule 10 holds of every image, since a pulse output has one owner byte. -/
def RawImage.rules (r : RawImage) : List Bool :=
  [r.rule1, r.ownChannels 1, r.ownChannels 2, r.rule4, r.rule5, r.rule6, r.rule7, r.rule8, r.rule9, true, r.rule11, r.rule12,
   r.rule13, r.rule14, r.rule15]

/-- Step 5 of R61: the lowest rule that fails. -/
def RawImage.ruleFailure (r : RawImage) : Option Nat := (r.rules.findIdx? fun (b : Bool) => !b).map (· + 1)

/-! ### The whole check -/

/-- The decoded image. -/
def RawImage.decode (r : RawImage) : Image :=
  { serial := w32 (nat32 r.bytes 0x10), built := nat32 r.bytes 0x14 + 2 ^ 32 * nat32 r.bytes 0x18, member := nat16 r.bytes 6
    major := natAt r.bytes 8, minor := natAt r.bytes 9, check := w32 (nat32 r.bytes 0x2C)
    vers := [1, 2, 3, 4, 5, 6, 7].map fun (id : Nat) => (r.sec id).ver
    kinds := (List.range 8).map r.kind
    chans := (List.range 64).map fun (ch : Nat) => (r.owner ch, r.role ch)
    switch := r.body 3, kaolin := r.body 4, queues := (List.range 64).map r.queue, perms := r.grants, persona := r.body 7 }

/-- Steps 2 to 5 of R61 on an image, with the verification key when K3 is VALID: the image, or (reason, rule). -/
def checkImage (r : RawImage) (key : Option (BitVec 512)) : Image ⊕ (Nat × Nat) :=
  match r.headReason with
  | some x => .inr (x, 0)
  | none =>
    match r.sectionReason with
    | some x => .inr (x, 0)
    | none =>
      if (key.map r.signed).getD false then
        match r.ruleFailure with
        | some k => .inr (8, k)
        | none => .inl r.decode
      else .inr (7, 0)

/-- What Kaolin receives with an image (R308). -/
def Image.kaoInput (im : Image) : KaoInput :=
  { body := im.kaolin, ver := natAt im.vers 3, check := im.check, kinds := im.kinds, imd := slice im.switch 16 4
    ires := (List.range 8).map fun (n : Nat) => im.chans.getD (7 * n + 6) (0xFF, 0) = (n, 6) }

end Sys2Proof.Machine
end

