-- ==== Sys2Proof/Machine/Image.lean ====
section
/-! DEFINITION. The image loader at work (R61 to R78, R308 to R313, R547, R548): certificates, selection of a slot,
distribution of the sections, SI_VERIFY, SI_RELOAD and the swap. -/

namespace Sys2Proof.Machine

/-! ### Reading and checking a slot (R61, R62) -/

/-- The code of a load state (IMG_SI_STATUS.load_state). -/
def LoadState.code : LoadState → Nat
  | .none => 0
  | .loaded => 1
  | .fallback => 2
  | .reloading => 3

/-- The image bytes of a structure slot, as far as its header's length reaches. -/
def Dev.rawImage (d : Dev) (slot : Nat) : RawImage :=
  let a := structAddr slot
  let n := max 240 (min (fromLE (d.sto.mram.reads (a + 0xC) 4)) 1048576)
  { bytes := (d.sto.mram.reads a n).map (·.toNat), bad := fun off len => d.rangeBad (a + off) len }

/-- The verification key of structure images: K3 while it is VALID (R51, R395). -/
def Dev.imageKey (d : Dev) : Option (BitVec 512) := if d.keyValid 3 then some (d.keySlot 3).live.pub else none

/-- Steps 2 to 5 of R61 on a slot: the image, or its failure. Each signature check uses K3 once (R400). -/
def Dev.checkSlot (d : Dev) (slot : Nat) : (Image ⊕ (Nat × Nat)) × Dev :=
  let r := d.rawImage slot
  (checkImage r d.imageKey, if r.headReason.isNone ∧ r.sectionReason.isNone ∧ d.keyValid 3 then d.useKey 3 else d)

/-- Load K3 or K4 from its certificate at step 4 (R405): VALID when its checks pass, else EMPTY. -/
def Dev.loadCert (d : Dev) (k : Fin 64) : Dev :=
  let cert := d.sto.mram.reads (certAddr k.val) 176
  if certSigned cert ∧ certMatches k.val 0 cert ∧ !d.rangeBad (certAddr k.val) 176 then
    d.updKey k fun s => { s with st := .valid, live := certCopy s.live.attrs cert, impser := (certCopy 0 cert).serial }
  else d.updKey k fun s => { s with st := .empty, live := {} }

/-! ### Kaolin receives a section (R308, R309, R313) -/

/-- Kaolin takes what the loader passes it: the section is received or bad. -/
def Dev.kaoReceive (d : Dev) (im : Image) : Dev :=
  let i := im.kaoInput
  let c := safetyCheck i.ver i.body
  match kaolinFailure i with
  | none => d.modKao fun k => { k with check := c, received := true, bad := false, badReason := 0, badSlice := 0, badSource := 0 }
  | some (r, n, s) =>
    (d.modKao fun k =>
      { k with check := c, received := false, bad := true, badReason := r, badSlice := n, badSource := s }).raiseKao 8

/-- The parameters of the slices of a list come into use. -/
def Dev.kaoParams (d : Dev) (im : Image) (ns : List (Fin 8)) : Dev :=
  if d.kao.bad then d
  else
    let d1 := d.modKao fun k => { k with common := kaoCommonPart im.kaolin }
    ns.foldl (fun (acc : Dev) (n : Fin 8) => acc.updKao n fun x => { x with block := kaoBlock im.kaolin n.val }) d1

/-- One machine at a cold reset (R313): ARMED or LOCKOUT with a confirmed section, else UNCONFIRMED. -/
def Dev.kaoEnter (d : Dev) (n : Fin 8) : Dev :=
  if d.kaoConfirmed ∧ d.present n.val then
    if nbit d.cell.lockout.toNat n.val then d.enterLockout n false else d.enterArmed n
  else d.updKao n fun x => { x with st := .unconfirmed }

/-- A machine goes to UNCONFIRMED with KENn released; an absent slice has no sources. -/
def Dev.kaoUnconfirm (d : Dev) (n : Fin 8) : Dev :=
  (d.kenRelease n).updKao n fun x =>
    { x with st := .unconfirmed, force := none, req := false
             active := if d.present n.val then x.active else 0, latched := if d.present n.val then x.latched else 0 }

/-- A reload affects the slice (R72, R314): its machine goes to UNCONFIRMED and reports. -/
def Dev.kaoReload (d : Dev) (n : Fin 8) : Dev :=
  if d.kao.m[n].st = .unconfirmed then d.kaoUnconfirm n
  else ((d.kaoUnconfirm n).endTripTest n).sendKaoState n d.kao.m[n].st .unconfirmed 4

/-! ### Distribution (step 6 of R61) -/

/-- The defaults that PERSONA gives: the tone pair and the strip rows. -/
def Dev.personaDefaults (d : Dev) : Dev :=
  ((d.setRfld 8 0 4 25 24 (d.persona 2)).setRfld 12 0 0x2C 25 16 (d.persona16 0x1C)).setRfld 12 0 0x2C 6 0 (d.persona 0x1E)

/-- An image comes into use at a cold reset: the queue table, the defaults of PERSONA and Kaolin's own check. -/
def Dev.loadCommon (d : Dev) (im : Image) (slot : Nat) (st : LoadState) : Dev :=
  ((({ d with img := { d.img with loaded := some im, slot := slot, load := st } }).loadQueues im.queues).personaDefaults).kaoReceive im

/-- An image is loaded at a cold reset: its sections go to their units (R61 steps 6 and 7). -/
def Dev.distribute (d : Dev) (im : Image) (slot : Nat) (st : LoadState) : Dev :=
  (slices.foldl (fun (acc : Dev) (n : Fin 8) => acc.kaoEnter n) ((d.loadCommon im slot st).kaoParams im slices)).logEvent .img 61
    [w32 st.code, w32 slot]

/-- The load from the other slot, after slot `a` failed check `r`, rule `k` (R64 to R66). -/
def Dev.loadOther (d : Dev) (a r k : Nat) (y : Image ⊕ (Nat × Nat)) : Dev :=
  match y with
  | .inl im => d.distribute im (1 - a) .fallback
  | .inr (r2, k2) =>
    ((({ d with img := { d.img with loaded := none, load := .none, slot := 0xF } }).loadQueues bootQueues).logEvent .img 64
      [w32 r, w32 (256 * k + k2), w32 r2])

/-- The check of the other slot, with what the first showed in IMG_SI_STATE. -/
def Dev.otherCheck (d : Dev) (a r k : Nat) : (Image ⊕ (Nat × Nat)) × Dev :=
  ({ d with img := { d.img with reason := r, rule := k } }).checkSlot (1 - a)

/-- The load from the active slot `a`. -/
def Dev.loadActive (d : Dev) (a : Nat) (x : Image ⊕ (Nat × Nat)) : Dev :=
  match x with
  | .inl im => d.distribute im a .loaded
  | .inr (r, k) =>
    (d.otherCheck a r k).2.loadOther a r k (d.otherCheck a r k).1

/-- The slot that is tried first. -/
def Dev.firstSlot (d : Dev) : Nat := if d.img.activeSlot = 1 then 1 else 0

/-- The check of the slot that is tried first, with the certificates of K3 and K4 loaded. -/
def Dev.firstCheck (d : Dev) : (Image ⊕ (Nat × Nat)) × Dev := ((d.loadCert 3).loadCert 4).checkSlot d.firstSlot

/-- The image load of a cold reset (R61, R62, R64, R65, R66). -/
def Dev.loadImage (d : Dev) : Dev :=
  d.firstCheck.2.loadActive d.firstSlot d.firstCheck.1

/-! ### Comparison (R68, R548) -/

/-- The image that stands for no image in a comparison (R548): every slice ABSENT. -/
def emptyImage : Image :=
  { serial := 0, built := 0, member := 0, major := 0, minor := 0, check := 0, vers := [], kinds := List.replicate 8 0
    chans := [], switch := [], kaolin := [], queues := [], perms := [], persona := [] }

/-- Whether section `id` of two images differs (R68): version or body. -/
def secDiffers (a b : Image) (id : Nat) : Bool :=
  natAt a.vers (id - 1) ≠ natAt b.vers (id - 1) ||
  (if id = 1 then a.kinds ≠ b.kinds else if id = 2 then a.chans ≠ b.chans else if id = 3 then a.switch ≠ b.switch
   else if id = 4 then a.kaolin ≠ b.kaolin else if id = 5 then a.queues ≠ b.queues else if id = 6 then a.perms ≠ b.perms
   else a.persona ≠ b.persona)

/-- The section mask of the differing sections. -/
def diffMask (a b : Image) : Nat := ([1, 2, 3, 4, 5, 6, 7].map fun (id : Nat) => b1 (secDiffers a b id) * 2 ^ id).sum

/-- A CHAN entry that slice n owns in either image differs. -/
def chanDiffers (a b : Image) (n : Nat) : Bool :=
  (List.range 64).any fun (ch : Nat) =>
    let x := a.chans.getD ch (0xFF, 0)
    let y := b.chans.getD ch (0xFF, 0)
    x ≠ y && (x.1 = n || y.1 = n)

/-- A SWITCH entry that slice n owns in either image differs. -/
def switchDiffers (a b : Image) (n : Nat) : Bool :=
  let sa := fun (i : Nat) => a.switch.getD i 0xFF
  let sb := fun (i : Nat) => b.switch.getD i 0xFF
  ((List.range 8).any fun (k : Nat) =>
    (sa (2 * k) ≠ sb (2 * k) || sa (2 * k + 1) ≠ sb (2 * k + 1)) && (sa (2 * k) = n || sb (2 * k) = n)) ||
  ([16, 17, 18, 19, 22, 23, 24, 25].any fun (i : Nat) => sa i ≠ sb i && (sa i = n || sb i = n)) ||
  [20, 21].any fun (i : Nat) => natAt a.switch i ≠ natAt b.switch i && (nbit (natAt a.switch i) n || nbit (natAt b.switch i) n)

/-- The version of SLICE, CHAN, SWITCH or KAOLIN, or the common part of KAOLIN, differs (R68). -/
def wholeDiffers (a b : Image) : Bool :=
  ([0, 1, 2, 3].any fun (i : Nat) => natAt a.vers i ≠ natAt b.vers i) || kaoCommonPart a.kaolin ≠ kaoCommonPart b.kaolin

/-- Whether a slice is affected by the change from image `a` to `b` (R68). -/
def affected (a b : Image) (n : Nat) : Bool :=
  natAt a.kinds n ≠ natAt b.kinds n || chanDiffers a b n || switchDiffers a b n || kaoBlock a.kaolin n ≠ kaoBlock b.kaolin n ||
  (wholeDiffers a b && (natAt a.kinds n ≠ 0 || natAt b.kinds n ≠ 0))

/-- The affected slices; with no image loaded, those present in the new image (R548). -/
def Dev.affectedSlices (d : Dev) (im : Image) : List (Fin 8) :=
  match d.img.loaded with
  | some old => slices.filter fun (n : Fin 8) => affected old im n.val
  | none => slices.filter fun (n : Fin 8) => natAt im.kinds n.val ≠ 0

/-- The differing sections; every section with no image loaded (R548). -/
def Dev.differing (d : Dev) (im : Image) : Nat :=
  match d.img.loaded with
  | some old => diffMask old im
  | none => 0xFE

/-! ### SI_VERIFY and SI_RELOAD (R68, R69, R74, R547) -/

/-- SI_VERIFY. -/
def siVerifyCmd (arg : BitVec 24) (d : Dev) : CmdSt × Dev :=
  let slot := argUnit arg
  if d.img.prepared.isSome then (.busy, d)
  else if 1 < slot ∨ argBits arg 15 0 ≠ 0 then (.arg, d)
  else
    let (x, d1) := d.checkSlot slot
    match x with
    | .inl im =>
      (.ok, { d1 with img := { d1.img with
        reason := 0, rule := 0, diffSlot := slot, diffSections := d.differing im
        diffSlices := ((d.affectedSlices im).map fun (n : Fin 8) => 2 ^ n.val).sum
        verified := if d1.img.verified.contains slot then d1.img.verified else slot :: d1.img.verified } })
    | .inr (r, k) =>
      (if r = 7 then .auth else .arg,
       { d1 with img := { d1.img with
          reason := r, rule := k, diffSlot := slot, diffSections := 0, diffSlices := 0
          verified := d1.img.verified.filter fun (x : Nat) => x ≠ slot } })

/-- The PERSONA bytes from `off` differ. -/
def personaDiff (a b : Image) (off n : Nat) : Bool := slice a.persona off n ≠ slice b.persona off n

/-- A function is OFF or STOPPED. -/
def Dev.funcIdle (d : Dev) (g : Group) (u : Nat) : Bool := ((d.func? g u).map Func.idle).getD true

/-- The slices a CAN port serves in the loaded or the new image have their EVC function STOPPED or OFF (R547). -/
def Dev.canIdle (d : Dev) (a b : Image) (port : Nat) : Bool :=
  (List.range 8).all fun (n : Nat) =>
    !(nbit (natAt a.switch (20 + port)) n || nbit (natAt b.switch (20 + port)) n) || d.funcIdle .evc n

/-- The conditions of R547 for the PERSONA fields that differ. -/
def Dev.personaOk (d : Dev) (a b : Image) : Bool :=
  (!(personaDiff a b 2 2) || d.funcIdle .plc 0) && (!(personaDiff a b 4 1) || d.funcIdle .plc 1) &&
  (!(personaDiff a b 5 1) || d.funcIdle .tag 0) && (!(personaDiff a b 6 1) || d.tag.sess.isNone) &&
  (!(personaDiff a b 8 8) || d.canIdle a b 0) && (!(personaDiff a b 0x10 8) || d.canIdle a b 1) &&
  ((List.range 8).all fun (n : Nat) => nbit (natAt a.persona 7) n = nbit (natAt b.persona 7) n || d.funcIdle .evc n) &&
  (!(personaDiff a b 0x18 7 || personaDiff a b 0x30 192) || d.funcIdle .pnl 0)

/-- A producer or consumer that a queue names is none, or has a function that is STOPPED or OFF (R69). -/
def Dev.endIdle (d : Dev) (code : Nat) : Bool := code = 0 || d.producerIdle code

/-- The QUEUE condition of R69. -/
def Dev.queuesIdle (d : Dev) (im : Image) : Bool :=
  (List.finRange 64).all fun (q : Fin 64) =>
    let x := d.que.q[q]
    let y := im.queues.getD q.val { cls := 0, depth := 0, prod := 0, cons := 0, thresh := 0 }
    x.entry = y || (x.fill = 0 && x.reserved = 0 && x.held = [] && d.endIdle x.entry.prod && d.endIdle x.entry.cons &&
      d.endIdle y.prod && d.endIdle y.cons)

/-- The conditions of R69 that complete with STATE. -/
def Dev.reloadState (d : Dev) (im : Image) : Bool :=
  match d.img.loaded with
  | none => true
  | some old =>
    let ns := d.affectedSlices im
    (ns.all fun (n : Fin 8) => d.funcIdle .mtr n.val && d.funcIdle .evc n.val) &&
    (!secDiffers old im 5 || d.queuesIdle im) && (!secDiffers old im 7 || d.personaOk old im) &&
    (!secDiffers old im 4 || ns.all fun (n : Fin 8) => (d.evc.s[n]).st = Sess.idle || (d.evc.s[n]).st = Sess.finished)

/-- SI_RELOAD: accepted, it waits for its swap. -/
def siReloadCmd (arg : BitVec 24) (d : Dev) : CmdSt × Dev :=
  let slot := argUnit arg
  if d.img.prepared.isSome then (.busy, d)
  else if 1 < slot ∨ argBits arg 15 8 ≠ 0 then (.arg, d)
  else if !d.img.verified.contains slot then (if argBits arg 0 0 ≠ 0 then (.arg, d) else (.state d.img.load.code, d))
  else
    let im := (d.rawImage slot).decode
    if argBits arg 7 0 ≠ d.differing im then (.arg, d)
    else if !d.reloadState im then (.state d.img.load.code, d)
    else (.ok, { d with img := { d.img with prepared := some (im, slot, argBits arg 7 0), load := .reloading, lastMask := argBits arg 7 0 } })

/-! ### The swap (R70, R72, R73, R547, R548) -/

/-- Set every setting of a unit to its reset value and discard its staged values (R73). -/
def Dev.defaultSettings (d : Dev) (g u : Nat) : Dev :=
  let d1 := d.dropStaged g u
  let own := d1.regs.filter fun (e : Nat × Word) => e.1 / 0x100000 = g * 0x100 + u
  let regs := own.foldl (fun (acc : RegFile) (e : Nat × Word) =>
    match regAt g u (e.1 % 0x80000) with
    | some r => acc.set e.1 (w32 (mergeMask e.2.toNat r.reset (r.row.rw ||| r.row.rws)))
    | none => acc) d1.regs
  { d1 with regs := regs }

/-- The units of a slice that R73 names. -/
def Dev.sliceUnits (d : Dev) (n : Nat) : List (Nat × Nat) :=
  [(3, n), (4, n), (5, n), (5, 0x10 + n), (7, n)] ++
  (((List.range 64).filter fun (ch : Nat) => (d.chan ch).1 = n).map fun (ch : Nat) => (3, 0x40 + ch)) ++
  (((List.range 4).filter fun (p : Nat) => d.switchByte (22 + p) = n).map fun (p : Nat) => (3, 0x10 + p)) ++
  (((List.range 8).filter fun (k : Nat) => d.switchByte (2 * k) = n).map fun (k : Nat) => (7, 8 + k))

/-- Before the swap, a KIND_CHANGE reading, the count and the log entry of a slice whose kind changes (R73 step 1). -/
def Dev.kindReading (d : Dev) (n : Fin 8) (old new : Nat) : Dev :=
  ((d.reading n 4 d.now).tamper 15 (some n)).logEvent .img 73 [w32 old, w32 new] none n.val

/-- The result registers of every UNUSED channel read 0 (R166). -/
def Dev.clearUnused (d : Dev) : Dev :=
  ((List.range 64).filter fun (ch : Nat) => (d.chanUnit ch).isNone).foldl (fun (acc : Dev) (ch : Nat) =>
    ((acc.setReg 3 (chUnit ch) 0x18 0).setReg 3 (chUnit ch) 0x1C 0).setReg 3 (chUnit ch) 0x20 0) d

/-- After the swap, the defaults of the new kind (R73 steps 3 and 4). -/
def Dev.kindDefaults (d : Dev) (n : Fin 8) : Dev :=
  let d1 := (d.sliceUnits n.val).foldl (fun (acc : Dev) (u : Nat × Nat) => acc.defaultSettings u.1 u.2) d
  let d2 := if (d1.kind n.val).isDc then d1.setRfld 5 n.val 4 17 16 1 else d1
  let d3 := (d2.updEng (mtrUnit n) fun e => { e with remVeh := 0, remQ := 0 }).updBil n fun b => { b with remLoss := 0 }
  if d3.present n.val then d3
  else ((d3.setFunc .mtr n.val {}).setFunc .evc n.val {}).updEvc n fun x => { x with drive := 0, duty := 0, pwmOn := false }

/-- The queues whose entry changes take the new one, empty (R69, R123). -/
def Dev.swapQueues (d : Dev) (im : Image) : Dev :=
  (List.finRange 64).foldl (fun (acc : Dev) (q : Fin 64) =>
    let y := im.queues.getD q.val { cls := 0, depth := 0, prod := 0, cons := 0, thresh := 0 }
    if acc.que.q[q].entry = y then acc
    else (acc.updQ q fun _ => { entry := y }).setReg 2 q.val 0x10 (w32 (y.thresh * 2 ^ 16))) d

/-- Interfaces whose PERSONA enable is gone are OFF (R104, R387). -/
def Dev.dropInterfaces (d : Dev) : Dev :=
  let d1 := if d.persona 3 = 0 then d.setFunc .plc 0 {} else d
  let d2 := if d1.persona 4 = 0 then d1.setFunc .plc 1 {} else d1
  if d2.pnlWidth = 0 then d2.setFunc .pnl 0 {} else d2

/-- A changed panel geometry (R547): every region is UNKNOWN until the CLEAR after the next start. -/
def Dev.panelRegeometry (d : Dev) : Dev :=
  { d with pnl := { d.pnl with
      r := d.pnl.r.map fun (x : Region) => { x with st := .unknown, pending := none }
      strip := RgnSt.unknown, stripReady := false, autoClear := true } }

/-- PERSONA at the swap (R547). -/
def Dev.swapPersona (d : Dev) (old new : Image) : Dev :=
  let d1 := if personaDiff old new 2 1 then d.setRfld 8 0 4 25 24 (natAt new.persona 2) else d
  if personaDiff old new 0x18 7 ∨ personaDiff old new 0x30 192 then
    d1.watchLegal fun x => ((x.panelRegeometry).setRfld 12 0 0x2C 25 16 (nat16 new.persona 0x1C)).setRfld 12 0 0x2C 6 0 (natAt new.persona 0x1E)
  else d1

/-- Slices whose kind changes. -/
def kindChanges (old new : Image) : List (Fin 8) := slices.filter fun (n : Fin 8) => natAt old.kinds n.val ≠ natAt new.kinds n.val

/-- The new image is the loaded one; before it the slices whose kind changes get their readings, and after it the
defaults of their new kinds. -/
def Dev.swapKinds (d : Dev) (old im : Image) (slot : Nat) : Dev :=
  let ks := kindChanges old im
  let d1 := ks.foldl (fun (acc : Dev) (n : Fin 8) => acc.kindReading n (natAt old.kinds n.val) (natAt im.kinds n.val)) d
  ks.foldl (fun (acc : Dev) (n : Fin 8) => acc.kindDefaults n)
    { d1 with img := { d1.img with loaded := some im, slot := slot, load := .loaded, prepared := none, activeSlot := slot } }.bootCommit

/-- The queue table and the defaults of PERSONA at a swap. -/
def Dev.swapShared (d : Dev) (first : Bool) (old im : Image) : Dev :=
  if first then (d.loadQueues im.queues).personaDefaults else (d.swapQueues im).swapPersona old im

/-- Kaolin at a swap: it checks what the loader passes it again (R308), and takes the parameters and moves the machines of
the affected slices (R314). -/
def Dev.swapKaolin (d : Dev) (im : Image) (ns : List (Fin 8)) : Dev :=
  ns.foldl (fun (acc : Dev) (n : Fin 8) => acc.kaoReload n) ((d.kaoReceive im).kaoParams im ns)

/-- A channel whose driver changes starts without demand, OFF where it was driven (R333). -/
def Dev.rebindLsw (d : Dev) (c : Fin 16) : Dev :=
  let d1 := d.updLsw c fun x => { x with demand := false, hold := false }
  if d1.lsw.c[c].st.driven ∨ d1.lsw.c[c].st = .backoff then (d1.lswOff c).lswSettle c else d1

/-- The channels whose driver changes: LSW8 to LSW15 whose owner or function changes, and the contactor channel of a
slice that is absent from now on (log entry 91, DEDUCED). -/
def rebound (old im : Image) : List (Fin 16) :=
  (List.finRange 16).filter fun (c : Fin 16) =>
    if c.val < 8 then natAt old.kinds c.val ≠ 0 ∧ natAt im.kinds c.val = 0
    else slice old.switch (2 * (c.val - 8)) 2 ≠ slice im.switch (2 * (c.val - 8)) 2

/-- The prepared image replaces the loaded one (R70): commit of the slot pointer, then the swap. A channel that limp-home
maps follows its input from then on (R349). -/
def Dev.swapImage (d : Dev) (im : Image) (slot : Nat) : Dev :=
  let old := d.img.loaded.getD emptyImage
  let d1 := (d.swapKinds old im slot).swapShared d.img.loaded.isNone old im
  let d2 := d1.swapKaolin im (d.affectedSlices im)
  let d3 := (rebound old im).foldl (fun (acc : Dev) (c : Fin 16) => (acc.rebindLsw c).followLimp c) d2
  let d4 := if d.img.loaded.isNone then d3.followAll else d3
  ((d4.clearUnused.dropInterfaces).tamper 14 none).logEvent .img 70 [w32 slot, im.serial]

/-! ### Registers of the loader (R78) -/

/-- IMG_SI_STATUS. -/
def Dev.readSiStatus (d : Dev) : Word :=
  packW [(4, d.img.load.code), (4, d.img.slot), (8, d.img.reason), (8, d.img.rule), (8, d.img.lastMask)]

/-- IMG_SI_DIFF. -/
def Dev.readSiDiff (d : Dev) : Word := packW [(8, 0), (8, d.img.diffSlot), (8, d.img.diffSlices), (8, d.img.diffSections)]

/-! ### The commands of the table -/

/-- SI_VERIFY. -/
def execSiVerify (ag : Agent) (arg : BitVec 24) (s : State) : Host.Outcome State Fault Refusal :=
  .next { s with dev := issueCommand ag 14 0x20 arg 0xFF (siVerifyCmd arg) s.dev }

/-- SI_RELOAD. -/
def execSiReload (ag : Agent) (arg : BitVec 24) (s : State) : Host.Outcome State Fault Refusal :=
  .next { s with dev := issueCommand ag 14 0x21 arg 0xFF (siReloadCmd arg) s.dev }

end Sys2Proof.Machine
end

