-- ==== Sys2Proof/Machine/Power.lean ====
section
/-! DEFINITION. Power and supplies (17_power_reset.md): the trip of the power-fail comparator and of RESET_N, the steps
of a falling VMAIN, what a reset clears, Silt resets and the housekeeping ADC. -/

namespace Sys2Proof.Machine

/-! ### The trip (R515 to R519) -/

/-- Write PF_NOTICE (R516): cause VMAIN (0) or RESET_N (1), VMAIN in mV at the trip. -/
def Dev.pfNotice (d : Dev) (cause mv : Nat) : Dev :=
  match d.findQueue fun e => e.cls = 0 && e.prod = 0x0A with
  | some q => d.produce q (mkMsg 0x78 0x0A 0xFF 0 [BitVec.ofNat 64 d.now, packQ [(8, cause), (16, mv), (40, 0)]])
  | none => d

/-- A hold-up before the billing restore completes (R518): noted in the Silt domain. -/
def Dev.noteDark (d : Dev) : Dev :=
  { d with pwr := { d.pwr with
      takesSnap := false, darkCount := d.pwr.darkCount + 1
      darkFirst := if d.pwr.darkCount = 0 then d.now else d.pwr.darkFirst, darkLast := d.now } }

/-- A period boundary falls within 3 ms from now, or is due now (R227). -/
def Dev.boundarySoon (d : Dev) : Bool := d.due keyPeriod mtrPeriod || decide (mtrPeriod - d.now % mtrPeriod ≤ ms 3)

/-- The snapshot of a hold-up (R227): at the trip, or left to a boundary that falls within 3 ms. -/
def Dev.tripSnapshot (d : Dev) : Dev :=
  let d1 := (d.tamper 2 none)
  let d2 := { d1 with pwr := { d1.pwr with takesSnap := true, snapshot := false } }
  if d2.boundarySoon then d2 else d2.takeSnapshot

/-- The first trip of a hold-up: STO writes, the mesh modem, the panel and Aulan classes C1 to C3 stop. -/
def Dev.startHoldup (d : Dev) : Dev :=
  let d1 := { d with
    sto := { d.sto with holdup := true }, plc := { d.plc with stopped := true, cur := none, tx := .idle, awaitAck := none, deferCycles := 0, ack := none, txTones := [] }, pnl := { d.pnl with stopped := true, pwrUp := false, pwrGood := false, codes := [] } }
  if d.img.restoreDone then d1.tripSnapshot else d1.noteDark

/-- A trip (R515, R517): a second one during the wait restarts it, with its own PF_NOTICE and flag and nothing more. -/
def Dev.powerTrip (d : Dev) (cause mv : Nat) : Dev :=
  if d.pwr.held then d
  else
    let d1 := ({ d with pwr := { d.pwr with pf := true, tTrip := d.el } }.raisePwr 0).pfNotice cause mv
    if d.pwr.pf then d1 else d1.startHoldup

/-- RESET_N goes low while the device runs (R519). -/
def Dev.resetNLow (d : Dev) (mv : Nat) : Dev :=
  if d.pwr.held then d else { d with pwr := { d.pwr with resetReq := true } }.powerTrip 1 mv

/-! ### VMAIN falls on (R515, R317) -/

/-- VMAIN below 2.75 V: KEN0 to KEN7 release and the load switches switch off. -/
def Dev.switchUndervoltage (d : Dev) : Dev :=
  if d.pwr.pf then
    slices.foldl (fun (acc : Dev) (n : Fin 8) => acc.kenRelease n) { d with pwr := { d.pwr with uvlo := true } }
  else d

/-- VMAIN below 2.70 V: sampling stops, and with it both Aulan ports (R228, R505). -/
def Dev.samplingCutoff (d : Dev) : Dev :=
  if d.pwr.pf then { d with mtr := { d.mtr with stopped := true } }.stopPorts else d

/-- VMAIN below 2.65 V: the store writer stops. -/
def Dev.storeWriterStop (d : Dev) : Dev := if d.pwr.pf then { d with sto := { d.sto with stopped := true } } else d

/-! ### What a cold reset clears and keeps (R15, R124, R520) -/

/-- The key store over a cold reset: slots are retained, VERIFIED copies become STAGED (R408, R414). -/
def KeySlot.overReset (s : KeySlot) : KeySlot :=
  { s with staged := if s.staged = .verified then .staged else s.staged, recent := [] }

/-- The tag: its store, journal, session and field live in the Silt domain (R429, R520). -/
def TagState.overReset (t : TagState) : TagState :=
  { t with
    rdr := {}, rdrSt := .idle, card := none, seen := [], tRdr := 0, lastPoll := 0, pollDue := false
    rfField := false, svc := { st := .running }, defer := none, block := none }

/-- A region over a cold reset: only its journal entry remains (R452, R453). -/
def Region.overReset (x : Region) : Region :=
  { jRunning := x.jRunning, jValid := x.jValid, jCrc := x.jCrc, jUpdate := x.jUpdate, jTable := x.jTable, jFrame := x.jFrame
    st := if x.jValid && !x.jRunning then .held else .unknown }

/-- What a cold reset leaves: the Silt domain, the retained store, the confirmation cell and the levels of input pins;
every die's logic, registers, queues and views take their reset values. Every output is at its inert level (R524). -/
def Dev.cleared (d : Dev) : Dev :=
  { regs := d.regs.filter fun (e : Nat × Word) => e.1 = lattice 11 1 8
    log := d.log, logSeq := d.logSeq, fresh := d.fresh
    islandRun := if d.tag.field then 0xC803 else 0x8803
    img :=
      { fwA := d.img.fwA, fwB := d.img.fwB, boots := d.img.boots, reasonFw := d.img.reasonFw, pendReason := d.img.pendReason
        trialSec := d.img.trialSec, activeSlot := d.img.activeSlot, cfgArea0 := d.img.cfgArea0, cfgArea1 := d.img.cfgArea1
        cfgTag0 := d.img.cfgTag0, cfgTag1 := d.img.cfgTag1, bootA := d.img.bootA, bootB := d.img.bootB }
    que := { spaces := d.que.spaces }
    tim := { now := d.tim.now, frac := d.tim.frac, elapsed := d.tim.elapsed, rtc := d.tim.rtc, rtcValid := d.tim.rtcValid
             rtcErr := d.tim.rtcErr, rtcEl := d.tim.rtcEl }
    bil :=
      { s := d.bil.s, tamper := d.bil.tamper, armed := d.bil.armed, armedBytes := d.bil.armedBytes, copyA := d.bil.copyA
        copyB := d.bil.copyB, snapLive := d.bil.snapLive, snap0 := d.bil.snap0, snap1 := d.bil.snap1, siltPtr := d.bil.siltPtr
        tail := d.bil.tail, rdCount := d.bil.rdCount, karCount := d.bil.karCount }
    evc := { s := d.evc.s.map fun (x : EvcSlice) => { ops := x.ops } }
    kao := { cellA := d.kao.cellA, cellB := d.kao.cellB, m := d.kao.m.map fun (x : KaoSlice) => { fb := x.fb, resLast := d.el } }
    lsw := { lin := d.lsw.lin, uv := d.lsw.uv, uvSince := d.lsw.uvSince }
    plc := { zxSeq := d.plc.zxSeq }
    key := { d.key with slots := d.key.slots.map KeySlot.overReset }
    tag := d.tag.overReset
    pnl := { r := d.pnl.r.map Region.overReset, stressSaved := d.pnl.stressSaved, autoClear := true, strip := .unknown, stripJ := d.pnl.stripJ }
    sto := { mram := d.sto.mram, bad := d.sto.bad, scrubAt := d.el }
    pwr :=
      { darkCount := d.pwr.darkCount, darkFirst := d.pwr.darkFirst, darkLast := d.pwr.darkLast, siltReset := d.pwr.siltReset
        siltPresent := d.pwr.siltPresent, siltGone := d.pwr.siltGone, vsiltLow := d.pwr.vsiltLow, tOff := d.pwr.tOff } }

/-! ### The Silt domain's supply (R507, R510, R520) -/

/-- SILT_RESET: only without VMAIN, which otherwise supplies the Silt domain (R29). KROOT, the RTC, the session and the
tag copy of K8, the snapshot pointers and the panel journal are lost; expiring slots expire (R401). It is found at the
next cold reset. -/
def Dev.siltReset (d : Dev) : Dev :=
  if d.pwr.held then
    let d1 := d.expireKeys.endSession 5
    { d1 with
      key := { d1.key with
        share := none, darkExpired := d1.key.darkExpired || (List.finRange 64).any fun (k : Fin 64) => d.key.slots[k].expires }
      tim := { d1.tim with rtc := 0, rtcValid := false, rtcEl := d.el }
      tag := { d1.tag with keyCopy := none, pendAuth := none, authFails := 0, locked := false, active := false, supply := 2 }
      bil := { d1.bil with siltPtr := none }
      pnl := { d1.pnl with
        stripJ := {}
        r := d1.pnl.r.map fun (x : Region) =>
          { x with jValid := false, jRunning := false, jUpdate := false, jCrc := 0, jTable := 0, jFrame := 0 } }
      pwr := { d1.pwr with siltReset := true, siltPresent := false, siltGone := true, darkCount := 0, darkFirst := 0, darkLast := 0 } }
  else d

/-- POWER_ON_RESET: VMAIN below 2.60 V; every die is held, the Silt domain runs from VSILT (R515 step 8), and is reset where VSILT is below 1.6 V (R30, R520). -/
def Dev.powerOnReset (d : Dev) : Dev :=
  if d.pwr.held then d
  else
    let d1 := d.cleared
    let d2 := { d1 with
      pwr := { d1.pwr with held := true, tOff := some d.el }
      tag := { d1.tag with supply := if d.pwr.siltPresent then 1 else 2 } }
    if d.pwr.siltGone then d2.siltReset else d2

/-- VMAIN, or RESET_N, has been good for 10 ms, and the snapshot is 10 ms old where one is taken (R517, R519). -/
def Dev.brownoutDue (d : Dev) : Bool :=
  d.pwr.pf && !d.pwr.held && d.after d.pwr.tTrip (ms 10) &&
    (!d.pwr.takesSnap || (d.pwr.snapshot && d.after d.pwr.tSnap (ms 10)))

/-- BROWNOUT_RESET: sampling stops, the tail is committed, and the reset holds every die until the start-up of
COLD_RESET. -/
def Dev.brownoutReset (d : Dev) : Dev :=
  if d.brownoutDue then
    let d1 := d.updateTail.cleared
    { d1 with pwr := { d1.pwr with held := true } }
  else d

/-- VSILT_LOW: VSILT fell below 2.2 V. -/
def Dev.vsiltFell (d : Dev) : Dev :=
  if d.pwr.held then { d with pwr := { d.pwr with vsiltLow := true } }
  else { d with pwr := { d.pwr with vsiltLow := true } }.raisePwr 1

/-- A pilot supply reading is in its range (R507). -/
def pilotSupplyOk (positive : Bool) (mv : Int) : Bool :=
  if positive then decide (11400 ≤ mv) && decide (mv ≤ 12600) else decide (-12600 ≤ mv) && decide (mv ≤ -11400)

/-- VPILOT_FAULT: a pilot supply leaves its range (R509). -/
def Dev.vpilotFault (d : Dev) (positive : Bool) (mv : Int) : Dev :=
  if pilotSupplyOk positive mv ∨ d.pwr.held then d
  else
    { d with pwr := { d.pwr with
        vposOk := d.pwr.vposOk && !positive, vnegOk := d.pwr.vnegOk && positive } }.raisePwr 2

/-! ### Housekeeping (R525, R526) -/

/-- The schedule of the periodic scan. -/
def keyHk : Nat := 7

/-- The sensor type of an HK input (R59, R526). -/
def Dev.hkType (d : Dev) (x : Nat) : Nat := d.persona (0x20 + x)

/-- The exponential of x ≥ 0, to 60 terms of its series: the rest lies below 10⁻⁴⁰ for the x of an NTC. -/
def expPos (x : Rat) : Rat := ((List.range 60).foldl (fun (acc : Rat × Rat) k => (acc.1 + acc.2, acc.2 * x / ((k + 1 : Nat) : Rat))) (0, 1)).1

/-- R / 10 kΩ of an NTC_10K at a temperature in 0.1 °C (R526). -/
def ntcRatio (t : Int) : Rat :=
  let x : Rat := 3435 * (10 / ((t : Rat) + 5463 / 2) - 20 / 5963)
  if 0 ≤ x then expPos x else 1 / expPos (-x)

/-- R in Ω of a PT1000 at a temperature in 0.1 °C (R526). -/
def ptOhms (t : Int) : Rat := 1000 + 39083 * (t : Rat) / 100000 - 5775 * (t : Rat) * (t : Rat) / 1000000000

/-- The sensor of type 2 or 3 at an input of v mV is not colder than a temperature in 0.1 °C. The NTC hangs at 2.5 V
through 10 kΩ; 1 mA flows through the PT1000. -/
def notColder (type v : Nat) (t : Int) : Bool :=
  if type = 2 then decide (v < 2500) && decide ((v : Rat) / (2500 - (v : Rat)) ≤ ntcRatio t) else decide (ptOhms t ≤ (v : Rat))

/-- The sensor is at exactly a temperature. -/
def exactTemp (type v : Nat) (t : Int) : Bool :=
  if type = 2 then decide (v < 2500) && decide ((v : Rat) / (2500 - (v : Rat)) = ntcRatio t) else decide (ptOhms t = (v : Rat))

/-- The highest of the temperatures `lo` to `lo` + 2 ^ n - 1 that the sensor reaches, where it reaches `lo`. -/
def tempFloor (type v : Nat) : Nat → Int → Int
  | 0, lo => lo
  | n + 1, lo => if notColder type v (lo + 2 ^ n) then tempFloor type v n (lo + 2 ^ n) else tempFloor type v n lo

/-- The temperature in 0.1 °C of an HK input, valid for the two sensor types from −40 to +125 °C (R526), between two
steps either of them (log entry 4, DESIGN CHOICE; log entry 121, DEDUCED). -/
def hkConvert (type v : Nat) (up : Bool) : Option Int :=
  if (type = 2 ∨ type = 3) ∧ notColder type v (-400) then
    let t := tempFloor type v 11 (-400)
    if exactTemp type v t ∧ t ≤ 1250 then some t
    else if t < 1250 then some (if up then t + 1 else t)
    else none
  else none

/-- A scan takes its readings. -/
def Dev.takeScan (d : Dev) (r : HkReadings) : Dev :=
  let posOk := pilotSupplyOk true r.vpos
  let negOk := pilotSupplyOk false r.vneg
  let low := decide (r.vsilt < 2200)
  let d1 := { d with fresh := d.fresh + 16, pwr := { d.pwr with
    vmainMv := r.vmain, vsiltMv := r.vsilt, vposMv := r.vpos, vnegMv := r.vneg
    hkMv := Vector.ofFn fun x : Fin 16 => r.hk.getD x.val 0
    hkTemp := Vector.ofFn fun x : Fin 16 => hkConvert (d.hkType x.val) (r.hk.getD x.val 0) (Config.freeBit (d.fresh + x.val))
    vposOk := posOk, vnegOk := negOk, vsiltLow := low
    siltPresent := decide (2000 ≤ r.vsilt), siltGone := decide (r.vsilt < 1600) } }
  let mask := b1 (!(posOk && negOk)) * 4 + b1 (low && !d.pwr.vsiltLow) * 2
  if mask = 0 then d1 else d1.raise 0 1 8 mask

/-- HK_SCAN message of an added scan (R525). -/
def Dev.hkMessage (d : Dev) (r : HkReadings) : Dev :=
  match d.findQueue fun e => e.cls = 3 && e.prod = 9 with
  | some q =>
    d.produce q (mkMsg 0x79 9 0xFF 0 (BitVec.ofNat 64 d.now :: (List.range 4).map fun (j : Nat) =>
      packQ [(16, r.hk.getD (4 * j + 3) 0), (16, r.hk.getD (4 * j + 2) 0), (16, r.hk.getD (4 * j + 1) 0), (16, r.hk.getD (4 * j) 0)]))
  | none => d

/-- HK_SCAN: the scan a compare unit asked for, with its message, or the periodic one. -/
def Dev.hkScan (d : Dev) (r : HkReadings) : Dev :=
  if d.pwr.held then d
  else if d.pwr.hkReq then
    let d1 := d.takeScan r
    { d1 with pwr := { d1.pwr with hkReq := false } }.hkMessage r
  else if d.due keyHk (ms 10) then (d.ran keyHk).takeScan r
  else d

/-! ### Registers -/

/-- SYS_PWR_STATUS. -/
def Dev.readPwrStatus (d : Dev) : Word :=
  packW [(1, b1 d.pwr.pf), (1, b1 d.pwr.snapshot), (1, b1 d.pwr.resetReq), (1, b1 d.pwr.vsiltLow), (1, b1 d.pwr.vposOk),
    (1, b1 d.pwr.vnegOk), (26, 0)]

/-- SYS_RESET_CAUSE. -/
def Dev.readResetCause (d : Dev) : Word :=
  packW [(4, d.pwr.coldCause), (4, b1 d.pwr.warmKind), (4, d.pwr.warmCause), (1, b1 d.pwr.siltFound), (3, 0),
    (16, min d.pwr.warmCount 0xFFFF)]

/-- SYS_VMON. -/
def Dev.readVmon (d : Dev) : Word := packW [(16, d.pwr.vmainMv), (16, d.pwr.vsiltMv)]

/-- SYS_VPILOT. -/
def Dev.readVpilot (d : Dev) : Word := packW [(16, twos 16 d.pwr.vposMv), (16, twos 16 d.pwr.vnegMv)]

/-- SYS_HK_x. -/
def Dev.readHk (d : Dev) (x : Fin 16) : Word :=
  let t := d.pwr.hkTemp[x]
  packW [(1, b1 t.isSome), (3, d.hkType x.val), (12, twos 12 (t.getD 0)), (16, d.pwr.hkMv[x])]

/-! ### The commands of the table -/

/-- POWER_FAIL_TRIP. -/
def execPowerFailTrip (mv : Nat) (s : State) : Host.Outcome State Fault Refusal := .next { s with dev := s.dev.powerTrip 0 mv }

/-- RESET_N_LOW. -/
def execResetNLow (mv : Nat) (s : State) : Host.Outcome State Fault Refusal := .next { s with dev := s.dev.resetNLow mv }

/-- SWITCH_UNDERVOLTAGE. -/
def execSwitchUndervoltage (s : State) : Host.Outcome State Fault Refusal := .next { s with dev := s.dev.switchUndervoltage }

/-- SAMPLING_CUTOFF. -/
def execSamplingCutoff (s : State) : Host.Outcome State Fault Refusal := .next { s with dev := s.dev.samplingCutoff }

/-- STORE_WRITER_STOP. -/
def execStoreWriterStop (s : State) : Host.Outcome State Fault Refusal := .next { s with dev := s.dev.storeWriterStop }

/-- POWER_ON_RESET. -/
def execPowerOnReset (s : State) : Host.Outcome State Fault Refusal := .next { s with dev := s.dev.powerOnReset }

/-- BROWNOUT_RESET. -/
def execBrownoutReset (s : State) : Host.Outcome State Fault Refusal := .next { s with dev := s.dev.brownoutReset }

/-- SILT_RESET. -/
def execSiltReset (s : State) : Host.Outcome State Fault Refusal := .next { s with dev := s.dev.siltReset }

/-- VSILT_LOW. -/
def execVsiltLow (s : State) : Host.Outcome State Fault Refusal := .next { s with dev := s.dev.vsiltFell }

/-- VPILOT_FAULT. -/
def execVpilotFault (positive : Bool) (mv : Int) (s : State) : Host.Outcome State Fault Refusal :=
  .next { s with dev := s.dev.vpilotFault positive mv }

/-- HK_SCAN. -/
def execHkScan (r : HkReadings) (s : State) : Host.Outcome State Fault Refusal := .next { s with dev := s.dev.hkScan r }

end Sys2Proof.Machine
end

