-- ==== Sys2Proof/Machine/Lattice.lean ====
section
/-! DEFINITION. The Lattice as every agent sees it (03_lattice.md): what each register word reads as and what a write
of it does, the dispatch of <GRP>_CMD, and requests of several accesses (R375, R430, R494, R544). -/

namespace Sys2Proof.Machine

/-! ### Reads -/

/-- A word computed for an index in range. -/
def atIdx {n : Nat} (i : Nat) (f : Fin n → Word) : Word := if h : i < n then f ⟨i, h⟩ else 0

/-- <GRP>_FUNC (R91, R102). -/
def Dev.readFunc (d : Dev) (g u : Nat) : Word :=
  match d.func? (groupOf g) u with
  | some f => packW [(8, 0), (8, f.code.toNat), (7, 0), (1, b1 (d.stagedIn g u ≠ [])), (6, 0), (2, f.st.code)]
  | none => 0

/-- Registers of SYS that show the state of the device. -/
def Dev.readSys (d : Dev) (ag : Agent) (id : RegId) (i : Nat) : Word :=
  match id with
  | .sysAgent => w32 (agentNum ag)
  | .sysIslandRun => w32 d.islandRun.toNat
  | .sysStall => d.readStall
  | .sysStallAddr => d.readStallAddr
  | .sysPwrStatus => d.readPwrStatus
  | .sysResetCause => d.readResetCause
  | .sysVmon => d.readVmon
  | .sysVpilot => d.readVpilot
  | .sysHk => atIdx i d.readHk
  | _ => 0

/-- TIM_STATUS. -/
def Dev.readTimStatus (d : Dev) : Word :=
  packW [(2, d.tim.quality.code), (2, d.tim.source), (4, 0), (8, d.tim.almArmed.toNat), (14, 0),
    (1, b1 (d.tim.residual ≠ 0)), (1, b1 d.tim.step.isSome)]

/-- TIM_CMP_CTRL. -/
def Dev.readCmpCtrl (d : Dev) (c : Fin 16) : Word :=
  let x := d.tim.cmp[c]
  packW [(1, b1 x.armed), (1, b1 x.stepFire), (1, b1 x.late), (27, 0), (2, d.rfld 1 (0x10 + c.val) 0 1 0)]

/-- Registers of TIM that show the state of the device; `i` is the unit counted from the register's first. -/
def Dev.readTim (d : Dev) (id : RegId) (i : Nat) : Word :=
  match id with
  | .timStatus => d.readTimStatus
  | .timErr => w32 d.timErr
  | .timTrim => wInt d.tim.trim
  | .timCmpCtrl => atIdx i d.readCmpCtrl
  | .timCmpTarget => atIdx i fun c : Fin 16 => d.tim.cmp[c].target
  | _ => 0

/-- Registers of QUE that show the state of the device. Space s is unit 0x80 + s. -/
def Dev.readQue (d : Dev) (id : RegId) (i : Nat) : Word :=
  match id with
  | .queCfg => atIdx i fun q : Fin 64 => packW [(2, d.que.q[q].entry.cls), (11, 0), (19, d.que.q[q].entry.depth)]
  | .queEnds => atIdx i fun q : Fin 64 => packW [(8, 0), (8, d.idSpace q.val), (8, d.que.q[q].entry.prod), (8, d.que.q[q].entry.cons)]
  | .queFill => atIdx i fun q : Fin 64 => packW [(13, 0), (19, d.que.q[q].fill)]
  | .queIds => atIdx (i + 1) fun s : Fin 13 => d.que.spaces[s].epoch ++ d.que.spaces[s].index
  | _ => 0

/-- QUE_IDQ: ms of quarantine left, rounded to a neighbouring integer (log entry 4, DESIGN CHOICE). -/
def Dev.readIdq (d : Dev) (s : Fin 13) : Word × Dev :=
  let x := d.que.spaces[s]
  match x.quar with
  | some t =>
    let (v, d1) := d.round (((t + x.quarLen - d.el : Nat) : Rat) / 1000000)
    (packW [(1, 1), (11, 0), (20, v.toNat)], d1)
  | none => (0, d)

/-- MTR_GAIN; 0 on a voltage-path channel. -/
def Dev.readGain (d : Dev) (ch : Fin 64) : Word :=
  if isCurrentPath ch.val then setFld (d.reg 3 (chUnit ch.val) 0x10) 9 8 (d.mtr.ch[ch]).gain else 0

/-- MTR_HARM: valid once a window was published, and not while no_freq is set (R182). A result outside the field
reads as a free value. -/
def Dev.readHarm (d : Dev) (u : Fin 9) : Word × Dev :=
  let sel := d.reg 3 u.val 0x80
  if bit (d.reg 3 u.val 0x20) 6 then (0, d)
  else
    match ((d.mtr.eng[u]).harm.find? fun (r : Nat × List Nat) => r.1 = fld sel 15 8) with
    | some r =>
      let v := r.2.getD (fld sel 5 0) 0
      if v < 2 ^ 31 then (packW [(1, 1), (31, v)], d)
      else (setFld (Config.freeWord d.fresh) 31 31 1, { d with fresh := d.fresh + 1 })
    | none => (0, d)

/-- Registers of MTR that show the state of the device. -/
def Dev.readMtr (d : Dev) (id : RegId) (i : Nat) : Word :=
  match id with
  | .mtrPqState => atIdx i fun u : Fin 9 =>
      let p := (d.mtr.eng[u]).phases
      packW [(26, 0), (2, p[2].st.code), (2, p[1].st.code), (2, p[0].st.code)]
  | .mtrGain => atIdx i d.readGain
  | .mtrPulseStat => atIdx i fun p : Fin 4 => packW [(16, min (d.mtr.pulse[p]).backlog 0xFFFF), (16, (d.mtr.pulse[p]).emitted.toNat)]
  | _ => 0

/-- BIL_LOCAL; 0 while the quality is NOT_VALID. -/
def Dev.readLocal (d : Dev) : Word :=
  if d.tim.quality = .notValid then 0
  else
    let l := d.localTime d.now
    let c := civil (l / dayNs)
    let minute := l % dayNs / minuteNs
    let season := (d.bil.active.map fun (k : Calendar) => k.season c.month c.day).getD 0
    let day := (d.bil.active.map fun (k : Calendar) => k.dayType c (weekday (l / dayNs))).getD 0
    packW [(6, c.year - 2000), (4, c.month), (5, c.day), (5, minute / 60), (6, minute % 60), (1, b1 (d.dstAt d.now)), (2, season), (3, day)]

/-- Registers of one billing slice; `i` is the word number of an array. -/
def Dev.readBilSlice (d : Dev) (id : RegId) (n : Fin 8) (i : Nat) : Word :=
  let b := d.bil.s[n]
  match id with
  | .bilStatus => packW [(2, b.source.code), (14, 0), (8, b.dmd.flags.toNat), (3, 0), (5, b.tariff)]
  | .bilDmdLast => w32 b.dmdLast
  | .bilDmdLastExp => w32 b.dmdLastExp
  | .bilDmdInfo => packW [(16, min b.infoDur 0xFFFF), (8, b.infoFlags.toNat), (3, 0), (5, b.infoTariff)]
  | .bilOvrState =>
    match b.ovr with
    | some o => packW [(1, b1 (!o.active)), (1, b1 o.active), (25, 0), (5, o.tariff)]
    | none => 0
  | .bilRdSeq => w32 b.rdSeq
  | .bilKrSeq => w32 b.krSeq
  | .bilMd => atIdx i fun j : Fin 32 => w32 b.md[j]
  | _ => 0

/-- Registers of BIL that show the state of the device. -/
def Dev.readBil (d : Dev) (id : RegId) (u i : Nat) : Word :=
  match id with
  | .bilLocal => d.readLocal
  | .bilCalActive => (d.bil.active.map fun (c : Calendar) => c.calId).getD 0
  | .bilCalPassive => (d.bil.armed.map fun (c : Calendar) => c.calId).getD 0
  | .bilCalState => packW [(2, b1 d.bil.armed.isSome), (6, 0), (8, d.bil.calReason), (16, 0)]
  | .bilTmpCnt => atIdx u fun k : Fin 24 => w32 (d.bil.tamper[k]).count
  | _ => atIdx u fun n : Fin 8 => d.readBilSlice id n i

/-- Registers of one connector slice. -/
def Dev.readEvc (d : Dev) (id : RegId) (n : Fin 8) : Word :=
  let x := d.evc.s[n]
  match id with
  | .evcSession => d.readSession n
  | .evcSid => x.sid
  | .evcPp => packW [(4, x.ppCode), (12, 0), (16, min x.ppOhm 0xFFFF)]
  | .evcGrant => packW [(16, x.grant), (4, x.limiter), (12, 0)]
  | .evcGrid => packW [(1, b1 x.disc), (1, b1 x.limActive), (14, 0), (16, x.limDa)]
  | .evcContact => d.readContact n
  | .evcDcStat => x.outDv ++ x.outDa
  | .evcDcStat2 => d.readDcStat2 n
  | .evcGpState => d.readGpState n
  | _ => 0

/-- KAO_EXT: 0 for an input whose mode is UNUSED; no row carries the level of the others, a free value (log entry
52, DESIGN CHOICE). -/
def Dev.readKaoExt (d : Dev) : Word × Dev :=
  let w := Config.freeWord d.fresh
  (packW [(16, if d.kaoCommon 16 = 0 then 0 else fld w 31 16), (16, if d.kaoCommon 4 = 0 then 0 else fld w 15 0)],
   { d with fresh := d.fresh + 1 })

/-- Registers of KAO that show the state of the device. -/
def Dev.readKao (d : Dev) (id : RegId) (u : Nat) : Word :=
  match id with
  | .kaoState => atIdx u d.readKaoState
  | .kaoActive => atIdx u d.readKaoActive
  | .kaoTrip => atIdx u d.readKaoTrip
  | .kaoTrips => atIdx u fun n : Fin 8 => w32 d.cell.trips[n]
  | .kaoRes => atIdx u d.readKaoRes
  | .kaoImd => atIdx u d.readKaoImd
  | .kaoStatus => d.readKaoStatus
  | .kaoCheck => d.kao.check
  | .kaoConfirmed => d.cell.check
  | .kaoMasks => d.readKaoMasks
  | .kaoHbStat => d.readHbStat
  | _ => 0

/-- Registers of LSW that show the state of the device. -/
def Dev.readLsw (d : Dev) (id : RegId) (c : Nat) : Word :=
  match id with
  | .lswState => atIdx c d.readLswState
  | .lswMeas => atIdx c d.readLswMeas
  | .lswStatus => d.readLswStatus
  | .lswVlsw => d.lsw.vlsw
  | _ => 0

/-- Registers of PLC that show the state of the device. -/
def Dev.readPlc (d : Dev) (id : RegId) : Word :=
  match id with
  | .plcStatus => d.readPlcStatus
  | .plcTbl0 => d.readTbl.1
  | .plcTbl1 => d.readTbl.2
  | .plcZxSeq => d.plc.zxSeq
  | .plcZxState => d.readZxState
  | _ => 0

/-- Registers of AUL that show the state of the device. -/
def Dev.readAul (d : Dev) (id : RegId) (p : Nat) : Word :=
  match id with
  | .aulRole => d.readAulRole
  | .aulStatus => d.readAulStatus
  | .aulDrop => packW [(16, d.aul.crc), (16, d.aul.misrouted)]
  | .aulC0 => packW [(16, d.aul.held), (16, d.aul.sentC0.toNat)]
  | .aulSyncOff => wInt d.aul.syncOff
  | .aulPortErr => packW [(16, (d.port (p = 1)).violations), (16, (d.port (p = 1)).lockLosses)]
  | _ => 0

/-- KEY_SLOT. -/
def KeySlot.word (s : KeySlot) : Word :=
  packW [(4, s.st.code), (2, s.staged.code), (2, 0), (4, s.live.ktype), (1, b1 s.live.agentUse), (1, b1 s.live.limitEn),
    (1, b1 s.live.expireReset), (1, 0), (8, s.live.parent), (8, s.gen.toNat)]

/-- KEY_STATUS. -/
def Dev.readKeyStatus (d : Dev) : Word :=
  let count := fun (st : KeySt) => ((List.finRange 64).filter fun (k : Fin 64) => d.key.slots[k].st = st).length
  packW [(1, b1 d.rootPresent), (1, b1 d.key.tamper), (1, b1 d.key.rngOk), (5, 0), (8, d.key.rootGen.toNat), (8, count .orphaned),
    (8, count .valid)]

/-- Registers of KEY that show the state of the device; `i` is the word number of an array. -/
def Dev.readKey (d : Dev) (id : RegId) (k i : Nat) : Word :=
  let s := d.keySlot k
  match id with
  | .keySlot => s.word
  | .keyUses => w32 (min s.uses 0xFFFFFFFF)
  | .keyLimit => if s.live.limitEn then s.live.limit else 0
  | .keyImpser => s.impser
  | .keyPub => w32 (leAt (pairBytes s.live.pub) (4 * i) 4)
  | .keyStatus => d.readKeyStatus
  | .keyId => keyId i
  | _ => 0

/-- TAG_RDR_CFG: types from PERSONA. -/
def Dev.readRdrCfg (d : Dev) : Word :=
  setFld (d.reg 11 0 4) 17 16 (if d.img.loaded.isSome then d.persona 5 else 3)

/-- TAG_SVC_STATUS. -/
def Dev.readSvcStatus (d : Dev) : Word :=
  let st := if !d.tag.field then 0 else if d.tag.sess.isSome then 3 else if d.tag.active then 2 else 1
  packW [(4, st), (1, b1 d.mutualAes), (1, b1 d.tag.keyCopy.isSome), (2, d.tag.supply), (8, min d.tag.authFails 0xFF),
    (16, (d.tag.sess.map fun (x : SvcSession) => x.frames).getD 0)]

/-- Registers of TAG that show the state of the device. -/
def Dev.readTag (d : Dev) (id : RegId) : Word :=
  match id with
  | .tagRdrCfg => d.readRdrCfg
  | .tagRdrStatus =>
    packW [(4, d.rdrState), (4, (d.tag.card.map fun (c : Card) => if c.typeB then 2 else 1).getD 0),
      (8, (d.tag.card.map fun (c : Card) => c.uid.length).getD 0), (16, 0)]
  | .tagSvcStatus => d.readSvcStatus
  | .tagStore => packW [(8, d.tag.lastStep), (8, 0), (16, min d.tag.recoveries 0xFFFF)]
  | .tagDefer =>
    match d.tag.defer with
    | some (_, b, _, _) => packW [(1, 1), (21, 0), (10, b)]
    | none => 0
  | _ => 0

/-- A mask of regions. -/
def rgnMask (p : Fin 16 → Bool) : Nat := ((List.finRange 16).map fun (r : Fin 16) => b1 (p r) * 2 ^ r.val).sum

/-- PNL_RGN_STATE. -/
def Dev.readRgnState (d : Dev) (r : Fin 16) : Word :=
  let x := d.pnl.r[r]
  packW [(3, x.st.code), (2, x.table), (1, b1 x.pending.isSome), (2, (x.pending.map (·.1)).getD 0), (1, b1 (d.verified r)),
    (1, b1 x.lastUpdate), (6, if x.busy then x.frame else 0), (16, x.done.toNat)]

/-- Registers of PNL that show the state of the device. -/
def Dev.readPnl (d : Dev) (id : RegId) (r : Nat) : Word :=
  match id with
  | .pnlStatus => packW [(3, d.pnl.band), (1, b1 d.pnl.tempValid), (4, 0), (8, d.pnl.temp), (16, rgnMask fun r => (d.pnl.r[r]).busy)]
  | .pnlVerified => packW [(16, rgnMask fun r => d.rgnLegal r.val), (16, rgnMask d.verified)]
  | .pnlRgnX => packW [(1, b1 (d.rgnLegal r)), (8, 0), (7, d.rgnX r / 8), (9, 0), (7, d.rgnW r / 8)]
  | .pnlRgnY => packW [(6, 0), (10, d.rgnY r), (6, 0), (10, d.rgnH r)]
  | .pnlRgnState => atIdx r d.readRgnState
  | .pnlRgnCrc => atIdx r fun r : Fin 16 => (d.pnl.r[r]).crc
  | _ => 0

/-- Registers of STO and IMG that show the state of the device. -/
def Dev.readStoImg (d : Dev) (id : RegId) : Word :=
  match id with
  | .stoStatus => d.readStoStatus
  | .stoEcc => packW [(16, d.sto.eccBad), (16, d.sto.eccFixed)]
  | .stoUeAddr => w32 d.sto.ueAddr
  | .stoPf => d.readStoPf
  | .imgSiStatus => d.readSiStatus
  | .imgSiSerial => (d.img.loaded.map fun (im : Image) => im.serial).getD 0
  | .imgSiCheck => (d.img.loaded.map fun (im : Image) => im.check).getD 0
  | .imgSiDiff => d.readSiDiff
  | .imgSiLevel => (d.img.loaded.map fun (im : Image) => packW [(16, im.member), (8, im.major), (8, im.minor)]).getD 0
  | .imgFwState => d.readFwState
  | .imgFwTrial => packW [(16, 0), (16, d.img.trialSec)]
  | .imgFwVerA => d.readFwVer 0
  | .imgFwVerB => d.readFwVer 1
  | .imgCfgState => d.readCfgState
  | .imgCfgTags => d.readCfgTags
  | _ => 0

/-- The registers kept with one view per agent (R34 apart). -/
def RegId.perAgent : RegId → Bool
  | .bilNonceLo => true
  | .bilNonceHi => true
  | .evcAuthRef => true
  | .kaoConfirmVal => true
  | .keyBlob => true
  | .keyChal => true
  | .keyResp => true
  | .tagBlk => true
  | .pnlRgnReq => true
  | .stoAddr => true
  | .cmdst => true
  | _ => false

/-- The 64-bit quantity whose lower word a register is (R34, log entry 51, DEDUCED); `i` is the word number of an array. -/
def Dev.wideValue (d : Dev) (r : RegAt) : Option Nat :=
  match r.row.id with
  | .timNowLo => some d.tim.now
  | .timCapLo => (d.tim.cap[r.unit]?).map BitVec.toNat
  | .mtrPeriodLo => some ((d.reg 3 r.unit 0x1C).toNat * 2 ^ 32 + (d.reg 3 r.unit 0x18).toNat)
  | .bilELo => (d.bil.s[r.unit]?).bind fun (b : BilSlice) => b.e[r.idx]?
  | .bilQLo => (d.bil.s[r.unit]?).bind fun (b : BilSlice) => b.q[r.idx]?
  | .bilLossLo => (d.bil.s[r.unit]?).map fun (b : BilSlice) => b.loss
  | .bilMdtLo => (d.bil.s[r.unit]?).bind fun (b : BilSlice) => b.mdt[r.idx]?
  | .bilTmpFirstLo => (d.bil.tamper[r.unit]?).map fun (t : Tamper) => t.first
  | .bilTmpLastLo => (d.bil.tamper[r.unit]?).map fun (t : Tamper) => t.last
  | .evcGpMacLo => (d.evc.gp[r.unit]?).map fun (m : Modem) => m.mac.toNat
  | .plcZxMsgLo => some d.plc.zxLast.toNat
  | _ => none

/-- The higher words of those quantities: they read what the agent's last read of the lower word captured. -/
def RegId.isHigh : RegId → Bool
  | .timNowHi => true
  | .timCapHi => true
  | .mtrPeriodHi => true
  | .bilEHi => true
  | .bilQHi => true
  | .bilLossHi => true
  | .bilMdtHi => true
  | .bilTmpFirstHi => true
  | .bilTmpLastHi => true
  | .evcGpMacHi => true
  | .plcZxMsgHi => true
  | _ => false

/-- The writable quantities of 64 bits, by the register of their lower word (R34). -/
def RegId.settingLow : RegId → Bool
  | .timSetvalLo => true
  | .timAlmLo => true
  | .bilOvrStartLo => true
  | _ => false

/-- Their higher words. -/
def RegId.settingHigh : RegId → Bool
  | .timSetvalHi => true
  | .timAlmHi => true
  | .bilOvrStartHi => true
  | _ => false

/-- The registers whose word is stored as it reads: settings and published results. -/
def RegId.stored : RegId → Bool
  | .sysCompat => true
  | .sysIrqEn => true
  | .sysStateRej => true
  | .sysPermRej => true
  | .sysPwrIrqEn => true
  | .timIrqEn => true
  | .timSetvalLo => true
  | .timSetvalHi => true
  | .timUtc => true
  | .timServo => true
  | .timLastoff => true
  | .timCmpPeriod => true
  | .timAlmLo => true
  | .timAlmHi => true
  | .timCapCtrl => true
  | .queNotice => true
  | .queEcc => true
  | .queLoss => true
  | .queFlushed => true
  | .queIdrej => true
  | .mtrCfg => true
  | .mtrPq => true
  | .mtrCable => true
  | .mtrIrqEn => true
  | .mtrPeriodInfo => true
  | .mtrFreq => true
  | .mtrIncMtr => true
  | .mtrIncVeh => true
  | .mtrIncLoss => true
  | .mtrIncReact => true
  | .mtrP => true
  | .mtrQ => true
  | .mtrS => true
  | .mtrPqCnt => true
  | .mtrHarmSel => true
  | .mtrChScale => true
  | .mtrCalGain => true
  | .mtrCalOffs => true
  | .mtrCalPhase => true
  | .mtrRangeTrim => true
  | .mtrChRms => true
  | .mtrChMean => true
  | .mtrChPeak => true
  | .mtrPulseCfg => true
  | .mtrPulseK => true
  | .bilCfg => true
  | .bilIrqEn => true
  | .bilDevCfg => true
  | .bilOvrStartLo => true
  | .bilOvrStartHi => true
  | .bilOvrParam => true
  | .evcCfg => true
  | .evcTiming => true
  | .evcSessionHint => true
  | .evcHostLimit => true
  | .evcExport => true
  | .evcIrqEn => true
  | .evcLock => true
  | .evcDcId => true
  | .evcDcCfg => true
  | .evcDcSet => true
  | .evcGpCfg => true
  | .kaoIrqEn => true
  | .kaoHb => true
  | .lswCfg => true
  | .lswRetry => true
  | .lswInput => true
  | .lswCount => true
  | .lswIrqEn => true
  | .plcCfg => true
  | .plcAddr => true
  | .plcLink => true
  | .plcIrqEn => true
  | .plcRxCnt => true
  | .plcTxCnt => true
  | .plcRej => true
  | .plcHes => true
  | .plcTblSel => true
  | .plcZxCfg => true
  | .plcZxCnt => true
  | .aulCfg => true
  | .aulIrqEn => true
  | .keyIrqEn => true
  | .tagRdrCnt => true
  | .tagSvcRej => true
  | .tagIrqEn => true
  | .pnlCfg => true
  | .pnlIrqEn => true
  | .pnlWinAddr => true
  | .pnlMemAddr => true
  | .pnlAge => true
  | .pnlStrip => true
  | .stoIrqEn => true
  | .imgIrqEn => true
  | _ => false

/-- The word of a register that shows the state of the device; `u` is its unit counted from the register's first. -/
def Dev.shownReg (d : Dev) (ag : Agent) (g : Nat) (r : RegAt) : Word :=
  match groupOf g with
  | .sys => d.readSys ag r.row.id r.idx
  | .tim => d.readTim r.row.id r.unit
  | .que => d.readQue r.row.id r.unit
  | .mtr => d.readMtr r.row.id r.unit
  | .bil => d.readBil r.row.id r.unit r.idx
  | .evc => atIdx r.unit fun n : Fin 8 => d.readEvc r.row.id n
  | .kao => d.readKao r.row.id r.unit
  | .lsw => d.readLsw r.row.id r.unit
  | .plc => d.readPlc r.row.id
  | .aul => d.readAul r.row.id r.unit
  | .key => d.readKey r.row.id r.unit r.idx
  | .tag => d.readTag r.row.id
  | .pnl => d.readPnl r.row.id r.unit
  | .sto => d.readStoImg r.row.id
  | .img => d.readStoImg r.row.id
  | .rsvd => 0

/-- The word a stored register reads as: in the staged view its RWS fields come from the staged copy (R82, R89). -/
def Dev.storedWord (d : Dev) (row : RegDef) (addr : Nat) (staged : Bool) : Word :=
  let live := d.regs.value addr
  if staged then w32 (mergeMask live.toNat ((d.staged.find addr).getD live).toNat row.rws) else live

/-- A read of the lower word of a wide quantity: the whole is captured for the agent (R34). -/
def Dev.captureWide (d : Dev) (ag : Agent) (addr v : Nat) : Word × Dev := (w32 v, d.setView ag (addr + 4) (hi32 v))

/-- A read of the lower word of a writable quantity captures its higher word: the view at the lower word's own address
notes that a capture waits (R34; log entry 51, DEDUCED). -/
def Dev.captureSetting (d : Dev) (ag : Agent) (addr : Nat) : Word × Dev :=
  (d.regs.value addr, (d.setView ag addr 1).setView ag (addr + 4) (d.regs.value (addr + 4)))

/-- A read of its higher word gives what waits, once, and then the word as it stands. -/
def Dev.readSettingHigh (d : Dev) (ag : Agent) (addr : Nat) : Word × Dev :=
  if d.view ag (addr - 4) = 1 then (d.view ag addr, d.setView ag (addr - 4) 0) else (d.regs.value addr, d)

/-- What a read of a mapped register word returns and does. `addr` is its live address, `u` its unit. -/
def Dev.readReg (d : Dev) (ag : Agent) (g u : Nat) (r : RegAt) (addr : Nat) (staged : Bool) : CmdSt × Word × Dev :=
  match d.wideValue r with
  | some v => let (w, d1) := d.captureWide ag addr v; (.ok, w, d1)
  | none =>
    if r.row.id.isFlags then
      let f := d.flagReg addr
      (.ok, f.word, d.putFlag addr (f.noteRead (agentNum ag)))
    else if r.row.id.perAgent ∨ r.row.id.isHigh then (.ok, d.view ag addr, d)
    else if r.row.id.settingLow then (let (w, d1) := d.captureSetting ag addr; (.ok, w, d1))
    else if r.row.id.settingHigh then (let (w, d1) := d.readSettingHigh ag addr; (.ok, w, d1))
    else if r.row.id.stored then (.ok, d.storedWord r.row addr staged, d)
    else
      match r.row.id with
      | .func => (.ok, d.readFunc g u, d)
      | .pnlWinData => d.readWindow
      | .pnlMemData => d.readMem
      | .stoData => d.stoRead ag
      | .queIdq => let (w, d1) := d.readIdq (spaceAt (r.unit + 1)); (.ok, w, d1)
      | .mtrHarm => if h : r.unit < 9 then (let (w, d1) := d.readHarm ⟨r.unit, h⟩; (.ok, w, d1)) else (.ok, 0, d)
      | .evcPilot => if h : r.unit < 8 then (let (w, d1) := d.readPilot ⟨r.unit, h⟩; (.ok, w, d1)) else (.ok, 0, d)
      | .kaoExt => let (w, d1) := d.readKaoExt; (.ok, w, d1)
      | .aulPortState => let (w, d1) := d.readPortState (r.unit = 1); (.ok, w, d1)
      | _ => (.ok, d.shownReg ag g r, d)

/-- The registers A5 may read (R324). -/
def kaolinReads (g : Nat) (id : RegId) : Bool :=
  g = 6 ||
    (match id with
     | .mtrPeriodLo => true
     | .mtrPeriodHi => true
     | .mtrPeriodInfo => true
     | .mtrChRms => true
     | .evcSession => true
     | .evcContact => true
     | _ => false)

/-- The group, unit and byte offset of an address, and whether it lies in the staged view (R80 to R82). -/
def addrGroup (addr : Nat) : Nat := addr / 0x10000000 % 16
/-- Its unit. -/
def addrUnit (addr : Nat) : Nat := addr / 0x100000 % 0x100
/-- Its byte offset, without the staged view's bit. -/
def addrOff (addr : Nat) : Nat := addr % 0x80000
/-- Bit 19. -/
def addrStaged (addr : Nat) : Bool := nbit addr 19

/-- The register an aligned address maps. -/
def mapped (addr : Nat) : Option RegAt :=
  if addr % 4 = 0 then regAt (addrGroup addr) (addrUnit addr) (addrOff addr) else none

/-- A read of an agent at an address (R83, R84, R86). -/
def Dev.latticeRead (d : Dev) (ag : Agent) (addr : Nat) : Dev :=
  let g := addrGroup addr
  let u := addrUnit addr
  if !d.canIssue ag then d
  else if !d.granted ag g u .read then d.permReject ag g
  else
    match mapped addr with
    | none => d.answer ag .arg
    | some r =>
      if ag = .kaolin ∧ !kaolinReads g r.row.id then d.permReject ag g
      else readAccess ag g u addr (fun x => x.readReg ag g u r (lattice g u (addrOff addr)) (addrStaged addr)) d

/-! ### Writes -/

/-- A clear write of a flag register (R94, R95). A settings record carries no agent's token and completes with ARG (log
entry 92, DEDUCED). -/
def Dev.clearFlags (d : Dev) (who : Option Agent) (addr : Nat) (data : Word) : CmdSt × Dev :=
  match who with
  | none => (.arg, d)
  | some ag =>
    let f := d.flagReg addr
    if f.accepts (agentNum ag) (fld data 31 16) then (.ok, d.putFlag addr (f.clear (agentNum ag) (fld data 15 0)))
    else (.arg, d)

/-- Whether a setting's value lies in the range its register table gives. -/
def Dev.settingOk (d : Dev) (id : RegId) (u : Nat) (data : Word) : Bool :=
  match id with
  | .timServo => fld data 31 24 ≠ 0
  | .timCmpPeriod => data = 0 || (decide (1000 ≤ data.toNat) && decide (data.toNat < 2 ^ 31))
  | .timCapCtrl => fld data 7 6 ≠ 3 && decide (fld data 5 0 ≤ 20)
  | .mtrHarmSel => decide (fld data 15 8 < 64) && d.chanUnit (fld data 15 8) = some u
  | .bilDevCfg => decide (1 ≤ fld data 4 0) && decide (fld data 4 0 ≤ 16)
  | .evcCfg => if h : u < 8 then d.evcCfgOk ⟨u, h⟩ data else true
  | .evcTiming => evcTimingOk data
  | .evcExport => !bit data 31 || d.kind u = .bidir
  | .evcDcId => if h : u < 8 then d.evcDcIdOk ⟨u, h⟩ data else true
  | .evcDcCfg => evcDcCfgOk data
  | .plcCfg => decide (1 ≤ fld data 23 20) && decide (fld data 23 20 ≤ 14) && decide (10 ≤ fld data 15 8)
  | .plcAddr => fld data 15 0 ≠ 0 && fld data 15 0 ≠ 1 && fld data 15 0 ≠ 0xFFFF
  | .plcLink => decide (3 ≤ fld data 15 8) && decide (fld data 15 8 ≤ 30) && decide (1 ≤ fld data 4 0) && decide (fld data 4 0 ≤ 16)
  | .plcTblSel => decide (fld data 31 30 ≤ 1) && (fld data 31 30 = 1 || decide (fld data 7 0 ≤ 63))
  | .plcZxCfg => fld data 31 20 ≠ 0xFFF && decide (2 ≤ fld data 11 8) && decide (fld data 11 8 ≤ 8) && fld data 7 0 ≠ 0
  | .aulCfg => decide (1 ≤ fld data 7 0) && decide (fld data 7 0 ≤ 100)
  | .tagRdrCfg => decide (10 ≤ fld data 31 24) && fld data 23 20 ≠ 0 && fld data 7 0 ≠ 0
  | .pnlCfg => decide (10 ≤ fld data 23 16) && decide (fld data 23 16 ≤ 120)
  | .pnlMemAddr => fld data 31 30 ≠ 3
  | .pnlAge => fld data 15 0 ≠ 0
  | _ => true

/-- A write of a setting: its range, the state of its function for fields "written while stopped" (R106), then its
RW fields at once and its RWS fields staged (R89). -/
def Dev.writeSetting (d : Dev) (g u : Nat) (row : RegDef) (addr : Nat) (data : Word) : CmdSt × Dev :=
  let f := d.func? (groupOf g) u
  if !d.settingOk row.id u data then (.arg, d)
  else if stopChange row f (d.regs.value addr) data then (.state ((f.map fun x => x.st.code).getD 0), d)
  else (.ok, d.writeFields row addr 0 data)

/-- A write of PLC_CFG or PLC_LINK: what it stages starts the second of R362. -/
def Dev.writePlcSetting (d : Dev) (row : RegDef) (addr : Nat) (data : Word) : CmdSt × Dev :=
  match d.writeSetting 8 0 row addr data with
  | (.ok, d1) =>
    (.ok, if d1.staged.find addr = d.staged.find addr then d1 else { d1 with plc := { d1.plc with stagedAt := some (d.plc.stagedAt.getD d.el) } })
  | r => r

/-- The registers whose writes `writeMeter` checks (R174 to R176). -/
def RegId.meterSetting : RegId → Bool
  | .mtrCfg => true
  | .mtrPq => true
  | .mtrCable => true
  | .mtrChScale => true
  | .mtrCalGain => true
  | .mtrCalOffs => true
  | .mtrCalPhase => true
  | .mtrRangeTrim => true
  | .mtrPulseCfg => true
  | .mtrPulseK => true
  | _ => false

/-- The registers of the grid monitor that complete a write with ARG (06_metrology.md, MTR register map). -/
def RegId.notOnGrid : RegId → Bool
  | .mtrCable => true
  | .mtrIncMtr => true
  | .mtrIncVeh => true
  | .mtrIncLoss => true
  | .mtrIncReact => true
  | .mtrP => true
  | .mtrQ => true
  | .mtrS => true
  | _ => false

/-- A write of a register kept with one view per agent; the configuration load has no view (R473). -/
def Dev.writeView (d : Dev) (who : Option Agent) (row : RegDef) (addr : Nat) (data : Word) : CmdSt × Dev :=
  match who with
  | some ag => (.ok, if row.rw = 0 then d else d.setView ag addr (w32 (data.toNat &&& row.rw)))
  | none => (.arg, d)

/-- A write for an index in range. -/
def onIdx {n : Nat} (d : Dev) (i : Nat) (f : Fin n → CmdSt × Dev) : CmdSt × Dev := if h : i < n then f ⟨i, h⟩ else (.ok, d)

/-- What a write of a mapped register word does. `who` is none for the configuration load (R473). -/
def Dev.writeReg (d : Dev) (who : Option Agent) (g u : Nat) (r : RegAt) (addr : Nat) (data : Word) : CmdSt × Dev :=
  if r.row.id.isFlags then d.clearFlags who addr data
  else if r.row.id.perAgent then d.writeView who r.row addr data
  else if r.unit = 8 ∧ r.row.id.notOnGrid then (.arg, d)
  else if r.row.id.meterSetting then d.writeMeter who r.row u addr data
  else
    match r.row.id with
    | .timOffset => d.writeOffset data
    | .timCmpCtrl => onIdx d r.unit fun c => (.ok, d.writeCmpCtrl c data)
    | .timCmpTarget => onIdx d r.unit fun c => (.ok, d.writeCmpTarget c data)
    | .timAlmHi => onIdx d r.unit fun a => (.ok, d.writeAlmHi a data)
    | .queEnds => onIdx d r.unit fun q => d.writeQueEnds q data
    | .mtrGain => onIdx d r.unit fun c => d.gainWrite c data
    | .bilCfg => onIdx d r.unit fun n => d.writeBilCfg who n data
    | .kaoHb =>
      match who with
      | some ag => d.writeHb ag data
      | none => (.perm, d)
    | .lswCfg => onIdx d r.unit fun c => d.writeLswCfg c data
    | .lswRetry => onIdx d r.unit fun c => d.writeLswRetry c data
    | .lswInput => onIdx d r.unit fun c => d.writeLswInput c data
    | .plcCfg => d.writePlcSetting r.row addr data
    | .plcLink => d.writePlcSetting r.row addr data
    | .pnlWinData => d.writeWindow data
    | .pnlMemData => d.writeMem data
    | .stoData =>
      match who with
      | some ag => d.stoWrite ag data
      | none => (.arg, d)
    | _ => d.writeSetting g u r.row addr data

/-! ### Commands (R97 to R101) -/

/-- A command's unit (R85) and meaning; none for an opcode the group does not have. -/
abbrev Command := Option (Nat × (Dev → CmdSt × Dev))

/-- The commands every group has (R103). -/
def commonCommand (g op : Nat) (arg : BitVec 24) : Command :=
  if op = 1 then some (argUnit arg, funcStopCmd (groupOf g) arg)
  else if op = 2 then some (argUnit arg, funcStartCmd (groupOf g) arg)
  else if op = 3 then some (argUnit arg, funcRestartCmd (groupOf g) arg)
  else none

/-- SYS_CMD (R113). -/
def sysCommand (op : Nat) (arg : BitVec 24) : Command :=
  if op = 0x10 then some (0xFF, islandStopCmd arg)
  else if op = 0x11 then some (0xFF, islandStartCmd arg)
  else if op = 0x12 then some (0xFF, islandResetCmd arg)
  else if op = 0x18 then some (0xFF, warmResetCmd arg)
  else none

/-- TIM_CMD (R156). -/
def timCommand (op : Nat) (arg : BitVec 24) : Command :=
  if op = 0x10 then some (0xFF, timeSetCmd arg)
  else if op = 0x11 then some (0xFF, timeAdjustCmd arg)
  else if op = 0x12 then some (0x20 + argUnit arg, alarmCancelCmd arg)
  else none

/-- QUE_CMD (R138). -/
def queCommand (op : Nat) (arg : BitVec 24) : Command :=
  if op = 0x10 then some (argUnit arg, queFlushCmd arg)
  else if op = 0x11 then some (argUnit arg, queCountClearCmd arg)
  else none

/-- MTR_CMD (R204). -/
def mtrCommand (op : Nat) (arg : BitVec 24) : Command :=
  if op = 0x10 then some (argUnit arg, captureCmd arg)
  else if op = 0x11 then some (argUnit arg, pqCountClearCmd arg)
  else none

/-- BIL_CMD (R248). -/
def bilCommand (ag : Agent) (op : Nat) (arg : BitVec 24) : Command :=
  if op = 0x10 then some (argUnit arg, readSignedCmd ag arg)
  else if op = 0x11 then some (argUnit arg, mdResetCmd arg)
  else if op = 0x12 then some (0xFF, noArg arg calArmCmd)
  else if op = 0x13 then some (0xFF, noArg arg calCancelCmd)
  else if op = 0x14 then some (0xFF, noArg arg overrideCmdSt)
  else none

/-- EVC_CMD (R280). -/
def evcGroupCommand (ag : Agent) (op : Nat) (arg : BitVec 24) : Command :=
  let m := argBits arg 15 8
  if op = 0x10 then some (argUnit arg, evcCommand arg (methodAllowed ag m) (authorizeCmd ag m))
  else if op = 0x11 then some (argUnit arg, evcCommand arg (noMethod arg) denyCmd)
  else if op = 0x12 then some (argUnit arg, evcCommand arg (noMethod arg) (stopCmd ag))
  else if op = 0x13 then some (argUnit arg, evcCommand arg (noMethod arg) suspendCmd)
  else if op = 0x14 then some (argUnit arg, evcCommand arg (noMethod arg) resumeCmd)
  else if op = 0x15 then some (argUnit arg, evcCommand arg (noMethod arg) faultClearCmd)
  else none

/-- KAO_CMD (R331). -/
def kaoGroupCommand (ag : Agent) (op : Nat) (arg : BitVec 24) : Command :=
  let src := argBits arg 15 8
  if op = 0x10 then some (0xFF, noArg arg (confirmCmd ag))
  else if op = 0x11 then some (argUnit arg, kaoCommand arg lockReleaseCmd)
  else if op = 0x12 then some (argUnit arg, kaoCommand arg resTestCmd)
  else if op = 0x13 then
    some (argUnit arg, fun d => if argUnit arg < 8 ∧ !tripSource src then (.arg, d) else kaoCommand arg (tripTestCmd src) d)
  else none

/-- LSW_CMD (R355). -/
def lswGroupCommand (op : Nat) (arg : BitVec 24) : Command :=
  if op = 0x10 then some (argUnit arg, lswCommand arg swOnCmd)
  else if op = 0x11 then some (argUnit arg, lswCommand arg swOffCmd)
  else if op = 0x12 then some (argUnit arg, lswCommand arg swReleaseCmd)
  else none

/-- PLC_CMD (R387). -/
def plcCommand (op : Nat) (arg : BitVec 24) : Command :=
  if op = 0x10 then some (0xFF, noArg arg routeClearCmd)
  else if op = 0x11 then some (0xFF, noArg arg plcCountClearCmd)
  else if op = 0x12 then some (0xFF, noArg arg beaconCmd)
  else none

/-- AUL_CMD (R506). -/
def aulCommand (ag : Agent) (op : Nat) (arg : BitVec 24) : Command :=
  if op = 0x10 then some (0xFF, aulCountClearCmd arg)
  else if op = 0x11 then some (0x10 + argUnit arg, portRetrainCmd ag arg)
  else none

/-- KEY_CMD (R412). -/
def keyGroupCommand (ag : Agent) (op : Nat) (arg : BitVec 24) : Command :=
  let u := argUnit arg
  if op = 0x10 then some (u, keyStageCmd ag arg)
  else if op = 0x11 then some (u, keyVerifyCmd arg)
  else if op = 0x12 then some (u, keyCommitCmd arg)
  else if op = 0x13 then some (u, keyDiscardCmd arg)
  else if op = 0x14 then some (u, keyDestroyCmd arg)
  else if op = 0x15 then some (u, keyGenCmd ag arg)
  else if op = 0x16 then some (u, keyRespondCmd ag arg)
  else if op = 0x17 then some (0xFF, keyChallengeCmd ag arg)
  else if op = 0x18 then some (u, keyCheckCmd ag arg)
  else if op = 0x19 then some (u, keyAttestCmd ag arg)
  else none

/-- TAG_CMD (R441). -/
def tagCommand (ag : Agent) (op : Nat) (arg : BitVec 24) : Command :=
  if op = 0x10 then some (0xFF, tagReadCmd ag arg)
  else if op = 0x11 then some (0xFF, tagWriteCmd ag arg)
  else if op = 0x12 then some (0xFF, tagIncCmd arg)
  else if op = 0x13 then some (0xFF, svcEndCmd arg)
  else if op = 0x14 then some (0xFF, rdrPollCmd arg)
  else none

/-- PNL_CMD (R458). -/
def pnlCommand (ag : Agent) (op : Nat) (arg : BitVec 24) : Command :=
  let u := 0x10 + argUnit arg
  if op = 0x10 then some (u, updateCmd ag arg)
  else if op = 0x11 then some (u, adoptCmd arg)
  else if op = 0x12 then some (u, clearCmd arg)
  else none

/-- STO_CMD (R470). -/
def stoCommand (op : Nat) (arg : BitVec 24) : Command :=
  if op = 0x10 then some (0xFF, scrubCmd arg)
  else if op = 0x11 then some (0xFF, stoCountClearCmd arg)
  else none

/-- IMG_CMD (R68, R69, R477). -/
def imgCommand (ag : Agent) (op : Nat) (arg : BitVec 24) : Command :=
  if op = 0x10 then some (0xFF, fwOpenCmd arg)
  else if op = 0x11 then some (0xFF, fwPendingCmd arg)
  else if op = 0x12 then some (0xFF, fwConfirmCmd ag arg)
  else if op = 0x13 then some (0xFF, fwRevertCmd arg)
  else if op = 0x20 then some (0xFF, siVerifyCmd arg)
  else if op = 0x21 then some (0xFF, siReloadCmd arg)
  else none

/-- The commands of a group's own opcodes. -/
def groupCommand (ag : Agent) (g op : Nat) (arg : BitVec 24) : Command :=
  match groupOf g with
  | .sys => sysCommand op arg
  | .tim => timCommand op arg
  | .que => queCommand op arg
  | .mtr => mtrCommand op arg
  | .bil => bilCommand ag op arg
  | .evc => evcGroupCommand ag op arg
  | .kao => kaoGroupCommand ag op arg
  | .lsw => lswGroupCommand op arg
  | .plc => plcCommand op arg
  | .aul => aulCommand ag op arg
  | .key => keyGroupCommand ag op arg
  | .tag => tagCommand ag op arg
  | .pnl => pnlCommand ag op arg
  | .sto => stoCommand op arg
  | .img => imgCommand ag op arg
  | .rsvd => none

/-- Whether only A2 and A4 may issue a command (R332). -/
def restrictedCommand (g op : Nat) : Bool := g = 6 && (op = 0x10 || op = 0x11 || op = 0x13)

/-- A write of <GRP>_CMD (R97): its opcode [31:24] and argument [23:0]; an opcode the group does not have is ARG. -/
def Dev.writeCommand (d : Dev) (ag : Agent) (g : Nat) (data : Word) : Dev :=
  let op := fld data 31 24
  let arg := BitVec.ofNat 24 (fld data 23 0)
  match (commonCommand g op arg).orElse fun _ => groupCommand ag g op arg with
  | some (u, h) => if restrictedCommand g op then kaoRestricted ag op arg u h d else issueCommand ag g op arg u h d
  | none => issueCommand ag g op arg 0xFF (fun x => (.arg, x)) d

/-- Whether an address is <GRP>_CMD. -/
def isCmdAddr (addr : Nat) : Bool := addrUnit addr = 0xFF && addrOff addr = 0 && decide (addrGroup addr < 15)

/-- A write of an agent at an address (R83). A warm reset that a command asked for follows its completion. -/
def Dev.latticeWrite (d : Dev) (ag : Agent) (addr : Nat) (data : Word) : Dev :=
  let g := addrGroup addr
  let u := addrUnit addr
  if isCmdAddr addr then (d.writeCommand ag g data).settleReset
  else if !d.canIssue ag then d
  else if !d.granted ag g u .write then d.permReject ag g
  else
    match mapped addr with
    | none => d.answer ag .arg
    | some r => writeAccess ag g u addr (fun x => x.writeReg (some ag) g u r (lattice g u (addrOff addr)) data) d

/-! ### Requests of several accesses (R375, R430, R494, R544) -/

/-- One access of a request. -/
def Dev.doAccess (d : Dev) (ag : Agent) (a : Sys2Proof.Access) : Dev :=
  match a.write with
  | some w => d.latticeWrite ag a.addr.toNat w
  | none => d.latticeRead ag a.addr.toNat

/-- The words an LREP carries for its accesses. -/
def lrepWords (rs : List Reply) : List QData := rs.map fun (r : Reply) => packQ [(8, r.status.toNat), (24, 0), (32, r.data.toNat)]

/-- The LREP of a request, sent or held (R491, R494). -/
def Dev.sendLrep (d : Dev) (r : Request) : Dev :=
  let f := d.ownFrame r.cls 2 0 (r.word :: lrepWords r.got)
  ({ d with aul := { d.aul with repHeld := d.aul.repHeld ++ [f] } }).sendReps

/-- A request whose accesses are done is answered through its entry port (R84). -/
def Dev.answerRequest (d : Dev) (r : Request) : Dev :=
  let d1 := { d with replies := r.got }
  match r.agent with
  | .host => d1.sendLrep r
  | .headend => d1.hesAnswer (r.got.map fun (x : Reply) => (x.status, x.data)) r.key
  | .service => d1.tagReply (stOk :: hesReply (r.got.map fun (x : Reply) => (x.status, x.data)))
  | _ => d1

/-- An access that hangs keeps the request that carries it (R544). -/
def holdRequest : List HungAccess → Request → List HungAccess
  | [], _ => []
  | [h], r => [{ h with req := some r }]
  | h :: hs, r => h :: holdRequest hs r

/-- Run the accesses of a request in order; it stops at one that hangs, and with its agent gone it is dropped. -/
def Dev.runAccesses (r : Request) : List (Option Sys2Proof.Access) → List Reply → Dev → Dev
  | [], got, d => d.answerRequest { r with todo := [], got := got }
  | none :: rest, got, d => Dev.runAccesses r rest (got ++ [{ agent := r.agent, status := 4 }]) d
  | some a :: rest, got, d =>
    if !d.agentPresent r.agent then d
    else
      let d1 := d.doAccess r.agent a
      if d.hung.length < d1.hung.length then { d1 with hung := holdRequest d1.hung { r with todo := rest, got := got } }
      else Dev.runAccesses r rest (got ++ [d1.reply]) d1

/-- Run a request. -/
def Dev.runRequest (d : Dev) (r : Request) : Dev := Dev.runAccesses r r.todo r.got d

/-- The requests that an ISLAND_RESET released go on; the first argument bounds how many. -/
def Dev.runReleased : Nat → Dev → Dev
  | 0, d => d
  | n + 1, d =>
    match d.resume with
    | [] => d
    | r :: rs => Dev.runReleased n (({ d with resume := rs }).runRequest r)

/-- Every released request goes on: each holds at most 8 accesses that can hang again. -/
def Dev.settleReleased (d : Dev) : Dev := Dev.runReleased (9 * (d.hung.length + d.resume.length)) d

/-- HEADEND_LATTICE_REQUEST (R375): with PLC_HES.open 0 every access is answered with STATE. The key that authenticated
the request authenticates its reply (R409). -/
def Dev.headendRequest (d : Dev) (f : MeshFrame) : Dev :=
  match d.hesAccept f with
  | (false, d1) => d1
  | (true, d1) =>
    let todo := decodeAccesses 8 f.payload.tail
    if bit (d1.reg 8 0 0x28) 0 then (d1.runRequest { agent := .headend, todo := todo, key := (d.keySlot 5).live.secret }).settleReleased
    else d1.hesAnswer (todo.map fun _ => (stState, 0)) (d.keySlot 5).live.secret

/-- LATTICE (R430): up to 8 accesses as A4 in a session, with VMAIN. -/
def Dev.fieldRequest (d : Dev) (accs : List Sys2Proof.Access) (p : SvcProt) : Dev :=
  let op := fun (a : Sys2Proof.Access) => match a.write with
    | some w => (1 : Byte) :: (beBytes 4 a.addr.toNat ++ beBytes 4 w.toNat)
    | none => (0 : Byte) :: (beBytes 4 a.addr.toNat ++ beBytes 4 0)
  d.fieldCommand p (8 :: accs.flatMap op) fun sess d =>
    if !sess then d.count 11 1 8 15 0
    else if !d.tagMain then d.tagReply [stState]
    else if 8 < accs.length then d.tagReply [stArg]
    else (d.runRequest { agent := .service, todo := accs.map some }).settleReleased

/-- The accesses of an LREQ: bits [1:0] of the address give the operation (R487). -/
def lreqAccess (w : QData) : Option Sys2Proof.Access :=
  let a := bits w.toNat 63 32
  if a % 4 = 0 then some { addr := w32 a, write := none }
  else if a % 4 = 1 then some { addr := w32 (a - 1), write := some (w32 w.toNat) }
  else none

/-- The bridge checks a transaction ID against space 10 (R133, R135): the epoch of an accepted one becomes current. -/
def Dev.takeTransaction (d : Dev) (id : Nat) : Bool × Dev :=
  if (d.que.spaces[10]).accepts 10 (id / 2 ^ 24) then
    (true, d.updSpace 10 fun x => { x with epoch := BitVec.ofNat 8 (id / 2 ^ 24), index := BitVec.ofNat 24 id })
  else (false, (d.count 2 0x8A 8 31 0).raiseAul 8)

/-- An LREQ for this module (R494, R505). -/
def Dev.takeLreq (d : Dev) (f : RingFrame) : Dev :=
  match f.payload with
  | [] => d.misroute
  | w1 :: ws =>
    let n := bits w1.toNat 31 24
    if d.sto.holdup ∨ n = 0 ∨ 8 < n ∨ ws.length ≠ n then d.misroute
    else
      match d.takeTransaction (bits w1.toNat 63 32) with
      | (false, d1) => d1
      | (true, d1) => (d1.runRequest { agent := .host, cls := f.cls, word := w1, todo := ws.map lreqAccess }).settleReleased

/-- LREQ (R494). -/
def Dev.ringLreq (d : Dev) (portB : Bool) (f : RingFrame) : Dev :=
  if f.ftype = 1 ∧ d.forMe f then
    d.receive portB f fun x =>
      let x1 := x.takeLreq f
      if f.dest = 0xFF then x1.forwardFrame portB f else x1
  else d

/-! ### Room in a queue, and quarantines -/

/-- PRODUCER_ROOM_AVAILABLE (R125, R199, R330, R492): what hardware producers keep for a queue goes in where it now
finds room. -/
def Dev.roomAvailable (d : Dev) (q : Fin 64) : Dev :=
  let d1 := Dev.writeHeld q d.que.q[q].held d
  let d2 := slices.foldl (fun (acc : Dev) (n : Fin 8) =>
    if acc.mtrQueue n.val 1 = some q then Dev.mtrFlushWaiting n q ((acc.mtr.eng[n.val]?.map fun e => e.waiting).getD []) acc else acc) d1
  let d3 := slices.foldl (fun (acc : Dev) (n : Fin 8) => if acc.kaoQueue n.val = some q then acc.kaoFlush n q else acc) d2
  d3.workBuffers

/-- ID_QUARANTINE_END (R134, R373, R493): the issue that waits may go on, and takes index 1 of the next epoch. -/
def Dev.quarantineEnd (d : Dev) (s : Fin 13) : Dev :=
  if (d.que.spaces[s]).quarOver d.el then
    let d1 := d.endQuarantine s
    if s = 9 then { d1 with aul := { d1.aul with idWait := false } }
    else if s = 11 then { d1 with plc := { d1.plc with idWait := false } }
    else d1
  else d

/-! ### The commands of the table -/

/-- LATTICE_WRITE. -/
def execLatticeWrite (ag : Agent) (addr data : Word) (s : State) : Host.Outcome State Fault Refusal :=
  .next { s with dev := (s.dev.latticeWrite ag addr.toNat data).settleReleased }

/-- FLAGS_READ. -/
def execFlagsRead (ag : Agent) (addr : Word) (s : State) : Host.Outcome State Fault Refusal :=
  .next { s with dev := s.dev.latticeRead ag addr.toNat }

/-- FLAGS_CLEAR_WRITE. -/
def execFlagsClearWrite (ag : Agent) (addr data : Word) (s : State) : Host.Outcome State Fault Refusal :=
  .next { s with dev := (s.dev.latticeWrite ag addr.toNat data).settleReleased }

/-- WIDE_READ_CAPTURE. -/
def execWideReadCapture (ag : Agent) (addr : Word) (s : State) : Host.Outcome State Fault Refusal :=
  .next { s with dev := s.dev.latticeRead ag addr.toNat }

/-- ISLAND_RESET. -/
def execIslandReset (ag : Agent) (arg : BitVec 24) (s : State) : Host.Outcome State Fault Refusal :=
  .next { s with dev := (issueCommand ag 0 0x12 arg 0xFF (islandResetCmd arg) s.dev).settleReleased }

/-- HEADEND_LATTICE_REQUEST. -/
def execHeadendLatticeRequest (f : MeshFrame) (s : State) : Host.Outcome State Fault Refusal :=
  .next { s with dev := s.dev.headendRequest f }

/-- LATTICE. -/
def execFieldLattice (accs : List Sys2Proof.Access) (p : SvcProt) (s : State) : Host.Outcome State Fault Refusal :=
  .next { s with dev := s.dev.fieldRequest accs p }

/-- LREQ. -/
def execLreq (portB : Bool) (f : RingFrame) (s : State) : Host.Outcome State Fault Refusal :=
  .next { s with dev := s.dev.ringLreq portB f }

/-- PRODUCER_ROOM_AVAILABLE. -/
def execProducerRoomAvailable (q : Fin 64) (s : State) : Host.Outcome State Fault Refusal :=
  .next { s with dev := s.dev.roomAvailable q }

/-- ID_QUARANTINE_END. -/
def execIdQuarantineEnd (space : Fin 13) (s : State) : Host.Outcome State Fault Refusal :=
  .next { s with dev := s.dev.quarantineEnd space }

end Sys2Proof.Machine
end

