-- ==== Sys2Proof/Machine/TimeStep.lean ====
section
/-! DEFINITION. The step of site time (R157 to R159) with what it ends: metrology periods (R188), demand and load
profile intervals (R232 to R235), compare units and alarms. -/

namespace Sys2Proof.Machine

/-- The delta rounded to the nearest multiple of 62.5 µs, halves toward zero (R157 step 1). -/
def roundStep (delta : Int) : Int :=
  let k : Int := ((delta.natAbs + 31249) / samplePeriod * samplePeriod : Nat)
  if delta < 0 then -k else k

/-- Every running metrology unit closes its period with TIME_STEP, and the next one carries it too (R188). -/
def Dev.stepPeriods (d : Dev) : Dev :=
  (List.finRange 9).foldl (fun (acc : Dev) (u : Fin 9) =>
    if acc.mtrRuns u.val then
      (((acc.updEng u fun e => { e with fStep := true }).cutPeriod u false false).updEng u fun e => { e with fStep := true })
    else acc) d

/-- The periods that follow the step begin at the new time. -/
def Dev.beginPeriods (d : Dev) : Dev :=
  (List.finRange 9).foldl (fun (acc : Dev) (u : Fin 9) =>
    if acc.mtrRuns u.val then acc.updEng u fun e => { e with begun := some acc.now } else acc) d

/-- The intervals in progress of a slice close at the step instant with TIME_STEP (R232, R233). One restored from before
a Silt reset lasts 0 where the clock, started again at 0, reads below its start (log entry 106, DESIGN CHOICE). -/
def Dev.stepClose (d : Dev) (n : Fin 8) : Dev :=
  let t := d.now
  let b := d.bil.s[n]
  (d.closeDemand n t (t - b.dmd.start) 2).closeLp n t (t - ((b.lp.map (·.start)).getD t)) 2 (d.lpLen n.val)

/-- A boundary type that was never executed starts its grid here, while site time is valid (log entry 37, DEDUCED). -/
def Dev.startGrid (d : Dev) (n : Fin 8) (t : Nat) : Dev :=
  if d.tim.quality = .notValid then d
  else d.updBil n fun b =>
    { b with
      lastDmd := if b.lastDmd = 0 then t else b.lastDmd
      lastLp := if b.lastLp = 0 then t else b.lastLp
      lastBp := if b.lastBp = 0 then t else b.lastBp
      lastCal := if b.lastCal = 0 then t else b.lastCal }

/-- The latest retained boundary of any type and slice (R235; log entry 37, DEDUCED). -/
def Dev.latestBoundary (d : Dev) : Nat :=
  d.presentSlices.foldl (fun (acc : Nat) (n : Fin 8) =>
    let b := d.bil.s[n]
    max acc (max (max b.lastDmd b.lastLp) (max b.lastBp b.lastCal))) 0

/-- The intervals that open at the step, under the new tariff (R232, R233). -/
def Dev.stepOpen (d : Dev) (n : Fin 8) : Dev :=
  let d1 := ((d.setTariff n d.now).openDemand n d.now 2).openLp n d.now 2
  d1.updBil n fun b => { b with sess := b.sess.map fun (x : SessRec) => { x with flags := x.flags ||| 2 } }

/-- What a step of a non-zero rounded amount does to billing after site time has moved (R232, R233, R235, R238):
`back` tells a set-back. The TIME_STEP readings carry the new time with the tariff and source in force up to the step
(log entry 107, DESIGN CHOICE). -/
def Dev.stepBilling (d : Dev) (back : Bool) : Dev :=
  let ps := d.presentSlices
  let d1 := ps.foldl (fun (acc : Dev) (n : Fin 8) => acc.reading n 6 acc.now) d
  let d2 := d1.tamper (if back then 4 else 5) none
  let d3 :=
    if back ∨ d2.tim.quality = .notValid then d2
    else
      let d3 := ps.foldl (fun (acc : Dev) (n : Fin 8) => ((acc.startGrid n acc.now).openDemand n acc.now 2).openLp n acc.now 2) d2
      Dev.runBoundaries (d3.boundaryBound d3.now) d3.now .skipped d3
  ps.foldl (fun (acc : Dev) (n : Fin 8) => acc.stepOpen n) d3

/-- Armed alarms and compare units at a step (R159). -/
def Dev.stepTargets (d : Dev) : Dev :=
  let d1 := (List.finRange 8).foldl (fun (acc : Dev) (a : Fin 8) => acc.almFire a) d
  (List.finRange 16).foldl (fun (acc : Dev) (c : Fin 16) =>
    if acc.tim.cmp[c].armed && decide (cmpDelta acc.tim.cmp[c].target acc.tim.now ≤ 0) then acc.fireCmp c true false else acc) d1

/-- Site time moves by the rounded amount; the residual is slewed, and with it after a TIME_ADJUST what an earlier one
left, which a TIME_SET replaces (log entry 99, DEDUCED); quality and error by R157 step 3; TIME_SET makes the RTC valid
(R155). Where the amount is not 0, every schedule starts anew from the new time (R158). -/
def Dev.moveTime (d : Dev) (s : PendingStep) : Dev :=
  let r := roundStep s.delta
  let keep := d.tim.quality = .notValid && !s.set
  let d1 := d.noteErr
  { d1 with tim := { d1.tim with
      now := ((d.tim.now : Int) + r).toNat, residual := s.delta - r + (if s.set then 0 else d.residualLeft)
      resSince := d.el, stepped := true, step := none, done := if r = 0 then d.tim.done else []
      quality := if keep then .notValid else .holdover
      errBase := if keep then d.tim.errBase else s.accUs
      errSince := if keep then d.tim.errSince else d.el
      rtcValid := d.tim.rtcValid || s.set } }

/-- A step that moves site time to or past the instant of the next leap applies it at once (R143). -/
def Dev.stepLeap (d : Dev) (old : Nat) : Dev :=
  if bit (d.reg 1 0 0x24) 16 ∧ old < d.now ∧ d.nextMonthStart old ≤ d.now then d.applyLeap else d

/-- The whole of a step (R157 to R159, R188, R232 to R235); one of amount 0 only fixes the tariff of the period that
follows (R208, R234). Its log entry is written after the move: the new time is its
stamp, the old time its data (log entry 56, DEDUCED). -/
def Dev.applyStep (d : Dev) (s : PendingStep) : Dev :=
  d.oneEvent fun d =>
  let old := d.now
  let r := roundStep s.delta
  let first := d.tim.quality = .notValid && s.set
  let d1 := d.stepPeriods
  let d2 := if r = 0 then d1 else d1.presentSlices.foldl (fun (acc : Dev) (n : Fin 8) => acc.stepClose n) d1
  let d3 := (d2.moveTime s).beginPeriods.stepLeap old
  let back := if first then decide (d3.now < d3.latestBoundary) else decide (r < 0)
  let d4 := (d3.raiseTim 0).logEvent .tim 157 [w32 old, hi32 old]
  let d5 := if r = 0 then d4.presentSlices.foldl (fun (acc : Dev) (n : Fin 8) => acc.setTariff n acc.now) d4
    else d4.stepBilling back
  (d5.stepTargets).endCommand 1 .ok

/-- The step's sample instant is now: no sample of it has been taken yet (R157). -/
def Dev.stepDue (d : Dev) : Bool :=
  d.tim.now % samplePeriod = 0 && d.lastRun (keySample false) ≠ some d.tim.now && d.lastRun (keySample true) ≠ some d.tim.now

/-- TIME_STEP_APPLY. -/
def Dev.timeStepApply (d : Dev) : Dev :=
  match d.tim.step with
  | some s => if d.stepDue then d.applyStep s else d
  | none => d

/-- TIME_STEP_APPLY. -/
def execTimeStepApply (s : State) : Host.Outcome State Fault Refusal := .next { s with dev := s.dev.timeStepApply }

end Sys2Proof.Machine
end

