-- ==== Sys2Proof/Machine/ColdReset.lean ====
section
/-! DEFINITION. Start-up (17_power_reset.md, R523): site time from the RTC, keys, the image, the configuration load
(R473, R545), the billing restore (R230, R470) and the recovery ROM; and the swap of an accepted SI_RELOAD (R70,
R548). -/

namespace Sys2Proof.Machine

/-! ### Site time (R154, R155) -/

/-- The RTC count now: it runs on while the device is unpowered (log entry 44, DESIGN CHOICE). -/
def Dev.rtcNow (d : Dev) : Nat := d.tim.rtc + (d.el - d.tim.rtcEl) * 32768 / sec 1

/-- The unpowered interval, counted from the RTC count: elapsed time since it was last loaded (R154). -/
def Dev.unpowered (d : Dev) : Nat := d.el - d.tim.rtcEl

/-- Site time starts from the RTC, its count of 2⁻¹⁵ s rounded to a neighbouring ns (log entry 4, DESIGN CHOICE); after a
Silt reset it starts from 0, NOT_VALID. -/
def Dev.startTime (d : Dev) : Dev :=
  let (t, d1) := if d.pwr.siltReset then (0, d) else d.round ((d.rtcNow * sec 1 : Nat) / 32768)
  { d1 with tim := { d1.tim with
      now := t.toNat, quality := if d.tim.rtcValid then .holdover else .notValid
      errBase := if d.tim.rtcValid then d.tim.rtcErr + 31 + ceilDiv (3 * d.unpowered) (sec 1) else 0xFFFFFFFF
      errSince := d.el } }

/-- The cause of a cold reset (SYS_RESET_CAUSE.cold_cause). -/
def coldCode : ColdCause → Nat
  | .powerOn => 0
  | .brownout => 1
  | .resetN => 2

/-- The power-on reset releases: the Silt domain and the tag take VMAIN, and a Silt reset is found (R435, R520). -/
def Dev.releaseReset (d : Dev) (cause : ColdCause) : Dev :=
  { d.tagSupplyUp with
    pwr := { d.pwr with held := false, tOff := none, coldCause := coldCode cause, siltFound := d.pwr.siltReset, siltReset := false }
    tag := { d.tagSupplyUp.tag with supply := 0 }
    pnl := { d.pnl with stress := d.pnl.stressSaved } }

/-! ### Keys (R389, R392, R400, R401) -/

/-- An EXPIRED slot is EMPTY after the cold reset. -/
def KeySlot.emptied (s : KeySlot) : KeySlot := if s.st = .expired then { s with st := .empty, live := {} } else s

/-- The key store at a cold reset: a lost KROOT orphans its slots and a new one is made, slots expire, use counts
resume from what was committed, and the random source passes its start-up tests or does not, which is free (R388). -/
def Dev.startKeys (d : Dev) : Dev :=
  let d0 := ((if d.rootPresent then d else d.orphanRooted).makeRoot).expireKeys
  let d1 := if d.key.darkExpired then d0.raiseKey 3 else d0
  let d2 := { d1 with fresh := d1.fresh + 1, key := { d1.key with
    rngOk := Config.freeBit d1.fresh, darkExpired := false, slots := d1.key.slots.map fun (s : KeySlot) => { s.emptied with uses := s.reserved } } }
  ((List.finRange 64).foldl (fun (acc : Dev) (k : Fin 64) => acc.exhaust k) d2).loadTagCopy

/-! ### The configuration load (R473, R545) -/

/-- The islands that the loaded image uses start. -/
def Dev.startIslands (d : Dev) : Dev :=
  let d1 := if d.persona 3 ≠ 0 ∨ d.persona 4 ≠ 0 then d.setRun 10 true else d
  let d2 := slices.foldl (fun (acc : Dev) (n : Fin 8) => if nbit (acc.persona 7) n.val then acc.setRun (2 + n.val) true else acc) d1
  if d2.pnlWidth ≠ 0 then d2.setRun 12 true else d2

/-- What one settings record completes with, and its effect: a write that no agent makes. Its fields that are staged
come into use at once, but for those of TIM_SERVO, which wait for a boundary (R153). -/
def Dev.recordWrite (d : Dev) (addr : Nat) (v : Word) : CmdSt × Dev :=
  let g := addrGroup addr
  let u := addrUnit addr
  if isCmdAddr addr then (.arg, d)
  else
    match mapped addr with
    | none => (.arg, d)
    | some r =>
      match d.stoppedIsland g u with
      | some _ => (.state 0, d)
      | none =>
        let (st, d1) := d.writeReg none g u r (lattice g u (addrOff addr)) v
        (st, if g = 1 ∧ u = 1 then d1 else d1.swapUnit g u)

/-- A settings record is skipped, counted and logged. -/
def Dev.rejectRecord (d : Dev) (addr : Nat) : Dev :=
  ({ d with img := { d.img with cfgRejected := d.img.cfgRejected + 1 } }.raiseImg 5).logEvent .img 473 [w32 addr]

/-- Apply a settings record: one that does not complete with OK is skipped. -/
def Dev.applyRecord (d : Dev) (addr : Nat) (v : Word) : Dev :=
  match d.recordWrite addr v with
  | (.ok, d1) => d1
  | _ => d.rejectRecord addr

/-- The most records a load applies. -/
def maxRecords : Nat := 64000

/-- Apply `n` records from a byte address on; one in an uncorrectable word is rejected (R462). -/
def Dev.applyRecords : Nat → Nat → Dev → Dev
  | 0, _, d => d
  | n + 1, a, d =>
    Dev.applyRecords n (a + 8)
      (if d.wordBad a then d.rejectRecord 0
       else d.applyRecord (fromLE (d.sto.mram.reads a 4)) (w32 (fromLE (d.sto.mram.reads (a + 4) 4))))

/-- The configuration load: the records of the area in use, the first 64 000 of them. -/
def Dev.configLoad (d : Dev) : Dev :=
  let d1 := match d.areaInUse with
    | some a =>
      let n := if d.wordBad (cfgAreaAddr a + 0x2000) then 0 else fromLE (d.sto.mram.reads (cfgAreaAddr a + 0x2000) 4)
      let d2 := Dev.applyRecords (min n maxRecords) (cfgAreaAddr a + 0x2008) d
      { d2 with img := { d2.img with cfgRejected := d2.img.cfgRejected + (n - maxRecords) } }
    | none => d
  { d1 with img := { d1.img with cfgDone := true } }

/-- The active calendar of the area in use, while it passes R213 (R472). -/
def Dev.loadCalendar (d : Dev) : Dev :=
  match d.areaInUse with
  | some a =>
    let bs := d.sto.mram.reads (cfgAreaAddr a + 0x1000) 768
    if calendarReason bs = 0 ∧ !d.rangeBad (cfgAreaAddr a + 0x1000) 768 then
      { d with bil := { d.bil with active := some (decodeCalendar bs) } }
    else d
  | none => d

/-! ### The billing restore (R230, R231, R470, R518) -/

/-- The snapshot in force: the one the Silt pointer names, or with the pointer lost the newer one (R520). -/
def Dev.snapInForce (d : Dev) : Option Snapshot :=
  match d.bil.siltPtr with
  | some s => if s = 0 then d.bil.snap0 else d.bil.snap1
  | none => if snapSeq d.bil.snap1 < snapSeq d.bil.snap0 then d.bil.snap0 else d.bil.snap1

/-- The snapshot a restore starts from, while no register commit is newer. -/
def Dev.liveSnapshot (d : Dev) : Option Snapshot := if d.bil.snapLive then d.snapInForce else none

/-- Register copy B is the newer one (R209). -/
def Dev.newerB (d : Dev) : Bool := decide (d.bil.copyA.1 < d.bil.copyB.1)

/-- The newer register copy holds an uncorrectable word: the other one is used (R462; log entry 104, DEDUCED). -/
def Dev.copyGivesWay (d : Dev) : Bool := d.rangeBad (copyAddr (b1 d.newerB)) copySize

/-- The register copy a restore uses (R209, R462): its commit count, site time and registers. -/
def Dev.newestCopy (d : Dev) : Nat × Nat × Vector BilSlice 8 :=
  if d.newerB ≠ d.copyGivesWay then d.bil.copyB else d.bil.copyA

/-- The registers to restore and the site time of the last sample they include. -/
def Dev.restoreSource (d : Dev) : Vector BilSlice 8 × Nat :=
  match d.liveSnapshot with
  | some s => d.bil.tail.getD (s.slices, s.time)
  | none => (d.newestCopy.2.2, d.newestCopy.2.1)

/-- Restore the registers; the sequences of readings, Karurn records and load profile records and the tamper mask do not
go back (R240, R246), and the remainders, which a cold reset clears, are 0 (R179; log entry 108, DEDUCED). -/
def Dev.restoreSlices (d : Dev) : Dev :=
  let src := d.restoreSource.1
  { d with bil := { d.bil with s := Vector.ofFn fun n : Fin 8 =>
      { src[n] with
        rdSeq := d.bil.s[n].rdSeq, krSeq := d.bil.s[n].krSeq, lpSeq := d.bil.s[n].lpSeq, tampered := d.bil.s[n].tampered
        remLoss := 0, comVeh := 0, comQ := 0 } } }

/-- The quarantine of a space after the interruption: from the snapshot while site time is valid (R137). -/
def Dev.restartQuarantine (d : Dev) (s : Nat) : Nat :=
  match d.liveSnapshot with
  | some sn => if d.tim.quality = .notValid then quarantineOf s else quarantineOf s - (d.now - sn.time)
  | none => quarantineOf s

/-- An identifier space over a cold reset: 1 to 9 and 11 advance their epoch once they have issued; what the device
checks in spaces 10 and 12 takes its reset value. -/
def Dev.restartSpace (d : Dev) (s : Fin 13) : IdSpace :=
  let x := d.que.spaces[s]
  if s.val = 0 ∨ s.val = 10 ∨ s.val = 12 then {}
  else if x.issued then
    { x with epoch := x.epoch + 1, index := 0, quar := some d.el, quarLen := d.restartQuarantine s.val, waiting := false }
  else {}

/-- The identifier spaces at a cold reset. -/
def Dev.restartSpaces (d : Dev) : Dev := { d with que := { d.que with spaces := Vector.ofFn fun s : Fin 13 => d.restartSpace s } }

/-- Put a job into a list in reading-sequence order. -/
def insertJob (j : SignJob) : List SignJob → List SignJob
  | [] => [j]
  | k :: ks => if j.rdSeq < k.rdSeq then j :: k :: ks else k :: insertJob j ks

/-- Sign and retain one saved block. -/
def Dev.signSaved (d : Dev) (j : SignJob) : Dev :=
  let (bs, d1) := d.signBytes j.bytes
  d1.deliverBlock j bs

/-- The saved queue messages go into their areas and the saved blocks are signed (R470); STO_PF tells what was saved. -/
def Dev.writeSaved (d : Dev) (s : Snapshot) : Dev :=
  let d1 := { d with sto := { d.sto with
    pfValid := true, pfOverflow := s.overflow, pfMs := s.ms, pfBlocks := s.jobs.length
    pfWords := (s.words.map fun (w : Nat × List QData) => w.2.length).sum } }
  let d2 := if s.overflow then d1.raiseSto 2 else d1
  let d3 := s.words.foldl (fun (acc : Dev) (w : Nat × List QData) => acc.storeBlock w.2) d2
  (s.jobs.foldl (fun (acc : List SignJob) (j : SignJob) => insertJob j acc) []).foldl (fun (acc : Dev) (j : SignJob) => acc.signSaved j) d3

/-- The intervals in progress carry POWER_FAIL, and NOT_VALID where time is (R223, R235); what never opened opens now. -/
def Dev.resumeIntervals (d : Dev) (n : Fin 8) : Dev :=
  let fresh := d.bil.s[n].lastDmd = 0 ∧ d.bil.s[n].dmd.start = 0
  let f : Byte := if d.tim.quality = .notValid then 9 else 1
  let d1 := (d.startGrid n d.now).updBil n fun b =>
    { b with dmd := { b.dmd with flags := b.dmd.flags ||| f }, lp := b.lp.map fun (i : Interval) => { i with flags := i.flags ||| f } }
  let d2 := if fresh then d1.openDemand n d1.now 1 else d1
  if (d2.bil.s[n]).lp.isNone then d2.openLp n d2.now 1 else d2

/-- The boundaries missed while unpowered; none under NOT_VALID (R235). -/
def Dev.runMissed (d : Dev) : Dev :=
  if d.tim.quality = .notValid then d else Dev.runBoundaries (d.boundaryBound d.now) d.now .missed d

/-- Count tamper type 2 a number of times, each with its log entry (R246). -/
def Dev.countDark : Nat → Dev → Dev
  | 0, d => d
  | k + 1, d => Dev.countDark k (d.tamper 2 none)

/-- Hold-ups without a snapshot join tamper type 2 (R518). -/
def Dev.addDark (d : Dev) : Dev :=
  if d.pwr.darkCount = 0 then d
  else
    let t := d.bil.tamper[2]
    let d1 := Dev.countDark d.pwr.darkCount d
    let t1 : Tamper :=
      { count := satAdd 32 t.count d.pwr.darkCount, first := if t.count = 0 then d.pwr.darkFirst else t.first, last := d.pwr.darkLast }
    { d1 with
      bil := { d1.bil with tamper := d1.bil.tamper.set 2 t1 }
      pwr := { d1.pwr with darkCount := 0, darkFirst := 0, darkLast := 0 } }

/-- The restore of billing: saved blocks, interrupted sessions, missed boundaries, tamper types, the RESTART readings
and the register commit that ends it. The registers themselves were restored before. `silt` tells a Silt reset found
at this cold reset. -/
def Dev.restoreBilling (d : Dev) (silt failed : Bool) (tEnd : Nat) : Dev :=
  let d1 := match d.liveSnapshot with
    | some s => d.writeSaved s
    | none => d
  let d2 := slices.foldl (fun (acc : Dev) (n : Fin 8) => acc.buildKarurn n 17 tEnd 1) d1
  let d3 := (d2.presentSlices.foldl (fun (acc : Dev) (n : Fin 8) => acc.resumeIntervals n) d2).runMissed
  let d4 := d3.presentSlices.foldl (fun (acc : Dev) (n : Fin 8) => acc.setTariff n acc.now) d3
  let d5 := if failed then d4.tamper 3 none else d4
  let d5 := if d.liveSnapshot.isNone && d.copyGivesWay then d5.tamper 23 none else d5
  let d6 := (if silt then d5.tamper 1 none else d5).addDark
  let d7 := (d6.presentSlices.foldl (fun (acc : Dev) (n : Fin 8) => acc.reading n 5 acc.now) d6).commitBilling
  { d7 with bil := { d7.bil with snapLive := false }, img := { d7.img with restoreDone := true } }

/-! ### The cold reset -/

/-- With an image the islands it needs start and the configuration is loaded; with none the device stops in the state
of R65. -/
def Dev.bringUp (d : Dev) : Dev := if d.img.loaded.isSome then d.startIslands.configLoad else d

/-- Steps 4 and 5 of R523. -/
def Dev.loadSystem (d : Dev) : Dev := d.romPrepare.loadImage.bringUp.loadCalendar

/-- Steps 1 to 3 of R523: the reset values, what the retained state restores, and site time. -/
def Dev.restart (d : Dev) (cause : ColdCause) : Dev :=
  (d.restoreSlices.cleared.startTime.releaseReset cause).servoStart.restartSpaces.startKeys

/-- No snapshot is in force although registers were committed: HOLDUP_FAIL (R231). -/
def Dev.snapshotLost (d : Dev) : Bool := d.liveSnapshot.isNone && decide (0 < d.newestCopy.1)

/-- Step 6 of R523. With no image the device has stopped at step 4: the restore waits for the first image (log entry
41, DEDUCED), and only a Silt reset is counted. -/
def Dev.restoreStep (d before : Dev) : Dev :=
  if d.img.loaded.isSome then d.restoreBilling d.pwr.siltFound before.snapshotLost before.restoreSource.2
  else if d.pwr.siltFound then d.tamper 1 none else d

/-- COLD_RESET: steps 1 to 6 and 8 of R523. The functions start at AUTO_FUNCTION_START, the core at
FIRMWARE_START. -/
def Dev.coldReset (d : Dev) (cause : ColdCause) : Dev :=
  Dev.romSelect 4 ((d.restart cause).loadSystem.restoreStep d)

/-! ### The swap of an accepted reload (R70, R547, R548) -/

/-- A slice that becomes present starts its grids and intervals (log entry 37, DEDUCED). -/
def Dev.slicePresent (d : Dev) (n : Fin 8) : Dev :=
  (((d.startGrid n d.now).setTariff n d.now).openDemand n d.now 0).openLp n d.now 0

/-- The first image since the reset: the islands, the configuration load and the billing restore that has waited for
it; the functions have still to start. -/
def Dev.firstImage (d : Dev) : Dev :=
  let d1 := d.startIslands.configLoad
  let d2 := if d1.img.restoreDone then d1 else d1.restoreBilling false d1.snapshotLost d1.restoreSource.2
  { d2 with img := { d2.img with started := false } }

/-- The slices that were absent before and are present now begin their periods. -/
def Dev.newSlices (d before : Dev) : Dev :=
  (slices.filter fun (n : Fin 8) => !before.present n.val && d.present n.val).foldl
    (fun (acc : Dev) (n : Fin 8) => acc.slicePresent n) d

/-- SI_RELOAD_SWAP. With no image loaded before, the islands, the configuration load and the restore follow, and the
functions start at the next AUTO_FUNCTION_START. -/
def Dev.reloadSwap (d : Dev) : Dev :=
  match d.img.prepared with
  | none => d
  | some (im, slot, _) =>
    if d.img.loaded.isNone then (d.swapImage im slot).firstImage else (d.swapImage im slot).newSlices d

/-! ### The commands of the table -/

/-- COLD_RESET. -/
def execColdReset (cause : ColdCause) (s : State) : Host.Outcome State Fault Refusal :=
  .next { s with dev := s.dev.coldReset cause }

/-- SI_RELOAD_SWAP. -/
def execSiReloadSwap (s : State) : Host.Outcome State Fault Refusal := .next { s with dev := s.dev.reloadSwap }

end Sys2Proof.Machine
end

