-- ==== Sys2Proof/Machine/Dispatch.lean ====
section
/-! DEFINITION. The dispatch of every command to its meaning, one arm per row of the table. -/

namespace Sys2Proof.Machine

/-- The effect of a command on everything but the queue of waiting commands. -/
def exec (i : Instr) (s : State) : Host.Outcome State Fault Refusal :=
  match i with
  | .latticeWrite ag addr data => Sys2Proof.Machine.execLatticeWrite ag addr data s
  | .flagsRead ag addr => Sys2Proof.Machine.execFlagsRead ag addr s
  | .flagsClearWrite ag addr data => Sys2Proof.Machine.execFlagsClearWrite ag addr data s
  | .wideReadCapture ag addr => Sys2Proof.Machine.execWideReadCapture ag addr s
  | .funcStop ag g arg => Sys2Proof.Machine.execFuncStop ag g arg s
  | .funcStart ag g arg => Sys2Proof.Machine.execFuncStart ag g arg s
  | .funcRestart ag g arg => Sys2Proof.Machine.execFuncRestart ag g arg s
  | .islandStop ag arg => Sys2Proof.Machine.execIslandStop ag arg s
  | .islandStart ag arg => Sys2Proof.Machine.execIslandStart ag arg s
  | .islandReset ag arg => Sys2Proof.Machine.execIslandReset ag arg s
  | .warmReset ag arg => Sys2Proof.Machine.execWarmReset ag arg s
  | .islandClockLoss isl => Sys2Proof.Machine.execIslandClockLoss isl s
  | .stallDetect => Sys2Proof.Machine.execStallDetect s
  | .siVerify ag arg => Sys2Proof.Machine.execSiVerify ag arg s
  | .siReload ag arg => Sys2Proof.Machine.execSiReload ag arg s
  | .siReloadSwap => Sys2Proof.Machine.execSiReloadSwap s
  | .autoFunctionStart => Sys2Proof.Machine.execAutoFunctionStart s
  | .queuePortWrite q data mark => Sys2Proof.Machine.execQueuePortWrite q data mark s
  | .queuePortRead q checks => Sys2Proof.Machine.execQueuePortRead q checks s
  | .noticeHoldExpiry q => Sys2Proof.Machine.execNoticeHoldExpiry q s
  | .producerRoomAvailable q => Sys2Proof.Machine.execProducerRoomAvailable q s
  | .idQuarantineEnd space => Sys2Proof.Machine.execIdQuarantineEnd space s
  | .queFlush ag arg => Sys2Proof.Machine.execQueFlush ag arg s
  | .queCountClear ag arg => Sys2Proof.Machine.execQueCountClear ag arg s
  | .storeMessage q checks => Sys2Proof.Machine.execStoreMessage q checks s
  | .sampleTransfer dieB f => Sys2Proof.Machine.execSampleTransfer dieB f s
  | .pathMismatch ch => Sys2Proof.Machine.execPathMismatch ch s
  | .afeReferenceFault dieB => Sys2Proof.Machine.execAfeReferenceFault dieB s
  | .controlCycle n m => Sys2Proof.Machine.execControlCycle n m s
  | .metrologyPeriodBoundary cycles => Sys2Proof.Machine.execMetrologyPeriodBoundary cycles s
  | .midPeriodReading n => Sys2Proof.Machine.execMidPeriodReading n s
  | .harmonicWindowEnd u w => Sys2Proof.Machine.execHarmonicWindowEnd u w s
  | .urmsRefresh u phase uv => Sys2Proof.Machine.execUrmsRefresh u phase uv s
  | .pulseEmit p => Sys2Proof.Machine.execPulseEmit p s
  | .capture ag arg => Sys2Proof.Machine.execCapture ag arg s
  | .captureComplete n => Sys2Proof.Machine.execCaptureComplete n s
  | .pqCountClear ag arg => Sys2Proof.Machine.execPqCountClear ag arg s
  | .calibrationWrite ag addr data => Sys2Proof.Machine.execCalibrationWrite ag addr data s
  | .mtrGainWrite ag addr data => Sys2Proof.Machine.execMtrGainWrite ag addr data s
  | .billingCfgWrite ag addr data => Sys2Proof.Machine.execBillingCfgWrite ag addr data s
  | .readSigned ag arg => Sys2Proof.Machine.execReadSigned ag arg s
  | .mdReset ag arg => Sys2Proof.Machine.execMdReset ag arg s
  | .calArm ag arg => Sys2Proof.Machine.execCalArm ag arg s
  | .calCancel ag arg => Sys2Proof.Machine.execCalCancel ag arg s
  | .overrideCmd ag arg => Sys2Proof.Machine.execOverrideCmd ag arg s
  | .signatureComplete => Sys2Proof.Machine.execSignatureComplete s
  | .leapApply => Sys2Proof.Machine.execLeapApply s
  | .wholeSecond => Sys2Proof.Machine.execWholeSecond s
  | .servoIntervalEnd => Sys2Proof.Machine.execServoIntervalEnd s
  | .timOffsetWrite ag data => Sys2Proof.Machine.execTimOffsetWrite ag data s
  | .timeSet ag arg => Sys2Proof.Machine.execTimeSet ag arg s
  | .timeAdjust ag arg => Sys2Proof.Machine.execTimeAdjust ag arg s
  | .alarmCancel ag arg => Sys2Proof.Machine.execAlarmCancel ag arg s
  | .timeStepApply => Sys2Proof.Machine.execTimeStepApply s
  | .cmpArm ag c target => Sys2Proof.Machine.execCmpArm ag c target s
  | .cmpDisarm ag c ctrl => Sys2Proof.Machine.execCmpDisarm ag c ctrl s
  | .cmpFire c => Sys2Proof.Machine.execCmpFire c s
  | .almArm ag a hi => Sys2Proof.Machine.execAlmArm ag a hi s
  | .almFire a => Sys2Proof.Machine.execAlmFire a s
  | .captureEdge src rising => Sys2Proof.Machine.execCaptureEdge src rising s
  | .authorize ag arg => Sys2Proof.Machine.execAuthorize ag arg s
  | .deny ag arg => Sys2Proof.Machine.execDeny ag arg s
  | .evcStop ag arg => Sys2Proof.Machine.execEvcStop ag arg s
  | .suspend ag arg => Sys2Proof.Machine.execSuspend ag arg s
  | .resume ag arg => Sys2Proof.Machine.execResume ag arg s
  | .faultClear ag arg => Sys2Proof.Machine.execFaultClear ag arg s
  | .authTimeout n => Sys2Proof.Machine.execAuthTimeout n s
  | .preauthExpiry n => Sys2Proof.Machine.execPreauthExpiry n s
  | .pwmFallback n => Sys2Proof.Machine.execPwmFallback n s
  | .lockConfirmTimeout n => Sys2Proof.Machine.execLockConfirmTimeout n s
  | .contactorEnergize n => Sys2Proof.Machine.execContactorEnergize n s
  | .closeTimeout n => Sys2Proof.Machine.execCloseTimeout n s
  | .energizeTimeout n => Sys2Proof.Machine.execEnergizeTimeout n s
  | .stopWaitEnd n => Sys2Proof.Machine.execStopWaitEnd n s
  | .openConfirmTimeout n => Sys2Proof.Machine.execOpenConfirmTimeout n s
  | .sessionEndReading n => Sys2Proof.Machine.execSessionEndReading n s
  | .feedbackChange n closed => Sys2Proof.Machine.execFeedbackChange n closed s
  | .evOvercurrent n => Sys2Proof.Machine.execEvOvercurrent n s
  | .moduleLost n => Sys2Proof.Machine.execModuleLost n s
  | .dcStatusFrame port f => Sys2Proof.Machine.execDcStatusFrame port f s
  | .canFrameRx port f => Sys2Proof.Machine.execCanFrameRx port f s
  | .canFrameTx port q => Sys2Proof.Machine.execCanFrameTx port q s
  | .evcPilotDriverFault n => Sys2Proof.Machine.execEvcPilotDriverFault n s
  | .authMessage n q => Sys2Proof.Machine.execAuthMessage n q s
  | .slacParmRequest n mac atten => Sys2Proof.Machine.execSlacParmRequest n mac atten s
  | .slacMatch n => Sys2Proof.Machine.execSlacMatch n s
  | .slacLost n => Sys2Proof.Machine.execSlacLost n s
  | .gpFrameRx n bytes => Sys2Proof.Machine.execGpFrameRx n bytes s
  | .gpFrameTx n q => Sys2Proof.Machine.execGpFrameTx n q s
  | .kaolinSourceActive n src => Sys2Proof.Machine.execKaolinSourceActive n src s
  | .kaolinSourceInactive n src => Sys2Proof.Machine.execKaolinSourceInactive n src s
  | .closeRequest n => Sys2Proof.Machine.execCloseRequest n s
  | .closeWithdraw n => Sys2Proof.Machine.execCloseWithdraw n s
  | .releaseWindowEnd n => Sys2Proof.Machine.execReleaseWindowEnd n s
  | .rearm n => Sys2Proof.Machine.execRearm n s
  | .heartbeatWrite ag data => Sys2Proof.Machine.execHeartbeatWrite ag data s
  | .heartbeatPoll => Sys2Proof.Machine.execHeartbeatPoll s
  | .heartbeatLost => Sys2Proof.Machine.execHeartbeatLost s
  | .graceEnd => Sys2Proof.Machine.execGraceEnd s
  | .xcheckEvaluate n => Sys2Proof.Machine.execXcheckEvaluate n s
  | .resSelftestStart n => Sys2Proof.Machine.execResSelftestStart n s
  | .resTestComplete n pass => Sys2Proof.Machine.execResTestComplete n pass s
  | .resTestExpire n => Sys2Proof.Machine.execResTestExpire n s
  | .escalationWindowEnd n => Sys2Proof.Machine.execEscalationWindowEnd n s
  | .imdMeasurement inp kohm settled => Sys2Proof.Machine.execImdMeasurement inp kohm settled s
  | .kaolinInternalFault cause => Sys2Proof.Machine.execKaolinInternalFault cause s
  | .switchSelftestComplete => Sys2Proof.Machine.execSwitchSelftestComplete s
  | .confirm ag arg => Sys2Proof.Machine.execConfirm ag arg s
  | .lockRelease ag arg => Sys2Proof.Machine.execLockRelease ag arg s
  | .resTest ag arg => Sys2Proof.Machine.execResTest ag arg s
  | .tripTest ag arg => Sys2Proof.Machine.execTripTest ag arg s
  | .tripTestForceEnd n => Sys2Proof.Machine.execTripTestForceEnd n s
  | .swOn ag arg => Sys2Proof.Machine.execSwOn ag arg s
  | .swOff ag arg => Sys2Proof.Machine.execSwOff ag arg s
  | .swRelease ag arg => Sys2Proof.Machine.execSwRelease ag arg s
  | .inrushEnd c => Sys2Proof.Machine.execInrushEnd c s
  | .shortDetect c => Sys2Proof.Machine.execShortDetect c s
  | .overloadDetect c => Sys2Proof.Machine.execOverloadDetect c s
  | .thermalLatch c => Sys2Proof.Machine.execThermalLatch c s
  | .thermalAutoRelease c tj => Sys2Proof.Machine.execThermalAutoRelease c tj s
  | .backoffEnd c => Sys2Proof.Machine.execBackoffEnd c s
  | .retryBudgetReset c => Sys2Proof.Machine.execRetryBudgetReset c s
  | .vlswUndervoltage g => Sys2Proof.Machine.execVlswUndervoltage g s
  | .vlswRecover g => Sys2Proof.Machine.execVlswRecover g s
  | .loadShed avgMa => Sys2Proof.Machine.execLoadShed avgMa s
  | .limpChange active => Sys2Proof.Machine.execLimpChange active s
  | .linInputChange inp level => Sys2Proof.Machine.execLinInputChange inp level s
  | .meshFrameRx f m => Sys2Proof.Machine.execMeshFrameRx f m s
  | .meshTransmit tones x => Sys2Proof.Machine.execMeshTransmit tones x s
  | .meshDeferEnd tones x => Sys2Proof.Machine.execMeshDeferEnd tones x s
  | .meshTxComplete limits rest => Sys2Proof.Machine.execMeshTxComplete limits rest s
  | .ackTimeout => Sys2Proof.Machine.execAckTimeout s
  | .beaconPeriod => Sys2Proof.Machine.execBeaconPeriod s
  | .pairChangeBeacon => Sys2Proof.Machine.execPairChangeBeacon s
  | .neighbourExpiry addr => Sys2Proof.Machine.execNeighbourExpiry addr s
  | .penaltyDecay => Sys2Proof.Machine.execPenaltyDecay s
  | .headendLatticeRequest f => Sys2Proof.Machine.execHeadendLatticeRequest f s
  | .meshSignedReading q => Sys2Proof.Machine.execMeshSignedReading q s
  | .routeClear ag arg => Sys2Proof.Machine.execRouteClear ag arg s
  | .plcCountClear ag arg => Sys2Proof.Machine.execPlcCountClear ag arg s
  | .beacon ag arg => Sys2Proof.Machine.execBeacon ag arg s
  | .zxMessage cycles => Sys2Proof.Machine.execZxMessage cycles s
  | .zxAuthenticated => Sys2Proof.Machine.execZxAuthenticated s
  | .disconnect mask => Sys2Proof.Machine.execDisconnect mask s
  | .reconnect mask => Sys2Proof.Machine.execReconnect mask s
  | .stopCharging mask => Sys2Proof.Machine.execStopCharging mask s
  | .loadLimit mask params => Sys2Proof.Machine.execLoadLimit mask params s
  | .tariffOverride mask params => Sys2Proof.Machine.execTariffOverride mask params s
  | .ping => Sys2Proof.Machine.execPing s
  | .zxConfirmation => Sys2Proof.Machine.execZxConfirmation s
  | .keyStage ag arg => Sys2Proof.Machine.execKeyStage ag arg s
  | .keyVerify ag arg => Sys2Proof.Machine.execKeyVerify ag arg s
  | .keyCommit ag arg => Sys2Proof.Machine.execKeyCommit ag arg s
  | .keyDiscard ag arg => Sys2Proof.Machine.execKeyDiscard ag arg s
  | .keyDestroy ag arg => Sys2Proof.Machine.execKeyDestroy ag arg s
  | .keyGen ag arg => Sys2Proof.Machine.execKeyGen ag arg s
  | .keyRespond ag arg => Sys2Proof.Machine.execKeyRespond ag arg s
  | .keyChallenge ag arg => Sys2Proof.Machine.execKeyChallenge ag arg s
  | .keyCheck ag arg => Sys2Proof.Machine.execKeyCheck ag arg s
  | .keyAttest ag arg => Sys2Proof.Machine.execKeyAttest ag arg s
  | .krootRemask => Sys2Proof.Machine.execKrootRemask s
  | .useCountCommit k => Sys2Proof.Machine.execUseCountCommit k s
  | .tamperEvent => Sys2Proof.Machine.execTamperEvent s
  | .readerPoll card => Sys2Proof.Machine.execReaderPoll card s
  | .readerExchange q answer => Sys2Proof.Machine.execReaderExchange q answer s
  | .readerExchangeTimeout cardLost => Sys2Proof.Machine.execReaderExchangeTimeout cardLost s
  | .rdrPoll ag arg => Sys2Proof.Machine.execRdrPoll ag arg s
  | .serviceFieldOn => Sys2Proof.Machine.execServiceFieldOn s
  | .serviceFieldOff => Sys2Proof.Machine.execServiceFieldOff s
  | .fdetRelease => Sys2Proof.Machine.execFdetRelease s
  | .getIdentity => Sys2Proof.Machine.execGetIdentity s
  | .fieldRead blk p => Sys2Proof.Machine.execFieldRead blk p s
  | .auth1 rH => Sys2Proof.Machine.execAuth1 rH s
  | .auth2 answer => Sys2Proof.Machine.execAuth2 answer s
  | .fieldWrite blk data p energy c => Sys2Proof.Machine.execFieldWrite blk data p energy c s
  | .fieldInc ctr amount p energy c => Sys2Proof.Machine.execFieldInc ctr amount p energy c s
  | .fieldData bytes p => Sys2Proof.Machine.execFieldData bytes p s
  | .fieldLattice accs p => Sys2Proof.Machine.execFieldLattice accs p s
  | .fieldEnd p => Sys2Proof.Machine.execFieldEnd p s
  | .sessionIdleTimeout => Sys2Proof.Machine.execSessionIdleTimeout s
  | .tagStoreRecovery => Sys2Proof.Machine.execTagStoreRecovery s
  | .tagRead ag arg => Sys2Proof.Machine.execTagRead ag arg s
  | .tagWrite ag arg => Sys2Proof.Machine.execTagWrite ag arg s
  | .tagDeferredWrite => Sys2Proof.Machine.execTagDeferredWrite s
  | .tagInc ag arg => Sys2Proof.Machine.execTagInc ag arg s
  | .svcEnd ag arg => Sys2Proof.Machine.execSvcEnd ag arg s
  | .svcSignedReading q => Sys2Proof.Machine.execSvcSignedReading q s
  | .pnlUpdate ag arg => Sys2Proof.Machine.execPnlUpdate ag arg s
  | .adopt ag arg => Sys2Proof.Machine.execAdopt ag arg s
  | .clear ag arg => Sys2Proof.Machine.execClear ag arg s
  | .panelFrameInstant => Sys2Proof.Machine.execPanelFrameInstant s
  | .panelUpdateComplete r => Sys2Proof.Machine.execPanelUpdateComplete r s
  | .panelClearComplete r => Sys2Proof.Machine.execPanelClearComplete r s
  | .panelAutoClear => Sys2Proof.Machine.execPanelAutoClear s
  | .stripUpdate => Sys2Proof.Machine.execStripUpdate s
  | .panelPowerGood => Sys2Proof.Machine.execPanelPowerGood s
  | .panelPowerDown => Sys2Proof.Machine.execPanelPowerDown s
  | .panelFault cause => Sys2Proof.Machine.execPanelFault cause s
  | .panelWindowAccess ag write => Sys2Proof.Machine.execPanelWindowAccess ag write s
  | .panelMemoryAccess ag write => Sys2Proof.Machine.execPanelMemoryAccess ag write s
  | .stressSave => Sys2Proof.Machine.execStressSave s
  | .storeWindowAccess ag write => Sys2Proof.Machine.execStoreWindowAccess ag write s
  | .scrub ag arg => Sys2Proof.Machine.execScrub ag arg s
  | .stoCountClear ag arg => Sys2Proof.Machine.execStoCountClear ag arg s
  | .scrubPass => Sys2Proof.Machine.execScrubPass s
  | .scrubComplete corrected uncorrectable => Sys2Proof.Machine.execScrubComplete corrected uncorrectable s
  | .fwOpen ag arg => Sys2Proof.Machine.execFwOpen ag arg s
  | .fwPending ag arg => Sys2Proof.Machine.execFwPending ag arg s
  | .fwConfirm ag arg => Sys2Proof.Machine.execFwConfirm ag arg s
  | .fwRevert ag arg => Sys2Proof.Machine.execFwRevert ag arg s
  | .firmwareStart => Sys2Proof.Machine.execFirmwareStart s
  | .trialTimeout => Sys2Proof.Machine.execTrialTimeout s
  | .rcvBlock q => Sys2Proof.Machine.execRcvBlock q s
  | .rcvDone q => Sys2Proof.Machine.execRcvDone q s
  | .dataFrame portB f => Sys2Proof.Machine.execDataFrame portB f s
  | .bridgeQueueSend q => Sys2Proof.Machine.execBridgeQueueSend q s
  | .lreq portB f => Sys2Proof.Machine.execLreq portB f s
  | .ringSync portB f => Sys2Proof.Machine.execRingSync portB f s
  | .delayReq portB => Sys2Proof.Machine.execDelayReq portB s
  | .delayResp portB t2 t3 => Sys2Proof.Machine.execDelayResp portB t2 t3 s
  | .delayExchangeTimer => Sys2Proof.Machine.execDelayExchangeTimer s
  | .ringEnum portB f => Sys2Proof.Machine.execRingEnum portB f s
  | .ringRoute portB f => Sys2Proof.Machine.execRingRoute portB f s
  | .ringLink portB f => Sys2Proof.Machine.execRingLink portB f s
  | .frameForward portB f => Sys2Proof.Machine.execFrameForward portB f s
  | .pauseReceived portB cls => Sys2Proof.Machine.execPauseReceived portB cls s
  | .goReceived portB cls => Sys2Proof.Machine.execGoReceived portB cls s
  | .c0HoldRelease q => Sys2Proof.Machine.execC0HoldRelease q s
  | .portDown portB => Sys2Proof.Machine.execPortDown portB s
  | .portUp portB => Sys2Proof.Machine.execPortUp portB s
  | .aulCountClear ag arg => Sys2Proof.Machine.execAulCountClear ag arg s
  | .portRetrain ag arg => Sys2Proof.Machine.execPortRetrain ag arg s
  | .powerFailTrip mv => Sys2Proof.Machine.execPowerFailTrip mv s
  | .resetNLow mv => Sys2Proof.Machine.execResetNLow mv s
  | .switchUndervoltage => Sys2Proof.Machine.execSwitchUndervoltage s
  | .samplingCutoff => Sys2Proof.Machine.execSamplingCutoff s
  | .storeWriterStop => Sys2Proof.Machine.execStoreWriterStop s
  | .powerOnReset => Sys2Proof.Machine.execPowerOnReset s
  | .brownoutReset => Sys2Proof.Machine.execBrownoutReset s
  | .coldReset cause => Sys2Proof.Machine.execColdReset cause s
  | .siltReset => Sys2Proof.Machine.execSiltReset s
  | .vsiltLow => Sys2Proof.Machine.execVsiltLow s
  | .vpilotFault positive mv => Sys2Proof.Machine.execVpilotFault positive mv s
  | .hkScan r => Sys2Proof.Machine.execHkScan r s
  | .residualSlewEnd => Sys2Proof.Machine.execResidualSlewEnd s
  | .zxConfirmationEnd => Sys2Proof.Machine.execZxConfirmationEnd s
  | .tamperInactive => Sys2Proof.Machine.execTamperInactive s

end Sys2Proof.Machine
end

