-- ==== Sys2Proof/WellFormed.lean ====
section
/-! DEFINITION. Which commands are well formed: what the manual gives as the size and range of the operands that a
type of Syntax.lean does not bound. The meanings are total; a command that is not well formed is one that the bus, the
line or the analog parts cannot deliver. -/

namespace Sys2Proof

/-- A group with commands: every group but the reserved one (R80). -/
def Group.wf (g : Group) : Bool := g ≠ .rsvd

/-- A die sends one pair of codes for each of its 32 channels (R167). -/
def SampleFrame.wf (f : SampleFrame) : Bool := f.codes.length = 32

/-- A mesh frame carries at most 96 payload bytes, at most 16 hops, and only the flags of R361. -/
def MeshFrame.wf (f : MeshFrame) : Bool := decide (f.payload.length ≤ 96) && decide (f.hops.toNat ≤ 16) && decide (f.flags.toNat < 8)

/-- A CAN frame: classical identifiers have 11 bits, and the data fits a CAN FD frame. -/
def CanFrame.wf (f : CanFrame) : Bool := (f.ext || decide (f.id.toNat < 2048)) && decide (f.data.length ≤ 64)

/-- A ring frame carries at most 256 payload words, 8 in class 0 (R486). -/
def RingFrame.wf (f : RingFrame) : Bool := decide (f.payload.length ≤ (if f.cls = 0 then 8 else 256))

/-- A card's UID has 4, 7 or 10 bytes (R439). -/
def Card.wf (c : Card) : Bool := c.uid.length = 4 || c.uid.length = 7 || c.uid.length = 10

/-- A scan reads the 16 HK inputs (R525). -/
def HkReadings.wf (r : HkReadings) : Bool := r.hk.length = 16 && r.hk.all fun v => v ≤ 2500

/-- A zero-crossing frame lasts 224 mains cycles (R379). -/
def zxCyclesWf (cycles : List Int) : Bool := 1 ≤ cycles.length && cycles.length ≤ 224

/-- A frame came on one of the four tone pairs (R359). -/
def RxMeas.wf (m : RxMeas) : Bool := m.pair < 4

/-- A mesh frame has at most 1080 bits (R361). -/
def limitsWf (limits : List Bool) (rest : Nat) : Bool := limits.length + rest ≤ 1080

/-- The results of a harmonic window: harmonics 1 to 63 of each channel, in the 31 bits of MTR_HARM (R182). -/
def harmonicsWf (results : List (Nat × List Nat)) : Bool :=
  results.all fun r => r.1 < 64 && r.2.length = 63 && r.2.all fun x => x < 2 ^ 31

/-- An Ethernet frame of a Green PHY modem fits its line. -/
def etherWf (bytes : List Byte) : Bool := 14 ≤ bytes.length && bytes.length ≤ 1518

/-- At most 8 accesses in a request of the service tag (R430). -/
def accessesWf (accs : List Access) : Bool := decide (accs.length ≤ 8)

/-- At most 240 data bytes in a DATA command (R430). -/
def fieldBytesWf (bytes : List Byte) : Bool := decide (bytes.length ≤ 240)

/-- The words found uncorrectable lie in the 64 MiB of the store (R459). -/
def wordsWf (xs : List Nat) : Bool := xs.all fun a => a < 0x4000000

/-- Cycles of the 9 metrology units (R181). -/
def cyclesWf (cycles : List (Nat × Nat)) : Bool := cycles.length = 9

/-- A command is well formed. -/
def Instr.wf (i : Instr) : Bool :=
  match i with
  | .funcStop _ g _ => g.wf
  | .funcStart _ g _ => g.wf
  | .funcRestart _ g _ => g.wf
  | .sampleTransfer _ f => f.wf
  | .metrologyPeriodBoundary cycles => cyclesWf cycles
  | .harmonicWindowEnd _ w => harmonicsWf w.results
  | .dcStatusFrame _ f => f.wf
  | .canFrameRx _ f => f.wf
  | .gpFrameRx _ bytes => etherWf bytes
  | .meshFrameRx f m => f.wf && m.wf
  | .meshTxComplete limits rest => limitsWf limits rest
  | .headendLatticeRequest f => f.wf
  | .zxMessage cycles => zxCyclesWf cycles
  | .readerPoll (some c) => c.wf
  | .fieldData bytes _ => fieldBytesWf bytes
  | .fieldLattice accs _ => accessesWf accs
  | .scrubComplete _ bad => wordsWf bad
  | .dataFrame _ f => f.wf
  | .lreq _ f => f.wf
  | .ringSync _ f => f.wf
  | .ringEnum _ f => f.wf
  | .ringRoute _ f => f.wf
  | .ringLink _ f => f.wf
  | .frameForward _ f => f.wf
  | .hkScan r => r.wf
  | _ => true

end Sys2Proof
end

