-- ==== Sys2Proof/Safety.lean ====
section
/-! DEFINITION. What a safe state of the block is: the terms in which claims about every state are made. -/

namespace Sys2Proof.Machine

/-- KENn conducts only while the slice machine is ARMED (R282, R314). -/
def KaoSlice.guarded (x : KaoSlice) : Prop := x.ken = true → x.st = .armed

/-- Every contactor driver is guarded by its slice machine. -/
def KaoState.guarded (k : KaoState) : Prop := ∀ n : Fin 8, (k.m[n]).guarded

/-- The same of a device. -/
def Dev.contactorsGuarded (d : Dev) : Prop := d.kao.guarded

/-- The first three checks of R83 pass for a command: its agent can issue it, a grant covers it, and no command of the
group is PENDING. -/
abbrev Dev.ready (d : Dev) (ag : Agent) (g u : Nat) : Prop :=
  d.canIssue ag = true ∧ d.granted ag g u .command = true ∧ (d.busy.any fun b => groupNum b.group = g) = false

/-- A command has completed with OK: <GRP>_CMDST shows it, and its agent is answered (R97, R98). -/
def Dev.completed (d : Dev) (ag : Agent) (g op : Nat) : Dev := (d.noteCommand ag g op .ok).answer ag .ok

/-- A command has been accepted and is PENDING: its agent's view shows it, and the group is busy with it (R98, R99). -/
def Dev.accepted (d : Dev) (ag : Agent) (g op : Nat) (arg : BitVec 24) : Dev :=
  { (d.noteCommand ag g op .pending).answer ag .pending with
    busy := { group := groupOf g, agent := ag, opcode := BitVec.ofNat 8 op, arg := arg } :: d.busy }

/-- The first checks of R83 pass for a write of a unit: its agent can issue it, a grant covers it, and the unit's island
runs. -/
abbrev Dev.canWrite (d : Dev) (ag : Agent) (g u : Nat) : Prop :=
  d.canIssue ag = true ∧ d.granted ag g u .write = true ∧ d.stoppedIsland g u = none

/-- A state with another device and the same commands waiting. -/
def State.put (s : State) (d : Dev) : State := { s with dev := d }

/-- The same of a state. -/
def State.contactorsGuarded (s : State) : Prop := s.dev.contactorsGuarded

/-- The identifiers that a space issues at a list of instants (R134). -/
def IdSpace.issueAll (x : IdSpace) (sp : Nat) : List Nat → List Word
  | [] => []
  | el :: els =>
    match x.issue sp el with
    | (some w, y) => w :: IdSpace.issueAll y sp els
    | (none, y) => IdSpace.issueAll y sp els

/-- The parts of the device that a command may change. -/
inductive Part
  | img | que | mtr | bil | evc | kao | lsw | plc | key | tag | pnl | sto | aul | pwr | tim
deriving DecidableEq, Repr

/-- A part of the device is the same in two states. -/
def Part.same (d e : Dev) : Part → Prop
  | .img => e.img = d.img
  | .que => e.que = d.que
  | .mtr => e.mtr = d.mtr
  | .bil => e.bil = d.bil
  | .evc => e.evc = d.evc
  | .kao => e.kao = d.kao
  | .lsw => e.lsw = d.lsw
  | .plc => e.plc = d.plc
  | .key => e.key = d.key
  | .tag => e.tag = d.tag
  | .pnl => e.pnl = d.pnl
  | .sto => e.sto = d.sto
  | .aul => e.aul = d.aul
  | .pwr => e.pwr = d.pwr
  | .tim => e.tim = d.tim

/-- The parts that a command may change besides the common ones (stored register words, flags, views, replies, the log
and what hangs at a crossing); none is given for the commands that act on the whole block or run other commands: resets,
power events, image and firmware commands, function and island commands, register accesses and requests, and the
events in which several units act in one step. -/
def commandScope : Instr → Option (List Part)
  | .islandStop .. | .islandStart .. | .islandClockLoss .. | .stallDetect | .queCountClear .. | .pqCountClear .. |
    .leapApply | .heartbeatWrite .. | .plcCountClear .. | .ping | .keyChallenge .. | .tagRead .. => some []
  | .queuePortWrite .. | .queuePortRead .. | .noticeHoldExpiry .. | .queFlush .. => some [.que]
  | .storeMessage .. => some [.que, .bil, .sto]
  | .sampleTransfer .. => some [.que, .mtr, .bil, .tim]
  | .pathMismatch .. | .afeReferenceFault .. | .urmsRefresh .. => some [.que, .mtr, .bil]
  | .midPeriodReading .. => some [.mtr, .bil]
  | .harmonicWindowEnd .. | .pulseEmit .. | .capture .. | .mtrGainWrite .. => some [.mtr]
  | .captureComplete .. => some [.que, .mtr]
  | .calibrationWrite .. | .billingCfgWrite .. | .mdReset .. | .calArm .. | .calCancel .. | .overrideCmd .. |
    .tariffOverride .. => some [.bil]
  | .readSigned .. => some [.mtr, .bil]
  | .signatureComplete => some [.que, .bil, .key]
  | .wholeSecond | .timOffsetWrite .. | .timeSet .. | .timeAdjust .. | .alarmCancel .. | .cmpDisarm .. | .almArm ..
    | .almFire .. | .captureEdge .. | .residualSlewEnd => some [.tim]
  | .servoIntervalEnd => some [.bil, .tim]
  | .cmpArm .. | .cmpFire .. => some [.pwr, .tim]
  | .authorize .. | .canFrameRx .. | .canFrameTx .. | .gpFrameRx .. | .gpFrameTx .. => some [.que, .evc]
  | .deny .. | .evcStop .. | .suspend .. | .authTimeout .. | .lockConfirmTimeout .. | .energizeTimeout .. |
    .evOvercurrent .. | .moduleLost .. | .authMessage .. | .disconnect .. | .stopCharging .. => some [.que, .evc,
    .lsw]
  | .resume .. | .preauthExpiry .. | .pwmFallback .. | .dcStatusFrame .. | .slacParmRequest .. | .slacMatch .. |
    .slacLost .. | .reconnect .. | .loadLimit .. => some [.evc]
  | .faultClear .. => some [.que, .mtr, .bil, .evc, .lsw]
  | .stopWaitEnd .. => some [.evc, .lsw]
  | .feedbackChange .. | .resSelftestStart .. => some [.evc, .kao]
  | .closeWithdraw .. | .resTestExpire .. | .escalationWindowEnd .. | .switchSelftestComplete | .resTest .. |
    .tripTest .. => some [.kao]
  | .kaolinSourceActive .. | .kaolinSourceInactive .. | .releaseWindowEnd .. | .heartbeatPoll | .heartbeatLost | .graceEnd | .xcheckEvaluate ..
    | .resTestComplete .. | .imdMeasurement .. | .kaolinInternalFault .. | .tripTestForceEnd .. => some [.que, .evc,
    .kao]
  | .closeRequest .. => some [.que, .evc, .kao, .lsw]
  | .rearm .. | .confirm .. | .lockRelease .. => some [.que, .kao]
  | .swOn .. | .swOff .. | .swRelease .. | .inrushEnd .. | .thermalAutoRelease .. | .backoffEnd .. |
    .retryBudgetReset .. | .vlswUndervoltage .. | .vlswRecover .. | .loadShed .. | .limpChange .. | .linInputChange
    .. => some [.lsw]
  | .meshFrameRx .. | .meshTransmit .. | .meshDeferEnd .. | .ackTimeout | .beaconPeriod | .pairChangeBeacon | .beacon .. =>
    some [.que, .plc, .key]
  | .neighbourExpiry .. | .penaltyDecay | .routeClear .. | .zxConfirmation .. | .zxConfirmationEnd ..
    => some [.plc]
  | .meshTxComplete .. | .meshSignedReading .. => some [.que, .plc]
  | .zxMessage .. => some [.plc, .key]
  | .keyStage .. | .keyVerify .. | .keyDiscard .. | .keyDestroy .. | .keyGen .. | .keyRespond .. | .keyCheck .. |
    .keyAttest .. | .useCountCommit .. => some [.key]
  | .krootRemask | .auth1 .. => some [.key, .tag]
  | .tamperEvent => some [.que, .bil, .key, .tag]
  | .readerPoll .. | .readerExchange .. | .readerExchangeTimeout .. | .serviceFieldOn | .serviceFieldOff |
    .fieldWrite .. | .fieldInc .. | .fieldData .. | .fieldEnd .. | .sessionIdleTimeout | .svcEnd .. |
    .svcSignedReading .. => some [.que, .tag]
  | .rdrPoll .. | .fdetRelease | .getIdentity | .fieldRead .. | .tagStoreRecovery | .tagWrite .. | .tagDeferredWrite
    | .tagInc .. => some [.tag]
  | .auth2 .. => some [.que, .key, .tag]
  | .pnlUpdate .. | .adopt .. | .clear .. | .panelUpdateComplete .. | .panelClearComplete .. | .panelAutoClear |
    .stripUpdate | .panelPowerGood | .panelPowerDown | .panelFault .. | .panelWindowAccess .. | .panelMemoryAccess
    .. | .stressSave => some [.pnl]
  | .panelFrameInstant => some [.pnl, .tim]
  | .storeWindowAccess .. => some [.img, .bil, .sto]
  | .scrub .. | .stoCountClear .. | .scrubPass => some [.sto]
  | .scrubComplete .. => some [.bil, .sto]
  | .dataFrame .. | .bridgeQueueSend .. | .goReceived .. | .c0HoldRelease .. => some [.que, .aul]
  | .ringSync .. => some [.aul, .tim]
  | .delayReq .. | .delayResp .. | .delayExchangeTimer | .ringEnum .. | .ringRoute .. | .ringLink .. | .frameForward
    .. | .pauseReceived .. | .portDown .. | .portUp .. | .aulCountClear .. | .portRetrain .. => some [.aul]
  | .tamperInactive => some [.key]
  | _ => none

end Sys2Proof.Machine
end

