-- ==== Sys2Proof/Certificates/Slice0/Obligations.lean ====
section
/-! DEFINITION. The statements for the provers: what each command does where it is accepted, what it leaves as it was,
and what every step keeps. -/

open Sys2Proof Sys2Proof.Machine

/-! ### The queue of commands and the idle step -/

/-- A step with a command at the front of the queue is that command's effect on the state with the queue's rest. -/
def Obligations.StepRunsFront : Prop :=
  ∀ (c : Instr) (rest : List Instr) (s : State),
    step { s with pending := c :: rest } = exec c { s with pending := rest }

/-- With no command waiting, time passes (the model's choice, log entry 1, DESIGN CHOICE): while the part is powered and
its time counter runs, site time moves on by at most one sample period, and nothing but time and the trial timer
changes; a part that is held, or whose time counter has no clock, counts elapsed time only. A load switch whose restart
after an undervoltage is due by then restarts (R352); with none due no load switch changes. -/
def Obligations.IdleStep : Prop :=
  (∀ s : State, s.pending = [] →
    step s = .next (s.put s.dev.tick.restartDue) ∧
    (s.dev.pwr.held = false → s.dev.runs 11 = true →
      s.dev.tim.now < s.dev.tick.tim.now ∧ s.dev.tick.tim.now ≤ s.dev.tim.now + 62500 ∧
        s.dev.tick = { s.dev with tim := s.dev.tick.tim, img := s.dev.tick.img }) ∧
    (s.dev.pwr.held = true ∨ s.dev.runs 11 = false →
      s.dev.tick = { s.dev with tim := { s.dev.tim with elapsed := s.dev.tim.elapsed + 62500 } })) ∧
  (∀ d : Dev, d.restartDue = { d with lsw := { d.lsw with c := d.restartDue.lsw.c } } ∧
    ∀ c : Fin 16,
      ((∀ t0, (d.lsw.c[c]).restart = some t0 → d.tim.elapsed < t0) → d.restartDue.lsw.c[c] = d.lsw.c[c]) ∧
      (∀ t0, (d.lsw.c[c]).restart = some t0 → t0 ≤ d.tim.elapsed →
        (d.restartDue.lsw.c[c]).restart = none ∧ (d.restartDue.lsw.c[c]).since = t0 ∧
        (d.restartDue.lsw.c[c]).st = (if d.rfld 7 c.val 0 15 8 = 0 then .on else .inrush)))

/-! ### The Lattice (R83, R92 to R97) -/

/-- R83: the order in which a write of <GRP>_CMD is checked, for every command and meaning. R97: a write of <GRP>_CMD
that passes check 2 shows its opcode, the sequence of the agent's view plus 1 and the status in that agent's
<GRP>_CMDST, and in no other view. -/
def Obligations.CommandIssue : Prop :=
  (∀ (ag : Agent) (g op u : Nat) (arg : BitVec 24) (h : Dev → CmdSt × Dev) (d : Dev),
     (d.canIssue ag = false → issueCommand ag g op arg u h d = d) ∧
     (d.canIssue ag = true → d.granted ag g u .command = false → issueCommand ag g op arg u h d = d.permReject ag g) ∧
     (d.canIssue ag = true → d.granted ag g u .command = true → (d.busy.any fun b => groupNum b.group = g) = true →
       issueCommand ag g op arg u h d = (d.noteCommand ag g op .busy).answer ag .busy) ∧
     (d.ready ag g u → ∀ d1, h d = (.ok, d1) → issueCommand ag g op arg u h d = d1.completed ag g op) ∧
     (d.ready ag g u → ∀ t d1, h d = (.state t, d1) →
       issueCommand ag g op arg u h d = (d.noteCommand ag g op (.state t)).stateReject ag g u op t) ∧
     (d.ready ag g u → ∀ d1, h d = (.arg, d1) → issueCommand ag g op arg u h d = (d1.noteCommand ag g op .arg).answer ag .arg)) ∧
  (∀ (d : Dev) (ag other : Agent) (g op a : Nat) (st : CmdSt), op < 256 → g < 15 →
     (d.noteCommand ag g op st).view ag (cmdstAddr g) = packW [(8, op), (16, fld (d.view ag (cmdstAddr g)) 23 8 + 1), (8, st.code)] ∧
     (other ≠ ag → a < 2 ^ 32 → (d.noteCommand ag g op st).view other a = d.view other a))

/-- R92 to R95: the flag registers. A hardware set raises the 48-bit count by 1 and every bit it sets records it; a
read answers the low 16 bits of the count with the bits and keeps the full count for the reading agent alone; a clear
write is accepted when its token is the low 16 bits of the kept count, and then clears exactly the bits written 1
whose last set the kept count covers; with any other token it completes with ARG and clears nothing. A flag set after
the read stays. -/
def Obligations.FlagRegisters : Prop :=
  (∀ (f : FlagReg) (mask : Nat),
    (f.raise mask).count = (f.count + 1) % 2 ^ 48 ∧ (∀ ag, (f.raise mask).keptOf ag = f.keptOf ag) ∧
    ∀ i : Fin 16, (f.raise mask).bits.getLsbD i.val = (f.bits.getLsbD i.val || mask.testBit i.val) ∧
      (f.raise mask).lastSet[i] = (if mask.testBit i.val = true then (f.count + 1) % 2 ^ 48 else f.lastSet[i])) ∧
  (∀ f : FlagReg, fld f.word 31 16 = f.count % 2 ^ 16 ∧ fld f.word 15 0 = f.bits.toNat) ∧
  (∀ (f : FlagReg) (ag other : Agent), (f.noteRead (agentNum ag)).keptOf (agentNum ag) = f.count ∧
    (agentNum other ≠ agentNum ag → (f.noteRead (agentNum ag)).keptOf (agentNum other) = f.keptOf (agentNum other)) ∧
    (f.noteRead (agentNum ag)).bits = f.bits) ∧
  (∀ (f : FlagReg) (ag token : Nat), f.accepts ag token = true ↔ token = f.keptOf ag % 2 ^ 16) ∧
  (∀ (f : FlagReg) (ag mask : Nat) (i : Fin 16), (f.clear ag mask).count = f.count ∧ (f.clear ag mask).lastSet = f.lastSet ∧
    ((f.clear ag mask).bits.getLsbD i.val = true ↔
      f.bits.getLsbD i.val = true ∧ ¬(mask.testBit i.val = true ∧ f.lastSet[i] ≤ f.keptOf ag))) ∧
  (∀ (f : FlagReg) (ag mask set : Nat) (i : Fin 16), f.count + 1 < 2 ^ 48 → f.keptOf ag ≤ f.count → set.testBit i.val = true →
    ((f.raise set).clear ag mask).bits.getLsbD i.val = true) ∧
  ∀ (ag : Agent) (addr : Word) (s : State) (r : RegAt), s.dev.canIssue ag = true →
    mapped addr.toNat = some r → r.row.id.isFlags = true →
    s.dev.stoppedIsland (addrGroup addr.toNat) (addrUnit addr.toNat) = none →
    let a := lattice (addrGroup addr.toNat) (addrUnit addr.toNat) (addrOff addr.toNat)
    let f := s.dev.flagReg a
    (s.dev.granted ag (addrGroup addr.toNat) (addrUnit addr.toNat) .read = true → s.dev.wideValue r = none →
      (ag = .kaolin → kaolinReads (addrGroup addr.toNat) r.row.id = true) →
      exec (.flagsRead ag addr) s = .next (s.put ((s.dev.putFlag a (f.noteRead (agentNum ag))).answer ag .ok f.word))) ∧
    (s.dev.granted ag (addrGroup addr.toNat) (addrUnit addr.toNat) .write = true → isCmdAddr addr.toNat = false →
      s.dev.resume = [] → ∀ data : Word,
      (f.accepts (agentNum ag) (fld data 31 16) = true →
        exec (.flagsClearWrite ag addr data) s = .next (s.put
          ((s.dev.putFlag a (f.clear (agentNum ag) (fld data 15 0))).answer ag .ok))) ∧
      (f.accepts (agentNum ag) (fld data 31 16) = false →
        exec (.flagsClearWrite ag addr data) s = .next (s.put (s.dev.answer ag .arg))))

/-- R34: a read of the lower word of a 64-bit quantity answers that word and captures the higher one for the reading
agent: of a quantity the device shows, and of one that is set by two words. The next read of the higher word by that
agent answers the captured one, whatever has happened to the quantity since. R89: LATTICE_WRITE of a setting with no
rule of its own is accepted, changes its RW fields at once, and places its RWS fields into the staged copy, the live
ones staying as they are. -/
def Obligations.WideReadsAndSettings : Prop :=
  (∀ (ag : Agent) (addr : Word) (s : State) (r : RegAt), s.dev.canIssue ag = true → mapped addr.toNat = some r →
    (ag = .kaolin → kaolinReads (addrGroup addr.toNat) r.row.id = true) →
    s.dev.stoppedIsland (addrGroup addr.toNat) (addrUnit addr.toNat) = none →
    s.dev.granted ag (addrGroup addr.toNat) (addrUnit addr.toNat) .read = true →
    let a := lattice (addrGroup addr.toNat) (addrUnit addr.toNat) (addrOff addr.toNat)
    (∀ v, s.dev.wideValue r = some v →
      exec (.wideReadCapture ag addr) s = .next (s.put ((s.dev.setView ag (a + 4) (hi32 v)).answer ag .ok (w32 v)))) ∧
    (s.dev.wideValue r = none → r.row.id.isFlags = false → r.row.id.perAgent = false → r.row.id.isHigh = false →
      r.row.id.settingLow = true →
      exec (.wideReadCapture ag addr) s = .next (s.put
        (((s.dev.setView ag a 1).setView ag (a + 4) (s.dev.regs.value (a + 4))).answer ag .ok (s.dev.regs.value a)))) ∧
    (s.dev.wideValue r = none → r.row.id.isFlags = false → r.row.id.perAgent = false → r.row.id.isHigh = true →
      ∃ t, exec (.wideReadCapture ag addr) s = .next t ∧ t.dev.reply.status = 0 ∧ t.dev.reply.data = s.dev.view ag a)) ∧
  (∀ (ag : Agent) (addr data : Word) (s : State) (r : RegAt), s.dev.canWrite ag (addrGroup addr.toNat) (addrUnit addr.toNat) →
    mapped addr.toNat = some r → isCmdAddr addr.toNat = false → s.dev.resume = [] →
    let a := lattice (addrGroup addr.toNat) (addrUnit addr.toNat) (addrOff addr.toNat)
    s.dev.writeReg (some ag) (addrGroup addr.toNat) (addrUnit addr.toNat) r a data =
      s.dev.writeSetting (addrGroup addr.toNat) (addrUnit addr.toNat) r.row a data →
    s.dev.settingOk r.row.id (addrUnit addr.toNat) data = true →
    stopChange r.row (s.dev.func? (groupOf (addrGroup addr.toNat)) (addrUnit addr.toNat)) (s.dev.regs.value a) data = false →
    ∃ t, exec (.latticeWrite ag addr data) s = .next t ∧ t.dev.reply.status = 0 ∧
      t.dev = (s.dev.writeFields r.row a 0 data).answer ag .ok ∧
      t.dev.regs.value a = w32 (mergeMask (s.dev.regs.value a).toNat data.toNat r.row.rw) ∧
      (r.row.rws = 0 → t.dev.staged = s.dev.staged) ∧
      (r.row.rw &&& r.row.rws = 0 → r.row.rw < 2 ^ 32 → r.row.rws < 2 ^ 32 →
        ((t.dev.staged.find a).getD (t.dev.regs.value a)).toNat &&& r.row.rws = data.toNat &&& r.row.rws))

/-! ### Functions and islands (R102 to R113) -/

/-- R104: FUNC_STOP of a RUNNING function that its chapter does not refuse, FUNC_START of an OFF or STOPPED one whose
start conditions hold, and FUNC_RESTART of a STOPPED or FAULT one complete with OK. R104: what those commands leave: a
stopped function reads STOPPED, a started one RUNNING, a restarted one STOPPED, for every function but the service
tag, which refuses them (R422), and FUNC_START of the panel, whose start also needs its supplies. -/
def Obligations.FunctionCommands : Prop :=
  (∀ (ag : Agent) (g : Group) (arg : BitVec 24) (s : State) (f : Func),
     s.dev.ready ag (groupNum g) (argUnit arg) → argBits arg 15 0 = 0 → s.dev.func? g (argUnit arg) = some f →
     (f.st = .running → s.dev.stopRefused g (argUnit arg) = false →
       exec (.funcStop ag g arg) s = .next (s.put ((s.dev.stopFunc g (argUnit arg)).completed ag (groupNum g) 1))) ∧
     (f.idle = true → s.dev.startReady g (argUnit arg) = true →
       exec (.funcStart ag g arg) s = .next (s.put ((s.dev.startFunc g (argUnit arg)).completed ag (groupNum g) 2))) ∧
     (f.st = .stopped ∨ f.st = .fault →
       exec (.funcRestart ag g arg) s = .next (s.put ((s.dev.restartFunc g (argUnit arg)).completed ag (groupNum g) 3)))) ∧
  (∀ (d : Dev) (g : Group) (u : Nat) (f : Func), d.func? g u = some f → ¬(g = .tag ∧ u = 1) →
     ((d.stopFunc g u).func? g u).map (·.st) = some .stopped ∧
     (g ≠ .pnl → ((d.startFunc g u).func? g u).map (·.st) = some .running) ∧
     ((d.restartFunc g u).func? g u).map (·.st) = some .stopped)

/-- R28, R109, R110, R113: ISLAND_STOP of a running island that is not always-run and whose functions are OFF or
STOPPED, ISLAND_START of a stopped island whose clock or field is present, and ISLAND_RESET of an island that is not
always-run complete with OK; the first two change the island's run bit and no other part, the third aborts its hung
accesses, returns the island to its power-on state and stops it. An always-run island refuses ISLAND_STOP and
ISLAND_RESET with STATE; the field of islands 13 and 14 is that of their reader and tag, and an island that never lost
its clock has it. A running island whose clock is lost stops and SYS_FLAGS shows it. A write into a stopped island hangs
without an answer, and the stall monitor notes an access that has hung for 100 µs. -/
def Obligations.Islands : Prop :=
  (∀ (ag : Agent) (arg : BitVec 24) (s : State), s.dev.ready ag 0 0xFF → argUnit arg ≤ 15 →
     (s.dev.runs (argUnit arg) = true → alwaysRun (argUnit arg) = false → s.dev.islandFree (argUnit arg) = true →
       exec (.islandStop ag arg) s = .next (s.put ((s.dev.setRun (argUnit arg) false).completed ag 0 0x10))) ∧
     (∀ d1, s.dev.runs (argUnit arg) = false → s.dev.clockPresent (argUnit arg) = (true, d1) →
       ∃ t, exec (.islandStart ag arg) s = .next t ∧ t.dev.runs (argUnit arg) = true ∧ t.dev.reply.status = 0 ∧
         t.dev.clockLost.getLsbD (argUnit arg) = false ∧
         (∀ j, j ≤ 15 → j ≠ argUnit arg → t.dev.runs j = s.dev.runs j) ∧
         t.dev = { s.dev with islandRun := t.dev.islandRun, clockLost := t.dev.clockLost, views := t.dev.views,
                              reply := t.dev.reply, fresh := t.dev.fresh }) ∧
     (alwaysRun (argUnit arg) = true →
       exec (.islandStop ag arg) s = .next (s.put ((s.dev.noteCommand ag 0 0x10 (.state (b1 (s.dev.runs (argUnit arg))))).stateReject
         ag 0 0xFF 0x10 (b1 (s.dev.runs (argUnit arg))))) ∧
       exec (.islandReset ag arg) s = .next (s.put (((s.dev.noteCommand ag 0 0x12 (.state (b1 (s.dev.runs (argUnit arg))))).stateReject
         ag 0 0xFF 0x12 (b1 (s.dev.runs (argUnit arg)))).settleReleased))) ∧
     (alwaysRun (argUnit arg) = false →
       exec (.islandReset ag arg) s = .next (s.put
         ((((s.dev.abortHung (argUnit arg)).resetIsland (argUnit arg)).setRun (argUnit arg) false).completed ag 0 0x12).settleReleased))) ∧
  ((∀ (d : Dev) (i j : Nat) (on : Bool), i ≤ 15 → j ≤ 15 → (d.setRun i on).runs i = on ∧
     (j ≠ i → (d.setRun i on).runs j = d.runs j) ∧ d.setRun i on = { d with islandRun := (d.setRun i on).islandRun }) ∧
   (∀ (d : Dev) (i : Nat), ∀ h ∈ (d.abortHung i).hung, h.island ≠ i) ∧
   (∀ (d : Dev) (n : Fin 8), nbit (d.persona 7) n.val = true → (d.evc.s[n]).fn.st = .running →
     ((d.resetIsland (2 + n.val)).evc.s[n]).fn = { st := .fault, code := 0xFF }) ∧
   (∀ d : Dev, d.clockPresent 13 = (d.tag.rfField, d) ∧ d.clockPresent 14 = (d.tag.field, d) ∧
     ∀ i, i ≠ 13 → i ≠ 14 → d.clockLost.getLsbD i = false → d.clockPresent i = (true, d))) ∧
  ((∀ (i : Fin 16) (s : State), s.dev.runs i.val = true →
     ∃ t, exec (.islandClockLoss i) s = .next t ∧ t.dev.runs i.val = false ∧ t.dev.clockLost.getLsbD i.val = true ∧
       t.dev.flagBit 0 0 0x10 4 = true ∧ (∀ j, j ≤ 15 → j ≠ i.val → t.dev.runs j = s.dev.runs j) ∧
       t.dev = { s.dev with islandRun := t.dev.islandRun, clockLost := t.dev.clockLost, flags := t.dev.flags }) ∧
   (∀ (i : Fin 16) (s : State), s.dev.runs i.val = false → exec (.islandClockLoss i) s = .next s) ∧
   (∀ (ag : Agent) (addr data : Word) (s : State) (r : RegAt) (isl : Nat), s.dev.canIssue ag = true →
     s.dev.granted ag (addrGroup addr.toNat) (addrUnit addr.toNat) .write = true → mapped addr.toNat = some r →
     isCmdAddr addr.toNat = false → s.dev.resume = [] →
     s.dev.stoppedIsland (addrGroup addr.toNat) (addrUnit addr.toNat) = some isl →
     exec (.latticeWrite ag addr data) s = .next (s.put (s.dev.hang ag isl addr.toNat))) ∧
   (∀ (s : State) (h : HungAccess), h ∈ s.dev.hung → h.noted = false → h.since + 100000 ≤ s.dev.tim.elapsed →
     ∃ t, exec .stallDetect s = .next t ∧ { h with noted := true } ∈ t.dev.hung ∧ t.dev.flagBit 0 0 0x10 0 = true ∧
       t.dev = { s.dev with hung := t.dev.hung, flags := t.dev.flags }))

/-! ### Structure images and start-up (R61 to R78, R190, R523) -/

/-- R68, R69, R70: SI_VERIFY of a slot whose image passes records the differing sections and affected slices, and of
one that fails its reason and rule; an accepted SI_RELOAD of a verified slot waits for its swap, RELOADING; the swap
puts the prepared image into use. R70: after SI_RELOAD_SWAP the prepared image is the loaded one, its slot is the
active slot, and nothing is prepared any more. -/
def Obligations.ImageReload : Prop :=
  (∀ (ag : Agent) (arg : BitVec 24) (s : State), s.dev.ready ag 14 0xFF → argUnit arg ≤ 1 → s.dev.img.prepared = none →
     (∀ im d1, argBits arg 15 0 = 0 → s.dev.checkSlot (argUnit arg) = (.inl im, d1) →
       ∃ t, exec (.siVerify ag arg) s = .next t ∧ t.dev.img.reason = 0 ∧ t.dev.img.diffSlot = argUnit arg ∧
         t.dev.img.diffSections = s.dev.differing im ∧
         t.dev.img.diffSlices = ((s.dev.affectedSlices im).map fun (n : Fin 8) => 2 ^ n.val).sum ∧
         argUnit arg ∈ t.dev.img.verified ∧
         t.dev.img.loaded = d1.img.loaded ∧ fld (t.dev.view ag (cmdstAddr 14)) 7 0 = 0) ∧
     (∀ r k d1, argBits arg 15 0 = 0 → s.dev.checkSlot (argUnit arg) = (.inr (r, k), d1) →
       ∃ t, exec (.siVerify ag arg) s = .next t ∧ t.dev.img.reason = r ∧ t.dev.img.rule = k ∧ argUnit arg ∉ t.dev.img.verified ∧
         t.dev.img.loaded = d1.img.loaded ∧ t.dev.reply.status = (if r = 7 then 5 else 4)) ∧
     (argBits arg 15 8 = 0 → argUnit arg ∈ s.dev.img.verified →
       argBits arg 7 0 = s.dev.differing (s.dev.rawImage (argUnit arg)).decode →
       s.dev.reloadState (s.dev.rawImage (argUnit arg)).decode = true →
       exec (.siReload ag arg) s = .next (s.put
         ({ s.dev with img := { s.dev.img with
             prepared := some ((s.dev.rawImage (argUnit arg)).decode, argUnit arg, argBits arg 7 0)
             load := .reloading, lastMask := argBits arg 7 0 } }.completed ag 14 0x21)))) ∧
  (∀ (s : State) (im : Image) (slot mask : Nat), s.dev.img.prepared = some (im, slot, mask) →
     ∃ t, exec .siReloadSwap s = .next t ∧ t.dev.img.loaded = some im ∧ t.dev.img.activeSlot = slot ∧
       t.dev.img.prepared = none ∧ t.dev.img.load = .loaded)

/-- COLD_RESET releases the power-on reset from every state: SYS_RESET_CAUSE shows the cause, no function has started,
the core is A0, nothing waits, every load switch is off and every contactor driver is open, and the restore of billing
is done when an image is loaded. AUTO_FUNCTION_START, at a period boundary after the configuration load and the restore
and with a configuration area in use, starts the functions that the hardware starts one after another: each that is OFF
and whose start conditions hold. -/
def Obligations.StartUp : Prop :=
  (∀ (cause : ColdCause) (s : State),
     ∃ t, exec (.coldReset cause) s = .next t ∧ t.pending = s.pending ∧ t.dev.pwr.held = false ∧
       t.dev.pwr.coldCause = coldCode cause ∧ t.dev.pwr.siltFound = s.dev.pwr.siltReset ∧ t.dev.pwr.pf = false ∧
       t.dev.img.started = false ∧ t.dev.img.restoreDone = t.dev.img.loaded.isSome ∧ t.dev.coreA1 = false ∧ t.dev.busy = [] ∧ t.dev.hung = [] ∧
       (∀ n : Fin 8, (t.dev.kao.m[n]).ken = false) ∧ ∀ c : Fin 16, (t.dev.lsw.c[c]).st = .off) ∧
  (∀ s : State, s.dev.img.loaded.isSome = true → s.dev.img.cfgDone = true → s.dev.img.restoreDone = true →
     s.dev.img.started = false → s.dev.pwr.held = false → s.dev.tim.now % 200000000 = 0 → s.dev.areaInUse.isSome = true →
     ∃ t, exec .autoFunctionStart s = .next t ∧ t.dev.img.started = true ∧
       t.dev = hardwareFunctions.foldl (fun (acc : Dev) (f : Group × Nat) => acc.tryStartFunc f.1 f.2)
         { s.dev with img := { s.dev.img with started := true } })

/-! ### Power (R507 to R526) -/

/-- R515, R517: a trip sets pf and SYS_PWR_FLAGS.pf_trip; the first trip of a hold-up stops STO writes, the mesh modem
and the panel, and a later one during the wait only restarts the wait. RESET_N low is such a trip (R519). The
threshold crossings below it release every contactor driver, stop sampling and the Aulan ports, and stop the store
writer. R507, R509, R525, R526: a low VSILT and a pilot supply out of its range set their SYS_PWR_FLAGS bits; a
housekeeping scan, asked for or periodic, shows what it read, with the temperatures valid from −40 to +125 °C only, and
each within a step of 0.1 °C below the conversion of its type. -/
def Obligations.PowerSupply : Prop :=
  ((∀ (mv : Nat) (s : State), s.dev.pwr.held = false → s.dev.pwr.pf = false →
     ∃ t, exec (.powerFailTrip mv) s = .next t ∧ t.dev.pwr.pf = true ∧ t.dev.pwr.tTrip = s.dev.tim.elapsed ∧
       t.dev.sto.holdup = true ∧ t.dev.plc.stopped = true ∧ t.dev.pnl.stopped = true ∧
       t.dev = (({ s.dev with pwr := { s.dev.pwr with pf := true, tTrip := s.dev.el } }.raisePwr 0).pfNotice 0 mv).startHoldup) ∧
   (∀ (mv : Nat) (s : State), s.dev.pwr.held = false → s.dev.pwr.pf = true →
     exec (.powerFailTrip mv) s = .next (s.put
       (({ s.dev with pwr := { s.dev.pwr with tTrip := s.dev.el } }.raisePwr 0).pfNotice 0 mv))) ∧
   (∀ (mv : Nat) (s : State), s.dev.pwr.held = false →
     ∃ t, exec (.resetNLow mv) s = .next t ∧ t.dev.pwr.resetReq = true ∧ t.dev.pwr.pf = true) ∧
   (∀ s : State, s.dev.pwr.pf = true →
     (∃ t, exec .switchUndervoltage s = .next t ∧ t.dev.pwr.uvlo = true ∧ ∀ n : Fin 8, (t.dev.kao.m[n]).ken = false) ∧
     (∃ t, exec .samplingCutoff s = .next t ∧ t.dev.mtr.stopped = true ∧ t.dev.aul.stopped = true) ∧
     exec .storeWriterStop s = .next (s.put { s.dev with sto := { s.dev.sto with stopped := true } }))) ∧
  (∀ s : State, s.dev.pwr.held = false →
     (∃ t, exec .vsiltLow s = .next t ∧ t.dev.pwr.vsiltLow = true ∧ t.dev.flagBit 0 1 8 1 = true ∧
       t.dev = { s.dev with pwr := t.dev.pwr, flags := t.dev.flags }) ∧
     (∀ (positive : Bool) (mv : Int), pilotSupplyOk positive mv = false →
       ∃ t, exec (.vpilotFault positive mv) s = .next t ∧ t.dev.flagBit 0 1 8 2 = true ∧
         (if positive then t.dev.pwr.vposOk else t.dev.pwr.vnegOk) = false ∧
         t.dev = { s.dev with pwr := t.dev.pwr, flags := t.dev.flags }) ∧
     (∀ r : HkReadings, s.dev.pwr.hkReq = true ∨ s.dev.due keyHk 10000000 = true →
       ∃ t, exec (.hkScan r) s = .next t ∧ t.dev.pwr.vmainMv = r.vmain ∧ t.dev.pwr.vsiltMv = r.vsilt ∧ t.dev.pwr.hkReq = false ∧
         t.dev.pwr.vposMv = r.vpos ∧ t.dev.pwr.vnegMv = r.vneg ∧ t.dev.pwr.vsiltLow = decide (r.vsilt < 2200) ∧
         ∀ x : Fin 16, (t.dev.pwr.hkMv[x]) = r.hk.getD x.val 0 ∧
           ∀ v, (t.dev.pwr.hkTemp[x]) = some v → -400 ≤ v ∧ v ≤ 1250 ∧ (s.dev.hkType x.val = 2 ∨ s.dev.hkType x.val = 3) ∧
            (notColder (s.dev.hkType x.val) (r.hk.getD x.val 0) v = true ∨
             notColder (s.dev.hkType x.val) (r.hk.getD x.val 0) (v - 1) = true)))

/-- R515 step 8, R517: the power-on reset, and the reset after a hold-up once VMAIN has been good for 10 ms and
the snapshot is 10 ms old, hold every die, with every contactor driver and every load switch off, and keep the retained
store and the confirmation cell; the first keeps the RTC, KROOT, the tag store and the event log where VSILT is there
and loses KROOT and the RTC where it is not; the second commits the tail first. R510, R520: without VMAIN a Silt reset
loses KROOT, the RTC, the snapshot pointer and the tag copy of K8, and keeps the tag store and the retained store. R113,
R477, R520: WARM_RESET with argument 0 completes with OK, and the reset follows: the core is A0 again, its views are
cleared and the warm cause is COMMAND. -/
def Obligations.DieResets : Prop :=
  ((∀ s : State, s.dev.pwr.held = false →
     ∃ t, exec .powerOnReset s = .next t ∧ t.dev.pwr.held = true ∧ t.dev.pwr.tOff = some s.dev.tim.elapsed ∧
       (∀ n : Fin 8, (t.dev.kao.m[n]).ken = false) ∧ (∀ c : Fin 16, (t.dev.lsw.c[c]).st = .off) ∧
       t.dev.sto.mram = s.dev.sto.mram ∧ t.dev.kao.cellA = s.dev.kao.cellA ∧ t.dev.kao.cellB = s.dev.kao.cellB ∧
       t.dev.tag.store = s.dev.tag.store ∧
       (s.dev.pwr.siltGone = false → t.dev.tim.rtc = s.dev.tim.rtc ∧ t.dev.tim.rtcValid = s.dev.tim.rtcValid ∧
         t.dev.key.share = s.dev.key.share ∧ t.dev.log = s.dev.log) ∧
       (s.dev.pwr.siltGone = true → t.dev.tim.rtcValid = false ∧ t.dev.key.share = none ∧ t.dev.pwr.siltReset = true)) ∧
   (∀ s : State, s.dev.brownoutDue = true →
     ∃ t, exec .brownoutReset s = .next t ∧ t.dev.pwr.held = true ∧ t.dev.bil.tail = s.dev.updateTail.bil.tail ∧
       (∀ n : Fin 8, (t.dev.kao.m[n]).ken = false) ∧ (∀ c : Fin 16, (t.dev.lsw.c[c]).st = .off) ∧
       t.dev.sto.mram = s.dev.sto.mram ∧ t.dev.kao.cellA = s.dev.kao.cellA ∧ t.dev.kao.cellB = s.dev.kao.cellB)) ∧
  (∀ s : State, s.dev.pwr.held = true →
     ∃ t, exec .siltReset s = .next t ∧ t.dev.key.share = none ∧ t.dev.tim.rtcValid = false ∧ t.dev.bil.siltPtr = none ∧
       t.dev.tag.keyCopy = none ∧ t.dev.tag.sess = none ∧ t.dev.pwr.siltReset = true ∧
       t.dev.tag.store = s.dev.tag.store ∧ t.dev.sto.mram = s.dev.sto.mram) ∧
  (∀ (ag : Agent) (s : State), s.dev.ready ag 0 0xFF →
     ∃ t, exec (.warmReset ag 0) s = .next t ∧ t = s.put (((s.dev.askReset 1).completed ag 0 0x18).warmReset 1) ∧
       t.dev.reply.status = 0 ∧ t.dev.coreA1 = false ∧ t.dev.pwr.warmKind = true ∧ t.dev.pwr.warmCause = 1 ∧
       t.dev.pwr.warmDue = none ∧ ∀ a, a < 2 ^ 32 → t.dev.view .boot a = 0 ∧ t.dev.view .core a = 0)

/-! ### Firmware (R475 to R482) -/

/-- R477, R480: the firmware commands in the slot states that accept them. R478 step 6, R479: FIRMWARE_START gives the
core to the selected slot as A1; a trial of 600 s without FW_CONFIRM ends in a warm reset with cause TRIAL_TIMER.
R481: in recovery mode the ROM takes the front message of the recovery input whose turn it is: a block with its words
in range goes into an open slot and is acknowledged with OK; RCV_DONE pends the slot and a warm reset with cause
RECOVERY follows. R463: a changed boot record goes to the older copy with sequence + 1, and the newer copy stays. -/
def Obligations.Firmware : Prop :=
  (∀ (ag : Agent) (arg : BitVec 24) (s : State), s.dev.ready ag 14 0xFF → fwArgOk arg = true →
     (s.dev.fwState (argUnit arg) = 0 ∨ s.dev.fwState (argUnit arg) = 5 ∨ s.dev.fwState (argUnit arg) = 6 →
       s.dev.trialRuns = false →
       exec (.fwOpen ag arg) s = .next (s.put
         (((s.dev.setFw (argUnit arg) 1).storeWrite (fwAddr (argUnit arg)) (List.replicate 64 0)).completed ag 14 0x10))) ∧
     (s.dev.fwState (argUnit arg) = 1 ∨ s.dev.fwState (argUnit arg) = 6 → s.dev.fwState (1 - argUnit arg) ≠ 2 →
       s.dev.fwState (1 - argUnit arg) ≠ 3 → s.dev.fwHeaderReason (argUnit arg) = 0 →
       exec (.fwPending ag arg) s = .next (s.put (((s.dev.setFw (argUnit arg) 2).raiseImg 0).completed ag 14 0x11))) ∧
     (s.dev.fwState (argUnit arg) = 1 ∨ s.dev.fwState (argUnit arg) = 6 → s.dev.fwState (1 - argUnit arg) ≠ 2 →
       s.dev.fwState (1 - argUnit arg) ≠ 3 → s.dev.fwHeaderReason (argUnit arg) ≠ 0 →
       exec (.fwPending ag arg) s = .next (s.put
         (({ s.dev with img := { s.dev.img with pendReason := s.dev.fwHeaderReason (argUnit arg) } }.noteCommand ag 14 0x11
           .arg).answer ag .arg))) ∧
     (ag = .core → s.dev.img.running < 2 → s.dev.fwState s.dev.img.running = 3 →
       ∃ t, exec (.fwConfirm ag arg) s = .next t ∧ t.dev.fwState s.dev.img.running = 4 ∧ t.dev.img.trialSec = 0 ∧
         t.dev.img.boots = 0 ∧ (t.dev.bil.tamper[16]).count = satAdd 32 (s.dev.bil.tamper[16]).count 1 ∧
         t.dev.flagBit 14 0 0x18 2 = true) ∧
     (∀ slot, s.dev.fwIn 3 = none → s.dev.fwIn 2 = some slot →
       exec (.fwRevert ag arg) s = .next (s.put (((s.dev.setFw slot 1).completed ag 14 0x13).settleReset)))) ∧
  ((∀ (s : State) (slot : Nat), s.dev.img.selected = some slot → s.dev.coreA1 = false → s.dev.pwr.held = false →
     s.dev.hangs .boot = false →
     exec .firmwareStart s = .next (s.put
       { s.dev with coreA1 := true, img := { s.dev.img with running := slot, selected := none } })) ∧
   (∀ s : State, s.dev.trialRuns = true → 600 ≤ s.dev.img.trialSec → s.dev.pwr.held = false →
     exec .trialTimeout s = .next (s.put (s.dev.warmReset 2)))) ∧
  (∀ d : Dev, d.img.bootRecord d.img.bootNewest.seq ≠ d.img.bootNewest →
     d.bootCommit.img.bootNewest = d.img.bootRecord (d.img.bootNewest.seq + 1) ∧
     (d.img.bootNewerB = true → d.bootCommit.img.bootB = d.img.bootB) ∧
     (d.img.bootNewerB = false → d.bootCommit.img.bootA = d.img.bootA)) ∧
  (∀ (q : Fin 64) (cs : List WordCheck) (s : State) (m : QMsg) (ms : List QMsg) (ws : List QData) (d1 : Dev),
     s.dev.inRecovery = true → s.dev.rcvTurn q = true → (s.dev.freshFront q).que.q[q].msgs = m :: ms →
     (s.dev.freshFront q).rcvTake q cs = (some ws, d1) →
     (hdrType (msgHead m.words) ≠ 0x71 →
       (hdrType (msgHead ws) = 0x70 → rcvBlockOk ws = true → d1.fwState (bits (ws.getD 1 0).toNat 63 56) = 1 →
         d1.sto.holdup = false →
         exec (.rcvBlock ⟨q, cs⟩) s = .next (s.put
           ((d1.storeWrite (fwAddr (bits (ws.getD 1 0).toNat 63 56) + bits (ws.getD 1 0).toNat 55 32)
               ((unpackWords (ws.drop 2)).take (bits (ws.getD 1 0).toNat 31 16))).rcvAck
             s.dev.que.q[q].entry.prod (bits (ws.getD 1 0).toNat 63 56) (bits (ws.getD 1 0).toNat 55 32) 0))) ∧
       (hdrType (msgHead ws) ≠ 0x70 → exec (.rcvBlock ⟨q, cs⟩) s = .next (s.put d1))) ∧
     (hdrType (msgHead m.words) = 0x71 →
       (isPoison ws = true → exec (.rcvDone ⟨q, cs⟩) s = .next (s.put d1)) ∧
       (isPoison ws = false → d1.fwState (bits (m.words.getD 1 0).toNat 63 56) = 1 →
         ∀ k d3, d1.romCommand 0x11 (bits (m.words.getD 1 0).toNat 63 56) fwPendingCmd = (k, d3) →
         exec (.rcvDone ⟨q, cs⟩) s = .next (s.put
           (if k = 0 then (d3.rcvAck s.dev.que.q[q].entry.prod (bits (m.words.getD 1 0).toNat 63 56) 0 0).warmReset 4
             else d3.rcvAck s.dev.que.q[q].entry.prod (bits (m.words.getD 1 0).toNat 63 56) 0 k)))))

/-! ### The retained store (R459 to R472) -/

/-- R465, R466: a read of STO_DATA answers the word at the agent's STO_ADDR and advances it; a write outside hold-up
into an area that permits it lands there and advances it. R462: SCRUB starts a pass, one starts 24 h after the last,
and a pass that completes counts what it corrected and sets STO_FLAGS.scrub_done; COUNT_CLEAR clears STO_ECC. R131,
R467: a message of the store writer whose words are all correctable is committed to its area: a signed block into its
ring. -/
def Obligations.RetainedStore : Prop :=
  (∀ (ag : Agent) (s : State), s.dev.canIssue ag = true →
     (s.dev.granted ag 13 0 .read = true → stoArea (s.dev.stoAddr ag) ≠ .keyRecords →
       exec (.storeWindowAccess ag none) s = .next (s.put
         (((s.dev.stoWord (s.dev.stoAddr ag)).2.stoAdvance ag).answer ag .ok (s.dev.stoWord (s.dev.stoAddr ag)).1))) ∧
     (∀ v, s.dev.granted ag 13 0 .write = true → (stoArea (s.dev.stoAddr ag)).writeRefused ag = none →
       s.dev.sto.holdup = false → s.dev.stoWritable (stoArea (s.dev.stoAddr ag)) = true →
       exec (.storeWindowAccess ag (some v)) s = .next (s.put
         ((((s.dev.storeWrite (s.dev.stoAddr ag) (leBytes 4 v.toNat)).stoNote ag (s.dev.stoAddr ag)
           (stoArea (s.dev.stoAddr ag))).stoAdvance ag).answer ag .ok)))) ∧
  ((∀ (ag : Agent) (arg : BitVec 24) (s : State), s.dev.ready ag 13 0xFF →
     exec (.scrub ag arg) s = .next (s.put ({ s.dev with sto := { s.dev.sto with scrubRunning := true } }.completed ag 13 0x10)) ∧
     exec (.stoCountClear ag arg) s = .next (s.put
       ({ s.dev with sto := { s.dev.sto with eccBad := 0, eccFixed := 0 } }.completed ag 13 0x11))) ∧
   (∀ s : State, s.dev.sto.scrubRunning = false → s.dev.sto.holdup = false →
     s.dev.sto.scrubAt + 86400000000000 ≤ s.dev.tim.elapsed →
     exec .scrubPass s = .next (s.put { s.dev with sto := { s.dev.sto with scrubRunning := true } })) ∧
   (∀ (k : Nat) (s : State), s.dev.sto.scrubRunning = true →
     ∃ t, exec (.scrubComplete k []) s = .next t ∧ t.dev.sto.scrubRunning = false ∧ t.dev.sto.scrubAt = s.dev.tim.elapsed ∧
       t.dev.sto.eccFixed = satAdd 16 s.dev.sto.eccFixed k ∧ t.dev.sto.mram = s.dev.sto.mram ∧ t.dev.flagBit 13 0 0x18 4 = true)) ∧
  (∀ (q : Fin 64) (cs : List WordCheck) (s : State) (m : QMsg) (ms : List QMsg), s.dev.que.q[q].entry.cons = 3 →
     s.dev.sto.holdup = false → (s.dev.freshFront q).serves q = true → (s.dev.freshFront q).que.q[q].msgs = m :: ms →
     poisonSpan m ms cs = 0 → ∀ d1, (s.dev.freshFront q).takeMsg q cs = (some m.words, d1) →
     exec (.storeMessage q cs) s = .next (s.put (d1.storeBlock m.words)) ∧
       (hdrType (msgHead m.words) = 0x20 → (d1.storeBlock m.words).sto.mram =
         (d1.storeWrite (readingAddr d1.bil.rdCount) ((unpackWords m.words.tail).take 448 ++ List.replicate 64 0)).sto.mram) ∧
       (hdrType (msgHead m.words) = 0x21 → (d1.storeBlock m.words).sto.mram =
         (d1.storeWrite (karurnAddr d1.bil.karCount) ((unpackWords m.words.tail).take 256)).sto.mram))

/-! ### Queues (R120 to R139) -/

/-- R121, R122, R544: the core's queue port. A header that finds room for its whole message is taken with result OK: a
message of one word is committed at once, a longer one reserves its room, and its word with notice mark 1 commits it.
A header that finds no room answers FULL and writes nothing, and one that declares more than 256 words, in C0 more than
8, answers LONG, as does a word beyond the declared ones (log entry 97, DESIGN CHOICE). What is left of a message that a
flush cut is taken with OK and discarded. A read takes the front word of what read-out does not discard with result OK,
or finds EMPTY; a word with a double-bit error answers POISON. A queue of another producer or consumer answers NOT_CORE.
While the core waits on a hung access its port stands still. -/
def Obligations.QueuePort : Prop :=
  (∀ (q : Fin 64) (w : QData) (mark : Bool) (cs : List WordCheck) (s : State), s.dev.coreHangs = true →
    exec (.queuePortWrite q w mark) s = .next s ∧ exec (.queuePortRead q cs) s = .next s) ∧
  ∀ (q : Fin 64) (w : QData) (s : State), s.dev.coreHangs = false →
    (s.dev.coreIs s.dev.que.q[q].entry.prod = true →
      (s.dev.que.q[q].dropRest = 0 → s.dev.que.q[q].building = [] →
        (hdrLen w + 1 ≤ 256 → (s.dev.que.q[q].entry.cls = 0 → hdrLen w + 1 ≤ 8) →
          (s.dev.que.q[q].room (hdrLen w + 1) = true →
            exec (.queuePortWrite q w true) s = .next (s.put ((s.dev.commit q [w]).portDone 0 0)) ∧
            exec (.queuePortWrite q w false) s = .next (s.put
              ((s.dev.updQ q fun x => { x with building := [w], reserved := hdrLen w + 1 }).portDone 0 0))) ∧
          (s.dev.que.q[q].room (hdrLen w + 1) = false →
            ∀ mark, exec (.queuePortWrite q w mark) s = .next (s.put ((s.dev.raiseQue q.val 1).portDone 2 0)))) ∧
        (256 < hdrLen w + 1 ∨ (s.dev.que.q[q].entry.cls = 0 ∧ 8 < hdrLen w + 1) →
          ∀ mark, exec (.queuePortWrite q w mark) s = .next (s.put (s.dev.portDone 4 0)))) ∧
      (s.dev.que.q[q].dropRest = 0 → s.dev.que.q[q].building ≠ [] →
        (s.dev.que.q[q].building.length < s.dev.que.q[q].reserved →
          exec (.queuePortWrite q w true) s = .next (s.put
            (((s.dev.updQ q fun x => { x with building := [], reserved := 0 }).commit q (s.dev.que.q[q].building ++ [w])).portDone 0 0)) ∧
          exec (.queuePortWrite q w false) s = .next (s.put
            ((s.dev.updQ q fun x => { x with building := x.building ++ [w] }).portDone 0 0))) ∧
        (s.dev.que.q[q].reserved ≤ s.dev.que.q[q].building.length →
          ∀ mark, exec (.queuePortWrite q w mark) s = .next (s.put (s.dev.portDone 4 0)))) ∧
      (s.dev.que.q[q].dropRest ≠ 0 → ∀ mark : Bool,
        ∃ t, exec (.queuePortWrite q w mark) s = .next t ∧ t.dev.que.portResult = 0 ∧
          t.dev.que.q[q].dropRest = (if mark = true then 0 else s.dev.que.q[q].dropRest - 1) ∧
          t.dev.que.q[q].msgs = s.dev.que.q[q].msgs)) ∧
    (s.dev.coreIs s.dev.que.q[q].entry.prod = false →
      ∀ mark, exec (.queuePortWrite q w mark) s = .next (s.put (s.dev.portDone 5 0))) ∧
    (s.dev.coreIs s.dev.que.q[q].entry.cons = false →
      ∀ cs, exec (.queuePortRead q cs) s = .next (s.put (s.dev.portDone 5 0))) ∧
    (s.dev.coreIs s.dev.que.q[q].entry.cons = true →
      (s.dev.que.q[q].msgs = [] →
        ∃ t, exec (.queuePortRead q []) s = .next t ∧ t.dev.que.portResult = 1 ∧ t.dev.que.q = s.dev.que.q) ∧
      (∀ (m : QMsg) (ms : List QMsg) (cs : List WordCheck), (s.dev.freshFront q).que.q[q].msgs = m :: ms →
        (cs.headD .good ≠ .double →
          ∃ t, exec (.queuePortRead q cs) s = .next t ∧ t.dev.que.portResult = 0 ∧ t.dev.que.portWord = m.words.getD m.taken 0 ∧
            t.dev.que.q[q].msgs = dropWords 1 (m :: ms) ∧ (m.taken ≠ 0 → cs = [] → t.dev = { s.dev with que := t.dev.que })) ∧
        (cs.headD .good = .double →
          ∃ t, exec (.queuePortRead q cs) s = .next t ∧ t.dev.que.portResult = 3 ∧ hdrType t.dev.que.portWord = 0xFF)))

/-- R120: a queue delivers in commit order, and the queues are independent. A commit puts the message behind those
that wait and changes the words of none of them, in its own queue only; words leave the front of a queue one by one in
the order of commit: what is left after `n` words is the rest of the words that waited. -/
def Obligations.DeliveryOrder : Prop :=
  (∀ (d : Dev) (q : Fin 64) (ws : List QData),
    (d.commit q ws).que.q[q].msgs.map (·.words) = d.que.q[q].msgs.map (·.words) ++ [ws] ∧
    (d.commit q ws).que.q[q].fill = d.que.q[q].fill + ws.length ∧
    (∀ p : Fin 64, p ≠ q → (d.commit q ws).que.q[p] = d.que.q[p]) ∧
    d.commit q ws = { d with que := (d.commit q ws).que, flags := (d.commit q ws).flags }) ∧
  (∀ (n : Nat) (ms : List QMsg), (∀ m ∈ ms, m.taken ≤ m.words.length) →
    (dropWords n ms).flatMap (fun m => m.words.drop m.taken) = (ms.flatMap fun m => m.words.drop m.taken).drop n ∧
    ((dropWords n ms).map QMsg.left).sum = (ms.map QMsg.left).sum - n)

/-- R128, R138, R139: a notice when the oldest unnotified message has waited for the hold time; QUE_FLUSH discards
every committed word and the message in progress and counts them; COUNT_CLEAR clears the counters of the queue. R125,
R134: the messages that a hardware producer keeps go into the queue, oldest first, while they find room; an issue that
waits may go on when the quarantine of its space has passed. -/
def Obligations.QueueService : Prop :=
  ((∀ (q : Fin 64) (s : State) (m : QMsg), s.dev.que.q[q].entry.cls ≠ 0 → s.dev.rfld 2 q.val 0x10 15 0 ≠ 0 →
     (s.dev.que.q[q].msgs.find? fun m => !m.notified) = some m →
     m.since + s.dev.rfld 2 q.val 0x10 15 0 * 10000 ≤ s.dev.tim.elapsed →
     exec (.noticeHoldExpiry q) s = .next (s.put (s.dev.notice q))) ∧
   (∀ (ag : Agent) (arg : BitVec 24) (s : State) (q : Fin 64), argUnit arg = q.val → s.dev.ready ag 2 q.val →
     s.dev.que.q[q].entry.depth ≠ 0 →
     (s.dev.que.q[q].entry.cons ≠ 3 → (s.dev.que.q[q].entry.cls ≤ 1 → s.dev.producerIdle s.dev.que.q[q].entry.prod = true) →
       ∃ t, exec (.queFlush ag arg) s = .next t ∧ t.dev.que.q[q].msgs = [] ∧ t.dev.que.q[q].building = [] ∧
         t.dev.que.q[q].reserved = 0 ∧ (∀ p : Fin 64, p ≠ q → t.dev.que.q[p] = s.dev.que.q[p]) ∧
         t.dev.reply.status = 0) ∧
     exec (.queCountClear ag arg) s = .next (s.put
       ((((s.dev.setReg 2 q.val 0x14 0).setReg 2 q.val 0x18 0).setReg 2 q.val 0x1C 0).completed ag 2 0x11)))) ∧
  ((∀ (q : Fin 64) (s : State), s.dev.que.q[q].entry.prod < 0x10 → s.dev.aul.rxHeld = [] →
     exec (.producerRoomAvailable q) s = .next (s.put (Dev.writeHeld q s.dev.que.q[q].held s.dev).flow)) ∧
   (∀ (q : Fin 64) (ws : List QData) (rest : List (List QData)) (d : Dev), d.que.q[q].room ws.length = true →
     Dev.writeHeld q (ws :: rest) d = Dev.writeHeld q rest ((d.updQ q fun x => { x with held := rest }).commit q ws)) ∧
   (∀ (sp : Fin 13) (s : State), (s.dev.que.spaces[sp]).quarOver s.dev.tim.elapsed = true →
     ∃ t, exec (.idQuarantineEnd sp) s = .next t ∧ (t.dev.que.spaces[sp]).quar = none ∧
       (∀ p : Fin 13, p ≠ sp → t.dev.que.spaces[p] = s.dev.que.spaces[p]) ∧
       t.dev = { s.dev with que := t.dev.que, aul := t.dev.aul, plc := t.dev.plc } ∧
       (sp = 9 → t.dev.aul.idWait = false) ∧ (sp = 11 → t.dev.plc.idWait = false)))

/-- R134: a space issues its indices in ascending order from 1 to 0xFF_FFFF, never index 0; after 0xFF_FFFF the next
issue waits until the quarantine of the space has passed since that issue, and carries the epoch plus 1, modulo 256,
and index 1; the epoch changes at that issue and at no other. In every run of issues without the end of a quarantine
the identifiers are pairwise different. -/
def Obligations.Identifiers : Prop :=
  (∀ (x : IdSpace) (sp el now : Nat),
    (x.quar.isSome = true → (x.issue sp el).1 = none ∧ (x.issue sp el).2.epoch = x.epoch ∧ (x.issue sp el).2.index = x.index) ∧
    (x.quar = none → x.index ≠ 0xFFFFFF →
      (x.issue sp el).1 = some (x.epoch ++ (x.index + 1)) ∧ (x.issue sp el).2.epoch = x.epoch ∧
      (x.issue sp el).2.index = x.index + 1 ∧ x.index + 1 ≠ 0 ∧
      (x.index + 1 ≠ 0xFFFFFF → (x.issue sp el).2.quar = none) ∧
      (x.index + 1 = 0xFFFFFF → (x.issue sp el).2.quar = some el ∧ (x.issue sp el).2.quarLen = quarantineOf sp)) ∧
    (x.quar = none → x.index = 0xFFFFFF →
      (x.issue sp el).1 = some ((x.epoch + 1) ++ (1 : BitVec 24)) ∧ (x.issue sp el).2.epoch = x.epoch + 1 ∧
      (x.issue sp el).2.index = 1) ∧
    (x.quar = some el → (x.quarOver now = true ↔ el + x.quarLen ≤ now))) ∧
  (∀ (x : IdSpace) (sp : Nat) (els : List Nat), x.index ≠ 0xFFFFFF → (x.issueAll sp els).Pairwise (· ≠ ·))

/-! ### Site time (R141 to R163) -/

/-- R156, R157, R162: TIME_SET and TIME_ADJUST are accepted PENDING with the delta taken at acceptance: TIM_SETVAL
minus the site time for the first, TIM_SETVAL itself for the second. ALARM_CANCEL disarms its alarm and completes with
OK. R143: at the leap's instant tai_utc_next replaces tai_utc. R154: the whole second saves the count and the error of
site time. R152: a write of TIM_OFFSET hands the servo an offset of the mesh source, and is refused with STATE under
the selections RING and NONE. R147, R148: the end of a sync interval discards its offsets and chooses the source of the
next. -/
def Obligations.TimeServices : Prop :=
  (∀ (ag : Agent) (arg : BitVec 24) (s : State),
     (s.dev.ready ag 1 0xFF → s.dev.setVal < 2 ^ 63 →
       exec (.timeSet ag arg) s = .next (s.put
         (({ s.dev with tim := { s.dev.tim with
             step := some { delta := (s.dev.setVal : Int) - s.dev.tim.now, set := true, accUs := arg.toNat } } }).accepted
           ag 1 0x10 arg))) ∧
     (s.dev.ready ag 1 0xFF → 0 ≤ (s.dev.tim.now : Int) + signed 64 s.dev.setVal →
       (s.dev.tim.now : Int) + signed 64 s.dev.setVal < (2 ^ 63 : Nat) →
       exec (.timeAdjust ag arg) s = .next (s.put
         (({ s.dev with tim := { s.dev.tim with
             step := some { delta := signed 64 s.dev.setVal, set := false, accUs := arg.toNat } } }).accepted ag 1 0x11 arg))) ∧
     (∀ a : Fin 8, argUnit arg = a.val → s.dev.ready ag 1 (0x20 + a.val) →
       ∃ t, exec (.alarmCancel ag arg) s = .next t ∧ t.dev.tim.almArmed.getLsbD a.val = false ∧
         (∀ b : Fin 8, b ≠ a → t.dev.tim.almArmed.getLsbD b.val = s.dev.tim.almArmed.getLsbD b.val) ∧
         t.dev.reply.status = 0 ∧
         t.dev = { s.dev with tim := { s.dev.tim with almArmed := t.dev.tim.almArmed }, views := t.dev.views, reply := t.dev.reply })) ∧
  (∀ s : State,
     (bit (s.dev.reg 1 0 0x24) 16 = true → s.dev.nextMonthStart s.dev.tim.now = s.dev.tim.now →
       ∃ t, exec .leapApply s = .next t ∧ t.dev.flagBit 1 0 0x10 5 = true ∧
         t.dev.rfld 1 0 0x24 7 0 = s.dev.rfld 1 0 0x24 15 8 ∧ t.dev.rfld 1 0 0x24 16 16 = 0 ∧
         t.dev = { s.dev with regs := t.dev.regs, flags := t.dev.flags }) ∧
     (s.dev.due keySecond 1000000000 = true → s.dev.pwr.held = false →
       ∃ t, exec .wholeSecond s = .next t ∧ t.dev.tim.rtc = s.dev.tim.now * 32768 / 1000000000 ∧ t.dev.tim.rtcErr = s.dev.timErr ∧
         t.dev = { s.dev with tim := t.dev.tim } ∧ t.dev.tim.now = s.dev.tim.now) ∧
     (∀ (ag : Agent) (w : Word), s.dev.canWrite ag 1 1 →
       (s.dev.servoSelect = 2 ∨ (s.dev.servoSelect = 0 ∧ s.dev.tim.source ≠ 1) → s.dev.tim.servo.isRunning = true →
         exec (.timOffsetWrite ag w) s = .next (s.put
           ({ s.dev with tim := { s.dev.tim with meshOffs := signed 32 w.toNat * 1000 :: s.dev.tim.meshOffs } }.answer ag .ok))) ∧
       (s.dev.servoSelect = 1 ∨ s.dev.servoSelect = 3 →
         ∃ t, exec (.timOffsetWrite ag w) s = .next t ∧ t.dev.reply.status = 2 ∧ t.dev.tim = s.dev.tim)) ∧
     (s.dev.tim.servo.isRunning = true → s.dev.due keySync s.dev.syncInterval = true →
       ∃ t, exec .servoIntervalEnd s = .next t ∧ t.dev.tim.ringOffs = [] ∧ t.dev.tim.meshOffs = [] ∧ t.dev.tim.stepped = false ∧
         t.dev.tim.source = chooseSource t.dev.servoSelect t.dev.tim.ringHist t.dev.tim.meshHist ∧
         t.dev.lastRun keySync = some s.dev.tim.now) ∧
     (s.dev.tim.servo.isRunning = false → s.dev.due keySync s.dev.syncInterval = true →
       ∃ t, exec .servoIntervalEnd s = .next t ∧ t.dev.tim.stepped = false ∧ t.dev.lastRun keySync = some s.dev.tim.now ∧
         t.dev = { s.dev with tim := t.dev.tim }))

/-- R157 steps 1 to 3: a step moves site time by the delta rounded to the nearest multiple of 62.5 µs, halves toward
zero, and slews the rest of at most 31.25 µs, with, after TIME_ADJUST, what is left of an earlier one (log entry 99,
DEDUCED), and sets quality and error; after TIME_SET the quality is HOLDOVER from any value, after
TIME_ADJUST NOT_VALID stays. TIME_STEP_APPLY carries out the whole of the pending step at its sample instant; before
that instant, and with no step pending, nothing changes. RESIDUAL_SLEW_END ends the slewing of the residual once it has
been slewed out at 500 000 ppb. -/
def Obligations.TimeStep : Prop :=
  (∀ (d : Dev) (p : PendingStep), 0 ≤ (d.tim.now : Int) + roundStep p.delta →
     ((d.moveTime p).tim.now : Int) = d.tim.now + roundStep p.delta ∧
     roundStep p.delta % 62500 = 0 ∧ (p.delta - roundStep p.delta).natAbs ≤ 31250 ∧
     ((p.delta - roundStep p.delta).natAbs = 31250 → (roundStep p.delta).natAbs < p.delta.natAbs) ∧
     (d.moveTime p).tim.residual = p.delta - roundStep p.delta + (if p.set then 0 else d.residualLeft) ∧ (d.moveTime p).tim.step = none ∧
     (p.set = true ∨ d.tim.quality ≠ .notValid → (d.moveTime p).tim.quality = .holdover ∧ (d.moveTime p).tim.errBase = p.accUs) ∧
     (p.set = false → d.tim.quality = .notValid → (d.moveTime p).tim.quality = .notValid ∧ (d.moveTime p).timErr = 0xFFFFFFFF)) ∧
  (∀ s : State,
     (∀ p, s.dev.tim.step = some p → s.dev.stepDue = true →
       exec .timeStepApply s = .next (s.put (s.dev.applyStep p))) ∧
     (s.dev.tim.step = none ∨ s.dev.stepDue = false → exec .timeStepApply s = .next s) ∧
     (s.dev.tim.residual ≠ 0 → s.dev.tim.resSince + s.dev.tim.residual.natAbs * 2000 ≤ s.dev.tim.elapsed →
       exec .residualSlewEnd s = .next (s.put { s.dev with tim := { s.dev.tim with residual := 0 } })))

/-- R160, R161: a write of TIM_CMP_TARGET while enable is 1 arms the unit, and fires it at once with late when the
target is not after site time; while enable is 0 it is the target only. A write of TIM_CMP_CTRL with enable 0 disarms
the unit, and with enable 1 leaves it as it is. A unit that fires sets its flag, asks for a housekeeping scan if its
action says so, and with no period is no longer armed, with one moves its target on by the fewest whole periods that
put it after site time. R162, R163: a write of TIM_ALM_HI arms the alarm; an armed alarm whose 64-bit target is not
after site time sets its flag and disarms; an edge is recorded with the site time by every capture unit that selects its
source and edge. -/
def Obligations.CompareAlarmCapture : Prop :=
  (∀ (ag : Agent) (c : Fin 16) (w : Word) (s : State),
     (s.dev.canWrite ag 1 (0x10 + c.val) → bit (s.dev.reg 1 (0x10 + c.val) 0) 0 = true → 0 < cmpDelta w s.dev.tim.now →
       exec (.cmpArm ag c w) s = .next (s.put
         ((s.dev.updCmp c fun _ => { armed := true, target := w }).answer ag .ok))) ∧
     (s.dev.canWrite ag 1 (0x10 + c.val) → bit (s.dev.reg 1 (0x10 + c.val) 0) 0 = true → cmpDelta w s.dev.tim.now ≤ 0 →
       exec (.cmpArm ag c w) s = .next (s.put
         (((s.dev.updCmp c fun _ => { armed := true, target := w }).fireCmp c false true).answer ag .ok))) ∧
     (s.dev.canWrite ag 1 (0x10 + c.val) → bit (s.dev.reg 1 (0x10 + c.val) 0) 0 = false →
       exec (.cmpArm ag c w) s = .next (s.put ((s.dev.updCmp c fun x => { x with target := w }).answer ag .ok))) ∧
     (s.dev.canWrite ag 1 (0x10 + c.val) →
       ∃ t, exec (.cmpDisarm ag c w) s = .next t ∧ t.dev.reply.status = 0 ∧
         t.dev.reg 1 (0x10 + c.val) 0 = w32 (bits w.toNat 1 0) ∧
         (t.dev.tim.cmp[c]).armed = (bit w 0 && (s.dev.tim.cmp[c]).armed) ∧
         (t.dev.tim.cmp[c]).target = (s.dev.tim.cmp[c]).target ∧ (∀ b : Fin 16, b ≠ c → t.dev.tim.cmp[b] = s.dev.tim.cmp[b]) ∧
         t.dev = { s.dev with tim := t.dev.tim, regs := t.dev.regs, reply := t.dev.reply }) ∧
     ((s.dev.tim.cmp[c]).armed = true → cmpDelta (s.dev.tim.cmp[c]).target s.dev.tim.now ≤ 0 →
       ∃ t, exec (.cmpFire c) s = .next t ∧ t.dev.flagBit 1 0 0x14 c.val = true ∧
         (bit (s.dev.reg 1 (0x10 + c.val) 0) 1 = true → t.dev.pwr.hkReq = true) ∧
         (s.dev.reg 1 (0x10 + c.val) 8 = 0 → (t.dev.tim.cmp[c]).armed = false) ∧
         (s.dev.reg 1 (0x10 + c.val) 8 ≠ 0 → (t.dev.tim.cmp[c]).armed = true ∧
           (t.dev.tim.cmp[c]).target = (s.dev.tim.cmp[c]).target + BitVec.ofNat 32
             (((-(cmpDelta (s.dev.tim.cmp[c]).target s.dev.tim.now)).toNat / (s.dev.reg 1 (0x10 + c.val) 8).toNat + 1) *
               (s.dev.reg 1 (0x10 + c.val) 8).toNat)) ∧
         (∀ b : Fin 16, b ≠ c → t.dev.tim.cmp[b] = s.dev.tim.cmp[b]) ∧
         t.dev = { s.dev with tim := { s.dev.tim with cmp := t.dev.tim.cmp }, pwr := t.dev.pwr, flags := t.dev.flags })) ∧
  ((∀ (ag : Agent) (a : Fin 8) (w : Word) (s : State), s.dev.canWrite ag 1 (0x20 + a.val) →
     ∃ t, exec (.almArm ag a w) s = .next t ∧ t.dev.tim.almArmed.getLsbD a.val = true ∧
       t.dev.almTarget a.val = w.toNat * 2 ^ 32 + (s.dev.reg 1 (0x20 + a.val) 0).toNat) ∧
   (∀ (a : Fin 8) (s : State), s.dev.tim.almArmed.getLsbD a.val = true → s.dev.almTarget a.val ≤ s.dev.tim.now →
     ∃ t, exec (.almFire a) s = .next t ∧ t.dev.tim.almArmed.getLsbD a.val = false ∧ t.dev.flagBit 1 0 0x10 (8 + a.val) = true ∧
       t.dev = { s.dev with tim := { s.dev.tim with almArmed := t.dev.tim.almArmed }, flags := t.dev.flags }) ∧
   (∀ (src : CapSource) (rising : Bool) (s : State),
     ∃ t, exec (.captureEdge src rising) s = .next t ∧
       (∀ k : Fin 8, s.dev.capTakes k.val src rising = true → t.dev.tim.cap[k] = BitVec.ofNat 64 s.dev.tim.now) ∧
       (∀ k : Fin 8, s.dev.capTakes k.val src rising = false → t.dev.tim.cap[k] = s.dev.tim.cap[k]) ∧
       t.dev = { s.dev with tim := { s.dev.tim with cap := t.dev.tim.cap }, regs := t.dev.regs }))

/-- R141, R149: whatever the offsets, the end of a servo interval keeps a trim within ±100 000 ppb there, and leaves a
slew within ±500 000 ppb. -/
def Obligations.ServoLimits : Prop :=
  ∀ d : Dev, -100000 ≤ d.tim.trim → d.tim.trim ≤ 100000 →
    -100000 ≤ d.servoEnd.tim.trim ∧ d.servoEnd.tim.trim ≤ 100000 ∧
    -500000 ≤ d.servoEnd.tim.slew ∧ d.servoEnd.tim.slew ≤ 500000

/-! ### Metrology (R166 to R205) -/

/-- R21, R108, R169, R173, R189: what becomes of a frame of samples at its sample instant: a good one is taken, one
that meets a busy crossing or whose retry fails is lost and its die's functions enter FAULT; the same for a mismatch
of the two paths for 16 instants and for a bad voltage reference. At any other instant no frame is taken. R189, R106:
a metrology function that enters FAULT shows the code; one that does not run takes no fault. -/
def Obligations.SampleEvents : Prop :=
  (∀ (dieB : Bool) (f : SampleFrame) (s : State),
     (s.dev.sampleDue dieB = true →
       (f.overrun = false → f.firstOk = true ∨ f.retryOk = true →
         exec (.sampleTransfer dieB f) s = .next (s.put (((s.dev.ran (keySample dieB)).takeSamples dieB f.codes).updateTail))) ∧
       (f.overrun = true →
         exec (.sampleTransfer dieB f) s = .next (s.put
           (((s.dev.ran (keySample dieB)).raise 0 0 0xC (2 ^ b1 dieB)).dieFault dieB 2))) ∧
       (f.overrun = false → f.firstOk = false → f.retryOk = false →
         exec (.sampleTransfer dieB f) s = .next (s.put
           ((((s.dev.ran (keySample dieB)).raiseSys 3).logEvent .sys 21 [w32 (b1 dieB), w32 (b1 dieB)]).dieFault dieB 1)))) ∧
     (s.dev.sampleDue dieB = false → exec (.sampleTransfer dieB f) s = .next s) ∧
     (∀ (ch : Fin 64) (u : Fin 9), isCurrentPath ch.val = true → 16 ≤ (s.dev.mtr.ch[ch]).differ →
       s.dev.chanUnit ch.val = some u.val →
       exec (.pathMismatch ch) s = .next (s.put (s.dev.meterFault u 4))) ∧
     exec (.afeReferenceFault dieB) s = .next (s.put (s.dev.dieFault dieB 3))) ∧
  (∀ (d : Dev) (u : Fin 9) (code : Byte),
     (d.mtrRuns u.val = true → ((d.meterFault u code).mtr.eng[u]).fn = { st := .fault, code := code }) ∧
     (d.mtrRuns u.val = false → d.meterFault u code = d))

/-- R179, R180: a delivery hands billing whole units and carries the remainder: nothing is gained or lost, the
remainder stays below one unit, and never both directions count; below the creep level nothing counts and the
remainders are cleared. -/
def Obligations.DeliveryKeepsEnergy : Prop :=
  ∀ (e : Engine) (creep : Nat),
    let en := deliveryEnergies e.dlv creep
    let h := (e.close creep).1
    let e1 := (e.close creep).2
    ratAbs e1.remVeh < 1 ∧ ratAbs e1.remQ < 1 ∧ (h.imp = 0 ∨ h.exp = 0) ∧ e1.dlv = {} ∧
    (en.creep = false → ((h.imp : Rat) - (h.exp : Rat)) + e1.remVeh = en.veh + e.remVeh ∧ h.loss = en.loss) ∧
    (en.creep = true → h.imp = 0 ∧ h.exp = 0 ∧ h.q = 0 ∧ h.loss = 0 ∧ e1.remVeh = 0 ∧ e1.remQ = 0)

/-- R186, R224: at a period boundary every unit closes its period and the boundary's billing follows, once for each
boundary; a mid-period reading hands its delivery over and marks the period; the results of a harmonic window wait for their
boundary; a voltage refresh, due after a zero crossing or at nominal half-cycle steps (R191), gives its phase, and no other of the unit,
the state that its thresholds decide for the root mean square of one cycle. A harmonic window of another number of cycles
than 10 (F50) or 12 (F60) is none. -/
def Obligations.PeriodEvents : Prop :=
  (∀ (cycles : List (Nat × Nat)) (s : State), s.dev.due keyPeriod 200000000 = true → s.dev.mtr.stopped = false →
    s.dev.pwr.held = false →
    exec (.metrologyPeriodBoundary cycles) s = .next (s.put
      ((List.finRange 9).foldl (fun (acc : Dev) (u : Fin 9) => acc.endPeriod u (cycles.getD (s.dev.freqUnit u.val) (0, 0)))
        (s.dev.ran keyPeriod)).billingBoundary)) ∧
  (∀ (cycles : List (Nat × Nat)) (s : State), s.dev.lastRun keyPeriod = some s.dev.tim.now →
    exec (.metrologyPeriodBoundary cycles) s = .next s) ∧
  (∀ (n : Fin 8) (s : State), s.dev.mtrRuns n.val = true →
    exec (.midPeriodReading n) s = .next (s.put ((s.dev.updEng (mtrUnit n) fun e => { e with fReading := true }).closeDelivery n))) ∧
  (∀ (u : Fin 9) (k : Nat) (rs : List (Nat × List Nat)) (s : State), s.dev.mtrRuns u.val = true →
    u.val = 8 ∨ (s.dev.kind u.val).isAc = true → bit (s.dev.reg 3 u.val 0x20) 6 = false →
    (k = (if bit (s.dev.reg 3 u.val 4) 0 then 12 else 10) →
      ∃ t, exec (.harmonicWindowEnd u ⟨k, rs⟩) s = .next t ∧
        ∃ xs, (t.dev.mtr.eng[u]).harmWait = (s.dev.mtr.eng[u]).harmWait ++ [(s.dev.tim.now, xs)] ∧
          (xs.map fun r => (r.1, r.2.tail)) = rs.filter (fun r => s.dev.chanUnit r.1 = some u.val) ∧
          t.dev = { s.dev with mtr := t.dev.mtr, fresh := t.dev.fresh }) ∧
    (k ≠ (if bit (s.dev.reg 3 u.val 4) 0 then 12 else 10) → exec (.harmonicWindowEnd u ⟨k, rs⟩) s = .next s)) ∧
  (∀ (u : Fin 9) (ph : Fin 3) (ms : Rat) (uv : Nat) (s : State), s.dev.pqWatches u ph = true →
    (s.dev.mtr.ch[urmsChan u ph]).wave.refreshWith (s.dev.nominalHz u.val) = some ms → nearRoot ms uv = true →
    ∃ t, exec (.urmsRefresh u ph uv) s = .next t ∧
      (t.dev.mtr.ch[urmsChan u ph]).wave = (s.dev.mtr.ch[urmsChan u ph]).wave.refreshed ∧
      ((t.dev.mtr.eng[u]).phases[ph]).st = pqTarget ((s.dev.mtr.eng[u]).phases[ph]).st uv (s.dev.pqThreshold u.val 31 24)
        (s.dev.pqThreshold u.val 23 16) (s.dev.pqThreshold u.val 15 8) (s.dev.pqThreshold u.val 7 0) ∧
      ∀ p : Fin 3, p ≠ ph → (t.dev.mtr.eng[u]).phases[p] = (s.dev.mtr.eng[u]).phases[p])

/-- R192: the state of a phase after a refresh, from the states of the refresh before it, over the whole range of the
voltage, for thresholds in their order. R194, R195, R204: once the instant's sample is taken, a pulse starts with one less in
the backlog and its output high for the width; CAPTURE starts a capture of 480 samples, whose end writes its messages; PQ_COUNT_CLEAR clears the
three counters of its unit. R171, R172, R176: a write of MTR_GAIN with auto_en 0 fixes the gain of a current channel;
a write of a calibration register that changes it is accepted outside a billed session, and is logged and counted as
tamper type 7 or 8; inside one it completes with STATE and changes nothing. -/
def Obligations.MeterOutputs : Prop :=
  (∀ (st : PqState) (u sag swell intr hyst : Nat), intr + hyst ≤ sag → sag + hyst ≤ swell →
     (u < intr → pqTarget st u sag swell intr hyst = .intr) ∧
     (intr + hyst ≤ u → u < sag → pqTarget st u sag swell intr hyst = .sag) ∧
     (sag + hyst ≤ u → u + hyst ≤ swell → pqTarget st u sag swell intr hyst = .normal) ∧
     (swell < u → pqTarget st u sag swell intr hyst = .swell) ∧
     (st = .normal → sag ≤ u → u ≤ swell → pqTarget st u sag swell intr hyst = .normal)) ∧
  ((∀ (p : Fin 4) (k : Nat) (s : State), s.dev.pulseOn p.val = true → 0 < (s.dev.mtr.pulse[p]).backlog →
     (s.dev.mtr.pulse[p]).high = 0 → (s.dev.mtr.pulse[p]).low = 0 → s.dev.pulseSlice p.val = some k →
     s.dev.lastRun (keySample (decide (4 ≤ k))) = some s.dev.tim.now →
     ∃ t, exec (.pulseEmit p) s = .next t ∧ (t.dev.mtr.pulse[p]).backlog = (s.dev.mtr.pulse[p]).backlog - 1 ∧
       (t.dev.mtr.pulse[p]).high = s.dev.rfld 3 (0x10 + p.val) 0 10 0 ∧ t.dev.mtr.out.getLsbD p.val = true ∧
       (∀ r : Fin 4, r ≠ p → t.dev.mtr.pulse[r] = s.dev.mtr.pulse[r] ∧ t.dev.mtr.out.getLsbD r.val = s.dev.mtr.out.getLsbD r.val) ∧
       t.dev = { s.dev with mtr := t.dev.mtr }) ∧
   (∀ (ag : Agent) (arg : BitVec 24) (s : State) (n : Fin 8), argUnit arg = n.val → s.dev.ready ag 3 n.val →
     s.dev.mtrRuns n.val = true → s.dev.canCapture n = true →
     exec (.capture ag arg) s = .next (s.put ((s.dev.startCapture n).completed ag 3 0x10))) ∧
   (∀ (n : Fin 8) (s : State), s.dev.captureFull n = true → s.dev.mtrQueue n.val 3 = none →
     ∃ t, exec (.captureComplete n) s = .next t ∧ (t.dev.mtr.eng[n.val]).capLeft = none ∧
       (∀ c ∈ s.dev.ownedChannels n.val, (t.dev.mtr.ch[c]).cap = []) ∧ t.dev = { s.dev with mtr := t.dev.mtr }) ∧
   (∀ (ag : Agent) (arg : BitVec 24) (s : State), s.dev.ready ag 3 (argUnit arg) → argUnit arg ≤ 8 →
     exec (.pqCountClear ag arg) s = .next (s.put
       ((((s.dev.setReg 3 (argUnit arg) 0x74 0).setReg 3 (argUnit arg) 0x78 0).setReg 3 (argUnit arg) 0x7C 0).completed ag 3 0x11)))) ∧
  ((∀ (ag : Agent) (ch : Fin 64) (w : Word) (s : State), s.dev.canWrite ag 3 (chUnit ch.val) → isCurrentPath ch.val = true →
     bit w 0 = false →
     ∃ t, exec (.mtrGainWrite ag (w32 (lattice 3 (chUnit ch.val) 0x10)) w) s = .next t ∧
       (t.dev.mtr.ch[ch]).gain = fld w 5 4 ∧ t.dev.rfld 3 (chUnit ch.val) 0x10 5 4 = fld w 5 4 ∧ t.dev.reply.status = 0 ∧
       t.dev = { s.dev with mtr := t.dev.mtr, regs := t.dev.regs, reply := t.dev.reply }) ∧
   (∀ (ag : Agent) (n : Fin 8) (r : RegAt) (off : Nat) (w : Word) (s : State), off < 0x80 → regAt 3 n.val off = some r →
     s.dev.canWrite ag 3 n.val → calMask r.row.id ≠ 0 → mtrRangeOk r.row.id n.val w = true →
     stopChange r.row (s.dev.func? .mtr n.val) (s.dev.regs.value (lattice 3 n.val off)) w = false →
     ((s.dev.nextValue (lattice 3 n.val off)).toNat &&& calMask r.row.id) ≠ (w.toNat &&& calMask r.row.id) →
     (s.dev.billedSession n = false →
       exec (.calibrationWrite ag (w32 (lattice 3 n.val off)) w) s = .next (s.put
         ((((s.dev.writeFields r.row (lattice 3 n.val off) 0 w).logEvent .mtr 176
           [w32 (lattice 3 n.val off), s.dev.nextValue (lattice 3 n.val off), w] (some ag) n.val).tamper
             (if r.row.id = .mtrCable then 8 else 7) (some n)).answer ag .ok))) ∧
     (s.dev.billedSession n = true →
       exec (.calibrationWrite ag (w32 (lattice 3 n.val off)) w) s = .next (s.put
         (s.dev.answer ag (.state ((s.dev.evc.s[n].st).code)))))))

/-! ### Billing (R207 to R248) -/

/-- R207, R208: a delivery credits the register of the tariff in force and no other, one quadrant total, and the
cable-loss total with its remainder carried; no accumulator ever falls, and each saturates at 2⁶⁴ − 1. -/
def Obligations.CreditTariff : Prop :=
  ∀ (b : BilSlice) (h : Handover), 1 ≤ b.tariff → b.tariff ≤ 16 → 0 ≤ h.loss → 0 ≤ b.remLoss →
    (∀ j : Fin 32, (b.e[j]) < 2 ^ 64 →
      ((b.credit h).e[j]) = (if j.val + 1 = b.tariff then min ((b.e[j]) + h.imp) (2 ^ 64 - 1)
        else if j.val + 1 = b.tariff + 16 then min ((b.e[j]) + h.exp) (2 ^ 64 - 1) else (b.e[j])) ∧
      (b.e[j]) ≤ ((b.credit h).e[j])) ∧
    (∀ k : Fin 4, (b.q[k]) < 2 ^ 64 → ((b.credit h).q[k]) = (if k.val = h.quadrant then min ((b.q[k]) + h.q) (2 ^ 64 - 1) else (b.q[k]))) ∧
    (b.loss < 2 ^ 64 → b.loss ≤ (b.credit h).loss) ∧
    (b.loss + (ratTrunc (h.loss + b.remLoss)).toNat < 2 ^ 64 →
      ((b.credit h).loss : Rat) + (b.credit h).remLoss = (b.loss : Rat) + b.remLoss + h.loss) ∧
    0 ≤ (b.credit h).remLoss ∧ (b.credit h).remLoss < 1 ∧ (b.credit h).tariff = b.tariff

/-- R248 with R215, R217, R221, R239: the billing commands where they are accepted. R221, R238, R246: MD_RESET clears
the 32 maxima and their times of its slice and counts tamper type 12; a count keeps the time of the first and of the
last occurrence; a reading takes the next sequence number of its slice. -/
def Obligations.BillingCommands : Prop :=
  (∀ (ag : Agent) (arg : BitVec 24) (s : State),
     (∀ n : Fin 8, argUnit arg = n.val → s.dev.ready ag 4 n.val → s.dev.present n.val = true →
       ((s.dev.signQueue ag).isSome = true → s.dev.waitingRequests < 4 →
         exec (.readSigned ag arg) s = .next (s.put
           (((s.dev.midPeriod n).addReading n 0 s.dev.tim.now ag (s.dev.viewBytes ag (lattice 4 8 0x20) 2)).completed ag 4 0x10))) ∧
       exec (.mdReset ag arg) s = .next (s.put ((s.dev.resetMd n).completed ag 4 0x11))) ∧
     (argUnit arg = 0xFF → s.dev.ready ag 4 0xFF →
       exec (.mdReset ag arg) s = .next (s.put
         ((s.dev.presentSlices.foldl (fun (acc : Dev) n => acc.resetMd n) s.dev).completed ag 4 0x11))) ∧
     (arg = 0 → s.dev.ready ag 4 0xFF →
       (calendarReason s.dev.passiveBlock = 0 → s.dev.tim.quality ≠ .notValid ∨ s.dev.bil.armed.isSome = true →
         ∃ t, exec (.calArm ag arg) s = .next t ∧ t.dev.bil.armed = some (decodeCalendar s.dev.passiveBlock) ∧
           t.dev.bil.armedBytes = s.dev.passiveBlock ∧ t.dev.bil.calReason = s.dev.bil.calReason ∧ t.dev.reply.status = 0 ∧
           (t.dev.bil.tamper[10]).count = satAdd 32 (s.dev.bil.tamper[10]).count 1) ∧
       (s.dev.bil.armed.isSome = true →
         exec (.calCancel ag arg) s = .next (s.put
           ({ s.dev with bil := { s.dev.bil with armed := none, armedBytes := [] } }.completed ag 4 0x13))) ∧
       (s.dev.rfld 4 8 0x1C 31 24 ≤ 16 → s.dev.maskPresent (s.dev.rfld 4 8 0x1C 23 16) = true → 1 ≤ s.dev.rfld 4 8 0x1C 15 0 →
         exec (.overrideCmd ag arg) s = .next (s.put
           ((s.dev.putOverride (s.dev.rfld 4 8 0x1C 23 16) (s.dev.rfld 4 8 0x1C 31 24)
             ((s.dev.reg 4 8 0x18).toNat * 2 ^ 32 + (s.dev.reg 4 8 0x14).toNat) (s.dev.rfld 4 8 0x1C 15 0)).completed ag 4 0x14))))) ∧
  ((∀ (d : Dev) (n : Fin 8), ((d.resetMd n).bil.s[n]).md = Vector.replicate 32 0 ∧ ((d.resetMd n).bil.s[n]).mdt = Vector.replicate 32 0 ∧
     ((d.resetMd n).bil.s[n]).e = (d.bil.s[n]).e ∧ ((d.resetMd n).bil.tamper[12]).count = satAdd 32 (d.bil.tamper[12]).count 1) ∧
   (∀ (d : Dev) (k : Fin 24) (sl : Option (Fin 8)), ((d.tamper k sl).bil.tamper[k]).last = d.tim.now ∧
     ((d.bil.tamper[k]).count ≠ 0 → ((d.tamper k sl).bil.tamper[k]).first = (d.bil.tamper[k]).first) ∧
     (∀ j : Fin 24, j ≠ k → (d.tamper k sl).bil.tamper[j] = d.bil.tamper[j]) ∧
     d.tamper k sl = { d with bil := (d.tamper k sl).bil, log := (d.tamper k sl).log, logSeq := d.logSeq + 1 }) ∧
   (∀ (d : Dev) (n : Fin 8) (kind t : Nat) (ag : Agent) (nonce : List Byte),
     ((d.addReading n kind t ag nonce).bil.s[n]).rdSeq = (d.bil.s[n]).rdSeq + 1 ∧
     ∃ j : SignJob, (d.addReading n kind t ag nonce).bil.jobs = d.bil.jobs ++ [j] ∧ j.slice = n.val ∧ j.kind = kind ∧ j.reading = true))

/-- R222: a write of BIL_CFG that changes a field is staged, logged and counted outside a billed session, and
completes with STATE inside one; R241 to R243: the signer serves the waiting job of the lowest rank, removes it and
delivers the signed block. -/
def Obligations.BillingEvents : Prop :=
  (∀ (ag : Agent) (n : Fin 8) (w : Word) (s : State), s.dev.canWrite ag 4 n.val →
    fld w 31 28 ≤ 4 → fld w 27 24 ≠ 0 → dmdMinutes (fld w 31 28) % fld w 27 24 = 0 → fld w 19 16 ≤ 6 →
    ((s.dev.nextValue (lattice 4 n.val 4)).toNat &&& 0xFF0F0000) ≠ (w.toNat &&& 0xFF0F0000) →
    (s.dev.billedSession n = false →
      ∃ t, exec (.billingCfgWrite ag (w32 (lattice 4 n.val 4)) w) s = .next t ∧ t.dev.reply.status = 0 ∧
        (t.dev.bil.tamper[9]).count = satAdd 32 (s.dev.bil.tamper[9]).count 1 ∧
        (t.dev.nextValue (lattice 4 n.val 4)).toNat &&& 0xFF0F0000 = w.toNat &&& 0xFF0F0000 ∧
        t.dev.reg 4 n.val 4 = s.dev.reg 4 n.val 4) ∧
    (s.dev.billedSession n = true →
      ∃ t, exec (.billingCfgWrite ag (w32 (lattice 4 n.val 4)) w) s = .next t ∧ t.dev.reply.status = 2 ∧
        t.dev = { s.dev with reply := t.dev.reply })) ∧
  (∀ (s : State) (j : SignJob), nextJob s.dev.bil.jobs = some j →
    j ∈ s.dev.bil.jobs ∧ (∀ k ∈ s.dev.bil.jobs, j.rank ≤ k.rank) ∧
    exec .signatureComplete s = .next (s.put
      (({ s.dev with bil := { s.dev.bil with jobs := s.dev.bil.jobs.erase j } }.signBytes j.bytes).2.deliverBlock j
        ({ s.dev with bil := { s.dev.bil with jobs := s.dev.bil.jobs.erase j } }.signBytes j.bytes).1)))

/-! ### Key store (R389 to R415) -/

/-- R398, R407 to R409, R412: a passed known-answer test makes a staged copy VERIFIED and a failed one discards it
with AUTH; KEY_COMMIT makes a VERIFIED copy live with the generation up by 1, for K1 after every block taken before it
is signed; KEY_DISCARD removes the copy; KEY_DESTROY makes the slot INVALID with its material overwritten, orphans the
descendants that hold a key, and leaves every other slot. -/
def Obligations.KeyCommands : Prop :=
  ∀ (ag : Agent) (arg : BitVec 24) (k : Fin 64) (s : State), keyTarget arg = some k → argBits arg 15 0 = 0 →
    s.dev.ready ag 10 (argUnit arg) →
    ((s.dev.key.slots[k]).staged = .staged → (s.dev.key.slots[k]).katPass s.dev.fresh = true →
      exec (.keyVerify ag arg) s = .next (s.put
        ((({ s.dev with fresh := s.dev.fresh + 1 }).updKey k fun x => { x with staged := .verified }).completed ag 10 0x11))) ∧
    ((s.dev.key.slots[k]).staged = .staged → (s.dev.key.slots[k]).katPass s.dev.fresh = false →
      ∃ t, exec (.keyVerify ag arg) s = .next t ∧ t.dev.reply.status = 5 ∧ t.dev.flagBit 10 0x40 0x14 6 = true ∧
        t.dev.key.slots[k] = { s.dev.key.slots[k] with staged := .none, copy := {} }) ∧
    ((s.dev.key.slots[k]).staged ≠ .none →
      exec (.keyDiscard ag arg) s = .next (s.put
        ((s.dev.updKey k fun x => { x with staged := .none, copy := {} }).completed ag 10 0x13))) ∧
    ((s.dev.key.slots[k]).staged = .verified → s.dev.parentReady (s.dev.key.slots[k]).copy.parent = true →
      s.dev.commitBad k.val (s.dev.key.slots[k]).copy = false →
      exec (.keyCommit ag arg) s = .next (s.put
        (((if k = 1 then s.dev.signAll s.dev.bil.jobs.length else s.dev).makeLive k).completed ag 10 0x12))) ∧
    (∀ d : Dev, ((d.makeLive k).key.slots[k]).st =
        (if (d.key.slots[k]).copy.limitEn = true ∧ (d.key.slots[k]).copy.limit = 0 then .exhausted else .valid) ∧
      ((d.makeLive k).key.slots[k]).live = (d.key.slots[k]).copy ∧
      ((d.makeLive k).key.slots[k]).gen = (d.key.slots[k]).gen + 1 ∧ ((d.makeLive k).key.slots[k]).staged = .none ∧
      ((d.makeLive k).key.slots[k]).uses = 0 ∧ ∀ x : Fin 64, x ≠ k → (d.makeLive k).key.slots[x] = d.key.slots[x]) ∧
    ((s.dev.key.slots[k]).st ≠ .empty → (s.dev.key.slots[k]).st ≠ .invalid →
      ∃ t, exec (.keyDestroy ag arg) s = .next t ∧ t.dev.reply.status = 0 ∧
        (t.dev.key.slots[k]).st = .invalid ∧ (t.dev.key.slots[k]).live.secret = 0 ∧ (t.dev.key.slots[k]).staged = .none ∧
        ∀ x : Fin 64, x ≠ k →
          (if s.dev.descends x.val k.val = true ∧ (s.dev.key.slots[x]).st.holds = true then
            (t.dev.key.slots[x]).st = .orphaned ∧ (t.dev.key.slots[x]).live.secret = 0
          else t.dev.key.slots[x] = s.dev.key.slots[x]))

/-- R402 to R406: KEY_STAGE of a signed certificate that matches its slot, and of a secret, wrapped for K2 or under a
WRAP slot, whose import tag verifies with a serial above the last, fills the staged copy and leaves the live key; a
certificate whose signature fails and a secret whose tag does not verify complete with AUTH, a secret with no higher
serial with ARG, and stage nothing. KEY_GEN fills the copy with a key from the random source. -/
def Obligations.KeyStaging : Prop :=
  ∀ (ag : Agent) (arg : BitVec 24) (k : Fin 64) (s : State) (blob : List Byte), keyTarget arg = some k →
    blob = s.dev.viewBytes ag (lattice 10 0x40 0x100) 64 → s.dev.ready ag 10 (argUnit arg) →
    (s.dev.key.slots[k]).staged ≠ .verified →
    (argBits arg 15 0 = 0 → s.dev.keyArgBad k.val (byteAt blob 0) (byteAt blob 1) (byteAt blob 2) = false →
      s.dev.parentReady (byteAt blob 1) = true →
      (byteAt blob 3 = 2 → byteAt blob 0 = 2 → certSigned (slice blob 0x10 176) = true →
        certMatches k.val (s.dev.key.slots[k]).impser (slice blob 0x10 176) = true →
        exec (.keyStage ag arg) s = .next (s.put
          ((s.dev.stage k (certCopy (blob.getD 2 0) (slice blob 0x10 176)) 0 0 false).completed ag 10 0x10))) ∧
      (byteAt blob 3 = 2 → byteAt blob 0 = 2 → certSigned (slice blob 0x10 176) = false →
        ∃ t, exec (.keyStage ag arg) s = .next t ∧ t.dev.reply.status = 5 ∧ t.dev.key = s.dev.key ∧ t.dev.flagBit 10 0x40 0x14 8 = true) ∧
      (∀ z : BitVec 256, byteAt blob 0 ≠ 1 → byteAt blob 0 ≠ 2 → byteAt blob 0 ≠ 6 →
        (byteAt blob 3 = 0 ∧ s.dev.keyValid 2 = true ∧ z = Config.ecdh (s.dev.keySlot 2).live.secret (pairOf (slice blob 0x10 64))) ∨
          (byteAt blob 3 = 1 ∧ s.dev.isWrap (byteAt blob 4) = true ∧ z = (s.dev.keySlot (byteAt blob 4)).live.secret) →
        (openSecret (importKey z k.val blob) blob = none →
          ∃ t, exec (.keyStage ag arg) s = .next t ∧ t.dev.reply.status = 5 ∧ (t.dev.key.slots[k]).staged = (s.dev.key.slots[k]).staged ∧
            (t.dev.key.slots[k]).copy = (s.dev.key.slots[k]).copy) ∧
        ∀ plain, openSecret (importKey z k.val blob) blob = some plain →
          (leAt blob 0xC 4 ≤ (s.dev.key.slots[k]).impser.toNat →
            ∃ t, exec (.keyStage ag arg) s = .next t ∧ t.dev.reply.status = 4 ∧
              (t.dev.key.slots[k]).staged = (s.dev.key.slots[k]).staged ∧ (t.dev.key.slots[k]).copy = (s.dev.key.slots[k]).copy) ∧
          ((s.dev.key.slots[k]).impser.toNat < leAt blob 0xC 4 →
            ∃ t, exec (.keyStage ag arg) s = .next t ∧ t.dev.reply.status = 0 ∧ (t.dev.key.slots[k]).staged = .staged ∧
              (t.dev.key.slots[k]).copy.secret = wideOf plain ∧ (t.dev.key.slots[k]).copy.ktype = byteAt blob 0 ∧
              (t.dev.key.slots[k]).live = (s.dev.key.slots[k]).live))) ∧
    (¬(argBits arg 15 8 = 2 ∧ fixedType k.val = some 2) →
      s.dev.keyArgBad k.val (argBits arg 15 8) (argBits arg 7 0) (byteAt blob 2) = false →
      s.dev.rootPresent = true → s.dev.parentReady (argBits arg 7 0) = true →
      ∃ t, exec (.keyGen ag arg) s = .next t ∧ t.dev.reply.status = 0 ∧ (t.dev.key.slots[k]).staged = .staged ∧
        (t.dev.key.slots[k]).generated = true ∧ (t.dev.key.slots[k]).live = (s.dev.key.slots[k]).live ∧
        (argBits arg 15 8 = 3 ∨ argBits arg 15 8 = 5 →
          (t.dev.key.slots[k]).copy.secret = Config.freeWide s.dev.fresh) ∧
        ∀ x : Fin 64, x ≠ k → t.dev.key.slots[x] = s.dev.key.slots[x])

/-- R406, R411: the answers of the key store: KEY_RESPOND puts the MAC of the agent's challenge and the device
identity into its KEY_RESP view, KEY_CHALLENGE a random value into its KEY_CHAL view, KEY_CHECK compares, answers OK
or AUTH and clears the challenge in both cases, and KEY_ATTEST signs the statement of a slot with K0. R390, R391,
R400: the mask share is replaced once a second and the XOR of the shares stays; the tamper event clears both shares,
orphans every slot whose chain leads to KROOT, clears the agents' key views (R414) and counts ENCLOSURE_OPEN; a count without a limit is committed at most
every 10 s. -/
def Obligations.KeyAnswers : Prop :=
  (∀ (ag : Agent) (arg : BitVec 24) (s : State),
     (∀ k : Fin 64, keyTarget arg = some k → argBits arg 15 0 = 0 → s.dev.ready ag 10 (argUnit arg) →
       (s.dev.agentSlot k = true →
         exec (.keyRespond ag arg) s = .next (s.put
           (((s.dev.setViewBytes ag (lattice 10 0x40 0x220) 8 (wideBytes (s.dev.response ag k))).useKey k).completed ag 10 0x16)) ∧
         (s.dev.chal ag ≠ List.replicate 32 0 →
           (wideOf (s.dev.viewBytes ag (lattice 10 0x40 0x220) 8) = s.dev.response ag k →
             exec (.keyCheck ag arg) s = .next (s.put
               (((s.dev.useKey k).setViewBytes ag (lattice 10 0x40 0x200) 8 (List.replicate 32 0)).completed ag 10 0x18))) ∧
           (wideOf (s.dev.viewBytes ag (lattice 10 0x40 0x220) 8) ≠ s.dev.response ag k →
             ∃ t, exec (.keyCheck ag arg) s = .next t ∧ t.dev.reply.status = 5 ∧ t.dev.chal ag = List.replicate 32 0))) ∧
       ((s.dev.key.slots[k]).st = .valid → (s.dev.key.slots[k]).live.ktype = 1 ∨ (s.dev.key.slots[k]).live.ktype = 6 →
         s.dev.keyValid 0 = true →
         let body := deviceId ++ [BitVec.ofNat 8 k.val, BitVec.ofNat 8 (s.dev.key.slots[k]).live.ktype,
           (s.dev.key.slots[k]).gen, 0] ++ leBytes 4 (s.dev.key.slots[k]).uses ++ pairBytes (s.dev.key.slots[k]).live.pub ++
           List.replicate 8 0
         ∃ t, exec (.keyAttest ag arg) s = .next t ∧ t.dev.reply.status = 0 ∧
           t.dev.viewBytes ag (lattice 10 0x40 0x100) 40 =
             body ++ pairBytes (Config.ecdsaSign (s.dev.keySlot 0).live.secret body s.dev.fresh))) ∧
     (arg = 0 → s.dev.ready ag 10 0xFF → s.dev.key.rngOk = true →
       exec (.keyChallenge ag arg) s = .next (s.put
         ((({ s.dev with fresh := s.dev.fresh + 1 }).setViewBytes ag (lattice 10 0x40 0x200) 8
           (wideBytes (Config.freeWide s.dev.fresh))).completed ag 10 0x17)))) ∧
  (∀ s : State,
     (∀ m o, s.dev.key.share = some (m, o) → s.dev.key.tMask + 1000000000 ≤ s.dev.tim.elapsed →
       ∃ t n p, exec .krootRemask s = .next t ∧ t.dev.key.share = some (n, p) ∧ n ^^^ p = m ^^^ o ∧
         n = Config.freeWide s.dev.fresh ∧ t.dev.key.tMask = s.dev.tim.elapsed ∧ t.dev.key.slots = s.dev.key.slots) ∧
     (∀ k : Fin 64, (s.dev.key.slots[k]).live.limitEn = false → (s.dev.key.slots[k]).uses ≠ (s.dev.key.slots[k]).reserved →
       (s.dev.key.slots[k]).tUse + 10000000000 ≤ s.dev.tim.elapsed →
       exec (.useCountCommit k) s = .next (s.put
         (s.dev.updKey k fun x => { x with reserved := x.uses, tUse := s.dev.tim.elapsed }))) ∧
     (s.dev.key.tamper = false → s.dev.pwr.held = true → s.dev.pwr.siltGone = true → exec .tamperEvent s = .next s) ∧
     (s.dev.key.tamper = false → s.dev.pwr.held = false ∨ s.dev.pwr.siltGone = false →
       ∃ t, exec .tamperEvent s = .next t ∧ t.dev.key.share = none ∧ t.dev.key.tamper = true ∧ t.dev.tag.keyCopy = none ∧
         t.dev.tag.sess = none ∧ (t.dev.bil.tamper[0]).count = satAdd 32 (s.dev.bil.tamper[0]).count 1 ∧
         (∀ k : Fin 64, s.dev.chainsToRoot k.val = true → (s.dev.key.slots[k]).st.holds = true →
           (t.dev.key.slots[k]).st = .orphaned ∧ (t.dev.key.slots[k]).live.secret = 0 ∧ (t.dev.key.slots[k]).staged = .none) ∧
         (∀ k : Fin 64, s.dev.rooted (s.dev.key.slots[k]).copy.parent = true → (t.dev.key.slots[k]).staged = .none) ∧
         ∀ ag : Agent, t.dev.chal ag = List.replicate 32 0) ∧
     exec .tamperInactive s = .next (s.put { s.dev with key := { s.dev.key with tamper := false } }))

/-! ### Connector control (R249 to R281) -/

/-- R262 to R268, R280: the commands of a session in the states that accept them: AUTHORIZE before and in AUTHORIZING,
DENY, STOP with the agent's reason, or with EV_STOP and at once where A1's hint says so, SUSPEND, RESUME and
FAULT_CLEAR. -/
def Obligations.SessionCommands : Prop :=
  ∀ (ag : Agent) (arg : BitVec 24) (n : Fin 8) (s : State), argUnit arg = n.val → s.dev.ready ag 5 n.val →
    s.dev.present n.val = true →
    (methodAllowed ag (argBits arg 15 8) = true →
      ((s.dev.evc.s[n]).st = .idle ∨ (s.dev.evc.s[n]).st = .plugged →
        exec (.authorize ag arg) s = .next (s.put ((s.dev.updEvc n fun x => { x with
          preauth := some { method := argBits arg 15 8, ref := s.dev.authRef ag n, since := s.dev.tim.elapsed } }).completed
            ag 5 0x10))) ∧
      ((s.dev.evc.s[n]).st = .authorizing →
        ∃ t, exec (.authorize ag arg) s = .next t ∧ (t.dev.evc.s[n]).st = .authorized ∧
          (t.dev.evc.s[n]).method = argBits arg 15 8 ∧ (t.dev.evc.s[n]).ref = s.dev.authRef ag n ∧
          (t.dev.evc.s[n]).preauth = none ∧ t.dev.reply.status = 0)) ∧
    (argBits arg 15 8 = 0 →
      ((s.dev.evc.s[n]).st = .authorizing →
        ∃ t, exec (.deny ag arg) s = .next t ∧ (t.dev.evc.s[n]).st = .finished ∧ (t.dev.evc.s[n]).reason = 9 ∧
          t.dev.reply.status = 0) ∧
      (ag ≠ .core ∨ bit (s.dev.reg 5 n.val 0x10) 0 = false →
        ((s.dev.evc.s[n]).st = .idle ∨ (s.dev.evc.s[n]).st = .plugged →
          exec (.evcStop ag arg) s = .next (s.put ((s.dev.updEvc n fun x => { x with preauth := none }).completed ag 5 0x12))) ∧
        ((s.dev.evc.s[n]).st = .authorizing ∨ (s.dev.evc.s[n]).st = .authorized →
          ∃ t, exec (.evcStop ag arg) s = .next t ∧ (t.dev.evc.s[n]).st = .finished ∧
            (t.dev.evc.s[n]).reason = stopReason ag ∧ t.dev.reply.status = 0) ∧
        ((s.dev.evc.s[n]).st = .energizing ∨ (s.dev.evc.s[n]).st = .charging ∨ (s.dev.evc.s[n]).st = .suspended →
          ∃ t, exec (.evcStop ag arg) s = .next t ∧ (t.dev.evc.s[n]).st = .stopping ∧
            (t.dev.evc.s[n]).reason = stopReason ag ∧ t.dev.reply.status = 0)) ∧
      (ag = .core → bit (s.dev.reg 5 n.val 0x10) 0 = true →
        ((s.dev.evc.s[n]).st = .energizing ∨ (s.dev.evc.s[n]).st = .charging ∨ (s.dev.evc.s[n]).st = .suspended →
          ∃ t, exec (.evcStop ag arg) s = .next t ∧ (t.dev.evc.s[n]).st = .stopping ∧ (t.dev.evc.s[n]).reason = 2 ∧
            (t.dev.evc.s[n]).asking = false ∧ t.dev.reg 5 n.val 0x10 = 0 ∧ t.dev.reply.status = 0) ∧
        ((s.dev.evc.s[n]).st = .authorizing ∨ (s.dev.evc.s[n]).st = .authorized →
          ∃ t, exec (.evcStop ag arg) s = .next t ∧ (t.dev.evc.s[n]).st = .finished ∧ (t.dev.evc.s[n]).reason = 2 ∧
            t.dev.reg 5 n.val 0x10 = 0 ∧ t.dev.reply.status = 0) ∧
        ((s.dev.evc.s[n]).st = .idle ∨ (s.dev.evc.s[n]).st = .plugged →
          ∃ t, exec (.evcStop ag arg) s = .next t ∧ (t.dev.evc.s[n]).preauth = none ∧ (t.dev.evc.s[n]).st = (s.dev.evc.s[n]).st ∧
            t.dev.reg 5 n.val 0x10 = 0 ∧ t.dev.reply.status = 0)) ∧
      ((s.dev.evc.s[n]).st = .charging →
        ∃ t, exec (.suspend ag arg) s = .next t ∧ (t.dev.evc.s[n]).st = .suspended ∧ (t.dev.evc.s[n]).susp = .command ∧
          t.dev.reply.status = 0) ∧
      ((s.dev.evc.s[n]).st = .suspended → (s.dev.evc.s[n]).susp ≠ .vehicle →
        exec (.resume ag arg) s = .next (s.put ((s.dev.updEvc n fun x => { x with susp := .lifted }).completed ag 5 0x14))) ∧
      ((s.dev.evc.s[n]).st = .fault → (s.dev.evc.s[n]).pilot = .A → (s.dev.kao.m[n]).st = .armed →
        ∃ t, exec (.faultClear ag arg) s = .next t ∧ (t.dev.evc.s[n]).st = .idle ∧ t.dev.reply.status = 0))

/-- R253, R257, R262 to R268, R275, R281: what ends a wait of a session, once its time has passed: authorisation,
pre-authorisation, the fallback to PWM, the steps of the close sequence and the whole of it, the wait before the
opening, the confirmation of the opening, the SESSION_END reading, the overcurrent count, a silent DC module; and a
fault of the pilot driver. -/
def Obligations.SessionTimers : Prop :=
  ∀ (n : Fin 8) (s : State),
    ((s.dev.evc.s[n]).st = .authorizing → s.dev.rfld 5 n.val 4 31 24 ≠ 0 →
      (s.dev.evc.s[n]).tAuth + s.dev.rfld 5 n.val 4 31 24 * 10000000000 ≤ s.dev.tim.elapsed →
      ∃ t, exec (.authTimeout n) s = .next t ∧ (t.dev.evc.s[n]).st = .finished ∧ (t.dev.evc.s[n]).reason = 10) ∧
    (∀ p, (s.dev.evc.s[n]).preauth = some p → p.since + 120000000000 ≤ s.dev.tim.elapsed →
      exec (.preauthExpiry n) s = .next (s.put (s.dev.updEvc n fun x => { x with preauth := none }))) ∧
    (s.dev.evcComm n = 2 → (s.dev.evc.s[n]).fellBack = false → (s.dev.evc.s[n]).st.connected = true →
      (s.dev.evc.s[n]).tPlug + 20000000000 ≤ s.dev.tim.elapsed → (s.dev.evc.s[n]).matchedInTime = false →
      ∃ t, exec (.pwmFallback n) s = .next t ∧ (t.dev.evc.s[n]).fellBack = true ∧ (t.dev.evc.s[n]).st = (s.dev.evc.s[n]).st ∧
        t.dev = { s.dev with evc := t.dev.evc }) ∧
    ((s.dev.evc.s[n]).st = .energizing →
      ((s.dev.evc.s[n]).close = .lock → (s.dev.evc.s[n]).tEnergize + 500000000 ≤ s.dev.tim.elapsed → s.dev.lockConfirmed n = false →
        ∃ t, exec (.lockConfirmTimeout n) s = .next t ∧ (t.dev.evc.s[n]).st = .stopping ∧ (t.dev.evc.s[n]).reason = 14) ∧
      ((s.dev.evc.s[n]).close = .ken → (s.dev.kao.m[n]).ken = true → s.dev.mtrRuns n.val = true →
        s.dev.tim.now % 62500 = 0 →
        ∃ t, exec (.contactorEnergize n) s = .next t ∧ (t.dev.evc.s[n]).close = .energized ∧
          (t.dev.evc.s[n]).startTaken = true ∧ (t.dev.evc.s[n]).tLsw = s.dev.tim.elapsed ∧ (t.dev.evc.s[n]).st = .energizing) ∧
      ((s.dev.evc.s[n]).close = .energized → (s.dev.kao.m[n]).fb = false →
        (s.dev.evc.s[n]).tLsw + s.dev.rfld 5 n.val 8 15 8 * 1000000 ≤ s.dev.tim.elapsed →
        ∃ t, exec (.closeTimeout n) s = .next t ∧ (t.dev.evc.s[n]).st = .fault ∧ (t.dev.evc.s[n]).reason = 18 ∧
          (t.dev.evc.s[n]).asking = false) ∧
      ((s.dev.evc.s[n]).tEnergize + 60000000000 ≤ s.dev.tim.elapsed →
        ∃ t, exec (.energizeTimeout n) s = .next t ∧ (t.dev.evc.s[n]).st = .stopping ∧ (t.dev.evc.s[n]).reason = 21)) ∧
    ((s.dev.evc.s[n]).waiting = true → (s.dev.evc.s[n]).waitEnd ≤ s.dev.tim.elapsed →
      ∃ t, exec (.stopWaitEnd n) s = .next t ∧ (t.dev.evc.s[n]).waiting = false ∧ (t.dev.evc.s[n]).asking = false ∧
        (t.dev.evc.s[n]).tOpen = (if s.dev.coilOn n = true ∨ (s.dev.evc.s[n]).tOpen = none then some s.dev.tim.elapsed
          else (s.dev.evc.s[n]).tOpen) ∧
        (s.dev.limpMapped n.val = false → s.dev.lswOwned n.val = true → (s.dev.lsw.c[coil n]).demand = true → t.dev.coilOn n = false) ∧
        (t.dev.evc.s[n]).st = (s.dev.evc.s[n]).st ∧
        t.dev = { s.dev with evc := t.dev.evc, lsw := t.dev.lsw }) ∧
    ((s.dev.evc.s[n]).endDue = true →
      (∀ t0, (s.dev.evc.s[n]).tOpen = some t0 → t0 + 100000000 ≤ s.dev.tim.elapsed → (s.dev.kao.m[n]).fb = true →
        ((s.dev.evc.s[n]).st = .stopping ∨ (s.dev.evc.s[n]).st = .suspended →
          ∃ t, exec (.openConfirmTimeout n) s = .next t ∧ (t.dev.evc.s[n]).st = .fault ∧ (t.dev.evc.s[n]).reason = 16 ∧
            (t.dev.evc.s[n]).endDue = false) ∧
        ((s.dev.evc.s[n]).st = .fault →
          ∃ t, exec (.openConfirmTimeout n) s = .next t ∧ (t.dev.evc.s[n]).st = .fault ∧
            (t.dev.evc.s[n]).reason = (s.dev.evc.s[n]).reason ∧ (t.dev.evc.s[n]).endDue = false)) ∧
      ((s.dev.evc.s[n]).tOpen.isSome = true → (s.dev.kao.m[n]).fb = false → s.dev.tim.now % 62500 = 0 →
        ((s.dev.evc.s[n]).st = .stopping →
          exec (.sessionEndReading n) s = .next (s.put
            ((s.dev.sessionEnd n (s.dev.evc.s[n]).reason).updEvc n fun x => { x with endDue := false }))) ∧
        ((s.dev.evc.s[n]).st = .fault →
          exec (.sessionEndReading n) s = .next (s.put
            (((s.dev.sessionEnd n (s.dev.evc.s[n]).reason).updEvc n fun x => { x with endDue := false }).setLock n false))))) ∧
    ((s.dev.evc.s[n]).st = .charging → 25 ≤ (s.dev.evc.s[n]).overRun →
      ∃ t, exec (.evOvercurrent n) s = .next t ∧ (t.dev.evc.s[n]).st = .stopping ∧ (t.dev.evc.s[n]).reason = 19) ∧
    ((s.dev.evc.s[n]).st = .energizing ∨ (s.dev.evc.s[n]).st = .charging →
      (s.dev.dcFrames n = true → (s.dev.evc.s[n]).tRx + s.dev.rfld 5 n.val 0x64 23 16 * 10000000 ≤ s.dev.tim.elapsed →
        ∃ t, exec (.moduleLost n) s = .next t ∧ (t.dev.evc.s[n]).st = .stopping ∧ (t.dev.evc.s[n]).reason = 15 ∧
          (t.dev.evc.s[n]).fresh = false)) ∧
    ((s.dev.evc.s[n]).fn.st = .running →
      ∃ t, exec (.evcPilotDriverFault n) s = .next t ∧ (t.dev.evc.s[n]).fn.st = .fault ∧ (t.dev.evc.s[n]).fn.code = 2 ∧
        (t.dev.evc.s[n]).st = .fault ∧ (t.dev.evc.s[n]).drive = 1 ∧
        ((s.dev.evc.s[n]).st ≠ .fault → (t.dev.evc.s[n]).reason = 13))

/-- R144, R251, R254, R255, R281: a control cycle of a present slice measures: the pilot levels, the debounced pilot
state, the proximity code and the grant with its limiter are those of the cycle, whatever the session then does; a
failed transfer of the line's die is a fault of a running function, and sets SYS_FLAGS.die_link. -/
def Obligations.ControlCycle : Prop :=
  ∀ (n : Fin 8) (m : CycleMeas) (s : State), s.dev.due (keyCycle n.val) 1000000 = true → s.dev.present n.val = true →
    (m.linkOk = true →
      ∃ t, exec (.controlCycle n m) s = .next t ∧ (t.dev.evc.s[n]).highMv = m.highMv ∧ (t.dev.evc.s[n]).lowMv = m.lowMv ∧
        (t.dev.evc.s[n]).diode = ((s.dev.evc.s[n]).pwmOn && decide (-10500 < m.lowMv)) ∧
        (t.dev.evc.s[n]).ppCode = ppCodeOf m.ppOhm ∧
        ((t.dev.evc.s[n]).grant, (t.dev.evc.s[n]).limiter) = s.dev.grantOf n (ppCodeOf m.ppOhm) ∧
        (t.dev.evc.s[n]).pilot = (if s.dev.rfld 5 n.val 8 7 0 ≤
            (if (s.dev.evc.s[n]).pilotRead m.highMv = (s.dev.evc.s[n]).cand then (s.dev.evc.s[n]).candN + 1 else 1)
          then (s.dev.evc.s[n]).pilotRead m.highMv else (s.dev.evc.s[n]).pilot) ∧
        (t.dev.evc.s[n]).young = false ∧
        t.dev.lastRun (keyCycle n.val) = some s.dev.tim.now ∧ t.dev.tim.now = s.dev.tim.now) ∧
    (m.linkOk = false → (s.dev.evc.s[n]).fn.st = .running →
      ∃ t, exec (.controlCycle n m) s = .next t ∧ (t.dev.evc.s[n]).fn.st = .fault ∧ (t.dev.evc.s[n]).fn.code = 1 ∧
        (t.dev.evc.s[n]).st = .fault ∧ t.dev.flagBit 0 0 0x10 3 = true)

/-- R260 to R262: the transitions of a session at a control cycle: a trip goes first, then a pilot fault; a state entered
since the last cycle stays for this one; then a plug and an unplug, the refused start, the close conditions, the closed
contactor, the vehicle's suspension, the loss of metrology, the end of STOPPING. -/
def Obligations.SessionTransitions : Prop :=
  ∀ (d : Dev) (n : Fin 8),
    ((d.evc.s[n]).tripSeen = true → (d.evc.s[n]).st ≠ .fault →
      ((d.sessionStep n).evc.s[n]).st = .fault ∧ ((d.sessionStep n).evc.s[n]).reason = 11) ∧
    ((d.evc.s[n]).tripSeen = false → (d.evc.s[n]).fn.isRunning = true → d.pilotFault n = false →
      ((d.evc.s[n]).young = true → d.sessionStep n = d.openCycle n) ∧
      ((d.evc.s[n]).young = false → d.sessionStep n = (d.openCycle n).sessionCycle n)) ∧
    ((d.evc.s[n]).waiting = false → (d.evc.s[n]).st ≠ .suspended → d.openCycle n = d) ∧
    ((d.evc.s[n]).tripSeen = false → (d.evc.s[n]).fn.isRunning = true → d.pilotFault n = true →
      ((d.sessionStep n).evc.s[n]).st = .fault ∧ ((d.sessionStep n).evc.s[n]).reason = 13) ∧
    ((d.evc.s[n]).st = .idle → (d.evc.s[n]).pilot = .B ∨ (d.evc.s[n]).pilot = .C ∨ (d.evc.s[n]).pilot = .D →
      ((d.sessionCycle n).evc.s[n]).st = .plugged ∧ ((d.sessionCycle n).evc.s[n]).tPlug = d.tim.elapsed) ∧
    ((d.evc.s[n]).st = .idle → (d.evc.s[n]).pilot = .A → d.sessionCycle n = d) ∧
    ((d.evc.s[n]).st = .plugged → (d.evc.s[n]).pilot = .A → ((d.sessionCycle n).evc.s[n]).st = .idle) ∧
    ((d.evc.s[n]).st = .plugged → (d.evc.s[n]).pilot = .B ∨ (d.evc.s[n]).pilot = .C → d.startRefuse n ≠ 0 →
      ((d.sessionCycle n).evc.s[n]).st = .plugged ∧ ((d.sessionCycle n).evc.s[n]).refuse = d.startRefuse n) ∧
    ((d.evc.s[n]).st = .authorizing ∨ (d.evc.s[n]).st = .authorized → (d.evc.s[n]).pilot = .A →
      ((d.sessionCycle n).evc.s[n]).st = .finished ∧ ((d.sessionCycle n).evc.s[n]).reason = 1) ∧
    ((d.evc.s[n]).st = .authorized → (d.evc.s[n]).pilot ≠ .A → d.closeConditions n = true →
      ((d.sessionCycle n).evc.s[n]).st = .energizing) ∧
    ((d.evc.s[n]).st = .energizing → (d.evc.s[n]).pilot = .C → d.mtrFault n = false → (d.evc.s[n]).close = .energized →
      (d.kao.m[n]).fb = true → ((d.sessionCycle n).evc.s[n]).st = .charging) ∧
    ((d.evc.s[n]).st = .charging → (d.evc.s[n]).pilot = .A →
      ((d.sessionCycle n).evc.s[n]).st = .stopping ∧ ((d.sessionCycle n).evc.s[n]).reason = 1) ∧
    ((d.evc.s[n]).st = .charging → (d.evc.s[n]).pilot = .B → d.mtrFault n = false →
      ((d.sessionCycle n).evc.s[n]).st = .suspended ∧ ((d.sessionCycle n).evc.s[n]).susp = .vehicle ∧
        ((d.sessionCycle n).evc.s[n]).asking = false) ∧
    ((d.evc.s[n]).st = .charging → (d.evc.s[n]).pilot = .C → d.mtrFault n = true →
      ((d.sessionCycle n).evc.s[n]).st = .stopping ∧ ((d.sessionCycle n).evc.s[n]).reason = 12) ∧
    ((d.evc.s[n]).st = .stopping → d.mtrFault n = false → (d.evc.s[n]).tOpen.isSome = true → (d.evc.s[n]).endDue = false →
      ((d.sessionCycle n).evc.s[n]).st = .finished ∧ ((d.sessionCycle n).evc.s[n]).reason = (d.evc.s[n]).reason) ∧
    ((d.evc.s[n]).st = .finished → (d.evc.s[n]).pilot = .A → ((d.sessionCycle n).evc.s[n]).st = .idle)

/-- R273 to R278, R118: a status frame of a DC module is taken by its slice, and any other frame passes to firmware; a
CAN or an Ethernet message of a queue goes out on its port or line; an authorisation message of an allowed agent and
method for the session authorises or denies it in AUTHORIZING, and any other sets EVC_FLAGS.auth_stale; a modem goes
through SLAC to MATCHED, or waits where another is nearer, and loses the match after 1 s without a frame. -/
def Obligations.LinkFrames : Prop :=
  (∀ (port : Fin 2) (f : CanFrame) (n : Fin 8) (s : State), s.dev.statusSlice port f = some n →
    ∃ t, exec (.dcStatusFrame port f) s = .next t ∧ exec (.canFrameRx port f) s = .next t ∧ (t.dev.evc.s[n]).rxSeq = f.data.headD 0 ∧
      (t.dev.evc.s[n]).fresh = true ∧ (t.dev.evc.s[n]).tRx = s.dev.tim.elapsed ∧
      (t.dev.evc.s[n]).outDv = BitVec.ofNat 16 (leAt f.data 2 2) ∧ (t.dev.evc.s[n]).outDa = BitVec.ofNat 16 (leAt f.data 4 2) ∧
      t.dev = { s.dev with evc := t.dev.evc } ∧ ∀ m : Fin 8, m ≠ n → t.dev.evc.s[m] = s.dev.evc.s[m]) ∧
  (∀ (port : Fin 2) (f : CanFrame) (s : State), s.dev.statusSlice port f = none →
    exec (.canFrameRx port f) s = .next (s.put (s.dev.passCan port f)) ∧ exec (.dcStatusFrame port f) s = .next s) ∧
  (∀ (port : Fin 2) (q : Fin 64) (cs : List WordCheck) (s : State), s.dev.que.q[q].entry.cons = 0x0B + port.val →
    s.dev.serves q = true → ∀ ws d1, s.dev.takeMsg q cs = (some ws, d1) → isPoison ws = false →
    exec (.canFrameTx port ⟨q, cs⟩) s = .next (s.put (d1.sendCan port
      { ext := (Config.canFrame (ws.drop 1)).1, id := (Config.canFrame (ws.drop 1)).2.1, data := (Config.canFrame (ws.drop 1)).2.2 }))) ∧
  (∀ (n : Fin 8) (q : Fin 64) (cs : List WordCheck) (s : State) (ws : List QData) (d1 : Dev), s.dev.que.q[q].entry.cons = 0x20 + n.val →
    s.dev.present n.val = true → s.dev.serves q = true → s.dev.takeMsg q cs = (some ws, d1) → ws.length = 5 → hdrType (msgHead ws) = 0x31 →
    (∀ ag, authAgent s.dev.que.q[q].entry.prod = some ag → methodAllowed ag (bits (ws.getD 1 0).toNat 63 56) = true →
      (d1.evc.s[n]).st = .authorizing → hdrIdent (msgHead ws) = (d1.evc.s[n]).sid.toNat →
      (bits (ws.getD 1 0).toNat 55 48 = 0 →
        ∃ t, exec (.authMessage n ⟨q, cs⟩) s = .next t ∧ (t.dev.evc.s[n]).st = .authorized ∧
          (t.dev.evc.s[n]).method = bits (ws.getD 1 0).toNat 63 56) ∧
      (bits (ws.getD 1 0).toNat 55 48 = 1 →
        ∃ t, exec (.authMessage n ⟨q, cs⟩) s = .next t ∧ (t.dev.evc.s[n]).st = .finished ∧ (t.dev.evc.s[n]).reason = 9)) ∧
    ((d1.evc.s[n]).st ≠ .authorizing → exec (.authMessage n ⟨q, cs⟩) s = .next (s.put (d1.raiseEvc n.val 12)))) ∧
  (∀ (n : Fin 8) (s : State),
    (∀ (mac : BitVec 48) (atten : Nat), s.dev.gpOpen n = true →
      (s.dev.evc.gp[n]).st = .wait ∨ (s.dev.evc.gp[n]).st = .slac ∨ (s.dev.evc.gp[n]).st = .lost → atten ≤ 255 →
      ∃ t, exec (.slacParmRequest n mac atten) s = .next t ∧ (t.dev.evc.gp[n]).st = .slac ∧ (t.dev.evc.gp[n]).slacMac = mac ∧
        (t.dev.evc.gp[n]).atten = atten ∧ t.dev = { s.dev with evc := { s.dev.evc with gp := t.dev.evc.gp } }) ∧
    (s.dev.gpOpen n = true → (s.dev.evc.gp[n]).st = .slac → (s.dev.evc.gp[n]).atten ≤ s.dev.rfld 5 (0x10 + n.val) 0 31 24 →
      s.dev.slacQualifies n = true →
      ∃ t, exec (.slacMatch n) s = .next t ∧ (t.dev.evc.gp[n]).st = .matched ∧ (t.dev.evc.gp[n]).mac = (s.dev.evc.gp[n]).slacMac ∧
        t.dev.flagBit 5 n.val 0x30 8 = true) ∧
    (s.dev.gpOpen n = true → (s.dev.evc.gp[n]).st = .slac → s.dev.slacQualifies n = false →
      exec (.slacMatch n) s = .next (s.put (s.dev.updGp n fun g => { g with st := .wait }))) ∧
    ((s.dev.evc.gp[n]).st = .matched →
      ((s.dev.evc.gp[n]).tRx + 1000000000 ≤ s.dev.tim.elapsed →
        ∃ t, exec (.slacLost n) s = .next t ∧ (t.dev.evc.gp[n]).st = .lost ∧ t.dev.flagBit 5 n.val 0x30 9 = true) ∧
      (s.dev.runs (2 + n.val) = true →
        (∀ bytes, ∃ t, exec (.gpFrameRx n bytes) s = .next t ∧ (t.dev.evc.gp[n]).tRx = s.dev.tim.elapsed ∧
          (t.dev.evc.gp[n]).st = .matched) ∧
        (∀ (q : Fin 64) (cs : List WordCheck) (ws : List QData) (d1 : Dev), s.dev.que.q[q].entry.cons = 0x28 + n.val →
          s.dev.serves q = true → s.dev.takeMsg q cs = (some ws, d1) → isPoison ws = false →
          exec (.gpFrameTx n ⟨q, cs⟩) s = .next (s.put (d1.updGp n fun g => { g with lastTx := Config.gpFrame (ws.drop 1) }))))))

/-! ### Kaolin (R282 to R332) -/

/-- R299 to R301, R314, R331: a source of a present slice whose filter is full becomes active and latched; an ARMED
machine opens KENn and trips on the action TRIP where the escalation has no limit, goes to LOCKOUT on LOCK and UPSTREAM,
and on NONE stays ARMED with KENn as it was. A source whose filter is empty becomes inactive and leaves the latched half
and the machine; ESTOP is one input of every slice. A source that TRIP_TEST forces becomes active after its filter
time, and its trip is marked as a test. -/
def Obligations.KaolinSources : Prop :=
  ∀ (n : Fin 8) (src : Fin 16) (s : State), s.dev.present n.val = true →
    (∀ t0, (s.dev.kao.m[n]).force = some (src.val, t0) → t0 + s.dev.kaoFilter n src.val * 9 / 10 ≤ s.dev.tim.elapsed →
      src.val ≠ 15 → (s.dev.kao.m[n]).isActive src.val = false → (s.dev.kao.m[n]).st = .armed → s.dev.kaoAction n src.val = 1 →
      ∃ t, exec (.kaolinSourceActive n src) s = .next t ∧ (t.dev.kao.m[n]).active.getLsbD src.val = true ∧
        (t.dev.kao.m[n]).st = .tripped ∧ (t.dev.kao.m[n]).ken = false ∧ (t.dev.kao.m[n]).tripTest = true ∧
        (t.dev.kao.m[n]).tripSource = src.val) ∧
    ((s.dev.kao.m[n]).force = none → s.dev.rawPossible n src.val = true →
      (s.dev.kao.m[n]).isActive src.val = false → ((s.dev.kao.m[n]).raw.getLsbD src.val = true → s.dev.charged n src = true) →
      ∃ t, exec (.kaolinSourceActive n src) s = .next t ∧ (t.dev.kao.m[n]).active.getLsbD src.val = true ∧
        (t.dev.kao.m[n]).latched.getLsbD src.val = true ∧
        (∀ k : Fin 16, k ≠ src → (t.dev.kao.m[n]).active.getLsbD k.val = (s.dev.kao.m[n]).active.getLsbD k.val) ∧
        ((s.dev.kao.m[n]).st = .armed →
          (s.dev.kaoAction n src.val = 0 → (t.dev.kao.m[n]).st = .armed ∧ (t.dev.kao.m[n]).ken = (s.dev.kao.m[n]).ken) ∧
          (s.dev.kaoAction n src.val = 1 → s.dev.kaoCommon 1 = 0 →
            (t.dev.kao.m[n]).st = .tripped ∧ (t.dev.kao.m[n]).ken = false ∧ (t.dev.kao.m[n]).tripSource = src.val ∧
            t.dev.flagBit 6 8 0x18 0 = true ∧ (t.dev.evc.s[n]).tripSeen = true) ∧
          (2 ≤ s.dev.kaoAction n src.val →
            (t.dev.kao.m[n]).st = .lockout ∧ (t.dev.kao.m[n]).ken = false ∧ t.dev.cell.lockout.getLsbD n.val = true ∧
            (s.dev.kaoAction n src.val = 3 → t.dev.cell.upstream.getLsbD n.val = true))) ∧
        ((s.dev.kao.m[n]).st = .unconfirmed → (t.dev.kao.m[n]).st = .unconfirmed)) ∧
    ((s.dev.kao.m[n]).force = none → src.val ≠ 5 → src.val ≠ 11 → src.val ≠ 12 →
      (src.val = 2 → (s.dev.kao.m[n]).resFail = false) →
      (s.dev.kao.m[n]).raw.getLsbD src.val = true ∨ s.dev.discharged n src = true →
      ∃ t, exec (.kaolinSourceInactive n src) s = .next t ∧ (t.dev.kao.m[n]).active.getLsbD src.val = false ∧
        (t.dev.kao.m[n]).latched = (s.dev.kao.m[n]).latched ∧ (t.dev.kao.m[n]).st = (s.dev.kao.m[n]).st ∧
        t.dev = { s.dev with kao := t.dev.kao } ∧
        ∀ k : Fin 8, k ≠ n → (t.dev.kao.m[k]).st = (s.dev.kao.m[k]).st ∧ (t.dev.kao.m[k]).latched = (s.dev.kao.m[k]).latched ∧
          (src.val ≠ 10 → t.dev.kao.m[k] = s.dev.kao.m[k]))

/-- R316, R317, R283, R284, R296, R315: KENn closes only on a close request that meets every condition, in their
order; a refused one reads its reason in KAO_STATE.refuse; a withdrawn request opens KENn, with a release window from
a closed one; the window ends after 105 cycles of the trimmed oscillator, at least 100.4 ms, and with FBn closed WELD is
active; the feedback changes neither KENn nor the machine; REARM arms a machine whose rearm conditions have held for the
rearm time. -/
def Obligations.KaolinClose : Prop :=
  ∀ (n : Fin 8) (s : State),
    ((s.dev.evc.s[n]).asking = true → (s.dev.kao.m[n]).req = false → s.dev.present n.val = true →
      (s.dev.closeRefusal n = 0 → s.dev.pwr.uvlo = false →
        ∃ t, exec (.closeRequest n) s = .next t ∧ (t.dev.kao.m[n]).ken = true ∧ (t.dev.kao.m[n]).req = true ∧
          (t.dev.kao.m[n]).resRunning = false ∧ (t.dev.kao.m[n]).st = .armed ∧
          ((s.dev.evc.s[n]).st = .energizing → (s.dev.evc.s[n]).close = .requested → (t.dev.evc.s[n]).close = .ken)) ∧
      (s.dev.closeRefusal n ≠ 0 → (s.dev.kao.m[n]).ken = false →
        ∃ t, exec (.closeRequest n) s = .next t ∧ (t.dev.kao.m[n]).ken = false ∧ (t.dev.kao.m[n]).refuse = s.dev.closeRefusal n ∧
          ((s.dev.evc.s[n]).st = .energizing → (s.dev.evc.s[n]).close = .requested →
            (t.dev.evc.s[n]).st = .stopping ∧ (t.dev.evc.s[n]).reason = 20))) ∧
    ((s.dev.kao.m[n]).req = true →
      ∃ t, exec (.closeWithdraw n) s = .next t ∧ (t.dev.kao.m[n]).req = false ∧ (t.dev.kao.m[n]).ken = false ∧
        (t.dev.kao.m[n]).window = (if (s.dev.kao.m[n]).ken = true ∧ (s.dev.kao.m[n]).reqAt ≠ some s.dev.tim.elapsed
          then some s.dev.tim.elapsed else (s.dev.kao.m[n]).window) ∧
        t.dev = { s.dev with kao := t.dev.kao } ∧ ∀ k : Fin 8, k ≠ n → t.dev.kao.m[k] = s.dev.kao.m[k]) ∧
    (∀ closed, ∃ t, exec (.feedbackChange n closed) s = .next t ∧ (t.dev.kao.m[n]).fb = closed ∧
      (t.dev.kao.m[n]).ken = (s.dev.kao.m[n]).ken ∧ (t.dev.kao.m[n]).st = (s.dev.kao.m[n]).st ∧
      t.dev = { (if closed = true ∧ (s.dev.kao.m[n]).fb = false then
        s.dev.updEvc n fun x => { x with ops := min (x.ops + 1) 0xFFFFFF } else s.dev) with kao := t.dev.kao }) ∧
    (∀ t0, (s.dev.kao.m[n]).window = some t0 → t0 + 100400000 ≤ s.dev.tim.elapsed →
      ∃ t, exec (.releaseWindowEnd n) s = .next t ∧
        ((s.dev.kao.m[n]).fb = false → (t.dev.kao.m[n]).window = none ∧ (t.dev.kao.m[n]).st = (s.dev.kao.m[n]).st) ∧
        ((s.dev.kao.m[n]).fb = true → s.dev.present n.val = true → (t.dev.kao.m[n]).active.getLsbD 5 = true)) ∧
    (∀ t0, (s.dev.kao.m[n]).rearmSince = some t0 → (s.dev.kao.m[n]).st = .tripped → s.dev.rearmOk n = true →
      t0 + 90000000 * s.dev.kaoByte n 0x2D ≤ s.dev.tim.elapsed →
      ∃ t, exec (.rearm n) s = .next t ∧ (t.dev.kao.m[n]).st = .armed ∧ (t.dev.kao.m[n]).ken = (s.dev.kao.m[n]).ken ∧
        (t.dev.kao.m[n]).latched = (s.dev.kao.m[n]).active ∧ t.dev.flagBit 6 8 0x18 2 = true)

/-- R319 to R322: only A1 writes KAO_HB; Kaolin accepts a beat with a correct check and a new count; 18 ms without one
lose the heartbeat, and without a grace time HEARTBEAT becomes active on every slice at once, else when it ends; three
accepted beats in a row restore it. -/
def Obligations.KaolinHeartbeat : Prop :=
  ∀ s : State,
    (∀ w, s.dev.canWrite .core 6 9 →
      exec (.heartbeatWrite .core w) s = .next (s.put ((s.dev.setReg 6 9 0 w).answer .core .ok))) ∧
    (∀ (ag : Agent) (w : Word), ag ≠ .core → s.dev.canWrite ag 6 9 →
      exec (.heartbeatWrite ag w) s = .next (s.put (s.dev.permReject ag 6))) ∧
    (hbCheckOk (s.dev.reg 6 9 0) = true → fld (s.dev.reg 6 9 0) 31 16 ≠ s.dev.kao.hbCount.toNat →
      ∃ t, exec .heartbeatPoll s = .next t ∧ t.dev.kao.hbLast = s.dev.tim.elapsed ∧
        t.dev.kao.hbCount.toNat = fld (s.dev.reg 6 9 0) 31 16 ∧ t.dev.kao.hbDiag.toNat = fld (s.dev.reg 6 9 0) 15 8 ∧
        (s.dev.kao.hbLost = false → t.dev.kao.hbLost = false) ∧
        (s.dev.kao.hbLost = true → s.dev.beatRun < 3 → t.dev.kao.hbLost = true) ∧
        (s.dev.kao.hbLost = true → 3 ≤ s.dev.beatRun → t.dev.kao.hbLost = false ∧ t.dev.kao.grace = none ∧
          ∀ n : Fin 8, (t.dev.kao.m[n]).active.getLsbD 11 = false)) ∧
    (s.dev.kao.hbLost = false → s.dev.kao.hbLast + 18000000 ≤ s.dev.tim.elapsed →
      ∃ t, exec .heartbeatLost s = .next t ∧ t.dev.kao.hbLost = true ∧
        t.dev.kao.hbLosses = min (s.dev.kao.hbLosses + 1) 255 ∧
        (s.dev.kaoCommon 0 = 1 → t.dev.kao.grace = some s.dev.tim.elapsed ∧
          ∀ n : Fin 8, (t.dev.kao.m[n]).st = (s.dev.kao.m[n]).st ∧ (t.dev.kao.m[n]).ken = (s.dev.kao.m[n]).ken) ∧
        (s.dev.kaoCommon 0 ≠ 1 → ∀ n : Fin 8, s.dev.present n.val = true → (t.dev.kao.m[n]).active.getLsbD 11 = true)) ∧
    (∀ t0, s.dev.kao.grace = some t0 → s.dev.kao.hbLost = true →
      t0 + (s.dev.kaoCommon 2 + 256 * s.dev.kaoCommon 3) * 900000000 ≤ s.dev.tim.elapsed →
      ∃ t, exec .graceEnd s = .next t ∧ t.dev.kao.grace = none ∧
        ∀ n : Fin 8, s.dev.present n.val = true → (t.dev.kao.m[n]).active.getLsbD 11 = true)

/-- R285, R286, R293 to R295, R302, R303, R323, R331: the tests and monitors of Kaolin: the cross-check of a slice; the
start of its residual self-test, when one is due, its result, which ends no validity, and the end of the validity; the
end of an escalation window, an insulation measurement, settled or not, an internal fault (SAFE_OK low and every present slice in LOCKOUT with KENn open), the switch
self-test, and the end of a forced trip. -/
def Obligations.KaolinMonitors : Prop :=
  ∀ (n : Fin 8) (s : State),
    (s.dev.present n.val = true → exec (.xcheckEvaluate n) s = .next (s.put (((s.dev.xcheckPeriod n).xcheckSession n).xcheckFollow n))) ∧
    (s.dev.present n.val = true → s.dev.ownsIres n = true → (s.dev.kao.m[n]).ken = false → (s.dev.kao.m[n]).req = false →
      (s.dev.kao.m[n]).resRunning = false → s.dev.selftestDue n = true →
      exec (.resSelftestStart n) s = .next (s.put
        ((s.dev.updKao n fun x => { x with resRunning := true, resLast := s.dev.tim.elapsed }).updEvc n fun x =>
          { x with leftA := false }))) ∧
    (s.dev.selftestDue n = true ↔
      (s.dev.evc.s[n]).leftA = true ∨ (s.dev.kao.m[n]).resLast + 3444000000000 ≤ s.dev.tim.elapsed) ∧
    (∀ pass, (s.dev.kao.m[n]).resRunning = true →
      ∃ t, exec (.resTestComplete n pass) s = .next t ∧ (t.dev.kao.m[n]).resRunning = false ∧
        (t.dev.kao.m[n]).resValid = ((s.dev.kao.m[n]).resValid || pass) ∧ (t.dev.kao.m[n]).resFail = !pass ∧
        (pass = true → (t.dev.kao.m[n]).resSince = s.dev.tim.elapsed) ∧
        (pass = false → t.dev.flagBit 6 8 0x18 12 = true)) ∧
    ((s.dev.kao.m[n]).resValid = true → (s.dev.kao.m[n]).resSince + 78480000000000 ≤ s.dev.tim.elapsed →
      exec (.resTestExpire n) s = .next (s.put (s.dev.updKao n fun x => { x with resValid := false }))) ∧
    ((s.dev.kao.m[n]).escCount ≠ 0 → (s.dev.kao.m[n]).escSince + 3444000000000 ≤ s.dev.tim.elapsed →
      exec (.escalationWindowEnd n) s = .next (s.put (s.dev.updKao n fun x => { x with escCount := 0 }))) ∧
    (∀ (i : Fin 4) (kohm : Nat), s.dev.imdSlice i = some n → kohm < 2 ^ 24 →
      ∃ t, exec (.imdMeasurement i kohm true) s = .next t ∧ (t.dev.kao.m[n]).imdValid = true ∧ (t.dev.kao.m[n]).imdKohm = kohm ∧
        (t.dev.kao.m[n]).imdAlarm = decide (kohm < s.dev.kao16 n 6) ∧ (t.dev.kao.m[n]).imdWarn = decide (kohm < s.dev.kao16 n 8) ∧
        (t.dev.kao.m[n]).imdFault = false) ∧
    (∀ (i : Fin 4) (kohm : Nat), s.dev.imdSlice i = some n →
      ∃ t, exec (.imdMeasurement i kohm false) s = .next t ∧ (t.dev.kao.m[n]).imdFault = true ∧
        (t.dev.kao.m[n]).imdKohm = (s.dev.kao.m[n]).imdKohm ∧ (t.dev.kao.m[n]).imdValid = (s.dev.kao.m[n]).imdValid) ∧
    (∀ cause, ∃ t, exec (.kaolinInternalFault cause) s = .next t ∧ t.dev.kao.internal = internalCode cause ∧
      t.dev.flagBit 6 8 0x18 9 = true ∧ t.dev.safeOk = false ∧
      (s.dev.present n.val = true → (t.dev.kao.m[n]).st = .lockout ∧ (t.dev.kao.m[n]).ken = false)) ∧
    (∃ t, exec .switchSelftestComplete s = .next t ∧ t.dev.kao.selfTest = true ∧
      t.dev = { s.dev with kao := { s.dev.kao with selfTest := true } }) ∧
    (∀ (src : Fin 16) (t0 : Nat), (s.dev.kao.m[n]).force = some (src.val, t0) →
      t0 + (s.dev.kaoFilter n src.val * 11 / 10 + 10000000) ≤ s.dev.tim.elapsed →
      ∃ t, exec (.tripTestForceEnd n) s = .next t ∧ (t.dev.kao.m[n]).force = none ∧
        (src.val ≠ 6 ∨ (s.dev.kao.m[n]).imdAlarm = false → (t.dev.kao.m[n]).st = (s.dev.kao.m[n]).st))

/-- R313, R331, R332: CONFIRM with the check of the received section confirms it and arms every slice that is not
locked out; LOCK_RELEASE takes a slice out of LOCKOUT; both, and TRIP_TEST, are A2's and A4's alone, and another agent
that holds the command grant sees PERM in its KAO_CMDST; RES_TEST and TRIP_TEST are PENDING. -/
def Obligations.KaolinCommands : Prop :=
  ∀ (ag : Agent) (arg : BitVec 24) (s : State),
    (ag = .host ∨ ag = .service →
      (arg = 0 → s.dev.ready ag 6 0xFF → s.dev.kao.received = true → s.dev.kao.bad = false → s.dev.img.load ≠ .reloading →
        s.dev.kao.internal = 0 → (∃ n : Fin 8, s.dev.present n.val = true ∧ (s.dev.kao.m[n]).st = .unconfirmed) →
        s.dev.view ag (lattice 6 8 0xC) = s.dev.kao.check →
        ∃ t, exec (.confirm ag arg) s = .next t ∧ t.dev.reply.status = 0 ∧ t.dev.kaoConfirmed = true ∧
          t.dev.flagBit 6 8 0x18 7 = true ∧
          ∀ n : Fin 8, s.dev.present n.val = true → (s.dev.kao.m[n]).st = .unconfirmed →
            (t.dev.kao.m[n]).st = (if s.dev.cell.lockout.getLsbD n.val = true then .lockout else .armed) ∧
            (t.dev.kao.m[n]).ken = (s.dev.kao.m[n]).ken) ∧
      (∀ n : Fin 8, argUnit arg = n.val → s.dev.ready ag 6 n.val → s.dev.present n.val = true →
        ((s.dev.kao.m[n]).st = .lockout → s.dev.rearmOk n = true →
          ∃ t, exec (.lockRelease ag arg) s = .next t ∧ t.dev.reply.status = 0 ∧ (t.dev.kao.m[n]).st = .armed ∧
            t.dev.cell.lockout.getLsbD n.val = false ∧ t.dev.cell.upstream.getLsbD n.val = false) ∧
        (tripSource (argBits arg 15 8) = true → s.dev.kaoAction n (argBits arg 15 8) ≠ 0 → (s.dev.kao.m[n]).st = .armed →
          exec (.tripTest ag arg) s = .next (s.put
            ((s.dev.updKao n fun x => { x with force := some (argBits arg 15 8, s.dev.tim.elapsed) }).accepted ag 6 0x13 arg)))) ) ∧
    (ag ≠ .host → ag ≠ .service → s.dev.canIssue ag = true →
      exec (.confirm ag arg) s = .next (s.put
        ((if s.dev.granted ag 6 0xFF .command = true then s.dev.noteCommand ag 6 0x10 .perm else s.dev).permReject ag 6)) ∧
      exec (.lockRelease ag arg) s = .next (s.put
        ((if s.dev.granted ag 6 (argUnit arg) .command = true then s.dev.noteCommand ag 6 0x11 .perm else s.dev).permReject ag 6)) ∧
      exec (.tripTest ag arg) s = .next (s.put
        ((if s.dev.granted ag 6 (argUnit arg) .command = true then s.dev.noteCommand ag 6 0x13 .perm else s.dev).permReject ag 6))) ∧
    (∀ n : Fin 8, argUnit arg = n.val → s.dev.ready ag 6 n.val → s.dev.present n.val = true →
      (s.dev.kao.m[n]).st = .armed ∨ (s.dev.kao.m[n]).st = .tripped → (s.dev.kao.m[n]).ken = false → (s.dev.kao.m[n]).req = false →
      s.dev.resUsed n = true → s.dev.ownsIres n = true →
      exec (.resTest ag arg) s = .next (s.put
        ((s.dev.updKao n fun x => { x with resRunning := true, resLast := s.dev.tim.elapsed }).accepted ag 6 0x12 arg)))

/-! ### Load switches (R333 to R355) -/

/-- R340, R345, R347, R349, R355: SW_ON of a free channel sets its demand, and from OFF starts the inrush window;
SW_OFF clears it and turns a driven channel, and a retry that waits for its group, off; SW_RELEASE of a cool latched or a locked-off channel resumes by its
demand. A CONTACTOR, LOCK or limp-mapped channel refuses SW_ON and SW_OFF with STATE. -/
def Obligations.SwitchCommands : Prop :=
  ∀ (ag : Agent) (arg : BitVec 24) (c : Fin 16) (s : State), argUnit arg = c.val → argBits arg 15 0 = 0 → s.dev.ready ag 7 c.val →
    s.dev.lswOwned c.val = true →
    (s.dev.lswFree c = true →
      ((s.dev.lsw.c[c]).st = .off → (s.dev.lsw.c[c]).demand = false →
        ∃ t, exec (.swOn ag arg) s = .next t ∧ (t.dev.lsw.c[c]).demand = true ∧ t.dev.reply.status = 0 ∧
          (t.dev.lsw.c[c]).st = (if s.dev.rfld 7 c.val 0 15 8 = 0 then .on else .inrush) ∧
          (∀ b : Fin 16, b ≠ c → t.dev.lsw.c[b] = s.dev.lsw.c[b]) ∧
          t.dev = { s.dev with lsw := { s.dev.lsw with c := t.dev.lsw.c }, views := t.dev.views, reply := t.dev.reply }) ∧
      ((s.dev.lsw.c[c]).st = .off ∨ (s.dev.lsw.c[c]).st = .backoff ∨ (s.dev.lsw.c[c]).st = .latched →
        (s.dev.lsw.c[c]).demand = true → exec (.swOn ag arg) s = .next (s.put (s.dev.completed ag 7 0x10))) ∧
      ((s.dev.lsw.c[c]).st = .backoff ∨ (s.dev.lsw.c[c]).st = .latched → (s.dev.lsw.c[c]).demand = false →
        exec (.swOn ag arg) s = .next (s.put ((s.dev.updLsw c fun x => { x with demand := true }).completed ag 7 0x10))) ∧
      ((s.dev.lsw.c[c]).st.driven = true → (s.dev.lsw.c[c]).demand = true →
        ∃ t, exec (.swOff ag arg) s = .next t ∧ (t.dev.lsw.c[c]).demand = false ∧ (t.dev.lsw.c[c]).st = .off ∧
          t.dev.reply.status = 0 ∧ ∀ b : Fin 16, lswGroup b ≠ lswGroup c → t.dev.lsw.c[b] = s.dev.lsw.c[b]) ∧
      ((s.dev.lsw.c[c]).st = .backoff ∨ (s.dev.lsw.c[c]).st = .latched ∨ (s.dev.lsw.c[c]).st = .lockedOff →
        ∃ t, exec (.swOff ag arg) s = .next t ∧ (t.dev.lsw.c[c]).demand = false ∧ t.dev.reply.status = 0 ∧
          (t.dev.lsw.c[c]).st = (if (s.dev.lsw.c[c]).hold = true ∧ (s.dev.lsw.c[c]).demand = true then .off else (s.dev.lsw.c[c]).st) ∧
          ∀ b : Fin 16, b ≠ c → t.dev.lsw.c[b] = s.dev.lsw.c[b])) ∧
    (s.dev.lswFree c = false →
      ∃ t u, exec (.swOn ag arg) s = .next t ∧ exec (.swOff ag arg) s = .next u ∧ t.dev.reply.status = 2 ∧ u.dev.reply.status = 2 ∧
        t.dev.lsw = s.dev.lsw ∧ u.dev.lsw = s.dev.lsw) ∧
    (s.dev.releaseAllowed c = true →
      ((s.dev.lsw.c[c]).st = .latched → (s.dev.lsw.c[c]).tj < 140 →
        exec (.swRelease ag arg) s = .next (s.put ((s.dev.lswResume c).completed ag 7 0x12))) ∧
      ((s.dev.lsw.c[c]).st = .lockedOff → (s.dev.lsw.c[c]).tj < 140 →
        ∃ t, exec (.swRelease ag arg) s = .next t ∧ (t.dev.lsw.c[c]).used = 0 ∧ t.dev.reply.status = 0 ∧
          (t.dev.lsw.c[c]).st = (if (s.dev.lsw.c[c]).demand = false then .off
            else if s.dev.rfld 7 c.val 0 15 8 = 0 then .on else .inrush)) ∧
      ((s.dev.lsw.c[c]).st = .lockedOff → 140 ≤ (s.dev.lsw.c[c]).tj →
        ∃ t, exec (.swRelease ag arg) s = .next t ∧ (t.dev.lsw.c[c]).st = .latched ∧ (t.dev.lsw.c[c]).reason = 3 ∧
          t.dev.reply.status = 0))

/-- R337 to R344: the life of a channel: the inrush window ends in ON; a short or an overload turns it off, to BACKOFF
with one retry used and a backoff that doubles, or to LOCKED_OFF with its budget used up; 170 °C latch it, also one that
was turned off at the same instant, whose retry is not used then, or with its budget used up is LOCKED_OFF in either
order; below 140 °C latch_auto resumes it; a backoff ends by the demand and by what its group does; 60 s in ON restore the budget.
-/
def Obligations.SwitchProtection : Prop :=
  ∀ (c : Fin 16) (s : State),
    ((s.dev.lsw.c[c]).hold = false →
      ((s.dev.lsw.c[c]).st = .inrush → (s.dev.lsw.c[c]).restart = none → s.dev.lswUv c = false →
        (s.dev.lsw.c[c]).since + s.dev.rfld 7 c.val 0 15 8 * 1000000 ≤ s.dev.tim.elapsed →
        ∃ t, exec (.inrushEnd c) s = .next t ∧ (t.dev.lsw.c[c]).st = .on ∧ (t.dev.lsw.c[c]).since = s.dev.tim.elapsed ∧
          t.dev = { s.dev with lsw := { s.dev.lsw with c := t.dev.lsw.c } }) ∧
      (s.dev.lswOut c = true →
        (∃ t, exec (.shortDetect c) s = .next t ∧ (t.dev.lsw.c[c]).reason = 1 ∧ t.dev.flagBit 7 0x10 8 0 = true ∧
          ((s.dev.lsw.c[c]).used < s.dev.rfld 7 c.val 0 7 4 →
            (t.dev.lsw.c[c]).st = .backoff ∧ (t.dev.lsw.c[c]).used = (s.dev.lsw.c[c]).used + 1 ∧
            (t.dev.lsw.c[c]).backoffEnd = s.dev.tim.elapsed +
              min (s.dev.rfld 7 c.val 4 7 0 * 10000000 * 2 ^ (s.dev.lsw.c[c]).used) 1000000000) ∧
          (s.dev.rfld 7 c.val 0 7 4 ≤ (s.dev.lsw.c[c]).used →
            (t.dev.lsw.c[c]).st = .lockedOff ∧ t.dev.flagBit 7 0x10 8 3 = true)) ∧
        ((s.dev.lsw.c[c]).st = .on →
          ∃ t, exec (.overloadDetect c) s = .next t ∧ (t.dev.lsw.c[c]).reason = 2 ∧ t.dev.flagBit 7 0x10 8 1 = true ∧
            ((s.dev.lsw.c[c]).used < s.dev.rfld 7 c.val 0 7 4 →
              (t.dev.lsw.c[c]).st = .backoff ∧ (t.dev.lsw.c[c]).used = (s.dev.lsw.c[c]).used + 1) ∧
            (s.dev.rfld 7 c.val 0 7 4 ≤ (s.dev.lsw.c[c]).used →
              (t.dev.lsw.c[c]).st = .lockedOff ∧ t.dev.flagBit 7 0x10 8 3 = true))) ∧
      ((s.dev.lsw.c[c]).st.driven = true →
        ∃ t, exec (.thermalLatch c) s = .next t ∧ (t.dev.lsw.c[c]).st = .latched ∧ (t.dev.lsw.c[c]).reason = 3 ∧
          t.dev.flagBit 7 0x10 8 2 = true)) ∧
    ((s.dev.lsw.c[c]).st = .latched → (s.dev.lsw.c[c]).since = s.dev.tim.elapsed →
      s.dev.rfld 7 c.val 0 7 4 ≤ (s.dev.lsw.c[c]).used →
      (∃ t, exec (.shortDetect c) s = .next t ∧ (t.dev.lsw.c[c]).st = .lockedOff ∧ (t.dev.lsw.c[c]).reason = 1) ∧
      (∃ t, exec (.overloadDetect c) s = .next t ∧ (t.dev.lsw.c[c]).st = .lockedOff ∧ (t.dev.lsw.c[c]).reason = 2)) ∧
    ((s.dev.lsw.c[c]).st = .backoff → (s.dev.lsw.c[c]).since = s.dev.tim.elapsed →
      ∃ t, exec (.thermalLatch c) s = .next t ∧ (t.dev.lsw.c[c]).st = .latched ∧ (t.dev.lsw.c[c]).reason = 3 ∧
        (t.dev.lsw.c[c]).used = (s.dev.lsw.c[c]).used - 1) ∧
    (∀ tj : Int, (s.dev.lsw.c[c]).st = .latched → bit (s.dev.reg 7 c.val 0) 3 = true → tj < 140 →
      exec (.thermalAutoRelease c tj) s = .next (s.put ((s.dev.updLsw c fun x => { x with tj := tj }).lswResume c))) ∧
    ((s.dev.lsw.c[c]).st = .backoff → s.dev.lswUv c = false → (s.dev.lsw.c[c]).backoffEnd ≤ s.dev.tim.elapsed →
      ∃ t, exec (.backoffEnd c) s = .next t ∧
        (t.dev.lsw.c[c]).st = (if (s.dev.lsw.c[c]).demand = false then .off
          else if (s.dev.lsw.c[c]).hold = true ∨ s.dev.groupInrush (lswGroup c) = true then .backoff
          else if s.dev.rfld 7 c.val 0 15 8 = 0 then .on else .inrush) ∧
        ((s.dev.lsw.c[c]).demand = true → (s.dev.lsw.c[c]).hold = true ∨ s.dev.groupInrush (lswGroup c) = true →
          (t.dev.lsw.c[c]).hold = true) ∧
        (∀ b : Fin 16, b ≠ c → t.dev.lsw.c[b] = s.dev.lsw.c[b]) ∧
        t.dev = { s.dev with lsw := { s.dev.lsw with c := t.dev.lsw.c } }) ∧
    ((s.dev.lsw.c[c]).st = .on → s.dev.lswUv c = false → (s.dev.lsw.c[c]).since + 60000000000 ≤ s.dev.tim.elapsed →
      exec (.retryBudgetReset c) s = .next (s.put (s.dev.updLsw c fun x => { x with used := 0 })))

/-- R346, R348, R349, R352, R353: a group whose supply falls conducts nothing and keeps its states and demands; when it
recovers, its channels in INRUSH or ON restart in channel order, 2 ms apart, the first at once, and a channel of another
group with no restart due stays as it is; a total current above 6 A, when it crosses and again after 100 ms, sheds the
first channel in the order of R353 and no other; the limp-home and the LIN inputs are shown. -/
def Obligations.SwitchSupplies : Prop :=
  ∀ s : State,
    (∀ g : Fin 4, s.dev.lsw.uv.getLsbD g.val = false →
      ∃ t, exec (.vlswUndervoltage g) s = .next t ∧ t.dev.lsw.uv.getLsbD g.val = true ∧ t.dev.flagBit 7 0x10 8 5 = true ∧
        (∀ c : Fin 16, lswGroup c = g → t.dev.lswOut c = false) ∧
        ∀ c : Fin 16, (t.dev.lsw.c[c]).st = (s.dev.lsw.c[c]).st ∧ (t.dev.lsw.c[c]).demand = (s.dev.lsw.c[c]).demand ∧
          (lswGroup c ≠ g → t.dev.lsw.c[c] = s.dev.lsw.c[c])) ∧
    (∀ g : Fin 4, s.dev.lsw.uv.getLsbD g.val = true →
      ∃ t, exec (.vlswRecover g) s = .next t ∧ t.dev.lsw.uv.getLsbD g.val = false ∧
        (∀ (k : Nat) (c : Fin 16), (s.dev.lsw.c[c]).hold = false →
          ((groupChannels g).filter fun x : Fin 16 => (s.dev.lsw.c[x]).st.driven)[k]? = some c →
          (k = 0 → (t.dev.lsw.c[c]).restart = none ∧ (t.dev.lsw.c[c]).since = s.dev.tim.elapsed ∧
            (t.dev.lsw.c[c]).st = (if s.dev.rfld 7 c.val 0 15 8 = 0 then .on else .inrush)) ∧
          (k ≠ 0 → (t.dev.lsw.c[c]).restart = some (s.dev.tim.elapsed + 2 * k * 1000000) ∧
            (t.dev.lsw.c[c]).st = (s.dev.lsw.c[c]).st)) ∧
        ∀ c : Fin 16, lswGroup c ≠ g → (∀ t0, (s.dev.lsw.c[c]).restart = some t0 → s.dev.tim.elapsed < t0) →
          t.dev.lsw.c[c] = s.dev.lsw.c[c]) ∧
    (∀ avg, avg ≤ 6000 → exec (.loadShed avg) s = .next (s.put { s.dev with lsw := { s.dev.lsw with totalMa := avg } })) ∧
    (∀ (avg : Nat) (c : Fin 16) (cs : List (Fin 16)), 6000 < avg → avg < 65536 →
      s.dev.lsw.totalMa ≤ 6000 ∨ s.dev.lsw.lastShed + 100000000 ≤ s.dev.tim.elapsed →
      s.dev.shedOrder = c :: cs →
      ∃ t, exec (.loadShed avg) s = .next t ∧ (t.dev.lsw.c[c]).st = .off ∧ (t.dev.lsw.c[c]).reason = 4 ∧
        (t.dev.lsw.c[c]).demand = false ∧ t.dev.lsw.totalMa = avg ∧ t.dev.flagBit 7 0x10 8 4 = true ∧
        t.dev.lsw.lastShed = s.dev.tim.elapsed ∧ (s.dev.lsw.totalMa ≤ 6000 → t.dev.flagBit 7 0x10 8 6 = true) ∧ ∀ b : Fin 16, b ≠ c → t.dev.lsw.c[b] = s.dev.lsw.c[b]) ∧
    (∀ active, s.dev.lsw.limp ≠ active →
      ∃ t, exec (.limpChange active) s = .next t ∧ t.dev.lsw.limp = active ∧ t.dev.flagBit 7 0x10 8 7 = true ∧
        t.dev.kao = s.dev.kao) ∧
    (∀ (i : Fin 8) (level : Bool), ∃ t, exec (.linInputChange i level) s = .next t ∧ t.dev.lsw.lin.getLsbD i.val = level ∧
      (∀ j : Fin 8, j ≠ i → t.dev.lsw.lin.getLsbD j.val = s.dev.lsw.lin.getLsbD j.val) ∧
      ((∀ c : Fin 16, s.dev.limpMapped c.val = false) →
        t.dev = { s.dev with lsw := { s.dev.lsw with lin := t.dev.lsw.lin } }))

/-! ### The power-line mesh and the zero-crossing channel (R356 to R388) -/

/-- R359 to R362, R365, R370, R371, R377, R378: the transmitter. A frame is keyed bit by bit on the tones of the present
pair, 248 to 1080 bits of it. At a frame start instant an acknowledgement goes first; otherwise with quiet tones the
frame in hand is sent and with loud ones deferred by 1 to 2^k mains cycles. At the driver's limit the amplitude falls to
a half and the frame goes on; 8 bits in a row at the limit end it with DRIVER_FAULT; the end of a frame that asks for an
acknowledgement counts an attempt and waits 50 ms for it; 4 attempts without one end it with its link's failure estimate
raised by 1/8 of what it lacks. Beacons go out every beacon period and 1 s after the pair or level was staged; a signed
reading is taken to be sent in fragments. -/
def Obligations.MeshTransmitter : Prop :=
  (∀ (d : Dev) (f : MeshFrame), (d.putOnLine f).plc.txTones = (frameBits f).map (bitTone d.plcPair) ∧
    (d.putOnLine f).plc.tx = .sending ∧ (d.putOnLine f).plc.txMv = 500 * d.rfld 8 0 4 23 20 ∧
    (f.payload.length ≤ 96 → 248 ≤ (frameBits f).length ∧ (frameBits f).length ≤ 1080)) ∧
  ∀ s : State,
    (∀ (lo hi zx : Nat) (cs : List WordCheck), s.dev.meshRuns = true → s.dev.startInstant zx = true →
      (∀ a d1, s.dev.readyFrames.nextAck = some (a, d1) →
        exec (.meshTransmit (lo, hi) ⟨zx, cs⟩) s = .next (s.put (d1.sendAck a))) ∧
      (∀ j : MeshJob, s.dev.readyFrames.nextAck = none → s.dev.readyFrames.plc.cur = some j →
        (s.dev.readyFrames.plc.tx = .idle → s.dev.readyFrames.plc.awaitAck = none →
          (lo ≤ 4000 → hi ≤ 4000 →
            exec (.meshTransmit (lo, hi) ⟨zx, cs⟩) s = .next (s.put
              (({ s.dev.readyFrames with plc := { s.dev.readyFrames.plc with
                cur := some (s.dev.readyFrames.onAir j), deferCycles := 0 } }).putOnLine (s.dev.readyFrames.onAir j).frame))) ∧
          (4000 < lo ∨ 4000 < hi →
            ∃ t, exec (.meshTransmit (lo, hi) ⟨zx, cs⟩) s = .next t ∧ t.dev.plc.tx = .defer ∧ 1 ≤ t.dev.plc.deferCycles ∧
              t.dev.plc.deferCycles ≤ 2 ^ min (j.k + 1) 5 ∧ t.dev.plc.cur = some { j with k := min (j.k + 1) 5 })) ∧
        (∀ cycles, s.dev.plc.tx = .defer → s.dev.plc.deferCycles ≤ cycles → s.dev.readyFrames.plc.tx = .defer →
          lo ≤ 4000 → hi ≤ 4000 →
          exec (.meshDeferEnd (lo, hi) ⟨zx, cycles⟩) s = .next (s.put
            (({ s.dev.readyFrames with plc := { s.dev.readyFrames.plc with
              cur := some (s.dev.readyFrames.onAir j), deferCycles := 0 } }).putOnLine (s.dev.readyFrames.onAir j).frame))))) ∧
    (∀ j : MeshJob, s.dev.plc.cur = some j → s.dev.plc.ack = none →
      (∀ k : Nat, s.dev.plc.tx = .sending → s.dev.plc.limRun = 0 → s.dev.plc.txBit + k = s.dev.plc.txTones.length →
        j.frame.flags.getLsbD 0 = true → j.frame.ldst ≠ 0xFFFF →
        ∃ t, exec (.meshTxComplete [] k) s = .next t ∧ t.dev.plc.awaitAck = some s.dev.tim.elapsed ∧
          t.dev.plc.tx = .idle ∧ t.dev.plc.cur = some { j with attempts := j.attempts + 1, degraded := false }) ∧
      (s.dev.plc.tx = .sending → s.dev.plc.limRun = 0 → s.dev.plc.txBit + 1 < s.dev.plc.txTones.length →
        exec (.meshTxComplete [true] 0) s = .next (s.put { s.dev with plc := { s.dev.plc with
          tx := .reduced, txBit := s.dev.plc.txBit + 1, txMv := s.dev.plc.txMv / 2 } })) ∧
      (s.dev.plc.tx = .reduced → s.dev.plc.limRun = 7 → s.dev.plc.txBit < s.dev.plc.txTones.length → j.own = false → j.frag = false →
        ∃ t, exec (.meshTxComplete [true] 0) s = .next t ∧ t.dev.plc.cur = none ∧ t.dev.plc.tx = .idle ∧ t.dev.plc.txTones = [] ∧
          t.dev.flagBit 8 0 0x14 4 = true)) ∧
    (∀ (j : MeshJob) (t0 : Nat), s.dev.plc.cur = some j → s.dev.plc.awaitAck = some t0 → t0 + 50000000 ≤ s.dev.tim.elapsed →
      (j.attempts < 4 →
        exec .ackTimeout s = .next (s.put { s.dev with plc := { s.dev.plc with awaitAck := none, cur := some { j with k := 0 } } })) ∧
      (4 ≤ j.attempts → j.frag = false →
        ∃ t, exec .ackTimeout s = .next t ∧ t.dev.plc.cur = none ∧ t.dev.plc.awaitAck = none ∧
          ∀ x, s.dev.nbr j.frame.ldst = some x →
            (t.dev.nbr j.frame.ldst).map (·.fail) = some (x.fail + (1 - x.fail) / 8))) ∧
    (s.dev.meshRuns = true → s.dev.plc.lastBeacon + s.dev.rfld 8 0 4 15 8 * 1000000000 ≤ s.dev.tim.elapsed →
      exec .beaconPeriod s = .next (s.put
        ({ s.dev with plc := { s.dev.plc with lastBeacon := s.dev.tim.elapsed } }.sendBeacon))) ∧
    (∀ t0, s.dev.meshRuns = true → s.dev.plc.stagedAt = some t0 → t0 + 1000000000 ≤ s.dev.tim.elapsed →
      exec .pairChangeBeacon s = .next (s.put { s.dev.sendBeacon with plc := { s.dev.sendBeacon.plc with stagedAt := none } })) ∧
    (∀ (q : Fin 64) (cs : List WordCheck) (m : QMsg) (ms : List QMsg) (ws : List QData) (d2 : Dev), s.dev.meshRuns = true →
      s.dev.plc.block = none → s.dev.que.q[q].entry.cons = 5 → (s.dev.plcFront q).que.q[q].msgs = m :: ms →
      hdrType (msgHead m.words) = 0x20 → (s.dev.plcFront q).serves q = true →
      (s.dev.plcFront q).takeMsg q cs = (some ws, d2) → isPoison ws = false →
      exec (.meshSignedReading ⟨q, cs⟩) s = .next (s.put
        { d2 with plc := { d2.plc with block := some ((unpackWords (ws.drop 1)).take 448, 0, 0) } }))

/-- R363, R364, R367, R368, R371 to R375, R387: the receiver and the tables. A frame on another tone pair is not
received; one of whose tones falls below its reference in two windows in a row is abandoned and counted; a good frame is counted and heard; a frame in the duplicate cache or older than 600 s
is counted stale and goes no further; a neighbour unheard for 4 beacon periods is removed with every route through
it; penalties halve every 60 s; a link costs 1 to 255; the commands of PLC; a Lattice request of the head-end runs as
the head-end where PLC_HES.open is 1. -/
def Obligations.MeshReceiver : Prop :=
  ∀ s : State,
    (∀ (f : MeshFrame) (m : RxMeas), m.pair ≠ s.dev.plcPair → exec (.meshFrameRx f m) s = .next s) ∧
    (∀ (f : MeshFrame) (m : RxMeas), s.dev.meshRuns = true → m.pair = s.dev.plcPair →
      (∀ i, noiseStep m (s.dev.rfld 8 0 0xC 15 8) (rxWindows f m) 0 (false, false) = some i →
        exec (.meshFrameRx f m) s = .next (s.put (s.dev.abandonFrame f (decide (22 ≤ i))).meshFrameEnd)) ∧
      (noiseStep m (s.dev.rfld 8 0 0xC 15 8) (rxWindows f m) 0 (false, false) = none → meshHeadOk f = true → meshCheckOk f = true →
        f.cell = s.dev.meshCell → f.ldst = s.dev.meshAddr → f.ftype ≠ 4 → s.dev.isLatticeRequest f = false →
        f.flags.getLsbD 0 = false → (fromHeadEnd f = true → meshHasMac f = true) →
        (600 < f.age.toNat ∨ s.dev.inCache f = true →
          exec (.meshFrameRx f m) s = .next (s.put
            (((((s.dev.count 8 0 0x1C 31 16).hear f.lsrc (min m.refLo m.refHi)).relinked s.dev).meshStale).meshFrameEnd))) ∧
        (f.age.toNat ≤ 600 → s.dev.inCache f = false →
          exec (.meshFrameRx f m) s = .next (s.put
            (((((s.dev.count 8 0 0x1C 31 16).hear f.lsrc (min m.refLo m.refHi)).relinked s.dev).takeFrame f).meshFrameEnd))))) ∧
    (∀ (a : BitVec 16) (x : Neighbour), s.dev.nbr a = some x → x.heard + 4 * s.dev.beaconNs ≤ s.dev.tim.elapsed →
      ∃ t, exec (.neighbourExpiry a) s = .next t ∧ t.dev.nbr a = none ∧ (∀ r ∈ t.dev.plc.routes, r.next ≠ a) ∧
        ∀ b : BitVec 16, b ≠ a → t.dev.nbr b = s.dev.nbr b) ∧
    (s.dev.plc.lastDecay + 60000000000 ≤ s.dev.tim.elapsed →
      ∃ t, exec .penaltyDecay s = .next t ∧ t.dev.plc.lastDecay = s.dev.tim.elapsed ∧
        t.dev.plc.nbrs = s.dev.plc.nbrs.map (fun x => { x with penalty := x.penalty / 2 })) ∧
    (∀ x : Neighbour, 1 ≤ x.cost ∧ x.cost ≤ 255) ∧
    (∀ (ag : Agent), s.dev.ready ag 8 0xFF →
      exec (.plcCountClear ag 0) s = .next (s.put (((((s.dev.setReg 8 0 0x1C 0).setReg 8 0 0x20 0).setReg 8 0 0x24 0).setReg 8 1 0x14 0).completed
        ag 8 0x11)) ∧
      (s.dev.plc.mesh.st = .running →
        exec (.routeClear ag 0) s = .next (s.put ({ s.dev with plc := { s.dev.plc with routes := [] } }.completed ag 8 0x10)) ∧
        exec (.beacon ag 0) s = .next (s.put ((s.dev.originateNow (.beacon true)).completed ag 8 0x12)))) ∧
    (∀ (f : MeshFrame) (d1 : Dev), s.dev.hesAccept f = (false, d1) → exec (.headendLatticeRequest f) s = .next (s.put d1)) ∧
    (∀ (f : MeshFrame) (d1 : Dev), s.dev.hesAccept f = (true, d1) →
      (bit (d1.reg 8 0 0x28) 0 = true →
        exec (.headendLatticeRequest f) s = .next (s.put
          (d1.runRequest { agent := .headend, todo := decodeAccesses 8 f.payload.tail, key := (s.dev.keySlot 5).live.secret }).settleReleased)) ∧
      (bit (d1.reg 8 0 0x28) 0 = false →
        exec (.headendLatticeRequest f) s = .next (s.put
          (d1.hesAnswer ((decodeAccesses 8 f.payload.tail).map fun _ => (2, 0)) (s.dev.keySlot 5).live.secret))))

/-- R379 to R382, R385: the zero-crossing receiver finds the sync over the last 32 mains cycles; a bit that is an erasure
abandons its message; 192 cycles after the sync spell a message and its MAC; one of this group whose MAC verifies for a candidate
sequence waits for its execution, and one whose MAC does not is rejected; ZX_AUTHENTICATED commits its sequence,
executes its command and raises the event; a confirmation of 160 mains cycles starts at its slot and its end makes room for the
pending one. R272, R383, R384: the grid operator's commands reach every present slice of their mask and no other: DISCONNECT
blocks and stops a session with reason 7, STOP_CHARGING stops it with reason 8, RECONNECT clears the block, LOAD_LIMIT
sets or lifts the limit; TARIFF_OVERRIDE replaces an override of the mask's slices; PING does nothing. -/
def Obligations.GridMessages : Prop :=
  (∀ s : State,
     (s.dev.zxRuns = true → s.dev.plc.zxAwait = none →
       (∀ x : Int, s.dev.plc.zxMsg = none →
         zxBits s.dev.zxThr ((s.dev.plc.zxWin ++ [x]).drop (s.dev.plc.zxWin.length + 1 - 32)) = zxSync →
         exec (.zxMessage [x]) s = .next (s.put { s.dev with plc := { s.dev.plc with
           zxWin := [], zxMsg := some [], zxCount := s.dev.plc.zxCount + 1 } })) ∧
       (∀ (bs : List ZxBit) (a x : Int), s.dev.plc.zxMsg = some bs → s.dev.plc.zxWin = [a] →
         zxDecide s.dev.zxThr (a - x) = .erasure →
         exec (.zxMessage [x]) s = .next (s.put
           (({ s.dev with plc := { s.dev.plc with
             zxWin := [], zxMsg := none, zxCount := s.dev.plc.zxCount + 1 } }.count 8 1 0x14 15 8).raisePlc 10))) ∧
       (∀ ds : List Int, s.dev.plc.zxMsg = some [] → s.dev.plc.zxWin = [] → ds.length = 192 → .erasure ∉ zxBits s.dev.zxThr ds →
         exec (.zxMessage ds) s = .next (s.put
           ({ s.dev with plc := { s.dev.plc with
             zxWin := [], zxMsg := none, zxCount := s.dev.plc.zxCount + 192, zxBitAt := s.dev.plc.zxCount + 192 } }.zxWhole
             (zxBits s.dev.zxThr ds))) ∧
         (bits (BitVec.ofNat 64 (bitsToNat ((zxBits s.dev.zxThr ds).take 64))).toNat 59 48 = s.dev.rfld 8 1 4 31 20 →
           s.dev.keyValid 6 = true → s.dev.sto.holdup = false →
           (s.dev.zxSequence (BitVec.ofNat 64 (bitsToNat ((zxBits s.dev.zxThr ds).take 64)))
               (bitsToNat (((zxBits s.dev.zxThr ds).drop 64).take 32)) = none →
             ∃ t, exec (.zxMessage ds) s = .next t ∧ t.dev.plc.zxAwait = none ∧ t.dev.plc.zxSeq = s.dev.plc.zxSeq ∧
               t.dev.flagBit 8 0 0x14 9 = true) ∧
           ∀ q, s.dev.zxSequence (BitVec.ofNat 64 (bitsToNat ((zxBits s.dev.zxThr ds).take 64)))
               (bitsToNat (((zxBits s.dev.zxThr ds).drop 64).take 32)) = some q →
             s.dev.plc.zxSeq.toNat < q ∧
             ∃ t, exec (.zxMessage ds) s = .next t ∧
               t.dev.plc.zxAwait = some (BitVec.ofNat 64 (bitsToNat ((zxBits s.dev.zxThr ds).take 64)), w32 q, s.dev.tim.now)))) ∧
     (∀ msg sq t0, s.dev.plc.zxAwait = some (msg, sq, t0) → s.dev.sto.holdup = false →
       ∃ t, exec .zxAuthenticated s = .next t ∧ t.dev.plc.zxAwait = none ∧ t.dev.plc.zxSeq = sq ∧ t.dev.plc.zxLast = msg ∧
         t.dev.flagBit 8 0 0x14 8 = true ∧
         (bits msg.toNat 63 60 = 1 → ∀ n : Fin 8, n ∈ s.dev.zxSlices (bits msg.toNat 47 40) → (t.dev.evc.s[n]).disc = true)) ∧
     (∀ body due, s.dev.plc.conf = some (body, due) → s.dev.zxRuns = true → s.dev.plc.confSending = false →
       due ≤ s.dev.plc.zxCount →
       exec .zxConfirmation s = .next (s.put { s.dev with plc := { s.dev.plc with
         confSending := true, confAt := s.dev.plc.zxCount, zxiPulses := confPulses body, zxiWidth := 250000 * s.dev.rfld 8 1 4 11 8 } })) ∧
     (∀ body : Word, (confPulses body).length = 160) ∧
     (s.dev.plc.confSending = true → s.dev.plc.confAt + s.dev.plc.zxiPulses.length ≤ s.dev.plc.zxCount →
       exec .zxConfirmationEnd s = .next (s.put { s.dev with plc := { s.dev.plc with
         confSending := false, zxiPulses := [], conf := s.dev.plc.confPending, confPending := none } }))) ∧
  (∀ (mask : Byte) (s : State),
     (∀ n : Fin 8, s.dev.present n.val = true → mask.getLsbD n.val = true →
       (∃ t, exec (.disconnect mask) s = .next t ∧ (t.dev.evc.s[n]).disc = true ∧ t.dev.flagBit 5 n.val 0x30 7 = true ∧
         ((s.dev.evc.s[n]).st = .charging → (t.dev.evc.s[n]).st = .stopping ∧ (t.dev.evc.s[n]).reason = 7)) ∧
       (∃ t, exec (.stopCharging mask) s = .next t ∧ (t.dev.evc.s[n]).disc = (s.dev.evc.s[n]).disc ∧
         ((s.dev.evc.s[n]).st = .charging → (t.dev.evc.s[n]).st = .stopping ∧ (t.dev.evc.s[n]).reason = 8)) ∧
       (∃ t, exec (.reconnect mask) s = .next t ∧ (t.dev.evc.s[n]).disc = false ∧ (t.dev.evc.s[n]).st = (s.dev.evc.s[n]).st) ∧
       (∀ params : Word, ∃ t, exec (.loadLimit mask params) s = .next t ∧
         (t.dev.evc.s[n]).limActive = decide (fld params 31 16 ≠ 0xFFFF) ∧ (t.dev.evc.s[n]).limDa = fld params 31 16 ∧
         (t.dev.evc.s[n]).st = (s.dev.evc.s[n]).st)) ∧
     (∀ n : Fin 8, s.dev.present n.val = false ∨ mask.getLsbD n.val = false →
       ∃ t u v w, exec (.disconnect mask) s = .next t ∧ exec (.stopCharging mask) s = .next u ∧ exec (.reconnect mask) s = .next v ∧
         exec (.loadLimit mask 0) s = .next w ∧ t.dev.evc.s[n] = s.dev.evc.s[n] ∧ u.dev.evc.s[n] = s.dev.evc.s[n] ∧
         v.dev.evc.s[n] = s.dev.evc.s[n] ∧ w.dev.evc.s[n] = s.dev.evc.s[n]) ∧
     (∀ params : Word, zxTariffOk params = true →
       exec (.tariffOverride mask params) s = .next (s.put
         (s.dev.putOverride ((s.dev.zxSlices mask.toNat).map fun n => 2 ^ n.val).sum (fld params 31 27)
           (s.dev.tim.now + fld params 14 7 * 60000000000) (fld params 26 15)))) ∧
     (∀ params : Word, zxTariffOk params = false → exec (.tariffOverride mask params) s = .next s) ∧
     exec .ping s = .next s)

/-! ### The card reader and the service tag (R416 to R441) -/

/-- R417, R418, R441: a poll that is due looks for a card: a new card of an enabled type is reported and held for an
exchange, a field at the service tag holds the poll off, and RDR_POLL makes a poll due. An RDR_TX in an exchange gets
the card's answer; one of length 0 ends it, and so do 1 s without an RDR_TX and a card silent for longer than fwt. -/
def Obligations.CardReader : Prop :=
  ∀ s : State,
    (s.dev.tag.rdr.st = .running → s.dev.tag.rdrSt = .idle →
      s.dev.tag.pollDue = true ∨ s.dev.tag.lastPoll + 10 * s.dev.rfld 11 0 4 31 24 * 1000000 ≤ s.dev.tim.elapsed →
      (∀ c : Card, s.dev.tag.field = false → s.dev.cardEnabled c = true → (∀ e ∈ s.dev.tag.seen, e.1 ≠ c.uid) →
        ∃ t, exec (.readerPoll (some c)) s = .next t ∧ t.dev.tag.rdrSt = .exchange ∧ t.dev.tag.card = some c ∧
          t.dev.tag.seen.head? = some (c.uid, 0) ∧ t.dev.tag.rfField = true ∧ t.dev.tag.lastPoll = s.dev.tim.elapsed ∧
          t.dev.flagBit 11 3 0 0 = true) ∧
      (s.dev.tag.field = false → ∃ t, exec (.readerPoll none) s = .next t ∧ t.dev.tag.rfField = false ∧
        t.dev.tag.seen = missedCards s.dev.tag.seen ∧ t.dev.tag.card = none) ∧
      (∀ card, s.dev.tag.field = true → ∃ t, exec (.readerPoll card) s = .next t ∧ t.dev.flagBit 11 3 0 8 = true ∧
        t.dev.tag.rdrSt = .idle ∧ t.dev.tag.card = s.dev.tag.card)) ∧
    (∀ (ag : Agent), s.dev.ready ag 11 0xFF → s.dev.tag.rdr.st = .running → s.dev.tag.field = false →
      exec (.rdrPoll ag 0) s = .next (s.put ({ s.dev with tag := { s.dev.tag with pollDue := true } }.completed ag 11 0x14))) ∧
    (s.dev.tag.rdrSt = .exchange →
      (∀ (q : Fin 64) (cs : List WordCheck) (ws : List QData) (d1 : Dev), s.dev.que.q[q].entry.cons = 7 →
        s.dev.serves q = true → s.dev.takeMsg q cs = (some ws, d1) → hdrType (msgHead ws) = 0x62 →
        (bits (ws.getD 1 0).toNat 63 48 = 0 → ∀ answer,
          exec (.readerExchange ⟨q, cs⟩ answer) s = .next (s.put d1.rdrFieldOff)) ∧
        (bits (ws.getD 1 0).toNat 63 48 ≠ 0 →
          (∀ bs, ∃ t, exec (.readerExchange ⟨q, cs⟩ (.bytes bs)) s = .next t ∧ t.dev.tag.tRdr = s.dev.tim.elapsed ∧
            t.dev.tag.rdrSt = .exchange) ∧
          exec (.readerExchange ⟨q, cs⟩ .error) s = .next (s.put (d1.exchangeFail 2)) ∧
          exec (.readerExchange ⟨q, cs⟩ .lost) s = .next (s.put (d1.exchangeFail 3)) ∧
          ∃ t, exec (.readerExchange ⟨q, cs⟩ .silent) s = .next t ∧ t.dev.tag.rdrSt = .awaiting ∧
            t.dev.tag.tRdr = s.dev.tim.elapsed)) ∧
      (s.dev.tag.tRdr + 1000000000 ≤ s.dev.tim.elapsed →
        exec (.readerExchangeTimeout false) s = .next (s.put (s.dev.exchangeFail 1)))) ∧
    (s.dev.tag.rdrSt = .awaiting → s.dev.tag.tRdr + s.dev.rfld 11 0 4 7 0 * 1000000 ≤ s.dev.tim.elapsed →
      exec (.readerExchangeTimeout true) s = .next (s.put (s.dev.exchangeFail 3)))

/-- R419, R424 to R430: the field and the session: the field starts island 14 and its loss ends the session and stops
it; GET_IDENTITY answers blocks 0 to 2; AUTH1 and AUTH2 open a session whose key comes from both challenges; every
session frame needs a higher counter and its tag, and one that fails is dropped and counted with nothing else done. -/
def Obligations.ServiceSession : Prop :=
  ∀ s : State,
    (s.dev.tag.field = false →
      ∃ t, exec .serviceFieldOn s = .next t ∧ t.dev.tag.field = true ∧ t.dev.tag.fdet = false ∧ t.dev.runs 14 = true ∧
        t.dev.flagBit 11 3 0 1 = true) ∧
    (s.dev.tag.field = true →
      ∃ t, exec .serviceFieldOff s = .next t ∧ t.dev.tag.field = false ∧ t.dev.tag.sess = none ∧ t.dev.runs 14 = false ∧
        t.dev.tag.tFieldLost = s.dev.tim.elapsed ∧ t.dev.tag.store = s.dev.tag.store) ∧
    (s.dev.tag.field = false → s.dev.tag.fdet = false → s.dev.tag.tFieldLost + 100000000 ≤ s.dev.tim.elapsed →
      exec .fdetRelease s = .next (s.put { s.dev with tag := { s.dev.tag with fdet := true } })) ∧
    (s.dev.tagOn = true →
      exec .getIdentity s = .next (s.put
        (s.dev.tagReply (0 :: (blkBytes (s.dev.tagBlk 0) ++ blkBytes (s.dev.tagBlk 1) ++ blkBytes (s.dev.tagBlk 2))))) ∧
      (s.dev.tag.sess = none → s.dev.tag.supply ≠ 2 → s.dev.mutualAes = true →
        (∀ (k rH : BitVec 128), s.dev.tagKey = some k → s.dev.tag.locked = false →
          ∃ t rD, exec (.auth1 rH) s = .next t ∧ t.dev.tag.pendAuth = some (rH, rD) ∧
            t.dev.tag.reply = 0 :: (beBytes 16 rD.toNat ++ beBytes 16 (Config.aes k (beBytes 16 rH.toNat)).toNat)) ∧
        (∀ (k rH rD : BitVec 128), s.dev.tagKey = some k → s.dev.tag.pendAuth = some (rH, rD) →
          (∃ t x, exec (.auth2 (Config.aes k (beBytes 16 rD.toNat))) s = .next t ∧ t.dev.tag.sess = some x ∧
            x.ks = Config.aes k ((beBytes 16 rH.toNat).take 8 ++ (beBytes 16 rD.toNat).take 8) ∧ x.rxCtr = 0 ∧
            t.dev.tag.pendAuth = none ∧ t.dev.tag.reply = [0] ∧ t.dev.flagBit 11 3 0 2 = true) ∧
          (∀ a, a ≠ Config.aes k (beBytes 16 rD.toNat) →
            ∃ t, exec (.auth2 a) s = .next t ∧ t.dev.tag.sess = none ∧ t.dev.tag.reply = [5] ∧ t.dev.flagBit 11 3 0 4 = true ∧
              (2 ≤ s.dev.tag.authFails → t.dev.tag.locked = true)))) ∧
      (∀ (x : SvcSession) (blk : BitVec 16) (p : SvcProt), s.dev.tag.sess = some x → x.accepts p (2 :: leBytes 2 blk.toNat) = false →
        exec (.fieldRead blk p) s = .next (s.put (s.dev.count 11 1 8 31 16)))) ∧
    (∀ x, s.dev.tag.sess = some x → x.tLast + 10000000000 ≤ s.dev.tim.elapsed →
      exec .sessionIdleTimeout s = .next (s.put (s.dev.endSession 3))) ∧
    (∀ (ag : Agent), s.dev.ready ag 11 0xFF → s.dev.tag.sess.isSome = true →
      exec (.svcEnd ag 0) s = .next (s.put ((s.dev.endSession 4).completed ag 11 0x13))) ∧
    (∀ cause, (s.dev.endSession cause).tag.sess = none)

/-- R430, R431, R433, R437 to R440: the commands of an open session with VMAIN, when the frame is accepted: READ
answers the committed block, WRITE of a DATA block and INC commit and answer OK, and a field that collapses before the
marker leaves the store as it was; DATA goes to the core and brings back what waits, LATTICE runs as A4, END ends. -/
def Obligations.ServiceCommands : Prop :=
  ∀ (s : State) (x : SvcSession) (p : SvcProt) (d1 : Dev), s.dev.tagOn = true → s.dev.tag.sess = some x →
    s.dev.tag.supply = 0 →
    (∀ blk : BitVec 16, blk.toNat ≤ 1023 → fieldReadable blk.toNat true = true →
      s.dev.sessionFrame x p (2 :: leBytes 2 blk.toNat) = some d1 →
      exec (.fieldRead blk p) s = .next (s.put (d1.tagReply (0 :: blkBytes (s.dev.tagBlk blk.toNat))))) ∧
    (∀ (blk : BitVec 16) (v : BitVec 256) (energy : Bool), 64 ≤ blk.toNat → blk.toNat ≤ 1023 →
      s.dev.sessionFrame x p (5 :: (leBytes 2 blk.toNat ++ blkBytes v)) = some d1 →
      exec (.fieldWrite blk v p energy .none) s = .next (s.put ((d1.tagCommit blk.toNat v).tagReply [0])) ∧
      (d1.tagCommit blk.toNat v).tagBlk blk.toNat = v ∧
      ∃ t, exec (.fieldWrite blk v p energy .inStep1) s = .next t ∧ t.dev.tag.store = s.dev.tag.store ∧ t.dev.tag.sess = none) ∧
    (∀ (ctr : Byte) (amount : BitVec 16), ctr.toNat ≤ 31 → amount ≠ 0 →
      s.dev.sessionFrame x p (6 :: ctr :: leBytes 2 amount.toNat) = some d1 →
      exec (.fieldInc ctr amount p true .none) s = .next (s.put
        ((d1.tagCommit (ctrBlk ctr.toNat) (incBlk (d1.tagBlk (ctrBlk ctr.toNat)) ctr.toNat amount.toNat)).tagReply [0]))) ∧
    (∀ (bytes : List Byte) (cs : List WordCheck), bytes.length ≤ 240 → s.dev.sessionFrame x p (7 :: bytes) = some d1 →
      exec (.fieldData bytes ⟨p, cs⟩) s = .next (s.put
        ((d1.svcSend 0x69 (packQ [(16, bytes.length), (8, 1), (40, 0)] :: packWords ((bytes.length + 7) / 8) bytes)).dataReply true cs))) ∧
    (s.dev.sessionFrame x p [9] = some d1 →
      ∃ t, exec (.fieldEnd p) s = .next t ∧ t.dev.tag.sess = none ∧ t.dev.tag.reply = [0]) ∧
    (∀ a : Sys2Proof.Access, s.dev.sessionFrame x p
        (8 :: (match a.write with
          | some w => (1 : Byte) :: (beBytes 4 a.addr.toNat ++ beBytes 4 w.toNat)
          | none => (0 : Byte) :: (beBytes 4 a.addr.toNat ++ beBytes 4 0))) = some d1 →
      exec (.fieldLattice [a] p) s = .next (s.put (d1.runRequest { agent := .service, todo := [some a] }).settleReleased))

/-- R431, R433, R435, R436, R438, R440: the device's side of the tag store: TAG_READ, TAG_WRITE and TAG_INC, a write
deferred for a field-shared block during a session, recovery of a journalled write, and a signed reading, which waits
for the handheld of a session and is counted as discarded without one. -/
def Obligations.TagStore : Prop :=
  ∀ s : State,
    (∀ (ag : Agent) (arg : BitVec 24), s.dev.ready ag 11 0xFF →
      (arg.toNat ≤ 1023 → ¬(4 ≤ arg.toNat ∧ arg.toNat ≤ 7) →
        exec (.tagRead ag arg) s = .next (s.put
          ((s.dev.setViewBytes ag (lattice 11 2 0) 8 (blkBytes (s.dev.tagBlk arg.toNat))).completed ag 11 0x10))) ∧
      (12 ≤ arg.toNat → arg.toNat ≤ 1023 →
        (s.dev.tag.sess = none →
          exec (.tagWrite ag arg) s = .next (s.put ((s.dev.tagCommit arg.toNat (s.dev.tagView ag)).completed ag 11 0x11))) ∧
        (s.dev.tag.sess.isSome = true → sharedIn s.dev.tag.sharedMap arg.toNat = true →
          ∃ t, exec (.tagWrite ag arg) s = .next t ∧ t.dev.reply.status = 0xFF ∧
            t.dev.tag.defer = some (ag, arg.toNat, s.dev.tagView ag, s.dev.tim.elapsed) ∧ t.dev.tag.store = s.dev.tag.store ∧
            t.dev.flagBit 11 3 0 6 = true)) ∧
      (argUnit arg ≤ 31 → argBits arg 15 0 ≠ 0 →
        exec (.tagInc ag arg) s = .next (s.put
          ((s.dev.tagCommit (ctrBlk (argUnit arg)) (incBlk (s.dev.tagBlk (ctrBlk (argUnit arg))) (argUnit arg) (argBits arg 15 0))).completed
            ag 11 0x12)))) ∧
    (∀ (ag : Agent) (b : Nat) (v : BitVec 256) (t0 : Nat), s.dev.tag.defer = some (ag, b, v, t0) →
      s.dev.tag.sess = none ∨ t0 + 200000000 ≤ s.dev.tim.elapsed →
      ∃ t, exec .tagDeferredWrite s = .next t ∧ t.dev.tag.defer = none ∧ t.dev.tag.store = setBlk s.dev.tag.store b v) ∧
    (∀ j, s.dev.tag.journal = some j → j.done = false →
      (j.marker = false → ∃ t, exec .tagStoreRecovery s = .next t ∧ t.dev.tag.journal = none ∧ t.dev.tag.store = s.dev.tag.store ∧
        t.dev.tag.lastStep = 1) ∧
      (j.marker = true → ∃ t, exec .tagStoreRecovery s = .next t ∧ t.dev.tag.store = setBlk s.dev.tag.store j.blk j.data ∧
        t.dev.flagBit 11 3 0 5 = true ∧ (3 ≤ j.blk → ∀ b, t.dev.tagBlk b = s.dev.tagBlk b))) ∧
    (∀ (q : Fin 64) (cs : List WordCheck) (m : QMsg) (ms : List QMsg) (ws : List QData) (d2 : Dev), s.dev.que.q[q].entry.cons = 8 →
      s.dev.tag.block = none → (s.dev.freshFront q).que.q[q].msgs = m :: ms → hdrType (msgHead m.words) = 0x20 →
      (s.dev.freshFront q).serves q = true → (s.dev.freshFront q).takeMsg q cs = (some ws, d2) → isPoison ws = false →
      (s.dev.tag.sess.isSome = true →
        exec (.svcSignedReading ⟨q, cs⟩) s = .next (s.put { d2 with tag := { d2.tag with block := some (unpackWords (ws.drop 1), 0) } })) ∧
      (s.dev.tag.sess = none → exec (.svcSignedReading ⟨q, cs⟩) s = .next (s.put (d2.count 11 1 8 31 16))))

/-! ### The panel (R442 to R458) -/

/-- R449 to R453, R458: UPDATE of an idle region starts it with the CRC its agent expects, and waits in the one
pending slot of a busy one, replacing what waited there; on an UNKNOWN or HELD region it completes with STATE; ADOPT takes a held region whose buffer still has the
journal's CRC; CLEAR drives it with INIT. R449, R453: an update that drove its last frame completes: the old buffer
takes the new pixels, the CRC is that of the pixels shown, and a region with an equal expected CRC and nothing pending
is verified; a clear leaves it white and not verified. -/
def Obligations.RegionUpdates : Prop :=
  (∀ (ag : Agent) (arg : BitVec 24) (r : Fin 16) (s : State), argUnit arg = r.val → s.dev.ready ag 12 (0x10 + r.val) →
     s.dev.rgnUsed r.val = true → s.dev.pnl.fn.st = .running →
     (1 ≤ argBits arg 15 8 → argBits arg 15 8 ≤ 3 →
       ((s.dev.pnl.r[r]).st = .idle →
         ∃ t, exec (.pnlUpdate ag arg) s = .next t ∧ t.dev.reply.status = 0 ∧ (t.dev.pnl.r[r]).st = .running ∧
           (t.dev.pnl.r[r]).table = argBits arg 15 8 ∧ (t.dev.pnl.r[r]).pending = none ∧
           (t.dev.pnl.r[r]).exp = s.dev.view ag (lattice 12 (0x10 + r.val) 0x10) ∧
           (s.dev.rgnLegal r.val = true → s.dev.verified r = true → t.dev.flagBit 12 0 0x10 5 = true) ∧
           ∀ q : Fin 16, q ≠ r → t.dev.pnl.r[q] = s.dev.pnl.r[q]) ∧
       ((s.dev.pnl.r[r]).st = .running ∨ (s.dev.pnl.r[r]).st = .clearing →
         ∃ t, exec (.pnlUpdate ag arg) s = .next t ∧ t.dev.reply.status = 0 ∧ (t.dev.pnl.r[r]).st = (s.dev.pnl.r[r]).st ∧
           (t.dev.pnl.r[r]).pending = some (argBits arg 15 8, s.dev.view ag (lattice 12 (0x10 + r.val) 0x10)) ∧
           ((s.dev.pnl.r[r]).pending ≠ none → t.dev.flagBit 12 0 0x10 2 = true)) ∧
       ((s.dev.pnl.r[r]).st = .unknown ∨ (s.dev.pnl.r[r]).st = .held →
         ∃ t, exec (.pnlUpdate ag arg) s = .next t ∧ t.dev.reply.status = 2 ∧ t.dev.pnl = s.dev.pnl)) ∧
     (((s.dev.pnl.r[r]).st = .held → (s.dev.pnl.r[r]).jCrc = s.dev.rgnCrc s.dev.pnl.new r.val → (s.dev.pnl.r[r]).jUpdate = true →
         (s.dev.pnl.r[r]).jValid = true → (s.dev.pnl.r[r]).pending = none →
         ∃ t, exec (.adopt ag arg) s = .next t ∧ t.dev.reply.status = 0 ∧ t.dev.verified r = true ∧
           (t.dev.pnl.r[r]).crc = s.dev.rgnCrc s.dev.pnl.new r.val) ∧
       ((s.dev.pnl.r[r]).busy = false →
         ∃ t, exec (.clear ag arg) s = .next t ∧ t.dev.reply.status = 0 ∧ (t.dev.pnl.r[r]).st = .clearing ∧
           (t.dev.pnl.r[r]).table = 0))) ∧
  (∀ (r : Fin 16) (s : State), s.dev.lastFrame r = true → (s.dev.pnl.r[r]).pending = none →
     ((s.dev.pnl.r[r]).st = .running →
       ∃ t, exec (.panelUpdateComplete r) s = .next t ∧ (t.dev.pnl.r[r]).st = .idle ∧
         (t.dev.pnl.r[r]).crc = s.dev.rgnCrc s.dev.pnl.new r.val ∧ (t.dev.pnl.r[r]).lastUpdate = true ∧
         t.dev.flagBit 12 0 0x10 0 = true ∧
         (s.dev.rgnUsed r.val = true → (t.dev.verified r = true ↔ s.dev.rgnCrc s.dev.pnl.new r.val = (s.dev.pnl.r[r]).exp)) ∧
         (∀ p, findPix t.dev.pnl.old p =
           (if (s.dev.rgnPixels r.val).contains p then findPix s.dev.pnl.new p else findPix s.dev.pnl.old p)) ∧
         ∀ q : Fin 16, q ≠ r → t.dev.pnl.r[q] = s.dev.pnl.r[q]) ∧
     ((s.dev.pnl.r[r]).st = .clearing →
       ∃ t, exec (.panelClearComplete r) s = .next t ∧ (t.dev.pnl.r[r]).st = .idle ∧ t.dev.verified r = false ∧
         (∀ p, findPix t.dev.pnl.old p = (if (s.dev.rgnPixels r.val).contains p then 15 else findPix s.dev.pnl.old p))))

/-- R443 to R448, R453 to R457: the controller: a frame instant moves every running region on by one frame; the clear
after a cold reset starts on every unknown region; the strip is drawn when its cells change; the supplies go down
100 ms after the last update; a fault leaves running regions unknown; the stress record is saved once an hour; the
pixel and the memory window read and write what they show, a waveform word only while the function is stopped (R106: one
that would change completes with STATE). -/
def Obligations.PanelController : Prop :=
  ∀ s : State,
    (s.dev.frameDue = true → s.dev.pwr.held = false → s.dev.pnl.autoDone = true → s.dev.mayDrive = true →
      ∃ t, exec .panelFrameInstant s = .next t ∧ t.dev.frameDue = false ∧
        ∀ r : Fin 16, (s.dev.pnl.r[r]).busy = true → s.dev.lastFrame r = false →
          (t.dev.pnl.r[r]).st = (s.dev.pnl.r[r]).st ∧ (t.dev.pnl.r[r]).started = true ∧
          (t.dev.pnl.r[r]).frame = (if (s.dev.pnl.r[r]).started = true then (s.dev.pnl.r[r]).frame + 1 else 0) ∧
          (t.dev.pnl.r[r]).jRunning = true ∧ (t.dev.pnl.r[r]).jTable = (t.dev.pnl.r[r]).table ∧
          (t.dev.pnl.r[r]).jFrame = (t.dev.pnl.r[r]).frame) ∧
    (s.dev.pnl.autoClear = true → s.dev.mayDrive = true →
      ∃ t, exec .panelAutoClear s = .next t ∧ t.dev.pnl.autoClear = false ∧
        ∀ r : Fin 16, (s.dev.pnl.r[r]).st = .unknown → s.dev.rgnUsed r.val = true →
          (t.dev.pnl.r[r]).st = .clearing ∧ (t.dev.pnl.r[r]).table = 0) ∧
    (s.dev.pnl.fn.st = .running → s.dev.stripOn = true → s.dev.pnl.stopped = false → s.dev.pnl.stripReady = true →
      s.dev.pnl.strip = .idle → s.dev.stripCells ≠ s.dev.pnl.stripShown →
      ∃ t, exec .stripUpdate s = .next t ∧ t.dev.pnl.strip = .running ∧ t.dev.pnl.stripShown = s.dev.stripCells ∧
        t.dev.pnl.pwrUp = true ∧ t.dev.pnl.old = s.dev.pnl.old) ∧
    (s.dev.pnl.pwrUp = true →
      exec .panelPowerGood s = .next (s.put { s.dev with pnl := { s.dev.pnl with pwrGood := true } }) ∧
      (s.dev.pnlBusy = false → s.dev.pnl.autoClear = false → s.dev.stripDue = false → s.dev.pnl.tIdle + 100000000 ≤ s.dev.tim.elapsed →
        exec .panelPowerDown s = .next (s.put { s.dev with pnl := { s.dev.pnl with pwrUp := false, pwrGood := false } }))) ∧
    (∀ cause, s.dev.pnl.fn.st = .running → s.dev.pnl.stopped = false → cause = .pixelClockLost ∨ s.dev.pnlBusy = true →
      ∃ t, exec (.panelFault cause) s = .next t ∧ t.dev.pnl.fn.st = .fault ∧ t.dev.pnl.fn.code = 1 ∧
        t.dev.flagBit 12 0 0x10 3 = true ∧
        ∀ r : Fin 16, (s.dev.pnl.r[r]).busy = true → (t.dev.pnl.r[r]).st = .unknown ∧ (t.dev.pnl.r[r]).pending = none) ∧
    (s.dev.pnl.tStress + 3600000000000 ≤ s.dev.tim.elapsed →
      exec .stressSave s = .next (s.put { s.dev with pnl := { s.dev.pnl with
        stressSaved := s.dev.pnl.stress, tStress := s.dev.tim.elapsed } })) ∧
    (∀ ag : Agent, s.dev.canWrite ag 12 0 →
      (s.dev.winInside = true → s.dev.winRunning = false →
        ∀ w : Word, ∃ t, exec (.panelWindowAccess ag (some w)) s = .next t ∧ t.dev.reply.status = 0 ∧
          ∀ p, findPix t.dev.pnl.new p = (match s.dev.winPixels.findIdx? (fun x => x = p) with
            | some k => BitVec.ofNat 4 (bits w.toNat (4 * k + 3) (4 * k))
            | none => findPix s.dev.pnl.new p)) ∧
      (s.dev.rfld 12 0 0x20 31 30 = 1 → s.dev.rfld 12 0 0x20 14 0 < 4096 →
        ∀ w : Word, ∃ t, exec (.panelMemoryAccess ag (some w)) s = .next t ∧ t.dev.reply.status = 0 ∧
          memWord t.dev.pnl.glyph (s.dev.rfld 12 0 0x20 14 0) = w ∧
          t.dev.rfld 12 0 0x20 14 0 = s.dev.rfld 12 0 0x20 14 0 + 1) ∧
      (s.dev.rfld 12 0 0x20 31 30 = 0 → ∀ w : Word,
        (s.dev.pnl.fn.idle = true →
          ∃ t, exec (.panelMemoryAccess ag (some w)) s = .next t ∧ t.dev.reply.status = 0 ∧
            memWord t.dev.pnl.wave (s.dev.rfld 12 0 0x20 14 0) = w) ∧
        (s.dev.pnl.fn.idle = false → (s.dev.pnl.wave.find (s.dev.rfld 12 0 0x20 14 0)).getD 0 ≠ w →
          ∃ t, exec (.panelMemoryAccess ag (some w)) s = .next t ∧ t.dev.reply.status = 2 ∧ t.dev.pnl = s.dev.pnl))) ∧
    (∀ ag : Agent, s.dev.canIssue ag = true → s.dev.granted ag 12 0 .read = true → s.dev.stoppedIsland 12 0 = none →
      (s.dev.winInside = true →
        exec (.panelWindowAccess ag none) s = .next (s.put
          (s.dev.winAdvance.answer ag .ok (packW (s.dev.winPixels.reverse.map fun p => (4, (findPix s.dev.pnl.new p).toNat)))))) ∧
      (s.dev.rfld 12 0 0x20 31 30 = 0 →
        exec (.panelMemoryAccess ag none) s = .next (s.put
          (s.dev.memAdvance.answer ag .ok (memWord s.dev.pnl.wave (s.dev.rfld 12 0 0x20 14 0))))))

/-! ### The Aulan ring (R483 to R506) -/

/-- R488 to R495, R505: frames of queues and requests: a DATA frame for this module whose CRC checks goes into its
queue when there is room and nothing waits before it, is misrouted where no queue accepts it, and is counted where its
CRC fails; a frame of another module is forwarded; an LREQ with an accepted transaction runs its accesses as A2; the
bridge sends the front message of the queue whose turn it is (R126), and in C0 at most 2 in 250 µs. R489: a class 0 frame
that meets a frame of another class under way goes between PRE and RES at the end of its 8-byte block. R490: the class that
goes next waits and has had the least of its share, and within it forwarded and own frames take turns (the charging of
blocks is the model's scheduler, log entry 122). -/
def Obligations.RingTraffic : Prop :=
  ∀ s : State,
    (∀ (portB : Bool) (f : RingFrame), s.dev.portIsUp portB = true → s.dev.aul.stopped = false → f.eofBad = false →
      (f.ftype = 0 → f.dest ≠ 0xFF → s.dev.forMe f = true →
        (∀ q, f.crcOk = true → s.dev.dataQueue f = some q → (s.dev.que.q[q]).room f.payload.length = true →
          (s.dev.aul.rxHeld.any (behind portB f)) = false →
          exec (.dataFrame portB f) s = .next (s.put (s.dev.produce q f.payload))) ∧
        (f.crcOk = true → s.dev.dataQueue f = none →
          ∃ t, exec (.dataFrame portB f) s = .next t ∧ t.dev.aul.misrouted = satAdd 16 s.dev.aul.misrouted 1 ∧
            t.dev.que = s.dev.que ∧ t.dev.flagBit 9 0 0xC 6 = true) ∧
        (f.crcOk = false →
          ∃ t, exec (.dataFrame portB f) s = .next t ∧ t.dev.aul.crc = satAdd 16 s.dev.aul.crc 1 ∧ t.dev.que = s.dev.que ∧
            t.dev.flagBit 9 0 0xC 5 = true)) ∧
      (f.ftype = 1 → f.dest ≠ 0xFF → s.dev.forMe f = true → f.crcOk = true → s.dev.sto.holdup = false →
        ∀ (w1 : QData) (ws : List QData) (ok : Bool) (d1 : Dev), f.payload = w1 :: ws → ws.length = bits w1.toNat 31 24 →
          1 ≤ ws.length → ws.length ≤ 8 → s.dev.takeTransaction (bits w1.toNat 63 32) = (ok, d1) →
          exec (.lreq portB f) s = .next (s.put (if ok = true then
            (d1.runRequest { agent := .host, cls := f.cls, word := w1, todo := ws.map lreqAccess }).settleReleased else d1))) ∧
      (s.dev.forMe f = false → f.ftype ≠ 4 → f.ftype ≠ 5 → f.crcOk = true →
        (f.cls = 0 ∨ s.dev.canForward portB f.cls = true ∧ (s.dev.aul.rxHeld.any (behind portB f)) = false →
          s.dev.portUsed (!portB) = true → s.dev.portIsUp (!portB) = true →
          exec (.frameForward portB f) s = .next (s.put (s.dev.sendRing (!portB) { f with hops := f.hops + 1 }))) ∧
        (f.cls ≠ 0 → s.dev.canForward portB f.cls = false ∨ (s.dev.aul.rxHeld.any (behind portB f)) = true →
          ∃ t, exec (.frameForward portB f) s = .next t ∧ t.dev.aul.rxHeld = s.dev.aul.rxHeld ++ [(portB, f)]))) ∧
    (∀ (p : Port) (c : Fin 4), p.nextClass = some c →
      c ≠ 0 ∧ p.classWaits c = true ∧ (∀ e : Fin 4, p.classWaits e = true → p.shares[c] ≤ p.shares[e]) ∧
      ∃ x, p.nextOf c = some x ∧ x ∈ p.waiting ∧ x.2.cls = c ∧
        ((∃ y ∈ p.waiting, y.2.cls = c ∧ y.1 ≠ p.ownLast.getLsbD c.val) → x.1 ≠ p.ownLast.getLsbD c.val) ∧
        ((p.start c x).shares[c] = p.shares[c] + ringBlocks x.2 * 2 ^ (c.val - 1))) ∧
    (∀ (f g : RingFrame) (a b dt : Nat) (rest : List WireItem), g.cls ≠ 0 →
      a + 8 * ((dt - 20 * b1 (a = 0)) / 160 + 1) < b →
      interrupt f dt (.bytes g a b :: rest) =
        .bytes g a (a + 8 * ((dt - 20 * b1 (a = 0)) / 160 + 1)) :: .pre :: wholeFrame f :: .res ::
          .bytes g (a + 8 * ((dt - 20 * b1 (a = 0)) / 160 + 1)) b :: rest) ∧
    (∀ (q : Fin 64) (cs : List WordCheck) (h : s.dev.que.q[q].entry.cls < 4), s.dev.que.q[q].entry.cons = 2 → s.dev.que.q[q].entry.depth ≠ 0 →
      s.dev.bridgeMay ⟨s.dev.que.q[q].entry.cls, h⟩ = true → ¬(s.dev.aul.idWait = true ∧ s.dev.idSpace q.val = 9) →
      (s.dev.que.q[q].entry.cls ≠ 0 ∨ s.dev.c0Free s.dev.aul.hostB = true → s.dev.serves q s.dev.bridgeCan = true →
        exec (.bridgeQueueSend ⟨q, cs⟩) s = .next (s.put (s.dev.bridgeTake q ⟨s.dev.que.q[q].entry.cls, h⟩ cs)) ∧
        ∀ (m : QMsg) (ms : List QMsg), (s.dev.freshFront q).que.q[q].msgs = m :: ms → poisonSpan m ms cs = 0 →
          s.dev.idSpace q.val ≠ 9 ∨ hdrIdent (msgHead m.words) ≠ 0 →
          ∃ t f, exec (.bridgeQueueSend ⟨q, cs⟩) s = .next t ∧ t.dev.que.q[q].msgs = ms ∧
            (t.dev.port s.dev.aul.hostB).sent = f :: (s.dev.port s.dev.aul.hostB).sent ∧ f.cls.val = s.dev.que.q[q].entry.cls ∧
            f.queue = BitVec.ofNat 8 q.val ∧ f.source = BitVec.ofNat 8 s.dev.aul.number ∧ f.payload.drop 1 = m.words.drop 1) ∧
      (s.dev.que.q[q].entry.cls = 0 → s.dev.c0Free s.dev.aul.hostB = false → s.dev.que.q[q].msgs ≠ [] →
        s.dev.aul.c0Wait.contains q.val = false →
        exec (.bridgeQueueSend ⟨q, cs⟩) s = .next (s.put { s.dev with aul := { s.dev.aul with
          held := satAdd 16 s.dev.aul.held 1, c0Wait := q.val :: s.dev.aul.c0Wait } }))) ∧
    (∀ (q : Fin 64) (cs : List WordCheck), s.dev.aul.c0Wait.contains q.val = true → s.dev.c0Free s.dev.aul.hostB = true →
      exec (.c0HoldRelease ⟨q, cs⟩) s = exec (.bridgeQueueSend ⟨q, cs⟩) s ∧ ∃ t, exec (.c0HoldRelease ⟨q, cs⟩) s = .next t)

/-- R484, R491, R498 to R503, R506: the link and its ports: PAUSE and GO of a class, the two passes of numbering,
ROUTE and LINK, a port that goes down or comes up, the exchange of link delays, SYNC with its offset, COUNT_CLEAR of
the bridge, and PORT_RETRAIN, which the host cannot use on its own host port. -/
def Obligations.RingLink : Prop :=
  ∀ (portB : Bool) (s : State),
    (∀ cls : Fin 4, cls ≠ 0 → s.dev.portIsUp portB = true →
      ∃ t, exec (.pauseReceived portB cls) s = .next t ∧ (t.dev.port portB).paused.getLsbD cls.val = true ∧
        t.dev = { s.dev with aul := t.dev.aul } ∧ t.dev.port (!portB) = s.dev.port (!portB)) ∧
    (∀ cls : Fin 4, ∃ t, exec (.goReceived portB cls) s = .next t ∧ (t.dev.port portB).paused.getLsbD cls.val = false) ∧
    (s.dev.aul.stopped = false → s.dev.portIsUp portB = true →
      (∀ f : RingFrame, f.crcOk = true → f.eofBad = false →
        (f.ftype = 6 → ∀ (w1 w2 : QData) (ws : List QData), f.payload = w1 :: w2 :: ws →
          (bits w1.toNat 63 56 = 1 → ¬(1 ≤ s.dev.persona 1 ∧ s.dev.persona 1 ≤ 64 ∧ nbit w2.toNat (s.dev.persona 1 - 1) = false) →
            ∃ t, exec (.ringEnum portB f) s = .next t ∧ t.dev.aul.numbered = false ∧ t.dev.aul.number = 0 ∧
              t.dev.aul.position = (bits w1.toNat 55 48 + 1) % 256) ∧
          (bits w1.toNat 63 56 = 2 → s.dev.aul.numbered = false → ∀ i, lowestClear w2.toNat = some i →
            ∃ t, exec (.ringEnum portB f) s = .next t ∧ t.dev.aul.numbered = true ∧ t.dev.aul.number = i + 1 ∧
              t.dev.flagBit 9 0 0xC 3 = true)) ∧
        (f.ftype = 7 → s.dev.portUsed portB = true →
          ∃ t, exec (.ringRoute portB f) s = .next t ∧ t.dev.aul.hostB = portB ∧ t.dev.aul.number = s.dev.aul.number) ∧
        (f.ftype = 8 → bits (msgHead f.payload).toNat 63 56 = 0 → portB = s.dev.aul.hostB →
          s.dev.portIsUp (!portB) = true → s.dev.portUsed (!portB) = true →
          ∃ t, exec (.ringLink portB f) s = .next t ∧ t.dev.aul.hostB = !portB) ∧
        (f.ftype = 3 → portB = s.dev.aul.hostB → ∀ (w1 w2 : QData) (ws : List QData), f.payload = w1 :: w2 :: ws →
          ∃ t off, exec (.ringSync portB f) s = .next t ∧ t.dev.aul.syncOff = clampInt off 0x7FFFFFFF ∧
            (off : Rat) - ((w1.toNat : Rat) + (signed 64 w2.toNat : Rat) / 65536 + (s.dev.port portB).delay - (s.dev.tim.now : Rat)) ≤ 1 ∧
            -1 ≤ (off : Rat) - ((w1.toNat : Rat) + (signed 64 w2.toNat : Rat) / 65536 + (s.dev.port portB).delay - (s.dev.tim.now : Rat)) ∧
            (s.dev.tim.servo.st = .running → t.dev.tim.ringOffs = off :: s.dev.tim.ringOffs)) ∧
        (f.ftype = 3 → portB ≠ s.dev.aul.hostB → f.payload.length = 2 →
          ∃ t, exec (.ringSync portB f) s = .next t ∧ t.dev.tim = s.dev.tim ∧ t.dev.aul.syncOff = s.dev.aul.syncOff)) ∧
      (s.dev.sto.holdup = false → ∃ t k, exec (.delayReq portB) s = .next t ∧ (t.dev.port portB).sent =
        s.dev.ownFrame 1 5 0 [BitVec.ofNat 64 s.dev.tim.now, BitVec.ofNat 64 (s.dev.tim.now + k)] :: (s.dev.port portB).sent) ∧
      (∀ (t2 t3 : BitVec 64) (t1 : Nat), (s.dev.port portB).t1 = some t1 →
        ∃ t, exec (.delayResp portB t2 t3) s = .next t ∧ (t.dev.port portB).t1 = none ∧
          (t.dev.port portB).delays.head? = some (((s.dev.tim.now : Int) - t1) - ((t3.toNat : Int) - t2.toNat)) ∧
          (t.dev.port portB).delays.length ≤ 8) ∧
      (s.dev.sto.holdup = false → (s.dev.port portB).lastReq + s.dev.rfld 9 0 4 7 0 * 100000000 ≤ s.dev.tim.elapsed →
        ∃ t, exec .delayExchangeTimer s = .next t ∧ (t.dev.port portB).t1 = some s.dev.tim.now ∧
          (t.dev.port portB).lastReq = s.dev.tim.elapsed) ∧
      (∃ t, exec (.portDown portB) s = .next t ∧ (t.dev.port portB).st = .training ∧
        (t.dev.port portB).lockLosses = satAdd 16 (s.dev.port portB).lockLosses 1 ∧ t.dev.flagBit 9 0 0xC 0 = true)) ∧
    (s.dev.aul.stopped = false → s.dev.portIsUp portB = false → s.dev.portUsed portB = true → s.dev.pwr.held = false →
      ∃ t, exec (.portUp portB) s = .next t ∧ (t.dev.port portB).st = .up ∧ t.dev.flagBit 9 0 0xC 1 = true) ∧
    (∀ ag : Agent, s.dev.ready ag 9 0xFF →
      ∃ t, exec (.aulCountClear ag 0) s = .next t ∧ t.dev.reply.status = 0 ∧ t.dev.aul.crc = 0 ∧ t.dev.aul.misrouted = 0 ∧
        t.dev.aul.held = 0 ∧ t.dev.aul.sentC0 = 0 ∧ (t.dev.port portB).lockLosses = 0 ∧ (t.dev.port portB).violations = 0) ∧
    (∀ (ag : Agent) (arg : BitVec 24), argUnit arg = b1 portB → argBits arg 15 0 = 0 → s.dev.ready ag 9 (0x10 + argUnit arg) →
      (ag = .host → s.dev.aul.hostB = portB →
        ∃ t, exec (.portRetrain ag arg) s = .next t ∧ t.dev.reply.status = 2 ∧ t.dev.port portB = s.dev.port portB) ∧
      (ag ≠ .host →
        ∃ t, exec (.portRetrain ag arg) s = .next t ∧ t.dev.reply.status = 0 ∧ (t.dev.port portB).st = .training))

/-! ### The whole machine -/

/-- R97: a write of <GRP>_CMD issues the command of its opcode [31:24] with the argument [23:0], by the same checks
and with the same effect as the command's own row; an opcode that the group does not have completes with ARG. -/
def Obligations.CommandWrite : Prop :=
  ∀ (ag : Agent) (g op : Nat) (arg : BitVec 24) (s : State), g < 15 → op < 256 → restrictedCommand g op = false →
    (∀ (u : Nat) (h : Dev → CmdSt × Dev),
      ((commonCommand g op arg).orElse fun _ => groupCommand ag g op arg) = some (u, h) →
      exec (.latticeWrite ag (BitVec.ofNat 32 (lattice g 0xFF 0)) (BitVec.ofNat 8 op ++ arg)) s =
        .next (s.put (((issueCommand ag g op arg u h s.dev).settleReset).settleReleased))) ∧
    (((commonCommand g op arg).orElse fun _ => groupCommand ag g op arg) = none → s.dev.ready ag g 0xFF →
      exec (.latticeWrite ag (BitVec.ofNat 32 (lattice g 0xFF 0)) (BitVec.ofNat 8 op ++ arg)) s =
        .next (s.put ((((s.dev.noteCommand ag g op .arg).answer ag .arg).settleReset).settleReleased)))

/-- The block right after power-on reset, before its start-up (R15, R142, R316, R337, R389, R520, R524): every
register word reads its reset value, no flag is set, no contactor driver conducts, every load switch is off, site time
is NOT_VALID, no image is loaded, every key slot is EMPTY and KROOT absent, no command waits. That nothing is retained
is the model's choice of an unwritten store (log entry 7, DESIGN CHOICE). -/
def Obligations.ResetState : Prop :=
  State.reset.pending = [] ∧ State.reset.contactorsGuarded ∧
  (∀ a, State.reset.dev.regs.value a = BitVec.ofNat 32 (resetAt a)) ∧
  (∀ a, (State.reset.dev.flagReg a).bits = 0) ∧
  (∀ n : Fin 8, (State.reset.dev.kao.m[n]).ken = false ∧ (State.reset.dev.kao.m[n]).st = .unconfirmed) ∧
  (∀ c : Fin 16, (State.reset.dev.lsw.c[c]).st = .off ∧ State.reset.dev.lswOut c = false) ∧
  State.reset.dev.tim.quality = .notValid ∧ State.reset.dev.img.loaded = none ∧
  (∀ k : Fin 64, (State.reset.dev.key.slots[k]).st = .empty) ∧ State.reset.dev.key.share = none ∧
  Memory.wf State.reset.dev.sto.mram = true

/-- The step takes every command: each answers a next state, and none changes the commands that wait (no rule of the
spec stops the block). -/
def Obligations.EveryCommandCompletes : Prop :=
  ∀ (c : Instr) (s : State), ∃ d : Dev, exec c s = .next (s.put d)

/-- R282, R314, R317: whatever command runs, in whatever state, a contactor driver conducts only while its slice
machine is ARMED: every step keeps this. -/
def Obligations.ContactorsStayGuarded : Prop :=
  ∀ s t : State, s.contactorsGuarded → step s = .next t → t.contactorsGuarded

/-- The frame of the commands: a command changes no part of the block beyond its scope, the register words, flags,
views, answers and log that belong to every command apart; a session or grid command of some slices leaves the
sessions of the others. -/
def Obligations.CommandScope : Prop :=
  (∀ (c : Instr) (ks : List Part) (p : Part) (s t : State), commandScope c = some ks → p ∉ ks → exec c s = .next t →
    p.same s.dev t.dev) ∧
  (∀ (ag : Agent) (arg : BitVec 24) (m : Fin 8) (s t : State), argUnit arg ≠ m.val →
    exec (.authorize ag arg) s = .next t ∨ exec (.deny ag arg) s = .next t ∨ exec (.evcStop ag arg) s = .next t ∨
      exec (.suspend ag arg) s = .next t ∨ exec (.resume ag arg) s = .next t ∨ exec (.faultClear ag arg) s = .next t →
    t.dev.evc.s[m] = s.dev.evc.s[m] ∧ t.dev.kao = s.dev.kao) ∧
  (∀ (n m : Fin 8) (s t : State), n ≠ m →
    exec (.authTimeout n) s = .next t ∨ exec (.lockConfirmTimeout n) s = .next t ∨ exec (.contactorEnergize n) s = .next t ∨
      exec (.closeTimeout n) s = .next t ∨ exec (.energizeTimeout n) s = .next t ∨ exec (.stopWaitEnd n) s = .next t ∨
      exec (.openConfirmTimeout n) s = .next t ∨ exec (.sessionEndReading n) s = .next t ∨
      exec (.evOvercurrent n) s = .next t ∨ exec (.moduleLost n) s = .next t →
    t.dev.evc.s[m] = s.dev.evc.s[m] ∧ t.dev.kao = s.dev.kao)
end

