-- ==== Sys2Proof/Laws/State.lean ====
section
/-! SUPPORT. The updates of the device, field by field: what each leaves as it was, and the element it changes. No later
proof unfolds a record update. The proofs are written (rfl), so that simp rewrites with these lemmas in place of unfolding
the operations, which makes the kernel unfold them too. -/

namespace Sys2Proof.Machine

@[simp] theorem State.put_dev (s : State) (d : Dev) : (s.put d).dev = d := (rfl)
@[simp] theorem State.put_pending (s : State) (d : Dev) : (s.put d).pending = s.pending := (rfl)
@[simp] theorem State.put_put (s : State) (d e : Dev) : (s.put d).put e = s.put e := (rfl)
@[simp] theorem State.put_self (s : State) : s.put s.dev = s := (rfl)

@[simp] theorem Dev.updEvc_regs (d : Dev) (n : Fin 8) (f : EvcSlice → EvcSlice) : (d.updEvc n f).regs = d.regs := (rfl)
@[simp] theorem Dev.updEvc_staged (d : Dev) (n : Fin 8) (f : EvcSlice → EvcSlice) : (d.updEvc n f).staged = d.staged := (rfl)
@[simp] theorem Dev.updEvc_views (d : Dev) (n : Fin 8) (f : EvcSlice → EvcSlice) : (d.updEvc n f).views = d.views := (rfl)
@[simp] theorem Dev.updEvc_flags (d : Dev) (n : Fin 8) (f : EvcSlice → EvcSlice) : (d.updEvc n f).flags = d.flags := (rfl)
@[simp] theorem Dev.updEvc_coreA1 (d : Dev) (n : Fin 8) (f : EvcSlice → EvcSlice) : (d.updEvc n f).coreA1 = d.coreA1 := (rfl)
@[simp] theorem Dev.updEvc_reply (d : Dev) (n : Fin 8) (f : EvcSlice → EvcSlice) : (d.updEvc n f).reply = d.reply := (rfl)
@[simp] theorem Dev.updEvc_coreReply (d : Dev) (n : Fin 8) (f : EvcSlice → EvcSlice) : (d.updEvc n f).coreReply = d.coreReply := (rfl)
@[simp] theorem Dev.updEvc_replies (d : Dev) (n : Fin 8) (f : EvcSlice → EvcSlice) : (d.updEvc n f).replies = d.replies := (rfl)
@[simp] theorem Dev.updEvc_busy (d : Dev) (n : Fin 8) (f : EvcSlice → EvcSlice) : (d.updEvc n f).busy = d.busy := (rfl)
@[simp] theorem Dev.updEvc_hung (d : Dev) (n : Fin 8) (f : EvcSlice → EvcSlice) : (d.updEvc n f).hung = d.hung := (rfl)
@[simp] theorem Dev.updEvc_resume (d : Dev) (n : Fin 8) (f : EvcSlice → EvcSlice) : (d.updEvc n f).resume = d.resume := (rfl)
@[simp] theorem Dev.updEvc_permLog (d : Dev) (n : Fin 8) (f : EvcSlice → EvcSlice) : (d.updEvc n f).permLog = d.permLog := (rfl)
@[simp] theorem Dev.updEvc_cfgLog (d : Dev) (n : Fin 8) (f : EvcSlice → EvcSlice) : (d.updEvc n f).cfgLog = d.cfgLog := (rfl)
@[simp] theorem Dev.updEvc_log (d : Dev) (n : Fin 8) (f : EvcSlice → EvcSlice) : (d.updEvc n f).log = d.log := (rfl)
@[simp] theorem Dev.updEvc_logSeq (d : Dev) (n : Fin 8) (f : EvcSlice → EvcSlice) : (d.updEvc n f).logSeq = d.logSeq := (rfl)
@[simp] theorem Dev.updEvc_islandRun (d : Dev) (n : Fin 8) (f : EvcSlice → EvcSlice) : (d.updEvc n f).islandRun = d.islandRun := (rfl)
@[simp] theorem Dev.updEvc_clockLost (d : Dev) (n : Fin 8) (f : EvcSlice → EvcSlice) : (d.updEvc n f).clockLost = d.clockLost := (rfl)
@[simp] theorem Dev.updEvc_img (d : Dev) (n : Fin 8) (f : EvcSlice → EvcSlice) : (d.updEvc n f).img = d.img := (rfl)
@[simp] theorem Dev.updEvc_que (d : Dev) (n : Fin 8) (f : EvcSlice → EvcSlice) : (d.updEvc n f).que = d.que := (rfl)
@[simp] theorem Dev.updEvc_tim (d : Dev) (n : Fin 8) (f : EvcSlice → EvcSlice) : (d.updEvc n f).tim = d.tim := (rfl)
@[simp] theorem Dev.updEvc_mtr (d : Dev) (n : Fin 8) (f : EvcSlice → EvcSlice) : (d.updEvc n f).mtr = d.mtr := (rfl)
@[simp] theorem Dev.updEvc_bil (d : Dev) (n : Fin 8) (f : EvcSlice → EvcSlice) : (d.updEvc n f).bil = d.bil := (rfl)
@[simp] theorem Dev.updEvc_kao (d : Dev) (n : Fin 8) (f : EvcSlice → EvcSlice) : (d.updEvc n f).kao = d.kao := (rfl)
@[simp] theorem Dev.updEvc_lsw (d : Dev) (n : Fin 8) (f : EvcSlice → EvcSlice) : (d.updEvc n f).lsw = d.lsw := (rfl)
@[simp] theorem Dev.updEvc_plc (d : Dev) (n : Fin 8) (f : EvcSlice → EvcSlice) : (d.updEvc n f).plc = d.plc := (rfl)
@[simp] theorem Dev.updEvc_key (d : Dev) (n : Fin 8) (f : EvcSlice → EvcSlice) : (d.updEvc n f).key = d.key := (rfl)
@[simp] theorem Dev.updEvc_tag (d : Dev) (n : Fin 8) (f : EvcSlice → EvcSlice) : (d.updEvc n f).tag = d.tag := (rfl)
@[simp] theorem Dev.updEvc_pnl (d : Dev) (n : Fin 8) (f : EvcSlice → EvcSlice) : (d.updEvc n f).pnl = d.pnl := (rfl)
@[simp] theorem Dev.updEvc_sto (d : Dev) (n : Fin 8) (f : EvcSlice → EvcSlice) : (d.updEvc n f).sto = d.sto := (rfl)
@[simp] theorem Dev.updEvc_aul (d : Dev) (n : Fin 8) (f : EvcSlice → EvcSlice) : (d.updEvc n f).aul = d.aul := (rfl)
@[simp] theorem Dev.updEvc_pwr (d : Dev) (n : Fin 8) (f : EvcSlice → EvcSlice) : (d.updEvc n f).pwr = d.pwr := (rfl)
@[simp] theorem Dev.updEvc_fresh (d : Dev) (n : Fin 8) (f : EvcSlice → EvcSlice) : (d.updEvc n f).fresh = d.fresh := (rfl)

@[simp] theorem Dev.updGp_regs (d : Dev) (n : Fin 8) (f : Modem → Modem) : (d.updGp n f).regs = d.regs := (rfl)
@[simp] theorem Dev.updGp_staged (d : Dev) (n : Fin 8) (f : Modem → Modem) : (d.updGp n f).staged = d.staged := (rfl)
@[simp] theorem Dev.updGp_views (d : Dev) (n : Fin 8) (f : Modem → Modem) : (d.updGp n f).views = d.views := (rfl)
@[simp] theorem Dev.updGp_flags (d : Dev) (n : Fin 8) (f : Modem → Modem) : (d.updGp n f).flags = d.flags := (rfl)
@[simp] theorem Dev.updGp_coreA1 (d : Dev) (n : Fin 8) (f : Modem → Modem) : (d.updGp n f).coreA1 = d.coreA1 := (rfl)
@[simp] theorem Dev.updGp_reply (d : Dev) (n : Fin 8) (f : Modem → Modem) : (d.updGp n f).reply = d.reply := (rfl)
@[simp] theorem Dev.updGp_coreReply (d : Dev) (n : Fin 8) (f : Modem → Modem) : (d.updGp n f).coreReply = d.coreReply := (rfl)
@[simp] theorem Dev.updGp_replies (d : Dev) (n : Fin 8) (f : Modem → Modem) : (d.updGp n f).replies = d.replies := (rfl)
@[simp] theorem Dev.updGp_busy (d : Dev) (n : Fin 8) (f : Modem → Modem) : (d.updGp n f).busy = d.busy := (rfl)
@[simp] theorem Dev.updGp_hung (d : Dev) (n : Fin 8) (f : Modem → Modem) : (d.updGp n f).hung = d.hung := (rfl)
@[simp] theorem Dev.updGp_resume (d : Dev) (n : Fin 8) (f : Modem → Modem) : (d.updGp n f).resume = d.resume := (rfl)
@[simp] theorem Dev.updGp_permLog (d : Dev) (n : Fin 8) (f : Modem → Modem) : (d.updGp n f).permLog = d.permLog := (rfl)
@[simp] theorem Dev.updGp_cfgLog (d : Dev) (n : Fin 8) (f : Modem → Modem) : (d.updGp n f).cfgLog = d.cfgLog := (rfl)
@[simp] theorem Dev.updGp_log (d : Dev) (n : Fin 8) (f : Modem → Modem) : (d.updGp n f).log = d.log := (rfl)
@[simp] theorem Dev.updGp_logSeq (d : Dev) (n : Fin 8) (f : Modem → Modem) : (d.updGp n f).logSeq = d.logSeq := (rfl)
@[simp] theorem Dev.updGp_islandRun (d : Dev) (n : Fin 8) (f : Modem → Modem) : (d.updGp n f).islandRun = d.islandRun := (rfl)
@[simp] theorem Dev.updGp_clockLost (d : Dev) (n : Fin 8) (f : Modem → Modem) : (d.updGp n f).clockLost = d.clockLost := (rfl)
@[simp] theorem Dev.updGp_img (d : Dev) (n : Fin 8) (f : Modem → Modem) : (d.updGp n f).img = d.img := (rfl)
@[simp] theorem Dev.updGp_que (d : Dev) (n : Fin 8) (f : Modem → Modem) : (d.updGp n f).que = d.que := (rfl)
@[simp] theorem Dev.updGp_tim (d : Dev) (n : Fin 8) (f : Modem → Modem) : (d.updGp n f).tim = d.tim := (rfl)
@[simp] theorem Dev.updGp_mtr (d : Dev) (n : Fin 8) (f : Modem → Modem) : (d.updGp n f).mtr = d.mtr := (rfl)
@[simp] theorem Dev.updGp_bil (d : Dev) (n : Fin 8) (f : Modem → Modem) : (d.updGp n f).bil = d.bil := (rfl)
@[simp] theorem Dev.updGp_kao (d : Dev) (n : Fin 8) (f : Modem → Modem) : (d.updGp n f).kao = d.kao := (rfl)
@[simp] theorem Dev.updGp_lsw (d : Dev) (n : Fin 8) (f : Modem → Modem) : (d.updGp n f).lsw = d.lsw := (rfl)
@[simp] theorem Dev.updGp_plc (d : Dev) (n : Fin 8) (f : Modem → Modem) : (d.updGp n f).plc = d.plc := (rfl)
@[simp] theorem Dev.updGp_key (d : Dev) (n : Fin 8) (f : Modem → Modem) : (d.updGp n f).key = d.key := (rfl)
@[simp] theorem Dev.updGp_tag (d : Dev) (n : Fin 8) (f : Modem → Modem) : (d.updGp n f).tag = d.tag := (rfl)
@[simp] theorem Dev.updGp_pnl (d : Dev) (n : Fin 8) (f : Modem → Modem) : (d.updGp n f).pnl = d.pnl := (rfl)
@[simp] theorem Dev.updGp_sto (d : Dev) (n : Fin 8) (f : Modem → Modem) : (d.updGp n f).sto = d.sto := (rfl)
@[simp] theorem Dev.updGp_aul (d : Dev) (n : Fin 8) (f : Modem → Modem) : (d.updGp n f).aul = d.aul := (rfl)
@[simp] theorem Dev.updGp_pwr (d : Dev) (n : Fin 8) (f : Modem → Modem) : (d.updGp n f).pwr = d.pwr := (rfl)
@[simp] theorem Dev.updGp_fresh (d : Dev) (n : Fin 8) (f : Modem → Modem) : (d.updGp n f).fresh = d.fresh := (rfl)

@[simp] theorem Dev.updKao_regs (d : Dev) (n : Fin 8) (f : KaoSlice → KaoSlice) : (d.updKao n f).regs = d.regs := (rfl)
@[simp] theorem Dev.updKao_staged (d : Dev) (n : Fin 8) (f : KaoSlice → KaoSlice) : (d.updKao n f).staged = d.staged := (rfl)
@[simp] theorem Dev.updKao_views (d : Dev) (n : Fin 8) (f : KaoSlice → KaoSlice) : (d.updKao n f).views = d.views := (rfl)
@[simp] theorem Dev.updKao_flags (d : Dev) (n : Fin 8) (f : KaoSlice → KaoSlice) : (d.updKao n f).flags = d.flags := (rfl)
@[simp] theorem Dev.updKao_coreA1 (d : Dev) (n : Fin 8) (f : KaoSlice → KaoSlice) : (d.updKao n f).coreA1 = d.coreA1 := (rfl)
@[simp] theorem Dev.updKao_reply (d : Dev) (n : Fin 8) (f : KaoSlice → KaoSlice) : (d.updKao n f).reply = d.reply := (rfl)
@[simp] theorem Dev.updKao_coreReply (d : Dev) (n : Fin 8) (f : KaoSlice → KaoSlice) : (d.updKao n f).coreReply = d.coreReply := (rfl)
@[simp] theorem Dev.updKao_replies (d : Dev) (n : Fin 8) (f : KaoSlice → KaoSlice) : (d.updKao n f).replies = d.replies := (rfl)
@[simp] theorem Dev.updKao_busy (d : Dev) (n : Fin 8) (f : KaoSlice → KaoSlice) : (d.updKao n f).busy = d.busy := (rfl)
@[simp] theorem Dev.updKao_hung (d : Dev) (n : Fin 8) (f : KaoSlice → KaoSlice) : (d.updKao n f).hung = d.hung := (rfl)
@[simp] theorem Dev.updKao_resume (d : Dev) (n : Fin 8) (f : KaoSlice → KaoSlice) : (d.updKao n f).resume = d.resume := (rfl)
@[simp] theorem Dev.updKao_permLog (d : Dev) (n : Fin 8) (f : KaoSlice → KaoSlice) : (d.updKao n f).permLog = d.permLog := (rfl)
@[simp] theorem Dev.updKao_cfgLog (d : Dev) (n : Fin 8) (f : KaoSlice → KaoSlice) : (d.updKao n f).cfgLog = d.cfgLog := (rfl)
@[simp] theorem Dev.updKao_log (d : Dev) (n : Fin 8) (f : KaoSlice → KaoSlice) : (d.updKao n f).log = d.log := (rfl)
@[simp] theorem Dev.updKao_logSeq (d : Dev) (n : Fin 8) (f : KaoSlice → KaoSlice) : (d.updKao n f).logSeq = d.logSeq := (rfl)
@[simp] theorem Dev.updKao_islandRun (d : Dev) (n : Fin 8) (f : KaoSlice → KaoSlice) : (d.updKao n f).islandRun = d.islandRun := (rfl)
@[simp] theorem Dev.updKao_clockLost (d : Dev) (n : Fin 8) (f : KaoSlice → KaoSlice) : (d.updKao n f).clockLost = d.clockLost := (rfl)
@[simp] theorem Dev.updKao_img (d : Dev) (n : Fin 8) (f : KaoSlice → KaoSlice) : (d.updKao n f).img = d.img := (rfl)
@[simp] theorem Dev.updKao_que (d : Dev) (n : Fin 8) (f : KaoSlice → KaoSlice) : (d.updKao n f).que = d.que := (rfl)
@[simp] theorem Dev.updKao_tim (d : Dev) (n : Fin 8) (f : KaoSlice → KaoSlice) : (d.updKao n f).tim = d.tim := (rfl)
@[simp] theorem Dev.updKao_mtr (d : Dev) (n : Fin 8) (f : KaoSlice → KaoSlice) : (d.updKao n f).mtr = d.mtr := (rfl)
@[simp] theorem Dev.updKao_bil (d : Dev) (n : Fin 8) (f : KaoSlice → KaoSlice) : (d.updKao n f).bil = d.bil := (rfl)
@[simp] theorem Dev.updKao_evc (d : Dev) (n : Fin 8) (f : KaoSlice → KaoSlice) : (d.updKao n f).evc = d.evc := (rfl)
@[simp] theorem Dev.updKao_lsw (d : Dev) (n : Fin 8) (f : KaoSlice → KaoSlice) : (d.updKao n f).lsw = d.lsw := (rfl)
@[simp] theorem Dev.updKao_plc (d : Dev) (n : Fin 8) (f : KaoSlice → KaoSlice) : (d.updKao n f).plc = d.plc := (rfl)
@[simp] theorem Dev.updKao_key (d : Dev) (n : Fin 8) (f : KaoSlice → KaoSlice) : (d.updKao n f).key = d.key := (rfl)
@[simp] theorem Dev.updKao_tag (d : Dev) (n : Fin 8) (f : KaoSlice → KaoSlice) : (d.updKao n f).tag = d.tag := (rfl)
@[simp] theorem Dev.updKao_pnl (d : Dev) (n : Fin 8) (f : KaoSlice → KaoSlice) : (d.updKao n f).pnl = d.pnl := (rfl)
@[simp] theorem Dev.updKao_sto (d : Dev) (n : Fin 8) (f : KaoSlice → KaoSlice) : (d.updKao n f).sto = d.sto := (rfl)
@[simp] theorem Dev.updKao_aul (d : Dev) (n : Fin 8) (f : KaoSlice → KaoSlice) : (d.updKao n f).aul = d.aul := (rfl)
@[simp] theorem Dev.updKao_pwr (d : Dev) (n : Fin 8) (f : KaoSlice → KaoSlice) : (d.updKao n f).pwr = d.pwr := (rfl)
@[simp] theorem Dev.updKao_fresh (d : Dev) (n : Fin 8) (f : KaoSlice → KaoSlice) : (d.updKao n f).fresh = d.fresh := (rfl)

@[simp] theorem Dev.modKao_regs (d : Dev) (f : KaoState → KaoState) : (d.modKao f).regs = d.regs := (rfl)
@[simp] theorem Dev.modKao_staged (d : Dev) (f : KaoState → KaoState) : (d.modKao f).staged = d.staged := (rfl)
@[simp] theorem Dev.modKao_views (d : Dev) (f : KaoState → KaoState) : (d.modKao f).views = d.views := (rfl)
@[simp] theorem Dev.modKao_flags (d : Dev) (f : KaoState → KaoState) : (d.modKao f).flags = d.flags := (rfl)
@[simp] theorem Dev.modKao_coreA1 (d : Dev) (f : KaoState → KaoState) : (d.modKao f).coreA1 = d.coreA1 := (rfl)
@[simp] theorem Dev.modKao_reply (d : Dev) (f : KaoState → KaoState) : (d.modKao f).reply = d.reply := (rfl)
@[simp] theorem Dev.modKao_coreReply (d : Dev) (f : KaoState → KaoState) : (d.modKao f).coreReply = d.coreReply := (rfl)
@[simp] theorem Dev.modKao_replies (d : Dev) (f : KaoState → KaoState) : (d.modKao f).replies = d.replies := (rfl)
@[simp] theorem Dev.modKao_busy (d : Dev) (f : KaoState → KaoState) : (d.modKao f).busy = d.busy := (rfl)
@[simp] theorem Dev.modKao_hung (d : Dev) (f : KaoState → KaoState) : (d.modKao f).hung = d.hung := (rfl)
@[simp] theorem Dev.modKao_resume (d : Dev) (f : KaoState → KaoState) : (d.modKao f).resume = d.resume := (rfl)
@[simp] theorem Dev.modKao_permLog (d : Dev) (f : KaoState → KaoState) : (d.modKao f).permLog = d.permLog := (rfl)
@[simp] theorem Dev.modKao_cfgLog (d : Dev) (f : KaoState → KaoState) : (d.modKao f).cfgLog = d.cfgLog := (rfl)
@[simp] theorem Dev.modKao_log (d : Dev) (f : KaoState → KaoState) : (d.modKao f).log = d.log := (rfl)
@[simp] theorem Dev.modKao_logSeq (d : Dev) (f : KaoState → KaoState) : (d.modKao f).logSeq = d.logSeq := (rfl)
@[simp] theorem Dev.modKao_islandRun (d : Dev) (f : KaoState → KaoState) : (d.modKao f).islandRun = d.islandRun := (rfl)
@[simp] theorem Dev.modKao_clockLost (d : Dev) (f : KaoState → KaoState) : (d.modKao f).clockLost = d.clockLost := (rfl)
@[simp] theorem Dev.modKao_img (d : Dev) (f : KaoState → KaoState) : (d.modKao f).img = d.img := (rfl)
@[simp] theorem Dev.modKao_que (d : Dev) (f : KaoState → KaoState) : (d.modKao f).que = d.que := (rfl)
@[simp] theorem Dev.modKao_tim (d : Dev) (f : KaoState → KaoState) : (d.modKao f).tim = d.tim := (rfl)
@[simp] theorem Dev.modKao_mtr (d : Dev) (f : KaoState → KaoState) : (d.modKao f).mtr = d.mtr := (rfl)
@[simp] theorem Dev.modKao_bil (d : Dev) (f : KaoState → KaoState) : (d.modKao f).bil = d.bil := (rfl)
@[simp] theorem Dev.modKao_evc (d : Dev) (f : KaoState → KaoState) : (d.modKao f).evc = d.evc := (rfl)
@[simp] theorem Dev.modKao_lsw (d : Dev) (f : KaoState → KaoState) : (d.modKao f).lsw = d.lsw := (rfl)
@[simp] theorem Dev.modKao_plc (d : Dev) (f : KaoState → KaoState) : (d.modKao f).plc = d.plc := (rfl)
@[simp] theorem Dev.modKao_key (d : Dev) (f : KaoState → KaoState) : (d.modKao f).key = d.key := (rfl)
@[simp] theorem Dev.modKao_tag (d : Dev) (f : KaoState → KaoState) : (d.modKao f).tag = d.tag := (rfl)
@[simp] theorem Dev.modKao_pnl (d : Dev) (f : KaoState → KaoState) : (d.modKao f).pnl = d.pnl := (rfl)
@[simp] theorem Dev.modKao_sto (d : Dev) (f : KaoState → KaoState) : (d.modKao f).sto = d.sto := (rfl)
@[simp] theorem Dev.modKao_aul (d : Dev) (f : KaoState → KaoState) : (d.modKao f).aul = d.aul := (rfl)
@[simp] theorem Dev.modKao_pwr (d : Dev) (f : KaoState → KaoState) : (d.modKao f).pwr = d.pwr := (rfl)
@[simp] theorem Dev.modKao_fresh (d : Dev) (f : KaoState → KaoState) : (d.modKao f).fresh = d.fresh := (rfl)

@[simp] theorem Dev.updLsw_regs (d : Dev) (c : Fin 16) (f : LswChan → LswChan) : (d.updLsw c f).regs = d.regs := (rfl)
@[simp] theorem Dev.updLsw_staged (d : Dev) (c : Fin 16) (f : LswChan → LswChan) : (d.updLsw c f).staged = d.staged := (rfl)
@[simp] theorem Dev.updLsw_views (d : Dev) (c : Fin 16) (f : LswChan → LswChan) : (d.updLsw c f).views = d.views := (rfl)
@[simp] theorem Dev.updLsw_flags (d : Dev) (c : Fin 16) (f : LswChan → LswChan) : (d.updLsw c f).flags = d.flags := (rfl)
@[simp] theorem Dev.updLsw_coreA1 (d : Dev) (c : Fin 16) (f : LswChan → LswChan) : (d.updLsw c f).coreA1 = d.coreA1 := (rfl)
@[simp] theorem Dev.updLsw_reply (d : Dev) (c : Fin 16) (f : LswChan → LswChan) : (d.updLsw c f).reply = d.reply := (rfl)
@[simp] theorem Dev.updLsw_coreReply (d : Dev) (c : Fin 16) (f : LswChan → LswChan) : (d.updLsw c f).coreReply = d.coreReply := (rfl)
@[simp] theorem Dev.updLsw_replies (d : Dev) (c : Fin 16) (f : LswChan → LswChan) : (d.updLsw c f).replies = d.replies := (rfl)
@[simp] theorem Dev.updLsw_busy (d : Dev) (c : Fin 16) (f : LswChan → LswChan) : (d.updLsw c f).busy = d.busy := (rfl)
@[simp] theorem Dev.updLsw_hung (d : Dev) (c : Fin 16) (f : LswChan → LswChan) : (d.updLsw c f).hung = d.hung := (rfl)
@[simp] theorem Dev.updLsw_resume (d : Dev) (c : Fin 16) (f : LswChan → LswChan) : (d.updLsw c f).resume = d.resume := (rfl)
@[simp] theorem Dev.updLsw_permLog (d : Dev) (c : Fin 16) (f : LswChan → LswChan) : (d.updLsw c f).permLog = d.permLog := (rfl)
@[simp] theorem Dev.updLsw_cfgLog (d : Dev) (c : Fin 16) (f : LswChan → LswChan) : (d.updLsw c f).cfgLog = d.cfgLog := (rfl)
@[simp] theorem Dev.updLsw_log (d : Dev) (c : Fin 16) (f : LswChan → LswChan) : (d.updLsw c f).log = d.log := (rfl)
@[simp] theorem Dev.updLsw_logSeq (d : Dev) (c : Fin 16) (f : LswChan → LswChan) : (d.updLsw c f).logSeq = d.logSeq := (rfl)
@[simp] theorem Dev.updLsw_islandRun (d : Dev) (c : Fin 16) (f : LswChan → LswChan) : (d.updLsw c f).islandRun = d.islandRun := (rfl)
@[simp] theorem Dev.updLsw_clockLost (d : Dev) (c : Fin 16) (f : LswChan → LswChan) : (d.updLsw c f).clockLost = d.clockLost := (rfl)
@[simp] theorem Dev.updLsw_img (d : Dev) (c : Fin 16) (f : LswChan → LswChan) : (d.updLsw c f).img = d.img := (rfl)
@[simp] theorem Dev.updLsw_que (d : Dev) (c : Fin 16) (f : LswChan → LswChan) : (d.updLsw c f).que = d.que := (rfl)
@[simp] theorem Dev.updLsw_tim (d : Dev) (c : Fin 16) (f : LswChan → LswChan) : (d.updLsw c f).tim = d.tim := (rfl)
@[simp] theorem Dev.updLsw_mtr (d : Dev) (c : Fin 16) (f : LswChan → LswChan) : (d.updLsw c f).mtr = d.mtr := (rfl)
@[simp] theorem Dev.updLsw_bil (d : Dev) (c : Fin 16) (f : LswChan → LswChan) : (d.updLsw c f).bil = d.bil := (rfl)
@[simp] theorem Dev.updLsw_evc (d : Dev) (c : Fin 16) (f : LswChan → LswChan) : (d.updLsw c f).evc = d.evc := (rfl)
@[simp] theorem Dev.updLsw_kao (d : Dev) (c : Fin 16) (f : LswChan → LswChan) : (d.updLsw c f).kao = d.kao := (rfl)
@[simp] theorem Dev.updLsw_plc (d : Dev) (c : Fin 16) (f : LswChan → LswChan) : (d.updLsw c f).plc = d.plc := (rfl)
@[simp] theorem Dev.updLsw_key (d : Dev) (c : Fin 16) (f : LswChan → LswChan) : (d.updLsw c f).key = d.key := (rfl)
@[simp] theorem Dev.updLsw_tag (d : Dev) (c : Fin 16) (f : LswChan → LswChan) : (d.updLsw c f).tag = d.tag := (rfl)
@[simp] theorem Dev.updLsw_pnl (d : Dev) (c : Fin 16) (f : LswChan → LswChan) : (d.updLsw c f).pnl = d.pnl := (rfl)
@[simp] theorem Dev.updLsw_sto (d : Dev) (c : Fin 16) (f : LswChan → LswChan) : (d.updLsw c f).sto = d.sto := (rfl)
@[simp] theorem Dev.updLsw_aul (d : Dev) (c : Fin 16) (f : LswChan → LswChan) : (d.updLsw c f).aul = d.aul := (rfl)
@[simp] theorem Dev.updLsw_pwr (d : Dev) (c : Fin 16) (f : LswChan → LswChan) : (d.updLsw c f).pwr = d.pwr := (rfl)
@[simp] theorem Dev.updLsw_fresh (d : Dev) (c : Fin 16) (f : LswChan → LswChan) : (d.updLsw c f).fresh = d.fresh := (rfl)

@[simp] theorem Dev.updEng_regs (d : Dev) (u : Fin 9) (f : Engine → Engine) : (d.updEng u f).regs = d.regs := (rfl)
@[simp] theorem Dev.updEng_staged (d : Dev) (u : Fin 9) (f : Engine → Engine) : (d.updEng u f).staged = d.staged := (rfl)
@[simp] theorem Dev.updEng_views (d : Dev) (u : Fin 9) (f : Engine → Engine) : (d.updEng u f).views = d.views := (rfl)
@[simp] theorem Dev.updEng_flags (d : Dev) (u : Fin 9) (f : Engine → Engine) : (d.updEng u f).flags = d.flags := (rfl)
@[simp] theorem Dev.updEng_coreA1 (d : Dev) (u : Fin 9) (f : Engine → Engine) : (d.updEng u f).coreA1 = d.coreA1 := (rfl)
@[simp] theorem Dev.updEng_reply (d : Dev) (u : Fin 9) (f : Engine → Engine) : (d.updEng u f).reply = d.reply := (rfl)
@[simp] theorem Dev.updEng_coreReply (d : Dev) (u : Fin 9) (f : Engine → Engine) : (d.updEng u f).coreReply = d.coreReply := (rfl)
@[simp] theorem Dev.updEng_replies (d : Dev) (u : Fin 9) (f : Engine → Engine) : (d.updEng u f).replies = d.replies := (rfl)
@[simp] theorem Dev.updEng_busy (d : Dev) (u : Fin 9) (f : Engine → Engine) : (d.updEng u f).busy = d.busy := (rfl)
@[simp] theorem Dev.updEng_hung (d : Dev) (u : Fin 9) (f : Engine → Engine) : (d.updEng u f).hung = d.hung := (rfl)
@[simp] theorem Dev.updEng_resume (d : Dev) (u : Fin 9) (f : Engine → Engine) : (d.updEng u f).resume = d.resume := (rfl)
@[simp] theorem Dev.updEng_permLog (d : Dev) (u : Fin 9) (f : Engine → Engine) : (d.updEng u f).permLog = d.permLog := (rfl)
@[simp] theorem Dev.updEng_cfgLog (d : Dev) (u : Fin 9) (f : Engine → Engine) : (d.updEng u f).cfgLog = d.cfgLog := (rfl)
@[simp] theorem Dev.updEng_log (d : Dev) (u : Fin 9) (f : Engine → Engine) : (d.updEng u f).log = d.log := (rfl)
@[simp] theorem Dev.updEng_logSeq (d : Dev) (u : Fin 9) (f : Engine → Engine) : (d.updEng u f).logSeq = d.logSeq := (rfl)
@[simp] theorem Dev.updEng_islandRun (d : Dev) (u : Fin 9) (f : Engine → Engine) : (d.updEng u f).islandRun = d.islandRun := (rfl)
@[simp] theorem Dev.updEng_clockLost (d : Dev) (u : Fin 9) (f : Engine → Engine) : (d.updEng u f).clockLost = d.clockLost := (rfl)
@[simp] theorem Dev.updEng_img (d : Dev) (u : Fin 9) (f : Engine → Engine) : (d.updEng u f).img = d.img := (rfl)
@[simp] theorem Dev.updEng_que (d : Dev) (u : Fin 9) (f : Engine → Engine) : (d.updEng u f).que = d.que := (rfl)
@[simp] theorem Dev.updEng_tim (d : Dev) (u : Fin 9) (f : Engine → Engine) : (d.updEng u f).tim = d.tim := (rfl)
@[simp] theorem Dev.updEng_bil (d : Dev) (u : Fin 9) (f : Engine → Engine) : (d.updEng u f).bil = d.bil := (rfl)
@[simp] theorem Dev.updEng_evc (d : Dev) (u : Fin 9) (f : Engine → Engine) : (d.updEng u f).evc = d.evc := (rfl)
@[simp] theorem Dev.updEng_kao (d : Dev) (u : Fin 9) (f : Engine → Engine) : (d.updEng u f).kao = d.kao := (rfl)
@[simp] theorem Dev.updEng_lsw (d : Dev) (u : Fin 9) (f : Engine → Engine) : (d.updEng u f).lsw = d.lsw := (rfl)
@[simp] theorem Dev.updEng_plc (d : Dev) (u : Fin 9) (f : Engine → Engine) : (d.updEng u f).plc = d.plc := (rfl)
@[simp] theorem Dev.updEng_key (d : Dev) (u : Fin 9) (f : Engine → Engine) : (d.updEng u f).key = d.key := (rfl)
@[simp] theorem Dev.updEng_tag (d : Dev) (u : Fin 9) (f : Engine → Engine) : (d.updEng u f).tag = d.tag := (rfl)
@[simp] theorem Dev.updEng_pnl (d : Dev) (u : Fin 9) (f : Engine → Engine) : (d.updEng u f).pnl = d.pnl := (rfl)
@[simp] theorem Dev.updEng_sto (d : Dev) (u : Fin 9) (f : Engine → Engine) : (d.updEng u f).sto = d.sto := (rfl)
@[simp] theorem Dev.updEng_aul (d : Dev) (u : Fin 9) (f : Engine → Engine) : (d.updEng u f).aul = d.aul := (rfl)
@[simp] theorem Dev.updEng_pwr (d : Dev) (u : Fin 9) (f : Engine → Engine) : (d.updEng u f).pwr = d.pwr := (rfl)
@[simp] theorem Dev.updEng_fresh (d : Dev) (u : Fin 9) (f : Engine → Engine) : (d.updEng u f).fresh = d.fresh := (rfl)

@[simp] theorem Dev.updCh_regs (d : Dev) (c : Fin 64) (f : Chan → Chan) : (d.updCh c f).regs = d.regs := (rfl)
@[simp] theorem Dev.updCh_staged (d : Dev) (c : Fin 64) (f : Chan → Chan) : (d.updCh c f).staged = d.staged := (rfl)
@[simp] theorem Dev.updCh_views (d : Dev) (c : Fin 64) (f : Chan → Chan) : (d.updCh c f).views = d.views := (rfl)
@[simp] theorem Dev.updCh_flags (d : Dev) (c : Fin 64) (f : Chan → Chan) : (d.updCh c f).flags = d.flags := (rfl)
@[simp] theorem Dev.updCh_coreA1 (d : Dev) (c : Fin 64) (f : Chan → Chan) : (d.updCh c f).coreA1 = d.coreA1 := (rfl)
@[simp] theorem Dev.updCh_reply (d : Dev) (c : Fin 64) (f : Chan → Chan) : (d.updCh c f).reply = d.reply := (rfl)
@[simp] theorem Dev.updCh_coreReply (d : Dev) (c : Fin 64) (f : Chan → Chan) : (d.updCh c f).coreReply = d.coreReply := (rfl)
@[simp] theorem Dev.updCh_replies (d : Dev) (c : Fin 64) (f : Chan → Chan) : (d.updCh c f).replies = d.replies := (rfl)
@[simp] theorem Dev.updCh_busy (d : Dev) (c : Fin 64) (f : Chan → Chan) : (d.updCh c f).busy = d.busy := (rfl)
@[simp] theorem Dev.updCh_hung (d : Dev) (c : Fin 64) (f : Chan → Chan) : (d.updCh c f).hung = d.hung := (rfl)
@[simp] theorem Dev.updCh_resume (d : Dev) (c : Fin 64) (f : Chan → Chan) : (d.updCh c f).resume = d.resume := (rfl)
@[simp] theorem Dev.updCh_permLog (d : Dev) (c : Fin 64) (f : Chan → Chan) : (d.updCh c f).permLog = d.permLog := (rfl)
@[simp] theorem Dev.updCh_cfgLog (d : Dev) (c : Fin 64) (f : Chan → Chan) : (d.updCh c f).cfgLog = d.cfgLog := (rfl)
@[simp] theorem Dev.updCh_log (d : Dev) (c : Fin 64) (f : Chan → Chan) : (d.updCh c f).log = d.log := (rfl)
@[simp] theorem Dev.updCh_logSeq (d : Dev) (c : Fin 64) (f : Chan → Chan) : (d.updCh c f).logSeq = d.logSeq := (rfl)
@[simp] theorem Dev.updCh_islandRun (d : Dev) (c : Fin 64) (f : Chan → Chan) : (d.updCh c f).islandRun = d.islandRun := (rfl)
@[simp] theorem Dev.updCh_clockLost (d : Dev) (c : Fin 64) (f : Chan → Chan) : (d.updCh c f).clockLost = d.clockLost := (rfl)
@[simp] theorem Dev.updCh_img (d : Dev) (c : Fin 64) (f : Chan → Chan) : (d.updCh c f).img = d.img := (rfl)
@[simp] theorem Dev.updCh_que (d : Dev) (c : Fin 64) (f : Chan → Chan) : (d.updCh c f).que = d.que := (rfl)
@[simp] theorem Dev.updCh_tim (d : Dev) (c : Fin 64) (f : Chan → Chan) : (d.updCh c f).tim = d.tim := (rfl)
@[simp] theorem Dev.updCh_bil (d : Dev) (c : Fin 64) (f : Chan → Chan) : (d.updCh c f).bil = d.bil := (rfl)
@[simp] theorem Dev.updCh_evc (d : Dev) (c : Fin 64) (f : Chan → Chan) : (d.updCh c f).evc = d.evc := (rfl)
@[simp] theorem Dev.updCh_kao (d : Dev) (c : Fin 64) (f : Chan → Chan) : (d.updCh c f).kao = d.kao := (rfl)
@[simp] theorem Dev.updCh_lsw (d : Dev) (c : Fin 64) (f : Chan → Chan) : (d.updCh c f).lsw = d.lsw := (rfl)
@[simp] theorem Dev.updCh_plc (d : Dev) (c : Fin 64) (f : Chan → Chan) : (d.updCh c f).plc = d.plc := (rfl)
@[simp] theorem Dev.updCh_key (d : Dev) (c : Fin 64) (f : Chan → Chan) : (d.updCh c f).key = d.key := (rfl)
@[simp] theorem Dev.updCh_tag (d : Dev) (c : Fin 64) (f : Chan → Chan) : (d.updCh c f).tag = d.tag := (rfl)
@[simp] theorem Dev.updCh_pnl (d : Dev) (c : Fin 64) (f : Chan → Chan) : (d.updCh c f).pnl = d.pnl := (rfl)
@[simp] theorem Dev.updCh_sto (d : Dev) (c : Fin 64) (f : Chan → Chan) : (d.updCh c f).sto = d.sto := (rfl)
@[simp] theorem Dev.updCh_aul (d : Dev) (c : Fin 64) (f : Chan → Chan) : (d.updCh c f).aul = d.aul := (rfl)
@[simp] theorem Dev.updCh_pwr (d : Dev) (c : Fin 64) (f : Chan → Chan) : (d.updCh c f).pwr = d.pwr := (rfl)
@[simp] theorem Dev.updCh_fresh (d : Dev) (c : Fin 64) (f : Chan → Chan) : (d.updCh c f).fresh = d.fresh := (rfl)

@[simp] theorem Dev.updPulse_regs (d : Dev) (p : Fin 4) (f : Pulse → Pulse) : (d.updPulse p f).regs = d.regs := (rfl)
@[simp] theorem Dev.updPulse_staged (d : Dev) (p : Fin 4) (f : Pulse → Pulse) : (d.updPulse p f).staged = d.staged := (rfl)
@[simp] theorem Dev.updPulse_views (d : Dev) (p : Fin 4) (f : Pulse → Pulse) : (d.updPulse p f).views = d.views := (rfl)
@[simp] theorem Dev.updPulse_flags (d : Dev) (p : Fin 4) (f : Pulse → Pulse) : (d.updPulse p f).flags = d.flags := (rfl)
@[simp] theorem Dev.updPulse_coreA1 (d : Dev) (p : Fin 4) (f : Pulse → Pulse) : (d.updPulse p f).coreA1 = d.coreA1 := (rfl)
@[simp] theorem Dev.updPulse_reply (d : Dev) (p : Fin 4) (f : Pulse → Pulse) : (d.updPulse p f).reply = d.reply := (rfl)
@[simp] theorem Dev.updPulse_coreReply (d : Dev) (p : Fin 4) (f : Pulse → Pulse) : (d.updPulse p f).coreReply = d.coreReply := (rfl)
@[simp] theorem Dev.updPulse_replies (d : Dev) (p : Fin 4) (f : Pulse → Pulse) : (d.updPulse p f).replies = d.replies := (rfl)
@[simp] theorem Dev.updPulse_busy (d : Dev) (p : Fin 4) (f : Pulse → Pulse) : (d.updPulse p f).busy = d.busy := (rfl)
@[simp] theorem Dev.updPulse_hung (d : Dev) (p : Fin 4) (f : Pulse → Pulse) : (d.updPulse p f).hung = d.hung := (rfl)
@[simp] theorem Dev.updPulse_resume (d : Dev) (p : Fin 4) (f : Pulse → Pulse) : (d.updPulse p f).resume = d.resume := (rfl)
@[simp] theorem Dev.updPulse_permLog (d : Dev) (p : Fin 4) (f : Pulse → Pulse) : (d.updPulse p f).permLog = d.permLog := (rfl)
@[simp] theorem Dev.updPulse_cfgLog (d : Dev) (p : Fin 4) (f : Pulse → Pulse) : (d.updPulse p f).cfgLog = d.cfgLog := (rfl)
@[simp] theorem Dev.updPulse_log (d : Dev) (p : Fin 4) (f : Pulse → Pulse) : (d.updPulse p f).log = d.log := (rfl)
@[simp] theorem Dev.updPulse_logSeq (d : Dev) (p : Fin 4) (f : Pulse → Pulse) : (d.updPulse p f).logSeq = d.logSeq := (rfl)
@[simp] theorem Dev.updPulse_islandRun (d : Dev) (p : Fin 4) (f : Pulse → Pulse) : (d.updPulse p f).islandRun = d.islandRun := (rfl)
@[simp] theorem Dev.updPulse_clockLost (d : Dev) (p : Fin 4) (f : Pulse → Pulse) : (d.updPulse p f).clockLost = d.clockLost := (rfl)
@[simp] theorem Dev.updPulse_img (d : Dev) (p : Fin 4) (f : Pulse → Pulse) : (d.updPulse p f).img = d.img := (rfl)
@[simp] theorem Dev.updPulse_que (d : Dev) (p : Fin 4) (f : Pulse → Pulse) : (d.updPulse p f).que = d.que := (rfl)
@[simp] theorem Dev.updPulse_tim (d : Dev) (p : Fin 4) (f : Pulse → Pulse) : (d.updPulse p f).tim = d.tim := (rfl)
@[simp] theorem Dev.updPulse_bil (d : Dev) (p : Fin 4) (f : Pulse → Pulse) : (d.updPulse p f).bil = d.bil := (rfl)
@[simp] theorem Dev.updPulse_evc (d : Dev) (p : Fin 4) (f : Pulse → Pulse) : (d.updPulse p f).evc = d.evc := (rfl)
@[simp] theorem Dev.updPulse_kao (d : Dev) (p : Fin 4) (f : Pulse → Pulse) : (d.updPulse p f).kao = d.kao := (rfl)
@[simp] theorem Dev.updPulse_lsw (d : Dev) (p : Fin 4) (f : Pulse → Pulse) : (d.updPulse p f).lsw = d.lsw := (rfl)
@[simp] theorem Dev.updPulse_plc (d : Dev) (p : Fin 4) (f : Pulse → Pulse) : (d.updPulse p f).plc = d.plc := (rfl)
@[simp] theorem Dev.updPulse_key (d : Dev) (p : Fin 4) (f : Pulse → Pulse) : (d.updPulse p f).key = d.key := (rfl)
@[simp] theorem Dev.updPulse_tag (d : Dev) (p : Fin 4) (f : Pulse → Pulse) : (d.updPulse p f).tag = d.tag := (rfl)
@[simp] theorem Dev.updPulse_pnl (d : Dev) (p : Fin 4) (f : Pulse → Pulse) : (d.updPulse p f).pnl = d.pnl := (rfl)
@[simp] theorem Dev.updPulse_sto (d : Dev) (p : Fin 4) (f : Pulse → Pulse) : (d.updPulse p f).sto = d.sto := (rfl)
@[simp] theorem Dev.updPulse_aul (d : Dev) (p : Fin 4) (f : Pulse → Pulse) : (d.updPulse p f).aul = d.aul := (rfl)
@[simp] theorem Dev.updPulse_pwr (d : Dev) (p : Fin 4) (f : Pulse → Pulse) : (d.updPulse p f).pwr = d.pwr := (rfl)
@[simp] theorem Dev.updPulse_fresh (d : Dev) (p : Fin 4) (f : Pulse → Pulse) : (d.updPulse p f).fresh = d.fresh := (rfl)

@[simp] theorem Dev.updBil_regs (d : Dev) (n : Fin 8) (f : BilSlice → BilSlice) : (d.updBil n f).regs = d.regs := (rfl)
@[simp] theorem Dev.updBil_staged (d : Dev) (n : Fin 8) (f : BilSlice → BilSlice) : (d.updBil n f).staged = d.staged := (rfl)
@[simp] theorem Dev.updBil_views (d : Dev) (n : Fin 8) (f : BilSlice → BilSlice) : (d.updBil n f).views = d.views := (rfl)
@[simp] theorem Dev.updBil_flags (d : Dev) (n : Fin 8) (f : BilSlice → BilSlice) : (d.updBil n f).flags = d.flags := (rfl)
@[simp] theorem Dev.updBil_coreA1 (d : Dev) (n : Fin 8) (f : BilSlice → BilSlice) : (d.updBil n f).coreA1 = d.coreA1 := (rfl)
@[simp] theorem Dev.updBil_reply (d : Dev) (n : Fin 8) (f : BilSlice → BilSlice) : (d.updBil n f).reply = d.reply := (rfl)
@[simp] theorem Dev.updBil_coreReply (d : Dev) (n : Fin 8) (f : BilSlice → BilSlice) : (d.updBil n f).coreReply = d.coreReply := (rfl)
@[simp] theorem Dev.updBil_replies (d : Dev) (n : Fin 8) (f : BilSlice → BilSlice) : (d.updBil n f).replies = d.replies := (rfl)
@[simp] theorem Dev.updBil_busy (d : Dev) (n : Fin 8) (f : BilSlice → BilSlice) : (d.updBil n f).busy = d.busy := (rfl)
@[simp] theorem Dev.updBil_hung (d : Dev) (n : Fin 8) (f : BilSlice → BilSlice) : (d.updBil n f).hung = d.hung := (rfl)
@[simp] theorem Dev.updBil_resume (d : Dev) (n : Fin 8) (f : BilSlice → BilSlice) : (d.updBil n f).resume = d.resume := (rfl)
@[simp] theorem Dev.updBil_permLog (d : Dev) (n : Fin 8) (f : BilSlice → BilSlice) : (d.updBil n f).permLog = d.permLog := (rfl)
@[simp] theorem Dev.updBil_cfgLog (d : Dev) (n : Fin 8) (f : BilSlice → BilSlice) : (d.updBil n f).cfgLog = d.cfgLog := (rfl)
@[simp] theorem Dev.updBil_log (d : Dev) (n : Fin 8) (f : BilSlice → BilSlice) : (d.updBil n f).log = d.log := (rfl)
@[simp] theorem Dev.updBil_logSeq (d : Dev) (n : Fin 8) (f : BilSlice → BilSlice) : (d.updBil n f).logSeq = d.logSeq := (rfl)
@[simp] theorem Dev.updBil_islandRun (d : Dev) (n : Fin 8) (f : BilSlice → BilSlice) : (d.updBil n f).islandRun = d.islandRun := (rfl)
@[simp] theorem Dev.updBil_clockLost (d : Dev) (n : Fin 8) (f : BilSlice → BilSlice) : (d.updBil n f).clockLost = d.clockLost := (rfl)
@[simp] theorem Dev.updBil_img (d : Dev) (n : Fin 8) (f : BilSlice → BilSlice) : (d.updBil n f).img = d.img := (rfl)
@[simp] theorem Dev.updBil_que (d : Dev) (n : Fin 8) (f : BilSlice → BilSlice) : (d.updBil n f).que = d.que := (rfl)
@[simp] theorem Dev.updBil_tim (d : Dev) (n : Fin 8) (f : BilSlice → BilSlice) : (d.updBil n f).tim = d.tim := (rfl)
@[simp] theorem Dev.updBil_mtr (d : Dev) (n : Fin 8) (f : BilSlice → BilSlice) : (d.updBil n f).mtr = d.mtr := (rfl)
@[simp] theorem Dev.updBil_evc (d : Dev) (n : Fin 8) (f : BilSlice → BilSlice) : (d.updBil n f).evc = d.evc := (rfl)
@[simp] theorem Dev.updBil_kao (d : Dev) (n : Fin 8) (f : BilSlice → BilSlice) : (d.updBil n f).kao = d.kao := (rfl)
@[simp] theorem Dev.updBil_lsw (d : Dev) (n : Fin 8) (f : BilSlice → BilSlice) : (d.updBil n f).lsw = d.lsw := (rfl)
@[simp] theorem Dev.updBil_plc (d : Dev) (n : Fin 8) (f : BilSlice → BilSlice) : (d.updBil n f).plc = d.plc := (rfl)
@[simp] theorem Dev.updBil_key (d : Dev) (n : Fin 8) (f : BilSlice → BilSlice) : (d.updBil n f).key = d.key := (rfl)
@[simp] theorem Dev.updBil_tag (d : Dev) (n : Fin 8) (f : BilSlice → BilSlice) : (d.updBil n f).tag = d.tag := (rfl)
@[simp] theorem Dev.updBil_pnl (d : Dev) (n : Fin 8) (f : BilSlice → BilSlice) : (d.updBil n f).pnl = d.pnl := (rfl)
@[simp] theorem Dev.updBil_sto (d : Dev) (n : Fin 8) (f : BilSlice → BilSlice) : (d.updBil n f).sto = d.sto := (rfl)
@[simp] theorem Dev.updBil_aul (d : Dev) (n : Fin 8) (f : BilSlice → BilSlice) : (d.updBil n f).aul = d.aul := (rfl)
@[simp] theorem Dev.updBil_pwr (d : Dev) (n : Fin 8) (f : BilSlice → BilSlice) : (d.updBil n f).pwr = d.pwr := (rfl)
@[simp] theorem Dev.updBil_fresh (d : Dev) (n : Fin 8) (f : BilSlice → BilSlice) : (d.updBil n f).fresh = d.fresh := (rfl)

@[simp] theorem Dev.updQ_regs (d : Dev) (q : Fin 64) (f : Queue → Queue) : (d.updQ q f).regs = d.regs := (rfl)
@[simp] theorem Dev.updQ_staged (d : Dev) (q : Fin 64) (f : Queue → Queue) : (d.updQ q f).staged = d.staged := (rfl)
@[simp] theorem Dev.updQ_views (d : Dev) (q : Fin 64) (f : Queue → Queue) : (d.updQ q f).views = d.views := (rfl)
@[simp] theorem Dev.updQ_flags (d : Dev) (q : Fin 64) (f : Queue → Queue) : (d.updQ q f).flags = d.flags := (rfl)
@[simp] theorem Dev.updQ_coreA1 (d : Dev) (q : Fin 64) (f : Queue → Queue) : (d.updQ q f).coreA1 = d.coreA1 := (rfl)
@[simp] theorem Dev.updQ_reply (d : Dev) (q : Fin 64) (f : Queue → Queue) : (d.updQ q f).reply = d.reply := (rfl)
@[simp] theorem Dev.updQ_coreReply (d : Dev) (q : Fin 64) (f : Queue → Queue) : (d.updQ q f).coreReply = d.coreReply := (rfl)
@[simp] theorem Dev.updQ_replies (d : Dev) (q : Fin 64) (f : Queue → Queue) : (d.updQ q f).replies = d.replies := (rfl)
@[simp] theorem Dev.updQ_busy (d : Dev) (q : Fin 64) (f : Queue → Queue) : (d.updQ q f).busy = d.busy := (rfl)
@[simp] theorem Dev.updQ_hung (d : Dev) (q : Fin 64) (f : Queue → Queue) : (d.updQ q f).hung = d.hung := (rfl)
@[simp] theorem Dev.updQ_resume (d : Dev) (q : Fin 64) (f : Queue → Queue) : (d.updQ q f).resume = d.resume := (rfl)
@[simp] theorem Dev.updQ_permLog (d : Dev) (q : Fin 64) (f : Queue → Queue) : (d.updQ q f).permLog = d.permLog := (rfl)
@[simp] theorem Dev.updQ_cfgLog (d : Dev) (q : Fin 64) (f : Queue → Queue) : (d.updQ q f).cfgLog = d.cfgLog := (rfl)
@[simp] theorem Dev.updQ_log (d : Dev) (q : Fin 64) (f : Queue → Queue) : (d.updQ q f).log = d.log := (rfl)
@[simp] theorem Dev.updQ_logSeq (d : Dev) (q : Fin 64) (f : Queue → Queue) : (d.updQ q f).logSeq = d.logSeq := (rfl)
@[simp] theorem Dev.updQ_islandRun (d : Dev) (q : Fin 64) (f : Queue → Queue) : (d.updQ q f).islandRun = d.islandRun := (rfl)
@[simp] theorem Dev.updQ_clockLost (d : Dev) (q : Fin 64) (f : Queue → Queue) : (d.updQ q f).clockLost = d.clockLost := (rfl)
@[simp] theorem Dev.updQ_img (d : Dev) (q : Fin 64) (f : Queue → Queue) : (d.updQ q f).img = d.img := (rfl)
@[simp] theorem Dev.updQ_tim (d : Dev) (q : Fin 64) (f : Queue → Queue) : (d.updQ q f).tim = d.tim := (rfl)
@[simp] theorem Dev.updQ_mtr (d : Dev) (q : Fin 64) (f : Queue → Queue) : (d.updQ q f).mtr = d.mtr := (rfl)
@[simp] theorem Dev.updQ_bil (d : Dev) (q : Fin 64) (f : Queue → Queue) : (d.updQ q f).bil = d.bil := (rfl)
@[simp] theorem Dev.updQ_evc (d : Dev) (q : Fin 64) (f : Queue → Queue) : (d.updQ q f).evc = d.evc := (rfl)
@[simp] theorem Dev.updQ_kao (d : Dev) (q : Fin 64) (f : Queue → Queue) : (d.updQ q f).kao = d.kao := (rfl)
@[simp] theorem Dev.updQ_lsw (d : Dev) (q : Fin 64) (f : Queue → Queue) : (d.updQ q f).lsw = d.lsw := (rfl)
@[simp] theorem Dev.updQ_plc (d : Dev) (q : Fin 64) (f : Queue → Queue) : (d.updQ q f).plc = d.plc := (rfl)
@[simp] theorem Dev.updQ_key (d : Dev) (q : Fin 64) (f : Queue → Queue) : (d.updQ q f).key = d.key := (rfl)
@[simp] theorem Dev.updQ_tag (d : Dev) (q : Fin 64) (f : Queue → Queue) : (d.updQ q f).tag = d.tag := (rfl)
@[simp] theorem Dev.updQ_pnl (d : Dev) (q : Fin 64) (f : Queue → Queue) : (d.updQ q f).pnl = d.pnl := (rfl)
@[simp] theorem Dev.updQ_sto (d : Dev) (q : Fin 64) (f : Queue → Queue) : (d.updQ q f).sto = d.sto := (rfl)
@[simp] theorem Dev.updQ_aul (d : Dev) (q : Fin 64) (f : Queue → Queue) : (d.updQ q f).aul = d.aul := (rfl)
@[simp] theorem Dev.updQ_pwr (d : Dev) (q : Fin 64) (f : Queue → Queue) : (d.updQ q f).pwr = d.pwr := (rfl)
@[simp] theorem Dev.updQ_fresh (d : Dev) (q : Fin 64) (f : Queue → Queue) : (d.updQ q f).fresh = d.fresh := (rfl)

@[simp] theorem Dev.updSpace_regs (d : Dev) (k : Fin 13) (f : IdSpace → IdSpace) : (d.updSpace k f).regs = d.regs := (rfl)
@[simp] theorem Dev.updSpace_staged (d : Dev) (k : Fin 13) (f : IdSpace → IdSpace) : (d.updSpace k f).staged = d.staged := (rfl)
@[simp] theorem Dev.updSpace_views (d : Dev) (k : Fin 13) (f : IdSpace → IdSpace) : (d.updSpace k f).views = d.views := (rfl)
@[simp] theorem Dev.updSpace_flags (d : Dev) (k : Fin 13) (f : IdSpace → IdSpace) : (d.updSpace k f).flags = d.flags := (rfl)
@[simp] theorem Dev.updSpace_coreA1 (d : Dev) (k : Fin 13) (f : IdSpace → IdSpace) : (d.updSpace k f).coreA1 = d.coreA1 := (rfl)
@[simp] theorem Dev.updSpace_reply (d : Dev) (k : Fin 13) (f : IdSpace → IdSpace) : (d.updSpace k f).reply = d.reply := (rfl)
@[simp] theorem Dev.updSpace_coreReply (d : Dev) (k : Fin 13) (f : IdSpace → IdSpace) : (d.updSpace k f).coreReply = d.coreReply := (rfl)
@[simp] theorem Dev.updSpace_replies (d : Dev) (k : Fin 13) (f : IdSpace → IdSpace) : (d.updSpace k f).replies = d.replies := (rfl)
@[simp] theorem Dev.updSpace_busy (d : Dev) (k : Fin 13) (f : IdSpace → IdSpace) : (d.updSpace k f).busy = d.busy := (rfl)
@[simp] theorem Dev.updSpace_hung (d : Dev) (k : Fin 13) (f : IdSpace → IdSpace) : (d.updSpace k f).hung = d.hung := (rfl)
@[simp] theorem Dev.updSpace_resume (d : Dev) (k : Fin 13) (f : IdSpace → IdSpace) : (d.updSpace k f).resume = d.resume := (rfl)
@[simp] theorem Dev.updSpace_permLog (d : Dev) (k : Fin 13) (f : IdSpace → IdSpace) : (d.updSpace k f).permLog = d.permLog := (rfl)
@[simp] theorem Dev.updSpace_cfgLog (d : Dev) (k : Fin 13) (f : IdSpace → IdSpace) : (d.updSpace k f).cfgLog = d.cfgLog := (rfl)
@[simp] theorem Dev.updSpace_log (d : Dev) (k : Fin 13) (f : IdSpace → IdSpace) : (d.updSpace k f).log = d.log := (rfl)
@[simp] theorem Dev.updSpace_logSeq (d : Dev) (k : Fin 13) (f : IdSpace → IdSpace) : (d.updSpace k f).logSeq = d.logSeq := (rfl)
@[simp] theorem Dev.updSpace_islandRun (d : Dev) (k : Fin 13) (f : IdSpace → IdSpace) : (d.updSpace k f).islandRun = d.islandRun := (rfl)
@[simp] theorem Dev.updSpace_clockLost (d : Dev) (k : Fin 13) (f : IdSpace → IdSpace) : (d.updSpace k f).clockLost = d.clockLost := (rfl)
@[simp] theorem Dev.updSpace_img (d : Dev) (k : Fin 13) (f : IdSpace → IdSpace) : (d.updSpace k f).img = d.img := (rfl)
@[simp] theorem Dev.updSpace_tim (d : Dev) (k : Fin 13) (f : IdSpace → IdSpace) : (d.updSpace k f).tim = d.tim := (rfl)
@[simp] theorem Dev.updSpace_mtr (d : Dev) (k : Fin 13) (f : IdSpace → IdSpace) : (d.updSpace k f).mtr = d.mtr := (rfl)
@[simp] theorem Dev.updSpace_bil (d : Dev) (k : Fin 13) (f : IdSpace → IdSpace) : (d.updSpace k f).bil = d.bil := (rfl)
@[simp] theorem Dev.updSpace_evc (d : Dev) (k : Fin 13) (f : IdSpace → IdSpace) : (d.updSpace k f).evc = d.evc := (rfl)
@[simp] theorem Dev.updSpace_kao (d : Dev) (k : Fin 13) (f : IdSpace → IdSpace) : (d.updSpace k f).kao = d.kao := (rfl)
@[simp] theorem Dev.updSpace_lsw (d : Dev) (k : Fin 13) (f : IdSpace → IdSpace) : (d.updSpace k f).lsw = d.lsw := (rfl)
@[simp] theorem Dev.updSpace_plc (d : Dev) (k : Fin 13) (f : IdSpace → IdSpace) : (d.updSpace k f).plc = d.plc := (rfl)
@[simp] theorem Dev.updSpace_key (d : Dev) (k : Fin 13) (f : IdSpace → IdSpace) : (d.updSpace k f).key = d.key := (rfl)
@[simp] theorem Dev.updSpace_tag (d : Dev) (k : Fin 13) (f : IdSpace → IdSpace) : (d.updSpace k f).tag = d.tag := (rfl)
@[simp] theorem Dev.updSpace_pnl (d : Dev) (k : Fin 13) (f : IdSpace → IdSpace) : (d.updSpace k f).pnl = d.pnl := (rfl)
@[simp] theorem Dev.updSpace_sto (d : Dev) (k : Fin 13) (f : IdSpace → IdSpace) : (d.updSpace k f).sto = d.sto := (rfl)
@[simp] theorem Dev.updSpace_aul (d : Dev) (k : Fin 13) (f : IdSpace → IdSpace) : (d.updSpace k f).aul = d.aul := (rfl)
@[simp] theorem Dev.updSpace_pwr (d : Dev) (k : Fin 13) (f : IdSpace → IdSpace) : (d.updSpace k f).pwr = d.pwr := (rfl)
@[simp] theorem Dev.updSpace_fresh (d : Dev) (k : Fin 13) (f : IdSpace → IdSpace) : (d.updSpace k f).fresh = d.fresh := (rfl)

@[simp] theorem Dev.updKey_regs (d : Dev) (k : Fin 64) (f : KeySlot → KeySlot) : (d.updKey k f).regs = d.regs := (rfl)
@[simp] theorem Dev.updKey_staged (d : Dev) (k : Fin 64) (f : KeySlot → KeySlot) : (d.updKey k f).staged = d.staged := (rfl)
@[simp] theorem Dev.updKey_views (d : Dev) (k : Fin 64) (f : KeySlot → KeySlot) : (d.updKey k f).views = d.views := (rfl)
@[simp] theorem Dev.updKey_flags (d : Dev) (k : Fin 64) (f : KeySlot → KeySlot) : (d.updKey k f).flags = d.flags := (rfl)
@[simp] theorem Dev.updKey_coreA1 (d : Dev) (k : Fin 64) (f : KeySlot → KeySlot) : (d.updKey k f).coreA1 = d.coreA1 := (rfl)
@[simp] theorem Dev.updKey_reply (d : Dev) (k : Fin 64) (f : KeySlot → KeySlot) : (d.updKey k f).reply = d.reply := (rfl)
@[simp] theorem Dev.updKey_coreReply (d : Dev) (k : Fin 64) (f : KeySlot → KeySlot) : (d.updKey k f).coreReply = d.coreReply := (rfl)
@[simp] theorem Dev.updKey_replies (d : Dev) (k : Fin 64) (f : KeySlot → KeySlot) : (d.updKey k f).replies = d.replies := (rfl)
@[simp] theorem Dev.updKey_busy (d : Dev) (k : Fin 64) (f : KeySlot → KeySlot) : (d.updKey k f).busy = d.busy := (rfl)
@[simp] theorem Dev.updKey_hung (d : Dev) (k : Fin 64) (f : KeySlot → KeySlot) : (d.updKey k f).hung = d.hung := (rfl)
@[simp] theorem Dev.updKey_resume (d : Dev) (k : Fin 64) (f : KeySlot → KeySlot) : (d.updKey k f).resume = d.resume := (rfl)
@[simp] theorem Dev.updKey_permLog (d : Dev) (k : Fin 64) (f : KeySlot → KeySlot) : (d.updKey k f).permLog = d.permLog := (rfl)
@[simp] theorem Dev.updKey_cfgLog (d : Dev) (k : Fin 64) (f : KeySlot → KeySlot) : (d.updKey k f).cfgLog = d.cfgLog := (rfl)
@[simp] theorem Dev.updKey_log (d : Dev) (k : Fin 64) (f : KeySlot → KeySlot) : (d.updKey k f).log = d.log := (rfl)
@[simp] theorem Dev.updKey_logSeq (d : Dev) (k : Fin 64) (f : KeySlot → KeySlot) : (d.updKey k f).logSeq = d.logSeq := (rfl)
@[simp] theorem Dev.updKey_islandRun (d : Dev) (k : Fin 64) (f : KeySlot → KeySlot) : (d.updKey k f).islandRun = d.islandRun := (rfl)
@[simp] theorem Dev.updKey_clockLost (d : Dev) (k : Fin 64) (f : KeySlot → KeySlot) : (d.updKey k f).clockLost = d.clockLost := (rfl)
@[simp] theorem Dev.updKey_img (d : Dev) (k : Fin 64) (f : KeySlot → KeySlot) : (d.updKey k f).img = d.img := (rfl)
@[simp] theorem Dev.updKey_que (d : Dev) (k : Fin 64) (f : KeySlot → KeySlot) : (d.updKey k f).que = d.que := (rfl)
@[simp] theorem Dev.updKey_tim (d : Dev) (k : Fin 64) (f : KeySlot → KeySlot) : (d.updKey k f).tim = d.tim := (rfl)
@[simp] theorem Dev.updKey_mtr (d : Dev) (k : Fin 64) (f : KeySlot → KeySlot) : (d.updKey k f).mtr = d.mtr := (rfl)
@[simp] theorem Dev.updKey_bil (d : Dev) (k : Fin 64) (f : KeySlot → KeySlot) : (d.updKey k f).bil = d.bil := (rfl)
@[simp] theorem Dev.updKey_evc (d : Dev) (k : Fin 64) (f : KeySlot → KeySlot) : (d.updKey k f).evc = d.evc := (rfl)
@[simp] theorem Dev.updKey_kao (d : Dev) (k : Fin 64) (f : KeySlot → KeySlot) : (d.updKey k f).kao = d.kao := (rfl)
@[simp] theorem Dev.updKey_lsw (d : Dev) (k : Fin 64) (f : KeySlot → KeySlot) : (d.updKey k f).lsw = d.lsw := (rfl)
@[simp] theorem Dev.updKey_plc (d : Dev) (k : Fin 64) (f : KeySlot → KeySlot) : (d.updKey k f).plc = d.plc := (rfl)
@[simp] theorem Dev.updKey_tag (d : Dev) (k : Fin 64) (f : KeySlot → KeySlot) : (d.updKey k f).tag = d.tag := (rfl)
@[simp] theorem Dev.updKey_pnl (d : Dev) (k : Fin 64) (f : KeySlot → KeySlot) : (d.updKey k f).pnl = d.pnl := (rfl)
@[simp] theorem Dev.updKey_sto (d : Dev) (k : Fin 64) (f : KeySlot → KeySlot) : (d.updKey k f).sto = d.sto := (rfl)
@[simp] theorem Dev.updKey_aul (d : Dev) (k : Fin 64) (f : KeySlot → KeySlot) : (d.updKey k f).aul = d.aul := (rfl)
@[simp] theorem Dev.updKey_pwr (d : Dev) (k : Fin 64) (f : KeySlot → KeySlot) : (d.updKey k f).pwr = d.pwr := (rfl)
@[simp] theorem Dev.updKey_fresh (d : Dev) (k : Fin 64) (f : KeySlot → KeySlot) : (d.updKey k f).fresh = d.fresh := (rfl)

@[simp] theorem Dev.updRgn_regs (d : Dev) (r : Fin 16) (f : Region → Region) : (d.updRgn r f).regs = d.regs := (rfl)
@[simp] theorem Dev.updRgn_staged (d : Dev) (r : Fin 16) (f : Region → Region) : (d.updRgn r f).staged = d.staged := (rfl)
@[simp] theorem Dev.updRgn_views (d : Dev) (r : Fin 16) (f : Region → Region) : (d.updRgn r f).views = d.views := (rfl)
@[simp] theorem Dev.updRgn_flags (d : Dev) (r : Fin 16) (f : Region → Region) : (d.updRgn r f).flags = d.flags := (rfl)
@[simp] theorem Dev.updRgn_coreA1 (d : Dev) (r : Fin 16) (f : Region → Region) : (d.updRgn r f).coreA1 = d.coreA1 := (rfl)
@[simp] theorem Dev.updRgn_reply (d : Dev) (r : Fin 16) (f : Region → Region) : (d.updRgn r f).reply = d.reply := (rfl)
@[simp] theorem Dev.updRgn_coreReply (d : Dev) (r : Fin 16) (f : Region → Region) : (d.updRgn r f).coreReply = d.coreReply := (rfl)
@[simp] theorem Dev.updRgn_replies (d : Dev) (r : Fin 16) (f : Region → Region) : (d.updRgn r f).replies = d.replies := (rfl)
@[simp] theorem Dev.updRgn_busy (d : Dev) (r : Fin 16) (f : Region → Region) : (d.updRgn r f).busy = d.busy := (rfl)
@[simp] theorem Dev.updRgn_hung (d : Dev) (r : Fin 16) (f : Region → Region) : (d.updRgn r f).hung = d.hung := (rfl)
@[simp] theorem Dev.updRgn_resume (d : Dev) (r : Fin 16) (f : Region → Region) : (d.updRgn r f).resume = d.resume := (rfl)
@[simp] theorem Dev.updRgn_permLog (d : Dev) (r : Fin 16) (f : Region → Region) : (d.updRgn r f).permLog = d.permLog := (rfl)
@[simp] theorem Dev.updRgn_cfgLog (d : Dev) (r : Fin 16) (f : Region → Region) : (d.updRgn r f).cfgLog = d.cfgLog := (rfl)
@[simp] theorem Dev.updRgn_log (d : Dev) (r : Fin 16) (f : Region → Region) : (d.updRgn r f).log = d.log := (rfl)
@[simp] theorem Dev.updRgn_logSeq (d : Dev) (r : Fin 16) (f : Region → Region) : (d.updRgn r f).logSeq = d.logSeq := (rfl)
@[simp] theorem Dev.updRgn_islandRun (d : Dev) (r : Fin 16) (f : Region → Region) : (d.updRgn r f).islandRun = d.islandRun := (rfl)
@[simp] theorem Dev.updRgn_clockLost (d : Dev) (r : Fin 16) (f : Region → Region) : (d.updRgn r f).clockLost = d.clockLost := (rfl)
@[simp] theorem Dev.updRgn_img (d : Dev) (r : Fin 16) (f : Region → Region) : (d.updRgn r f).img = d.img := (rfl)
@[simp] theorem Dev.updRgn_que (d : Dev) (r : Fin 16) (f : Region → Region) : (d.updRgn r f).que = d.que := (rfl)
@[simp] theorem Dev.updRgn_tim (d : Dev) (r : Fin 16) (f : Region → Region) : (d.updRgn r f).tim = d.tim := (rfl)
@[simp] theorem Dev.updRgn_mtr (d : Dev) (r : Fin 16) (f : Region → Region) : (d.updRgn r f).mtr = d.mtr := (rfl)
@[simp] theorem Dev.updRgn_bil (d : Dev) (r : Fin 16) (f : Region → Region) : (d.updRgn r f).bil = d.bil := (rfl)
@[simp] theorem Dev.updRgn_evc (d : Dev) (r : Fin 16) (f : Region → Region) : (d.updRgn r f).evc = d.evc := (rfl)
@[simp] theorem Dev.updRgn_kao (d : Dev) (r : Fin 16) (f : Region → Region) : (d.updRgn r f).kao = d.kao := (rfl)
@[simp] theorem Dev.updRgn_lsw (d : Dev) (r : Fin 16) (f : Region → Region) : (d.updRgn r f).lsw = d.lsw := (rfl)
@[simp] theorem Dev.updRgn_plc (d : Dev) (r : Fin 16) (f : Region → Region) : (d.updRgn r f).plc = d.plc := (rfl)
@[simp] theorem Dev.updRgn_key (d : Dev) (r : Fin 16) (f : Region → Region) : (d.updRgn r f).key = d.key := (rfl)
@[simp] theorem Dev.updRgn_tag (d : Dev) (r : Fin 16) (f : Region → Region) : (d.updRgn r f).tag = d.tag := (rfl)
@[simp] theorem Dev.updRgn_sto (d : Dev) (r : Fin 16) (f : Region → Region) : (d.updRgn r f).sto = d.sto := (rfl)
@[simp] theorem Dev.updRgn_aul (d : Dev) (r : Fin 16) (f : Region → Region) : (d.updRgn r f).aul = d.aul := (rfl)
@[simp] theorem Dev.updRgn_pwr (d : Dev) (r : Fin 16) (f : Region → Region) : (d.updRgn r f).pwr = d.pwr := (rfl)
@[simp] theorem Dev.updRgn_fresh (d : Dev) (r : Fin 16) (f : Region → Region) : (d.updRgn r f).fresh = d.fresh := (rfl)

@[simp] theorem Dev.updCmp_regs (d : Dev) (c : Fin 16) (f : Cmp → Cmp) : (d.updCmp c f).regs = d.regs := (rfl)
@[simp] theorem Dev.updCmp_staged (d : Dev) (c : Fin 16) (f : Cmp → Cmp) : (d.updCmp c f).staged = d.staged := (rfl)
@[simp] theorem Dev.updCmp_views (d : Dev) (c : Fin 16) (f : Cmp → Cmp) : (d.updCmp c f).views = d.views := (rfl)
@[simp] theorem Dev.updCmp_flags (d : Dev) (c : Fin 16) (f : Cmp → Cmp) : (d.updCmp c f).flags = d.flags := (rfl)
@[simp] theorem Dev.updCmp_coreA1 (d : Dev) (c : Fin 16) (f : Cmp → Cmp) : (d.updCmp c f).coreA1 = d.coreA1 := (rfl)
@[simp] theorem Dev.updCmp_reply (d : Dev) (c : Fin 16) (f : Cmp → Cmp) : (d.updCmp c f).reply = d.reply := (rfl)
@[simp] theorem Dev.updCmp_coreReply (d : Dev) (c : Fin 16) (f : Cmp → Cmp) : (d.updCmp c f).coreReply = d.coreReply := (rfl)
@[simp] theorem Dev.updCmp_replies (d : Dev) (c : Fin 16) (f : Cmp → Cmp) : (d.updCmp c f).replies = d.replies := (rfl)
@[simp] theorem Dev.updCmp_busy (d : Dev) (c : Fin 16) (f : Cmp → Cmp) : (d.updCmp c f).busy = d.busy := (rfl)
@[simp] theorem Dev.updCmp_hung (d : Dev) (c : Fin 16) (f : Cmp → Cmp) : (d.updCmp c f).hung = d.hung := (rfl)
@[simp] theorem Dev.updCmp_resume (d : Dev) (c : Fin 16) (f : Cmp → Cmp) : (d.updCmp c f).resume = d.resume := (rfl)
@[simp] theorem Dev.updCmp_permLog (d : Dev) (c : Fin 16) (f : Cmp → Cmp) : (d.updCmp c f).permLog = d.permLog := (rfl)
@[simp] theorem Dev.updCmp_cfgLog (d : Dev) (c : Fin 16) (f : Cmp → Cmp) : (d.updCmp c f).cfgLog = d.cfgLog := (rfl)
@[simp] theorem Dev.updCmp_log (d : Dev) (c : Fin 16) (f : Cmp → Cmp) : (d.updCmp c f).log = d.log := (rfl)
@[simp] theorem Dev.updCmp_logSeq (d : Dev) (c : Fin 16) (f : Cmp → Cmp) : (d.updCmp c f).logSeq = d.logSeq := (rfl)
@[simp] theorem Dev.updCmp_islandRun (d : Dev) (c : Fin 16) (f : Cmp → Cmp) : (d.updCmp c f).islandRun = d.islandRun := (rfl)
@[simp] theorem Dev.updCmp_clockLost (d : Dev) (c : Fin 16) (f : Cmp → Cmp) : (d.updCmp c f).clockLost = d.clockLost := (rfl)
@[simp] theorem Dev.updCmp_img (d : Dev) (c : Fin 16) (f : Cmp → Cmp) : (d.updCmp c f).img = d.img := (rfl)
@[simp] theorem Dev.updCmp_que (d : Dev) (c : Fin 16) (f : Cmp → Cmp) : (d.updCmp c f).que = d.que := (rfl)
@[simp] theorem Dev.updCmp_mtr (d : Dev) (c : Fin 16) (f : Cmp → Cmp) : (d.updCmp c f).mtr = d.mtr := (rfl)
@[simp] theorem Dev.updCmp_bil (d : Dev) (c : Fin 16) (f : Cmp → Cmp) : (d.updCmp c f).bil = d.bil := (rfl)
@[simp] theorem Dev.updCmp_evc (d : Dev) (c : Fin 16) (f : Cmp → Cmp) : (d.updCmp c f).evc = d.evc := (rfl)
@[simp] theorem Dev.updCmp_kao (d : Dev) (c : Fin 16) (f : Cmp → Cmp) : (d.updCmp c f).kao = d.kao := (rfl)
@[simp] theorem Dev.updCmp_lsw (d : Dev) (c : Fin 16) (f : Cmp → Cmp) : (d.updCmp c f).lsw = d.lsw := (rfl)
@[simp] theorem Dev.updCmp_plc (d : Dev) (c : Fin 16) (f : Cmp → Cmp) : (d.updCmp c f).plc = d.plc := (rfl)
@[simp] theorem Dev.updCmp_key (d : Dev) (c : Fin 16) (f : Cmp → Cmp) : (d.updCmp c f).key = d.key := (rfl)
@[simp] theorem Dev.updCmp_tag (d : Dev) (c : Fin 16) (f : Cmp → Cmp) : (d.updCmp c f).tag = d.tag := (rfl)
@[simp] theorem Dev.updCmp_pnl (d : Dev) (c : Fin 16) (f : Cmp → Cmp) : (d.updCmp c f).pnl = d.pnl := (rfl)
@[simp] theorem Dev.updCmp_sto (d : Dev) (c : Fin 16) (f : Cmp → Cmp) : (d.updCmp c f).sto = d.sto := (rfl)
@[simp] theorem Dev.updCmp_aul (d : Dev) (c : Fin 16) (f : Cmp → Cmp) : (d.updCmp c f).aul = d.aul := (rfl)
@[simp] theorem Dev.updCmp_pwr (d : Dev) (c : Fin 16) (f : Cmp → Cmp) : (d.updCmp c f).pwr = d.pwr := (rfl)
@[simp] theorem Dev.updCmp_fresh (d : Dev) (c : Fin 16) (f : Cmp → Cmp) : (d.updCmp c f).fresh = d.fresh := (rfl)

@[simp] theorem Dev.putFlag_regs (d : Dev) (a : Nat) (f : FlagReg) : (d.putFlag a f).regs = d.regs := (rfl)
@[simp] theorem Dev.putFlag_staged (d : Dev) (a : Nat) (f : FlagReg) : (d.putFlag a f).staged = d.staged := (rfl)
@[simp] theorem Dev.putFlag_views (d : Dev) (a : Nat) (f : FlagReg) : (d.putFlag a f).views = d.views := (rfl)
@[simp] theorem Dev.putFlag_coreA1 (d : Dev) (a : Nat) (f : FlagReg) : (d.putFlag a f).coreA1 = d.coreA1 := (rfl)
@[simp] theorem Dev.putFlag_reply (d : Dev) (a : Nat) (f : FlagReg) : (d.putFlag a f).reply = d.reply := (rfl)
@[simp] theorem Dev.putFlag_coreReply (d : Dev) (a : Nat) (f : FlagReg) : (d.putFlag a f).coreReply = d.coreReply := (rfl)
@[simp] theorem Dev.putFlag_replies (d : Dev) (a : Nat) (f : FlagReg) : (d.putFlag a f).replies = d.replies := (rfl)
@[simp] theorem Dev.putFlag_busy (d : Dev) (a : Nat) (f : FlagReg) : (d.putFlag a f).busy = d.busy := (rfl)
@[simp] theorem Dev.putFlag_hung (d : Dev) (a : Nat) (f : FlagReg) : (d.putFlag a f).hung = d.hung := (rfl)
@[simp] theorem Dev.putFlag_resume (d : Dev) (a : Nat) (f : FlagReg) : (d.putFlag a f).resume = d.resume := (rfl)
@[simp] theorem Dev.putFlag_permLog (d : Dev) (a : Nat) (f : FlagReg) : (d.putFlag a f).permLog = d.permLog := (rfl)
@[simp] theorem Dev.putFlag_cfgLog (d : Dev) (a : Nat) (f : FlagReg) : (d.putFlag a f).cfgLog = d.cfgLog := (rfl)
@[simp] theorem Dev.putFlag_log (d : Dev) (a : Nat) (f : FlagReg) : (d.putFlag a f).log = d.log := (rfl)
@[simp] theorem Dev.putFlag_logSeq (d : Dev) (a : Nat) (f : FlagReg) : (d.putFlag a f).logSeq = d.logSeq := (rfl)
@[simp] theorem Dev.putFlag_islandRun (d : Dev) (a : Nat) (f : FlagReg) : (d.putFlag a f).islandRun = d.islandRun := (rfl)
@[simp] theorem Dev.putFlag_clockLost (d : Dev) (a : Nat) (f : FlagReg) : (d.putFlag a f).clockLost = d.clockLost := (rfl)
@[simp] theorem Dev.putFlag_img (d : Dev) (a : Nat) (f : FlagReg) : (d.putFlag a f).img = d.img := (rfl)
@[simp] theorem Dev.putFlag_que (d : Dev) (a : Nat) (f : FlagReg) : (d.putFlag a f).que = d.que := (rfl)
@[simp] theorem Dev.putFlag_tim (d : Dev) (a : Nat) (f : FlagReg) : (d.putFlag a f).tim = d.tim := (rfl)
@[simp] theorem Dev.putFlag_mtr (d : Dev) (a : Nat) (f : FlagReg) : (d.putFlag a f).mtr = d.mtr := (rfl)
@[simp] theorem Dev.putFlag_bil (d : Dev) (a : Nat) (f : FlagReg) : (d.putFlag a f).bil = d.bil := (rfl)
@[simp] theorem Dev.putFlag_evc (d : Dev) (a : Nat) (f : FlagReg) : (d.putFlag a f).evc = d.evc := (rfl)
@[simp] theorem Dev.putFlag_kao (d : Dev) (a : Nat) (f : FlagReg) : (d.putFlag a f).kao = d.kao := (rfl)
@[simp] theorem Dev.putFlag_lsw (d : Dev) (a : Nat) (f : FlagReg) : (d.putFlag a f).lsw = d.lsw := (rfl)
@[simp] theorem Dev.putFlag_plc (d : Dev) (a : Nat) (f : FlagReg) : (d.putFlag a f).plc = d.plc := (rfl)
@[simp] theorem Dev.putFlag_key (d : Dev) (a : Nat) (f : FlagReg) : (d.putFlag a f).key = d.key := (rfl)
@[simp] theorem Dev.putFlag_tag (d : Dev) (a : Nat) (f : FlagReg) : (d.putFlag a f).tag = d.tag := (rfl)
@[simp] theorem Dev.putFlag_pnl (d : Dev) (a : Nat) (f : FlagReg) : (d.putFlag a f).pnl = d.pnl := (rfl)
@[simp] theorem Dev.putFlag_sto (d : Dev) (a : Nat) (f : FlagReg) : (d.putFlag a f).sto = d.sto := (rfl)
@[simp] theorem Dev.putFlag_aul (d : Dev) (a : Nat) (f : FlagReg) : (d.putFlag a f).aul = d.aul := (rfl)
@[simp] theorem Dev.putFlag_pwr (d : Dev) (a : Nat) (f : FlagReg) : (d.putFlag a f).pwr = d.pwr := (rfl)
@[simp] theorem Dev.putFlag_fresh (d : Dev) (a : Nat) (f : FlagReg) : (d.putFlag a f).fresh = d.fresh := (rfl)

@[simp] theorem Dev.raise_regs (d : Dev) (g u off mask : Nat) : (d.raise g u off mask).regs = d.regs := (rfl)
@[simp] theorem Dev.raise_staged (d : Dev) (g u off mask : Nat) : (d.raise g u off mask).staged = d.staged := (rfl)
@[simp] theorem Dev.raise_views (d : Dev) (g u off mask : Nat) : (d.raise g u off mask).views = d.views := (rfl)
@[simp] theorem Dev.raise_coreA1 (d : Dev) (g u off mask : Nat) : (d.raise g u off mask).coreA1 = d.coreA1 := (rfl)
@[simp] theorem Dev.raise_reply (d : Dev) (g u off mask : Nat) : (d.raise g u off mask).reply = d.reply := (rfl)
@[simp] theorem Dev.raise_coreReply (d : Dev) (g u off mask : Nat) : (d.raise g u off mask).coreReply = d.coreReply := (rfl)
@[simp] theorem Dev.raise_replies (d : Dev) (g u off mask : Nat) : (d.raise g u off mask).replies = d.replies := (rfl)
@[simp] theorem Dev.raise_busy (d : Dev) (g u off mask : Nat) : (d.raise g u off mask).busy = d.busy := (rfl)
@[simp] theorem Dev.raise_hung (d : Dev) (g u off mask : Nat) : (d.raise g u off mask).hung = d.hung := (rfl)
@[simp] theorem Dev.raise_resume (d : Dev) (g u off mask : Nat) : (d.raise g u off mask).resume = d.resume := (rfl)
@[simp] theorem Dev.raise_permLog (d : Dev) (g u off mask : Nat) : (d.raise g u off mask).permLog = d.permLog := (rfl)
@[simp] theorem Dev.raise_cfgLog (d : Dev) (g u off mask : Nat) : (d.raise g u off mask).cfgLog = d.cfgLog := (rfl)
@[simp] theorem Dev.raise_log (d : Dev) (g u off mask : Nat) : (d.raise g u off mask).log = d.log := (rfl)
@[simp] theorem Dev.raise_logSeq (d : Dev) (g u off mask : Nat) : (d.raise g u off mask).logSeq = d.logSeq := (rfl)
@[simp] theorem Dev.raise_islandRun (d : Dev) (g u off mask : Nat) : (d.raise g u off mask).islandRun = d.islandRun := (rfl)
@[simp] theorem Dev.raise_clockLost (d : Dev) (g u off mask : Nat) : (d.raise g u off mask).clockLost = d.clockLost := (rfl)
@[simp] theorem Dev.raise_img (d : Dev) (g u off mask : Nat) : (d.raise g u off mask).img = d.img := (rfl)
@[simp] theorem Dev.raise_que (d : Dev) (g u off mask : Nat) : (d.raise g u off mask).que = d.que := (rfl)
@[simp] theorem Dev.raise_tim (d : Dev) (g u off mask : Nat) : (d.raise g u off mask).tim = d.tim := (rfl)
@[simp] theorem Dev.raise_mtr (d : Dev) (g u off mask : Nat) : (d.raise g u off mask).mtr = d.mtr := (rfl)
@[simp] theorem Dev.raise_bil (d : Dev) (g u off mask : Nat) : (d.raise g u off mask).bil = d.bil := (rfl)
@[simp] theorem Dev.raise_evc (d : Dev) (g u off mask : Nat) : (d.raise g u off mask).evc = d.evc := (rfl)
@[simp] theorem Dev.raise_kao (d : Dev) (g u off mask : Nat) : (d.raise g u off mask).kao = d.kao := (rfl)
@[simp] theorem Dev.raise_lsw (d : Dev) (g u off mask : Nat) : (d.raise g u off mask).lsw = d.lsw := (rfl)
@[simp] theorem Dev.raise_plc (d : Dev) (g u off mask : Nat) : (d.raise g u off mask).plc = d.plc := (rfl)
@[simp] theorem Dev.raise_key (d : Dev) (g u off mask : Nat) : (d.raise g u off mask).key = d.key := (rfl)
@[simp] theorem Dev.raise_tag (d : Dev) (g u off mask : Nat) : (d.raise g u off mask).tag = d.tag := (rfl)
@[simp] theorem Dev.raise_pnl (d : Dev) (g u off mask : Nat) : (d.raise g u off mask).pnl = d.pnl := (rfl)
@[simp] theorem Dev.raise_sto (d : Dev) (g u off mask : Nat) : (d.raise g u off mask).sto = d.sto := (rfl)
@[simp] theorem Dev.raise_aul (d : Dev) (g u off mask : Nat) : (d.raise g u off mask).aul = d.aul := (rfl)
@[simp] theorem Dev.raise_pwr (d : Dev) (g u off mask : Nat) : (d.raise g u off mask).pwr = d.pwr := (rfl)
@[simp] theorem Dev.raise_fresh (d : Dev) (g u off mask : Nat) : (d.raise g u off mask).fresh = d.fresh := (rfl)

@[simp] theorem Dev.setReg_staged (d : Dev) (g u off : Nat) (v : Word) : (d.setReg g u off v).staged = d.staged := (rfl)
@[simp] theorem Dev.setReg_views (d : Dev) (g u off : Nat) (v : Word) : (d.setReg g u off v).views = d.views := (rfl)
@[simp] theorem Dev.setReg_flags (d : Dev) (g u off : Nat) (v : Word) : (d.setReg g u off v).flags = d.flags := (rfl)
@[simp] theorem Dev.setReg_coreA1 (d : Dev) (g u off : Nat) (v : Word) : (d.setReg g u off v).coreA1 = d.coreA1 := (rfl)
@[simp] theorem Dev.setReg_reply (d : Dev) (g u off : Nat) (v : Word) : (d.setReg g u off v).reply = d.reply := (rfl)
@[simp] theorem Dev.setReg_coreReply (d : Dev) (g u off : Nat) (v : Word) : (d.setReg g u off v).coreReply = d.coreReply := (rfl)
@[simp] theorem Dev.setReg_replies (d : Dev) (g u off : Nat) (v : Word) : (d.setReg g u off v).replies = d.replies := (rfl)
@[simp] theorem Dev.setReg_busy (d : Dev) (g u off : Nat) (v : Word) : (d.setReg g u off v).busy = d.busy := (rfl)
@[simp] theorem Dev.setReg_hung (d : Dev) (g u off : Nat) (v : Word) : (d.setReg g u off v).hung = d.hung := (rfl)
@[simp] theorem Dev.setReg_resume (d : Dev) (g u off : Nat) (v : Word) : (d.setReg g u off v).resume = d.resume := (rfl)
@[simp] theorem Dev.setReg_permLog (d : Dev) (g u off : Nat) (v : Word) : (d.setReg g u off v).permLog = d.permLog := (rfl)
@[simp] theorem Dev.setReg_cfgLog (d : Dev) (g u off : Nat) (v : Word) : (d.setReg g u off v).cfgLog = d.cfgLog := (rfl)
@[simp] theorem Dev.setReg_log (d : Dev) (g u off : Nat) (v : Word) : (d.setReg g u off v).log = d.log := (rfl)
@[simp] theorem Dev.setReg_logSeq (d : Dev) (g u off : Nat) (v : Word) : (d.setReg g u off v).logSeq = d.logSeq := (rfl)
@[simp] theorem Dev.setReg_islandRun (d : Dev) (g u off : Nat) (v : Word) : (d.setReg g u off v).islandRun = d.islandRun := (rfl)
@[simp] theorem Dev.setReg_clockLost (d : Dev) (g u off : Nat) (v : Word) : (d.setReg g u off v).clockLost = d.clockLost := (rfl)
@[simp] theorem Dev.setReg_img (d : Dev) (g u off : Nat) (v : Word) : (d.setReg g u off v).img = d.img := (rfl)
@[simp] theorem Dev.setReg_que (d : Dev) (g u off : Nat) (v : Word) : (d.setReg g u off v).que = d.que := (rfl)
@[simp] theorem Dev.setReg_tim (d : Dev) (g u off : Nat) (v : Word) : (d.setReg g u off v).tim = d.tim := (rfl)
@[simp] theorem Dev.setReg_mtr (d : Dev) (g u off : Nat) (v : Word) : (d.setReg g u off v).mtr = d.mtr := (rfl)
@[simp] theorem Dev.setReg_bil (d : Dev) (g u off : Nat) (v : Word) : (d.setReg g u off v).bil = d.bil := (rfl)
@[simp] theorem Dev.setReg_evc (d : Dev) (g u off : Nat) (v : Word) : (d.setReg g u off v).evc = d.evc := (rfl)
@[simp] theorem Dev.setReg_kao (d : Dev) (g u off : Nat) (v : Word) : (d.setReg g u off v).kao = d.kao := (rfl)
@[simp] theorem Dev.setReg_lsw (d : Dev) (g u off : Nat) (v : Word) : (d.setReg g u off v).lsw = d.lsw := (rfl)
@[simp] theorem Dev.setReg_plc (d : Dev) (g u off : Nat) (v : Word) : (d.setReg g u off v).plc = d.plc := (rfl)
@[simp] theorem Dev.setReg_key (d : Dev) (g u off : Nat) (v : Word) : (d.setReg g u off v).key = d.key := (rfl)
@[simp] theorem Dev.setReg_tag (d : Dev) (g u off : Nat) (v : Word) : (d.setReg g u off v).tag = d.tag := (rfl)
@[simp] theorem Dev.setReg_pnl (d : Dev) (g u off : Nat) (v : Word) : (d.setReg g u off v).pnl = d.pnl := (rfl)
@[simp] theorem Dev.setReg_sto (d : Dev) (g u off : Nat) (v : Word) : (d.setReg g u off v).sto = d.sto := (rfl)
@[simp] theorem Dev.setReg_aul (d : Dev) (g u off : Nat) (v : Word) : (d.setReg g u off v).aul = d.aul := (rfl)
@[simp] theorem Dev.setReg_pwr (d : Dev) (g u off : Nat) (v : Word) : (d.setReg g u off v).pwr = d.pwr := (rfl)
@[simp] theorem Dev.setReg_fresh (d : Dev) (g u off : Nat) (v : Word) : (d.setReg g u off v).fresh = d.fresh := (rfl)

@[simp] theorem Dev.setRfld_staged (d : Dev) (g u off hi lo v : Nat) : (d.setRfld g u off hi lo v).staged = d.staged := (rfl)
@[simp] theorem Dev.setRfld_views (d : Dev) (g u off hi lo v : Nat) : (d.setRfld g u off hi lo v).views = d.views := (rfl)
@[simp] theorem Dev.setRfld_flags (d : Dev) (g u off hi lo v : Nat) : (d.setRfld g u off hi lo v).flags = d.flags := (rfl)
@[simp] theorem Dev.setRfld_coreA1 (d : Dev) (g u off hi lo v : Nat) : (d.setRfld g u off hi lo v).coreA1 = d.coreA1 := (rfl)
@[simp] theorem Dev.setRfld_reply (d : Dev) (g u off hi lo v : Nat) : (d.setRfld g u off hi lo v).reply = d.reply := (rfl)
@[simp] theorem Dev.setRfld_coreReply (d : Dev) (g u off hi lo v : Nat) : (d.setRfld g u off hi lo v).coreReply = d.coreReply := (rfl)
@[simp] theorem Dev.setRfld_replies (d : Dev) (g u off hi lo v : Nat) : (d.setRfld g u off hi lo v).replies = d.replies := (rfl)
@[simp] theorem Dev.setRfld_busy (d : Dev) (g u off hi lo v : Nat) : (d.setRfld g u off hi lo v).busy = d.busy := (rfl)
@[simp] theorem Dev.setRfld_hung (d : Dev) (g u off hi lo v : Nat) : (d.setRfld g u off hi lo v).hung = d.hung := (rfl)
@[simp] theorem Dev.setRfld_resume (d : Dev) (g u off hi lo v : Nat) : (d.setRfld g u off hi lo v).resume = d.resume := (rfl)
@[simp] theorem Dev.setRfld_permLog (d : Dev) (g u off hi lo v : Nat) : (d.setRfld g u off hi lo v).permLog = d.permLog := (rfl)
@[simp] theorem Dev.setRfld_cfgLog (d : Dev) (g u off hi lo v : Nat) : (d.setRfld g u off hi lo v).cfgLog = d.cfgLog := (rfl)
@[simp] theorem Dev.setRfld_log (d : Dev) (g u off hi lo v : Nat) : (d.setRfld g u off hi lo v).log = d.log := (rfl)
@[simp] theorem Dev.setRfld_logSeq (d : Dev) (g u off hi lo v : Nat) : (d.setRfld g u off hi lo v).logSeq = d.logSeq := (rfl)
@[simp] theorem Dev.setRfld_islandRun (d : Dev) (g u off hi lo v : Nat) : (d.setRfld g u off hi lo v).islandRun = d.islandRun := (rfl)
@[simp] theorem Dev.setRfld_clockLost (d : Dev) (g u off hi lo v : Nat) : (d.setRfld g u off hi lo v).clockLost = d.clockLost := (rfl)
@[simp] theorem Dev.setRfld_img (d : Dev) (g u off hi lo v : Nat) : (d.setRfld g u off hi lo v).img = d.img := (rfl)
@[simp] theorem Dev.setRfld_que (d : Dev) (g u off hi lo v : Nat) : (d.setRfld g u off hi lo v).que = d.que := (rfl)
@[simp] theorem Dev.setRfld_tim (d : Dev) (g u off hi lo v : Nat) : (d.setRfld g u off hi lo v).tim = d.tim := (rfl)
@[simp] theorem Dev.setRfld_mtr (d : Dev) (g u off hi lo v : Nat) : (d.setRfld g u off hi lo v).mtr = d.mtr := (rfl)
@[simp] theorem Dev.setRfld_bil (d : Dev) (g u off hi lo v : Nat) : (d.setRfld g u off hi lo v).bil = d.bil := (rfl)
@[simp] theorem Dev.setRfld_evc (d : Dev) (g u off hi lo v : Nat) : (d.setRfld g u off hi lo v).evc = d.evc := (rfl)
@[simp] theorem Dev.setRfld_kao (d : Dev) (g u off hi lo v : Nat) : (d.setRfld g u off hi lo v).kao = d.kao := (rfl)
@[simp] theorem Dev.setRfld_lsw (d : Dev) (g u off hi lo v : Nat) : (d.setRfld g u off hi lo v).lsw = d.lsw := (rfl)
@[simp] theorem Dev.setRfld_plc (d : Dev) (g u off hi lo v : Nat) : (d.setRfld g u off hi lo v).plc = d.plc := (rfl)
@[simp] theorem Dev.setRfld_key (d : Dev) (g u off hi lo v : Nat) : (d.setRfld g u off hi lo v).key = d.key := (rfl)
@[simp] theorem Dev.setRfld_tag (d : Dev) (g u off hi lo v : Nat) : (d.setRfld g u off hi lo v).tag = d.tag := (rfl)
@[simp] theorem Dev.setRfld_pnl (d : Dev) (g u off hi lo v : Nat) : (d.setRfld g u off hi lo v).pnl = d.pnl := (rfl)
@[simp] theorem Dev.setRfld_sto (d : Dev) (g u off hi lo v : Nat) : (d.setRfld g u off hi lo v).sto = d.sto := (rfl)
@[simp] theorem Dev.setRfld_aul (d : Dev) (g u off hi lo v : Nat) : (d.setRfld g u off hi lo v).aul = d.aul := (rfl)
@[simp] theorem Dev.setRfld_pwr (d : Dev) (g u off hi lo v : Nat) : (d.setRfld g u off hi lo v).pwr = d.pwr := (rfl)
@[simp] theorem Dev.setRfld_fresh (d : Dev) (g u off hi lo v : Nat) : (d.setRfld g u off hi lo v).fresh = d.fresh := (rfl)

@[simp] theorem Dev.count_staged (d : Dev) (g u off hi lo k : Nat) : (d.count g u off hi lo k).staged = d.staged := (rfl)
@[simp] theorem Dev.count_views (d : Dev) (g u off hi lo k : Nat) : (d.count g u off hi lo k).views = d.views := (rfl)
@[simp] theorem Dev.count_flags (d : Dev) (g u off hi lo k : Nat) : (d.count g u off hi lo k).flags = d.flags := (rfl)
@[simp] theorem Dev.count_coreA1 (d : Dev) (g u off hi lo k : Nat) : (d.count g u off hi lo k).coreA1 = d.coreA1 := (rfl)
@[simp] theorem Dev.count_reply (d : Dev) (g u off hi lo k : Nat) : (d.count g u off hi lo k).reply = d.reply := (rfl)
@[simp] theorem Dev.count_coreReply (d : Dev) (g u off hi lo k : Nat) : (d.count g u off hi lo k).coreReply = d.coreReply := (rfl)
@[simp] theorem Dev.count_replies (d : Dev) (g u off hi lo k : Nat) : (d.count g u off hi lo k).replies = d.replies := (rfl)
@[simp] theorem Dev.count_busy (d : Dev) (g u off hi lo k : Nat) : (d.count g u off hi lo k).busy = d.busy := (rfl)
@[simp] theorem Dev.count_hung (d : Dev) (g u off hi lo k : Nat) : (d.count g u off hi lo k).hung = d.hung := (rfl)
@[simp] theorem Dev.count_resume (d : Dev) (g u off hi lo k : Nat) : (d.count g u off hi lo k).resume = d.resume := (rfl)
@[simp] theorem Dev.count_permLog (d : Dev) (g u off hi lo k : Nat) : (d.count g u off hi lo k).permLog = d.permLog := (rfl)
@[simp] theorem Dev.count_cfgLog (d : Dev) (g u off hi lo k : Nat) : (d.count g u off hi lo k).cfgLog = d.cfgLog := (rfl)
@[simp] theorem Dev.count_log (d : Dev) (g u off hi lo k : Nat) : (d.count g u off hi lo k).log = d.log := (rfl)
@[simp] theorem Dev.count_logSeq (d : Dev) (g u off hi lo k : Nat) : (d.count g u off hi lo k).logSeq = d.logSeq := (rfl)
@[simp] theorem Dev.count_islandRun (d : Dev) (g u off hi lo k : Nat) : (d.count g u off hi lo k).islandRun = d.islandRun := (rfl)
@[simp] theorem Dev.count_clockLost (d : Dev) (g u off hi lo k : Nat) : (d.count g u off hi lo k).clockLost = d.clockLost := (rfl)
@[simp] theorem Dev.count_img (d : Dev) (g u off hi lo k : Nat) : (d.count g u off hi lo k).img = d.img := (rfl)
@[simp] theorem Dev.count_que (d : Dev) (g u off hi lo k : Nat) : (d.count g u off hi lo k).que = d.que := (rfl)
@[simp] theorem Dev.count_tim (d : Dev) (g u off hi lo k : Nat) : (d.count g u off hi lo k).tim = d.tim := (rfl)
@[simp] theorem Dev.count_mtr (d : Dev) (g u off hi lo k : Nat) : (d.count g u off hi lo k).mtr = d.mtr := (rfl)
@[simp] theorem Dev.count_bil (d : Dev) (g u off hi lo k : Nat) : (d.count g u off hi lo k).bil = d.bil := (rfl)
@[simp] theorem Dev.count_evc (d : Dev) (g u off hi lo k : Nat) : (d.count g u off hi lo k).evc = d.evc := (rfl)
@[simp] theorem Dev.count_kao (d : Dev) (g u off hi lo k : Nat) : (d.count g u off hi lo k).kao = d.kao := (rfl)
@[simp] theorem Dev.count_lsw (d : Dev) (g u off hi lo k : Nat) : (d.count g u off hi lo k).lsw = d.lsw := (rfl)
@[simp] theorem Dev.count_plc (d : Dev) (g u off hi lo k : Nat) : (d.count g u off hi lo k).plc = d.plc := (rfl)
@[simp] theorem Dev.count_key (d : Dev) (g u off hi lo k : Nat) : (d.count g u off hi lo k).key = d.key := (rfl)
@[simp] theorem Dev.count_tag (d : Dev) (g u off hi lo k : Nat) : (d.count g u off hi lo k).tag = d.tag := (rfl)
@[simp] theorem Dev.count_pnl (d : Dev) (g u off hi lo k : Nat) : (d.count g u off hi lo k).pnl = d.pnl := (rfl)
@[simp] theorem Dev.count_sto (d : Dev) (g u off hi lo k : Nat) : (d.count g u off hi lo k).sto = d.sto := (rfl)
@[simp] theorem Dev.count_aul (d : Dev) (g u off hi lo k : Nat) : (d.count g u off hi lo k).aul = d.aul := (rfl)
@[simp] theorem Dev.count_pwr (d : Dev) (g u off hi lo k : Nat) : (d.count g u off hi lo k).pwr = d.pwr := (rfl)
@[simp] theorem Dev.count_fresh (d : Dev) (g u off hi lo k : Nat) : (d.count g u off hi lo k).fresh = d.fresh := (rfl)

@[simp] theorem Dev.setView_regs (d : Dev) (ag : Agent) (a : Nat) (v : Word) : (d.setView ag a v).regs = d.regs := (rfl)
@[simp] theorem Dev.setView_staged (d : Dev) (ag : Agent) (a : Nat) (v : Word) : (d.setView ag a v).staged = d.staged := (rfl)
@[simp] theorem Dev.setView_flags (d : Dev) (ag : Agent) (a : Nat) (v : Word) : (d.setView ag a v).flags = d.flags := (rfl)
@[simp] theorem Dev.setView_coreA1 (d : Dev) (ag : Agent) (a : Nat) (v : Word) : (d.setView ag a v).coreA1 = d.coreA1 := (rfl)
@[simp] theorem Dev.setView_reply (d : Dev) (ag : Agent) (a : Nat) (v : Word) : (d.setView ag a v).reply = d.reply := (rfl)
@[simp] theorem Dev.setView_coreReply (d : Dev) (ag : Agent) (a : Nat) (v : Word) : (d.setView ag a v).coreReply = d.coreReply := (rfl)
@[simp] theorem Dev.setView_replies (d : Dev) (ag : Agent) (a : Nat) (v : Word) : (d.setView ag a v).replies = d.replies := (rfl)
@[simp] theorem Dev.setView_busy (d : Dev) (ag : Agent) (a : Nat) (v : Word) : (d.setView ag a v).busy = d.busy := (rfl)
@[simp] theorem Dev.setView_hung (d : Dev) (ag : Agent) (a : Nat) (v : Word) : (d.setView ag a v).hung = d.hung := (rfl)
@[simp] theorem Dev.setView_resume (d : Dev) (ag : Agent) (a : Nat) (v : Word) : (d.setView ag a v).resume = d.resume := (rfl)
@[simp] theorem Dev.setView_permLog (d : Dev) (ag : Agent) (a : Nat) (v : Word) : (d.setView ag a v).permLog = d.permLog := (rfl)
@[simp] theorem Dev.setView_cfgLog (d : Dev) (ag : Agent) (a : Nat) (v : Word) : (d.setView ag a v).cfgLog = d.cfgLog := (rfl)
@[simp] theorem Dev.setView_log (d : Dev) (ag : Agent) (a : Nat) (v : Word) : (d.setView ag a v).log = d.log := (rfl)
@[simp] theorem Dev.setView_logSeq (d : Dev) (ag : Agent) (a : Nat) (v : Word) : (d.setView ag a v).logSeq = d.logSeq := (rfl)
@[simp] theorem Dev.setView_islandRun (d : Dev) (ag : Agent) (a : Nat) (v : Word) : (d.setView ag a v).islandRun = d.islandRun := (rfl)
@[simp] theorem Dev.setView_clockLost (d : Dev) (ag : Agent) (a : Nat) (v : Word) : (d.setView ag a v).clockLost = d.clockLost := (rfl)
@[simp] theorem Dev.setView_img (d : Dev) (ag : Agent) (a : Nat) (v : Word) : (d.setView ag a v).img = d.img := (rfl)
@[simp] theorem Dev.setView_que (d : Dev) (ag : Agent) (a : Nat) (v : Word) : (d.setView ag a v).que = d.que := (rfl)
@[simp] theorem Dev.setView_tim (d : Dev) (ag : Agent) (a : Nat) (v : Word) : (d.setView ag a v).tim = d.tim := (rfl)
@[simp] theorem Dev.setView_mtr (d : Dev) (ag : Agent) (a : Nat) (v : Word) : (d.setView ag a v).mtr = d.mtr := (rfl)
@[simp] theorem Dev.setView_bil (d : Dev) (ag : Agent) (a : Nat) (v : Word) : (d.setView ag a v).bil = d.bil := (rfl)
@[simp] theorem Dev.setView_evc (d : Dev) (ag : Agent) (a : Nat) (v : Word) : (d.setView ag a v).evc = d.evc := (rfl)
@[simp] theorem Dev.setView_kao (d : Dev) (ag : Agent) (a : Nat) (v : Word) : (d.setView ag a v).kao = d.kao := (rfl)
@[simp] theorem Dev.setView_lsw (d : Dev) (ag : Agent) (a : Nat) (v : Word) : (d.setView ag a v).lsw = d.lsw := (rfl)
@[simp] theorem Dev.setView_plc (d : Dev) (ag : Agent) (a : Nat) (v : Word) : (d.setView ag a v).plc = d.plc := (rfl)
@[simp] theorem Dev.setView_key (d : Dev) (ag : Agent) (a : Nat) (v : Word) : (d.setView ag a v).key = d.key := (rfl)
@[simp] theorem Dev.setView_tag (d : Dev) (ag : Agent) (a : Nat) (v : Word) : (d.setView ag a v).tag = d.tag := (rfl)
@[simp] theorem Dev.setView_pnl (d : Dev) (ag : Agent) (a : Nat) (v : Word) : (d.setView ag a v).pnl = d.pnl := (rfl)
@[simp] theorem Dev.setView_sto (d : Dev) (ag : Agent) (a : Nat) (v : Word) : (d.setView ag a v).sto = d.sto := (rfl)
@[simp] theorem Dev.setView_aul (d : Dev) (ag : Agent) (a : Nat) (v : Word) : (d.setView ag a v).aul = d.aul := (rfl)
@[simp] theorem Dev.setView_pwr (d : Dev) (ag : Agent) (a : Nat) (v : Word) : (d.setView ag a v).pwr = d.pwr := (rfl)
@[simp] theorem Dev.setView_fresh (d : Dev) (ag : Agent) (a : Nat) (v : Word) : (d.setView ag a v).fresh = d.fresh := (rfl)

@[simp] theorem Dev.setRun_regs (d : Dev) (i : Nat) (on : Bool) : (d.setRun i on).regs = d.regs := (rfl)
@[simp] theorem Dev.setRun_staged (d : Dev) (i : Nat) (on : Bool) : (d.setRun i on).staged = d.staged := (rfl)
@[simp] theorem Dev.setRun_views (d : Dev) (i : Nat) (on : Bool) : (d.setRun i on).views = d.views := (rfl)
@[simp] theorem Dev.setRun_flags (d : Dev) (i : Nat) (on : Bool) : (d.setRun i on).flags = d.flags := (rfl)
@[simp] theorem Dev.setRun_coreA1 (d : Dev) (i : Nat) (on : Bool) : (d.setRun i on).coreA1 = d.coreA1 := (rfl)
@[simp] theorem Dev.setRun_reply (d : Dev) (i : Nat) (on : Bool) : (d.setRun i on).reply = d.reply := (rfl)
@[simp] theorem Dev.setRun_coreReply (d : Dev) (i : Nat) (on : Bool) : (d.setRun i on).coreReply = d.coreReply := (rfl)
@[simp] theorem Dev.setRun_replies (d : Dev) (i : Nat) (on : Bool) : (d.setRun i on).replies = d.replies := (rfl)
@[simp] theorem Dev.setRun_busy (d : Dev) (i : Nat) (on : Bool) : (d.setRun i on).busy = d.busy := (rfl)
@[simp] theorem Dev.setRun_hung (d : Dev) (i : Nat) (on : Bool) : (d.setRun i on).hung = d.hung := (rfl)
@[simp] theorem Dev.setRun_resume (d : Dev) (i : Nat) (on : Bool) : (d.setRun i on).resume = d.resume := (rfl)
@[simp] theorem Dev.setRun_permLog (d : Dev) (i : Nat) (on : Bool) : (d.setRun i on).permLog = d.permLog := (rfl)
@[simp] theorem Dev.setRun_cfgLog (d : Dev) (i : Nat) (on : Bool) : (d.setRun i on).cfgLog = d.cfgLog := (rfl)
@[simp] theorem Dev.setRun_log (d : Dev) (i : Nat) (on : Bool) : (d.setRun i on).log = d.log := (rfl)
@[simp] theorem Dev.setRun_logSeq (d : Dev) (i : Nat) (on : Bool) : (d.setRun i on).logSeq = d.logSeq := (rfl)
@[simp] theorem Dev.setRun_clockLost (d : Dev) (i : Nat) (on : Bool) : (d.setRun i on).clockLost = d.clockLost := (rfl)
@[simp] theorem Dev.setRun_img (d : Dev) (i : Nat) (on : Bool) : (d.setRun i on).img = d.img := (rfl)
@[simp] theorem Dev.setRun_que (d : Dev) (i : Nat) (on : Bool) : (d.setRun i on).que = d.que := (rfl)
@[simp] theorem Dev.setRun_tim (d : Dev) (i : Nat) (on : Bool) : (d.setRun i on).tim = d.tim := (rfl)
@[simp] theorem Dev.setRun_mtr (d : Dev) (i : Nat) (on : Bool) : (d.setRun i on).mtr = d.mtr := (rfl)
@[simp] theorem Dev.setRun_bil (d : Dev) (i : Nat) (on : Bool) : (d.setRun i on).bil = d.bil := (rfl)
@[simp] theorem Dev.setRun_evc (d : Dev) (i : Nat) (on : Bool) : (d.setRun i on).evc = d.evc := (rfl)
@[simp] theorem Dev.setRun_kao (d : Dev) (i : Nat) (on : Bool) : (d.setRun i on).kao = d.kao := (rfl)
@[simp] theorem Dev.setRun_lsw (d : Dev) (i : Nat) (on : Bool) : (d.setRun i on).lsw = d.lsw := (rfl)
@[simp] theorem Dev.setRun_plc (d : Dev) (i : Nat) (on : Bool) : (d.setRun i on).plc = d.plc := (rfl)
@[simp] theorem Dev.setRun_key (d : Dev) (i : Nat) (on : Bool) : (d.setRun i on).key = d.key := (rfl)
@[simp] theorem Dev.setRun_tag (d : Dev) (i : Nat) (on : Bool) : (d.setRun i on).tag = d.tag := (rfl)
@[simp] theorem Dev.setRun_pnl (d : Dev) (i : Nat) (on : Bool) : (d.setRun i on).pnl = d.pnl := (rfl)
@[simp] theorem Dev.setRun_sto (d : Dev) (i : Nat) (on : Bool) : (d.setRun i on).sto = d.sto := (rfl)
@[simp] theorem Dev.setRun_aul (d : Dev) (i : Nat) (on : Bool) : (d.setRun i on).aul = d.aul := (rfl)
@[simp] theorem Dev.setRun_pwr (d : Dev) (i : Nat) (on : Bool) : (d.setRun i on).pwr = d.pwr := (rfl)
@[simp] theorem Dev.setRun_fresh (d : Dev) (i : Nat) (on : Bool) : (d.setRun i on).fresh = d.fresh := (rfl)

@[simp] theorem Dev.answer_regs (d : Dev) (ag : Agent) (st : CmdSt) (v : Word) : (d.answer ag st v).regs = d.regs := (rfl)
@[simp] theorem Dev.answer_staged (d : Dev) (ag : Agent) (st : CmdSt) (v : Word) : (d.answer ag st v).staged = d.staged := (rfl)
@[simp] theorem Dev.answer_views (d : Dev) (ag : Agent) (st : CmdSt) (v : Word) : (d.answer ag st v).views = d.views := (rfl)
@[simp] theorem Dev.answer_flags (d : Dev) (ag : Agent) (st : CmdSt) (v : Word) : (d.answer ag st v).flags = d.flags := (rfl)
@[simp] theorem Dev.answer_coreA1 (d : Dev) (ag : Agent) (st : CmdSt) (v : Word) : (d.answer ag st v).coreA1 = d.coreA1 := (rfl)
@[simp] theorem Dev.answer_coreReply (d : Dev) (ag : Agent) (st : CmdSt) (v : Word) : (d.answer ag st v).coreReply = d.coreReply := (rfl)
@[simp] theorem Dev.answer_replies (d : Dev) (ag : Agent) (st : CmdSt) (v : Word) : (d.answer ag st v).replies = d.replies := (rfl)
@[simp] theorem Dev.answer_busy (d : Dev) (ag : Agent) (st : CmdSt) (v : Word) : (d.answer ag st v).busy = d.busy := (rfl)
@[simp] theorem Dev.answer_hung (d : Dev) (ag : Agent) (st : CmdSt) (v : Word) : (d.answer ag st v).hung = d.hung := (rfl)
@[simp] theorem Dev.answer_resume (d : Dev) (ag : Agent) (st : CmdSt) (v : Word) : (d.answer ag st v).resume = d.resume := (rfl)
@[simp] theorem Dev.answer_permLog (d : Dev) (ag : Agent) (st : CmdSt) (v : Word) : (d.answer ag st v).permLog = d.permLog := (rfl)
@[simp] theorem Dev.answer_cfgLog (d : Dev) (ag : Agent) (st : CmdSt) (v : Word) : (d.answer ag st v).cfgLog = d.cfgLog := (rfl)
@[simp] theorem Dev.answer_log (d : Dev) (ag : Agent) (st : CmdSt) (v : Word) : (d.answer ag st v).log = d.log := (rfl)
@[simp] theorem Dev.answer_logSeq (d : Dev) (ag : Agent) (st : CmdSt) (v : Word) : (d.answer ag st v).logSeq = d.logSeq := (rfl)
@[simp] theorem Dev.answer_islandRun (d : Dev) (ag : Agent) (st : CmdSt) (v : Word) : (d.answer ag st v).islandRun = d.islandRun := (rfl)
@[simp] theorem Dev.answer_clockLost (d : Dev) (ag : Agent) (st : CmdSt) (v : Word) : (d.answer ag st v).clockLost = d.clockLost := (rfl)
@[simp] theorem Dev.answer_img (d : Dev) (ag : Agent) (st : CmdSt) (v : Word) : (d.answer ag st v).img = d.img := (rfl)
@[simp] theorem Dev.answer_que (d : Dev) (ag : Agent) (st : CmdSt) (v : Word) : (d.answer ag st v).que = d.que := (rfl)
@[simp] theorem Dev.answer_tim (d : Dev) (ag : Agent) (st : CmdSt) (v : Word) : (d.answer ag st v).tim = d.tim := (rfl)
@[simp] theorem Dev.answer_mtr (d : Dev) (ag : Agent) (st : CmdSt) (v : Word) : (d.answer ag st v).mtr = d.mtr := (rfl)
@[simp] theorem Dev.answer_bil (d : Dev) (ag : Agent) (st : CmdSt) (v : Word) : (d.answer ag st v).bil = d.bil := (rfl)
@[simp] theorem Dev.answer_evc (d : Dev) (ag : Agent) (st : CmdSt) (v : Word) : (d.answer ag st v).evc = d.evc := (rfl)
@[simp] theorem Dev.answer_kao (d : Dev) (ag : Agent) (st : CmdSt) (v : Word) : (d.answer ag st v).kao = d.kao := (rfl)
@[simp] theorem Dev.answer_lsw (d : Dev) (ag : Agent) (st : CmdSt) (v : Word) : (d.answer ag st v).lsw = d.lsw := (rfl)
@[simp] theorem Dev.answer_plc (d : Dev) (ag : Agent) (st : CmdSt) (v : Word) : (d.answer ag st v).plc = d.plc := (rfl)
@[simp] theorem Dev.answer_key (d : Dev) (ag : Agent) (st : CmdSt) (v : Word) : (d.answer ag st v).key = d.key := (rfl)
@[simp] theorem Dev.answer_tag (d : Dev) (ag : Agent) (st : CmdSt) (v : Word) : (d.answer ag st v).tag = d.tag := (rfl)
@[simp] theorem Dev.answer_pnl (d : Dev) (ag : Agent) (st : CmdSt) (v : Word) : (d.answer ag st v).pnl = d.pnl := (rfl)
@[simp] theorem Dev.answer_sto (d : Dev) (ag : Agent) (st : CmdSt) (v : Word) : (d.answer ag st v).sto = d.sto := (rfl)
@[simp] theorem Dev.answer_aul (d : Dev) (ag : Agent) (st : CmdSt) (v : Word) : (d.answer ag st v).aul = d.aul := (rfl)
@[simp] theorem Dev.answer_pwr (d : Dev) (ag : Agent) (st : CmdSt) (v : Word) : (d.answer ag st v).pwr = d.pwr := (rfl)
@[simp] theorem Dev.answer_fresh (d : Dev) (ag : Agent) (st : CmdSt) (v : Word) : (d.answer ag st v).fresh = d.fresh := (rfl)

@[simp] theorem Dev.noteCommand_regs (d : Dev) (ag : Agent) (g op : Nat) (st : CmdSt) : (d.noteCommand ag g op st).regs = d.regs := by unfold Dev.noteCommand; rw [Dev.setView_regs]
@[simp] theorem Dev.noteCommand_staged (d : Dev) (ag : Agent) (g op : Nat) (st : CmdSt) : (d.noteCommand ag g op st).staged = d.staged := by unfold Dev.noteCommand; rw [Dev.setView_staged]
@[simp] theorem Dev.noteCommand_flags (d : Dev) (ag : Agent) (g op : Nat) (st : CmdSt) : (d.noteCommand ag g op st).flags = d.flags := by unfold Dev.noteCommand; rw [Dev.setView_flags]
@[simp] theorem Dev.noteCommand_coreA1 (d : Dev) (ag : Agent) (g op : Nat) (st : CmdSt) : (d.noteCommand ag g op st).coreA1 = d.coreA1 := by unfold Dev.noteCommand; rw [Dev.setView_coreA1]
@[simp] theorem Dev.noteCommand_reply (d : Dev) (ag : Agent) (g op : Nat) (st : CmdSt) : (d.noteCommand ag g op st).reply = d.reply := by unfold Dev.noteCommand; rw [Dev.setView_reply]
@[simp] theorem Dev.noteCommand_coreReply (d : Dev) (ag : Agent) (g op : Nat) (st : CmdSt) : (d.noteCommand ag g op st).coreReply = d.coreReply := by unfold Dev.noteCommand; rw [Dev.setView_coreReply]
@[simp] theorem Dev.noteCommand_replies (d : Dev) (ag : Agent) (g op : Nat) (st : CmdSt) : (d.noteCommand ag g op st).replies = d.replies := by unfold Dev.noteCommand; rw [Dev.setView_replies]
@[simp] theorem Dev.noteCommand_busy (d : Dev) (ag : Agent) (g op : Nat) (st : CmdSt) : (d.noteCommand ag g op st).busy = d.busy := by unfold Dev.noteCommand; rw [Dev.setView_busy]
@[simp] theorem Dev.noteCommand_hung (d : Dev) (ag : Agent) (g op : Nat) (st : CmdSt) : (d.noteCommand ag g op st).hung = d.hung := by unfold Dev.noteCommand; rw [Dev.setView_hung]
@[simp] theorem Dev.noteCommand_resume (d : Dev) (ag : Agent) (g op : Nat) (st : CmdSt) : (d.noteCommand ag g op st).resume = d.resume := by unfold Dev.noteCommand; rw [Dev.setView_resume]
@[simp] theorem Dev.noteCommand_permLog (d : Dev) (ag : Agent) (g op : Nat) (st : CmdSt) : (d.noteCommand ag g op st).permLog = d.permLog := by unfold Dev.noteCommand; rw [Dev.setView_permLog]
@[simp] theorem Dev.noteCommand_cfgLog (d : Dev) (ag : Agent) (g op : Nat) (st : CmdSt) : (d.noteCommand ag g op st).cfgLog = d.cfgLog := by unfold Dev.noteCommand; rw [Dev.setView_cfgLog]
@[simp] theorem Dev.noteCommand_log (d : Dev) (ag : Agent) (g op : Nat) (st : CmdSt) : (d.noteCommand ag g op st).log = d.log := by unfold Dev.noteCommand; rw [Dev.setView_log]
@[simp] theorem Dev.noteCommand_logSeq (d : Dev) (ag : Agent) (g op : Nat) (st : CmdSt) : (d.noteCommand ag g op st).logSeq = d.logSeq := by unfold Dev.noteCommand; rw [Dev.setView_logSeq]
@[simp] theorem Dev.noteCommand_islandRun (d : Dev) (ag : Agent) (g op : Nat) (st : CmdSt) : (d.noteCommand ag g op st).islandRun = d.islandRun := by unfold Dev.noteCommand; rw [Dev.setView_islandRun]
@[simp] theorem Dev.noteCommand_clockLost (d : Dev) (ag : Agent) (g op : Nat) (st : CmdSt) : (d.noteCommand ag g op st).clockLost = d.clockLost := by unfold Dev.noteCommand; rw [Dev.setView_clockLost]
@[simp] theorem Dev.noteCommand_img (d : Dev) (ag : Agent) (g op : Nat) (st : CmdSt) : (d.noteCommand ag g op st).img = d.img := by unfold Dev.noteCommand; rw [Dev.setView_img]
@[simp] theorem Dev.noteCommand_que (d : Dev) (ag : Agent) (g op : Nat) (st : CmdSt) : (d.noteCommand ag g op st).que = d.que := by unfold Dev.noteCommand; rw [Dev.setView_que]
@[simp] theorem Dev.noteCommand_tim (d : Dev) (ag : Agent) (g op : Nat) (st : CmdSt) : (d.noteCommand ag g op st).tim = d.tim := by unfold Dev.noteCommand; rw [Dev.setView_tim]
@[simp] theorem Dev.noteCommand_mtr (d : Dev) (ag : Agent) (g op : Nat) (st : CmdSt) : (d.noteCommand ag g op st).mtr = d.mtr := by unfold Dev.noteCommand; rw [Dev.setView_mtr]
@[simp] theorem Dev.noteCommand_bil (d : Dev) (ag : Agent) (g op : Nat) (st : CmdSt) : (d.noteCommand ag g op st).bil = d.bil := by unfold Dev.noteCommand; rw [Dev.setView_bil]
@[simp] theorem Dev.noteCommand_evc (d : Dev) (ag : Agent) (g op : Nat) (st : CmdSt) : (d.noteCommand ag g op st).evc = d.evc := by unfold Dev.noteCommand; rw [Dev.setView_evc]
@[simp] theorem Dev.noteCommand_kao (d : Dev) (ag : Agent) (g op : Nat) (st : CmdSt) : (d.noteCommand ag g op st).kao = d.kao := by unfold Dev.noteCommand; rw [Dev.setView_kao]
@[simp] theorem Dev.noteCommand_lsw (d : Dev) (ag : Agent) (g op : Nat) (st : CmdSt) : (d.noteCommand ag g op st).lsw = d.lsw := by unfold Dev.noteCommand; rw [Dev.setView_lsw]
@[simp] theorem Dev.noteCommand_plc (d : Dev) (ag : Agent) (g op : Nat) (st : CmdSt) : (d.noteCommand ag g op st).plc = d.plc := by unfold Dev.noteCommand; rw [Dev.setView_plc]
@[simp] theorem Dev.noteCommand_key (d : Dev) (ag : Agent) (g op : Nat) (st : CmdSt) : (d.noteCommand ag g op st).key = d.key := by unfold Dev.noteCommand; rw [Dev.setView_key]
@[simp] theorem Dev.noteCommand_tag (d : Dev) (ag : Agent) (g op : Nat) (st : CmdSt) : (d.noteCommand ag g op st).tag = d.tag := by unfold Dev.noteCommand; rw [Dev.setView_tag]
@[simp] theorem Dev.noteCommand_pnl (d : Dev) (ag : Agent) (g op : Nat) (st : CmdSt) : (d.noteCommand ag g op st).pnl = d.pnl := by unfold Dev.noteCommand; rw [Dev.setView_pnl]
@[simp] theorem Dev.noteCommand_sto (d : Dev) (ag : Agent) (g op : Nat) (st : CmdSt) : (d.noteCommand ag g op st).sto = d.sto := by unfold Dev.noteCommand; rw [Dev.setView_sto]
@[simp] theorem Dev.noteCommand_aul (d : Dev) (ag : Agent) (g op : Nat) (st : CmdSt) : (d.noteCommand ag g op st).aul = d.aul := by unfold Dev.noteCommand; rw [Dev.setView_aul]
@[simp] theorem Dev.noteCommand_pwr (d : Dev) (ag : Agent) (g op : Nat) (st : CmdSt) : (d.noteCommand ag g op st).pwr = d.pwr := by unfold Dev.noteCommand; rw [Dev.setView_pwr]
@[simp] theorem Dev.noteCommand_fresh (d : Dev) (ag : Agent) (g op : Nat) (st : CmdSt) : (d.noteCommand ag g op st).fresh = d.fresh := by unfold Dev.noteCommand; rw [Dev.setView_fresh]

@[simp] theorem Dev.completed_regs (d : Dev) (ag : Agent) (g op : Nat) : (d.completed ag g op).regs = d.regs := by unfold Dev.completed; rw [Dev.answer_regs, Dev.noteCommand_regs]
@[simp] theorem Dev.completed_staged (d : Dev) (ag : Agent) (g op : Nat) : (d.completed ag g op).staged = d.staged := by unfold Dev.completed; rw [Dev.answer_staged, Dev.noteCommand_staged]
@[simp] theorem Dev.completed_flags (d : Dev) (ag : Agent) (g op : Nat) : (d.completed ag g op).flags = d.flags := by unfold Dev.completed; rw [Dev.answer_flags, Dev.noteCommand_flags]
@[simp] theorem Dev.completed_coreA1 (d : Dev) (ag : Agent) (g op : Nat) : (d.completed ag g op).coreA1 = d.coreA1 := by unfold Dev.completed; rw [Dev.answer_coreA1, Dev.noteCommand_coreA1]
@[simp] theorem Dev.completed_coreReply (d : Dev) (ag : Agent) (g op : Nat) : (d.completed ag g op).coreReply = d.coreReply := by unfold Dev.completed; rw [Dev.answer_coreReply, Dev.noteCommand_coreReply]
@[simp] theorem Dev.completed_replies (d : Dev) (ag : Agent) (g op : Nat) : (d.completed ag g op).replies = d.replies := by unfold Dev.completed; rw [Dev.answer_replies, Dev.noteCommand_replies]
@[simp] theorem Dev.completed_busy (d : Dev) (ag : Agent) (g op : Nat) : (d.completed ag g op).busy = d.busy := by unfold Dev.completed; rw [Dev.answer_busy, Dev.noteCommand_busy]
@[simp] theorem Dev.completed_hung (d : Dev) (ag : Agent) (g op : Nat) : (d.completed ag g op).hung = d.hung := by unfold Dev.completed; rw [Dev.answer_hung, Dev.noteCommand_hung]
@[simp] theorem Dev.completed_resume (d : Dev) (ag : Agent) (g op : Nat) : (d.completed ag g op).resume = d.resume := by unfold Dev.completed; rw [Dev.answer_resume, Dev.noteCommand_resume]
@[simp] theorem Dev.completed_permLog (d : Dev) (ag : Agent) (g op : Nat) : (d.completed ag g op).permLog = d.permLog := by unfold Dev.completed; rw [Dev.answer_permLog, Dev.noteCommand_permLog]
@[simp] theorem Dev.completed_cfgLog (d : Dev) (ag : Agent) (g op : Nat) : (d.completed ag g op).cfgLog = d.cfgLog := by unfold Dev.completed; rw [Dev.answer_cfgLog, Dev.noteCommand_cfgLog]
@[simp] theorem Dev.completed_log (d : Dev) (ag : Agent) (g op : Nat) : (d.completed ag g op).log = d.log := by unfold Dev.completed; rw [Dev.answer_log, Dev.noteCommand_log]
@[simp] theorem Dev.completed_logSeq (d : Dev) (ag : Agent) (g op : Nat) : (d.completed ag g op).logSeq = d.logSeq := by unfold Dev.completed; rw [Dev.answer_logSeq, Dev.noteCommand_logSeq]
@[simp] theorem Dev.completed_islandRun (d : Dev) (ag : Agent) (g op : Nat) : (d.completed ag g op).islandRun = d.islandRun := by unfold Dev.completed; rw [Dev.answer_islandRun, Dev.noteCommand_islandRun]
@[simp] theorem Dev.completed_clockLost (d : Dev) (ag : Agent) (g op : Nat) : (d.completed ag g op).clockLost = d.clockLost := by unfold Dev.completed; rw [Dev.answer_clockLost, Dev.noteCommand_clockLost]
@[simp] theorem Dev.completed_img (d : Dev) (ag : Agent) (g op : Nat) : (d.completed ag g op).img = d.img := by unfold Dev.completed; rw [Dev.answer_img, Dev.noteCommand_img]
@[simp] theorem Dev.completed_que (d : Dev) (ag : Agent) (g op : Nat) : (d.completed ag g op).que = d.que := by unfold Dev.completed; rw [Dev.answer_que, Dev.noteCommand_que]
@[simp] theorem Dev.completed_tim (d : Dev) (ag : Agent) (g op : Nat) : (d.completed ag g op).tim = d.tim := by unfold Dev.completed; rw [Dev.answer_tim, Dev.noteCommand_tim]
@[simp] theorem Dev.completed_mtr (d : Dev) (ag : Agent) (g op : Nat) : (d.completed ag g op).mtr = d.mtr := by unfold Dev.completed; rw [Dev.answer_mtr, Dev.noteCommand_mtr]
@[simp] theorem Dev.completed_bil (d : Dev) (ag : Agent) (g op : Nat) : (d.completed ag g op).bil = d.bil := by unfold Dev.completed; rw [Dev.answer_bil, Dev.noteCommand_bil]
@[simp] theorem Dev.completed_evc (d : Dev) (ag : Agent) (g op : Nat) : (d.completed ag g op).evc = d.evc := by unfold Dev.completed; rw [Dev.answer_evc, Dev.noteCommand_evc]
@[simp] theorem Dev.completed_kao (d : Dev) (ag : Agent) (g op : Nat) : (d.completed ag g op).kao = d.kao := by unfold Dev.completed; rw [Dev.answer_kao, Dev.noteCommand_kao]
@[simp] theorem Dev.completed_lsw (d : Dev) (ag : Agent) (g op : Nat) : (d.completed ag g op).lsw = d.lsw := by unfold Dev.completed; rw [Dev.answer_lsw, Dev.noteCommand_lsw]
@[simp] theorem Dev.completed_plc (d : Dev) (ag : Agent) (g op : Nat) : (d.completed ag g op).plc = d.plc := by unfold Dev.completed; rw [Dev.answer_plc, Dev.noteCommand_plc]
@[simp] theorem Dev.completed_key (d : Dev) (ag : Agent) (g op : Nat) : (d.completed ag g op).key = d.key := by unfold Dev.completed; rw [Dev.answer_key, Dev.noteCommand_key]
@[simp] theorem Dev.completed_tag (d : Dev) (ag : Agent) (g op : Nat) : (d.completed ag g op).tag = d.tag := by unfold Dev.completed; rw [Dev.answer_tag, Dev.noteCommand_tag]
@[simp] theorem Dev.completed_pnl (d : Dev) (ag : Agent) (g op : Nat) : (d.completed ag g op).pnl = d.pnl := by unfold Dev.completed; rw [Dev.answer_pnl, Dev.noteCommand_pnl]
@[simp] theorem Dev.completed_sto (d : Dev) (ag : Agent) (g op : Nat) : (d.completed ag g op).sto = d.sto := by unfold Dev.completed; rw [Dev.answer_sto, Dev.noteCommand_sto]
@[simp] theorem Dev.completed_aul (d : Dev) (ag : Agent) (g op : Nat) : (d.completed ag g op).aul = d.aul := by unfold Dev.completed; rw [Dev.answer_aul, Dev.noteCommand_aul]
@[simp] theorem Dev.completed_pwr (d : Dev) (ag : Agent) (g op : Nat) : (d.completed ag g op).pwr = d.pwr := by unfold Dev.completed; rw [Dev.answer_pwr, Dev.noteCommand_pwr]
@[simp] theorem Dev.completed_fresh (d : Dev) (ag : Agent) (g op : Nat) : (d.completed ag g op).fresh = d.fresh := by unfold Dev.completed; rw [Dev.answer_fresh, Dev.noteCommand_fresh]

@[simp] theorem Dev.logEvent_regs (d : Dev) (g : Group) (e : Nat) (data : List Word) (ag : Option Agent) (sl : Nat) : (d.logEvent g e data ag sl).regs = d.regs := (rfl)
@[simp] theorem Dev.logEvent_staged (d : Dev) (g : Group) (e : Nat) (data : List Word) (ag : Option Agent) (sl : Nat) : (d.logEvent g e data ag sl).staged = d.staged := (rfl)
@[simp] theorem Dev.logEvent_views (d : Dev) (g : Group) (e : Nat) (data : List Word) (ag : Option Agent) (sl : Nat) : (d.logEvent g e data ag sl).views = d.views := (rfl)
@[simp] theorem Dev.logEvent_flags (d : Dev) (g : Group) (e : Nat) (data : List Word) (ag : Option Agent) (sl : Nat) : (d.logEvent g e data ag sl).flags = d.flags := (rfl)
@[simp] theorem Dev.logEvent_coreA1 (d : Dev) (g : Group) (e : Nat) (data : List Word) (ag : Option Agent) (sl : Nat) : (d.logEvent g e data ag sl).coreA1 = d.coreA1 := (rfl)
@[simp] theorem Dev.logEvent_reply (d : Dev) (g : Group) (e : Nat) (data : List Word) (ag : Option Agent) (sl : Nat) : (d.logEvent g e data ag sl).reply = d.reply := (rfl)
@[simp] theorem Dev.logEvent_coreReply (d : Dev) (g : Group) (e : Nat) (data : List Word) (ag : Option Agent) (sl : Nat) : (d.logEvent g e data ag sl).coreReply = d.coreReply := (rfl)
@[simp] theorem Dev.logEvent_replies (d : Dev) (g : Group) (e : Nat) (data : List Word) (ag : Option Agent) (sl : Nat) : (d.logEvent g e data ag sl).replies = d.replies := (rfl)
@[simp] theorem Dev.logEvent_busy (d : Dev) (g : Group) (e : Nat) (data : List Word) (ag : Option Agent) (sl : Nat) : (d.logEvent g e data ag sl).busy = d.busy := (rfl)
@[simp] theorem Dev.logEvent_hung (d : Dev) (g : Group) (e : Nat) (data : List Word) (ag : Option Agent) (sl : Nat) : (d.logEvent g e data ag sl).hung = d.hung := (rfl)
@[simp] theorem Dev.logEvent_resume (d : Dev) (g : Group) (e : Nat) (data : List Word) (ag : Option Agent) (sl : Nat) : (d.logEvent g e data ag sl).resume = d.resume := (rfl)
@[simp] theorem Dev.logEvent_permLog (d : Dev) (g : Group) (e : Nat) (data : List Word) (ag : Option Agent) (sl : Nat) : (d.logEvent g e data ag sl).permLog = d.permLog := (rfl)
@[simp] theorem Dev.logEvent_cfgLog (d : Dev) (g : Group) (e : Nat) (data : List Word) (ag : Option Agent) (sl : Nat) : (d.logEvent g e data ag sl).cfgLog = d.cfgLog := (rfl)
@[simp] theorem Dev.logEvent_islandRun (d : Dev) (g : Group) (e : Nat) (data : List Word) (ag : Option Agent) (sl : Nat) : (d.logEvent g e data ag sl).islandRun = d.islandRun := (rfl)
@[simp] theorem Dev.logEvent_clockLost (d : Dev) (g : Group) (e : Nat) (data : List Word) (ag : Option Agent) (sl : Nat) : (d.logEvent g e data ag sl).clockLost = d.clockLost := (rfl)
@[simp] theorem Dev.logEvent_img (d : Dev) (g : Group) (e : Nat) (data : List Word) (ag : Option Agent) (sl : Nat) : (d.logEvent g e data ag sl).img = d.img := (rfl)
@[simp] theorem Dev.logEvent_que (d : Dev) (g : Group) (e : Nat) (data : List Word) (ag : Option Agent) (sl : Nat) : (d.logEvent g e data ag sl).que = d.que := (rfl)
@[simp] theorem Dev.logEvent_tim (d : Dev) (g : Group) (e : Nat) (data : List Word) (ag : Option Agent) (sl : Nat) : (d.logEvent g e data ag sl).tim = d.tim := (rfl)
@[simp] theorem Dev.logEvent_mtr (d : Dev) (g : Group) (e : Nat) (data : List Word) (ag : Option Agent) (sl : Nat) : (d.logEvent g e data ag sl).mtr = d.mtr := (rfl)
@[simp] theorem Dev.logEvent_bil (d : Dev) (g : Group) (e : Nat) (data : List Word) (ag : Option Agent) (sl : Nat) : (d.logEvent g e data ag sl).bil = d.bil := (rfl)
@[simp] theorem Dev.logEvent_evc (d : Dev) (g : Group) (e : Nat) (data : List Word) (ag : Option Agent) (sl : Nat) : (d.logEvent g e data ag sl).evc = d.evc := (rfl)
@[simp] theorem Dev.logEvent_kao (d : Dev) (g : Group) (e : Nat) (data : List Word) (ag : Option Agent) (sl : Nat) : (d.logEvent g e data ag sl).kao = d.kao := (rfl)
@[simp] theorem Dev.logEvent_lsw (d : Dev) (g : Group) (e : Nat) (data : List Word) (ag : Option Agent) (sl : Nat) : (d.logEvent g e data ag sl).lsw = d.lsw := (rfl)
@[simp] theorem Dev.logEvent_plc (d : Dev) (g : Group) (e : Nat) (data : List Word) (ag : Option Agent) (sl : Nat) : (d.logEvent g e data ag sl).plc = d.plc := (rfl)
@[simp] theorem Dev.logEvent_key (d : Dev) (g : Group) (e : Nat) (data : List Word) (ag : Option Agent) (sl : Nat) : (d.logEvent g e data ag sl).key = d.key := (rfl)
@[simp] theorem Dev.logEvent_tag (d : Dev) (g : Group) (e : Nat) (data : List Word) (ag : Option Agent) (sl : Nat) : (d.logEvent g e data ag sl).tag = d.tag := (rfl)
@[simp] theorem Dev.logEvent_pnl (d : Dev) (g : Group) (e : Nat) (data : List Word) (ag : Option Agent) (sl : Nat) : (d.logEvent g e data ag sl).pnl = d.pnl := (rfl)
@[simp] theorem Dev.logEvent_sto (d : Dev) (g : Group) (e : Nat) (data : List Word) (ag : Option Agent) (sl : Nat) : (d.logEvent g e data ag sl).sto = d.sto := (rfl)
@[simp] theorem Dev.logEvent_aul (d : Dev) (g : Group) (e : Nat) (data : List Word) (ag : Option Agent) (sl : Nat) : (d.logEvent g e data ag sl).aul = d.aul := (rfl)
@[simp] theorem Dev.logEvent_pwr (d : Dev) (g : Group) (e : Nat) (data : List Word) (ag : Option Agent) (sl : Nat) : (d.logEvent g e data ag sl).pwr = d.pwr := (rfl)
@[simp] theorem Dev.logEvent_fresh (d : Dev) (g : Group) (e : Nat) (data : List Word) (ag : Option Agent) (sl : Nat) : (d.logEvent g e data ag sl).fresh = d.fresh := (rfl)

/-! ### The element that an update changes -/

/-- One element of a changed vector. -/
@[simp] theorem vmod_at {α : Type} {n : Nat} (v : Vector α n) (i k : Fin n) (g : α → α) :
    (vmod v i g)[k.val] = if k = i then g v[i.val] else v[k.val] := by
  unfold vmod
  by_cases h : k = i
  · subst h; simp
  · simp [h, show ¬ i.val = k.val from fun e => h (Fin.ext e.symm)]

@[simp] theorem Dev.updEvc_at (d : Dev) (i k : Fin 8) (f : EvcSlice → EvcSlice) :
    (d.updEvc i f).evc.s[k.val] = if k = i then f d.evc.s[i.val] else d.evc.s[k.val] := by simp [Dev.updEvc]

@[simp] theorem Dev.updGp_at (d : Dev) (i k : Fin 8) (f : Modem → Modem) :
    (d.updGp i f).evc.gp[k.val] = if k = i then f d.evc.gp[i.val] else d.evc.gp[k.val] := by simp [Dev.updGp]

@[simp] theorem Dev.updKao_at (d : Dev) (i k : Fin 8) (f : KaoSlice → KaoSlice) :
    (d.updKao i f).kao.m[k.val] = if k = i then f d.kao.m[i.val] else d.kao.m[k.val] := by simp [Dev.updKao]

@[simp] theorem Dev.updLsw_at (d : Dev) (i k : Fin 16) (f : LswChan → LswChan) :
    (d.updLsw i f).lsw.c[k.val] = if k = i then f d.lsw.c[i.val] else d.lsw.c[k.val] := by simp [Dev.updLsw]

@[simp] theorem Dev.updEng_at (d : Dev) (i k : Fin 9) (f : Engine → Engine) :
    (d.updEng i f).mtr.eng[k.val] = if k = i then f d.mtr.eng[i.val] else d.mtr.eng[k.val] := by simp [Dev.updEng]

@[simp] theorem Dev.updCh_at (d : Dev) (i k : Fin 64) (f : Chan → Chan) :
    (d.updCh i f).mtr.ch[k.val] = if k = i then f d.mtr.ch[i.val] else d.mtr.ch[k.val] := by simp [Dev.updCh]

@[simp] theorem Dev.updPulse_at (d : Dev) (i k : Fin 4) (f : Pulse → Pulse) :
    (d.updPulse i f).mtr.pulse[k.val] = if k = i then f d.mtr.pulse[i.val] else d.mtr.pulse[k.val] := by simp [Dev.updPulse]

@[simp] theorem Dev.updBil_at (d : Dev) (i k : Fin 8) (f : BilSlice → BilSlice) :
    (d.updBil i f).bil.s[k.val] = if k = i then f d.bil.s[i.val] else d.bil.s[k.val] := by simp [Dev.updBil]

@[simp] theorem Dev.updQ_at (d : Dev) (i k : Fin 64) (f : Queue → Queue) :
    (d.updQ i f).que.q[k.val] = if k = i then f d.que.q[i.val] else d.que.q[k.val] := by simp [Dev.updQ]

@[simp] theorem Dev.updSpace_at (d : Dev) (i k : Fin 13) (f : IdSpace → IdSpace) :
    (d.updSpace i f).que.spaces[k.val] = if k = i then f d.que.spaces[i.val] else d.que.spaces[k.val] := by simp [Dev.updSpace]

@[simp] theorem Dev.updKey_at (d : Dev) (i k : Fin 64) (f : KeySlot → KeySlot) :
    (d.updKey i f).key.slots[k.val] = if k = i then f d.key.slots[i.val] else d.key.slots[k.val] := by simp [Dev.updKey]

@[simp] theorem Dev.updRgn_at (d : Dev) (i k : Fin 16) (f : Region → Region) :
    (d.updRgn i f).pnl.r[k.val] = if k = i then f d.pnl.r[i.val] else d.pnl.r[k.val] := by simp [Dev.updRgn]

@[simp] theorem Dev.updCmp_at (d : Dev) (i k : Fin 16) (f : Cmp → Cmp) :
    (d.updCmp i f).tim.cmp[k.val] = if k = i then f d.tim.cmp[i.val] else d.tim.cmp[k.val] := by simp [Dev.updCmp]

@[simp] theorem Dev.updPort_port (d : Dev) (p q : Bool) (f : Port → Port) :
    (d.updPort p f).port q = if p = q then f (d.port p) else d.port q := by
  cases p <;> cases q <;> rfl

@[simp] theorem Dev.setFunc_views (d : Dev) (g : Group) (u : Nat) (f : Func) : (d.setFunc g u f).views = d.views := by
  unfold Dev.setFunc; (repeat' split) <;> rfl

end Sys2Proof.Machine
end

