-- ==== Sys2Proof/Laws/Commands.lean ====
section
/-! SUPPORT. Issuing a command and accessing a register (R83): what each can do, said once. -/

namespace Sys2Proof.Machine

/-- A command that passes the first three checks: what its own checks and effect answer decides. -/
theorem issueCommand_ready {d : Dev} {ag : Agent} {g u op : Nat} {arg : BitVec 24} {h : Dev → CmdSt × Dev}
    (hr : d.ready ag g u) :
    issueCommand ag g op arg u h d = (match h d with
      | (.state t, _) => (d.noteCommand ag g op (.state t)).stateReject ag g u op t
      | (.perm, _) => (d.noteCommand ag g op .perm).permReject ag g
      | (.pending, d1) => d1.accepted ag g op arg
      | (st, d1) => (d1.noteCommand ag g op st).answer ag st) := by
  obtain ⟨h1, h2, h3⟩ := hr
  unfold issueCommand Dev.accepted
  rw [if_neg (by simp [h1]), if_neg (by simp [h2]), if_neg (by simp [h3])]
  rfl

/-- A command that completes with OK. -/
theorem issueCommand_ok {d d1 : Dev} {ag : Agent} {g u op : Nat} {arg : BitVec 24} {h : Dev → CmdSt × Dev}
    (hr : d.ready ag g u) (hh : h d = (.ok, d1)) : issueCommand ag g op arg u h d = d1.completed ag g op := by
  rw [issueCommand_ready hr, hh]; rfl

/-- A command that is accepted and runs on. -/
theorem issueCommand_pending {d d1 : Dev} {ag : Agent} {g u op : Nat} {arg : BitVec 24} {h : Dev → CmdSt × Dev}
    (hr : d.ready ag g u) (hh : h d = (.pending, d1)) : issueCommand ag g op arg u h d = d1.accepted ag g op arg := by
  rw [issueCommand_ready hr, hh]

/-- A command that its target's state refuses. -/
theorem issueCommand_state {d d1 : Dev} {ag : Agent} {g u op t : Nat} {arg : BitVec 24} {h : Dev → CmdSt × Dev}
    (hr : d.ready ag g u) (hh : h d = (.state t, d1)) :
    issueCommand ag g op arg u h d = (d.noteCommand ag g op (.state t)).stateReject ag g u op t := by
  rw [issueCommand_ready hr, hh]

/-- A command whose argument is refused. -/
theorem issueCommand_arg {d d1 : Dev} {ag : Agent} {g u op : Nat} {arg : BitVec 24} {h : Dev → CmdSt × Dev}
    (hr : d.ready ag g u) (hh : h d = (.arg, d1)) :
    issueCommand ag g op arg u h d = (d1.noteCommand ag g op .arg).answer ag .arg := by
  rw [issueCommand_ready hr, hh]

/-- A write of a register that no check refuses. -/
theorem writeAccess_run {d d1 : Dev} {ag : Agent} {g u a : Nat} {h : Dev → CmdSt × Dev} {st : CmdSt}
    (hr : d.canWrite ag g u) (hh : h d = (st, d1)) (hst : st ≠ .perm) : writeAccess ag g u a h d = d1.answer ag st := by
  obtain ⟨h1, h2, h3⟩ := hr
  unfold writeAccess
  rw [if_neg (by simp [h1]), if_neg (by simp [h2]), h3, hh]
  cases st <;> first | rfl | exact absurd rfl hst

/-- An access of an agent that is not there changes nothing (R83 check 1). -/
theorem issueCommand_absent {d : Dev} {ag : Agent} {g u op : Nat} {arg : BitVec 24} {h : Dev → CmdSt × Dev}
    (hr : d.canIssue ag = false) : issueCommand ag g op arg u h d = d := by
  unfold issueCommand; rw [if_pos (by simp [hr])]

/-- The status an answer shows. -/
@[simp] theorem Dev.answer_reply (d : Dev) (ag : Agent) (st : CmdSt) (v : Word) :
    (d.answer ag st v).reply = { agent := ag, status := BitVec.ofNat 8 st.code, data := v } := rfl

/-- A command that completed with OK answered OK. -/
@[simp] theorem Dev.completed_reply (d : Dev) (ag : Agent) (g op : Nat) :
    (d.completed ag g op).reply = { agent := ag, status := 0, data := 0 } := rfl

end Sys2Proof.Machine
end

