-- ==== Sys2Proof/Laws/Flags.lean ====
section
/-! SUPPORT. The flag registers: a register after one is stored, a bit after a hardware set, and that a set clears none. -/

namespace Sys2Proof.Machine

theorem find_putFlag (l : List (Nat × FlagReg)) (a b : Nat) (f : FlagReg) :
    ((Machine.putFlag l a f).find? fun e => e.1 = b) = if a = b then some (a, f) else l.find? fun e => e.1 = b := by
  induction l with
  | nil => simp [Machine.putFlag]
  | cons x xs ih =>
    obtain ⟨k, g⟩ := x
    simp only [Machine.putFlag]
    split
    · simp [List.find?_cons]; split <;> simp_all
    · split
      · subst_vars; by_cases hh : k = b <;> simp [hh]
      · simp only [List.find?_cons, ih]
        by_cases h : k = b
        · subst h; simp; intro h; exact absurd h ‹_›
        · simp [h]

/-- A flag register after one is stored. -/
theorem Dev.flagReg_putFlag (d : Dev) (a b : Nat) (f : FlagReg) :
    (d.putFlag a f).flagReg b = if a = b then f else d.flagReg b := by
  unfold Dev.flagReg Dev.putFlag
  simp only [find_putFlag]; split <;> simp

/-- A flag bit after a hardware set. -/
theorem Dev.flagBit_raise (d : Dev) (g u off mask g' u' off' b : Nat) (hb : b < 16) :
    (d.raise g u off mask).flagBit g' u' off' b =
      if lattice g u off = lattice g' u' off' then (d.flagBit g u off b || mask.testBit b) else d.flagBit g' u' off' b := by
  unfold Dev.flagBit Dev.raise
  rw [Dev.flagReg_putFlag]
  split
  · simp only [FlagReg.raise, BitVec.getLsbD_or, BitVec.getLsbD_ofNat]; simp [hb]
  · rfl

/-- The bit that a hardware set sets. -/
theorem Dev.flagBit_raise_self (d : Dev) (g u off mask b : Nat) (hb : b < 16) (hm : mask.testBit b = true) :
    (d.raise g u off mask).flagBit g u off b = true := by
  rw [Dev.flagBit_raise _ _ _ _ _ _ _ _ _ hb]; simp [hm]

/-! One hardware event changes nothing but the counts of the flag registers. -/

@[simp] theorem Dev.oneEvent_regs (d : Dev) (f : Dev → Dev) : (d.oneEvent f).regs = (f d).regs := rfl
@[simp] theorem Dev.oneEvent_staged (d : Dev) (f : Dev → Dev) : (d.oneEvent f).staged = (f d).staged := rfl
@[simp] theorem Dev.oneEvent_views (d : Dev) (f : Dev → Dev) : (d.oneEvent f).views = (f d).views := rfl
@[simp] theorem Dev.oneEvent_coreA1 (d : Dev) (f : Dev → Dev) : (d.oneEvent f).coreA1 = (f d).coreA1 := rfl
@[simp] theorem Dev.oneEvent_reply (d : Dev) (f : Dev → Dev) : (d.oneEvent f).reply = (f d).reply := rfl
@[simp] theorem Dev.oneEvent_coreReply (d : Dev) (f : Dev → Dev) : (d.oneEvent f).coreReply = (f d).coreReply := rfl
@[simp] theorem Dev.oneEvent_replies (d : Dev) (f : Dev → Dev) : (d.oneEvent f).replies = (f d).replies := rfl
@[simp] theorem Dev.oneEvent_busy (d : Dev) (f : Dev → Dev) : (d.oneEvent f).busy = (f d).busy := rfl
@[simp] theorem Dev.oneEvent_hung (d : Dev) (f : Dev → Dev) : (d.oneEvent f).hung = (f d).hung := rfl
@[simp] theorem Dev.oneEvent_resume (d : Dev) (f : Dev → Dev) : (d.oneEvent f).resume = (f d).resume := rfl
@[simp] theorem Dev.oneEvent_permLog (d : Dev) (f : Dev → Dev) : (d.oneEvent f).permLog = (f d).permLog := rfl
@[simp] theorem Dev.oneEvent_cfgLog (d : Dev) (f : Dev → Dev) : (d.oneEvent f).cfgLog = (f d).cfgLog := rfl
@[simp] theorem Dev.oneEvent_log (d : Dev) (f : Dev → Dev) : (d.oneEvent f).log = (f d).log := rfl
@[simp] theorem Dev.oneEvent_logSeq (d : Dev) (f : Dev → Dev) : (d.oneEvent f).logSeq = (f d).logSeq := rfl
@[simp] theorem Dev.oneEvent_islandRun (d : Dev) (f : Dev → Dev) : (d.oneEvent f).islandRun = (f d).islandRun := rfl
@[simp] theorem Dev.oneEvent_clockLost (d : Dev) (f : Dev → Dev) : (d.oneEvent f).clockLost = (f d).clockLost := rfl
@[simp] theorem Dev.oneEvent_img (d : Dev) (f : Dev → Dev) : (d.oneEvent f).img = (f d).img := rfl
@[simp] theorem Dev.oneEvent_que (d : Dev) (f : Dev → Dev) : (d.oneEvent f).que = (f d).que := rfl
@[simp] theorem Dev.oneEvent_tim (d : Dev) (f : Dev → Dev) : (d.oneEvent f).tim = (f d).tim := rfl
@[simp] theorem Dev.oneEvent_mtr (d : Dev) (f : Dev → Dev) : (d.oneEvent f).mtr = (f d).mtr := rfl
@[simp] theorem Dev.oneEvent_bil (d : Dev) (f : Dev → Dev) : (d.oneEvent f).bil = (f d).bil := rfl
@[simp] theorem Dev.oneEvent_evc (d : Dev) (f : Dev → Dev) : (d.oneEvent f).evc = (f d).evc := rfl
@[simp] theorem Dev.oneEvent_lsw (d : Dev) (f : Dev → Dev) : (d.oneEvent f).lsw = (f d).lsw := rfl
@[simp] theorem Dev.oneEvent_plc (d : Dev) (f : Dev → Dev) : (d.oneEvent f).plc = (f d).plc := rfl
@[simp] theorem Dev.oneEvent_key (d : Dev) (f : Dev → Dev) : (d.oneEvent f).key = (f d).key := rfl
@[simp] theorem Dev.oneEvent_tag (d : Dev) (f : Dev → Dev) : (d.oneEvent f).tag = (f d).tag := rfl
@[simp] theorem Dev.oneEvent_pnl (d : Dev) (f : Dev → Dev) : (d.oneEvent f).pnl = (f d).pnl := rfl
@[simp] theorem Dev.oneEvent_sto (d : Dev) (f : Dev → Dev) : (d.oneEvent f).sto = (f d).sto := rfl
@[simp] theorem Dev.oneEvent_aul (d : Dev) (f : Dev → Dev) : (d.oneEvent f).aul = (f d).aul := rfl
@[simp] theorem Dev.oneEvent_pwr (d : Dev) (f : Dev → Dev) : (d.oneEvent f).pwr = (f d).pwr := rfl
@[simp] theorem Dev.oneEvent_fresh (d : Dev) (f : Dev → Dev) : (d.oneEvent f).fresh = (f d).fresh := rfl

/-- The flag registers after one hardware event: those of the run, each counted once. -/
theorem Dev.flagReg_oneEvent (d : Dev) (f : Dev → Dev) (a : Nat) (h : ((f d).flags.find? fun e => e.1 = a).isSome) :
    (d.oneEvent f).flagReg a = (d.flagReg a).joined ((f d).flagReg a) := by
  unfold Dev.oneEvent
  rw [show ({ f d with flags := (f d).flags.map fun (e : Nat × FlagReg) => (e.1, (d.flagReg e.1).joined e.2) } : Dev).flagReg a =
    ((((f d).flags.map fun (e : Nat × FlagReg) => (e.1, (d.flagReg e.1).joined e.2)).find? fun e => e.1 = a).map (·.2)).getD {} from rfl,
    show (f d).flagReg a = ((((f d).flags).find? fun e => e.1 = a).map (·.2)).getD {} from rfl, List.find?_map]
  obtain ⟨e, he⟩ := Option.isSome_iff_exists.mp h
  have hk : e.1 = a := by simpa using List.find?_some he
  have he' : List.find? ((fun e => decide (e.1 = a)) ∘ fun (e : Nat × FlagReg) => (e.1, (d.flagReg e.1).joined e.2)) (f d).flags = some e := he
  rw [he', he]; simp [hk]

/-- One hardware event leaves the bits as the run set them. -/
@[simp] theorem FlagReg.joined_bits (old new : FlagReg) : (old.joined new).bits = new.bits := by
  unfold FlagReg.joined; split <;> rfl

/-- One hardware event raises the count by at most 1. -/
theorem FlagReg.joined_count (old new : FlagReg) :
    (old.joined new).count = if new.count = old.count then old.count else (old.count + 1) % 2 ^ 48 := by
  unfold FlagReg.joined; split <;> simp_all

/-- A flag bit after one hardware event. -/
@[simp] theorem Dev.flagBit_oneEvent (d : Dev) (f : Dev → Dev) (g u off b : Nat) :
    (d.oneEvent f).flagBit g u off b = (f d).flagBit g u off b := by
  unfold Dev.flagBit
  by_cases h : ((f d).flags.find? fun e => e.1 = lattice g u off).isSome
  · rw [Dev.flagReg_oneEvent d f _ h]; simp
  · have hn : (f d).flags.find? (fun e => decide (e.1 = lattice g u off)) = none := Option.not_isSome_iff_eq_none.mp h
    have hm : List.find? ((fun e => decide (e.1 = lattice g u off)) ∘ fun (e : Nat × FlagReg) => (e.1, (d.flagReg e.1).joined e.2))
        (f d).flags = none := hn
    rw [show (f d).flagReg (lattice g u off) = ((((f d).flags).find? fun e => e.1 = lattice g u off).map (·.2)).getD {} from rfl,
      show (d.oneEvent f).flagReg (lattice g u off) =
        ((((f d).flags.map fun (e : Nat × FlagReg) => (e.1, (d.flagReg e.1).joined e.2)).find? fun e => e.1 = lattice g u off).map (·.2)).getD {}
        from rfl, List.find?_map, hm, hn]; rfl

/-- A flag bit depends on the flag registers only. -/
theorem Dev.flagBit_congr {d e : Dev} (h : d.flags = e.flags) (g u off b : Nat) : d.flagBit g u off b = e.flagBit g u off b := by
  unfold Dev.flagBit Dev.flagReg; rw [h]

/-- A hardware set clears no bit. -/
theorem Dev.flagBit_raise_mono (d : Dev) (g u off mask g' u' off' b : Nat) (hb : b < 16) (h : d.flagBit g' u' off' b = true) :
    (d.raise g u off mask).flagBit g' u' off' b = true := by
  rw [Dev.flagBit_raise _ _ _ _ _ _ _ _ _ hb]
  split
  · rename_i he
    have : d.flagBit g u off b = d.flagBit g' u' off' b := by unfold Dev.flagBit; rw [he]
    simp [this, h]
  · exact h

/-- A read keeps the count for the reading agent alone (R94). -/
theorem FlagReg.keptOf_noteRead (f : FlagReg) (ag other : Nat) (h : other < 6) :
    (f.noteRead ag).keptOf other = if other = ag then f.count else f.keptOf other := by
  unfold FlagReg.keptOf FlagReg.noteRead
  simp [h]

end Sys2Proof.Machine
end

