-- ==== Sys2Proof/Laws/KaolinFrame.lean ====
section
/-! SUPPORT. Which operations leave Kaolin's state as it was: one lemma per operation, named after it. The operations that
change it are in KaolinGuard.lean. -/

namespace Sys2Proof.Machine

@[simp] theorem Dev_bootCommit_kao (d : Dev) : (Dev.bootCommit d).kao = d.kao := by
  unfold Dev.bootCommit; dsimp only; split <;> rfl

/-- A fold keeps what each of its steps keeps. -/
@[simp] theorem foldl_kao {α : Type} (l : List α) (g : Dev → α → Dev) (d : Dev) (h : ∀ a x, (g a x).kao = a.kao) :
    (l.foldl g d).kao = d.kao := by
  induction l generalizing d with
  | nil => rfl
  | cons x xs ih => rw [List.foldl_cons, ih, h]

@[simp] theorem Dev_setReg_kao (d : Dev) (g u off : Nat) (v : Word) : (Dev.setReg d g u off v).kao = d.kao := by
  simp [Dev.setReg]

@[simp] theorem Dev_setRfld_kao (d : Dev) (g u off hi lo v : Nat) : (Dev.setRfld d g u off hi lo v).kao = d.kao := by
  simp [Dev.setRfld]

@[simp] theorem Dev_count_kao (d : Dev) (g u off hi lo : Nat) (k : Nat) : (Dev.count d g u off hi lo k).kao = d.kao := by
  simp [Dev.count]

@[simp] theorem Dev_countMod_kao (d : Dev) (g u off hi lo : Nat) (k : Nat) :
    (Dev.countMod d g u off hi lo k).kao = d.kao := by
  simp [Dev.countMod]

@[simp] theorem Dev_setView_kao (d : Dev) (ag : Agent) (addr : Nat) (v : Word) : (Dev.setView d ag addr v).kao = d.kao := by
  simp [Dev.setView]

@[simp] theorem Dev_setViewBytes_kao (d : Dev) (ag : Agent) (a n : Nat) (bs : List Byte) :
    (Dev.setViewBytes d ag a n bs).kao = d.kao := by
  induction n generalizing d a bs with
  | zero => rfl
  | succ n ih => unfold Dev.setViewBytes; rw [ih]; simp

@[simp] theorem Dev_draw_kao (d : Dev) : (Dev.draw d).2.kao = d.kao := by
  simp [Dev.draw]

@[simp] theorem Dev_round_kao (d : Dev) (q : Rat) : (Dev.round d q).2.kao = d.kao := by
  unfold Dev.round; split <;> simp

@[simp] theorem Dev_logEvent_kao (d : Dev) (g : Group) (event : Nat) (data : List Word) (ag : Option Agent) (sl : Nat) :
    (Dev.logEvent d g event data ag sl).kao = d.kao := by
  simp [Dev.logEvent]

@[simp] theorem Dev_setRun_kao (d : Dev) (i : Nat) (on : Bool) : (Dev.setRun d i on).kao = d.kao := by
  simp [Dev.setRun]

@[simp] theorem Dev_putInt_kao (d : Dev) (g u off : Nat) (v : Int) : (Dev.putInt d g u off v).kao = d.kao := by
  unfold Dev.putInt; split <;> simp

@[simp] theorem Dev_putNat_kao (d : Dev) (g u off v : Nat) : (Dev.putNat d g u off v).kao = d.kao := by
  unfold Dev.putNat; split <;> simp

@[simp] theorem Dev_updEvc_kao (d : Dev) (n : Fin 8) (fr : EvcSlice → EvcSlice) : (Dev.updEvc d n fr).kao = d.kao := by
  simp [Dev.updEvc]

@[simp] theorem Dev_updGp_kao (d : Dev) (n : Fin 8) (fr : Modem → Modem) : (Dev.updGp d n fr).kao = d.kao := by
  simp [Dev.updGp]

@[simp] theorem Dev_updLsw_kao (d : Dev) (c : Fin 16) (fr : LswChan → LswChan) : (Dev.updLsw d c fr).kao = d.kao := by
  simp [Dev.updLsw]

@[simp] theorem Dev_updEng_kao (d : Dev) (u : Fin 9) (fr : Engine → Engine) : (Dev.updEng d u fr).kao = d.kao := by
  simp [Dev.updEng]

@[simp] theorem Dev_updCh_kao (d : Dev) (c : Fin 64) (fr : Chan → Chan) : (Dev.updCh d c fr).kao = d.kao := by
  simp [Dev.updCh]

@[simp] theorem Dev_updPulse_kao (d : Dev) (p : Fin 4) (fr : Pulse → Pulse) : (Dev.updPulse d p fr).kao = d.kao := by
  simp [Dev.updPulse]

@[simp] theorem Dev_updBil_kao (d : Dev) (n : Fin 8) (fr : BilSlice → BilSlice) : (Dev.updBil d n fr).kao = d.kao := by
  simp [Dev.updBil]

@[simp] theorem Dev_updQ_kao (d : Dev) (q : Fin 64) (fr : Queue → Queue) : (Dev.updQ d q fr).kao = d.kao := by
  simp [Dev.updQ]

@[simp] theorem Dev_updSpace_kao (d : Dev) (s : Fin 13) (fr : IdSpace → IdSpace) : (Dev.updSpace d s fr).kao = d.kao := by
  simp [Dev.updSpace]

@[simp] theorem Dev_updKey_kao (d : Dev) (k : Fin 64) (fr : KeySlot → KeySlot) : (Dev.updKey d k fr).kao = d.kao := by
  simp [Dev.updKey]

@[simp] theorem Dev_updRgn_kao (d : Dev) (r : Fin 16) (fr : Region → Region) : (Dev.updRgn d r fr).kao = d.kao := by
  simp [Dev.updRgn]

@[simp] theorem Dev_updCmp_kao (d : Dev) (c : Fin 16) (fr : Cmp → Cmp) : (Dev.updCmp d c fr).kao = d.kao := by
  simp [Dev.updCmp]

@[simp] theorem Dev_updPort_kao (d : Dev) (portB : Bool) (fr : Port → Port) : (Dev.updPort d portB fr).kao = d.kao := by
  unfold Dev.updPort; split <;> simp

@[simp] theorem Dev_setFunc_kao (d : Dev) (g : Group) (u : Nat) (fr : Func) : (Dev.setFunc d g u fr).kao = d.kao := by
  unfold Dev.setFunc; (repeat' split) <;> simp

@[simp] theorem Dev_swapUnit_kao (d : Dev) (g u : Nat) : (Dev.swapUnit d g u).kao = d.kao := by
  simp [Dev.swapUnit]

@[simp] theorem Dev_dropStaged_kao (d : Dev) (g u : Nat) : (Dev.dropStaged d g u).kao = d.kao := by
  simp [Dev.dropStaged]

@[simp] theorem Dev_defaultUnit_kao (d : Dev) (g u : Nat) : (Dev.defaultUnit d g u).kao = d.kao := by
  simp [Dev.defaultUnit]

@[simp] theorem Dev_putFlag_kao (d : Dev) (addr : Nat) (fr : FlagReg) : (Dev.putFlag d addr fr).kao = d.kao := by
  simp [Dev.putFlag]

@[simp] theorem Dev_oneEvent_kao (d : Dev) (f : Dev → Dev) : (d.oneEvent f).kao = (f d).kao := rfl

@[simp] theorem Dev_raise_kao (d : Dev) (g u off mask : Nat) : (Dev.raise d g u off mask).kao = d.kao := by
  simp [Dev.raise]

@[simp] theorem Dev_raiseSys_kao (d : Dev) (b : Nat) : (Dev.raiseSys d b).kao = d.kao := by
  simp [Dev.raiseSys]

@[simp] theorem Dev_raiseTim_kao (d : Dev) (b : Nat) : (Dev.raiseTim d b).kao = d.kao := by
  simp [Dev.raiseTim]

@[simp] theorem Dev_raiseQue_kao (d : Dev) (q b : Nat) : (Dev.raiseQue d q b).kao = d.kao := by
  simp [Dev.raiseQue]

@[simp] theorem Dev_raiseMtr_kao (d : Dev) (u b : Nat) : (Dev.raiseMtr d u b).kao = d.kao := by
  simp [Dev.raiseMtr]

@[simp] theorem Dev_raiseBil_kao (d : Dev) (n b : Nat) : (Dev.raiseBil d n b).kao = d.kao := by
  simp [Dev.raiseBil]

@[simp] theorem Dev_raiseEvc_kao (d : Dev) (n b : Nat) : (Dev.raiseEvc d n b).kao = d.kao := by
  simp [Dev.raiseEvc]

@[simp] theorem Dev_raiseKao_kao (d : Dev) (b : Nat) : (Dev.raiseKao d b).kao = d.kao := by
  simp [Dev.raiseKao]

@[simp] theorem Dev_raiseLsw_kao (d : Dev) (b : Nat) : (Dev.raiseLsw d b).kao = d.kao := by
  simp [Dev.raiseLsw]

@[simp] theorem Dev_raisePlc_kao (d : Dev) (b : Nat) : (Dev.raisePlc d b).kao = d.kao := by
  simp [Dev.raisePlc]

@[simp] theorem Dev_raiseAul_kao (d : Dev) (b : Nat) : (Dev.raiseAul d b).kao = d.kao := by
  simp [Dev.raiseAul]

@[simp] theorem Dev_raiseKey_kao (d : Dev) (b : Nat) : (Dev.raiseKey d b).kao = d.kao := by
  simp [Dev.raiseKey]

@[simp] theorem Dev_raiseTag_kao (d : Dev) (b : Nat) : (Dev.raiseTag d b).kao = d.kao := by
  simp [Dev.raiseTag]

@[simp] theorem Dev_raisePnl_kao (d : Dev) (b : Nat) : (Dev.raisePnl d b).kao = d.kao := by
  simp [Dev.raisePnl]

@[simp] theorem Dev_raiseSto_kao (d : Dev) (b : Nat) : (Dev.raiseSto d b).kao = d.kao := by
  simp [Dev.raiseSto]

@[simp] theorem Dev_raiseImg_kao (d : Dev) (b : Nat) : (Dev.raiseImg d b).kao = d.kao := by
  simp [Dev.raiseImg]

@[simp] theorem Dev_raisePwr_kao (d : Dev) (b : Nat) : (Dev.raisePwr d b).kao = d.kao := by
  simp [Dev.raisePwr]

@[simp] theorem Dev_answer_kao (d : Dev) (ag : Agent) (st : CmdSt) (data : Word) :
    (Dev.answer d ag st data).kao = d.kao := by
  simp [Dev.answer]

@[simp] theorem Dev_permReject_kao (d : Dev) (ag : Agent) (g : Nat) : (Dev.permReject d ag g).kao = d.kao := by
  unfold Dev.permReject; (repeat' split) <;> simp

@[simp] theorem Dev_stateReject_kao (d : Dev) (ag : Agent) (g u op target : Nat) :
    (Dev.stateReject d ag g u op target).kao = d.kao := by
  simp [Dev.stateReject]

@[simp] theorem Dev_noteCommand_kao (d : Dev) (ag : Agent) (g op : Nat) (st : CmdSt) :
    (Dev.noteCommand d ag g op st).kao = d.kao := by
  simp [Dev.noteCommand]

@[simp] theorem Dev_endCommand_kao (d : Dev) (g : Nat) (st : CmdSt) : (Dev.endCommand d g st).kao = d.kao := by
  unfold Dev.endCommand; dsimp only; (repeat' split) <;> simp

@[simp] theorem issueCommand_kao (ag : Agent) (g op : Nat) (arg : BitVec 24) (u : Nat) (h : Dev → CmdSt × Dev) (d : Dev)
    (hk : (h d).2.kao = d.kao) : (issueCommand ag g op arg u h d).kao = d.kao := by
  unfold issueCommand
  split
  · rfl
  · split
    · simp
    · split
      · simp
      · split <;> rename_i he <;> (try rw [he] at hk) <;> simp_all

@[simp] theorem noArg_kao (arg : BitVec 24) (h : Dev → CmdSt × Dev) (d : Dev) (hk : (h d).2.kao = d.kao) :
    (noArg arg h d).2.kao = d.kao := by
  unfold noArg; split <;> simp [hk]

@[simp] theorem Dev_hang_kao (d : Dev) (ag : Agent) (isl addr : Nat) : (Dev.hang d ag isl addr).kao = d.kao := by
  simp [Dev.hang]

@[simp] theorem writeAccess_kao (ag : Agent) (g u a : Nat) (h : Dev → CmdSt × Dev) (d : Dev) (hk : (h d).2.kao = d.kao) :
    (writeAccess ag g u a h d).kao = d.kao := by
  unfold writeAccess
  split
  · rfl
  · split
    · simp
    · split
      · simp
      · split <;> rename_i he <;> (try rw [he] at hk) <;> simp_all

@[simp] theorem readAccess_kao (ag : Agent) (g u a : Nat) (h : Dev → CmdSt × Word × Dev) (d : Dev) (hk : (h d).2.2.kao = d.kao) :
    (readAccess ag g u a h d).kao = d.kao := by
  unfold readAccess
  split
  · rfl
  · split
    · simp
    · split
      · simp
      · split <;> rename_i he <;> (try rw [he] at hk) <;> simp_all

@[simp] theorem Dev_writeFields_kao (d : Dev) (row : RegDef) (addr : Nat) (hold : Nat) (data : Word) :
    (Dev.writeFields d row addr hold data).kao = d.kao := by
  unfold Dev.writeFields; simp [apply_ite Dev.kao]

@[simp] theorem Dev_advanceAt_kao (d : Dev) (rate target : Nat) : (Dev.advanceAt d rate target).kao = d.kao := by
  simp [Dev.advanceAt]

@[simp] theorem Dev_advance_kao (d : Dev) (target : Nat) : (Dev.advance d target).kao = d.kao := by
  unfold Dev.advance; dsimp only; (repeat' split) <;> simp

@[simp] theorem Dev_countTrial_kao (d : Dev) (before : Nat) : (Dev.countTrial d before).kao = d.kao := by
  unfold Dev.countTrial; split <;> simp

@[simp] theorem Dev_tick_kao (d : Dev) : (Dev.tick d).kao = d.kao := by
  unfold Dev.tick; split <;> simp

@[simp] theorem Dev_ran_kao (d : Dev) (key : Nat) : (Dev.ran d key).kao = d.kao := by
  simp [Dev.ran]

@[simp] theorem Dev_noteErr_kao (d : Dev) : (Dev.noteErr d).kao = d.kao := by
  simp [Dev.noteErr]

@[simp] theorem Dev_holdover_kao (d : Dev) : (Dev.holdover d).kao = d.kao := by
  unfold Dev.holdover; split <;> simp

@[simp] theorem Dev_servoOffset_kao (d : Dev) (mesh : Bool) (off : Int) : (Dev.servoOffset d mesh off).kao = d.kao := by
  unfold Dev.servoOffset; simp [apply_ite Dev.kao]

@[simp] theorem Dev_servoLock_kao (d : Dev) (offs : List Int) : (Dev.servoLock d offs).kao = d.kao := by
  unfold Dev.servoLock; rw [Dev_oneEvent_kao]; simp [apply_ite Dev.kao]

@[simp] theorem Dev_servoEnd_kao (d : Dev) : (Dev.servoEnd d).kao = d.kao := by
  unfold Dev.servoEnd; simp [apply_ite Dev.kao]

@[simp] theorem Dev_servoIntervalEnd_kao (d : Dev) : (Dev.servoIntervalEnd d).kao = d.kao := by
  unfold Dev.servoIntervalEnd; (repeat' split) <;> simp

@[simp] theorem Dev_servoStop_kao (d : Dev) : (Dev.servoStop d).kao = d.kao := by
  simp [Dev.servoStop]

@[simp] theorem Dev_servoStart_kao (d : Dev) : (Dev.servoStart d).kao = d.kao := by
  simp [Dev.servoStart]

@[simp] theorem Dev_servoRestart_kao (d : Dev) : (Dev.servoRestart d).kao = d.kao := by
  simp [Dev.servoRestart]

@[simp] theorem Dev_writeOffset_kao (d : Dev) (data : Word) : (Dev.writeOffset d data).2.kao = d.kao := by
  unfold Dev.writeOffset; split <;> simp

@[simp] theorem Dev_fireCmp_kao (d : Dev) (c : Fin 16) (step late : Bool) : (Dev.fireCmp d c step late).kao = d.kao := by
  unfold Dev.fireCmp; simp [apply_ite Dev.kao]

@[simp] theorem Dev_cmpFire_kao (d : Dev) (c : Fin 16) : (Dev.cmpFire d c).kao = d.kao := by
  unfold Dev.cmpFire; split <;> simp

@[simp] theorem Dev_writeCmpTarget_kao (d : Dev) (c : Fin 16) (target : Word) :
    (Dev.writeCmpTarget d c target).kao = d.kao := by
  unfold Dev.writeCmpTarget; simp [apply_ite Dev.kao]

@[simp] theorem Dev_writeCmpCtrl_kao (d : Dev) (c : Fin 16) (ctrl : Word) : (Dev.writeCmpCtrl d c ctrl).kao = d.kao := by
  unfold Dev.writeCmpCtrl; split <;> simp

@[simp] theorem Dev_writeAlmHi_kao (d : Dev) (a : Fin 8) (hi : Word) : (Dev.writeAlmHi d a hi).kao = d.kao := by
  simp [Dev.writeAlmHi]

@[simp] theorem Dev_disarmAlm_kao (d : Dev) (a : Nat) : (Dev.disarmAlm d a).kao = d.kao := by
  simp [Dev.disarmAlm]

@[simp] theorem Dev_almFire_kao (d : Dev) (a : Fin 8) : (Dev.almFire d a).kao = d.kao := by
  unfold Dev.almFire; split <;> simp

@[simp] theorem Dev_captureEdge_kao (d : Dev) (src : CapSource) (rising : Bool) :
    (Dev.captureEdge d src rising).kao = d.kao := by
  unfold Dev.captureEdge; simp [apply_ite Dev.kao]

@[simp] theorem Dev_applyLeap_kao (d : Dev) : (Dev.applyLeap d).kao = d.kao := by
  simp [Dev.applyLeap]

@[simp] theorem Dev_leapApply_kao (d : Dev) : (Dev.leapApply d).kao = d.kao := by
  unfold Dev.leapApply; split <;> simp

@[simp] theorem Dev_saveRtc_kao (d : Dev) : (Dev.saveRtc d).kao = d.kao := by
  simp [Dev.saveRtc]

@[simp] theorem timeSetCmd_kao (arg : BitVec 24) (d : Dev) : (timeSetCmd arg d).2.kao = d.kao := by
  unfold timeSetCmd; split <;> simp

@[simp] theorem timeAdjustCmd_kao (arg : BitVec 24) (d : Dev) : (timeAdjustCmd arg d).2.kao = d.kao := by
  unfold timeAdjustCmd; extract_lets; split
  · rfl
  · rfl

@[simp] theorem alarmCancelCmd_kao (arg : BitVec 24) (d : Dev) : (alarmCancelCmd arg d).2.kao = d.kao := by
  unfold alarmCancelCmd; split <;> simp

@[simp] theorem Dev_notice_kao (d : Dev) (q : Fin 64) : (Dev.notice d q).kao = d.kao := by
  unfold Dev.notice; split <;> simp

@[simp] theorem Dev_commit_kao (d : Dev) (q : Fin 64) (ws : List QData) : (Dev.commit d q ws).kao = d.kao := by
  unfold Dev.commit; simp [apply_ite Dev.kao]

@[simp] theorem Dev_produce_kao (d : Dev) (q : Fin 64) (ws : List QData) : (Dev.produce d q ws).kao = d.kao := by
  unfold Dev.produce; simp [apply_ite Dev.kao]

@[simp] theorem Dev_writeHeld_kao (q : Fin 64) (ws : List (List QData)) (d : Dev) : (Dev.writeHeld q ws d).kao = d.kao := by
  induction ws generalizing d with
  | nil => rfl
  | cons w ws ih => unfold Dev.writeHeld; split <;> simp [ih]

@[simp] theorem Dev_issueId_kao (d : Dev) (s : Fin 13) : (Dev.issueId d s).2.kao = d.kao := by
  simp [Dev.issueId]

@[simp] theorem Dev_endQuarantine_kao (d : Dev) (s : Fin 13) : (Dev.endQuarantine d s).kao = d.kao := by
  simp [Dev.endQuarantine]

@[simp] theorem Dev_adoptEpoch_kao (d : Dev) (q ident : Nat) : (Dev.adoptEpoch d q ident).kao = d.kao := by
  unfold Dev.adoptEpoch; simp [apply_ite Dev.kao]

@[simp] theorem Dev_dropStale_kao (q : Fin 64) (ms : List QMsg) (d : Dev) : (Dev.dropStale q ms d).kao = d.kao := by
  induction ms generalizing d with
  | nil => rfl
  | cons m ms ih => unfold Dev.dropStale; (repeat' split) <;> simp [ih]

@[simp] theorem Dev_freshFront_kao (d : Dev) (q : Fin 64) : (Dev.freshFront d q).kao = d.kao := by
  simp [Dev.freshFront]

@[simp] theorem Dev_countCorrected_kao (d : Dev) (q : Nat) : (Dev.countCorrected d q).kao = d.kao := by
  simp [Dev.countCorrected]

@[simp] theorem Dev_countPoison_kao (d : Dev) (q : Nat) : (Dev.countPoison d q).kao = d.kao := by
  simp [Dev.countPoison]

@[simp] theorem Dev_countSingles_kao (d : Dev) (q : Nat) (cs : List WordCheck) : (Dev.countSingles d q cs).kao = d.kao := by
  unfold Dev.countSingles; simp [apply_ite Dev.kao]

@[simp] theorem Dev_noteTurn_kao (d : Dev) (q : Fin 64) : (Dev.noteTurn d q).kao = d.kao := by
  simp [Dev.noteTurn]

@[simp] theorem Dev_nextQueue_kao (d : Dev) (cons : Nat) (can : Fin 64 → Bool) :
    (Dev.nextQueue d cons can).2.kao = d.kao := by
  unfold Dev.nextQueue; dsimp only; (repeat' split) <;> simp

@[simp] theorem Dev_takeMsg_kao (d : Dev) (q : Fin 64) (cs : List WordCheck) : (Dev.takeMsg d q cs).2.kao = d.kao := by
  unfold Dev.takeMsg; dsimp only; (repeat' split) <;> simp

@[simp] theorem Dev_portDone_kao (d : Dev) (result : Nat) (w : QData) : (Dev.portDone d result w).kao = d.kao := by
  simp [Dev.portDone]

@[simp] theorem Dev_portWordRead_kao (d : Dev) (q : Fin 64) (cs : List WordCheck) :
    (Dev.portWordRead d q cs).kao = d.kao := by
  unfold Dev.portWordRead; (repeat' split) <;> simp

@[simp] theorem Dev_portRead_kao (d : Dev) (q : Fin 64) (cs : List WordCheck) : (Dev.portRead d q cs).kao = d.kao := by
  unfold Dev.portRead; (repeat' split) <;> simp

@[simp] theorem Dev_portWrite_kao (d : Dev) (q : Fin 64) (data : QData) (mark : Bool) :
    (Dev.portWrite d q data mark).kao = d.kao := by
  unfold Dev.portWrite; simp [apply_ite Dev.kao]

@[simp] theorem Dev_noticeHold_kao (d : Dev) (q : Fin 64) : (Dev.noticeHold d q).kao = d.kao := by
  unfold Dev.noticeHold; dsimp only; (repeat' split) <;> simp

@[simp] theorem queFlushCmd_kao (arg : BitVec 24) (d : Dev) : (queFlushCmd arg d).2.kao = d.kao := by
  unfold queFlushCmd; dsimp only; (repeat' split) <;> simp

@[simp] theorem queCountClearCmd_kao (arg : BitVec 24) (d : Dev) : (queCountClearCmd arg d).2.kao = d.kao := by
  unfold queCountClearCmd; (repeat' split) <;> simp

@[simp] theorem Dev_writeQueEnds_kao (d : Dev) (q : Fin 64) (data : Word) : (Dev.writeQueEnds d q data).2.kao = d.kao := by
  unfold Dev.writeQueEnds; (repeat' split) <;> simp

@[simp] theorem Dev_loadQueues_kao (d : Dev) (es : List QueueEntry) : (Dev.loadQueues d es).kao = d.kao := by
  simp [Dev.loadQueues]

@[simp] theorem Dev_delayed_kao (d : Dev) (phase : Int) (codes : List (Rat × Nat)) :
    (Dev.delayed d phase codes).2.kao = d.kao := by
  unfold Dev.delayed; split <;> simp

@[simp] theorem Dev_calibrate_kao (d : Dev) (ch : Nat) (code : Int) (gain : Nat) (past : List (Rat × Nat)) :
    (Dev.calibrate d ch code gain past).2.kao = d.kao := by
  simp [Dev.calibrate]

@[simp] theorem Dev_sampleChannel_kao (d : Dev) (ch : Fin 64) (codes : Int × Int) :
    (Dev.sampleChannel d ch codes).kao = d.kao := by
  unfold Dev.sampleChannel
  extract_lets cur c auto fromA
  generalize (if cur then c.instant auto codes.1 codes.2 else (c, false)) = sw
  obtain ⟨c1, switched⟩ := sw
  dsimp -zeta only
  extract_lets d1 d2
  have h2 : d2.kao = d.kao := by simp only [d2, d1]; split <;> simp
  split
  · exact h2
  split
  · generalize (if fromA = true then (codes.fst, if cur = true then c.gain else 0) else (codes.snd, 0)) = cg
    obtain ⟨code, gain⟩ := cg
    dsimp -zeta only
    have h3 := Dev_calibrate_kao d2 ch.val code gain c.past
    generalize d2.calibrate ch.val code gain c.past = e at h3 ⊢
    obtain ⟨x, d3⟩ := e
    dsimp -zeta only at h3 ⊢
    extract_lets cap
    have h4 : (if cap then d3.round x else (0, d3)).2.kao = d3.kao := by split <;> simp
    split
    · rw [Dev_updEng_kao, Dev_updCh_kao, h4, h3, h2]
    · rw [Dev_updCh_kao, h4, h3, h2]
  · exact h2

@[simp] theorem Dev_samplePhase_kao (d : Dev) (n : Fin 8) (p : Fin 3) : (Dev.samplePhase d n p).kao = d.kao := by
  simp [Dev.samplePhase]

@[simp] theorem Dev_sampleSlice_kao (d : Dev) (n : Fin 8) : (Dev.sampleSlice d n).kao = d.kao := by
  simp [Dev.sampleSlice]

@[simp] theorem Dev_samplePulse_kao (d : Dev) (p : Fin 4) (n : Nat) (act react : Rat) :
    (Dev.samplePulse d p n act react).kao = d.kao := by
  unfold Dev.samplePulse; simp [apply_ite Dev.kao]

@[simp] theorem Dev_clearPulse_kao (d : Dev) (p : Fin 4) : (Dev.clearPulse d p).kao = d.kao := by
  simp [Dev.clearPulse]

@[simp] theorem Dev_pulseEmit_kao (d : Dev) (p : Fin 4) : (Dev.pulseEmit d p).kao = d.kao := by
  unfold Dev.pulseEmit; simp [apply_ite Dev.kao]

@[simp] theorem Dev_sampleEngine_kao (d : Dev) (n : Fin 8) : (Dev.sampleEngine d n).kao = d.kao := by
  unfold Dev.sampleEngine; split <;> simp

@[simp] theorem Dev_countCaptures_kao (d : Dev) (dieB : Bool) : (Dev.countCaptures d dieB).kao = d.kao := by
  unfold Dev.countCaptures; simp [apply_ite Dev.kao]

@[simp] theorem Dev_takeSamples_kao (d : Dev) (dieB : Bool) (codes : List (Int × Int)) :
    (Dev.takeSamples d dieB codes).kao = d.kao := by
  simp [Dev.takeSamples]

@[simp] theorem Dev_roundSqrt_kao (d : Dev) (q : Rat) : (Dev.roundSqrt d q).2.kao = d.kao := by
  unfold Dev.roundSqrt; dsimp only; (repeat' split) <;> simp

@[simp] theorem Dev_publishChannel_kao (d : Dev) (ch : Fin 64) : (Dev.publishChannel d ch).kao = d.kao := by
  unfold Dev.publishChannel; dsimp only; (repeat' split) <;> simp

@[simp] theorem Dev_apparent_kao (d : Dev) (x : Sums) (p : Fin 3) : (Dev.apparent d x p).2.kao = d.kao := by
  unfold Dev.apparent; split <;> simp

@[simp] theorem Dev_publishPhase_kao (d : Dev) (n : Fin 8) (x : Sums) (p : Fin 3) :
    (Dev.publishPhase d n x p).kao = d.kao := by
  unfold Dev.publishPhase; split <;> simp

@[simp] theorem Dev_apparentTotal_kao (d : Dev) (x : Sums) : (Dev.apparentTotal d x).2.kao = d.kao := by
  unfold Dev.apparentTotal; dsimp only; (repeat' split) <;> simp

@[simp] theorem Dev_publishTotals_kao (d : Dev) (n : Nat) (x : Sums) : (Dev.publishTotals d n x).kao = d.kao := by
  unfold Dev.publishTotals; dsimp only; (repeat' split) <;> simp

@[simp] theorem Dev_mtrSend_kao (d : Dev) (n : Fin 8) (ws : List QData) : (Dev.mtrSend d n ws).kao = d.kao := by
  unfold Dev.mtrSend; dsimp only; (repeat' split) <;> simp

@[simp] theorem Dev_mtrFlushWaiting_kao (n : Fin 8) (q : Fin 64) (ws : List (List QData)) (d : Dev) :
    (Dev.mtrFlushWaiting n q ws d).kao = d.kao := by
  induction ws generalizing d with
  | nil => rfl
  | cons w ws ih => unfold Dev.mtrFlushWaiting; split <;> simp [ih]

@[simp] theorem Dev_sendPq_kao (d : Dev) (u : Fin 9) (ph : Nat) (st : PqState) (ending : Bool) (refreshes ext : Nat) :
    (Dev.sendPq d u ph st ending refreshes ext).kao = d.kao := by
  unfold Dev.sendPq; split <;> simp

@[simp] theorem Dev_startCapture_kao (d : Dev) (n : Fin 8) : (Dev.startCapture d n).kao = d.kao := by
  simp [Dev.startCapture]

@[simp] theorem Dev_pqCapture_kao (d : Dev) (u : Fin 9) : (Dev.pqCapture d u).kao = d.kao := by
  unfold Dev.pqCapture; (repeat' split) <;> simp

@[simp] theorem Dev_pqEnd_kao (d : Dev) (u : Fin 9) (ph : Fin 3) (x : PqPhase) : (Dev.pqEnd d u ph x).kao = d.kao := by
  simp [Dev.pqEnd]

@[simp] theorem Dev_pqStart_kao (d : Dev) (u : Fin 9) (ph : Fin 3) (st : PqState) (uv : Nat) :
    (Dev.pqStart d u ph st uv).kao = d.kao := by
  simp [Dev.pqStart]

@[simp] theorem Dev_pqRefresh_kao (d : Dev) (u : Fin 9) (ph : Fin 3) (uv : Nat) : (Dev.pqRefresh d u ph uv).kao = d.kao := by
  unfold Dev.pqRefresh; simp [apply_ite Dev.kao]

@[simp] theorem Dev_clearWorking_kao (d : Dev) (u : Fin 9) : (Dev.clearWorking d u).kao = d.kao := by
  simp [Dev.clearWorking]

@[simp] theorem Dev_startGains_kao (d : Dev) (u : Nat) : (Dev.startGains d u).kao = d.kao := by
  simp [Dev.startGains]

@[simp] theorem Dev_writeGain_kao (d : Dev) (ch : Fin 64) (data : Word) : (Dev.writeGain d ch data).kao = d.kao := by
  unfold Dev.writeGain; simp [apply_ite Dev.kao]

@[simp] theorem Dev_gainWrite_kao (d : Dev) (ch : Fin 64) (data : Word) : (Dev.gainWrite d ch data).2.kao = d.kao := by
  unfold Dev.gainWrite; split <;> simp

@[simp] theorem pqCountClearCmd_kao (arg : BitVec 24) (d : Dev) : (pqCountClearCmd arg d).2.kao = d.kao := by
  unfold pqCountClearCmd; dsimp only; (repeat' split) <;> simp

@[simp] theorem captureCmd_kao (arg : BitVec 24) (d : Dev) : (captureCmd arg d).2.kao = d.kao := by
  unfold captureCmd; dsimp only; (repeat' split) <;> simp

@[simp] theorem Dev_captureComplete_kao (d : Dev) (n : Fin 8) : (Dev.captureComplete d n).kao = d.kao := by
  unfold Dev.captureComplete; dsimp only; (repeat' split) <;> simp

@[simp] theorem Dev_thd_kao (d : Dev) (xs : List Nat) : (Dev.thd d xs).2.kao = d.kao := by
  unfold Dev.thd; dsimp only; split <;> simp

@[simp] theorem Dev_withThd_kao (rs : List (Nat × List Nat)) (d : Dev) : (Dev.withThd rs d).2.kao = d.kao := by
  induction rs generalizing d with
  | nil => rfl
  | cons r rs ih => simp [Dev.withThd, ih]

@[simp] theorem Dev_harmonicEnd_kao (d : Dev) (u : Fin 9) (k : Nat) (rs : List (Nat × List Nat)) :
    (Dev.harmonicEnd d u k rs).kao = d.kao := by
  unfold Dev.harmonicEnd; split <;> simp

@[simp] theorem Dev_mtrGainWrite_kao (d : Dev) (ag : Agent) (addr : Nat) (data : Word) :
    (Dev.mtrGainWrite d ag addr data).kao = d.kao := by
  unfold Dev.mtrGainWrite; dsimp only; (repeat' split) <;> simp

@[simp] theorem Dev_storeWrite_kao (d : Dev) (addr : Nat) (bs : List Byte) : (Dev.storeWrite d addr bs).kao = d.kao := by
  simp [Dev.storeWrite]

@[simp] theorem Dev_tamper_kao (d : Dev) (k : Fin 24) (sl : Option (Fin 8)) : (Dev.tamper d k sl).kao = d.kao := by
  unfold Dev.tamper; split <;> simp

@[simp] theorem Dev_closeDelivery_kao (d : Dev) (n : Fin 8) : (Dev.closeDelivery d n).kao = d.kao := by
  unfold Dev.closeDelivery; simp [apply_ite Dev.kao]

@[simp] theorem Dev_midPeriod_kao (d : Dev) (n : Fin 8) : (Dev.midPeriod d n).kao = d.kao := by
  unfold Dev.midPeriod; split <;> simp

@[simp] theorem Dev_overrideStart_kao (d : Dev) (n : Fin 8) (o : Override) (t : Nat) :
    (Dev.overrideStart d n o t).kao = d.kao := by
  unfold Dev.overrideStart; split <;> simp

@[simp] theorem Dev_switchOverride_kao (d : Dev) (n : Fin 8) (t : Nat) : (Dev.switchOverride d n t).kao = d.kao := by
  unfold Dev.switchOverride; dsimp only; (repeat' split) <;> simp

@[simp] theorem Dev_setTariff_kao (d : Dev) (n : Fin 8) (t : Nat) : (Dev.setTariff d n t).kao = d.kao := by
  unfold Dev.setTariff; simp [apply_ite Dev.kao]

@[simp] theorem Dev_switchTariff_kao (d : Dev) (n : Fin 8) (t : Nat) : (Dev.switchTariff d n t).kao = d.kao := by
  simp [Dev.switchTariff]

@[simp] theorem Dev_closeDemand_kao (d : Dev) (n : Fin 8) (t dur : Nat) (extra : Byte) :
    (Dev.closeDemand d n t dur extra).kao = d.kao := by
  simp [Dev.closeDemand]

@[simp] theorem Dev_openDemand_kao (d : Dev) (n : Fin 8) (t : Nat) (flags : Byte) :
    (Dev.openDemand d n t flags).kao = d.kao := by
  simp [Dev.openDemand]

@[simp] theorem Dev_closeLp_kao (d : Dev) (n : Fin 8) (t dur : Nat) (extra : Byte) (len : Nat) :
    (Dev.closeLp d n t dur extra len).kao = d.kao := by
  unfold Dev.closeLp; dsimp only; (repeat' split) <;> simp

@[simp] theorem Dev_openLp_kao (d : Dev) (n : Fin 8) (t : Nat) (flags : Byte) : (Dev.openLp d n t flags).kao = d.kao := by
  simp [Dev.openLp]

@[simp] theorem Dev_addReading_kao (d : Dev) (n : Fin 8) (kind t : Nat) (ag : Agent) (nonce : List Byte) :
    (Dev.addReading d n kind t ag nonce).kao = d.kao := by
  simp [Dev.addReading]

@[simp] theorem Dev_reading_kao (d : Dev) (n : Fin 8) (kind t : Nat) : (Dev.reading d n kind t).kao = d.kao := by
  simp [Dev.reading]

@[simp] theorem Dev_resetMd_kao (d : Dev) (n : Fin 8) : (Dev.resetMd d n).kao = d.kao := by
  simp [Dev.resetMd]

@[simp] theorem Dev_billingEnd_kao (d : Dev) (n : Fin 8) (t : Nat) : (Dev.billingEnd d n t).kao = d.kao := by
  unfold Dev.billingEnd; split <;> simp

@[simp] theorem Dev_activateCalendar_kao (d : Dev) (t : Nat) : (Dev.activateCalendar d t).kao = d.kao := by
  unfold Dev.activateCalendar; (repeat' split) <;> simp

@[simp] theorem Dev_closeDue_kao (d : Dev) (n : Fin 8) (t : Nat) (m : BoundaryMode) (due chg : Bool × Bool) :
    (Dev.closeDue d n t m due chg).kao = d.kao := by
  unfold Dev.closeDue; simp [apply_ite Dev.kao]

@[simp] theorem Dev_endDue_kao (d : Dev) (n : Fin 8) (t : Nat) : (Dev.endDue d n t).kao = d.kao := by
  unfold Dev.endDue; (repeat' split) <;> simp

@[simp] theorem Dev_openDue_kao (d : Dev) (n : Fin 8) (t : Nat) (m : BoundaryMode) (due chg : Bool × Bool) :
    (Dev.openDue d n t m due chg).kao = d.kao := by
  unfold Dev.openDue; simp [apply_ite Dev.kao]

@[simp] theorem Dev_missedTariff_kao (d : Dev) (n : Fin 8) (t : Nat) (m : BoundaryMode) :
    (Dev.missedTariff d n t m).kao = d.kao := by
  unfold Dev.missedTariff; split <;> simp

@[simp] theorem Dev_boundarySteps_kao (d : Dev) (t : Nat) (m : BoundaryMode) (chg : Fin 8 → Bool × Bool) (swap : Dev → Dev)
    (hs : ∀ x, (swap x).kao = x.kao) : (Dev.boundarySteps d t m chg swap).kao = d.kao := by
  unfold Dev.boundarySteps; rw [Dev_oneEvent_kao]; dsimp only
  split <;> simp [hs]

@[simp] theorem Dev_boundariesAt_kao (d : Dev) (t : Nat) (m : BoundaryMode) : (Dev.boundariesAt d t m).kao = d.kao := by
  simp [Dev.boundariesAt]

@[simp] theorem Dev_runBoundaries_kao (k t : Nat) (m : BoundaryMode) (d : Dev) :
    (Dev.runBoundaries k t m d).kao = d.kao := by
  induction k generalizing d with
  | zero => rfl
  | succ k ih => unfold Dev.runBoundaries; split <;> simp [ih]

@[simp] theorem Dev_copyWritten_kao (d : Dev) (k : Nat) : (Dev.copyWritten d k).kao = d.kao := by
  simp [Dev.copyWritten]

@[simp] theorem Dev_commitBilling_kao (d : Dev) : (Dev.commitBilling d).kao = d.kao := by
  unfold Dev.commitBilling; split <;> simp

@[simp] theorem Dev_writeBilCfg_kao (d : Dev) (who : Option Agent) (n : Fin 8) (data : Word) :
    (Dev.writeBilCfg d who n data).2.kao = d.kao := by
  unfold Dev.writeBilCfg; dsimp only; (repeat' split) <;> simp

@[simp] theorem Dev_buildKarurn_kao (d : Dev) (n : Fin 8) (reason tEnd : Nat) (extra : Byte) :
    (Dev.buildKarurn d n reason tEnd extra).kao = d.kao := by
  unfold Dev.buildKarurn; split <;> simp

@[simp] theorem Dev_sessionStart_kao (d : Dev) (n : Fin 8) (sid : Word) (method : Nat) (ref : List Word) :
    (Dev.sessionStart d n sid method ref).kao = d.kao := by
  simp [Dev.sessionStart]

@[simp] theorem Dev_sessionEnd_kao (d : Dev) (n : Fin 8) (reason : Nat) : (Dev.sessionEnd d n reason).kao = d.kao := by
  simp [Dev.sessionEnd]

@[simp] theorem readSignedCmd_kao (ag : Agent) (arg : BitVec 24) (d : Dev) : (readSignedCmd ag arg d).2.kao = d.kao := by
  unfold readSignedCmd; dsimp only; (repeat' split) <;> simp

@[simp] theorem mdResetCmd_kao (arg : BitVec 24) (d : Dev) : (mdResetCmd arg d).2.kao = d.kao := by
  unfold mdResetCmd; (repeat' split) <;> simp

@[simp] theorem calArmCmd_kao (d : Dev) : (calArmCmd d).2.kao = d.kao := by
  unfold calArmCmd; dsimp only; (repeat' split) <;> simp

@[simp] theorem calCancelCmd_kao (d : Dev) : (calCancelCmd d).2.kao = d.kao := by
  unfold calCancelCmd; split <;> simp

@[simp] theorem Dev_putOverride_kao (d : Dev) (mask tariff start minutes : Nat) :
    (Dev.putOverride d mask tariff start minutes).kao = d.kao := by
  simp [Dev.putOverride]

@[simp] theorem overrideCmdSt_kao (d : Dev) : (overrideCmdSt d).2.kao = d.kao := by
  unfold overrideCmdSt; dsimp only; (repeat' split) <;> simp

@[simp] theorem Dev_billingCfgWrite_kao (d : Dev) (ag : Agent) (addr : Nat) (data : Word) :
    (Dev.billingCfgWrite d ag addr data).kao = d.kao := by
  unfold Dev.billingCfgWrite; split <;> simp

@[simp] theorem Dev_orphan_kao (d : Dev) (k : Fin 64) : (Dev.orphan d k).kao = d.kao := by
  unfold Dev.orphan; split <;> simp

@[simp] theorem Dev_discardCopy_kao (d : Dev) (k : Fin 64) : (Dev.discardCopy d k).kao = d.kao := by
  simp [Dev.discardCopy]

@[simp] theorem Dev_orphanRooted_kao (d : Dev) : (Dev.orphanRooted d).kao = d.kao := by
  unfold Dev.orphanRooted; rw [foldl_kao]
  intro a x; dsimp only; (repeat' split) <;> simp

@[simp] theorem Dev_exhaust_kao (d : Dev) (k : Fin 64) : (Dev.exhaust d k).kao = d.kao := by
  unfold Dev.exhaust; simp [apply_ite Dev.kao]

@[simp] theorem Dev_useKey_kao (d : Dev) (k : Fin 64) : (Dev.useKey d k).kao = d.kao := by
  simp [Dev.useKey]

@[simp] theorem Dev_useCommit_kao (d : Dev) (k : Fin 64) : (Dev.useCommit d k).kao = d.kao := by
  unfold Dev.useCommit; simp [apply_ite Dev.kao]

@[simp] theorem Dev_drawWide_kao (d : Dev) : (Dev.drawWide d).2.kao = d.kao := by
  simp [Dev.drawWide]

@[simp] theorem Dev_makeRoot_kao (d : Dev) : (Dev.makeRoot d).kao = d.kao := by
  unfold Dev.makeRoot; split <;> simp

@[simp] theorem Dev_remask_kao (d : Dev) : (Dev.remask d).kao = d.kao := by
  unfold Dev.remask; dsimp only; (repeat' split) <;> simp

@[simp] theorem Dev_loseRoot_kao (d : Dev) : (Dev.loseRoot d).kao = d.kao := by
  simp [Dev.loseRoot]

@[simp] theorem Dev_stage_kao (d : Dev) (k : Fin 64) (c : KeyCopy) (msg exp : BitVec 256) (generated : Bool) :
    (Dev.stage d k c msg exp generated).kao = d.kao := by
  simp [Dev.stage]

@[simp] theorem Dev_stageCert_kao (d : Dev) (k : Fin 64) (blob : List Byte) : (Dev.stageCert d k blob).2.kao = d.kao := by
  unfold Dev.stageCert; dsimp only; (repeat' split) <;> simp

@[simp] theorem Dev_stageSecret_kao (d : Dev) (k : Fin 64) (blob : List Byte) (z : BitVec 256) (user : Fin 64) :
    (Dev.stageSecret d k blob z user).2.kao = d.kao := by
  unfold Dev.stageSecret; (repeat' split) <;> simp

@[simp] theorem keyStageCmd_kao (ag : Agent) (arg : BitVec 24) (d : Dev) : (keyStageCmd ag arg d).2.kao = d.kao := by
  unfold keyStageCmd; dsimp only; (repeat' split) <;> simp

@[simp] theorem keyGenCmd_kao (ag : Agent) (arg : BitVec 24) (d : Dev) : (keyGenCmd ag arg d).2.kao = d.kao := by
  unfold keyGenCmd; dsimp only; (repeat' split) <;> simp

@[simp] theorem keyVerifyCmd_kao (arg : BitVec 24) (d : Dev) : (keyVerifyCmd arg d).2.kao = d.kao := by
  unfold keyVerifyCmd; dsimp only; (repeat' split) <;> simp

@[simp] theorem Dev_loadTagCopy_kao (d : Dev) : (Dev.loadTagCopy d).kao = d.kao := by
  unfold Dev.loadTagCopy; split <;> simp

@[simp] theorem Dev_makeLive_kao (d : Dev) (k : Fin 64) : (Dev.makeLive d k).kao = d.kao := by
  unfold Dev.makeLive; simp [apply_ite Dev.kao]

@[simp] theorem keyDiscardCmd_kao (arg : BitVec 24) (d : Dev) : (keyDiscardCmd arg d).2.kao = d.kao := by
  unfold keyDiscardCmd; (repeat' split) <;> simp

@[simp] theorem keyDestroyCmd_kao (arg : BitVec 24) (d : Dev) : (keyDestroyCmd arg d).2.kao = d.kao := by
  unfold keyDestroyCmd; dsimp only; (repeat' split) <;> simp

@[simp] theorem keyRespondCmd_kao (ag : Agent) (arg : BitVec 24) (d : Dev) : (keyRespondCmd ag arg d).2.kao = d.kao := by
  unfold keyRespondCmd; (repeat' split) <;> simp

@[simp] theorem keyChallengeCmd_kao (ag : Agent) (arg : BitVec 24) (d : Dev) : (keyChallengeCmd ag arg d).2.kao = d.kao := by
  unfold keyChallengeCmd; dsimp only; (repeat' split) <;> simp

@[simp] theorem keyCheckCmd_kao (ag : Agent) (arg : BitVec 24) (d : Dev) : (keyCheckCmd ag arg d).2.kao = d.kao := by
  unfold keyCheckCmd; (repeat' split) <;> simp

@[simp] theorem keyAttestCmd_kao (ag : Agent) (arg : BitVec 24) (d : Dev) : (keyAttestCmd ag arg d).2.kao = d.kao := by
  unfold keyAttestCmd; dsimp only; (repeat' split) <;> simp

@[simp] theorem Dev_signBytes_kao (d : Dev) (bs : List Byte) : (Dev.signBytes d bs).2.kao = d.kao := by
  unfold Dev.signBytes; split <;> simp

@[simp] theorem Dev_keepRecord_kao (d : Dev) (j : SignJob) (bs : List Byte) : (Dev.keepRecord d j bs).kao = d.kao := by
  simp [Dev.keepRecord]

@[simp] theorem Dev_writeKept_kao (d : Dev) (q : Fin 64) : (Dev.writeKept d q).kao = d.kao := by
  simp [Dev.writeKept]

@[simp] theorem Dev_deliverBlock_kao (d : Dev) (j : SignJob) (bs : List Byte) : (Dev.deliverBlock d j bs).kao = d.kao := by
  unfold Dev.deliverBlock; (repeat' split) <;> simp

@[simp] theorem Dev_signNext_kao (d : Dev) : (Dev.signNext d).kao = d.kao := by
  unfold Dev.signNext; split <;> simp

@[simp] theorem Dev_signAll_kao (k : Nat) (d : Dev) : (Dev.signAll k d).kao = d.kao := by
  induction k generalizing d with
  | zero => rfl
  | succ k ih => unfold Dev.signAll; split <;> simp [ih]

@[simp] theorem keyCommitCmd_kao (arg : BitVec 24) (d : Dev) : (keyCommitCmd arg d).2.kao = d.kao := by
  unfold keyCommitCmd; dsimp only; (repeat' split) <;> simp

@[simp] theorem Dev_tamperInactive_kao (d : Dev) : (Dev.tamperInactive d).kao = d.kao := by
  simp [Dev.tamperInactive]

@[simp] theorem Dev_expireKeys_kao (d : Dev) : (Dev.expireKeys d).kao = d.kao := by
  unfold Dev.expireKeys; simp

@[simp] theorem Dev_keyCommand_kao (d : Dev) (ag : Agent) (op : Nat) (arg : BitVec 24) (h : Dev → CmdSt × Dev)
    (hk : (h d).2.kao = d.kao) : (d.keyCommand ag op arg h).kao = d.kao := by
  unfold Dev.keyCommand; simp [hk]

@[simp] theorem Dev_rdrSend_kao (d : Dev) (ty : Nat) (body : List QData) : (Dev.rdrSend d ty body).kao = d.kao := by
  unfold Dev.rdrSend; split <;> simp

@[simp] theorem Dev_svcSend_kao (d : Dev) (ty : Nat) (body : List QData) : (Dev.svcSend d ty body).kao = d.kao := by
  unfold Dev.svcSend; split <;> simp

@[simp] theorem Dev_svcEvent_kao (d : Dev) (ev cause : Nat) : (Dev.svcEvent d ev cause).kao = d.kao := by
  simp [Dev.svcEvent]

@[simp] theorem Dev_rdrFieldOff_kao (d : Dev) : (Dev.rdrFieldOff d).kao = d.kao := by
  simp [Dev.rdrFieldOff]

@[simp] theorem Dev_cardSeen_kao (d : Dev) (c : Card) : (Dev.cardSeen d c).kao = d.kao := by
  simp [Dev.cardSeen]

@[simp] theorem Dev_pollMissed_kao (d : Dev) : (Dev.pollMissed d).kao = d.kao := by
  simp [Dev.pollMissed]

@[simp] theorem Dev_pollFound_kao (d : Dev) (c : Card) : (Dev.pollFound d c).kao = d.kao := by
  unfold Dev.pollFound; split <;> simp

@[simp] theorem Dev_readerPoll_kao (d : Dev) (card : Option Card) : (Dev.readerPoll d card).kao = d.kao := by
  unfold Dev.readerPoll; (repeat' split) <;> simp

@[simp] theorem Dev_rdrRx_kao (d : Dev) (status : Nat) (bs : List Byte) : (Dev.rdrRx d status bs).kao = d.kao := by
  simp [Dev.rdrRx]

@[simp] theorem Dev_exchangeFail_kao (d : Dev) (status : Nat) : (Dev.exchangeFail d status).kao = d.kao := by
  simp [Dev.exchangeFail]

@[simp] theorem Dev_readerExchange_kao (d : Dev) (q : Fin 64) (cs : List WordCheck) (answer : CardAnswer) :
    (Dev.readerExchange d q cs answer).kao = d.kao := by
  unfold Dev.readerExchange; grind [Dev_takeMsg_kao, Dev_rdrFieldOff_kao, Dev_rdrRx_kao,
    Dev_exchangeFail_kao, Dev_answer_kao]

@[simp] theorem Dev_readerTimeout_kao (d : Dev) (cardLost : Bool) : (Dev.readerTimeout d cardLost).kao = d.kao := by
  unfold Dev.readerTimeout; (repeat' split) <;> simp

@[simp] theorem rdrPollCmd_kao (arg : BitVec 24) (d : Dev) : (rdrPollCmd arg d).2.kao = d.kao := by
  unfold rdrPollCmd; (repeat' split) <;> simp

@[simp] theorem Dev_tagCommit_kao (d : Dev) (b : Nat) (v : BitVec 256) : (Dev.tagCommit d b v).kao = d.kao := by
  simp [Dev.tagCommit]

@[simp] theorem Dev_tagAbandon_kao (d : Dev) (b : Nat) (v : BitVec 256) : (Dev.tagAbandon d b v).kao = d.kao := by
  simp [Dev.tagAbandon]

@[simp] theorem Dev_tagCutOff_kao (d : Dev) (b : Nat) (v : BitVec 256) (primary : Bool) :
    (Dev.tagCutOff d b v primary).kao = d.kao := by
  simp [Dev.tagCutOff]

@[simp] theorem Dev_tagRecovery_kao (d : Dev) : (Dev.tagRecovery d).kao = d.kao := by
  unfold Dev.tagRecovery; (repeat' split) <;> simp

@[simp] theorem Dev_tagSupplyUp_kao (d : Dev) : (Dev.tagSupplyUp d).kao = d.kao := by
  unfold Dev.tagSupplyUp; split <;> simp

@[simp] theorem Dev_endSession_kao (d : Dev) (cause : Nat) : (Dev.endSession d cause).kao = d.kao := by
  unfold Dev.endSession; (repeat' split) <;> simp

@[simp] theorem Dev_fieldOn_kao (d : Dev) : (Dev.fieldOn d).kao = d.kao := by
  unfold Dev.fieldOn; split <;> simp

@[simp] theorem Dev_fieldOff_kao (d : Dev) : (Dev.fieldOff d).kao = d.kao := by
  unfold Dev.fieldOff; split <;> simp

@[simp] theorem Dev_fdetRelease_kao (d : Dev) : (Dev.fdetRelease d).kao = d.kao := by
  unfold Dev.fdetRelease; split <;> simp

@[simp] theorem Dev_tagReply_kao (d : Dev) (bs : List Byte) : (Dev.tagReply d bs).kao = d.kao := by
  simp [Dev.tagReply]

@[simp] theorem Dev_dropFrame_kao (d : Dev) : (Dev.dropFrame d).kao = d.kao := by
  simp [Dev.dropFrame]

theorem Dev_fieldCommand_kao (d : Dev) (p : SvcProt) (msg : List Byte) (h : Bool → Dev → Dev)
    (hk : ∀ b x, (h b x).kao = x.kao) : (d.fieldCommand p msg h).kao = d.kao := by
  unfold Dev.fieldCommand
  split
  · rfl
  · split
    · exact hk _ _
    · split
      · rename_i he
        unfold Dev.sessionFrame at he
        split at he
        · cases he; exact hk _ _
        · cases he
      · simp

@[simp] theorem Dev_getIdentity_kao (d : Dev) : (Dev.getIdentity d).kao = d.kao := by
  unfold Dev.getIdentity; split <;> simp

@[simp] theorem Dev_fieldRead_kao (d : Dev) (blk : BitVec 16) (p : SvcProt) : (Dev.fieldRead d blk p).kao = d.kao := by
  unfold Dev.fieldRead
  apply Dev_fieldCommand_kao; intro b x; dsimp only; (repeat' split) <;> simp

@[simp] theorem Dev_authFailed_kao (d : Dev) : (Dev.authFailed d).kao = d.kao := by
  simp [Dev.authFailed]

@[simp] theorem Dev_auth1_kao (d : Dev) (rH : BitVec 128) : (Dev.auth1 d rH).kao = d.kao := by
  unfold Dev.auth1; dsimp only; (repeat' split) <;> simp

@[simp] theorem Dev_auth2Failed_kao (d : Dev) : (Dev.auth2Failed d).kao = d.kao := by
  simp [Dev.auth2Failed]

@[simp] theorem Dev_auth2_kao (d : Dev) (answer : BitVec 128) : (Dev.auth2 d answer).kao = d.kao := by
  unfold Dev.auth2; (repeat' split) <;> simp

@[simp] theorem Dev_fieldSequence_kao (d : Dev) (b : Nat) (v : BitVec 256) (energy : Bool) (c : Collapse) :
    (Dev.fieldSequence d b v energy c).kao = d.kao := by
  unfold Dev.fieldSequence; (repeat' split) <;> simp

@[simp] theorem Dev_fieldWrite_kao (d : Dev) (blk : BitVec 16) (data : BitVec 256) (p : SvcProt) (energy : Bool) (c : Collapse) :
    (Dev.fieldWrite d blk data p energy c).kao = d.kao := by
  unfold Dev.fieldWrite
  apply Dev_fieldCommand_kao; intro b x; dsimp only; (repeat' split) <;> simp

@[simp] theorem Dev_fieldInc_kao (d : Dev) (ctr : Byte) (amount : BitVec 16) (p : SvcProt) (energy : Bool) (c : Collapse) :
    (Dev.fieldInc d ctr amount p energy c).kao = d.kao := by
  unfold Dev.fieldInc
  apply Dev_fieldCommand_kao; intro b x; dsimp only; (repeat' split) <;> simp

@[simp] theorem Dev_svcFresh_kao (d : Dev) : (Dev.svcFresh d).kao = d.kao := by
  simp [Dev.svcFresh]

@[simp] theorem Dev_dataReply_kao (d : Dev) (sess : Bool) (cs : List WordCheck) :
    (Dev.dataReply d sess cs).kao = d.kao := by
  unfold Dev.dataReply; grind [Dev_tagReply_kao, Dev_svcFresh_kao, Dev_nextQueue_kao, Dev_takeMsg_kao]

@[simp] theorem Dev_fieldData_kao (d : Dev) (bs : List Byte) (p : SvcProt) (cs : List WordCheck) :
    (Dev.fieldData d bs p cs).kao = d.kao := by
  unfold Dev.fieldData
  apply Dev_fieldCommand_kao; intro b x; dsimp only; (repeat' split) <;> simp

@[simp] theorem Dev_fieldEnd_kao (d : Dev) (p : SvcProt) : (Dev.fieldEnd d p).kao = d.kao := by
  unfold Dev.fieldEnd
  apply Dev_fieldCommand_kao; intro b x; (repeat' split) <;> simp

@[simp] theorem Dev_sessionIdle_kao (d : Dev) : (Dev.sessionIdle d).kao = d.kao := by
  unfold Dev.sessionIdle; (repeat' split) <;> simp

@[simp] theorem Dev_svcReading_kao (d : Dev) (q : Fin 64) (cs : List WordCheck) : (Dev.svcReading d q cs).kao = d.kao := by
  unfold Dev.svcReading; grind [Dev_freshFront_kao, Dev_takeMsg_kao, Dev_count_kao]

@[simp] theorem tagReadCmd_kao (ag : Agent) (arg : BitVec 24) (d : Dev) : (tagReadCmd ag arg d).2.kao = d.kao := by
  unfold tagReadCmd; dsimp only; (repeat' split) <;> simp

@[simp] theorem tagWriteCmd_kao (ag : Agent) (arg : BitVec 24) (d : Dev) : (tagWriteCmd ag arg d).2.kao = d.kao := by
  unfold tagWriteCmd; dsimp only; (repeat' split) <;> simp

@[simp] theorem Dev_deferredWrite_kao (d : Dev) : (Dev.deferredWrite d).kao = d.kao := by
  unfold Dev.deferredWrite; (repeat' split) <;> simp

@[simp] theorem tagIncCmd_kao (arg : BitVec 24) (d : Dev) : (tagIncCmd arg d).2.kao = d.kao := by
  unfold tagIncCmd; dsimp only; (repeat' split) <;> simp

@[simp] theorem svcEndCmd_kao (arg : BitVec 24) (d : Dev) : (svcEndCmd arg d).2.kao = d.kao := by
  unfold svcEndCmd; (repeat' split) <;> simp

@[simp] theorem Dev_clearKeyViews_kao (d : Dev) : (Dev.clearKeyViews d).kao = d.kao := rfl

@[simp] theorem Dev_tamperEvent_kao (d : Dev) : (Dev.tamperEvent d).kao = d.kao := by
  unfold Dev.tamperEvent; simp [apply_ite Dev.kao]

@[simp] theorem Dev_readBand_kao (d : Dev) : (Dev.readBand d).kao = d.kao := by
  unfold Dev.readBand; split <;> simp

@[simp] theorem Dev_countStress_kao (d : Dev) (bs : List Nat) : (Dev.countStress d bs).kao = d.kao := by
  simp [Dev.countStress]

theorem Dev_watchLegal_kao (d : Dev) (g : Dev → Dev) (hk : (g d).kao = d.kao) : (d.watchLegal g).kao = d.kao := by
  unfold Dev.watchLegal; rw [Dev_oneEvent_kao]; dsimp only; split <;> simp [hk]

@[simp] theorem Dev_copyPixels_kao (d : Dev) (ps : List Nat) : (Dev.copyPixels d ps).kao = d.kao := by
  simp [Dev.copyPixels]

@[simp] theorem Dev_whitePixels_kao (d : Dev) (ps : List Nat) : (Dev.whitePixels d ps).kao = d.kao := by
  simp [Dev.whitePixels]

@[simp] theorem Dev_raisePwrUp_kao (d : Dev) : (Dev.raisePwrUp d).kao = d.kao := by
  unfold Dev.raisePwrUp; split <;> simp

@[simp] theorem Dev_startRegion_kao (d : Dev) (r : Fin 16) (st : RgnSt) (table : Nat) (exp : Word) :
    (Dev.startRegion d r st table exp).kao = d.kao := by
  simp [Dev.startRegion]

@[simp] theorem Dev_afterRegion_kao (d : Dev) (r : Fin 16) : (Dev.afterRegion d r).kao = d.kao := by
  unfold Dev.afterRegion; split <;> simp

@[simp] theorem Dev_closeRegion_kao (d : Dev) (r : Fin 16) (update : Bool) : (Dev.closeRegion d r update).kao = d.kao := by
  simp [Dev.closeRegion]

@[simp] theorem Dev_updateComplete_kao (d : Dev) (r : Fin 16) : (Dev.updateComplete d r).kao = d.kao := by
  unfold Dev.updateComplete; split <;> simp

@[simp] theorem Dev_clearComplete_kao (d : Dev) (r : Fin 16) : (Dev.clearComplete d r).kao = d.kao := by
  unfold Dev.clearComplete; split <;> simp

@[simp] theorem Dev_renderStrip_kao (d : Dev) (cells : List Nat) : (Dev.renderStrip d cells).kao = d.kao := by
  simp [Dev.renderStrip]

@[simp] theorem Dev_stripUpdate_kao (d : Dev) : (Dev.stripUpdate d).kao = d.kao := by
  unfold Dev.stripUpdate; split <;> simp

@[simp] theorem Dev_stripEnd_kao (d : Dev) : (Dev.stripEnd d).kao = d.kao := by
  unfold Dev.stripEnd; simp [apply_ite Dev.kao]

@[simp] theorem Dev_frameRegion_kao (d : Dev) (r : Fin 16) : (Dev.frameRegion d r).kao = d.kao := by
  unfold Dev.frameRegion; simp [apply_ite Dev.kao]

@[simp] theorem Dev_frameStrip_kao (d : Dev) : (Dev.frameStrip d).kao = d.kao := by
  unfold Dev.frameStrip; simp [apply_ite Dev.kao]

@[simp] theorem Dev_idleFrame_kao (d : Dev) : (Dev.idleFrame d).kao = d.kao := rfl

@[simp] theorem Dev_driveFrame_kao (d : Dev) : (Dev.driveFrame d).kao = d.kao := by
  simp [Dev.driveFrame]

@[simp] theorem Dev_journalPanel_kao (d : Dev) : (Dev.journalPanel d).kao = d.kao := by
  simp [Dev.journalPanel]

@[simp] theorem Dev_closeDone_kao (d : Dev) : (Dev.closeDone d).kao = d.kao := by
  simp [Dev.closeDone]

@[simp] theorem Dev_panelStart_kao (d : Dev) : (Dev.panelStart d).kao = d.kao := by
  unfold Dev.panelStart; dsimp only; split <;> simp

@[simp] theorem Dev_panelAutoStart_kao (d : Dev) : (Dev.panelAutoStart d).kao = d.kao := by
  unfold Dev.panelAutoStart; simp [apply_ite Dev.kao]

@[simp] theorem Dev_panelFrame_kao (d : Dev) : (Dev.panelFrame d).kao = d.kao := by
  unfold Dev.panelFrame; simp [apply_ite Dev.kao]

@[simp] theorem Dev_clearUnknown_kao (d : Dev) : (Dev.clearUnknown d).kao = d.kao := by
  unfold Dev.clearUnknown; rw [foldl_kao]
  intro a x; split <;> simp

@[simp] theorem Dev_clearStrip_kao (d : Dev) : (Dev.clearStrip d).kao = d.kao := by
  unfold Dev.clearStrip; split <;> simp

@[simp] theorem Dev_powerBad_kao (d : Dev) : (Dev.powerBad d).kao = d.kao := rfl

@[simp] theorem Dev_panelAutoClear_kao (d : Dev) : (Dev.panelAutoClear d).kao = d.kao := by
  unfold Dev.panelAutoClear; simp [apply_ite Dev.kao]

@[simp] theorem Dev_panelPowerGood_kao (d : Dev) : (Dev.panelPowerGood d).kao = d.kao := by
  unfold Dev.panelPowerGood; split <;> simp

@[simp] theorem Dev_panelPowerDown_kao (d : Dev) : (Dev.panelPowerDown d).kao = d.kao := by
  unfold Dev.panelPowerDown; split <;> simp

@[simp] theorem Dev_panelFaultWith_kao (d : Dev) (code : Byte) : (Dev.panelFaultWith d code).kao = d.kao := by
  unfold Dev.panelFaultWith
  apply Dev_watchLegal_kao; simp

@[simp] theorem Dev_panelFault_kao (d : Dev) (c : PanelFaultCause) : (Dev.panelFault d c).kao = d.kao := by
  unfold Dev.panelFault; dsimp only; (repeat' split) <;> simp

@[simp] theorem Dev_stressSave_kao (d : Dev) : (Dev.stressSave d).kao = d.kao := by
  unfold Dev.stressSave; split <;> simp

@[simp] theorem Dev_winAdvance_kao (d : Dev) : (Dev.winAdvance d).kao = d.kao := by
  unfold Dev.winAdvance; simp [apply_ite Dev.kao]

@[simp] theorem Dev_writeWindow_kao (d : Dev) (w : Word) : (Dev.writeWindow d w).2.kao = d.kao := by
  unfold Dev.writeWindow; (repeat' split) <;> simp

@[simp] theorem Dev_readWindow_kao (d : Dev) : (Dev.readWindow d).2.2.kao = d.kao := by
  unfold Dev.readWindow; split <;> simp

@[simp] theorem Dev_memAdvance_kao (d : Dev) : (Dev.memAdvance d).kao = d.kao := by
  simp [Dev.memAdvance]

@[simp] theorem Dev_writeMem_kao (d : Dev) (w : Word) : (Dev.writeMem d w).2.kao = d.kao := by
  unfold Dev.writeMem; (repeat' split) <;> simp

@[simp] theorem Dev_readMem_kao (d : Dev) : (Dev.readMem d).2.2.kao = d.kao := by
  unfold Dev.readMem; (repeat' split) <;> simp

theorem Dev_onRegion_kao (d : Dev) (arg : BitVec 24) (h : Fin 16 → CmdSt × Dev) (hk : ∀ r, (h r).2.kao = d.kao) :
    (d.onRegion arg h).2.kao = d.kao := by
  unfold Dev.onRegion; (repeat' split) <;> simp [hk]

@[simp] theorem updateCmd_kao (ag : Agent) (arg : BitVec 24) (d : Dev) : (updateCmd ag arg d).2.kao = d.kao := by
  unfold updateCmd; (try extract_lets)
  (try split)
  all_goals first
    | rfl
    | (apply Dev_onRegion_kao; intro r; (repeat' (first | split | dsimp only)) <;> first | (simp; done) | (apply Dev_watchLegal_kao; simp))

@[simp] theorem adoptCmd_kao (arg : BitVec 24) (d : Dev) : (adoptCmd arg d).2.kao = d.kao := by
  unfold adoptCmd; (try extract_lets)
  (try split)
  all_goals first
    | rfl
    | (apply Dev_onRegion_kao; intro r; (repeat' (first | split | dsimp only)) <;> first | (simp; done) | (apply Dev_watchLegal_kao; simp))

@[simp] theorem clearCmd_kao (arg : BitVec 24) (d : Dev) : (clearCmd arg d).2.kao = d.kao := by
  unfold clearCmd; (try extract_lets)
  (try split)
  all_goals first
    | rfl
    | (apply Dev_onRegion_kao; intro r; (repeat' (first | split | dsimp only)) <;> first | (simp; done) | (apply Dev_watchLegal_kao; simp))

@[simp] theorem Dev_lswInrush_kao (d : Dev) (c : Fin 16) : (Dev.lswInrush d c).kao = d.kao := by
  simp [Dev.lswInrush]

@[simp] theorem Dev_lswOff_kao (d : Dev) (c : Fin 16) : (Dev.lswOff d c).kao = d.kao := by
  simp [Dev.lswOff]

@[simp] theorem Dev_lswResume_kao (d : Dev) (c : Fin 16) : (Dev.lswResume d c).kao = d.kao := by
  unfold Dev.lswResume; split <;> simp

@[simp] theorem Dev_releaseHeld_kao (g : Fin 4) (k : Nat) (d : Dev) : (Dev.releaseHeld g k d).kao = d.kao := by
  induction k generalizing d with
  | zero => rfl
  | succ k ih => unfold Dev.releaseHeld; (repeat' split) <;> simp [ih]

@[simp] theorem Dev_lswSettle_kao (d : Dev) (c : Fin 16) : (Dev.lswSettle d c).kao = d.kao := by
  simp [Dev.lswSettle]

@[simp] theorem Dev_lswDemand_kao (d : Dev) (c : Fin 16) (on : Bool) : (Dev.lswDemand d c on).kao = d.kao := by
  unfold Dev.lswDemand; simp [apply_ite Dev.kao]

@[simp] theorem Dev_evcDemand_kao (d : Dev) (c : Fin 16) (on : Bool) : (Dev.evcDemand d c on).kao = d.kao := by
  unfold Dev.evcDemand; split <;> simp

@[simp] theorem Dev_protectOff_kao (d : Dev) (c : Fin 16) (reason : Nat) : (Dev.protectOff d c reason).kao = d.kao := by
  unfold Dev.protectOff; simp [apply_ite Dev.kao]

@[simp] theorem Dev_lswLatch_kao (d : Dev) (c : Fin 16) : (Dev.lswLatch d c).kao = d.kao := by
  simp [Dev.lswLatch]

@[simp] theorem Dev_latchToLocked_kao (d : Dev) (c : Fin 16) (reason : Nat) :
    (Dev.latchToLocked d c reason).kao = d.kao := by
  unfold Dev.latchToLocked; grind [Dev_count_kao, Dev_updLsw_kao, Dev_raise_kao]

@[simp] theorem Dev_shortOff_kao (d : Dev) (c : Fin 16) : (Dev.shortOff d c).kao = d.kao := by
  unfold Dev.shortOff; split <;> simp

@[simp] theorem Dev_overloadOff_kao (d : Dev) (c : Fin 16) : (Dev.overloadOff d c).kao = d.kao := by
  unfold Dev.overloadOff; split <;> simp

@[simp] theorem Dev_thermalOff_kao (d : Dev) (c : Fin 16) : (Dev.thermalOff d c).kao = d.kao := by
  unfold Dev.thermalOff; grind [Dev_lswLatch_kao, Dev_lswSettle_kao, Dev_updLsw_kao]

@[simp] theorem Dev_thermalRelease_kao (d : Dev) (c : Fin 16) (tj : Int) : (Dev.thermalRelease d c tj).kao = d.kao := by
  unfold Dev.thermalRelease; split <;> simp

@[simp] theorem Dev_inrushEnd_kao (d : Dev) (c : Fin 16) : (Dev.inrushEnd d c).kao = d.kao := by
  unfold Dev.inrushEnd; simp [apply_ite Dev.kao]

@[simp] theorem Dev_backoffEnd_kao (d : Dev) (c : Fin 16) : (Dev.backoffEnd d c).kao = d.kao := by
  unfold Dev.backoffEnd; simp [apply_ite Dev.kao]

@[simp] theorem Dev_budgetReset_kao (d : Dev) (c : Fin 16) : (Dev.budgetReset d c).kao = d.kao := by
  unfold Dev.budgetReset; split <;> simp

@[simp] theorem Dev_vlswFall_kao (d : Dev) (g : Fin 4) : (Dev.vlswFall d g).kao = d.kao := by
  unfold Dev.vlswFall; split <;> simp

@[simp] theorem Dev_lswRestart_kao (d : Dev) (c : Fin 16) (t : Nat) : (Dev.lswRestart d c t).kao = d.kao := by
  simp [Dev.lswRestart]

@[simp] theorem Dev_restartOne_kao (d : Dev) (c : Fin 16) : (Dev.restartOne d c).kao = d.kao := by
  unfold Dev.restartOne; (repeat' split) <;> simp

@[simp] theorem Dev_restartDue_kao (d : Dev) : (Dev.restartDue d).kao = d.kao := by
  simp [Dev.restartDue]

@[simp] theorem Dev_vlswRise_kao (d : Dev) (g : Fin 4) : (Dev.vlswRise d g).kao = d.kao := by
  unfold Dev.vlswRise
  split
  · extract_lets
    rw [Dev_releaseHeld_kao, Dev_restartDue_kao, foldl_kao, foldl_kao]
    · intro a x; split <;> simp
    · intro a x; simp
  · rfl

@[simp] theorem Dev_followLimp_kao (d : Dev) (c : Fin 16) : (Dev.followLimp d c).kao = d.kao := by
  unfold Dev.followLimp; split <;> simp

@[simp] theorem Dev_followInput_kao (d : Dev) (i : Fin 8) : (Dev.followInput d i).kao = d.kao := by
  unfold Dev.followInput; grind [foldl_kao, Dev_followLimp_kao]

@[simp] theorem Dev_loadShed_kao (d : Dev) (avg : Nat) : (Dev.loadShed d avg).kao = d.kao := by
  unfold Dev.loadShed; dsimp only; (repeat' split) <;> simp

@[simp] theorem Dev_followAll_kao (d : Dev) : (Dev.followAll d).kao = d.kao := by
  simp [Dev.followAll]

@[simp] theorem Dev_limpChange_kao (d : Dev) (active : Bool) : (Dev.limpChange d active).kao = d.kao := by
  unfold Dev.limpChange; split <;> simp

@[simp] theorem Dev_linChange_kao (d : Dev) (i : Fin 8) (level : Bool) : (Dev.linChange d i level).kao = d.kao := by
  unfold Dev.linChange; split <;> simp

@[simp] theorem Dev_writeLswCfg_kao (d : Dev) (c : Fin 16) (data : Word) : (Dev.writeLswCfg d c data).2.kao = d.kao := by
  unfold Dev.writeLswCfg; dsimp only; (repeat' split) <;> simp

@[simp] theorem Dev_writeLswRetry_kao (d : Dev) (c : Fin 16) (data : Word) : (Dev.writeLswRetry d c data).2.kao = d.kao := by
  unfold Dev.writeLswRetry; split <;> simp

@[simp] theorem Dev_writeLswInput_kao (d : Dev) (c : Fin 16) (data : Word) :
    (Dev.writeLswInput d c data).2.kao = d.kao := by
  unfold Dev.writeLswInput; grind [Dev_setReg_kao, Dev_followLimp_kao]

@[simp] theorem lswCommand_kao (arg : BitVec 24) (h : Fin 16 → Dev → CmdSt × Dev) (d : Dev) (hk : ∀ c x, (h c x).2.kao = x.kao) :
    (lswCommand arg h d).2.kao = d.kao := by
  unfold lswCommand; dsimp only; (repeat' split) <;> simp [hk]

@[simp] theorem swOnCmd_kao (c : Fin 16) (d : Dev) : (swOnCmd c d).2.kao = d.kao := by
  unfold swOnCmd; dsimp only; (repeat' split) <;> simp

@[simp] theorem swOffCmd_kao (c : Fin 16) (d : Dev) : (swOffCmd c d).2.kao = d.kao := by
  unfold swOffCmd; split <;> simp

@[simp] theorem swReleaseCmd_kao (c : Fin 16) (d : Dev) : (swReleaseCmd c d).2.kao = d.kao := by
  unfold swReleaseCmd; dsimp only; (repeat' split) <;> simp

theorem Dev_watchSafe_kao (d : Dev) (g : Dev → Dev) (hk : (g d).kao = d.kao) : (d.watchSafe g).kao = d.kao := by
  unfold Dev.watchSafe; rw [Dev_oneEvent_kao]; dsimp only; split <;> simp [hk]

@[simp] theorem Dev_endTripTest_kao (d : Dev) (n : Fin 8) : (Dev.endTripTest d n).kao = d.kao := by
  unfold Dev.endTripTest; split <;> simp

@[simp] theorem Dev_endResTest_kao (d : Dev) (n : Fin 8) : (Dev.endResTest d n).kao = d.kao := by
  unfold Dev.endResTest; split <;> simp

@[simp] theorem Dev_markTrip_kao (d : Dev) (n : Fin 8) : (Dev.markTrip d n).kao = d.kao := by
  simp [Dev.markTrip]

@[simp] theorem Dev_writeHb_kao (d : Dev) (ag : Agent) (data : Word) : (Dev.writeHb d ag data).2.kao = d.kao := by
  unfold Dev.writeHb; split <;> simp

@[simp] theorem kaoCommand_kao (arg : BitVec 24) (h : Fin 8 → Dev → CmdSt × Dev) (d : Dev) (hk : ∀ c x, (h c x).2.kao = x.kao) :
    (kaoCommand arg h d).2.kao = d.kao := by
  unfold kaoCommand; split
  · dsimp only; split <;> simp [hk]
  · rfl

@[simp] theorem kaoRestricted_kao (ag : Agent) (op : Nat) (arg : BitVec 24) (u : Nat) (h : Dev → CmdSt × Dev) (d : Dev)
    (hk : (h d).2.kao = d.kao) : (kaoRestricted ag op arg u h d).kao = d.kao := by
  unfold kaoRestricted; (repeat' split) <;> simp [hk]

@[simp] theorem Dev_drivePilot_kao (d : Dev) (n : Fin 8) : (Dev.drivePilot d n).kao = d.kao := by
  simp [Dev.drivePilot]

@[simp] theorem Dev_levelPilot_kao (d : Dev) (n : Fin 8) : (Dev.levelPilot d n).kao = d.kao := by
  unfold Dev.levelPilot; split <;> simp

@[simp] theorem Dev_takePilot_kao (d : Dev) (n : Fin 8) (m : CycleMeas) : (Dev.takePilot d n m).kao = d.kao := by
  unfold Dev.takePilot; simp [apply_ite Dev.kao]

@[simp] theorem Dev_takePp_kao (d : Dev) (n : Fin 8) (ohm : Nat) : (Dev.takePp d n ohm).kao = d.kao := by
  simp [Dev.takePp]

@[simp] theorem Dev_takeGrant_kao (d : Dev) (n : Fin 8) : (Dev.takeGrant d n).kao = d.kao := by
  simp [Dev.takeGrant]

@[simp] theorem Dev_sessionEvent_kao (d : Dev) (n : Fin 8) (old : Sess) : (Dev.sessionEvent d n old).kao = d.kao := by
  unfold Dev.sessionEvent; split <;> simp

@[simp] theorem Dev_goSess_kao (d : Dev) (n : Fin 8) (st : Sess) : (Dev.goSess d n st).kao = d.kao := by
  simp [Dev.goSess]

@[simp] theorem Dev_setLock_kao (d : Dev) (n : Fin 8) (on : Bool) : (Dev.setLock d n on).kao = d.kao := by
  simp [Dev.setLock]

@[simp] theorem Dev_cutContactor_kao (d : Dev) (n : Fin 8) : (Dev.cutContactor d n).kao = d.kao := by
  simp [Dev.cutContactor]

@[simp] theorem Dev_takeEnd_kao (d : Dev) (n : Fin 8) : (Dev.takeEnd d n).kao = d.kao := by
  simp [Dev.takeEnd]

@[simp] theorem Dev_settleEnd_kao (d : Dev) (n : Fin 8) : (Dev.settleEnd d n).kao = d.kao := by
  unfold Dev.settleEnd; grind [Dev_endDue_kao, Dev_takeEnd_kao, Dev_setLock_kao]

@[simp] theorem Dev_goIdle_kao (d : Dev) (n : Fin 8) : (Dev.goIdle d n).kao = d.kao := by
  simp [Dev.goIdle]

@[simp] theorem Dev_goFinished_kao (d : Dev) (n : Fin 8) (reason : Nat) : (Dev.goFinished d n reason).kao = d.kao := by
  simp [Dev.goFinished]

@[simp] theorem Dev_goFault_kao (d : Dev) (n : Fin 8) (reason : Nat) : (Dev.goFault d n reason).kao = d.kao := by
  unfold Dev.goFault; simp [apply_ite Dev.kao]

@[simp] theorem Dev_beginOpen_kao (d : Dev) (n : Fin 8) (wait : Nat) : (Dev.beginOpen d n wait).kao = d.kao := by
  unfold Dev.beginOpen; split <;> simp

@[simp] theorem Dev_goStopping_kao (d : Dev) (n : Fin 8) (reason wait : Nat) :
    (Dev.goStopping d n reason wait).kao = d.kao := by
  simp [Dev.goStopping]

@[simp] theorem Dev_overtakeStop_kao (d : Dev) (n : Fin 8) (reason wait : Nat) :
    (Dev.overtakeStop d n reason wait).kao = d.kao := by
  unfold Dev.overtakeStop; split <;> simp

@[simp] theorem Dev_stopCause_kao (d : Dev) (n : Fin 8) (reason wait : Nat) :
    (Dev.stopCause d n reason wait).kao = d.kao := by
  unfold Dev.stopCause; split <;> simp

@[simp] theorem Dev_goSuspended_kao (d : Dev) (n : Fin 8) (by_ : Susp) : (Dev.goSuspended d n by_).kao = d.kao := by
  simp [Dev.goSuspended]

@[simp] theorem Dev_stopWaitEnd_kao (d : Dev) (n : Fin 8) : (Dev.stopWaitEnd d n).kao = d.kao := by
  unfold Dev.stopWaitEnd; split <;> simp

@[simp] theorem Dev_endReading_kao (d : Dev) (n : Fin 8) : (Dev.endReading d n).kao = d.kao := by
  unfold Dev.endReading; grind [Dev_endDue_kao, Dev_takeEnd_kao, Dev_setLock_kao]

@[simp] theorem Dev_openTimeout_kao (d : Dev) (n : Fin 8) : (Dev.openTimeout d n).kao = d.kao := by
  unfold Dev.openTimeout
  extract_lets x
  split
  · split
    · split
      · rw [Dev_setLock_kao, Dev_takeEnd_kao, Dev_updEvc_kao]
      · rw [Dev_goFault_kao, Dev_takeEnd_kao, Dev_updEvc_kao]
    · rfl
  · rfl

@[simp] theorem Dev_goAuthorized_kao (d : Dev) (n : Fin 8) (method : Nat) (ref : List Word) :
    (Dev.goAuthorized d n method ref).kao = d.kao := by
  simp [Dev.goAuthorized]

@[simp] theorem Dev_authorizeAtOnce_kao (d : Dev) (n : Fin 8) : (Dev.authorizeAtOnce d n).kao = d.kao := by
  unfold Dev.authorizeAtOnce; (repeat' split) <;> simp

@[simp] theorem Dev_noteRefuse_kao (d : Dev) (n : Fin 8) (r : Nat) : (Dev.noteRefuse d n r).kao = d.kao := by
  unfold Dev.noteRefuse; dsimp only; split <;> simp

@[simp] theorem Dev_tryStart_kao (d : Dev) (n : Fin 8) : (Dev.tryStart d n).kao = d.kao := by
  unfold Dev.tryStart
  (repeat' split) <;> first | (simp; done) | (have h' := congrArg (fun p : _ × Dev => p.2.kao) ‹_ = ((_, _) : _ × Dev)›; simp at h'; dsimp only; split <;> simp [← h']; done)

@[simp] theorem Dev_goEnergizing_kao (d : Dev) (n : Fin 8) : (Dev.goEnergizing d n).kao = d.kao := by
  unfold Dev.goEnergizing; simp [apply_ite Dev.kao]

@[simp] theorem Dev_closeCycle_kao (d : Dev) (n : Fin 8) : (Dev.closeCycle d n).kao = d.kao := by
  unfold Dev.closeCycle; dsimp only; (repeat' split) <;> simp

@[simp] theorem Dev_lockTimeout_kao (d : Dev) (n : Fin 8) : (Dev.lockTimeout d n).kao = d.kao := by
  unfold Dev.lockTimeout; simp [apply_ite Dev.kao]

@[simp] theorem Dev_energize_kao (d : Dev) (n : Fin 8) : (Dev.energize d n).kao = d.kao := by
  unfold Dev.energize; dsimp only; (repeat' split) <;> simp

@[simp] theorem Dev_closeTimeout_kao (d : Dev) (n : Fin 8) : (Dev.closeTimeout d n).kao = d.kao := by
  unfold Dev.closeTimeout; simp [apply_ite Dev.kao]

@[simp] theorem Dev_energizeTimeout_kao (d : Dev) (n : Fin 8) : (Dev.energizeTimeout d n).kao = d.kao := by
  unfold Dev.energizeTimeout; split <;> simp

@[simp] theorem Dev_openCycle_kao (d : Dev) (n : Fin 8) : (Dev.openCycle d n).kao = d.kao := by
  unfold Dev.openCycle; simp [apply_ite Dev.kao]

@[simp] theorem Dev_sessionCycle_kao (d : Dev) (n : Fin 8) : (Dev.sessionCycle d n).kao = d.kao := by
  unfold Dev.sessionCycle; dsimp only; (repeat' split) <;> simp

@[simp] theorem Dev_sessionTurn_kao (d : Dev) (n : Fin 8) : (Dev.sessionTurn d n).kao = d.kao := by
  unfold Dev.sessionTurn; split <;> simp

@[simp] theorem Dev_sessionStep_kao (d : Dev) (n : Fin 8) : (Dev.sessionStep d n).kao = d.kao := by
  unfold Dev.sessionStep; (repeat' split) <;> simp

@[simp] theorem Dev_sendCan_kao (d : Dev) (port : Fin 2) (fr : CanFrame) : (Dev.sendCan d port fr).kao = d.kao := by
  simp [Dev.sendCan]

@[simp] theorem Dev_sendSetpoint_kao (d : Dev) (n : Fin 8) : (Dev.sendSetpoint d n).kao = d.kao := by
  unfold Dev.sendSetpoint; split <;> simp

@[simp] theorem Dev_takeStatus_kao (d : Dev) (n : Fin 8) (fr : CanFrame) : (Dev.takeStatus d n fr).kao = d.kao := by
  simp [Dev.takeStatus]

@[simp] theorem Dev_passCan_kao (d : Dev) (port : Fin 2) (fr : CanFrame) : (Dev.passCan d port fr).kao = d.kao := by
  unfold Dev.passCan; split <;> simp

@[simp] theorem Dev_canRx_kao (d : Dev) (port : Fin 2) (fr : CanFrame) : (Dev.canRx d port fr).kao = d.kao := by
  unfold Dev.canRx; split <;> simp

@[simp] theorem Dev_canSend_kao (d : Dev) (port : Fin 2) (q : Fin 64) (cs : List WordCheck) :
    (Dev.canSend d port q cs).kao = d.kao := by
  unfold Dev.canSend; grind [Dev_takeMsg_kao, Dev_sendCan_kao]

@[simp] theorem Dev_moduleLost_kao (d : Dev) (n : Fin 8) : (Dev.moduleLost d n).kao = d.kao := by
  unfold Dev.moduleLost; simp [apply_ite Dev.kao]

@[simp] theorem Dev_gpFollow_kao (d : Dev) (n : Fin 8) : (Dev.gpFollow d n).kao = d.kao := by
  unfold Dev.gpFollow; simp [apply_ite Dev.kao]

@[simp] theorem Dev_slacParm_kao (d : Dev) (n : Fin 8) (mac : BitVec 48) (atten : Nat) :
    (Dev.slacParm d n mac atten).kao = d.kao := by
  unfold Dev.slacParm; simp [apply_ite Dev.kao]

@[simp] theorem Dev_noteMatch_kao (d : Dev) (n : Fin 8) : (Dev.noteMatch d n).kao = d.kao := by
  simp [Dev.noteMatch]

@[simp] theorem Dev_slacMatch_kao (d : Dev) (n : Fin 8) : (Dev.slacMatch d n).kao = d.kao := by
  unfold Dev.slacMatch; grind [Dev_updGp_kao, Dev_noteMatch_kao, Dev_raiseEvc_kao]

@[simp] theorem Dev_slacLost_kao (d : Dev) (n : Fin 8) : (Dev.slacLost d n).kao = d.kao := by
  unfold Dev.slacLost; split <;> simp

@[simp] theorem Dev_gpRx_kao (d : Dev) (n : Fin 8) (bytes : List Byte) : (Dev.gpRx d n bytes).kao = d.kao := by
  unfold Dev.gpRx; dsimp only; (repeat' split) <;> simp

@[simp] theorem Dev_gpTx_kao (d : Dev) (n : Fin 8) (q : Fin 64) (cs : List WordCheck) :
    (Dev.gpTx d n q cs).kao = d.kao := by
  unfold Dev.gpTx; grind [Dev_takeMsg_kao, Dev_updGp_kao]

@[simp] theorem Dev_pwmFallback_kao (d : Dev) (n : Fin 8) : (Dev.pwmFallback d n).kao = d.kao := by
  unfold Dev.pwmFallback; simp [apply_ite Dev.kao]

@[simp] theorem Dev_evcFault_kao (d : Dev) (n : Fin 8) (code : Byte) : (Dev.evcFault d n code).kao = d.kao := by
  unfold Dev.evcFault; split <;> simp

@[simp] theorem Dev_takeLsw_kao (d : Dev) (n : Fin 8) (m : CycleMeas) : (Dev.takeLsw d n m).kao = d.kao := by
  simp [Dev.takeLsw]

@[simp] theorem Dev_controlCycle_kao (d : Dev) (n : Fin 8) (m : CycleMeas) : (Dev.controlCycle d n m).kao = d.kao := by
  unfold Dev.controlCycle; simp [apply_ite Dev.kao]

@[simp] theorem Dev_pilotDriverFault_kao (d : Dev) (n : Fin 8) : (Dev.pilotDriverFault d n).kao = d.kao := by
  simp [Dev.pilotDriverFault]

@[simp] theorem Dev_evOvercurrent_kao (d : Dev) (n : Fin 8) : (Dev.evOvercurrent d n).kao = d.kao := by
  unfold Dev.evOvercurrent; split <;> simp

@[simp] theorem Dev_countOver_kao (d : Dev) (n : Fin 8) : (Dev.countOver d n).kao = d.kao := by
  simp [Dev.countOver]

@[simp] theorem Dev_gridStop_kao (d : Dev) (n : Fin 8) (reason : Nat) : (Dev.gridStop d n reason).kao = d.kao := by
  unfold Dev.gridStop; rw [Dev_oneEvent_kao]; dsimp only; (repeat' split) <;> simp

@[simp] theorem Dev_gridReconnect_kao (d : Dev) (n : Fin 8) : (Dev.gridReconnect d n).kao = d.kao := by
  simp [Dev.gridReconnect]

@[simp] theorem Dev_gridLimit_kao (d : Dev) (n : Fin 8) (da : Option Nat) : (Dev.gridLimit d n da).kao = d.kao := by
  simp [Dev.gridLimit]

@[simp] theorem authorizeCmd_kao (ag : Agent) (m : Nat) (n : Fin 8) (d : Dev) : (authorizeCmd ag m n d).2.kao = d.kao := by
  unfold authorizeCmd; dsimp only; (repeat' split) <;> simp

@[simp] theorem denyCmd_kao (n : Fin 8) (d : Dev) : (denyCmd n d).2.kao = d.kao := by
  unfold denyCmd; split <;> simp

@[simp] theorem Dev_stopBy_kao (d : Dev) (n : Fin 8) (reason wait : Nat) : (Dev.stopBy d n reason wait).2.kao = d.kao := by
  unfold Dev.stopBy; split <;> simp

@[simp] theorem stopCmd_kao (ag : Agent) (n : Fin 8) (d : Dev) : (stopCmd ag n d).2.kao = d.kao := by
  unfold stopCmd
  (repeat' split) <;> first | (simp; done) | (have h' := congrArg (fun p : _ × Dev => p.2.kao) ‹_ = ((_, _) : _ × Dev)›; simp at h'; simp [← h']; done)

@[simp] theorem suspendCmd_kao (n : Fin 8) (d : Dev) : (suspendCmd n d).2.kao = d.kao := by
  unfold suspendCmd; split <;> simp

@[simp] theorem resumeCmd_kao (n : Fin 8) (d : Dev) : (resumeCmd n d).2.kao = d.kao := by
  unfold resumeCmd; split <;> simp

@[simp] theorem faultClearCmd_kao (n : Fin 8) (d : Dev) : (faultClearCmd n d).2.kao = d.kao := by
  unfold faultClearCmd; split <;> simp

@[simp] theorem evcCommand_kao (arg : BitVec 24) (b : Bool) (h : Fin 8 → Dev → CmdSt × Dev) (d : Dev) (hk : ∀ c x, (h c x).2.kao = x.kao) :
    (evcCommand arg b h d).2.kao = d.kao := by
  unfold evcCommand; (repeat' split) <;> simp [hk]

@[simp] theorem Dev_authMessage_kao (d : Dev) (n : Fin 8) (q : Fin 64) (cs : List WordCheck) :
    (Dev.authMessage d n q cs).kao = d.kao := by
  unfold Dev.authMessage; grind [Dev_takeMsg_kao, Dev_goAuthorized_kao, Dev_goFinished_kao, Dev_raiseEvc_kao]

@[simp] theorem Dev_authTimeout_kao (d : Dev) (n : Fin 8) : (Dev.authTimeout d n).kao = d.kao := by
  unfold Dev.authTimeout; simp [apply_ite Dev.kao]

@[simp] theorem Dev_preauthExpiry_kao (d : Dev) (n : Fin 8) : (Dev.preauthExpiry d n).kao = d.kao := by
  unfold Dev.preauthExpiry; (repeat' split) <;> simp

@[simp] theorem Dev_closeAnswer_kao (d : Dev) (n : Fin 8) (r : Bool × Dev) : (d.closeAnswer n r).kao = r.2.kao := by
  unfold Dev.closeAnswer; split
  · split <;> simp
  · rfl

@[simp] theorem Dev_contactorFailed_kao (d d1 : Dev) (c : Fin 16) : (d.contactorFailed d1 c).kao = d1.kao := by
  unfold Dev.contactorFailed; split
  · split <;> simp
  · rfl

@[simp] theorem Dev_withMac_kao (d : Dev) (fr : MeshFrame) : (Dev.withMac d fr).2.kao = d.kao := by
  simp [Dev.withMac]

@[simp] theorem Dev_updNbr_kao (d : Dev) (a : BitVec 16) (fr : Neighbour → Neighbour) : (Dev.updNbr d a fr).kao = d.kao := by
  simp [Dev.updNbr]

@[simp] theorem Dev_hear_kao (d : Dev) (a : BitVec 16) (snr : Int) : (Dev.hear d a snr).kao = d.kao := by
  unfold Dev.hear; dsimp only; (repeat' split) <;> simp

@[simp] theorem Dev_offerRoute_kao (d : Dev) (dest next : BitVec 16) (cost hops : Nat) :
    (Dev.offerRoute d dest next cost hops).kao = d.kao := by
  unfold Dev.offerRoute; (repeat' split) <;> simp

@[simp] theorem Dev_recomputeHead_kao (d : Dev) : (Dev.recomputeHead d).kao = d.kao := by
  unfold Dev.recomputeHead; dsimp only; (repeat' split) <;> simp

@[simp] theorem Dev_relinked_kao (d before : Dev) : (Dev.relinked d before).kao = d.kao := by
  simp [Dev.relinked]

@[simp] theorem Dev_linkTried_kao (d : Dev) (a : BitVec 16) (v : Rat) : (Dev.linkTried d a v).kao = d.kao := by
  simp [Dev.linkTried]

@[simp] theorem Dev_enqueueMesh_kao (d : Dev) (f : MeshFrame) : (Dev.enqueueMesh d f).kao = d.kao := by
  simp [Dev.enqueueMesh]

@[simp] theorem Dev_enqueueFirst_kao (d : Dev) (f : MeshFrame) : (Dev.enqueueFirst d f).kao = d.kao := by
  simp [Dev.enqueueFirst]

@[simp] theorem Dev_enqueueAck_kao (d : Dev) (fr : MeshFrame) : (Dev.enqueueAck d fr).kao = d.kao := by
  simp [Dev.enqueueAck]

@[simp] theorem Dev_meshId_kao (d : Dev) : (Dev.meshId d).2.kao = d.kao := by
  unfold Dev.meshId
  (repeat' split) <;> first | (simp; done) | (have h' := congrArg (fun p : _ × Dev => p.2.kao) ‹_ = ((_, _) : _ × Dev)›; simp at h'; simp [← h']; done)

@[simp] theorem Dev_useRoute_kao (d : Dev) (dest : BitVec 16) : (Dev.useRoute d dest).kao = d.kao := by
  simp [Dev.useRoute]

@[simp] theorem Dev_holdOrig_kao (d : Dev) (o : MeshOrig) : (Dev.holdOrig d o).kao = d.kao := by
  unfold Dev.holdOrig; split <;> simp

@[simp] theorem Dev_originateNow_kao (d : Dev) (o : MeshOrig) : (Dev.originateNow d o).kao = d.kao := by
  have h1 := Dev_meshId_kao d
  unfold Dev.originateNow
  (repeat' split) <;> simp_all

@[simp] theorem Dev_originate_kao (d : Dev) (ty : Nat) (ldst dest : BitVec 16) (cost hops : Nat) :
    (Dev.originate d ty ldst dest cost hops).kao = d.kao := by
  simp [Dev.originate]

@[simp] theorem Dev_releaseOrigs_kao (d : Dev) : (Dev.releaseOrigs d).kao = d.kao := by
  simp [Dev.releaseOrigs]

@[simp] theorem Dev_sendBeacon_kao (d : Dev) : (Dev.sendBeacon d).kao = d.kao := by
  simp [Dev.sendBeacon]

@[simp] theorem Dev_plcSend_kao (d : Dev) (ws : List QData) (flag : Nat) : (Dev.plcSend d ws flag).kao = d.kao := by
  unfold Dev.plcSend; (repeat' split) <;> simp

@[simp] theorem Dev_txDone_kao (d : Dev) (ident : Word) (status attempts : Nat) :
    (Dev.txDone d ident status attempts).kao = d.kao := by
  simp [Dev.txDone]

@[simp] theorem Dev_finishJob_kao (d : Dev) (status : Nat) : (Dev.finishJob d status).kao = d.kao := by
  unfold Dev.finishJob; (repeat' split) <;> simp

@[simp] theorem Dev_meshFrameEnd_kao (d : Dev) : (Dev.meshFrameEnd d).kao = d.kao := by
  unfold Dev.meshFrameEnd; split <;> simp

@[simp] theorem Dev_abandonFrame_kao (d : Dev) (fr : MeshFrame) (headPassed : Bool) :
    (Dev.abandonFrame d fr headPassed).kao = d.kao := by
  unfold Dev.abandonFrame; rw [Dev_oneEvent_kao]; dsimp only; split <;> simp

@[simp] theorem Dev_remember_kao (d : Dev) (fr : MeshFrame) : (Dev.remember d fr).kao = d.kao := by
  simp [Dev.remember]

@[simp] theorem Dev_meshStale_kao (d : Dev) : (Dev.meshStale d).kao = d.kao := by
  simp [Dev.meshStale]

@[simp] theorem Dev_headEpoch_kao (d : Dev) (fr : MeshFrame) : (Dev.headEpoch d fr).2.kao = d.kao := by
  unfold Dev.headEpoch; dsimp only; (repeat' split) <;> simp

@[simp] theorem Dev_macReject_kao (d : Dev) (f : MeshFrame) : (Dev.macReject d f).kao = d.kao := by
  unfold Dev.macReject; split <;> simp

@[simp] theorem Dev_macAccept_kao (d : Dev) (f : MeshFrame) : (Dev.macAccept d f).2.kao = d.kao := by
  unfold Dev.macAccept; (repeat' split) <;> simp

@[simp] theorem Dev_headAccept_kao (d : Dev) (f : MeshFrame) : (Dev.headAccept d f).2.kao = d.kao := by
  unfold Dev.headAccept; grind [Dev_macAccept_kao, Dev_headEpoch_kao]

@[simp] theorem Dev_forward_kao (d : Dev) (f : MeshFrame) (payload : List Byte) :
    (Dev.forward d f payload).kao = d.kao := by
  unfold Dev.forward; (repeat' split) <;> simp

@[simp] theorem Dev_flood_kao (d : Dev) (fr : MeshFrame) (payload : List Byte) : (Dev.flood d fr payload).kao = d.kao := by
  unfold Dev.flood; split <;> simp

@[simp] theorem Dev_offerOrigin_kao (d : Dev) (f : MeshFrame) : (Dev.offerOrigin d f).kao = d.kao := by
  simp [Dev.offerOrigin]

@[simp] theorem Dev_takeMine_kao (d : Dev) (f : MeshFrame) : (Dev.takeMine d f).kao = d.kao := by
  unfold Dev.takeMine; grind [Dev_plcSend_kao, Dev_updNbr_kao, Dev_recomputeHead_kao, Dev_offerOrigin_kao,
    Dev_originate_kao, Dev_flood_kao]

@[simp] theorem Dev_meshPass_kao (d : Dev) (f : MeshFrame) : (Dev.meshPass d f).kao = d.kao := by
  unfold Dev.meshPass; grind [Dev_forward_kao, Dev_offerOrigin_kao, Dev_flood_kao]

@[simp] theorem Dev_takeFrame_kao (d : Dev) (f : MeshFrame) : (Dev.takeFrame d f).kao = d.kao := by
  unfold Dev.takeFrame; grind [Dev_headAccept_kao, Dev_remember_kao, Dev_takeMine_kao, Dev_meshPass_kao]

@[simp] theorem Dev_takeAck_kao (d : Dev) (fr : MeshFrame) : (Dev.takeAck d fr).kao = d.kao := by
  unfold Dev.takeAck; (repeat' split) <;> simp

@[simp] theorem Dev_goodFrame_kao (d : Dev) (f : MeshFrame) (snr : Int) : (Dev.goodFrame d f snr).kao = d.kao := by
  unfold Dev.goodFrame; grind [Dev_count_kao, Dev_hear_kao, Dev_relinked_kao, Dev_macReject_kao,
    Dev_macAccept_kao, Dev_takeAck_kao, Dev_enqueueAck_kao, Dev_meshStale_kao, Dev_takeFrame_kao]

@[simp] theorem Dev_meshRx_kao (d : Dev) (f : MeshFrame) (m : RxMeas) : (Dev.meshRx d f m).kao = d.kao := by
  unfold Dev.meshRx; (repeat' split) <;> simp

@[simp] theorem Dev_putOnLine_kao (d : Dev) (f : MeshFrame) : (Dev.putOnLine d f).kao = d.kao := by
  simp [Dev.putOnLine]

@[simp] theorem Dev_sendAck_kao (d : Dev) (j : MeshJob) : (Dev.sendAck d j).kao = d.kao := by
  unfold Dev.sendAck; rw [Dev_putOnLine_kao]

@[simp] theorem Dev_senseTones_kao (d : Dev) (lo hi : Nat) : (Dev.senseTones d lo hi).kao = d.kao := by
  unfold Dev.senseTones; (repeat' split) <;> first | rfl | rw [Dev_putOnLine_kao]

@[simp] theorem Dev_loadJob_kao (d : Dev) (j : MeshJob) : (Dev.loadJob d j).kao = d.kao := by
  simp [Dev.loadJob]

@[simp] theorem Dev_startOwn_kao (d : Dev) (ty flags : Nat) (dest : BitVec 16) (payload : List Byte) (frag : Bool) :
    (Dev.startOwn d ty flags dest payload frag).kao = d.kao := by
  unfold Dev.startOwn; grind [Dev_meshId_kao, Dev_useRoute_kao, Dev_finishJob_kao, Dev_originate_kao,
    Dev_withMac_kao, Dev_loadJob_kao]

@[simp] theorem Dev_plcFront_kao (d : Dev) (q : Fin 64) : (Dev.plcFront d q).kao = d.kao := by
  unfold Dev.plcFront; rw [foldl_kao] <;> simp

@[simp] theorem Dev_takePlcTx_kao (d : Dev) (cs : List WordCheck) : (Dev.takePlcTx d cs).kao = d.kao := by
  unfold Dev.takePlcTx; grind [foldl_kao, Dev_plcFront_kao, Dev_nextQueue_kao, Dev_takeMsg_kao,
    Dev_startOwn_kao]

@[simp] theorem Dev_chooseFrame_kao (d : Dev) (cs : List WordCheck) : (Dev.chooseFrame d cs).kao = d.kao := by
  unfold Dev.chooseFrame; grind [Dev_loadJob_kao, Dev_meshId_kao, Dev_startOwn_kao, foldl_kao,
    Dev_plcFront_kao, Dev_takePlcTx_kao]

@[simp] theorem Dev_offLine_kao (d : Dev) : (Dev.offLine d).kao = d.kao := by
  simp [Dev.offLine]

@[simp] theorem Dev_dropAged_kao (d : Dev) : (Dev.dropAged d).kao = d.kao := by
  unfold Dev.dropAged; (repeat' split) <;> simp

@[simp] theorem Dev_readyFrames_kao (d : Dev) : (Dev.readyFrames d).kao = d.kao := by
  simp [Dev.readyFrames]

theorem Dev_nextAck_kao {d d1 : Dev} {j : MeshJob} (h : d.nextAck = some (j, d1)) : d1.kao = d.kao := by
  unfold Dev.nextAck at h
  split at h
  · split at h
    · simp only [Option.some.injEq, Prod.mk.injEq] at h; rw [← h.2]
    · cases h
  · cases h

@[simp] theorem Dev_meshTransmit_kao (d : Dev) (lo hi zx : Nat) (cs : List WordCheck) :
    (Dev.meshTransmit d lo hi zx cs).kao = d.kao := by
  unfold Dev.meshTransmit; grind [Dev_readyFrames_kao, Dev_nextAck_kao, Dev_sendAck_kao,
    Dev_chooseFrame_kao, Dev_senseTones_kao]

@[simp] theorem Dev_meshDeferEnd_kao (d : Dev) (lo hi zx cycles : Nat) :
    (Dev.meshDeferEnd d lo hi zx cycles).kao = d.kao := by
  unfold Dev.meshDeferEnd; grind [Dev_readyFrames_kao, Dev_nextAck_kao, Dev_sendAck_kao, Dev_senseTones_kao]

@[simp] theorem Dev_sentFrame_kao (d : Dev) (j : MeshJob) : (Dev.sentFrame d j).kao = d.kao := by
  unfold Dev.sentFrame; (repeat' split) <;> simp

@[simp] theorem Dev_countSent_kao (d : Dev) (degraded : Bool) : (Dev.countSent d degraded).kao = d.kao := by
  unfold Dev.countSent; split <;> simp

@[simp] theorem Dev_lineBits_kao (d : Dev) (limits : List Bool) : (Dev.lineBits d limits).kao = d.kao := by
  simp [Dev.lineBits]

@[simp] theorem Dev_meshLineEnd_kao (d : Dev) (fault : Bool) : (Dev.meshLineEnd d fault).kao = d.kao := by
  unfold Dev.meshLineEnd; dsimp only; (repeat' split) <;> simp

@[simp] theorem Dev_meshTxComplete_kao (d : Dev) (limits : List Bool) : (Dev.meshTxComplete d limits).kao = d.kao := by
  unfold Dev.meshTxComplete; grind [Dev_lineBits_kao, Dev_oneEvent_kao, Dev_meshLineEnd_kao,
    Dev_meshFrameEnd_kao]

@[simp] theorem Dev_ackTimeout_kao (d : Dev) : (Dev.ackTimeout d).kao = d.kao := by
  unfold Dev.ackTimeout; dsimp only; (repeat' split) <;> simp

@[simp] theorem Dev_beaconPeriod_kao (d : Dev) : (Dev.beaconPeriod d).kao = d.kao := by
  unfold Dev.beaconPeriod; split <;> simp

@[simp] theorem Dev_pairBeacon_kao (d : Dev) : (Dev.pairBeacon d).kao = d.kao := by
  unfold Dev.pairBeacon; (repeat' split) <;> simp

@[simp] theorem Dev_nbrExpiry_kao (d : Dev) (a : BitVec 16) : (Dev.nbrExpiry d a).kao = d.kao := by
  unfold Dev.nbrExpiry; (repeat' split) <;> simp

@[simp] theorem Dev_penaltyDecay_kao (d : Dev) : (Dev.penaltyDecay d).kao = d.kao := by
  unfold Dev.penaltyDecay; split <;> simp

@[simp] theorem Dev_meshReading_kao (d : Dev) (q : Fin 64) (cs : List WordCheck) :
    (Dev.meshReading d q cs).kao = d.kao := by
  unfold Dev.meshReading; grind [Dev_plcFront_kao, Dev_takeMsg_kao]

@[simp] theorem Dev_hesAccept_kao (d : Dev) (fr : MeshFrame) : (Dev.hesAccept d fr).2.kao = d.kao := by
  unfold Dev.hesAccept
  (repeat' split) <;> first | (simp; done) | (have h' := congrArg (fun p : _ × Dev => p.2.kao) ‹_ = ((_, _) : _ × Dev)›; simp at h'; simp [← h']; done)

@[simp] theorem Dev_hesAnswer_kao (d : Dev) (rs : List (Byte × Word)) (key : BitVec 256) :
    (Dev.hesAnswer d rs key).kao = d.kao := by
  simp [Dev.hesAnswer]

@[simp] theorem Dev_zxCheck_kao (d : Dev) (msg : BitVec 64) (mac : Nat) : (Dev.zxCheck d msg mac).kao = d.kao := by
  unfold Dev.zxCheck; grind [Dev_useKey_kao, Dev_count_kao, Dev_raisePlc_kao]

@[simp] theorem Dev_zxWhole_kao (d : Dev) (bs : List ZxBit) : (Dev.zxWhole d bs).kao = d.kao := by
  simp [Dev.zxWhole]

@[simp] theorem Dev_zxReceive_kao (d : Dev) (x : Int) : (Dev.zxReceive d x).kao = d.kao := by
  unfold Dev.zxReceive; grind [Dev_count_kao, Dev_raisePlc_kao, Dev_zxWhole_kao]

@[simp] theorem Dev_zxCycle_kao (d : Dev) (x : Int) : (Dev.zxCycle d x).kao = d.kao := by
  simp [Dev.zxCycle]

@[simp] theorem Dev_zxMessage_kao (d : Dev) (cycles : List Int) : (Dev.zxMessage d cycles).kao = d.kao := by
  unfold Dev.zxMessage; split <;> simp

@[simp] theorem Dev_zxDisconnect_kao (d : Dev) (mask : Nat) : (Dev.zxDisconnect d mask).kao = d.kao := by
  simp [Dev.zxDisconnect]

@[simp] theorem Dev_zxReconnect_kao (d : Dev) (mask : Nat) : (Dev.zxReconnect d mask).kao = d.kao := by
  simp [Dev.zxReconnect]

@[simp] theorem Dev_zxStop_kao (d : Dev) (mask : Nat) : (Dev.zxStop d mask).kao = d.kao := by
  simp [Dev.zxStop]

@[simp] theorem Dev_zxLimit_kao (d : Dev) (mask : Nat) (params : Word) : (Dev.zxLimit d mask params).kao = d.kao := by
  simp [Dev.zxLimit]

@[simp] theorem Dev_zxTariff_kao (d : Dev) (mask : Nat) (params : Word) (t : Nat) :
    (Dev.zxTariff d mask params t).kao = d.kao := by
  unfold Dev.zxTariff; split <;> simp

@[simp] theorem Dev_zxExecute_kao (d : Dev) (op mask : Nat) (params : Word) (t : Nat) :
    (Dev.zxExecute d op mask params t).kao = d.kao := by
  unfold Dev.zxExecute; simp [apply_ite Dev.kao]

@[simp] theorem Dev_queueConf_kao (d : Dev) (body : Word) : (Dev.queueConf d body).kao = d.kao := by
  unfold Dev.queueConf; split <;> simp

@[simp] theorem Dev_zxAuthenticated_kao (d : Dev) : (Dev.zxAuthenticated d).kao = d.kao := by
  unfold Dev.zxAuthenticated; grind [Dev_zxExecute_kao, Dev_count_kao, Dev_produce_kao, Dev_raisePlc_kao,
    Dev_useKey_kao, Dev_queueConf_kao]

@[simp] theorem Dev_zxConfirm_kao (d : Dev) : (Dev.zxConfirm d).kao = d.kao := by
  unfold Dev.zxConfirm; (repeat' split) <;> simp

@[simp] theorem Dev_zxConfirmEnd_kao (d : Dev) : (Dev.zxConfirmEnd d).kao = d.kao := by
  unfold Dev.zxConfirmEnd; split <;> simp

@[simp] theorem routeClearCmd_kao (d : Dev) : (routeClearCmd d).2.kao = d.kao := by
  unfold routeClearCmd; split <;> simp

@[simp] theorem plcCountClearCmd_kao (d : Dev) : (plcCountClearCmd d).2.kao = d.kao := by
  simp [plcCountClearCmd]

@[simp] theorem beaconCmd_kao (d : Dev) : (beaconCmd d).2.kao = d.kao := by
  unfold beaconCmd; split <;> simp

@[simp] theorem Dev_stoWord_kao (d : Dev) (a : Nat) : (Dev.stoWord d a).2.kao = d.kao := by
  unfold Dev.stoWord; (repeat' split) <;> simp

@[simp] theorem Dev_stoAdvance_kao (d : Dev) (ag : Agent) : (Dev.stoAdvance d ag).kao = d.kao := by
  simp [Dev.stoAdvance]

@[simp] theorem Dev_stoRead_kao (d : Dev) (ag : Agent) : (Dev.stoRead d ag).2.2.kao = d.kao := by
  unfold Dev.stoRead; split <;> simp

@[simp] theorem Dev_stoRefuse_kao (d : Dev) (target : Nat) : (Dev.stoRefuse d target).2.kao = d.kao := by
  simp [Dev.stoRefuse]

@[simp] theorem Dev_stoNote_kao (d : Dev) (ag : Agent) (a : Nat) (x : StoArea) : (d.stoNote ag a x).kao = d.kao := by
  unfold Dev.stoNote; (repeat' split) <;> simp

@[simp] theorem Dev_stoWrite_kao (d : Dev) (ag : Agent) (data : Word) : (Dev.stoWrite d ag data).2.kao = d.kao := by
  unfold Dev.stoWrite; dsimp only; (repeat' split) <;> simp

@[simp] theorem Dev_storeWindow_kao (d : Dev) (ag : Agent) (write : Option Word) :
    (Dev.storeWindow d ag write).kao = d.kao := by
  unfold Dev.storeWindow; split <;> simp

@[simp] theorem scrubCmd_kao (arg : BitVec 24) (d : Dev) : (scrubCmd arg d).2.kao = d.kao := by
  simp [scrubCmd]

@[simp] theorem stoCountClearCmd_kao (arg : BitVec 24) (d : Dev) : (stoCountClearCmd arg d).2.kao = d.kao := by
  simp [stoCountClearCmd]

@[simp] theorem Dev_scrubPass_kao (d : Dev) : (Dev.scrubPass d).kao = d.kao := by
  unfold Dev.scrubPass; split <;> simp

@[simp] theorem Dev_foundBad_kao (d : Dev) (a : Nat) : (Dev.foundBad d a).kao = d.kao := by
  unfold Dev.foundBad; simp [apply_ite Dev.kao]

@[simp] theorem Dev_scrubComplete_kao (d : Dev) (corrected : Nat) (bad : List Nat) :
    (Dev.scrubComplete d corrected bad).kao = d.kao := by
  unfold Dev.scrubComplete; simp [apply_ite Dev.kao]

@[simp] theorem Dev_storeBlock_kao (d : Dev) (ws : List QData) : (Dev.storeBlock d ws).kao = d.kao := by
  unfold Dev.storeBlock; simp [apply_ite Dev.kao]

@[simp] theorem Dev_storeMessage_kao (d : Dev) (q : Fin 64) (cs : List WordCheck) :
    (Dev.storeMessage d q cs).kao = d.kao := by
  unfold Dev.storeMessage; grind [Dev_freshFront_kao, Dev_takeMsg_kao, Dev_storeBlock_kao, foldl_kao,
    Dev_produce_kao]

theorem Dev_watchSplit_kao (d : Dev) (g : Dev → Dev) (hk : (g d).kao = d.kao) : (d.watchSplit g).kao = d.kao := by
  unfold Dev.watchSplit; rw [Dev_oneEvent_kao]; dsimp only; split <;> simp [hk]

@[simp] theorem Dev_setHostPort_kao (d : Dev) (portB : Bool) : (Dev.setHostPort d portB).kao = d.kao := by
  unfold Dev.setHostPort; split <;> simp

@[simp] theorem Dev_loseHostPort_kao (d : Dev) : (Dev.loseHostPort d).kao = d.kao := by
  unfold Dev.loseHostPort; split <;> simp

@[simp] theorem Dev_flowPort_kao (d : Dev) (portB : Bool) : (Dev.flowPort d portB).kao = d.kao := by
  simp [Dev.flowPort]

@[simp] theorem Dev_flow_kao (d : Dev) : (Dev.flow d).kao = d.kao := by
  simp [Dev.flow]

@[simp] theorem Dev_sendRing_kao (d : Dev) (portB : Bool) (fr : RingFrame) (own : Bool) :
    (Dev.sendRing d portB fr own).kao = d.kao := by
  simp [Dev.sendRing]

@[simp] theorem Dev_startC0_kao (d : Dev) (portB : Bool) (fr : RingFrame) : (Dev.startC0 d portB fr).kao = d.kao := by
  simp [Dev.startC0]

@[simp] theorem Dev_sendLink_kao (d : Dev) (portB : Bool) (up : Nat) : (Dev.sendLink d portB up).kao = d.kao := by
  unfold Dev.sendLink; split <;> simp

@[simp] theorem Dev_bridgeTake_kao (d : Dev) (q : Fin 64) (cls : Fin 4) (cs : List WordCheck) :
    (Dev.bridgeTake d q cls cs).kao = d.kao := by
  unfold Dev.bridgeTake; grind [Dev_freshFront_kao, Dev_issueId_kao, Dev_raiseAul_kao, Dev_takeMsg_kao,
    Dev_startC0_kao, Dev_sendRing_kao]

@[simp] theorem Dev_bridgeSend_kao (d : Dev) (q : Fin 64) (cs : List WordCheck) : (Dev.bridgeSend d q cs).kao = d.kao := by
  unfold Dev.bridgeSend; grind [Dev_bridgeTake_kao]

@[simp] theorem Dev_c0Release_kao (d : Dev) (q : Fin 64) (cs : List WordCheck) : (Dev.c0Release d q cs).kao = d.kao := by
  unfold Dev.c0Release; split <;> simp

@[simp] theorem Dev_countCrc_kao (d : Dev) : (Dev.countCrc d).kao = d.kao := by
  simp [Dev.countCrc]

@[simp] theorem Dev_misroute_kao (d : Dev) : (Dev.misroute d).kao = d.kao := by
  simp [Dev.misroute]

@[simp] theorem Dev_passOn_kao (d : Dev) (portB : Bool) (fr : RingFrame) : (Dev.passOn d portB fr).kao = d.kao := by
  unfold Dev.passOn; split <;> simp

@[simp] theorem Dev_holdFrame_kao (d : Dev) (portB : Bool) (fr : RingFrame) : (Dev.holdFrame d portB fr).kao = d.kao := by
  simp [Dev.holdFrame]

@[simp] theorem Dev_takeData_kao (d : Dev) (portB : Bool) (fr : RingFrame) : (Dev.takeData d portB fr).kao = d.kao := by
  unfold Dev.takeData; (repeat' split) <;> simp

@[simp] theorem Dev_forwardFrame_kao (d : Dev) (portB : Bool) (fr : RingFrame) :
    (Dev.forwardFrame d portB fr).kao = d.kao := by
  unfold Dev.forwardFrame; simp [apply_ite Dev.kao]

@[simp] theorem Dev_releaseRing_kao (xs kept : List (Bool × RingFrame)) (d : Dev) :
    (Dev.releaseRing xs kept d).kao = d.kao := by
  induction xs generalizing kept d with
  | nil => rfl
  | cons x xs ih => obtain ⟨p, fr⟩ := x; unfold Dev.releaseRing; (repeat' split) <;> simp [ih]

@[simp] theorem Dev_workBuffers_kao (d : Dev) : (Dev.workBuffers d).kao = d.kao := by
  simp [Dev.workBuffers]

theorem Dev_receive_kao (d : Dev) (p : Bool) (fr : RingFrame) (g : Dev → Dev) (hk : (g d).kao = d.kao) :
    (d.receive p fr g).kao = d.kao := by
  unfold Dev.receive; (repeat' split) <;> simp [hk]

@[simp] theorem Dev_dataFrame_kao (d : Dev) (portB : Bool) (fr : RingFrame) : (Dev.dataFrame d portB fr).kao = d.kao := by
  unfold Dev.dataFrame
  split
  · apply Dev_receive_kao; (try apply Dev_watchSplit_kao); dsimp only; (repeat' split) <;> simp
  · rfl

@[simp] theorem Dev_frameForward_kao (d : Dev) (portB : Bool) (fr : RingFrame) :
    (Dev.frameForward d portB fr).kao = d.kao := by
  unfold Dev.frameForward; split <;> simp

@[simp] theorem Dev_pauseRx_kao (d : Dev) (portB : Bool) (cls : Fin 4) : (Dev.pauseRx d portB cls).kao = d.kao := by
  unfold Dev.pauseRx; split <;> simp

@[simp] theorem Dev_sendReps_kao (d : Dev) : (Dev.sendReps d).kao = d.kao := by
  simp [Dev.sendReps]

@[simp] theorem Dev_goRx_kao (d : Dev) (portB : Bool) (cls : Fin 4) : (Dev.goRx d portB cls).kao = d.kao := by
  simp [Dev.goRx]

@[simp] theorem Dev_takeNumber_kao (d : Dev) (n : Nat) : (Dev.takeNumber d n).kao = d.kao := by
  simp [Dev.takeNumber]

@[simp] theorem Dev_enumAct_kao (d : Dev) (pass : Nat) (m : Nat) : (Dev.enumAct d pass m).1.kao = d.kao := by
  unfold Dev.enumAct; dsimp only; (repeat' split) <;> simp

@[simp] theorem Dev_ringEnum_kao (d : Dev) (portB : Bool) (fr : RingFrame) : (Dev.ringEnum d portB fr).kao = d.kao := by
  unfold Dev.ringEnum
  split
  · apply Dev_receive_kao; (try apply Dev_watchSplit_kao); dsimp only; (repeat' split) <;> simp
  · rfl

@[simp] theorem Dev_ringRoute_kao (d : Dev) (portB : Bool) (fr : RingFrame) : (Dev.ringRoute d portB fr).kao = d.kao := by
  unfold Dev.ringRoute
  split
  · apply Dev_receive_kao; (repeat' (first | split | dsimp only)) <;> first | (simp; done) | (rw [Dev_forwardFrame_kao]; apply Dev_watchSplit_kao; (repeat' (first | split | dsimp only)) <;> simp)
  · rfl

@[simp] theorem Dev_ringLink_kao (d : Dev) (portB : Bool) (fr : RingFrame) : (Dev.ringLink d portB fr).kao = d.kao := by
  unfold Dev.ringLink
  split
  · apply Dev_receive_kao; (repeat' (first | split | dsimp only)) <;> first | (simp; done) | (rw [Dev_forwardFrame_kao]; apply Dev_watchSplit_kao; (repeat' (first | split | dsimp only)) <;> simp)
  · rfl

@[simp] theorem Dev_dropPort_kao (d : Dev) (portB : Bool) : (Dev.dropPort d portB).kao = d.kao := by
  unfold Dev.dropPort; grind [Dev_watchSplit_kao, Dev_updPort_kao, Dev_raiseAul_kao, Dev_loseHostPort_kao,
    Dev_sendLink_kao]

@[simp] theorem Dev_portDown_kao (d : Dev) (portB : Bool) : (Dev.portDown d portB).kao = d.kao := by
  unfold Dev.portDown; split <;> simp

@[simp] theorem Dev_portUp_kao (d : Dev) (portB : Bool) : (Dev.portUp d portB).kao = d.kao := by
  unfold Dev.portUp
  split
  · rfl
  · rw [Dev_flow_kao, Dev_sendReps_kao]; apply Dev_watchSplit_kao; simp

@[simp] theorem Dev_delayReq_kao (d : Dev) (portB : Bool) : (Dev.delayReq d portB).kao = d.kao := by
  unfold Dev.delayReq; split <;> simp

@[simp] theorem Dev_delayResp_kao (d : Dev) (portB : Bool) (t2 t3 : BitVec 64) :
    (Dev.delayResp d portB t2 t3).kao = d.kao := by
  unfold Dev.delayResp; (repeat' split) <;> simp

@[simp] theorem Dev_sendDelayReq_kao (d : Dev) (portB : Bool) : (Dev.sendDelayReq d portB).kao = d.kao := by
  unfold Dev.sendDelayReq; split <;> simp

@[simp] theorem Dev_delayTimer_kao (d : Dev) : (Dev.delayTimer d).kao = d.kao := by
  unfold Dev.delayTimer; split <;> simp

@[simp] theorem Dev_ringSync_kao (d : Dev) (portB : Bool) (fr : RingFrame) : (Dev.ringSync d portB fr).kao = d.kao := by
  unfold Dev.ringSync
  split
  · apply Dev_receive_kao; (try apply Dev_watchSplit_kao); dsimp only; (repeat' split) <;> simp
  · rfl

@[simp] theorem aulCountClearCmd_kao (arg : BitVec 24) (d : Dev) : (aulCountClearCmd arg d).2.kao = d.kao := by
  unfold aulCountClearCmd; split <;> simp

@[simp] theorem portRetrainCmd_kao (ag : Agent) (arg : BitVec 24) (d : Dev) : (portRetrainCmd ag arg d).2.kao = d.kao := by
  unfold portRetrainCmd; dsimp only; (repeat' split) <;> simp

@[simp] theorem Dev_stopPorts_kao (d : Dev) : (Dev.stopPorts d).kao = d.kao := by
  simp [Dev.stopPorts]

@[simp] theorem Dev_readPortState_kao (d : Dev) (portB : Bool) : (Dev.readPortState d portB).2.kao = d.kao := by
  simp [Dev.readPortState]

@[simp] theorem Dev_checkSlot_kao (d : Dev) (slot : Nat) : (Dev.checkSlot d slot).2.kao = d.kao := by
  unfold Dev.checkSlot; simp [apply_ite Dev.kao]

@[simp] theorem Dev_loadCert_kao (d : Dev) (k : Fin 64) : (Dev.loadCert d k).kao = d.kao := by
  unfold Dev.loadCert; dsimp only
  split
  · exact Dev_updKey_kao _ _ _
  · exact Dev_updKey_kao _ _ _

@[simp] theorem Dev_personaDefaults_kao (d : Dev) : (Dev.personaDefaults d).kao = d.kao := by
  simp [Dev.personaDefaults]

@[simp] theorem Dev_otherCheck_kao (d : Dev) (a r k : Nat) : (Dev.otherCheck d a r k).2.kao = d.kao := by
  simp [Dev.otherCheck]

@[simp] theorem Dev_firstCheck_kao (d : Dev) : (Dev.firstCheck d).2.kao = d.kao := by
  simp [Dev.firstCheck]

@[simp] theorem siVerifyCmd_kao (arg : BitVec 24) (d : Dev) : (siVerifyCmd arg d).2.kao = d.kao := by
  unfold siVerifyCmd; dsimp only; (repeat' split) <;> simp

@[simp] theorem Dev_rebindLsw_kao (d : Dev) (c : Fin 16) : (d.rebindLsw c).kao = d.kao := by
  unfold Dev.rebindLsw; dsimp only; split <;> simp

@[simp] theorem siReloadCmd_kao (arg : BitVec 24) (d : Dev) : (siReloadCmd arg d).2.kao = d.kao := by
  unfold siReloadCmd; dsimp only; (repeat' split) <;> simp

@[simp] theorem Dev_defaultSettings_kao (d : Dev) (g u : Nat) : (Dev.defaultSettings d g u).kao = d.kao := by
  simp [Dev.defaultSettings]

@[simp] theorem Dev_kindReading_kao (d : Dev) (n : Fin 8) (old new : Nat) : (Dev.kindReading d n old new).kao = d.kao := by
  simp [Dev.kindReading]

@[simp] theorem Dev_clearUnused_kao (d : Dev) : (Dev.clearUnused d).kao = d.kao := by
  simp [Dev.clearUnused]

@[simp] theorem Dev_kindDefaults_kao (d : Dev) (n : Fin 8) : (Dev.kindDefaults d n).kao = d.kao := by
  unfold Dev.kindDefaults; simp [apply_ite Dev.kao]

@[simp] theorem Dev_swapQueues_kao (d : Dev) (im : Image) : (Dev.swapQueues d im).kao = d.kao := by
  unfold Dev.swapQueues; simp [apply_ite Dev.kao]

@[simp] theorem Dev_dropInterfaces_kao (d : Dev) : (Dev.dropInterfaces d).kao = d.kao := by
  unfold Dev.dropInterfaces; simp [apply_ite Dev.kao]

@[simp] theorem Dev_panelRegeometry_kao (d : Dev) : (Dev.panelRegeometry d).kao = d.kao := by
  simp [Dev.panelRegeometry]

@[simp] theorem Dev_swapPersona_kao (d : Dev) (old new : Image) : (Dev.swapPersona d old new).kao = d.kao := by
  unfold Dev.swapPersona; dsimp only
  split
  · rw [Dev_watchLegal_kao] <;> (split <;> simp)
  · split <;> simp

@[simp] theorem Dev_swapKinds_kao (d : Dev) (old im : Image) (slot : Nat) : (Dev.swapKinds d old im slot).kao = d.kao := by
  simp [Dev.swapKinds]

@[simp] theorem Dev_swapShared_kao (d : Dev) (first : Bool) (old im : Image) :
    (Dev.swapShared d first old im).kao = d.kao := by
  unfold Dev.swapShared; split <;> simp

@[simp] theorem Dev_commitUses_kao (d : Dev) : (Dev.commitUses d).kao = d.kao := by
  simp [Dev.commitUses]

@[simp] theorem Dev_commitSnapshot_kao (d : Dev) : (Dev.commitSnapshot d).kao = d.kao := by
  simp [Dev.commitSnapshot]

@[simp] theorem Dev_takeSnapshot_kao (d : Dev) : (Dev.takeSnapshot d).kao = d.kao := by
  simp [Dev.takeSnapshot]

@[simp] theorem Dev_updateTail_kao (d : Dev) : (Dev.updateTail d).kao = d.kao := by
  unfold Dev.updateTail; split <;> simp

@[simp] theorem Dev_closeUnit_kao (d : Dev) (u : Fin 9) : (Dev.closeUnit d u).kao = d.kao := by
  unfold Dev.closeUnit; split <;> simp

@[simp] theorem Dev_publishEnergy_kao (d : Dev) (n : Nat) (e : Engine) : (Dev.publishEnergy d n e).kao = d.kao := by
  unfold Dev.publishEnergy; split <;> simp

@[simp] theorem Dev_publishSlice_kao (d : Dev) (u : Fin 9) (e : Engine) : (Dev.publishSlice d u e).kao = d.kao := by
  unfold Dev.publishSlice; split <;> simp

@[simp] theorem Dev_reverseEnergy_kao (d : Dev) (n : Fin 8) (e : Engine) : (Dev.reverseEnergy d n e).kao = d.kao := by
  unfold Dev.reverseEnergy; simp [apply_ite Dev.kao]

@[simp] theorem Dev_currentEpisode_kao (d : Dev) (n : Fin 8) : (Dev.currentEpisode d n).kao = d.kao := by
  simp [Dev.currentEpisode]

@[simp] theorem Dev_periodTampers_kao (d : Dev) (u : Fin 9) (e : Engine) : (Dev.periodTampers d u e).kao = d.kao := by
  unfold Dev.periodTampers; split <;> simp

@[simp] theorem Dev_closePeriod_kao (d : Dev) (u : Fin 9) (cycles : Nat × Nat) (stopped fault : Bool) :
    (Dev.closePeriod d u cycles stopped fault).kao = d.kao := by
  unfold Dev.closePeriod; dsimp only; rw [Dev_oneEvent_kao]; (repeat' split) <;> simp

@[simp] theorem Dev_freeCycles_kao (d : Dev) (samples : Nat) : (Dev.freeCycles d samples).2.kao = d.kao := by
  unfold Dev.freeCycles; split <;> rfl

@[simp] theorem Dev_cutPeriod_kao (d : Dev) (u : Fin 9) (stopped fault : Bool) :
    (Dev.cutPeriod d u stopped fault).kao = d.kao := by
  simp [Dev.cutPeriod]

@[simp] theorem Dev_pulseLow_kao (d : Dev) (p : Fin 4) : (Dev.pulseLow d p).kao = d.kao := by
  simp [Dev.pulseLow]

@[simp] theorem Dev_pulsesLow_kao (d : Dev) (u : Nat) : (Dev.pulsesLow d u).kao = d.kao := by
  simp [Dev.pulsesLow]

@[simp] theorem Dev_endWork_kao (d : Dev) (u : Fin 9) : (Dev.endWork d u).kao = d.kao := by
  simp [Dev.endWork]

@[simp] theorem Dev_meterFault_kao (d : Dev) (u : Fin 9) (code : Byte) : (Dev.meterFault d u code).kao = d.kao := by
  unfold Dev.meterFault; (repeat' split) <;> simp

@[simp] theorem Dev_dieFault_kao (d : Dev) (dieB : Bool) (code : Byte) : (Dev.dieFault d dieB code).kao = d.kao := by
  simp [Dev.dieFault]

@[simp] theorem Dev_sampleTransfer_kao (d : Dev) (dieB : Bool) (fr : SampleFrame) :
    (Dev.sampleTransfer d dieB fr).kao = d.kao := by
  unfold Dev.sampleTransfer; simp [apply_ite Dev.kao]

@[simp] theorem Dev_pathMismatch_kao (d : Dev) (ch : Fin 64) : (Dev.pathMismatch d ch).kao = d.kao := by
  unfold Dev.pathMismatch; (repeat' split) <;> simp

@[simp] theorem Dev_afeReferenceFault_kao (d : Dev) (dieB : Bool) : (Dev.afeReferenceFault d dieB).kao = d.kao := by
  simp [Dev.afeReferenceFault]

@[simp] theorem Dev_publishWindow_kao (d : Dev) (u : Fin 9) (t : Nat) (rs : List (Nat × List Nat)) :
    (Dev.publishWindow d u t rs).kao = d.kao := by
  unfold Dev.publishWindow; grind [Dev_updEng_kao, Dev_raiseMtr_kao, foldl_kao, Dev_produce_kao]

@[simp] theorem Dev_publishHarmonics_kao (d : Dev) (u : Fin 9) : (Dev.publishHarmonics d u).kao = d.kao := by
  simp [Dev.publishHarmonics]

@[simp] theorem Dev_endPeriod_kao (d : Dev) (u : Fin 9) (cycles : Nat × Nat) : (Dev.endPeriod d u cycles).kao = d.kao := by
  unfold Dev.endPeriod; (repeat' split) <;> simp

@[simp] theorem Dev_pulsesSettle_kao (d : Dev) : (Dev.pulsesSettle d).kao = d.kao := by
  simp [Dev.pulsesSettle, apply_ite Dev.kao]

@[simp] theorem Dev_swapMeter_kao (d : Dev) (u : Nat) : (Dev.swapMeter d u).kao = d.kao := by
  simp [Dev.swapMeter]

@[simp] theorem Dev_swapBoundary_kao (d : Dev) : (Dev.swapBoundary d).kao = d.kao := by
  unfold Dev.swapBoundary; simp [apply_ite Dev.kao]

@[simp] theorem Dev_boundaryCommit_kao (d : Dev) : (Dev.boundaryCommit d).kao = d.kao := by
  unfold Dev.boundaryCommit; simp [apply_ite Dev.kao]

@[simp] theorem Dev_endEpisodes_kao (d : Dev) : (Dev.endEpisodes d).kao = d.kao := by
  unfold Dev.endEpisodes; split <;> simp

@[simp] theorem Dev_billingBoundary_kao (d : Dev) : (Dev.billingBoundary d).kao = d.kao := by
  unfold Dev.billingBoundary; split <;> simp

@[simp] theorem Dev_periodBoundary_kao (d : Dev) (cycles : List (Nat × Nat)) :
    (Dev.periodBoundary d cycles).kao = d.kao := by
  unfold Dev.periodBoundary; split <;> simp

@[simp] theorem Dev_missingEpisode_kao (d : Dev) (n : Fin 8) : (Dev.missingEpisode d n).kao = d.kao := by
  unfold Dev.missingEpisode; dsimp only; (repeat' split) <;> simp

@[simp] theorem Dev_urmsRefresh_kao (d : Dev) (u : Fin 9) (ph : Fin 3) (uv : Nat) :
    (Dev.urmsRefresh d u ph uv).kao = d.kao := by
  unfold Dev.urmsRefresh; (repeat' split) <;> simp

@[simp] theorem Dev_writeMeter_kao (d : Dev) (who : Option Agent) (row : RegDef) (u addr : Nat) (data : Word) :
    (Dev.writeMeter d who row u addr data).2.kao = d.kao := by
  unfold Dev.writeMeter; dsimp only; (repeat' split) <;> simp

@[simp] theorem Dev_calibrationWrite_kao (d : Dev) (ag : Agent) (a : Nat) (data : Word) :
    (Dev.calibrationWrite d ag a data).kao = d.kao := by
  unfold Dev.calibrationWrite; dsimp only; (repeat' split) <;> simp

@[simp] theorem Dev_stepPeriods_kao (d : Dev) : (Dev.stepPeriods d).kao = d.kao := by
  unfold Dev.stepPeriods; simp [apply_ite Dev.kao]

@[simp] theorem Dev_beginPeriods_kao (d : Dev) : (Dev.beginPeriods d).kao = d.kao := by
  unfold Dev.beginPeriods; grind [foldl_kao, Dev_updEng_kao]

@[simp] theorem Dev_stepClose_kao (d : Dev) (n : Fin 8) : (Dev.stepClose d n).kao = d.kao := by
  simp [Dev.stepClose]

@[simp] theorem Dev_startGrid_kao (d : Dev) (n : Fin 8) (t : Nat) : (Dev.startGrid d n t).kao = d.kao := by
  unfold Dev.startGrid; split <;> simp

@[simp] theorem Dev_stepOpen_kao (d : Dev) (n : Fin 8) : (Dev.stepOpen d n).kao = d.kao := by
  simp [Dev.stepOpen]

@[simp] theorem Dev_stepBilling_kao (d : Dev) (back : Bool) : (Dev.stepBilling d back).kao = d.kao := by
  unfold Dev.stepBilling; simp [apply_ite Dev.kao]

@[simp] theorem Dev_stepTargets_kao (d : Dev) : (Dev.stepTargets d).kao = d.kao := by
  unfold Dev.stepTargets; simp [apply_ite Dev.kao]

@[simp] theorem Dev_moveTime_kao (d : Dev) (s : PendingStep) : (Dev.moveTime d s).kao = d.kao := by
  simp [Dev.moveTime]

@[simp] theorem Dev_stepLeap_kao (d : Dev) (old : Nat) : (Dev.stepLeap d old).kao = d.kao := by
  unfold Dev.stepLeap; split <;> simp

@[simp] theorem Dev_applyStep_kao (d : Dev) (s : PendingStep) : (Dev.applyStep d s).kao = d.kao := by
  unfold Dev.applyStep; rw [Dev_oneEvent_kao]; simp [apply_ite Dev.kao]

@[simp] theorem Dev_timeStepApply_kao (d : Dev) : (Dev.timeStepApply d).kao = d.kao := by
  unfold Dev.timeStepApply; (repeat' split) <;> simp

@[simp] theorem Dev_stopMeter_kao (d : Dev) (u : Fin 9) : (Dev.stopMeter d u).kao = d.kao := by
  unfold Dev.stopMeter; dsimp only; (repeat' split) <;> simp

@[simp] theorem Dev_startMeter_kao (d : Dev) (u : Fin 9) : (Dev.startMeter d u).kao = d.kao := by
  unfold Dev.startMeter; dsimp only; (repeat' split) <;> simp

@[simp] theorem Dev_stopEvc_kao (d : Dev) (n : Fin 8) : (Dev.stopEvc d n).kao = d.kao := by
  simp [Dev.stopEvc]

@[simp] theorem Dev_startEvc_kao (d : Dev) (n : Fin 8) : (Dev.startEvc d n).kao = d.kao := by
  unfold Dev.startEvc; simp [apply_ite Dev.kao]

@[simp] theorem Dev_restartEvc_kao (d : Dev) (n : Fin 8) : (Dev.restartEvc d n).kao = d.kao := by
  simp [Dev.restartEvc]

@[simp] theorem Dev_stopMesh_kao (d : Dev) : (Dev.stopMesh d).kao = d.kao := by
  simp [Dev.stopMesh]

@[simp] theorem Dev_stopZx_kao (d : Dev) : (Dev.stopZx d).kao = d.kao := by
  simp [Dev.stopZx]

@[simp] theorem Dev_restartMesh_kao (d : Dev) : (Dev.restartMesh d).kao = d.kao := by
  simp [Dev.restartMesh]

@[simp] theorem Dev_restartZx_kao (d : Dev) : (Dev.restartZx d).kao = d.kao := by
  simp [Dev.restartZx]

@[simp] theorem Dev_stopReader_kao (d : Dev) : (Dev.stopReader d).kao = d.kao := by
  simp [Dev.stopReader]

@[simp] theorem Dev_restartPanel_kao (d : Dev) : (Dev.restartPanel d).kao = d.kao := by
  simp [Dev.restartPanel]

@[simp] theorem Dev_stopFunc_kao (d : Dev) (g : Group) (u : Nat) : (Dev.stopFunc d g u).kao = d.kao := by
  unfold Dev.stopFunc; (repeat' split) <;> simp

@[simp] theorem Dev_startFunc_kao (d : Dev) (g : Group) (u : Nat) : (Dev.startFunc d g u).kao = d.kao := by
  unfold Dev.startFunc; (repeat' split) <;> simp

@[simp] theorem Dev_restartFunc_kao (d : Dev) (g : Group) (u : Nat) : (Dev.restartFunc d g u).kao = d.kao := by
  unfold Dev.restartFunc; (repeat' split) <;> simp

theorem Dev_onFunc_kao (d : Dev) (g : Group) (arg : BitVec 24) (h : Nat → Func → CmdSt × Dev) (hk : ∀ u x, (h u x).2.kao = d.kao) :
    (d.onFunc g arg h).2.kao = d.kao := by
  unfold Dev.onFunc; (repeat' split) <;> simp [hk]

@[simp] theorem funcStopCmd_kao (g : Group) (arg : BitVec 24) (d : Dev) : (funcStopCmd g arg d).2.kao = d.kao := by
  unfold funcStopCmd; apply Dev_onFunc_kao; intro u x; split <;> simp

@[simp] theorem funcStartCmd_kao (g : Group) (arg : BitVec 24) (d : Dev) : (funcStartCmd g arg d).2.kao = d.kao := by
  unfold funcStartCmd; apply Dev_onFunc_kao; intro u x; split <;> simp

@[simp] theorem funcRestartCmd_kao (g : Group) (arg : BitVec 24) (d : Dev) : (funcRestartCmd g arg d).2.kao = d.kao := by
  unfold funcRestartCmd; apply Dev_onFunc_kao; intro u x; split <;> simp

@[simp] theorem Dev_tryStartFunc_kao (d : Dev) (g : Group) (u : Nat) : (Dev.tryStartFunc d g u).kao = d.kao := by
  unfold Dev.tryStartFunc; split <;> simp

@[simp] theorem Dev_autoStart_kao (d : Dev) : (Dev.autoStart d).kao = d.kao := by
  unfold Dev.autoStart; simp [apply_ite Dev.kao]

@[simp] theorem islandStopCmd_kao (arg : BitVec 24) (d : Dev) : (islandStopCmd arg d).2.kao = d.kao := by
  unfold islandStopCmd; dsimp only; (repeat' split) <;> simp

@[simp] theorem Dev_clockPresent_kao (d : Dev) (i : Nat) : (Dev.clockPresent d i).2.kao = d.kao := by
  unfold Dev.clockPresent; (repeat' split) <;> simp

@[simp] theorem islandStartCmd_kao (arg : BitVec 24) (d : Dev) : (islandStartCmd arg d).2.kao = d.kao := by
  unfold islandStartCmd; dsimp only; (repeat' split) <;> simp

@[simp] theorem Dev_dropFlags_kao (d : Dev) (g u : Nat) : (Dev.dropFlags d g u).kao = d.kao := by
  simp [Dev.dropFlags]

@[simp] theorem Dev_resetUnit_kao (d : Dev) (g u : Nat) : (Dev.resetUnit d g u).kao = d.kao := by
  simp [Dev.resetUnit]

@[simp] theorem Dev_islandFault_kao (d : Dev) (g : Group) (u : Nat) : (Dev.islandFault d g u).kao = d.kao := by
  unfold Dev.islandFault; split <;> simp

@[simp] theorem Dev_resetPlc_kao (d : Dev) : (Dev.resetPlc d).kao = d.kao := by
  simp [Dev.resetPlc]

@[simp] theorem Dev_resetIsland_kao (d : Dev) (i : Nat) : (Dev.resetIsland d i).kao = d.kao := by
  unfold Dev.resetIsland; dsimp only; (repeat' split) <;> simp

@[simp] theorem Dev_abortHung_kao (d : Dev) (i : Nat) : (Dev.abortHung d i).kao = d.kao := by
  simp [Dev.abortHung]

@[simp] theorem islandResetCmd_kao (arg : BitVec 24) (d : Dev) : (islandResetCmd arg d).2.kao = d.kao := by
  unfold islandResetCmd; dsimp only; (repeat' split) <;> simp

@[simp] theorem Dev_islandClockLoss_kao (d : Dev) (i : Fin 16) : (Dev.islandClockLoss d i).kao = d.kao := by
  unfold Dev.islandClockLoss; split <;> simp

@[simp] theorem Dev_stallDetect_kao (d : Dev) : (Dev.stallDetect d).kao = d.kao := by
  unfold Dev.stallDetect; simp [apply_ite Dev.kao]

@[simp] theorem Dev_pfNotice_kao (d : Dev) (cause mv : Nat) : (Dev.pfNotice d cause mv).kao = d.kao := by
  unfold Dev.pfNotice; split <;> simp

@[simp] theorem Dev_noteDark_kao (d : Dev) : (Dev.noteDark d).kao = d.kao := by
  simp [Dev.noteDark]

@[simp] theorem Dev_tripSnapshot_kao (d : Dev) : (Dev.tripSnapshot d).kao = d.kao := by
  unfold Dev.tripSnapshot; simp [apply_ite Dev.kao]

@[simp] theorem Dev_startHoldup_kao (d : Dev) : (Dev.startHoldup d).kao = d.kao := by
  unfold Dev.startHoldup; split <;> simp

@[simp] theorem Dev_powerTrip_kao (d : Dev) (cause mv : Nat) : (Dev.powerTrip d cause mv).kao = d.kao := by
  unfold Dev.powerTrip; simp [apply_ite Dev.kao]

@[simp] theorem Dev_resetNLow_kao (d : Dev) (mv : Nat) : (Dev.resetNLow d mv).kao = d.kao := by
  unfold Dev.resetNLow; split <;> simp

@[simp] theorem Dev_samplingCutoff_kao (d : Dev) : (Dev.samplingCutoff d).kao = d.kao := by
  unfold Dev.samplingCutoff; split <;> simp

@[simp] theorem Dev_storeWriterStop_kao (d : Dev) : (Dev.storeWriterStop d).kao = d.kao := by
  unfold Dev.storeWriterStop; split <;> simp

@[simp] theorem Dev_siltReset_kao (d : Dev) : (Dev.siltReset d).kao = d.kao := by
  unfold Dev.siltReset; split <;> simp

@[simp] theorem Dev_vsiltFell_kao (d : Dev) : (Dev.vsiltFell d).kao = d.kao := by
  unfold Dev.vsiltFell; split <;> simp

@[simp] theorem Dev_vpilotFault_kao (d : Dev) (positive : Bool) (mv : Int) :
    (Dev.vpilotFault d positive mv).kao = d.kao := by
  unfold Dev.vpilotFault; split <;> simp

@[simp] theorem Dev_takeScan_kao (d : Dev) (r : HkReadings) : (Dev.takeScan d r).kao = d.kao := by
  unfold Dev.takeScan; dsimp only; split <;> simp

@[simp] theorem Dev_hkMessage_kao (d : Dev) (r : HkReadings) : (Dev.hkMessage d r).kao = d.kao := by
  unfold Dev.hkMessage; split <;> simp

@[simp] theorem Dev_hkScan_kao (d : Dev) (r : HkReadings) : (Dev.hkScan d r).kao = d.kao := by
  unfold Dev.hkScan; simp [apply_ite Dev.kao]

@[simp] theorem Dev_putFw_kao (d : Dev) (slot v : Nat) : (Dev.putFw d slot v).kao = d.kao := by
  simp [Dev.putFw]

@[simp] theorem Dev_readBoot_kao (d : Dev) : (Dev.readBoot d).kao = d.kao := by
  unfold Dev.readBoot; dsimp only; repeat' split
  all_goals simp [Dev.takeBoot]

@[simp] theorem Dev_setFw_kao (d : Dev) (slot v : Nat) : (Dev.setFw d slot v).kao = d.kao := by
  simp [Dev.setFw]

@[simp] theorem Dev_setArea_kao (d : Dev) (area v : Nat) : (Dev.setArea d area v).kao = d.kao := by
  simp [Dev.setArea]

@[simp] theorem Dev_moveArea_kao (d : Dev) (v w : Nat) : (Dev.moveArea d v w).kao = d.kao := by
  unfold Dev.moveArea; split <;> simp

@[simp] theorem Dev_fallBack_kao (d : Dev) (slot reason : Nat) : (Dev.fallBack d slot reason).kao = d.kao := by
  simp [Dev.fallBack]

@[simp] theorem Dev_storeCopy_kao (d : Dev) (src dst n : Nat) : (Dev.storeCopy d src dst n).kao = d.kao := by
  simp [Dev.storeCopy]

@[simp] theorem Dev_areaHeader_kao (d : Dev) (area : Nat) : (Dev.areaHeader d area).kao = d.kao := by
  simp [Dev.areaHeader]

@[simp] theorem Dev_prepareArea_kao (d : Dev) (slot : Nat) : (Dev.prepareArea d slot).kao = d.kao := by
  unfold Dev.prepareArea; dsimp only; (repeat' split) <;> simp

@[simp] theorem Dev_romPrepare_kao (d : Dev) : (Dev.romPrepare d).kao = d.kao := by
  unfold Dev.romPrepare; dsimp only; (repeat' split) <;> simp

@[simp] theorem Dev_romSelect_kao (k : Nat) (d : Dev) : (Dev.romSelect k d).kao = d.kao := by
  induction k generalizing d with
  | zero => rfl
  | succ k ih => unfold Dev.romSelect; dsimp only; (repeat' split) <;> simp [ih]

@[simp] theorem Dev_warmClear_kao (d : Dev) : (Dev.warmClear d).kao = d.kao := by
  unfold Dev.warmClear; simp [apply_ite Dev.kao]

@[simp] theorem Dev_warmReset_kao (d : Dev) (cause : Nat) : (Dev.warmReset d cause).kao = d.kao := by
  simp [Dev.warmReset]

@[simp] theorem Dev_settleReset_kao (d : Dev) : (Dev.settleReset d).kao = d.kao := by
  unfold Dev.settleReset; split <;> simp

@[simp] theorem Dev_askReset_kao (d : Dev) (cause : Nat) : (Dev.askReset d cause).kao = d.kao := by
  simp [Dev.askReset]

@[simp] theorem warmResetCmd_kao (arg : BitVec 24) (d : Dev) : (warmResetCmd arg d).2.kao = d.kao := by
  unfold warmResetCmd; split <;> simp

@[simp] theorem fwOpenCmd_kao (arg : BitVec 24) (d : Dev) : (fwOpenCmd arg d).2.kao = d.kao := by
  unfold fwOpenCmd; dsimp only; (repeat' split) <;> simp

@[simp] theorem fwPendingCmd_kao (arg : BitVec 24) (d : Dev) : (fwPendingCmd arg d).2.kao = d.kao := by
  unfold fwPendingCmd; dsimp only; (repeat' split) <;> simp

@[simp] theorem fwConfirmCmd_kao (ag : Agent) (arg : BitVec 24) (d : Dev) : (fwConfirmCmd ag arg d).2.kao = d.kao := by
  unfold fwConfirmCmd; (repeat' split) <;> simp

@[simp] theorem fwRevertCmd_kao (arg : BitVec 24) (d : Dev) : (fwRevertCmd arg d).2.kao = d.kao := by
  unfold fwRevertCmd; (repeat' split) <;> simp

@[simp] theorem Dev_firmwareStart_kao (d : Dev) : (Dev.firmwareStart d).kao = d.kao := by
  unfold Dev.firmwareStart; (repeat' split) <;> simp

@[simp] theorem Dev_trialTimeout_kao (d : Dev) : (Dev.trialTimeout d).kao = d.kao := by
  unfold Dev.trialTimeout; split <;> simp

@[simp] theorem Dev_rcvAck_kao (d : Dev) (prod slot off status : Nat) : (Dev.rcvAck d prod slot off status).kao = d.kao := by
  unfold Dev.rcvAck; (repeat' split) <;> simp

@[simp] theorem Dev_rcvTake_kao (d : Dev) (q : Fin 64) (cs : List WordCheck) : (Dev.rcvTake d q cs).2.kao = d.kao := by
  simp [Dev.rcvTake]

theorem Dev_romCommand_kao (d : Dev) (op slot : Nat) (h : BitVec 24 → Dev → CmdSt × Dev) (hk : ∀ a x, (h a x).2.kao = x.kao) :
    (d.romCommand op slot h).2.kao = d.kao := by
  unfold Dev.romCommand; simp [hk]

@[simp] theorem romOpen_kao (d : Dev) (s : Nat) : (d.romCommand 0x10 s fwOpenCmd).2.kao = d.kao :=
  Dev_romCommand_kao d 0x10 s fwOpenCmd (by intro a x; simp)

@[simp] theorem romPend_kao (d : Dev) (s : Nat) : (d.romCommand 0x11 s fwPendingCmd).2.kao = d.kao :=
  Dev_romCommand_kao d 0x11 s fwPendingCmd (by intro a x; simp)

@[simp] theorem Dev_rcvWrite_kao (d : Dev) (ws : List QData) : (d.rcvWrite ws).2.kao = d.kao := by
  unfold Dev.rcvWrite; dsimp only; (repeat' split) <;> simp

@[simp] theorem Dev_rcvBlock_kao (d : Dev) (q : Fin 64) (cs : List WordCheck) : (Dev.rcvBlock d q cs).kao = d.kao := by
  unfold Dev.rcvBlock; dsimp only; (repeat' split) <;> simp

@[simp] theorem Dev_rcvOpen_kao (d : Dev) (slot : Nat) : (Dev.rcvOpen d slot).kao = d.kao := by
  unfold Dev.rcvOpen; split <;> simp

@[simp] theorem Dev_rcvPend_kao (d : Dev) (prod slot : Nat) : (Dev.rcvPend d prod slot).kao = d.kao := by
  unfold Dev.rcvPend; simp [apply_ite Dev.kao]

@[simp] theorem Dev_rcvDone_kao (d : Dev) (q : Fin 64) (cs : List WordCheck) : (Dev.rcvDone d q cs).kao = d.kao := by
  unfold Dev.rcvDone
  (repeat' (first | split | dsimp only)) <;> simp

@[simp] theorem Dev_readIdq_kao (d : Dev) (s : Fin 13) : (Dev.readIdq d s).2.kao = d.kao := by
  unfold Dev.readIdq; dsimp only; (repeat' split) <;> simp

@[simp] theorem Dev_readPilot_kao (d : Dev) (n : Fin 8) : (Dev.readPilot d n).2.kao = d.kao := by
  simp [Dev.readPilot]

@[simp] theorem Dev_readHarm_kao (d : Dev) (u : Fin 9) : (Dev.readHarm d u).2.kao = d.kao := by
  unfold Dev.readHarm; dsimp only; (repeat' split) <;> simp

@[simp] theorem Dev_readKaoExt_kao (d : Dev) : (Dev.readKaoExt d).2.kao = d.kao := by
  simp [Dev.readKaoExt]

@[simp] theorem Dev_captureWide_kao (d : Dev) (ag : Agent) (addr v : Nat) : (Dev.captureWide d ag addr v).2.kao = d.kao := by
  simp [Dev.captureWide]

@[simp] theorem Dev_captureSetting_kao (d : Dev) (ag : Agent) (addr : Nat) :
    (Dev.captureSetting d ag addr).2.kao = d.kao := by
  simp [Dev.captureSetting]

@[simp] theorem Dev_readSettingHigh_kao (d : Dev) (ag : Agent) (addr : Nat) :
    (Dev.readSettingHigh d ag addr).2.kao = d.kao := by
  unfold Dev.readSettingHigh; split <;> simp

@[simp] theorem Dev_readReg_kao (d : Dev) (ag : Agent) (g u : Nat) (r : RegAt) (addr : Nat) (staged : Bool) :
    (Dev.readReg d ag g u r addr staged).2.2.kao = d.kao := by
  unfold Dev.readReg; dsimp only; (repeat' split) <;> simp

@[simp] theorem Dev_latticeRead_kao (d : Dev) (ag : Agent) (addr : Nat) : (Dev.latticeRead d ag addr).kao = d.kao := by
  unfold Dev.latticeRead; dsimp only; (repeat' split) <;> simp

@[simp] theorem Dev_clearFlags_kao (d : Dev) (who : Option Agent) (addr : Nat) (data : Word) :
    (Dev.clearFlags d who addr data).2.kao = d.kao := by
  unfold Dev.clearFlags; dsimp only; (repeat' split) <;> simp

@[simp] theorem Dev_writeSetting_kao (d : Dev) (g u : Nat) (row : RegDef) (addr : Nat) (data : Word) :
    (Dev.writeSetting d g u row addr data).2.kao = d.kao := by
  unfold Dev.writeSetting; dsimp only; (repeat' split) <;> simp

@[simp] theorem Dev_writePlcSetting_kao (d : Dev) (row : RegDef) (addr : Nat) (data : Word) :
    (Dev.writePlcSetting d row addr data).2.kao = d.kao := by
  unfold Dev.writePlcSetting
  (repeat' split) <;> first | (simp; done) | (have h' := congrArg (fun p : _ × Dev => p.2.kao) ‹_ = ((_, _) : _ × Dev)›; simp at h'; simp [← h']; done)

@[simp] theorem Dev_writeView_kao (d : Dev) (who : Option Agent) (row : RegDef) (addr : Nat) (data : Word) :
    (Dev.writeView d who row addr data).2.kao = d.kao := by
  unfold Dev.writeView; (repeat' split) <;> simp

theorem onIdx_kao (n : Nat) (d : Dev) (i : Nat) (h : Fin n → CmdSt × Dev) (hk : ∀ u, (h u).2.kao = d.kao) :
    (onIdx d i h).2.kao = d.kao := by
  unfold onIdx; split <;> simp [hk]

theorem Dev_writeReg_kao (d : Dev) (who : Option Agent) (g u : Nat) (r : RegAt) (addr : Nat) (data : Word) :
    (d.writeReg who g u r addr data).2.kao = d.kao := by
  unfold Dev.writeReg
  (repeat' split) <;> first | (simp; done) | (apply onIdx_kao; intro x; simp; done)

@[simp] theorem Dev_sendLrep_kao (d : Dev) (r : Request) : (Dev.sendLrep d r).kao = d.kao := by
  simp [Dev.sendLrep]

@[simp] theorem Dev_answerRequest_kao (d : Dev) (r : Request) : (Dev.answerRequest d r).kao = d.kao := by
  unfold Dev.answerRequest; split <;> simp

@[simp] theorem Dev_takeTransaction_kao (d : Dev) (id : Nat) : (Dev.takeTransaction d id).2.kao = d.kao := by
  unfold Dev.takeTransaction; split <;> simp

@[simp] theorem Dev_quarantineEnd_kao (d : Dev) (s : Fin 13) : (Dev.quarantineEnd d s).kao = d.kao := by
  unfold Dev.quarantineEnd; simp [apply_ite Dev.kao]

@[simp] theorem Dev_startTime_kao (d : Dev) : (Dev.startTime d).kao = d.kao := by
  unfold Dev.startTime
  have h : (if d.pwr.siltReset then ((0 : Int), d) else d.round ((d.rtcNow * sec 1 : Nat) / 32768)).2.kao = d.kao := by
    split <;> simp
  exact h

@[simp] theorem Dev_releaseReset_kao (d : Dev) (cause : ColdCause) : (Dev.releaseReset d cause).kao = d.kao := by
  simp [Dev.releaseReset]

@[simp] theorem Dev_startKeys_kao (d : Dev) : (Dev.startKeys d).kao = d.kao := by
  unfold Dev.startKeys
  extract_lets d0 d1 _ d2
  have h0 : d0.kao = d.kao := by simp only [d0, Dev_expireKeys_kao, Dev_makeRoot_kao]; split <;> simp
  have h1 : d1.kao = d0.kao := by simp only [d1]; split <;> simp
  have h2 : d2.kao = d1.kao := rfl
  rw [Dev_loadTagCopy_kao, foldl_kao _ _ _ fun a x => Dev_exhaust_kao a x, h2, h1, h0]

@[simp] theorem Dev_startIslands_kao (d : Dev) : (Dev.startIslands d).kao = d.kao := by
  unfold Dev.startIslands; simp [apply_ite Dev.kao]

@[simp] theorem Dev_recordWrite_kao (d : Dev) (addr : Nat) (v : Word) : (d.recordWrite addr v).2.kao = d.kao := by
  unfold Dev.recordWrite; dsimp only
  have hw := fun r => Dev_writeReg_kao d none (addrGroup addr) (addrUnit addr) r (lattice (addrGroup addr) (addrUnit addr) (addrOff addr)) v
  (repeat' (first | split | dsimp only)) <;> simp [hw]

@[simp] theorem Dev_rejectRecord_kao (d : Dev) (addr : Nat) : (d.rejectRecord addr).kao = d.kao := by
  simp [Dev.rejectRecord]

@[simp] theorem Dev_applyRecord_kao (d : Dev) (addr : Nat) (v : Word) : (Dev.applyRecord d addr v).kao = d.kao := by
  unfold Dev.applyRecord
  have h := Dev_recordWrite_kao d addr v
  split
  · rename_i heq; rw [heq] at h; exact h
  · exact Dev_rejectRecord_kao d addr

@[simp] theorem Dev_applyRecords_kao (n a : Nat) (d : Dev) : (Dev.applyRecords n a d).kao = d.kao := by
  induction n generalizing a d with
  | zero => rfl
  | succ n ih => unfold Dev.applyRecords; rw [ih]; split <;> simp

@[simp] theorem Dev_configLoad_kao (d : Dev) : (Dev.configLoad d).kao = d.kao := by
  unfold Dev.configLoad; split <;> simp

@[simp] theorem Dev_loadCalendar_kao (d : Dev) : (Dev.loadCalendar d).kao = d.kao := by
  unfold Dev.loadCalendar; dsimp only; (repeat' split) <;> simp

@[simp] theorem Dev_restoreSlices_kao (d : Dev) : (Dev.restoreSlices d).kao = d.kao := by
  simp [Dev.restoreSlices]

@[simp] theorem Dev_restartSpaces_kao (d : Dev) : (Dev.restartSpaces d).kao = d.kao := by
  simp [Dev.restartSpaces]

@[simp] theorem Dev_signSaved_kao (d : Dev) (j : SignJob) : (Dev.signSaved d j).kao = d.kao := by
  simp [Dev.signSaved]

@[simp] theorem Dev_writeSaved_kao (d : Dev) (s : Snapshot) : (Dev.writeSaved d s).kao = d.kao := by
  unfold Dev.writeSaved; split <;> simp

@[simp] theorem Dev_resumeIntervals_kao (d : Dev) (n : Fin 8) : (Dev.resumeIntervals d n).kao = d.kao := by
  unfold Dev.resumeIntervals; simp [apply_ite Dev.kao]

@[simp] theorem Dev_runMissed_kao (d : Dev) : (Dev.runMissed d).kao = d.kao := by
  unfold Dev.runMissed; split <;> simp

@[simp] theorem Dev_countDark_kao (k : Nat) (d : Dev) : (Dev.countDark k d).kao = d.kao := by
  induction k generalizing d with
  | zero => rfl
  | succ k ih => unfold Dev.countDark; simp [ih]

@[simp] theorem Dev_addDark_kao (d : Dev) : (Dev.addDark d).kao = d.kao := by
  unfold Dev.addDark; split <;> simp

@[simp] theorem Dev_restoreBilling_kao (d : Dev) (silt failed : Bool) (tEnd : Nat) :
    (Dev.restoreBilling d silt failed tEnd).kao = d.kao := by
  unfold Dev.restoreBilling; dsimp only; (repeat' split) <;> simp

@[simp] theorem Dev_restoreStep_kao (d before : Dev) : (Dev.restoreStep d before).kao = d.kao := by
  unfold Dev.restoreStep; (repeat' split) <;> simp

@[simp] theorem Dev_bringUp_kao (d : Dev) : (Dev.bringUp d).kao = d.kao := by
  unfold Dev.bringUp; split <;> simp

@[simp] theorem Dev_slicePresent_kao (d : Dev) (n : Fin 8) : (Dev.slicePresent d n).kao = d.kao := by
  simp [Dev.slicePresent]

@[simp] theorem Dev_firstImage_kao (d : Dev) : (Dev.firstImage d).kao = d.kao := by
  unfold Dev.firstImage; dsimp only; split <;> simp

@[simp] theorem Dev_newSlices_kao (d before : Dev) : (Dev.newSlices d before).kao = d.kao := by
  simp [Dev.newSlices]

end Sys2Proof.Machine
end

