-- ==== Sys2Proof/Laws/KaolinGuard.lean ====
section
/-! SUPPORT. Every operation that changes Kaolin's state keeps the guard of the contactor drivers (R282, R314): what a step
can do to it, said once. -/

namespace Sys2Proof.Machine

/-- One element of a changed vector. -/
@[simp] theorem vmod_get {α : Type} {n : Nat} (v : Vector α n) (i k : Fin n) (g : α → α) :
    (vmod v i g)[k.val] = if k = i then g v[i.val] else v[k.val] := by
  unfold vmod
  by_cases h : k = i
  · subst h; simp
  · have h1 : ¬ i.val = k.val := fun e => h (Fin.ext e.symm)
    simp [h, h1]

/-- Either branch keeps the guard. -/
theorem ite_guarded {p : Prop} [Decidable p] {a b : Dev} (ha : a.kao.guarded) (hb : b.kao.guarded) :
    (if p then a else b).kao.guarded := by
  split
  · exact ha
  · exact hb

theorem raiseKao_guarded (d : Dev) (b : Nat) (hg : d.kao.guarded) : (d.raiseKao b).kao.guarded := by
  rw [Dev_raiseKao_kao]; exact hg

/-- A fold keeps the guard where each of its steps keeps it. -/
theorem foldl_guarded {α : Type} (l : List α) (g : Dev → α → Dev) (d : Dev)
    (h : ∀ a x, a.kao.guarded → (g a x).kao.guarded) (hg : d.kao.guarded) : (l.foldl g d).kao.guarded := by
  induction l generalizing d with
  | nil => exact hg
  | cons x xs ih => exact ih _ (h d x hg)

/-- A change of one slice machine keeps the guard where the new slice is guarded. -/
theorem Dev_updKao_guarded (d : Dev) (n : Fin 8) (g : KaoSlice → KaoSlice) (hg : d.kao.guarded)
    (hf : (d.kao.m[n]).guarded → (g d.kao.m[n]).guarded) : (d.updKao n g).kao.guarded := by
  intro k
  by_cases h : k = n
  · subst h; have h1 := hf (hg k); simpa [Dev.updKao] using h1
  · have h1 := hg k; simpa [Dev.updKao, h] using h1

/-- A change that leaves the contactor driver and the state of the machine. -/
@[simp] theorem updKao_guarded_same (d : Dev) (n : Fin 8) (g : KaoSlice → KaoSlice) (hg : d.kao.guarded)
    (h1 : ∀ x, (g x).ken = x.ken) (h2 : ∀ x, (g x).st = x.st) : (d.updKao n g).kao.guarded :=
  Dev_updKao_guarded d n g hg (by intro h; simpa [KaoSlice.guarded, h1, h2] using h)

/-- A machine whose contactor driver is released may take any state. -/
theorem updKao_guarded_open (d : Dev) (n : Fin 8) (g : KaoSlice → KaoSlice) (hg : d.kao.guarded)
    (h1 : (d.kao.m[n]).ken = false) (h2 : ∀ x, (g x).ken = x.ken) : (d.updKao n g).kao.guarded :=
  Dev_updKao_guarded d n g hg (by intro _ h; rw [h2, h1] at h; cases h)

@[simp] theorem updKao_m (d : Dev) (n k : Fin 8) (g : KaoSlice → KaoSlice) :
    (d.updKao n g).kao.m[k.val] = if k = n then g d.kao.m[n.val] else d.kao.m[k.val] := by
  unfold Dev.updKao; simp

/-- A change that leaves the slice machines. -/
@[simp] theorem Dev_modKao_guarded (d : Dev) (g : KaoState → KaoState) (hg : d.kao.guarded) (h : ∀ k, (g k).m = k.m) :
    (d.modKao g).kao.guarded := by
  intro n
  have h1 := hg n
  simp only [Dev.modKao, h]
  exact h1

theorem issueCommand_guarded (ag : Agent) (g op : Nat) (arg : BitVec 24) (u : Nat) (h : Dev → CmdSt × Dev) (d : Dev)
    (hk : ∀ x, x.kao.guarded → (h x).2.kao.guarded) (hg : d.kao.guarded) : (issueCommand ag g op arg u h d).kao.guarded := by
  have hh := hk d hg
  unfold issueCommand
  (repeat' split) <;> simp_all

theorem writeAccess_guarded (ag : Agent) (g u a : Nat) (h : Dev → CmdSt × Dev) (d : Dev)
    (hk : ∀ x, x.kao.guarded → (h x).2.kao.guarded) (hg : d.kao.guarded) : (writeAccess ag g u a h d).kao.guarded := by
  have hh := hk d hg
  unfold writeAccess
  (repeat' split) <;> simp_all

theorem Dev_fieldCommand_guarded (d : Dev) (p : SvcProt) (msg : List Byte) (h : Bool → Dev → Dev)
    (hk : ∀ b x, x.kao.guarded → (h b x).kao.guarded) (hg : d.kao.guarded) : (d.fieldCommand p msg h).kao.guarded := by
  unfold Dev.fieldCommand
  split
  · exact hg
  · split
    · exact hk _ _ hg
    · split
      · rename_i he
        unfold Dev.sessionFrame at he
        split at he
        · cases he; exact hk _ _ hg
        · cases he
      · simp [hg]

@[simp] theorem writeCell_m (d : Dev) (g : KaoCell → KaoCell) : (d.writeCell g).kao.m = d.kao.m := by
  simp [Dev.writeCell, Dev.modKao, KaoState.putOlder, apply_ite KaoState.m]

/-- The guard depends on the slice machines only. -/
theorem guarded_of_m {k k1 : KaoState} (h : k1.m = k.m) (hg : k.guarded) : k1.guarded := by
  intro n; rw [show k1.m[n] = k.m[n] by rw [h]]; exact hg n

@[simp] theorem Dev_writeCell_guarded (d : Dev) (g : KaoCell → KaoCell) (hg : d.kao.guarded) : (d.writeCell g).kao.guarded :=
  guarded_of_m (writeCell_m d g) hg

@[simp] theorem Dev_watchSafe_guarded (d : Dev) (g : Dev → Dev) (hk : (g d).kao.guarded) : (d.watchSafe g).kao.guarded := by
  unfold Dev.watchSafe; rw [Dev_oneEvent_kao]; dsimp only; split <;> simp [hk]

@[simp] theorem Dev_kaoSend_guarded (d : Dev) (n : Fin 8) (ws : List QData) (hg : d.kao.guarded) :
    (Dev.kaoSend d n ws).kao.guarded := by
  unfold Dev.kaoSend
  split
  · exact hg
  · split
    · simp [hg]
    · split
      · simp [hg]
      · exact updKao_guarded_same _ _ _ (by simp [hg]) (fun _ => rfl) fun _ => rfl

@[simp] theorem Dev_kaoFlush_guarded (d : Dev) (n : Fin 8) (q : Fin 64) (hg : d.kao.guarded) :
    (Dev.kaoFlush d n q).kao.guarded := by
  unfold Dev.kaoFlush
  split
  · split
    · rw [Dev_commit_kao]; exact updKao_guarded_same _ _ _ hg (fun _ => rfl) fun _ => rfl
    · exact hg
  · exact hg

@[simp] theorem Dev_sendKaoState_guarded (d : Dev) (n : Fin 8) (old new : KaoSt) (cause : Nat) (hg : d.kao.guarded) :
    (Dev.sendKaoState d n old new cause).kao.guarded := by
  unfold Dev.sendKaoState
  (repeat' (first | split | (extract_lets))) <;> simp [hg]

@[simp] theorem Dev_kenRelease_guarded (d : Dev) (n : Fin 8) (hg : d.kao.guarded) : (d.kenRelease n).kao.guarded := by
  unfold Dev.kenRelease; split
  · exact Dev_updKao_guarded d n _ hg (by intro _ h; cases h)
  · exact hg

@[simp] theorem kenRelease_ken (d : Dev) (n : Fin 8) : ((d.kenRelease n).kao.m[n.val]).ken = false := by
  unfold Dev.kenRelease; split
  · simp
  · rename_i h; simpa using h

@[simp] theorem Dev_rearmTrack_guarded (d : Dev) (n : Fin 8) (hg : d.kao.guarded) : (Dev.rearmTrack d n).kao.guarded := by
  unfold Dev.rearmTrack
  (repeat' (first | split | (extract_lets))) <;> simp [hg]

@[simp] theorem Dev_enterArmed_guarded (d : Dev) (n : Fin 8) (hg : d.kao.guarded) : (d.enterArmed n).kao.guarded := by
  simp only [Dev.enterArmed, Dev_raiseKao_kao]
  exact Dev_updKao_guarded d n _ hg (by intro _ _; rfl)

theorem Dev_enterLockout_guarded (d : Dev) (n : Fin 8) (up : Bool) (hg : d.kao.guarded) (ho : (d.kao.m[n]).ken = false) :
    (d.enterLockout n up).kao.guarded := by
  simp only [Dev.enterLockout, Dev_raiseKao_kao]
  exact Dev_writeCell_guarded _ _ (updKao_guarded_open d n _ hg ho fun _ => rfl)

@[simp] theorem Dev_countTrip_guarded (d : Dev) (n : Fin 8) (hg : d.kao.guarded) : (Dev.countTrip d n).kao.guarded := by
  unfold Dev.countTrip
  (repeat' (first | split | (extract_lets))) <;> simp [hg]

@[simp] theorem Dev_escalate_guarded (d : Dev) (n : Fin 8) (hg : d.kao.guarded) : (Dev.escalate d n).kao.guarded := by
  unfold Dev.escalate
  (repeat' (first | split | (extract_lets))) <;> simp [hg]

@[simp] theorem countTrip_m (d : Dev) (n : Fin 8) : (d.countTrip n).kao.m = d.kao.m := writeCell_m d _

@[simp] theorem Dev_trip_guarded (d : Dev) (n : Fin 8) (src act detail : Nat) (test toLockout : Bool) (hg : d.kao.guarded) :
    (d.trip n src act detail test toLockout).kao.guarded := by
  unfold Dev.trip
  dsimp only
  apply Dev_kaoSend_guarded
  have h1 : (((d.kenRelease n).countTrip n).updKao n fun x =>
      { x with
        tripSource := src, tripAction := act, tripDetail := detail, tripTest := test, tripAt := some d.el
        refuse := if x.req ∧ x.reqAt = some d.el then 2 else x.refuse }).kao.guarded :=
    updKao_guarded_same _ _ _ (Dev_countTrip_guarded _ _ (Dev_kenRelease_guarded _ _ hg)) (fun _ => rfl) fun _ => rfl
  have h2 : ((((d.kenRelease n).countTrip n).updKao n fun x =>
      { x with
        tripSource := src, tripAction := act, tripDetail := detail, tripTest := test, tripAt := some d.el
        refuse := if x.req ∧ x.reqAt = some d.el then 2 else x.refuse }).kao.m[n.val]).ken = false := by
    simp
  split <;> split <;> simp only [Dev_markTrip_kao, Dev_endTripTest_kao, Dev_raiseKao_kao]
  · exact Dev_enterLockout_guarded _ n _ h1 h2
  · exact updKao_guarded_open _ n _ h1 h2 fun _ => rfl
  · exact Dev_enterLockout_guarded _ n _ h1 h2
  · exact updKao_guarded_open _ n _ h1 h2 fun _ => rfl

@[simp] theorem Dev_joinTrip_guarded (d : Dev) (n : Fin 8) (s act detail : Nat) (hg : d.kao.guarded) :
    (d.joinTrip n s act detail).kao.guarded := by
  unfold Dev.joinTrip
  extract_lets x counted d1
  have h1 : d1.kao.guarded := updKao_guarded_same _ _ _ hg (fun _ => rfl) fun _ => rfl
  split
  · exact hg
  split
  · exact h1
  split
  · rename_i ht
    refine Dev_enterLockout_guarded _ n _ h1 ?_
    have h2 : (d1.kao.m[n]).ken = x.ken := by simp [d1, x]
    rw [h2]
    cases hk : x.ken
    · rfl
    · have := hg n hk; simp only [x] at ht; rw [ht] at this; cases this
  split
  · exact Dev_writeCell_guarded _ _ h1
  · exact h1

@[simp] theorem Dev_sourceAction_guarded (d : Dev) (n : Fin 8) (s detail : Nat) (hg : d.kao.guarded) :
    (Dev.sourceAction d n s detail).kao.guarded := by
  unfold Dev.sourceAction
  extract_lets act
  split
  · exact Dev_joinTrip_guarded _ _ _ _ _ hg
  split
  · exact hg
  · split
    · exact hg
    · split
      · split
        · exact Dev_trip_guarded _ _ _ _ _ _ _ hg
        · exact Dev_trip_guarded _ _ _ _ _ _ _ (Dev_escalate_guarded _ _ hg)
      · exact Dev_trip_guarded _ _ _ _ _ _ _ hg
  · split
    · exact Dev_trip_guarded _ _ _ _ _ _ _ hg
    · exact hg
  · split
    · exact Dev_writeCell_guarded _ _ hg
    · exact hg

@[simp] theorem Dev_sourceActive_guarded (d : Dev) (n : Fin 8) (s : Fin 16) (detail : Nat) (hg : d.kao.guarded) :
    (Dev.sourceActive d n s detail).kao.guarded := by
  unfold Dev.sourceActive
  split
  · exact hg
  · apply Dev_watchSafe_guarded
    dsimp only
    apply Dev_rearmTrack_guarded
    apply Dev_sourceAction_guarded
    split <;> simp [hg]

@[simp] theorem Dev_sourceInactive_guarded (d : Dev) (n : Fin 8) (s : Fin 16) (hg : d.kao.guarded) :
    (Dev.sourceInactive d n s).kao.guarded := by
  unfold Dev.sourceInactive
  (repeat' (first | split | (extract_lets))) <;> simp [hg]

@[simp] theorem Dev_setRaw_guarded (d : Dev) (n : Fin 8) (s : Fin 16) (on : Bool) (hg : d.kao.guarded) :
    (d.setRaw n s on).kao.guarded :=
  updKao_guarded_same _ _ _ hg (fun _ => rfl) fun _ => rfl

@[simp] theorem Dev_setCharge_guarded (d : Dev) (n : Fin 8) (s : Fin 16) (k : Nat) (hg : d.kao.guarded) :
    (d.setCharge n s k).kao.guarded :=
  updKao_guarded_same _ _ _ hg (fun _ => rfl) fun _ => rfl

@[simp] theorem Dev_rawChange_guarded (d : Dev) (n : Fin 8) (s : Fin 16) (on : Bool) (hg : d.kao.guarded) :
    (Dev.rawChange d n s on).kao.guarded := by
  unfold Dev.rawChange
  extract_lets d1
  have h1 : d1.kao.guarded := Dev_setRaw_guarded _ _ _ _ hg
  (repeat' split) <;> simp [h1]

@[simp] theorem Dev_showSource_guarded (d : Dev) (n : Fin 8) (s : Fin 16) (on : Bool) (hg : d.kao.guarded) :
    (Dev.showSource d n s on).kao.guarded := by
  unfold Dev.showSource
  (repeat' split) <;> simp [hg]

@[simp] theorem Dev_filterRises_guarded (d : Dev) (n : Fin 8) (s : Fin 16) (hg : d.kao.guarded) :
    (d.filterRises n s).kao.guarded := by
  exact Dev_sourceActive_guarded _ _ _ _ (Dev_setCharge_guarded _ _ _ _ (Dev_setRaw_guarded _ _ _ _ hg))

@[simp] theorem Dev_filterFull_guarded (d : Dev) (n : Fin 8) (s : Fin 16) (hg : d.kao.guarded) :
    (d.filterFull n s).kao.guarded := by
  unfold Dev.filterFull
  split
  · exact ite_guarded (Dev_sourceActive_guarded _ _ _ _ hg) hg
  · exact Dev_filterRises_guarded _ _ _ hg

@[simp] theorem Dev_filterEmpty_guarded (d : Dev) (n : Fin 8) (s : Fin 16) (hg : d.kao.guarded) :
    (d.filterEmpty n s).kao.guarded := by
  unfold Dev.filterEmpty
  split
  · exact Dev_sourceInactive_guarded _ _ _ (Dev_setCharge_guarded _ _ _ _ (Dev_setRaw_guarded _ _ _ _ hg))
  · exact ite_guarded (Dev_sourceInactive_guarded _ _ _ hg) hg

@[simp] theorem Dev_estopOthers_guarded (d : Dev) (n : Fin 8) (on : Bool) (hg : d.kao.guarded) :
    (d.estopOthers n on).kao.guarded :=
  foldl_guarded _ _ _ (fun _ _ h => ite_guarded (Dev_rawChange_guarded _ _ _ _ h) h) hg

@[simp] theorem Dev_kaolinActive_guarded (d : Dev) (n : Fin 8) (s : Fin 16) (hg : d.kao.guarded) :
    (Dev.kaolinActive d n s).kao.guarded := by
  unfold Dev.kaolinActive
  extract_lets d0 d1
  have h0 : d0.kao.guarded := Dev_showSource_guarded _ _ _ _ hg
  have h1 : d1.kao.guarded := ite_guarded (Dev_estopOthers_guarded _ _ _ h0) h0
  (repeat' split) <;> simp [h1]

@[simp] theorem Dev_kaolinInactive_guarded (d : Dev) (n : Fin 8) (s : Fin 16) (hg : d.kao.guarded) :
    (Dev.kaolinInactive d n s).kao.guarded := by
  unfold Dev.kaolinInactive
  split
  · simp [hg]
  · extract_lets d0
    have h0 : d0.kao.guarded := Dev_showSource_guarded _ _ _ _ hg
    exact Dev_filterEmpty_guarded _ _ _ (ite_guarded (Dev_estopOthers_guarded _ _ _ h0) h0)

@[simp] theorem Dev_kaoRequest_guarded (d : Dev) (n : Fin 8) (hg : d.kao.guarded) : (Dev.kaoRequest d n).2.kao.guarded := by
  unfold Dev.kaoRequest
  extract_lets d1 r d2
  have h1 : d1.kao.guarded := by simp [d1, hg]
  have h2 : d2.kao.guarded := ite_guarded (Dev_sourceActive_guarded _ _ _ _ h1) h1
  split
  · rename_i hr
    apply Dev_rearmTrack_guarded
    refine Dev_updKao_guarded _ n _ h1 ?_
    intro _ _
    have h0 : d1.closeRefusal n = 0 := hr.1
    unfold Dev.closeRefusal at h0
    extract_lets x at h0
    split at h0
    · split at h0 <;> cases h0
    · rename_i h3; exact Decidable.of_not_not h3
  · exact Dev_rearmTrack_guarded _ _ (updKao_guarded_same _ _ _ h2 (fun _ => rfl) fun _ => rfl)

@[simp] theorem Dev_kaoWithdraw_guarded (d : Dev) (n : Fin 8) (hg : d.kao.guarded) : (Dev.kaoWithdraw d n).kao.guarded := by
  exact Dev_rearmTrack_guarded _ _ (Dev_kenRelease_guarded _ _ (updKao_guarded_same _ _ _ hg (fun _ => rfl) fun _ => rfl))

@[simp] theorem Dev_kaoFeedback_guarded (d : Dev) (n : Fin 8) (closed : Bool) (hg : d.kao.guarded) :
    (Dev.kaoFeedback d n closed).kao.guarded := by
  unfold Dev.kaoFeedback
  extract_lets d1
  have h1 : d1.kao.guarded := by simp [d1, hg]
  apply Dev_rearmTrack_guarded
  (repeat' split) <;> simp [h1]

@[simp] theorem Dev_windowEnd_guarded (d : Dev) (n : Fin 8) (hg : d.kao.guarded) : (Dev.windowEnd d n).kao.guarded := by
  unfold Dev.windowEnd
  split
  · split
    · extract_lets d1
      have h1 : d1.kao.guarded := by simp [d1, hg]
      apply Dev_rearmTrack_guarded
      split <;> simp [h1]
    · exact hg
  · exact hg

@[simp] theorem Dev_rearm_guarded (d : Dev) (n : Fin 8) (hg : d.kao.guarded) : (Dev.rearm d n).kao.guarded := by
  unfold Dev.rearm
  (repeat' (first | split | (extract_lets))) <;> simp [hg]

@[simp] theorem Dev_hbMessages_guarded (d : Dev) (cause : Nat) (hg : d.kao.guarded) :
    (Dev.hbMessages d cause).kao.guarded := by
  exact foldl_guarded _ _ _ (fun a x h => Dev_sendKaoState_guarded _ _ _ _ _ h) hg

@[simp] theorem Dev_xcheckFollow_guarded (d : Dev) (n : Fin 8) (hg : d.kao.guarded) :
    (Dev.xcheckFollow d n).kao.guarded := by
  unfold Dev.xcheckFollow
  (repeat' (first | split | (extract_lets))) <;> simp [hg]

@[simp] theorem Dev_hbRestore_guarded (d : Dev) (hg : d.kao.guarded) : (Dev.hbRestore d).kao.guarded := by
  unfold Dev.hbRestore
  extract_lets d1 d2
  apply Dev_hbMessages_guarded
  rw [Dev_raiseKao_kao]
  exact foldl_guarded _ _ _ (fun a x h => Dev_sourceInactive_guarded _ _ _ h) (by simp [d1, hg])

@[simp] theorem Dev_diagBeat_guarded (d : Dev) (diag : Nat) (n : Fin 8) (hg : d.kao.guarded) :
    (Dev.diagBeat d diag n).kao.guarded := by
  unfold Dev.diagBeat
  (repeat' (first | split | (extract_lets))) <;> simp [hg]

@[simp] theorem Dev_acceptBeat_guarded (d : Dev) (w : Word) (hg : d.kao.guarded) : (Dev.acceptBeat d w).kao.guarded := by
  unfold Dev.acceptBeat
  (repeat' (first | split | (extract_lets))) <;> simp [hg]

@[simp] theorem Dev_graceSlice_guarded (d : Dev) (n : Fin 8) (hg : d.kao.guarded) : (Dev.graceSlice d n).kao.guarded := by
  unfold Dev.graceSlice
  extract_lets old d1
  exact Dev_sendKaoState_guarded _ _ _ _ _ (Dev_sourceActive_guarded _ _ _ _ hg)

@[simp] theorem Dev_graceEnd_guarded (d : Dev) (hg : d.kao.guarded) : (Dev.graceEnd d).kao.guarded := by
  unfold Dev.graceEnd
  split
  · split
    · extract_lets d1
      exact foldl_guarded _ _ _ (fun a x h => Dev_graceSlice_guarded _ _ h) (by simp [d1, hg])
    · exact hg
  · exact hg

@[simp] theorem Dev_graceFirst_guarded (d : Dev) (hg : d.kao.guarded) : d.graceFirst.kao.guarded := by
  unfold Dev.graceFirst
  split
  · exact ite_guarded (Dev_graceEnd_guarded _ hg) hg
  · exact hg

@[simp] theorem Dev_heartbeatPoll_guarded (d : Dev) (hg : d.kao.guarded) : (Dev.heartbeatPoll d).kao.guarded := by
  unfold Dev.heartbeatPoll
  extract_lets w
  split
  · split
    · split
      · exact Dev_hbRestore_guarded _ (Dev_acceptBeat_guarded _ _ (Dev_graceFirst_guarded _ hg))
      · exact Dev_acceptBeat_guarded _ _ hg
    · exact foldl_guarded _ _ _ (fun a x h => Dev_diagBeat_guarded _ _ _ h) (Dev_acceptBeat_guarded _ _ hg)
  · exact hg

@[simp] theorem Dev_loseBeat_guarded (d : Dev) (hg : d.kao.guarded) : (Dev.loseBeat d).kao.guarded := by
  unfold Dev.loseBeat
  exact foldl_guarded _ _ _ (fun a x h => updKao_guarded_same _ _ _ h (fun _ => rfl) fun _ => rfl) (by simp [hg])

@[simp] theorem Dev_heartbeatLost_guarded (d : Dev) (hg : d.kao.guarded) : (Dev.heartbeatLost d).kao.guarded := by
  unfold Dev.heartbeatLost
  split
  · extract_lets d1
    have h1 : d1.kao.guarded := Dev_hbMessages_guarded _ _ (by rw [Dev_raiseKao_kao]; exact Dev_loseBeat_guarded _ hg)
    split
    · exact h1
    · exact foldl_guarded _ _ _ (fun a x h => Dev_sourceActive_guarded _ _ _ _ h) h1
  · exact hg

@[simp] theorem Dev_xcheckPeriod_guarded (d : Dev) (n : Fin 8) (hg : d.kao.guarded) :
    (Dev.xcheckPeriod d n).kao.guarded := by
  unfold Dev.xcheckPeriod
  extract_lets x period res byp
  split
  · exact hg
  · simp [hg]

@[simp] theorem Dev_xcheckSession_guarded (d : Dev) (n : Fin 8) (hg : d.kao.guarded) :
    (Dev.xcheckSession d n).kao.guarded := by
  unfold Dev.xcheckSession
  extract_lets x bad
  split
  · exact hg
  · simp [hg]

@[simp] theorem Dev_xcheck_guarded (d : Dev) (n : Fin 8) (hg : d.kao.guarded) : (Dev.xcheck d n).kao.guarded := by
  unfold Dev.xcheck
  split
  · exact Dev_xcheckFollow_guarded _ _ (Dev_xcheckSession_guarded _ _ (Dev_xcheckPeriod_guarded _ _ hg))
  · exact hg

@[simp] theorem Dev_selftestStart_guarded (d : Dev) (n : Fin 8) (hg : d.kao.guarded) :
    (Dev.selftestStart d n).kao.guarded := by
  unfold Dev.selftestStart
  extract_lets x
  split
  · exact updKao_guarded_same _ _ _ hg (fun _ => rfl) fun _ => rfl
  · exact hg

@[simp] theorem Dev_noteResTest_guarded (d : Dev) (n : Fin 8) (pass : Bool) (hg : d.kao.guarded) :
    (Dev.noteResTest d n pass).kao.guarded := by
  unfold Dev.noteResTest
  (repeat' (first | split | (extract_lets))) <;> simp [hg]

@[simp] theorem Dev_testComplete_guarded (d : Dev) (n : Fin 8) (pass : Bool) (hg : d.kao.guarded) :
    (Dev.testComplete d n pass).kao.guarded := by
  unfold Dev.testComplete
  split
  · rw [Dev_endResTest_kao]
    have h1 := Dev_noteResTest_guarded d n pass hg
    exact Dev_rawChange_guarded _ _ _ _ (ite_guarded h1 (raiseKao_guarded _ _ h1))
  · exact hg

@[simp] theorem Dev_testExpire_guarded (d : Dev) (n : Fin 8) (hg : d.kao.guarded) : (Dev.testExpire d n).kao.guarded := by
  unfold Dev.testExpire
  split
  · exact updKao_guarded_same _ _ _ hg (fun _ => rfl) fun _ => rfl
  · exact hg

@[simp] theorem Dev_escalationEnd_guarded (d : Dev) (n : Fin 8) (hg : d.kao.guarded) :
    (Dev.escalationEnd d n).kao.guarded := by
  unfold Dev.escalationEnd
  split
  · exact updKao_guarded_same _ _ _ hg (fun _ => rfl) fun _ => rfl
  · exact hg

@[simp] theorem Dev_imdResult_guarded (d : Dev) (n : Fin 8) (kohm : Nat) (hg : d.kao.guarded) :
    (Dev.imdResult d n kohm).kao.guarded := by
  unfold Dev.imdResult
  (repeat' (first | split | (extract_lets))) <;> simp [hg]

@[simp] theorem Dev_imdMeasure_guarded (d : Dev) (i : Fin 4) (kohm : Nat) (settled : Bool) (hg : d.kao.guarded) :
    (Dev.imdMeasure d i kohm settled).kao.guarded := by
  unfold Dev.imdMeasure
  split
  · exact hg
  · split
    · have h1 := fun n => Dev_imdResult_guarded d n kohm hg
      exact Dev_rawChange_guarded _ _ _ _ (Dev_rawChange_guarded _ _ _ _ (ite_guarded (raiseKao_guarded _ _ (h1 _)) (h1 _)))
    · exact Dev_rawChange_guarded _ _ _ _ (updKao_guarded_same _ _ _ hg (fun _ => rfl) fun _ => rfl)

@[simp] theorem Dev_internalSlice_guarded (d : Dev) (n : Fin 8) (hg : d.kao.guarded) :
    (Dev.internalSlice d n).kao.guarded := by
  unfold Dev.internalSlice
  extract_lets old d1 d2 d3
  have h1 : d1.kao.guarded := Dev_kenRelease_guarded _ _ hg
  have h2 : d2.kao.guarded := by
    simp only [d2, Dev_markTrip_kao]
    exact Dev_enterLockout_guarded _ _ _ h1 (by simp [d1])
  have h3 : d3.kao.guarded := by simp only [d3]; split <;> simp [h2]
  split
  · exact Dev_rearmTrack_guarded _ _ h1
  · exact Dev_rearmTrack_guarded _ _ (Dev_sendKaoState_guarded _ _ _ _ _ h3)

@[simp] theorem Dev_internalFault_guarded (d : Dev) (c : KaoInternal) (hg : d.kao.guarded) :
    (Dev.internalFault d c).kao.guarded := by
  unfold Dev.internalFault
  apply Dev_watchSafe_guarded
  extract_lets d1
  exact foldl_guarded _ _ _ (fun a x h => Dev_internalSlice_guarded _ _ h) (by simp [d1, hg])

@[simp] theorem Dev_switchSelftest_guarded (d : Dev) (hg : d.kao.guarded) : (Dev.switchSelftest d).kao.guarded := by
  unfold Dev.switchSelftest
  (repeat' (first | split | (extract_lets))) <;> simp [hg]

@[simp] theorem Dev_confirmSlice_guarded (d : Dev) (n : Fin 8) (hg : d.kao.guarded) :
    (Dev.confirmSlice d n).kao.guarded := by
  unfold Dev.confirmSlice
  split
  · rename_i hs
    split
    · apply Dev_sendKaoState_guarded
      refine Dev_enterLockout_guarded d n _ hg ?_
      have := hg n
      cases hk : (d.kao.m[n]).ken
      · rfl
      · exact absurd (this hk) (by rw [hs]; decide)
    · simp [hg]
  · exact hg

@[simp] theorem confirmCmd_guarded (ag : Agent) (d : Dev) (hg : d.kao.guarded) : (confirmCmd ag d).2.kao.guarded := by
  unfold confirmCmd
  split
  · exact hg
  · split
    · exact hg
    · extract_lets d1
      rw [Dev_oneEvent_kao, Dev_raiseKao_kao]
      exact foldl_guarded _ _ _ (fun a x h => Dev_confirmSlice_guarded _ _ h) (by simp [d1, hg])

theorem kaoCommand_guarded (arg : BitVec 24) (h : Fin 8 → Dev → CmdSt × Dev) (d : Dev)
    (hk : ∀ c x, x.kao.guarded → (h c x).2.kao.guarded) (hg : d.kao.guarded) : (kaoCommand arg h d).2.kao.guarded := by
  unfold kaoCommand; dsimp only; (repeat' split) <;> simp_all

@[simp] theorem lockReleaseCmd_guarded (n : Fin 8) (d : Dev) (hg : d.kao.guarded) : (lockReleaseCmd n d).2.kao.guarded := by
  unfold lockReleaseCmd
  split
  · exact Dev_sendKaoState_guarded _ _ _ _ _ (Dev_enterArmed_guarded _ _ (Dev_writeCell_guarded _ _ hg))
  · exact hg

@[simp] theorem resTestCmd_guarded (n : Fin 8) (d : Dev) (hg : d.kao.guarded) : (resTestCmd n d).2.kao.guarded := by
  unfold resTestCmd
  (repeat' (first | split | (extract_lets))) <;> simp [hg]

@[simp] theorem tripTestCmd_guarded (src : Nat) (n : Fin 8) (d : Dev) (hg : d.kao.guarded) :
    (tripTestCmd src n d).2.kao.guarded := by
  unfold tripTestCmd
  (repeat' (first | split | (extract_lets))) <;> simp [hg]

@[simp] theorem Dev_unforce_guarded (d : Dev) (n : Fin 8) (hg : d.kao.guarded) : (Dev.unforce d n).kao.guarded := by
  unfold Dev.unforce
  (repeat' (first | split | (extract_lets))) <;> simp [hg]

@[simp] theorem Dev_forceEnd_guarded (d : Dev) (n : Fin 8) (hg : d.kao.guarded) : (Dev.forceEnd d n).kao.guarded := by
  unfold Dev.forceEnd
  split
  · split
    · split
      · exact Dev_rawChange_guarded _ _ _ _ (Dev_unforce_guarded _ _ hg)
      · exact Dev_unforce_guarded _ _ hg
    · exact hg
  · exact hg

theorem kaoRestricted_guarded (ag : Agent) (op : Nat) (arg : BitVec 24) (u : Nat) (h : Dev → CmdSt × Dev) (d : Dev)
    (hk : ∀ x, x.kao.guarded → (h x).2.kao.guarded) (hg : d.kao.guarded) : (kaoRestricted ag op arg u h d).kao.guarded := by
  unfold kaoRestricted
  split
  · exact issueCommand_guarded _ _ _ _ _ _ _ hk hg
  · split
    · exact hg
    · rw [Dev_permReject_kao]; exact ite_guarded (by rw [Dev_noteCommand_kao]; exact hg) hg

@[simp] theorem Dev_closeRequest_guarded (d : Dev) (n : Fin 8) (hg : d.kao.guarded) :
    (Dev.closeRequest d n).kao.guarded := by
  unfold Dev.closeRequest
  split
  · rw [Dev_closeAnswer_kao]; exact Dev_kaoRequest_guarded _ _ hg
  · exact hg

@[simp] theorem Dev_closeWithdraw_guarded (d : Dev) (n : Fin 8) (hg : d.kao.guarded) :
    (Dev.closeWithdraw d n).kao.guarded := by
  unfold Dev.closeWithdraw
  (repeat' (first | split | (extract_lets))) <;> simp [hg]

@[simp] theorem Dev_feedback_guarded (d : Dev) (n : Fin 8) (closed : Bool) (hg : d.kao.guarded) :
    (Dev.feedback d n closed).kao.guarded := by
  unfold Dev.feedback
  extract_lets d1
  have h1 : d1.kao = d.kao := by simp only [d1]; split <;> simp
  exact Dev_kaoFeedback_guarded _ _ _ (by rw [h1]; exact hg)

theorem Dev_receive_guarded (d : Dev) (p : Bool) (fr : RingFrame) (g : Dev → Dev) (hg : d.kao.guarded)
    (hk : ∀ x, x.kao.guarded → (g x).kao.guarded) : (d.receive p fr g).kao.guarded := by
  unfold Dev.receive; (repeat' split) <;> simp [hk, hg]

@[simp] theorem Dev_kaoReceive_guarded (d : Dev) (im : Image) (hg : d.kao.guarded) : (Dev.kaoReceive d im).kao.guarded := by
  unfold Dev.kaoReceive
  (repeat' (first | split | (extract_lets))) <;> simp [hg]

@[simp] theorem Dev_kaoParams_guarded (d : Dev) (im : Image) (ns : List (Fin 8)) (hg : d.kao.guarded) :
    (d.kaoParams im ns).kao.guarded := by
  unfold Dev.kaoParams
  split
  · exact hg
  · extract_lets d1
    exact foldl_guarded _ _ _ (fun a x h => updKao_guarded_same _ _ _ h (fun _ => rfl) fun _ => rfl) (by simp [d1, hg])

theorem kaoParams_ken (d : Dev) (im : Image) (ns : List (Fin 8)) (k : Fin 8) :
    ((d.kaoParams im ns).kao.m[k]).ken = (d.kao.m[k]).ken := by
  unfold Dev.kaoParams
  split
  · rfl
  · dsimp only
    have : ∀ (l : List (Fin 8)) (x : Dev),
        ((l.foldl (fun (acc : Dev) (n : Fin 8) => acc.updKao n fun x => { x with block := kaoBlock im.kaolin n.val }) x).kao.m[k]).ken
          = (x.kao.m[k]).ken := by
      intro l
      induction l with
      | nil => intro x; rfl
      | cons n l ih =>
        intro x; rw [List.foldl_cons, ih]; simp; split <;> simp_all
    exact this ns _

theorem Dev_kaoEnter_guarded (d : Dev) (n : Fin 8) (hg : d.kao.guarded) (ho : (d.kao.m[n]).ken = false) :
    (d.kaoEnter n).kao.guarded := by
  unfold Dev.kaoEnter
  split
  · split
    · exact Dev_enterLockout_guarded d n _ hg ho
    · exact Dev_enterArmed_guarded _ _ hg
  · exact updKao_guarded_open d n _ hg ho fun _ => rfl

theorem updKao_ken (d : Dev) (n k : Fin 8) (g : KaoSlice → KaoSlice) (h : ∀ x, (g x).ken = x.ken) :
    ((d.updKao n g).kao.m[k]).ken = (d.kao.m[k]).ken := by
  have h1 := congrArg KaoSlice.ken (updKao_m d n k g)
  refine h1.trans ?_
  split
  · rename_i e; subst e; exact h _
  · rfl

theorem enterLockout_ken (d : Dev) (n k : Fin 8) (up : Bool) : ((d.enterLockout n up).kao.m[k]).ken = (d.kao.m[k]).ken := by
  have h : (d.enterLockout n up).kao.m = (d.updKao n fun x => { x with st := .lockout }).kao.m := by
    unfold Dev.enterLockout; rw [Dev_raiseKao_kao, writeCell_m]
  simp only [h]; exact updKao_ken d n k _ fun _ => rfl

theorem enterArmed_ken (d : Dev) (n k : Fin 8) : ((d.enterArmed n).kao.m[k]).ken = (d.kao.m[k]).ken := by
  unfold Dev.enterArmed; simp only [Dev_raiseKao_kao]; exact updKao_ken d n k _ fun _ => rfl

theorem kaoEnter_ken (d : Dev) (n k : Fin 8) : ((d.kaoEnter n).kao.m[k]).ken = (d.kao.m[k]).ken := by
  unfold Dev.kaoEnter
  split
  · split
    · exact enterLockout_ken d n k false
    · exact enterArmed_ken d n k
  · exact updKao_ken d n k _ fun _ => rfl

theorem kaoEnter_all (ns : List (Fin 8)) (d : Dev) (hg : d.kao.guarded) (ho : ∀ k : Fin 8, (d.kao.m[k]).ken = false) :
    (ns.foldl (fun (acc : Dev) (n : Fin 8) => acc.kaoEnter n) d).kao.guarded := by
  induction ns generalizing d with
  | nil => exact hg
  | cons n ns ih => exact ih _ (Dev_kaoEnter_guarded d n hg (ho n)) fun k => by rw [kaoEnter_ken]; exact ho k

@[simp] theorem Dev_kaoUnconfirm_guarded (d : Dev) (n : Fin 8) (hg : d.kao.guarded) :
    (Dev.kaoUnconfirm d n).kao.guarded := by
  exact updKao_guarded_open _ n _ (Dev_kenRelease_guarded _ _ hg) (by simp) fun _ => rfl

@[simp] theorem Dev_kaoReload_guarded (d : Dev) (n : Fin 8) (hg : d.kao.guarded) : (Dev.kaoReload d n).kao.guarded := by
  unfold Dev.kaoReload
  split
  · exact Dev_kaoUnconfirm_guarded _ _ hg
  · exact Dev_sendKaoState_guarded _ _ _ _ _ (by rw [Dev_endTripTest_kao]; exact Dev_kaoUnconfirm_guarded _ _ hg)

theorem kaoReceive_m (d : Dev) (im : Image) : (d.kaoReceive im).kao.m = d.kao.m := by
  unfold Dev.kaoReceive
  extract_lets i c
  split
  · rfl
  · rw [Dev_raiseKao_kao]; rfl

theorem loadCommon_m (d : Dev) (im : Image) (slot : Nat) (st : LoadState) : (d.loadCommon im slot st).kao.m = d.kao.m := by
  unfold Dev.loadCommon
  rw [kaoReceive_m, Dev_personaDefaults_kao, Dev_loadQueues_kao]

theorem Dev_loadCommon_guarded (d : Dev) (im : Image) (slot : Nat) (st : LoadState) (hg : d.kao.guarded) :
    (d.loadCommon im slot st).kao.guarded := fun n => by
  rw [show (d.loadCommon im slot st).kao.m[n] = d.kao.m[n] by rw [loadCommon_m]]; exact hg n

theorem Dev_distribute_guarded (d : Dev) (im : Image) (slot : Nat) (st : LoadState) (hg : d.kao.guarded)
    (ho : ∀ k : Fin 8, (d.kao.m[k]).ken = false) : (d.distribute im slot st).kao.guarded := by
  unfold Dev.distribute
  rw [Dev_logEvent_kao]
  refine kaoEnter_all _ _ (Dev_kaoParams_guarded _ _ _ (Dev_loadCommon_guarded _ _ _ _ hg)) fun k => ?_
  rw [kaoParams_ken, show (d.loadCommon im slot st).kao.m[k] = d.kao.m[k] by rw [loadCommon_m]]
  exact ho k

theorem Dev_loadOther_guarded (d : Dev) (a r k : Nat) (y : Image ⊕ (Nat × Nat)) (hg : d.kao.guarded)
    (ho : ∀ k : Fin 8, (d.kao.m[k]).ken = false) : (d.loadOther a r k y).kao.guarded := by
  unfold Dev.loadOther
  split
  · exact Dev_distribute_guarded _ _ _ _ hg ho
  · rw [Dev_logEvent_kao, Dev_loadQueues_kao]; exact hg

theorem Dev_loadActive_guarded (d : Dev) (a : Nat) (y : Image ⊕ (Nat × Nat)) (hg : d.kao.guarded)
    (ho : ∀ k : Fin 8, (d.kao.m[k]).ken = false) : (d.loadActive a y).kao.guarded := by
  unfold Dev.loadActive
  split
  · exact Dev_distribute_guarded _ _ _ _ hg ho
  · exact Dev_loadOther_guarded _ _ _ _ _ (by rw [Dev_otherCheck_kao]; exact hg) (by rw [Dev_otherCheck_kao]; exact ho)

theorem Dev_loadImage_guarded (d : Dev) (hg : d.kao.guarded) (ho : ∀ k : Fin 8, (d.kao.m[k]).ken = false) :
    d.loadImage.kao.guarded := by
  exact Dev_loadActive_guarded _ _ _ (by rw [Dev_firstCheck_kao]; exact hg) (by rw [Dev_firstCheck_kao]; exact ho)

@[simp] theorem Dev_swapKaolin_guarded (d : Dev) (im : Image) (ns : List (Fin 8)) (hg : d.kao.guarded) :
    (Dev.swapKaolin d im ns).kao.guarded := by
  exact foldl_guarded _ _ _ (fun a x h => Dev_kaoReload_guarded _ _ h)
    (Dev_kaoParams_guarded _ _ _ (Dev_kaoReceive_guarded _ _ hg))

@[simp] theorem Dev_swapImage_guarded (d : Dev) (im : Image) (slot : Nat) (hg : d.kao.guarded) :
    (Dev.swapImage d im slot).kao.guarded := by
  unfold Dev.swapImage
  extract_lets old d1 d2 d3 d4
  rw [Dev_logEvent_kao, Dev_tamper_kao, Dev_dropInterfaces_kao, Dev_clearUnused_kao]
  have h1 : d1.kao.guarded := by simp only [d1, Dev_swapShared_kao, Dev_swapKinds_kao]; exact hg
  have h2 : d2.kao.guarded := Dev_swapKaolin_guarded _ _ _ h1
  have h3 : d3.kao = d2.kao := foldl_kao _ _ _ fun a c => by rw [Dev_followLimp_kao, Dev_rebindLsw_kao]
  have h4 : d4.kao = d3.kao := by simp only [d4]; split <;> simp
  rw [h4, h3]; exact h2

@[simp] theorem Dev_switchUndervoltage_guarded (d : Dev) (hg : d.kao.guarded) : (Dev.switchUndervoltage d).kao.guarded := by
  unfold Dev.switchUndervoltage
  split
  · exact foldl_guarded _ _ _ (fun a x h => Dev_kenRelease_guarded _ _ h) hg
  · exact hg

@[simp] theorem cleared_ken (d : Dev) (k : Fin 8) : (d.cleared.kao.m[k.val]).ken = false := by simp [Dev.cleared]

@[simp] theorem Dev_cleared_guarded (d : Dev) : d.cleared.kao.guarded := by
  intro k h; have := cleared_ken d k; simp_all

@[simp] theorem Dev_powerOnReset_guarded (d : Dev) (hg : d.kao.guarded) : (Dev.powerOnReset d).kao.guarded := by
  unfold Dev.powerOnReset
  split
  · exact hg
  · extract_lets d1 _ _ d2
    have h2 : d2.kao.guarded := Dev_cleared_guarded d
    split
    · rw [Dev_siltReset_kao]; exact h2
    · exact h2

@[simp] theorem Dev_brownoutReset_guarded (d : Dev) (hg : d.kao.guarded) : (Dev.brownoutReset d).kao.guarded := by
  unfold Dev.brownoutReset
  split
  · exact Dev_cleared_guarded d.updateTail
  · exact hg

/-- Every command of a table keeps the guard. -/
def Keeps (c : Command) : Prop := ∀ u h, c = some (u, h) → ∀ x, x.kao.guarded → (h x).2.kao.guarded

theorem keeps_none : Keeps none := by intro u h e; cases e

theorem keeps_some {u : Nat} {h : Dev → CmdSt × Dev} (hk : ∀ x, x.kao.guarded → (h x).2.kao.guarded) : Keeps (some (u, h)) := by
  intro u1 h1 e; cases e; exact hk

theorem keeps_kao {u : Nat} {h : Dev → CmdSt × Dev} (hk : ∀ x, (h x).2.kao = x.kao) : Keeps (some (u, h)) :=
  keeps_some fun x hx => by rw [hk x]; exact hx

theorem keeps_ite {p : Prop} [Decidable p] {a b : Command} (ha : Keeps a) (hb : Keeps b) : Keeps (if p then a else b) := by
  split
  · exact ha
  · exact hb

theorem keeps_common (g op : Nat) (arg : BitVec 24) : Keeps (commonCommand g op arg) := by
  unfold commonCommand
  exact keeps_ite (keeps_kao fun x => by simp) (keeps_ite (keeps_kao fun x => by simp) (keeps_ite (keeps_kao fun x => by simp) keeps_none))

theorem keeps_sys (op : Nat) (arg : BitVec 24) : Keeps (sysCommand op arg) := by
  unfold sysCommand
  (repeat' (first | exact keeps_none | extract_lets | refine keeps_ite (keeps_kao fun x => ?_) ?_)) <;> simp

theorem keeps_tim (op : Nat) (arg : BitVec 24) : Keeps (timCommand op arg) := by
  unfold timCommand
  (repeat' (first | exact keeps_none | extract_lets | refine keeps_ite (keeps_kao fun x => ?_) ?_)) <;> simp

theorem keeps_que (op : Nat) (arg : BitVec 24) : Keeps (queCommand op arg) := by
  unfold queCommand
  (repeat' (first | exact keeps_none | extract_lets | refine keeps_ite (keeps_kao fun x => ?_) ?_)) <;> simp

theorem keeps_mtr (op : Nat) (arg : BitVec 24) : Keeps (mtrCommand op arg) := by
  unfold mtrCommand
  (repeat' (first | exact keeps_none | extract_lets | refine keeps_ite (keeps_kao fun x => ?_) ?_)) <;> simp

theorem keeps_bil (ag : Agent) (op : Nat) (arg : BitVec 24) : Keeps (bilCommand ag op arg) := by
  unfold bilCommand
  (repeat' (first | exact keeps_none | extract_lets | refine keeps_ite (keeps_kao fun x => ?_) ?_)) <;> simp

theorem keeps_evcGroup (ag : Agent) (op : Nat) (arg : BitVec 24) : Keeps (evcGroupCommand ag op arg) := by
  unfold evcGroupCommand
  (repeat' (first | exact keeps_none | extract_lets | refine keeps_ite (keeps_kao fun x => ?_) ?_)) <;> simp

theorem keeps_kaoGroup (ag : Agent) (op : Nat) (arg : BitVec 24) : Keeps (kaoGroupCommand ag op arg) := by
  unfold kaoGroupCommand
  extract_lets src
  refine keeps_ite (keeps_some fun x hx => ?_) (keeps_ite (keeps_some fun x hx => ?_) (keeps_ite (keeps_some fun x hx => ?_)
    (keeps_ite (keeps_some fun x hx => ?_) keeps_none)))
  · unfold noArg
    split
    · exact confirmCmd_guarded _ _ hx
    · exact hx
  · exact kaoCommand_guarded _ _ _ (fun _ _ h => lockReleaseCmd_guarded _ _ h) hx
  · exact kaoCommand_guarded _ _ _ (fun _ _ h => resTestCmd_guarded _ _ h) hx
  · split
    · exact hx
    · exact kaoCommand_guarded _ _ _ (fun _ _ h => tripTestCmd_guarded _ _ _ h) hx

theorem keeps_lswGroup (op : Nat) (arg : BitVec 24) : Keeps (lswGroupCommand op arg) := by
  unfold lswGroupCommand
  (repeat' (first | exact keeps_none | extract_lets | refine keeps_ite (keeps_kao fun x => ?_) ?_)) <;> simp

theorem keeps_plc (op : Nat) (arg : BitVec 24) : Keeps (plcCommand op arg) := by
  unfold plcCommand
  (repeat' (first | exact keeps_none | extract_lets | refine keeps_ite (keeps_kao fun x => ?_) ?_)) <;> simp

theorem keeps_aul (ag : Agent) (op : Nat) (arg : BitVec 24) : Keeps (aulCommand ag op arg) := by
  unfold aulCommand
  (repeat' (first | exact keeps_none | extract_lets | refine keeps_ite (keeps_kao fun x => ?_) ?_)) <;> simp

theorem keeps_keyGroup (ag : Agent) (op : Nat) (arg : BitVec 24) : Keeps (keyGroupCommand ag op arg) := by
  unfold keyGroupCommand
  (repeat' (first | exact keeps_none | extract_lets | refine keeps_ite (keeps_kao fun x => ?_) ?_)) <;> simp

theorem keeps_tag (ag : Agent) (op : Nat) (arg : BitVec 24) : Keeps (tagCommand ag op arg) := by
  unfold tagCommand
  (repeat' (first | exact keeps_none | extract_lets | refine keeps_ite (keeps_kao fun x => ?_) ?_)) <;> simp

theorem keeps_pnl (ag : Agent) (op : Nat) (arg : BitVec 24) : Keeps (pnlCommand ag op arg) := by
  unfold pnlCommand
  (repeat' (first | exact keeps_none | extract_lets | refine keeps_ite (keeps_kao fun x => ?_) ?_)) <;> (first | (simp; done) | (refine Dev_onRegion_kao _ _ _ ?_; simp))

theorem keeps_sto (op : Nat) (arg : BitVec 24) : Keeps (stoCommand op arg) := by
  unfold stoCommand
  (repeat' (first | exact keeps_none | extract_lets | refine keeps_ite (keeps_kao fun x => ?_) ?_)) <;> simp

theorem keeps_img (ag : Agent) (op : Nat) (arg : BitVec 24) : Keeps (imgCommand ag op arg) := by
  unfold imgCommand
  (repeat' (first | exact keeps_none | extract_lets | refine keeps_ite (keeps_kao fun x => ?_) ?_)) <;> simp

theorem keeps_group (ag : Agent) (g op : Nat) (arg : BitVec 24) : Keeps (groupCommand ag g op arg) := by
  unfold groupCommand
  split
  · exact keeps_sys _ _
  · exact keeps_tim _ _
  · exact keeps_que _ _
  · exact keeps_mtr _ _
  · exact keeps_bil _ _ _
  · exact keeps_evcGroup _ _ _
  · exact keeps_kaoGroup _ _ _
  · exact keeps_lswGroup _ _
  · exact keeps_plc _ _
  · exact keeps_aul _ _ _
  · exact keeps_keyGroup _ _ _
  · exact keeps_tag _ _ _
  · exact keeps_pnl _ _ _
  · exact keeps_sto _ _
  · exact keeps_img _ _ _
  · exact keeps_none

@[simp] theorem Dev_writeCommand_guarded (d : Dev) (ag : Agent) (g : Nat) (data : Word) (hg : d.kao.guarded) :
    (Dev.writeCommand d ag g data).kao.guarded := by
  unfold Dev.writeCommand
  extract_lets op arg
  have hk : Keeps ((commonCommand g op arg).orElse fun _ => groupCommand ag g op arg) := by
    cases hc : commonCommand g op arg with
    | none => exact keeps_group _ _ _ _
    | some c => intro u h e x hx; exact keeps_common g op arg u h (by rw [hc]; exact e) x hx
  split
  · rename_i u h he
    split
    · exact kaoRestricted_guarded _ _ _ _ _ _ (hk _ _ he) hg
    · exact issueCommand_guarded _ _ _ _ _ _ _ (hk _ _ he) hg
  · exact issueCommand_guarded _ _ _ _ _ _ _ (fun _ hx => hx) hg

@[simp] theorem Dev_latticeWrite_guarded (d : Dev) (ag : Agent) (addr : Nat) (data : Word) (hg : d.kao.guarded) :
    (Dev.latticeWrite d ag addr data).kao.guarded := by
  unfold Dev.latticeWrite
  extract_lets g u
  split
  · rw [Dev_settleReset_kao]; exact Dev_writeCommand_guarded _ _ _ _ hg
  · split
    · exact hg
    · split
      · rw [Dev_permReject_kao]; exact hg
      · split
        · rw [Dev_answer_kao]; exact hg
        · exact writeAccess_guarded _ _ _ _ _ _ (fun x hx => by rw [Dev_writeReg_kao]; exact hx) hg

@[simp] theorem Dev_doAccess_guarded (d : Dev) (ag : Agent) (a : Sys2Proof.Access) (hg : d.kao.guarded) :
    (Dev.doAccess d ag a).kao.guarded := by
  unfold Dev.doAccess
  (repeat' (first | split | (extract_lets))) <;> simp [hg]

@[simp] theorem Dev_runAccesses_guarded (r : Request) (l : List (Option Sys2Proof.Access)) (got : List Reply) (d : Dev)
    (hg : d.kao.guarded) : (Dev.runAccesses r l got d).kao.guarded := by
  induction l generalizing got d with
  | nil => simpa [Dev.runAccesses] using hg
  | cons a l ih =>
    cases a with
    | none => exact ih _ _ hg
    | some a =>
      unfold Dev.runAccesses
      split
      · exact hg
      · dsimp only
        have h1 := Dev_doAccess_guarded d r.agent a hg
        split
        · exact h1
        · exact ih _ _ h1

@[simp] theorem Dev_runRequest_guarded (d : Dev) (r : Request) (hg : d.kao.guarded) : (Dev.runRequest d r).kao.guarded := by
  unfold Dev.runRequest
  (repeat' (first | split | (extract_lets))) <;> simp [hg]

@[simp] theorem Dev_runReleased_guarded (k : Nat) (d : Dev) (hg : d.kao.guarded) : (Dev.runReleased k d).kao.guarded := by
  induction k generalizing d with
  | zero => exact hg
  | succ k ih =>
    unfold Dev.runReleased; split
    · exact hg
    · exact ih _ (Dev_runRequest_guarded _ _ hg)

@[simp] theorem Dev_settleReleased_guarded (d : Dev) (hg : d.kao.guarded) : (Dev.settleReleased d).kao.guarded := by
  unfold Dev.settleReleased
  (repeat' (first | split | (extract_lets))) <;> simp [hg]

@[simp] theorem Dev_headendRequest_guarded (d : Dev) (fr : MeshFrame) (hg : d.kao.guarded) :
    (Dev.headendRequest d fr).kao.guarded := by
  unfold Dev.headendRequest
  have ha := fun x => Dev_hesAccept_kao d x
  split
  · rename_i he; have h1 := congrArg (fun p => p.2.kao) he; dsimp only at h1; rw [ha] at h1; rw [← h1]; exact hg
  · rename_i he; have h1 := congrArg (fun p => p.2.kao) he; dsimp only at h1; rw [ha] at h1
    extract_lets todo
    split
    · exact Dev_settleReleased_guarded _ (Dev_runRequest_guarded _ _ (by rw [← h1]; exact hg))
    · rw [Dev_hesAnswer_kao, ← h1]; exact hg

@[simp] theorem Dev_fieldRequest_guarded (d : Dev) (accs : List Sys2Proof.Access) (p : SvcProt) (hg : d.kao.guarded) :
    (Dev.fieldRequest d accs p).kao.guarded := by
  unfold Dev.fieldRequest
  extract_lets op
  refine Dev_fieldCommand_guarded _ _ _ _ (fun b x hx => ?_) hg
  split
  · rw [Dev_count_kao]; exact hx
  · split
    · rw [Dev_tagReply_kao]; exact hx
    · split
      · rw [Dev_tagReply_kao]; exact hx
      · exact Dev_settleReleased_guarded _ (Dev_runRequest_guarded _ _ hx)

@[simp] theorem Dev_takeLreq_guarded (d : Dev) (fr : RingFrame) (hg : d.kao.guarded) : (Dev.takeLreq d fr).kao.guarded := by
  unfold Dev.takeLreq
  have ha := fun w => Dev_takeTransaction_kao d w
  split
  · rw [Dev_misroute_kao]; exact hg
  · extract_lets k
    split
    · rw [Dev_misroute_kao]; exact hg
    · split
      · rename_i he; have h1 := congrArg (fun p : Bool × Dev => p.2.kao) he; dsimp only at h1; rw [ha] at h1; rw [← h1]; exact hg
      · rename_i he; have h1 := congrArg (fun p : Bool × Dev => p.2.kao) he; dsimp only at h1; rw [ha] at h1
        exact Dev_settleReleased_guarded _ (Dev_runRequest_guarded _ _ (by rw [← h1]; exact hg))

@[simp] theorem Dev_ringLreq_guarded (d : Dev) (portB : Bool) (fr : RingFrame) (hg : d.kao.guarded) :
    (Dev.ringLreq d portB fr).kao.guarded := by
  unfold Dev.ringLreq
  split
  · refine Dev_receive_guarded _ _ _ _ hg fun x hx => ?_
    have h1 := Dev_takeLreq_guarded x fr hx
    exact ite_guarded (by rw [Dev_forwardFrame_kao]; exact h1) h1
  · exact hg

@[simp] theorem Dev_roomAvailable_guarded (d : Dev) (q : Fin 64) (hg : d.kao.guarded) :
    (Dev.roomAvailable d q).kao.guarded := by
  unfold Dev.roomAvailable
  extract_lets d1 d2 d3
  have h1 : d1.kao = d.kao := by simp only [d1, Dev_writeHeld_kao]
  have h2 : d2.kao = d1.kao := foldl_kao _ _ _ fun a x => by split <;> simp
  rw [Dev_workBuffers_kao]
  exact foldl_guarded _ _ _ (fun a x h => ite_guarded (Dev_kaoFlush_guarded _ _ _ h) h) (by rw [h2, h1]; exact hg)

theorem Dev_loadSystem_guarded (d : Dev) (hg : d.kao.guarded) (ho : ∀ k : Fin 8, (d.kao.m[k]).ken = false) :
    d.loadSystem.kao.guarded := by
  unfold Dev.loadSystem
  rw [Dev_loadCalendar_kao, Dev_bringUp_kao]
  exact Dev_loadImage_guarded _ (by rw [Dev_romPrepare_kao]; exact hg) (by rw [Dev_romPrepare_kao]; exact ho)

theorem restart_kao (d : Dev) (cause : ColdCause) : (d.restart cause).kao = d.restoreSlices.cleared.kao := by
  unfold Dev.restart
  rw [Dev_startKeys_kao, Dev_restartSpaces_kao, Dev_servoStart_kao, Dev_releaseReset_kao, Dev_startTime_kao]

theorem Dev_coldReset_guarded (d : Dev) (cause : ColdCause) : (d.coldReset cause).kao.guarded := by
  unfold Dev.coldReset
  rw [Dev_romSelect_kao, Dev_restoreStep_kao]
  exact Dev_loadSystem_guarded _ (by rw [restart_kao]; exact Dev_cleared_guarded _)
    (fun k => by rw [restart_kao]; exact cleared_ken _ k)

@[simp] theorem Dev_reloadSwap_guarded (d : Dev) (hg : d.kao.guarded) : (Dev.reloadSwap d).kao.guarded := by
  unfold Dev.reloadSwap
  split
  · exact hg
  · split
    · rw [Dev_firstImage_kao]; exact Dev_swapImage_guarded _ _ _ hg
    · rw [Dev_newSlices_kao]; exact Dev_swapImage_guarded _ _ _ hg

end Sys2Proof.Machine
end

