-- ==== Sys2Proof/Laws/Line.lean ====
section
/-! SUPPORT. What handing a frame to a transmitter does to its line: a class 0 frame is on it in one piece (R489). -/

namespace Sys2Proof.Machine

/-- No class 0 frame on a line is in pieces. -/
def C0Whole (l : List WireItem) : Prop :=
  ∀ g a b, WireItem.bytes g a b ∈ l → g.cls = 0 → a = 0 ∧ b = ringBytes g

theorem C0Whole.nil : C0Whole [] := fun _ _ _ h => absurd h List.not_mem_nil

theorem C0Whole.tail {x : WireItem} {l : List WireItem} (h : C0Whole (x :: l)) : C0Whole l :=
  fun g a b hm => h g a b (List.mem_cons_of_mem _ hm)

theorem C0Whole.cons {x : WireItem} {l : List WireItem} (h : C0Whole l)
    (hx : ∀ g a b, x = .bytes g a b → g.cls = 0 → a = 0 ∧ b = ringBytes g) : C0Whole (x :: l) := by
  intro g a b hm
  rcases List.mem_cons.1 hm with e | hm
  · exact hx g a b e.symm
  · exact h g a b hm

theorem C0Whole.frame {l : List WireItem} (h : C0Whole l) (f : RingFrame) : C0Whole (wholeFrame f :: l) :=
  h.cons fun g a b e _ => by
    simp only [wholeFrame, WireItem.bytes.injEq] at e
    obtain ⟨rfl, rfl, rfl⟩ := e
    exact ⟨rfl, rfl⟩

/-- An item of another kind, or a piece of a frame of another class. -/
theorem C0Whole.other {x : WireItem} {l : List WireItem} (h : C0Whole l) (hx : ∀ g a b, x = .bytes g a b → g.cls ≠ 0) :
    C0Whole (x :: l) := h.cons fun g a b e h0 => absurd h0 (hx g a b e)

theorem C0Whole.append {l r : List WireItem} (hl : C0Whole l) (hr : C0Whole r) : C0Whole (l ++ r) :=
  fun g a b hm => (List.mem_append.1 hm).elim (hl g a b) (hr g a b)

/-- What has left the line takes nothing from the rest. -/
theorem lineNow_whole (l : List WireItem) (t el : Nat) (h : C0Whole l) : C0Whole (lineNow l t el).1 := by
  induction l generalizing t with
  | nil => exact h
  | cons x xs ih =>
    unfold lineNow
    split
    · exact ih _ h.tail
    · exact h

theorem putC0_whole (f : RingFrame) (l : List WireItem) (h : C0Whole l) : C0Whole (putC0 f l) := by
  induction l with
  | nil => exact C0Whole.nil.frame f
  | cons x xs ih =>
    cases x with
    | bytes g a b =>
      unfold putC0
      split
      · exact (ih h.tail).cons fun g' a' b' e => h g' a' b' (by rw [e]; exact List.mem_cons_self)
      · exact h.frame f
    | pre => exact (ih h.tail).other (by simp)
    | res => exact h.frame f

theorem interrupt_whole (f : RingFrame) (dt : Nat) (l : List WireItem) (h : C0Whole l) : C0Whole (interrupt f dt l) := by
  cases l with
  | nil => exact C0Whole.nil.frame f
  | cons x xs =>
    cases x with
    | bytes g a b =>
      simp only [interrupt]
      split
      · exact (putC0_whole f xs h.tail).cons fun g' a' b' e => h g' a' b' (by rw [e]; exact List.mem_cons_self)
      · rename_i hn
        have hg : g.cls ≠ 0 := fun e => hn (Or.inl e)
        refine (((((h.tail.other ?_).other (by simp)).frame f).other (by simp)).other ?_) <;>
          (intro g' a' b' e; simp only [WireItem.bytes.injEq] at e; exact e.1 ▸ hg)
    | pre => exact (putC0_whole f xs h.tail).other (by simp)
    | res => exact (((h.tail.other (by simp)).frame f).other (by simp)).other (by simp)

/-- Frames that begin as others end are on the line in one piece. -/
theorem Port.run_whole (n : Nat) (p : Port) (el : Nat) (h : C0Whole p.line) : C0Whole (p.run n el).line := by
  induction n generalizing p with
  | zero => exact h
  | succ n ih =>
    unfold Port.run
    dsimp only
    split
    · exact ih _ (C0Whole.nil.frame _)
    · exact lineNow_whole _ _ _ h
    · exact lineNow_whole _ _ _ h

/-- A transmitter keeps every class 0 frame on its line whole. -/
theorem Port.transmit_whole (p : Port) (own : Bool) (f : RingFrame) (el : Nat) (h : C0Whole p.line) :
    C0Whole (p.transmit own f el).line := by
  have hq : C0Whole (p.now el).line := Port.run_whole _ p el h
  simp only [Port.transmit]
  split
  · exact interrupt_whole f _ _ hq
  · exact Port.run_whole _ _ el hq

end Sys2Proof.Machine
end

