-- ==== Sys2Proof/Laws/Memory.lean ====
section
/-! SUPPORT. The byte memory and the sparse register files: a read after a write, and that every operation keeps the
canonical form. -/

namespace Sys2Proof.Machine

/-! ### Lists of pairs in rising order -/

/-- The addresses of a memory rise strictly. -/
def Memory.rising (m : Memory) : Prop := (m.map (·.1)).Pairwise (· < ·)

theorem Memory.wf_iff (m : Memory) : Memory.wf m = true ↔ Memory.rising m ∧ ∀ e ∈ m, e.2 ≠ 0 := by
  unfold Memory.wf Memory.rising
  simp only [Bool.and_eq_true, decide_eq_true_eq, List.all_eq_true]

theorem Memory.mem_put {m : Memory} {a : Nat} {v : Byte} {e : Host.Cell} (h : e ∈ Memory.put m a v) : e = (a, v) ∨ e ∈ m := by
  induction m with
  | nil => simpa [Memory.put] using h
  | cons x xs ih =>
    unfold Memory.put at h
    split at h
    · simpa using h
    · split at h
      · rcases List.mem_cons.1 h with h | h
        · exact .inl h
        · exact .inr (List.mem_cons_of_mem _ h)
      · rcases List.mem_cons.1 h with h | h
        · exact .inr (h ▸ List.mem_cons_self)
        · exact (ih h).imp_right (List.mem_cons_of_mem _)

theorem Memory.put_rising {m : Memory} (a : Nat) (v : Byte) (h : Memory.rising m) : Memory.rising (Memory.put m a v) := by
  unfold Memory.rising at *
  induction m with
  | nil => simp [Memory.put]
  | cons x xs ih =>
    obtain ⟨k, u⟩ := x
    simp only [List.map_cons, List.pairwise_cons] at h
    unfold Memory.put
    split
    · simp only [List.map_cons, List.pairwise_cons, List.mem_cons]
      exact ⟨fun b hb => hb.elim (fun e => e ▸ ‹_›) fun hb => Nat.lt_trans ‹_› (h.1 b hb), h.1, h.2⟩
    · split
      · subst_vars; simp only [List.map_cons, List.pairwise_cons]; exact h
      · simp only [List.map_cons, List.pairwise_cons]
        refine ⟨fun b hb => ?_, ih h.2⟩
        obtain ⟨e, he, rfl⟩ := List.mem_map.1 hb
        rcases Memory.mem_put he with rfl | he
        · dsimp only; omega
        · exact h.1 _ (List.mem_map.2 ⟨e, he, rfl⟩)

/-- A write keeps the canonical form. -/
theorem Memory.write_wf (m : Memory) (a : Nat) (v : Byte) (h : Memory.wf m = true) : Memory.wf (Memory.write m a v) = true := by
  rw [Memory.wf_iff] at *
  unfold Memory.write
  split
  · exact ⟨List.Pairwise.sublist (List.Sublist.map _ List.filter_sublist) h.1, fun e he => h.2 e (List.mem_filter.1 he).1⟩
  · exact ⟨Memory.put_rising a v h.1, fun e he => (Memory.mem_put he).elim (fun e1 => by rw [e1]; assumption) (h.2 e)⟩

/-- A write of several bytes keeps the canonical form. -/
theorem Memory.writes_wf (m : Memory) (a : Nat) (bs : List Byte) (h : Memory.wf m = true) :
    Memory.wf (Memory.writes m a bs) = true := by
  induction bs generalizing m a with
  | nil => exact h
  | cons b bs ih => exact ih _ _ (Memory.write_wf m a b h)

/-- The retained store is empty at reset. -/
theorem reset_mram_wf : Memory.wf State.reset.dev.sto.mram = true := rfl

/-- A write of the store keeps the canonical form of the store. -/
theorem Dev.storeWrite_wf (d : Dev) (a : Nat) (bs : List Byte) (h : Memory.wf d.sto.mram = true) :
    Memory.wf (d.storeWrite a bs).sto.mram = true := Memory.writes_wf _ _ _ h

/-! ### A read after a write -/

theorem Memory.read_put (m : Memory) (a b : Nat) (v : Byte) :
    Memory.read (Memory.put m a v) b = if a = b then v else Memory.read m b := by
  induction m with
  | nil => simp [Memory.put, Memory.read]
  | cons x xs ih =>
    obtain ⟨k, u⟩ := x
    unfold Memory.put
    split
    · simp only [Memory.read]
    · split
      · subst_vars; simp only [Memory.read]; split <;> rfl
      · simp only [Memory.read, ih]
        split
        · rename_i h; rw [if_neg (by omega)]
        · rfl

theorem Memory.read_del (m : Memory) (a b : Nat) :
    Memory.read (m.filter fun e => decide (e.1 ≠ a)) b = if a = b then 0 else Memory.read m b := by
  induction m with
  | nil => simp [Memory.read]
  | cons x xs ih =>
    obtain ⟨k, u⟩ := x
    rw [List.filter_cons]
    split
    · simp only [Memory.read, ih]
      split
      · rename_i h1 h2; subst h2; rw [if_neg (by simpa using fun e : a = k => (of_decide_eq_true h1) e.symm)]
      · rfl
    · rename_i h
      have hk : k = a := by simpa using h
      subst hk
      rw [ih]; simp only [Memory.read]
      split <;> simp_all

/-- A read after a write: the byte written at its own address, the former byte at every other. -/
@[simp] theorem Memory.read_write (m : Memory) (a b : Nat) (v : Byte) :
    Memory.read (Memory.write m a v) b = if a = b then v else Memory.read m b := by
  unfold Memory.write
  split
  · subst_vars; exact Memory.read_del m a b
  · exact Memory.read_put m a b v

/-- A read after a write of several bytes. -/
theorem Memory.read_writes (m : Memory) (a b : Nat) (bs : List Byte) :
    Memory.read (Memory.writes m a bs) b = if a ≤ b ∧ b < a + bs.length then bs.getD (b - a) 0 else Memory.read m b := by
  induction bs generalizing m a with
  | nil => rw [if_neg (by rintro ⟨h1, h2⟩; simp only [List.length_nil] at h2; omega)]; rfl
  | cons x xs ih =>
    simp only [Memory.writes, ih, Memory.read_write, List.length_cons]
    by_cases h0 : a = b
    · subst h0; rw [if_neg (by omega), if_pos rfl, if_pos (by omega)]; simp
    · by_cases h1 : a + 1 ≤ b ∧ b < a + 1 + xs.length
      · rw [if_pos h1, if_pos (by omega), show b - a = (b - (a + 1)) + 1 by omega]; simp
      · rw [if_neg h1, if_neg h0, if_neg (by omega)]

/-- Bytes outside a write are as before, byte by byte. -/
theorem Memory.read_writes_of_out (m : Memory) (a b : Nat) (bs : List Byte) (h : b < a ∨ a + bs.length ≤ b) :
    Memory.read (Memory.writes m a bs) b = Memory.read m b := by
  rw [Memory.read_writes, if_neg (by omega)]

/-- Bytes read back where they were written. -/
theorem Memory.reads_writes (m : Memory) (a : Nat) (bs : List Byte) : Memory.reads (Memory.writes m a bs) a bs.length = bs := by
  unfold Memory.reads
  apply List.ext_getElem
  · simp
  · intro i h1 h2
    simp only [List.getElem_map, List.getElem_range, Memory.read_writes]
    rw [if_pos (by omega)]
    simp [h2]

/-! ### Sparse register files -/

theorem RegFile.find_put (f : RegFile) (a b : Nat) (v : Word) : (f.put a v).find b = if a = b then some v else f.find b := by
  induction f with
  | nil => simp [RegFile.put, RegFile.find]
  | cons x xs ih =>
    obtain ⟨k, u⟩ := x
    unfold RegFile.put
    split
    · simp only [RegFile.find]
    · split
      · subst_vars; simp only [RegFile.find]; split <;> rfl
      · simp only [RegFile.find, ih]
        split
        · rename_i h; rw [if_neg (by omega)]
        · rfl

theorem RegFile.find_del (f : RegFile) (a b : Nat) : (f.del a).find b = if a = b then none else f.find b := by
  unfold RegFile.del
  induction f with
  | nil => simp [RegFile.find]
  | cons x xs ih =>
    obtain ⟨k, u⟩ := x
    rw [List.filter_cons]
    split
    · simp only [RegFile.find, ih]
      split
      · rename_i h1 h2; subst h2; rw [if_neg (by simpa using fun e : a = k => (of_decide_eq_true h1) e.symm)]
      · rfl
    · rename_i h
      have hk : k = a := by simpa using h
      subst hk
      rw [ih]; simp only [RegFile.find]
      split <;> simp_all

/-- A register word after a word is set. -/
theorem RegFile.value_set (f : RegFile) (a b : Nat) (v : Word) : (f.set a v).value b = if a = b then v else f.value b := by
  unfold RegFile.set RegFile.value
  split
  · rename_i h; rw [RegFile.find_del]; split
    · subst_vars; rfl
    · rfl
  · rw [RegFile.find_put]; split <;> rfl

theorem Dev.reg_setReg (d : Dev) (g u off g' u' off' : Nat) (v : Word) :
    (d.setReg g u off v).reg g' u' off' = if lattice g u off = lattice g' u' off' then v else d.reg g' u' off' :=
  RegFile.value_set _ _ _ _

/-- An agent's view after a view is set. -/
theorem Dev.view_setView (d : Dev) (ag other : Agent) (a b : Nat) (v : Word) :
    (d.setView ag a v).view other b = if viewKey ag a = viewKey other b then v else d.view other b := by
  unfold Dev.view Dev.setView
  dsimp only
  split
  · subst_vars; rw [RegFile.find_del]; split <;> simp_all
  · rw [RegFile.find_put]; split <;> simp_all

/-- Views of different agents are different, and of one agent at different addresses. -/
theorem viewKey_inj {ag other : Agent} {a b : Nat} (ha : a < 2 ^ 32) (hb : b < 2 ^ 32) :
    viewKey ag a = viewKey other b ↔ agentNum ag = agentNum other ∧ a = b := by
  unfold viewKey
  constructor
  · intro h; omega
  · rintro ⟨h, rfl⟩; rw [h]

end Sys2Proof.Machine
end

