-- ==== Sys2Proof/Laws/Queues.lean ====
section
/-! SUPPORT. What reading a queue out can do: a message whose words check good or single leaves whole, the rest waits. -/

namespace Sys2Proof.Machine

/-- Without an uncorrectable word nothing is poisoned (R130). -/
theorem poisonSpan_eq_zero (m : QMsg) (ms : List QMsg) (cs : List WordCheck) (h : WordCheck.double ∉ cs) :
    poisonSpan m ms cs = 0 := by
  have h1 : cs.headD .good ≠ .double := by
    cases cs with
    | nil => decide
    | cons c cs => simpa [eq_comm] using fun e => h (by simp [e])
  have h2 : WordCheck.double ∉ cs.take m.left := fun e => h (List.mem_of_mem_take e)
  simp only [poisonSpan, if_neg h1, List.contains_iff_mem, if_neg h2]

/-- An empty queue gives nothing. -/
theorem Dev.takeMsg_empty (d : Dev) (q : Fin 64) (cs : List WordCheck) (h : (d.freshFront q).que.q[q].msgs = []) :
    d.takeMsg q cs = (none, d.freshFront q) := by
  simp only [Dev.takeMsg, h]

/-- The front message is taken whole where no word of it is uncorrectable (R120, R129). -/
theorem Dev.takeMsg_whole (d : Dev) (q : Fin 64) (cs : List WordCheck) (m : QMsg) (ms : List QMsg)
    (h : (d.freshFront q).que.q[q].msgs = m :: ms) (hc : WordCheck.double ∉ cs) :
    (d.takeMsg q cs).1 = some m.words := by
  simp only [Dev.takeMsg, h, poisonSpan_eq_zero m ms cs hc, if_true]

/-- A queue a consumer serves is its own: while a C0 queue of the consumer waits, only one of class C0 (R126). -/
theorem Dev.serves_c0_first (d : Dev) (q p : Fin 64) (can : Fin 64 → Bool) (h : d.serves q can = true)
    (hp : p ∈ d.waits (d.que.q[q].entry.cons) 0 can) : d.que.q[q].entry.cls = 0 := by
  have hne : d.waits (d.que.q[q].entry.cons) 0 can ≠ [] := List.ne_nil_of_mem hp
  simp only [Dev.serves, Bool.and_eq_true, Bool.or_eq_true, decide_eq_true_eq, List.isEmpty_iff] at h
  exact h.1.resolve_right hne

end Sys2Proof.Machine
end

