-- ==== Sys2Proof/Tests/Slice0.lean ====
section
/-! SUPPORT. Tests: the smoke test of WellFormed, the manual's worked examples, one step on a small state per family, and
for every statement with hypotheses a state and operands that meet them. -/

namespace Sys2Proof.Tests

open Sys2Proof Sys2Proof.Machine

set_option Elab.async false

/-! ### A small configured device -/

/-- Every right in every group for A1 to A4. -/
def grants : List Grant :=
  [1, 2, 3, 4].flatMap fun a => (List.range 15).map fun g => { agent := a, group := g, first := 0, last := 255, rights := 7 }

/-- An image with an AC3, a DC, a BIDIR and four AC1 slices; S7 is absent. -/
def image : Image :=
  { serial := 1, built := 0, member := 0x880, major := 1, minor := 0, check := 0, vers := [1, 1, 1, 1, 1, 1, 1]
    kinds := [1, 3, 4, 2, 2, 2, 2, 0], chans := [], switch := [], kaolin := [], queues := [], perms := grants, persona := [] }

/-- A device that runs with that image, 1000 s after its start, on a period boundary; the host is numbered and its port up. -/
def dev : Dev :=
  { islandRun := 0xFFFF, coreA1 := true
    img := { loaded := some image, load := .loaded, slot := 0, cfgDone := true, restoreDone := true }
    tim := { now := 1000000000000, elapsed := 1000000000000 }
    aul := { numbered := true, a := { st := .up } } }

/-- A state with nothing waiting. -/
def st (d : Dev) : State := { dev := d }

/-! ### WellFormed: one ill-formed term for each check -/

def meshF : MeshFrame :=
  { ftype := 0, flags := 0, cell := 0, lsrc := 0, ldst := 0, origin := 0, dest := 0, hops := 0, age := 0, msgId := 0, hcheck := 0
    payload := [], mac := 0, fcheck := 0 }
def ringF : RingFrame :=
  { cls := 0, ftype := 0, dest := 0, source := 0, hops := 0, queue := 0, payload := [], crcOk := true, eofBad := false }
def hk0 : HkReadings := { vmain := 3300, vsilt := 3000, vpos := 12000, vneg := -12000, hk := List.replicate 16 0 }

theorem test_wf_group : (Instr.funcStop .host .rsvd 0).wf = false ∧ (Instr.funcStart .host .rsvd 0).wf = false ∧
    (Instr.funcRestart .host .rsvd 0).wf = false ∧ (Instr.funcStop .host .evc 0).wf = true := by decide
theorem test_wf_samples : (Instr.sampleTransfer false ⟨[], true, true, false⟩).wf = false ∧
    (Instr.sampleTransfer false ⟨List.replicate 32 (0, 0), true, true, false⟩).wf = true := by decide
theorem test_wf_cycles : (Instr.metrologyPeriodBoundary []).wf = false ∧
    (Instr.metrologyPeriodBoundary (List.replicate 9 (0, 0))).wf = true := by decide
theorem test_wf_harmonics : (Instr.harmonicWindowEnd 8 ⟨10, [(64, List.replicate 63 0)]⟩).wf = false ∧
    (Instr.harmonicWindowEnd 8 ⟨10, [(0, [])]⟩).wf = false ∧ (Instr.harmonicWindowEnd 8 ⟨10, [(63, 2 ^ 31 :: List.replicate 62 0)]⟩).wf = false ∧
    (Instr.harmonicWindowEnd 8 ⟨10, [(63, List.replicate 63 0)]⟩).wf = true := by decide
theorem test_wf_can : (Instr.canFrameRx 0 ⟨false, 2048, []⟩).wf = false ∧ (Instr.dcStatusFrame 0 ⟨true, 0, List.replicate 65 0⟩).wf = false ∧
    (Instr.canFrameRx 0 ⟨false, 2047, List.replicate 64 0⟩).wf = true := by decide
theorem test_wf_ether : (Instr.gpFrameRx 0 []).wf = false ∧ (Instr.gpFrameRx 0 (List.replicate 14 0)).wf = true := by decide
theorem test_wf_mesh : (Instr.meshFrameRx { meshF with hops := 17 } ⟨0, 0, [], 0⟩).wf = false ∧
    (Instr.headendLatticeRequest { meshF with flags := 8 }).wf = false ∧
    (Instr.headendLatticeRequest { meshF with payload := List.replicate 97 0 }).wf = false ∧
    (Instr.meshFrameRx { meshF with hops := 16 } ⟨0, 0, [], 0⟩).wf = true := by decide
theorem test_wf_zx : (Instr.zxMessage []).wf = false ∧ (Instr.zxMessage (List.replicate 225 0)).wf = false ∧
    (Instr.zxMessage (List.replicate 224 (-5))).wf = true := by decide +kernel
theorem test_wf_limits : (Instr.meshTxComplete [true] 1080).wf = false ∧
    (Instr.meshTxComplete (List.replicate 1080 true) 0).wf = true := by decide +kernel
theorem test_wf_pair : (Instr.meshFrameRx meshF ⟨0, 0, [], 4⟩).wf = false ∧ (Instr.meshFrameRx meshF ⟨0, 0, [], 3⟩).wf = true := by decide
theorem test_wf_card : (Instr.readerPoll (some ⟨false, [1, 2, 3], 0, 0, true⟩)).wf = false ∧
    (Instr.readerPoll (some ⟨false, [1, 2, 3, 4], 0, 0, true⟩)).wf = true := by decide
theorem test_wf_field : (Instr.fieldData (List.replicate 241 0) ⟨⟨0, 0⟩, []⟩).wf = false ∧
    (Instr.fieldLattice (List.replicate 9 ⟨0, none⟩) ⟨0, 0⟩).wf = false ∧ (Instr.fieldData (List.replicate 240 0) ⟨⟨0, 0⟩, []⟩).wf = true := by decide +kernel
theorem test_wf_scrub : (Instr.scrubComplete 0 [0x4000000]).wf = false ∧ (Instr.scrubComplete 0 [0x3FFFFF8]).wf = true := by decide
theorem test_wf_ring : (Instr.dataFrame false { ringF with payload := List.replicate 9 0 }).wf = false ∧
    (Instr.lreq false { ringF with payload := List.replicate 9 0 }).wf = false ∧
    (Instr.ringSync false { ringF with payload := List.replicate 9 0 }).wf = false ∧
    (Instr.ringEnum false { ringF with payload := List.replicate 9 0 }).wf = false ∧
    (Instr.ringRoute false { ringF with payload := List.replicate 9 0 }).wf = false ∧
    (Instr.ringLink false { ringF with payload := List.replicate 9 0 }).wf = false ∧
    (Instr.frameForward false { ringF with cls := 1, payload := List.replicate 257 0 }).wf = false ∧
    (Instr.dataFrame false { ringF with payload := List.replicate 8 0 }).wf = true := by decide +kernel
theorem test_wf_scan : (Instr.hkScan { hk0 with hk := [] }).wf = false ∧
    (Instr.hkScan { hk0 with hk := List.replicate 16 2501 }).wf = false ∧ (Instr.hkScan hk0).wf = true := by decide

/-! ### States and operands that meet the hypotheses of the statements -/

theorem test_hyps_IdleStep : (st dev).pending = [] ∧ dev.pwr.held = false ∧ dev.runs 11 = true ∧
    ({ dev with pwr := { dev.pwr with held := true } } : Dev).pwr.held = true ∧ (dev.setRun 11 false).runs 11 = false ∧
    (∀ t0 ∈ [1000000000000, 1000000000001], ((dev.updLsw 15 fun x => { x with restart := some t0 }).lsw.c[(15 : Fin 16)]).restart = some t0) ∧
    1000000000000 ≤ dev.tim.elapsed ∧ dev.tim.elapsed < 1000000000001 := by decide

theorem test_hyps_CommandIssue :
    State.reset.dev.canIssue .host = false ∧
    (dev.canIssue .host = true ∧ ({ dev with img := {} } : Dev).canIssue .host = true ∧
      ({ dev with img := {} } : Dev).granted .host 5 0 .command = false) ∧
    (({ dev with busy := [⟨.evc, .host, 0x10, 0⟩] } : Dev).canIssue .host = true ∧
      ({ dev with busy := [⟨.evc, .host, 0x10, 0⟩] } : Dev).granted .host 5 0 .command = true ∧
      (({ dev with busy := [⟨.evc, .host, 0x10, 0⟩] } : Dev).busy.any fun b => groupNum b.group = 5) = true) ∧
    dev.ready .host 5 0 ∧ dev.ready .core 7 3 ∧ Agent.host ≠ Agent.core := by decide

theorem test_hyps_FlagRegisters :
    ((0 : Nat) + 1 < 2 ^ 48 ∧ ({} : FlagReg).keptOf 2 ≤ 0 ∧ (2 ^ 15).testBit 15 = true) ∧
    dev.canIssue .host = true ∧ (∃ r, mapped 0x10000010 = some r ∧ r.row.id.isFlags = true ∧ dev.wideValue r = none) ∧
    dev.stoppedIsland (addrGroup 0x10000010) (addrUnit 0x10000010) = none ∧
    dev.granted .host (addrGroup 0x10000010) (addrUnit 0x10000010) .read = true ∧
    dev.granted .host (addrGroup 0x10000010) (addrUnit 0x10000010) .write = true ∧ isCmdAddr 0x10000010 = false ∧ dev.resume = [] ∧
    (dev.flagReg 0x10000010).accepts 2 0 = true ∧ (dev.flagReg 0x10000010).accepts 2 1 = false := by
  refine ⟨by decide, by decide, ?_, by decide, by decide, by decide, by decide, by decide, by decide, by decide⟩
  exact ⟨_, rfl, by decide, by decide⟩

theorem test_hyps_WideReadsAndSettings :
    dev.canIssue .host = true ∧ Agent.host ≠ .kaolin ∧
    (∃ r, mapped 0x10000000 = some r ∧ dev.wideValue r = some 1000000000000) ∧
    dev.stoppedIsland 1 0 = none ∧ dev.granted .host 1 0 .read = true ∧ dev.granted .host 1 0 .write = true ∧
    (∃ r, mapped 0x10000018 = some r ∧ isCmdAddr 0x10000018 = false ∧ dev.resume = [] ∧
      dev.writeReg (some .host) 1 0 r 0x10000018 0xFFFF = dev.writeSetting 1 0 r.row 0x10000018 0xFFFF ∧
      dev.settingOk r.row.id 0 0xFFFF = true ∧ stopChange r.row (dev.func? .tim 0) (dev.regs.value 0x10000018) 0xFFFF = false) := by
  refine ⟨by decide, by decide, ⟨_, rfl, rfl⟩, by decide, by decide, by decide, ⟨_, rfl, by decide, by decide, rfl, by decide, by decide⟩⟩

theorem test_hyps_FunctionCommands :
    let run := dev.setFunc .evc 0 { st := .running }
    let flt := dev.setFunc .evc 0 { st := .fault }
    (run.ready .host 5 0 ∧ run.func? .evc 0 = some { st := .running } ∧ run.stopRefused .evc 0 = false) ∧
    (dev.ready .host 5 0 ∧ dev.func? .evc 0 = some {} ∧ ({} : Func).idle = true ∧ dev.startReady .evc 0 = true) ∧
    (flt.ready .host 5 0 ∧ flt.func? .evc 0 = some { st := .fault }) ∧ ¬(Group.evc = .tag ∧ 0 = 1) := by decide

theorem test_hyps_Islands :
    let off := dev.setRun 15 false
    (dev.ready .host 0 0xFF ∧ argUnit 0x020000 ≤ 15 ∧ dev.runs 2 = true ∧ alwaysRun 2 = false ∧ dev.islandFree 2 = true) ∧
    (dev.setRun 2 false).ready .host 0 0xFF ∧ (dev.setRun 2 false).runs 2 = false ∧ (dev.setRun 2 false).clockLost = 0 ∧
    (∃ d1, (dev.setRun 2 false).clockPresent 2 = (true, d1)) ∧ (dev.setRun 2 false).stoppedIsland 5 0 = none ∧
    (alwaysRun (argUnit 0x0F0000) = true ∧ argUnit 0x0F0000 ≤ 15) ∧ off.runs 14 = true ∧
    (let h : HungAccess := ⟨.host, 2, 0x52000000, 1000000000000 - 100000, false, none⟩
     h ∈ ({ dev with hung := [h] } : Dev).hung ∧ h.noted = false ∧ h.since + 100000 ≤ dev.tim.elapsed) := by
  refine ⟨by decide, by decide, by decide, by decide, ⟨_, rfl⟩, by decide, by decide, by decide, by decide⟩

/-- A device whose image wires the Green PHY modem of slice 0. -/
def wired : Dev := { dev with img := { dev.img with loaded := some { image with persona := [0, 0, 0, 0, 0, 0, 0, 1] } } }

/-- A write of the modem's registers in a stopped island, and a running session function of that island. -/
theorem test_hyps_Islands_stopped :
    (∃ r, mapped 0x51000000 = some r ∧ (wired.setRun 2 false).canIssue .host = true ∧ (wired.setRun 2 false).resume = [] ∧
      (wired.setRun 2 false).granted .host (addrGroup 0x51000000) (addrUnit 0x51000000) .write = true ∧ isCmdAddr 0x51000000 = false ∧
      (wired.setRun 2 false).stoppedIsland (addrGroup 0x51000000) (addrUnit 0x51000000) = some 2) ∧
    nbit (wired.persona 7) (0 : Fin 8).val = true ∧
    ((wired.updEvc 0 fun x => { x with fn := { st := .running } }).evc.s[(0 : Fin 8)]).fn.st = .running ∧
    (dev.setRun 15 false).runs (15 : Fin 16).val = false ∧ dev.runs (15 : Fin 16).val = true := by
  refine ⟨⟨_, rfl, by decide, by decide, by decide, by decide, by decide⟩, by decide, by decide, by decide, by decide⟩

/-- A part with no image loaded, whose core is A0 and whose slot 0 is verified. -/
def bare : Dev := { islandRun := 0xFFFF, img := { verified := [0] } }

theorem test_hyps_ImageReload :
    (dev.ready .host 14 0xFF ∧ argUnit 0x010000 ≤ 1 ∧ dev.img.prepared = none ∧ argBits 0x010000 15 0 = 0 ∧
      (∃ x d1, dev.checkSlot 1 = (.inr x, d1))) ∧
    (bare.ready .boot 14 0xFF ∧ argUnit 0xFE ≤ 1 ∧ argBits 0xFE 15 8 = 0 ∧ argUnit 0xFE ∈ bare.img.verified ∧
      argBits 0xFE 7 0 = bare.differing (bare.rawImage (argUnit 0xFE)).decode ∧
      bare.reloadState (bare.rawImage (argUnit 0xFE)).decode = true) ∧
    (({ dev with img := { dev.img with prepared := some (image, 1, 0xFE) } } : Dev).img.prepared = some (image, 1, 0xFE)) := by
  refine ⟨⟨by decide, by decide, by decide, by decide, _, _, rfl⟩, ⟨by decide, by decide, by decide, by decide, rfl, rfl⟩, rfl⟩

/-- Every check of a slot ends in one of the two ways that the statement distinguishes. -/
theorem test_hyps_ImageReload_split (d : Dev) (slot : Nat) :
    (∃ im d1, d.checkSlot slot = (.inl im, d1)) ∨ ∃ r k d1, d.checkSlot slot = (.inr (r, k), d1) := by
  cases h : (d.checkSlot slot).1 with
  | inl im => exact .inl ⟨im, _, by rw [← h]⟩
  | inr x => exact .inr ⟨x.1, x.2, _, by rw [Prod.mk.eta, ← h]⟩

theorem test_hyps_StartUp :
    let d : Dev := { dev with img := { dev.img with cfgArea0 := 1 } }
    d.img.loaded.isSome = true ∧ d.img.cfgDone = true ∧ d.img.restoreDone = true ∧ d.img.started = false ∧ d.pwr.held = false ∧
      d.tim.now % 200000000 = 0 ∧ d.areaInUse.isSome = true := by decide

theorem test_hyps_PowerSupply :
    (dev.pwr.held = false ∧ dev.pwr.pf = false) ∧
    (let d : Dev := { dev with pwr := { dev.pwr with pf := true } }; d.pwr.held = false ∧ d.pwr.pf = true) ∧
    pilotSupplyOk true 0 = false ∧ pilotSupplyOk false 0 = false ∧ dev.due keyHk 10000000 = true ∧
    ({ dev with pwr := { dev.pwr with hkReq := true } } : Dev).pwr.hkReq = true := by decide

theorem test_hyps_DieResets :
    (∃ d : Dev, d.brownoutDue = true) ∧ ({ dev with pwr := { dev.pwr with held := true } } : Dev).pwr.held = true ∧
    dev.ready .host 0 0xFF ∧ dev.pwr.held = false ∧ dev.pwr.siltGone = false ∧
    ({ dev with pwr := { dev.pwr with siltGone := true } } : Dev).pwr.siltGone = true := by
  refine ⟨⟨{ dev with pwr := { dev.pwr with pf := true, tTrip := 1000000000000 - 10000000, snapshot := true, tSnap := 1000000000000 - 10000000 } }, by decide⟩, by decide, by decide, by decide, by decide, by decide⟩

/-- The header of a firmware image that FW_PENDING accepts, in slot A. -/
def fwHeader : Memory := Memory.writes [] (fwAddr 0) [0x54, 0x47, 0x46, 0x57, 1, 0, 0x80, 8, 1, 0]

/-- A device whose queue `q` has an entry and one waiting message. -/
def withQueue (d : Dev) (q : Fin 64) (cls prod cons : Nat) (ws : List QData) : Dev :=
  d.updQ q fun _ => { entry := ⟨cls, 512, prod, cons, 0⟩, msgs := [⟨ws, d.tim.now, d.tim.elapsed, false, 0⟩] }

/-- A recovery message of one block for slot 0. -/
def rcvBlockMsg : List QData := mkMsg 0x70 2 0xFF 0 [packQ [(8, 0), (24, 0), (16, 8), (16, 0)], 0]

/-- A part in recovery with that slot open. -/
def rcvDev : Dev :=
  { islandRun := 0xFFFF, tim := { now := 1000000000000, elapsed := 1000000000000 }, img := { recovery := true, fwA := 1 } }

theorem test_hyps_Firmware :
    (let d : Dev := { dev with img := { dev.img with fwA := 0 } }
     d.ready .host 14 0xFF ∧ fwArgOk 0 = true ∧ d.fwState (argUnit 0) = 0 ∧ d.trialRuns = false) ∧
    (let d : Dev := { dev with img := { dev.img with fwA := 1 }, sto := { mram := fwHeader } }
     d.ready .host 14 0xFF ∧ d.fwState (argUnit 0) = 1 ∧ d.fwState (1 - argUnit 0) ≠ 2 ∧ d.fwState (1 - argUnit 0) ≠ 3 ∧
      d.fwHeaderReason (argUnit 0) = 0) ∧
    (let d : Dev := { dev with img := { dev.img with fwB := 6 } }
     d.ready .host 14 0xFF ∧ fwArgOk 0x010000 = true ∧ d.fwState (argUnit 0x010000) = 6 ∧ d.fwHeaderReason (argUnit 0x010000) ≠ 0) ∧
    (let d : Dev := { dev with img := { dev.img with fwB := 3, running := 1 } }
     d.ready .core 14 0xFF ∧ d.img.running < 2 ∧ d.fwState d.img.running = 3 ∧ d.trialRuns = true) ∧
    (let d : Dev := { dev with img := { dev.img with fwA := 2 } }
     d.ready .host 14 0xFF ∧ d.fwIn 3 = none ∧ d.fwIn 2 = some 0) ∧
    (let d : Dev := { dev with img := { dev.img with fwA := 3, trialSec := 600 } }
     d.trialRuns = true ∧ 600 ≤ d.img.trialSec ∧ d.pwr.held = false) ∧
    (let d : Dev := { rcvDev with img := { rcvDev.img with selected := some 0 } }
     d.img.selected = some 0 ∧ d.coreA1 = false ∧ d.pwr.held = false ∧ d.hangs .boot = false) := by decide

theorem test_hyps_Firmware_record :
    (let d : Dev := { dev with img := { dev.img with fwA := 2, bootA := {}, bootB := {} } }
     d.img.bootRecord d.img.bootNewest.seq ≠ d.img.bootNewest ∧ d.img.bootNewerB = false) ∧
    (let d : Dev := { dev with img := { dev.img with fwA := 2, bootA := {}, bootB := { seq := 1 } } }
     d.img.bootRecord d.img.bootNewest.seq ≠ d.img.bootNewest ∧ d.img.bootNewerB = true) := by decide

theorem test_hyps_Firmware_recovery :
    (let d := withQueue rcvDev 5 2 2 1 rcvBlockMsg
     d.inRecovery = true ∧ d.rcvTurn 5 = true ∧ (∃ m ms ws d1, (d.freshFront 5).que.q[(5 : Fin 64)].msgs = m :: ms ∧
      (d.freshFront 5).rcvTake 5 [] = (some ws, d1) ∧ hdrType (msgHead m.words) ≠ 0x71 ∧
      hdrType (msgHead ws) = 0x70 ∧ rcvBlockOk ws = true ∧
      d1.fwState (bits (ws.getD 1 0).toNat 63 56) = 1 ∧ d1.sto.holdup = false)) ∧
    (let d := withQueue rcvDev 5 2 2 1 rcvBlockMsg
     ∃ m ms ws d1, (d.freshFront 5).que.q[(5 : Fin 64)].msgs = m :: ms ∧ (d.freshFront 5).rcvTake 5 [.double] = (some ws, d1) ∧
      hdrType (msgHead m.words) ≠ 0x71 ∧ hdrType (msgHead ws) ≠ 0x70 ∧ isPoison ws = true) ∧
    (let d := withQueue rcvDev 5 2 2 1 (mkMsg 0x71 2 0xFF 0 [0])
     d.inRecovery = true ∧ d.rcvTurn 5 = true ∧ (∃ m ms ws d1, (d.freshFront 5).que.q[(5 : Fin 64)].msgs = m :: ms ∧
      (d.freshFront 5).rcvTake 5 [] = (some ws, d1) ∧ isPoison ws = false ∧
      hdrType (msgHead m.words) = 0x71 ∧ d1.fwState (bits (m.words.getD 1 0).toNat 63 56) = 1 ∧
      ∃ k d3, d1.romCommand 0x11 (bits (m.words.getD 1 0).toNat 63 56) fwPendingCmd = (k, d3))) := by
  refine ⟨⟨by decide +kernel, by decide +kernel, _, _, _, _, rfl, rfl, by decide, by decide, by decide, by decide, by decide⟩,
    ⟨_, _, _, _, rfl, rfl, by decide, by decide, by decide⟩,
    ⟨by decide +kernel, by decide +kernel, _, _, _, _, rfl, rfl, by decide, by decide, by decide, _, _, rfl⟩⟩

theorem test_hyps_RetainedStore :
    (dev.canIssue .host = true ∧ dev.granted .host 13 0 .read = true ∧ stoArea (dev.stoAddr .host) ≠ .keyRecords) ∧
    (let d := dev.setView .host (lattice 13 0 0) 0x03F00000
     d.canIssue .host = true ∧ d.granted .host 13 0 .write = true ∧ (stoArea (d.stoAddr .host)).writeRefused .host = none ∧
      d.sto.holdup = false ∧ d.stoWritable (stoArea (d.stoAddr .host)) = true) ∧
    dev.ready .host 13 0xFF ∧
    (let d : Dev := { dev with tim := { dev.tim with elapsed := 86400000000000 } }
     d.sto.scrubRunning = false ∧ d.sto.holdup = false ∧ d.sto.scrubAt + 86400000000000 ≤ d.tim.elapsed) ∧
    ({ dev with sto := { dev.sto with scrubRunning := true } } : Dev).sto.scrubRunning = true ∧
    (∀ ty ∈ [0x20, 0x21], let d := withQueue dev 5 1 1 3 (mkMsg ty 1 0xFF 0 [0])
     (d.que.q[(5 : Fin 64)]).entry.cons = 3 ∧ d.sto.holdup = false ∧ (d.freshFront 5).serves 5 = true ∧
      hdrType (msgHead (mkMsg ty 1 0xFF 0 [0])) = ty ∧
      (d.freshFront 5).que.q[(5 : Fin 64)].msgs = [⟨mkMsg ty 1 0xFF 0 [0], d.tim.now, d.tim.elapsed, false, 0⟩] ∧
      poisonSpan ⟨mkMsg ty 1 0xFF 0 [0], d.tim.now, d.tim.elapsed, false, 0⟩ [] [.single] = 0 ∧
      ((d.freshFront 5).takeMsg 5 [.single]).1 = some (mkMsg ty 1 0xFF 0 [0])) := by
  refine ⟨by decide, by decide, by decide, by decide, by decide, by decide +kernel⟩

theorem test_hyps_QueuePort :
    (let d := dev.updQ 5 fun _ => { entry := ⟨2, 512, 1, 2, 0⟩ }
     d.coreIs (d.que.q[(5 : Fin 64)]).entry.prod = true ∧ (d.que.q[(5 : Fin 64)]).dropRest = 0 ∧
      (d.que.q[(5 : Fin 64)]).building = [] ∧ hdrLen 0 + 1 ≤ 256 ∧ hdrLen (packQ [(8, 0), (8, 255), (48, 0)]) + 1 ≤ 256 ∧
      (d.que.q[(5 : Fin 64)]).room (hdrLen 0 + 1) = true ∧
      d.coreIs (d.que.q[(6 : Fin 64)]).entry.prod = false) ∧
    (let d := dev.updQ 5 fun _ => { entry := ⟨0, 1, 1, 2, 0⟩, reserved := 1 }
     d.coreIs (d.que.q[(5 : Fin 64)]).entry.prod = true ∧ (d.que.q[(5 : Fin 64)]).building = [] ∧ hdrLen 0 + 1 ≤ 8 ∧
      (d.que.q[(5 : Fin 64)]).room (hdrLen 0 + 1) = false) ∧
    (let d := dev.updQ 5 fun _ => { entry := ⟨2, 512, 1, 2, 0⟩, building := [0], reserved := 2 }
     d.coreIs (d.que.q[(5 : Fin 64)]).entry.prod = true ∧ (d.que.q[(5 : Fin 64)]).dropRest = 0 ∧ (d.que.q[(5 : Fin 64)]).building ≠ [] ∧
      (d.que.q[(5 : Fin 64)]).building.length < (d.que.q[(5 : Fin 64)]).reserved) ∧
    (let d := dev.updQ 5 fun _ => { entry := ⟨2, 512, 1, 2, 0⟩, building := [0, 0], reserved := 2 }
     (d.que.q[(5 : Fin 64)]).building ≠ [] ∧ (d.que.q[(5 : Fin 64)]).reserved ≤ (d.que.q[(5 : Fin 64)]).building.length) ∧
    (let d := dev.updQ 5 fun _ => { entry := ⟨0, 512, 1, 2, 0⟩, dropRest := 1 }
     (d.que.q[(5 : Fin 64)]).dropRest ≠ 0 ∧ (d.que.q[(5 : Fin 64)]).entry.cls = 0 ∧ 8 < hdrLen (packQ [(8, 0), (8, 8), (48, 0)]) + 1) ∧
    dev.coreHangs = false ∧ ({ dev with hung := [⟨.core, 2, 0x52000000, 0, false, none⟩] } : Dev).coreHangs = true ∧
    dev.coreIs (dev.que.q[(6 : Fin 64)]).entry.cons = false ∧ [WordCheck.double].headD .good = .double ∧ [WordCheck.single].headD .good ≠ .double ∧
    (let d := withQueue dev 5 2 2 1 [0]
     d.coreIs (d.que.q[(5 : Fin 64)]).entry.cons = true ∧
      (d.freshFront 5).que.q[(5 : Fin 64)].msgs = [⟨[0], d.tim.now, d.tim.elapsed, false, 0⟩]) ∧
    (let d := dev.updQ 5 fun _ => { entry := ⟨2, 512, 2, 1, 0⟩ }
     d.coreIs (d.que.q[(5 : Fin 64)]).entry.cons = true ∧ (d.que.q[(5 : Fin 64)]).msgs = []) ∧
    (let d := dev.updQ 5 fun _ => { entry := ⟨2, 512, 2, 1, 0⟩, msgs := [⟨[0, 1], 0, 0, true, 1⟩] }
     d.coreIs (d.que.q[(5 : Fin 64)]).entry.cons = true ∧ (d.que.q[(5 : Fin 64)]).msgs = [⟨[0, 1], 0, 0, true, 1⟩] ∧ (1 : Nat) ≠ 0) := by
  decide

theorem test_hyps_DeliveryOrder : ∀ m ∈ [(⟨[0, 1], 0, 0, true, 2⟩ : QMsg), ⟨[3], 0, 0, true, 0⟩], m.taken ≤ m.words.length := by decide

theorem test_hyps_QueueService :
    (let d := (withQueue dev 5 1 2 1 [0]).setReg 2 5 0x10 1
     let e : Dev := { d with tim := { d.tim with elapsed := 1000000010000 } }
     (e.que.q[(5 : Fin 64)]).entry.cls ≠ 0 ∧ e.rfld 2 5 0x10 15 0 ≠ 0 ∧ ((e.que.q[(5 : Fin 64)]).msgs.find? fun m => !m.notified).isSome = true ∧
      1000000000000 + e.rfld 2 5 0x10 15 0 * 10000 ≤ e.tim.elapsed) ∧
    (let d := withQueue dev 5 2 2 1 [0]
     argUnit 0x050000 = 5 ∧ d.ready .host 2 5 ∧ (d.que.q[(5 : Fin 64)]).entry.depth ≠ 0 ∧ (d.que.q[(5 : Fin 64)]).entry.cons ≠ 3 ∧
      ¬((d.que.q[(5 : Fin 64)]).entry.cls ≤ 1)) ∧
    (let d := withQueue dev 5 1 0x13 2 [0]
     d.ready .host 2 5 ∧ (d.que.q[(5 : Fin 64)]).entry.cls ≤ 1 ∧ d.producerIdle (d.que.q[(5 : Fin 64)]).entry.prod = true) ∧
    ((withQueue dev 5 1 2 1 [0]).que.q[(5 : Fin 64)].entry.prod < 0x10 ∧ dev.aul.rxHeld = []) ∧
    ((withQueue dev 5 1 2 1 [0]).que.q[(5 : Fin 64)]).room 511 = true ∧
    (({ quar := some 0, quarLen := 11000000000 } : IdSpace).quarOver 11000000000 = true) := by decide

theorem test_hyps_Identifiers :
    (({ quar := some 0 } : IdSpace).quar.isSome = true) ∧
    (({ index := 0xFFFFFE } : IdSpace).quar = none ∧ ({ index := 0xFFFFFE } : IdSpace).index ≠ 0xFFFFFF ∧
      ({ index := 0xFFFFFE } : IdSpace).index + 1 = 0xFFFFFF) ∧
    (({} : IdSpace).index ≠ 0xFFFFFF ∧ ({} : IdSpace).index + 1 ≠ 0xFFFFFF) ∧
    (({ index := 0xFFFFFF } : IdSpace).quar = none ∧ ({ index := 0xFFFFFF } : IdSpace).index = 0xFFFFFF) := by decide

theorem test_hyps_TimeServices :
    (dev.ready .host 1 0xFF ∧ dev.setVal < 2 ^ 63 ∧ 0 ≤ (dev.tim.now : Int) + signed 64 dev.setVal ∧
      (dev.tim.now : Int) + signed 64 dev.setVal < (2 ^ 63 : Nat)) ∧
    (argUnit 0x070000 = 7 ∧ dev.ready .host 1 (0x20 + 7)) ∧
    (let d := dev.setReg 1 0 0x24 0x12526
     let e : Dev := { d with tim := { d.tim with now := (d.nextMonthStart d.tim.now) } }
     bit (e.reg 1 0 0x24) 16 = true ∧ e.nextMonthStart e.tim.now = e.tim.now) ∧
    (dev.due keySecond 1000000000 = true ∧ dev.pwr.held = false) ∧ dev.canWrite .host 1 1 ∧
    (let d := (dev.setFunc .tim 1 { st := .running }).setRfld 1 1 4 9 8 2
     d.canWrite .host 1 1 ∧ d.servoSelect = 2 ∧ d.tim.servo.isRunning = true ∧ d.due keySync d.syncInterval = true) ∧
    (dev.servoSelect = 0 ∧ dev.tim.source ≠ 1 ∧ dev.tim.servo.isRunning = false ∧ dev.due keySync dev.syncInterval = true) ∧
    (∀ m ∈ [1, 3], (dev.setRfld 1 1 4 9 8 m).servoSelect = m ∧ (dev.setRfld 1 1 4 9 8 m).canWrite .host 1 1) := by decide

theorem test_hyps_TimeStep :
    (0 ≤ (dev.tim.now : Int) + roundStep (-31251)) ∧ (((-31250 : Int) - roundStep (-31250)).natAbs = 31250) ∧
    (let d : Dev := { dev with tim := { dev.tim with step := some ⟨-62500, true, 5⟩ } }
     d.tim.step = some ⟨-62500, true, 5⟩ ∧ d.stepDue = true) ∧ dev.tim.step = none ∧
    ({ dev with tim := { dev.tim with now := 1000000000001, step := some ⟨1, false, 0⟩ } } : Dev).stepDue = false ∧
    (let d : Dev := { dev with tim := { dev.tim with residual := -31250, resSince := 0 } }
     d.tim.residual ≠ 0 ∧ d.tim.resSince + d.tim.residual.natAbs * 2000 ≤ d.tim.elapsed) ∧
    (dev.tim.quality = .notValid) ∧ (({ dev.tim with quality := .ring } : TimState).quality ≠ .notValid) := by decide

theorem test_hyps_CompareAlarmCapture :
    (let d := dev.setReg 1 0x1F 0 1
     d.canWrite .host 1 (0x10 + 15) ∧ bit (d.reg 1 (0x10 + 15) 0) 0 = true ∧ 0 < cmpDelta (w32 (d.tim.now + 1)) d.tim.now ∧
      cmpDelta (w32 d.tim.now) d.tim.now ≤ 0 ∧ bit (0 : Word) 0 = false) ∧ bit (dev.reg 1 (0x10 + 15) 0) 0 = false ∧
    (let d := ((dev.setReg 1 0x13 8 1000).setReg 1 0x13 0 3).updCmp 3 fun _ => { armed := true, target := w32 (1000000000000 - 2500) }
     (d.tim.cmp[(3 : Fin 16)]).armed = true ∧ cmpDelta (d.tim.cmp[(3 : Fin 16)]).target d.tim.now = -2500 ∧ d.reg 1 (0x10 + 3) 8 ≠ 0 ∧
      bit (d.reg 1 (0x10 + 3) 0) 1 = true) ∧
    (let d := dev.updCmp 3 fun _ => { armed := true, target := w32 1000000000000 }
     (d.tim.cmp[(3 : Fin 16)]).armed = true ∧ cmpDelta (d.tim.cmp[(3 : Fin 16)]).target d.tim.now ≤ 0) ∧
    dev.canWrite .host 1 (0x20 + 7) ∧
    (let d : Dev := { dev with tim := { dev.tim with almArmed := 0x80 } }
     d.tim.almArmed.getLsbD 7 = true ∧ d.almTarget 7 ≤ d.tim.now) ∧
    (∃ d : Dev, ∃ src : CapSource, d.capTakes 0 src true = true ∧ d.capTakes 1 src true = false) := by
  refine ⟨by decide, by decide, by decide, by decide, by decide, by decide, dev.setReg 1 0x30 0 5, 5, by decide⟩

theorem test_hyps_ServoLimits : (-100000 : Int) ≤ dev.tim.trim ∧ dev.tim.trim ≤ 100000 ∧
    (-100000 : Int) ≤ ({ dev.tim with trim := -100000 } : TimState).trim := by decide

theorem test_hyps_SampleEvents :
    (({ dev with tim := { dev.tim with now := 1000000062500 } } : Dev).sampleDue false = true ∧ (⟨[], true, false, false⟩ : SampleFrame).overrun = false ∧
      ((⟨[], true, false, false⟩ : SampleFrame).firstOk = true ∨ (⟨[], true, false, false⟩ : SampleFrame).retryOk = true)) ∧
    (⟨[], true, false, true⟩ : SampleFrame).overrun = true ∧ (⟨[], false, false, false⟩ : SampleFrame).retryOk = false ∧
    (let d : Dev := { dev with mtr := { dev.mtr with stopped := true } }; d.sampleDue true = false) ∧
    (let im : Image := { image with chans := (List.replicate 3 (0, 0)) ++ [(0, 3)] }
     let d := ({ dev with img := { dev.img with loaded := some im } } : Dev).updCh 3 fun x => { x with differ := 16 }
     isCurrentPath 3 = true ∧ 16 ≤ (d.mtr.ch[(3 : Fin 64)]).differ ∧ d.chanUnit 3 = some (0 : Fin 9).val) ∧
    (let d := dev.updEng 8 fun e => { e with fn := { st := .running } }
     d.mtrRuns 8 = true ∧ d.mtrRuns 0 = false) := by decide

theorem test_hyps_PeriodEvents :
    (dev.due keyPeriod 200000000 = true ∧ dev.mtr.stopped = false ∧ dev.pwr.held = false) ∧
    (dev.ran keyPeriod).lastRun keyPeriod = some (dev.ran keyPeriod).tim.now ∧
    (let d := dev.setFunc .mtr 7 { st := .running }; d.mtrRuns (7 : Fin 8).val = true) ∧
    (let d := dev.setFunc .mtr 0 { st := .running }
     d.mtrRuns 0 = true ∧ (d.kind 0).isAc = true ∧ bit (d.reg 3 0 0x20) 6 = false ∧ (10 : Nat) = d.windowCycles 0) ∧
    (let d := (dev.setFunc .mtr 8 { st := .running }).updCh 58 fun x => { x with wave := { due := some 4 } }
     d.mtrRuns 8 = true ∧ bit (d.reg 3 8 0x20) 6 = false ∧ d.pqWatches 8 2 = true ∧
       (d.mtr.ch[urmsChan 8 2]).wave.refreshWith (d.nominalHz 8) = some 4) := by decide

theorem test_hyps_PeriodEvents_urms :
    let d := (dev.setFunc .mtr 0 { st := .running }).updCh 2 fun x => { x with wave := { due := some 4 } }
    d.pqWatches 0 2 = true ∧ (d.mtr.ch[urmsChan 0 2]).wave.refreshWith (d.nominalHz 0) = some 4 ∧ nearRoot 4 2 = true :=
  ⟨by decide, by decide, by decide +kernel⟩

/-- A crossing that ends the second whole half cycle is a refresh over both (R191). -/
theorem test_urms_crossing :
    (({ sq := [9, 1], half := 1, prev := 1, begun := true } : Wave).take 50 3 (-2)).due = some 5 := by
  norm_num [Wave.take, Wave.cross, Wave.meanSq, halfSteps, sec, samplePeriod]

/-- Without a crossing the first refresh is due after 240 samples (15 ms at F50), the next 160 samples later. -/
theorem test_urms_steps : halfSteps 50 0 239 = false ∧ halfSteps 50 0 240 = true ∧ halfSteps 50 1 399 = false ∧
    halfSteps 50 1 400 = true ∧ cycleSamples 50 = 320 := by decide

theorem test_hyps_MeterOutputs :
    ((50 : Nat) + 10 ≤ 180 ∧ (180 : Nat) + 10 ≤ 220 ∧ (49 : Nat) < 50 ∧ (50 : Nat) + 10 ≤ 60 ∧ (60 : Nat) < 180 ∧ (180 : Nat) + 10 ≤ 190 ∧
      (190 : Nat) + 10 ≤ 220 ∧ (220 : Nat) < 221) ∧
    (let im : Image := { image with switch := List.replicate 26 0 }
     let d := (((({ dev with img := { dev.img with loaded := some im } } : Dev).setFunc .mtr 0 { st := .running }).setReg 3 0x13 0
       0x800000A0).updPulse 3 fun x => { x with backlog := 1 }).ran (keySample (decide (4 ≤ 0)))
     d.pulseOn 3 = true ∧ 0 < (d.mtr.pulse[(3 : Fin 4)]).backlog ∧ (d.mtr.pulse[(3 : Fin 4)]).high = 0 ∧
      (d.mtr.pulse[(3 : Fin 4)]).low = 0 ∧ d.pulseSlice (3 : Fin 4).val = some 0 ∧
      d.lastRun (keySample (decide (4 ≤ 0))) = some d.tim.now) ∧
    (let d := (dev.setFunc .mtr 0 { st := .running }).updQ 9 fun _ => { entry := ⟨3, 512, 0x10, 2, 0⟩ }
     argUnit 0 = (0 : Fin 8).val ∧ d.ready .host 3 (0 : Fin 8).val ∧ d.mtrRuns (0 : Fin 8).val = true ∧ d.canCapture 0 = true) ∧
    (let d := dev.updEng 0 fun e => { e with capLeft := some 0 }
     d.captureFull 0 = true ∧ d.mtrQueue 0 3 = none) ∧
    (dev.ready .host 3 (argUnit 0x080000) ∧ argUnit 0x080000 ≤ 8) ∧
    (dev.canWrite .host 3 (chUnit 3) ∧ isCurrentPath 3 = true ∧ bit (0x30 : Word) 0 = false) := by decide +kernel

theorem test_hyps_MeterOutputs_calibration :
    (∃ r, regAt 3 (0 : Fin 8).val 0xC = some r ∧ calMask r.row.id ≠ 0 ∧ mtrRangeOk r.row.id 0 1000000 = true ∧
      stopChange r.row (dev.func? .mtr 0) (dev.regs.value (lattice 3 0 0xC)) 1000000 = false ∧
      ((dev.nextValue (lattice 3 0 0xC)).toNat &&& calMask r.row.id) ≠ ((1000000 : Word).toNat &&& calMask r.row.id)) ∧
    dev.canWrite .host 3 0 ∧ dev.billedSession 0 = false ∧
    (dev.updEvc 0 fun x => { x with st := .charging, startTaken := true }).billedSession 0 = true := by
  refine ⟨⟨_, rfl, by decide, by decide, by decide, by decide⟩, by decide, by decide, by decide⟩

/-- A delivery of 1 µWh and one that fills a register. -/
theorem test_hyps_CreditTariff :
    (let b : BilSlice := { tariff := 16, e := Vector.replicate 32 (2 ^ 64 - 1), loss := 2 ^ 64 - 2 }
     1 ≤ b.tariff ∧ b.tariff ≤ 16 ∧ (0 : Rat) ≤ 1 ∧ (0 : Rat) ≤ b.remLoss ∧ (∀ j : Fin 32, (b.e[j]) < 2 ^ 64) ∧
      (∀ k : Fin 4, (b.q[k]) < 2 ^ 64) ∧ b.loss < 2 ^ 64 ∧ b.loss + (ratTrunc ((1 : Rat) + b.remLoss)).toNat < 2 ^ 64) ∧
    (let b : BilSlice := {}; 1 ≤ b.tariff ∧ b.tariff ≤ 16) := by decide +kernel

/-- A calendar block with one season, one day type and one tariff; its check is the CRC-32C of its first 0x2F0 bytes. -/
def calBlock : List Byte :=
  [0x54, 0x47, 0x43, 0x41, 1, 0, 0, 3, 1, 0, 0, 0] ++ List.replicate 16 0 ++ [3, 5, 0, 8, 10, 5, 0, 12, 1] ++ List.replicate 27 0 ++
  [1, 1] ++ List.replicate 46 0 ++ [0, 0, 1, 0] ++ (List.replicate 95 [0xFF, 0, 0, 0]).flatten ++ List.replicate 256 0 ++
  [0x22, 0xFF, 0x3D, 0x3F] ++ List.replicate 12 0

theorem calCrc_0 : ((calBlock.drop 0).take 94).foldl (crcByte 0x82F63B78) 4294967295 = 4267528437 := by decide +kernel
theorem calCrc_1 : ((calBlock.drop 94).take 94).foldl (crcByte 0x82F63B78) 4267528437 = 278701276 := by decide +kernel
theorem calCrc_2 : ((calBlock.drop 188).take 94).foldl (crcByte 0x82F63B78) 278701276 = 1547135799 := by decide +kernel
theorem calCrc_3 : ((calBlock.drop 282).take 94).foldl (crcByte 0x82F63B78) 1547135799 = 3088619606 := by decide +kernel
theorem calCrc_4 : ((calBlock.drop 376).take 94).foldl (crcByte 0x82F63B78) 3088619606 = 1772434761 := by decide +kernel
theorem calCrc_5 : ((calBlock.drop 470).take 94).foldl (crcByte 0x82F63B78) 1772434761 = 56264116 := by decide +kernel
theorem calCrc_6 : ((calBlock.drop 564).take 94).foldl (crcByte 0x82F63B78) 56264116 = 2609582016 := by decide +kernel
theorem calCrc_7 : ((calBlock.drop 658).take 94).foldl (crcByte 0x82F63B78) 2609582016 = 3233939677 := by decide +kernel


theorem crc_of_fold (bs : List Byte) (c : Nat) (h : bs.foldl (crcByte 0x82F63B78) 0xFFFFFFFF = c) :
    crc32c bs = Nat.xor c 0xFFFFFFFF := by rw [← h]; rfl

/-- The check of the block. -/
theorem calBlock_crc : crc32c (calBlock.take 0x2F0) = 0x3F3DFF22 := by
  refine crc_of_fold _ 3233939677 ?_
  have h : calBlock.take 0x2F0 = (calBlock.drop 0).take 94 ++ (calBlock.drop 94).take 94 ++ (calBlock.drop 188).take 94 ++ (calBlock.drop 282).take 94 ++ (calBlock.drop 376).take 94 ++ (calBlock.drop 470).take 94 ++ (calBlock.drop 564).take 94 ++ (calBlock.drop 658).take 94 := by decide +kernel
  rw [h]; simp only [List.foldl_append]
  rw [calCrc_0, calCrc_1, calCrc_2, calCrc_3, calCrc_4, calCrc_5, calCrc_6, calCrc_7]

theorem calBlock_ok : calendarReason calBlock = 0 := by
  unfold calendarReason
  rw [calBlock_crc]; decide +kernel

/-- A device with a queue for signed readings of the host and a configuration area in use. -/
def bilDev : Dev :=
  ({ dev with img := { dev.img with cfgArea0 := 1 }, tim := { dev.tim with quality := .holdover }
              sto := { mram := Memory.writes [] (cfgAreaAddr 0 + 0x1400) calBlock } } : Dev).updQ 9 fun _ => { entry := ⟨1, 512, 4, 2, 0⟩ }

theorem test_hyps_BillingCommands :
    (argUnit 0x000000 = (0 : Fin 8).val ∧ bilDev.ready .host 4 (0 : Fin 8).val ∧ bilDev.present 0 = true ∧
      (bilDev.signQueue .host).isSome = true ∧ bilDev.waitingRequests < 4) ∧
    (argUnit 0xFF0000 = 0xFF ∧ bilDev.ready .host 4 0xFF) ∧
    (let d : Dev := { bilDev with bil := { bilDev.bil with armed := some (decodeCalendar []) } }
     d.bil.armed.isSome = true) ∧
    (let d := (dev.setReg 4 8 0x1C 0x10010001)
     d.ready .host 4 0xFF ∧ d.rfld 4 8 0x1C 31 24 ≤ 16 ∧ d.maskPresent (d.rfld 4 8 0x1C 23 16) = true ∧ 1 ≤ d.rfld 4 8 0x1C 15 0) ∧
    (let d := dev.tamper 3 none; (d.bil.tamper[(3 : Fin 24)]).count ≠ 0) := by decide +kernel

theorem test_hyps_BillingCommands_calendar :
    bilDev.ready .host 4 0xFF ∧ calendarReason bilDev.passiveBlock = 0 ∧ bilDev.tim.quality ≠ .notValid := by
  refine ⟨by decide, ?_, by decide⟩
  have h : calBlock.length = 768 := by decide +kernel
  have h1 := Memory.reads_writes [] (cfgAreaAddr 0 + 0x1400) calBlock
  rw [h] at h1
  unfold Dev.passiveBlock
  rw [show bilDev.areaInUse = some 0 by decide]
  have hm : bilDev.sto.mram = Memory.writes [] (cfgAreaAddr 0 + 0x1400) calBlock := by unfold bilDev Dev.updQ; dsimp only
  dsimp only
  rw [hm, h1]
  exact calBlock_ok

theorem test_hyps_BillingEvents :
    (dev.canWrite .host 4 (0 : Fin 8).val ∧ fld 0x41030000 31 28 ≤ 4 ∧ fld 0x41030000 27 24 ≠ 0 ∧
      dmdMinutes (fld 0x41030000 31 28) % fld 0x41030000 27 24 = 0 ∧ fld 0x41030000 19 16 ≤ 6 ∧
      ((dev.nextValue (lattice 4 0 4)).toNat &&& 0xFF0F0000) ≠ ((0x41030000 : Word).toNat &&& 0xFF0F0000) ∧
      dev.billedSession 0 = false) ∧
    (dev.updEvc 0 fun x => { x with st := .charging, startTaken := true }).billedSession 0 = true ∧
    (let j : SignJob := ⟨true, 0, 0, .host, [], 1⟩; nextJob [j] = some j) := by decide

/-- A device with KROOT and a slot K16 that the given change fills. -/
def keyDev (f : KeySlot → KeySlot) : Dev :=
  ({ dev with key := { dev.key with share := some (1, 2), rngOk := true } } : Dev).updKey 16 f

/-- The same with an import blob of the host: type, parent, attributes and wrap byte, then the serial at 0xC. -/
def blobDev (hd : List Byte) (f : KeySlot → KeySlot) : Dev :=
  (keyDev f).setViewBytes .host (lattice 10 0x40 0x100) 64 (hd ++ List.replicate (12 - hd.length) 0 ++ [2, 0, 0, 0] ++ List.replicate 240 0)

theorem test_hyps_KeyCommands :
    (keyTarget 0x100000 = some 16 ∧ argBits 0x100000 15 0 = 0 ∧ (keyDev id).ready .host 10 (argUnit 0x100000)) ∧
    (let d := keyDev fun x => { x with staged := .staged, generated := true, copy := { x.copy with ktype := 3 } }
     (d.key.slots[(16 : Fin 64)]).staged = .staged ∧ (d.key.slots[(16 : Fin 64)]).katPass d.fresh = true ∧
      (d.key.slots[(16 : Fin 64)]).staged ≠ .none) ∧
    (let d := keyDev fun x => { x with staged := .verified, copy := { x.copy with parent := 0xFF } }
     (d.key.slots[(16 : Fin 64)]).staged = .verified ∧ d.parentReady (d.key.slots[(16 : Fin 64)]).copy.parent = true ∧
     d.commitBad (16 : Fin 64).val (d.key.slots[(16 : Fin 64)]).copy = false) ∧
    (let d := (keyDev fun x => { x with st := .valid, live := { x.live with parent := 0xFF } }).updKey 17 fun x =>
       { x with st := .valid, live := { x.live with parent := 16 } }
     (d.key.slots[(16 : Fin 64)]).st ≠ .empty ∧ (d.key.slots[(16 : Fin 64)]).st ≠ .invalid ∧ d.descends 17 16 = true ∧
      (d.key.slots[(17 : Fin 64)]).st.holds = true ∧ (17 : Fin 64) ≠ 16 ∧ d.descends 18 16 = false) := by decide

/-- A staged HMAC key whose expected answer is another one fails its test. -/
theorem test_hyps_KeyCommands_fails :
    ∃ x : KeySlot, x.staged = .staged ∧ x.katPass 0 = false := by
  refine ⟨{ staged := .staged, copy := { ktype := 3 }, katExp := Config.hmac 0 (wideBytes 0) + 1 }, rfl, ?_⟩
  simp only [KeySlot.katPass]
  simp

theorem test_hyps_KeyStaging :
    (let d := blobDev [3, 0xFF, 0, 0] id
     keyTarget 0x100000 = some 16 ∧ d.ready .host 10 (argUnit 0x100000) ∧ (d.key.slots[(16 : Fin 64)]).staged ≠ .verified ∧
      argBits 0x100000 15 0 = 0) ∧
    (let d := (keyDev id); ¬(argBits 0x1003FF 15 8 = 2 ∧ fixedType 16 = some 2) ∧ d.keyArgBad 16 (argBits 0x1003FF 15 8) (argBits 0x1003FF 7 0) 0 = false ∧
      d.rootPresent = true ∧ d.parentReady (argBits 0x1003FF 7 0) = true ∧ argBits 0x1003FF 15 8 = 3) := by decide

theorem test_hyps_KeyStaging_blob :
    (let d := (blobDev [3, 0xFF, 0, 0] id).updKey 2 fun x => { x with st := .valid }
     let blob := d.viewBytes .host (lattice 10 0x40 0x100) 64
     d.keyArgBad 16 (byteAt blob 0) (byteAt blob 1) (byteAt blob 2) = false ∧ d.parentReady (byteAt blob 1) = true ∧
      byteAt blob 3 = 0 ∧ byteAt blob 0 ≠ 1 ∧ byteAt blob 0 ≠ 2 ∧ byteAt blob 0 ≠ 6 ∧ d.keyValid 2 = true ∧
      (d.key.slots[(16 : Fin 64)]).impser.toNat < leAt blob 0xC 4) ∧
    (let d := (blobDev [3, 0xFF, 0, 1, 17] fun x => { x with impser := 2 }).updKey 17 fun x => { x with st := .valid, live := { x.live with ktype := 5 } }
     let blob := d.viewBytes .host (lattice 10 0x40 0x100) 64
     d.keyArgBad 16 (byteAt blob 0) (byteAt blob 1) (byteAt blob 2) = false ∧ d.parentReady (byteAt blob 1) = true ∧ byteAt blob 3 = 1 ∧
      d.isWrap (byteAt blob 4) = true ∧ byteAt blob 0 ≠ 1 ∧ byteAt blob 0 ≠ 2 ∧ byteAt blob 0 ≠ 6 ∧
      leAt blob 0xC 4 ≤ (d.key.slots[(16 : Fin 64)]).impser.toNat) := by decide +kernel

/-- A certificate blob for K3. -/
def certBlobDev : Dev :=
  (keyDev id).setViewBytes .host (lattice 10 0x40 0x100) 64 ([2, 0xFE, 0, 2] ++ List.replicate 12 0 ++
    [0x54, 0x47, 0x4B, 0x43, 1, 3, 0x80, 8, 1, 0, 0, 0] ++ List.replicate 228 0)

theorem test_hyps_KeyStaging_certificate :
    (let d := certBlobDev
     let blob := d.viewBytes .host (lattice 10 0x40 0x100) 64
     keyTarget 0x030000 = some 3 ∧ d.ready .host 10 (argUnit 0x030000) ∧ (d.key.slots[(3 : Fin 64)]).staged ≠ .verified ∧
      d.keyArgBad 3 (byteAt blob 0) (byteAt blob 1) (byteAt blob 2) = false ∧ d.parentReady (byteAt blob 1) = true ∧
      byteAt blob 3 = 2 ∧ byteAt blob 0 = 2 ∧ certMatches 3 (d.key.slots[(3 : Fin 64)]).impser (slice blob 0x10 176) = true) := by
  decide +kernel

/-- One of the two clauses about a certificate applies to every blob, and one of those about a secret. -/
theorem test_hyps_KeyStaging_split (cert blob : List Byte) (key : BitVec 128) :
    (certSigned cert = true ∨ certSigned cert = false) ∧ (openSecret key blob = none ∨ ∃ p, openSecret key blob = some p) := by
  refine ⟨by cases certSigned cert <;> simp, ?_⟩
  cases openSecret key blob <;> simp

theorem test_hyps_KeyAnswers :
    (let d := keyDev fun x => { x with st := .valid, live := { x.live with ktype := 3, attrs := 4 } }
     d.agentSlot 16 = true ∧ d.ready .host 10 (argUnit 0x100000)) ∧
    (let d := (keyDev fun x => { x with st := .valid, live := { x.live with ktype := 3, attrs := 4 } }).setView .host (lattice 10 0x40 0x200) 1
     d.agentSlot 16 = true ∧ d.chal .host ≠ List.replicate 32 0) ∧
    (let d := (keyDev fun x => { x with st := .valid, live := { x.live with ktype := 6 } }).updKey 0 fun x => { x with st := .valid }
     (d.key.slots[(16 : Fin 64)]).st = .valid ∧ (d.key.slots[(16 : Fin 64)]).live.ktype = 6 ∧ d.keyValid 0 = true) ∧
    ((keyDev id).ready .host 10 0xFF ∧ (keyDev id).key.rngOk = true) ∧
    ((keyDev id).key.share = some (1, 2) ∧ (keyDev id).key.tMask + 1000000000 ≤ (keyDev id).tim.elapsed) ∧
    (let d := keyDev fun x => { x with uses := 1 }
     (d.key.slots[(16 : Fin 64)]).live.limitEn = false ∧ (d.key.slots[(16 : Fin 64)]).uses ≠ (d.key.slots[(16 : Fin 64)]).reserved ∧
      (d.key.slots[(16 : Fin 64)]).tUse + 10000000000 ≤ d.tim.elapsed) ∧
    (let d := keyDev fun x => { x with st := .valid, live := { x.live with parent := 0xFF } }
     d.key.tamper = false ∧ d.chainsToRoot 16 = true ∧ (d.key.slots[(16 : Fin 64)]).st.holds = true) ∧
    (let d := keyDev fun x => { x with copy := { x.copy with parent := 0xFF } }
     d.key.tamper = false ∧ d.rooted (d.key.slots[(16 : Fin 64)]).copy.parent = true ∧ d.pwr.held = false) ∧
    (let d : Dev := { dev with pwr := { dev.pwr with held := true, siltGone := true } }
     d.key.tamper = false ∧ d.pwr.held = true ∧ d.pwr.siltGone = true) := by decide


/-- A device whose slice 0 (AC3) is as the given change makes it. -/
def sessDev (f : EvcSlice → EvcSlice) : Dev := dev.updEvc 0 f

theorem test_hyps_SessionCommands :
    (argUnit 0x000300 = (0 : Fin 8).val ∧ argBits 0x000300 15 8 = 3 ∧ methodAllowed .host 3 = true ∧ argBits 0 15 8 = 0 ∧
      dev.present 0 = true ∧ dev.ready .host 5 0) ∧
    (∀ st ∈ [Sess.idle, .plugged, .authorizing, .authorized, .energizing, .charging, .suspended],
      let d := sessDev fun x => { x with st := st }; d.ready .host 5 0 ∧ (d.evc.s[(0 : Fin 8)]).st = st ∧
        (d.setReg 5 0 0x10 1).ready .core 5 0 ∧ bit ((d.setReg 5 0 0x10 1).reg 5 (0 : Fin 8).val 0x10) 0 = true ∧
        ((d.setReg 5 0 0x10 1).evc.s[(0 : Fin 8)]).st = st) ∧ (Agent.host ≠ .core ∧ bit (dev.reg 5 (0 : Fin 8).val 0x10) 0 = false) ∧
    (let d := sessDev fun x => { x with st := .suspended, susp := .command }
     d.ready .host 5 0 ∧ (d.evc.s[(0 : Fin 8)]).st = .suspended ∧ (d.evc.s[(0 : Fin 8)]).susp ≠ .vehicle) ∧
    (let d := (sessDev fun x => { x with st := .fault }).updKao 0 fun x => { x with st := .armed }
     d.ready .host 5 0 ∧ (d.evc.s[(0 : Fin 8)]).st = .fault ∧ (d.evc.s[(0 : Fin 8)]).pilot = .A ∧
      (d.kao.m[(0 : Fin 8)]).st = .armed) := by decide

theorem test_hyps_SessionTimers :
    (let d := (sessDev fun x => { x with st := .authorizing }).setRfld 5 0 4 31 24 1
     (d.evc.s[(0 : Fin 8)]).st = .authorizing ∧ d.rfld 5 0 4 31 24 ≠ 0 ∧
      (d.evc.s[(0 : Fin 8)]).tAuth + d.rfld 5 0 4 31 24 * 10000000000 ≤ d.tim.elapsed) ∧
    (let d := sessDev fun x => { x with preauth := some ⟨3, [], 0⟩ }
     ∃ p, (d.evc.s[(0 : Fin 8)]).preauth = some p ∧ p.since + 120000000000 ≤ d.tim.elapsed) ∧
    (let d := (sessDev fun x => { x with st := .plugged }).setRfld 5 0 4 17 16 2
     d.evcComm 0 = 2 ∧ (d.evc.s[(0 : Fin 8)]).fellBack = false ∧ (d.evc.s[(0 : Fin 8)]).st.connected = true ∧
      (d.evc.s[(0 : Fin 8)]).tPlug + 20000000000 ≤ d.tim.elapsed ∧ (d.evc.s[(0 : Fin 8)]).matchedInTime = false) ∧
    (let d := (sessDev fun x => { x with st := .energizing, close := .lock }).setReg 5 0 0x38 0x80000000
     (d.evc.s[(0 : Fin 8)]).st = .energizing ∧ (d.evc.s[(0 : Fin 8)]).close = .lock ∧ d.lockConfirmed 0 = false ∧
      (d.evc.s[(0 : Fin 8)]).tEnergize + 500000000 ≤ d.tim.elapsed ∧ (d.evc.s[(0 : Fin 8)]).tEnergize + 60000000000 ≤ d.tim.elapsed) ∧
    (let d := ((sessDev fun x => { x with st := .energizing, close := .ken }).updKao 0 fun x => { x with ken := true }).setFunc .mtr 0 { st := .running }
     (d.evc.s[(0 : Fin 8)]).st = .energizing ∧ (d.evc.s[(0 : Fin 8)]).close = .ken ∧ (d.kao.m[(0 : Fin 8)]).ken = true ∧
      d.mtrRuns (0 : Fin 8).val = true ∧ d.tim.now % 62500 = 0) ∧
    (let d := (sessDev fun x => { x with st := .energizing, close := .energized }).setRfld 5 0 8 15 8 10
     (d.evc.s[(0 : Fin 8)]).close = .energized ∧ (d.kao.m[(0 : Fin 8)]).fb = false ∧
      (d.evc.s[(0 : Fin 8)]).tLsw + d.rfld 5 0 8 15 8 * 1000000 ≤ d.tim.elapsed) ∧
    (let d := (({ dev with img := { dev.img with loaded := some { image with switch := [0] } } } : Dev).updEvc 0 fun x =>
        { x with waiting := true }).updLsw 0 fun x => { x with st := .on, demand := true }
     (d.evc.s[(0 : Fin 8)]).waiting = true ∧ (d.evc.s[(0 : Fin 8)]).waitEnd ≤ d.tim.elapsed ∧ d.limpMapped (0 : Fin 8).val = false ∧
      d.lswOwned (0 : Fin 8).val = true ∧ (d.lsw.c[coil 0]).demand = true) ∧
    (∀ st ∈ [Sess.stopping, .suspended, .fault],
     let d := (sessDev fun x => { x with endDue := true, st := st, tOpen := some 5 }).updKao 0 fun x => { x with fb := true }
     (d.evc.s[(0 : Fin 8)]).endDue = true ∧ (d.evc.s[(0 : Fin 8)]).st = st ∧ (d.evc.s[(0 : Fin 8)]).tOpen = some 5 ∧
      5 + 100000000 ≤ d.tim.elapsed ∧ (d.kao.m[(0 : Fin 8)]).fb = true) ∧
    (∀ st ∈ [Sess.stopping, .fault], let d := sessDev fun x => { x with endDue := true, st := st, tOpen := some 5 }
     (d.evc.s[(0 : Fin 8)]).endDue = true ∧ (d.evc.s[(0 : Fin 8)]).st = st ∧
      (d.evc.s[(0 : Fin 8)]).tOpen.isSome = true ∧ (d.kao.m[(0 : Fin 8)]).fb = false ∧ d.tim.now % 62500 = 0) ∧
    (let d := sessDev fun x => { x with st := .charging, overRun := 25 }
     (d.evc.s[(0 : Fin 8)]).st = .charging ∧ 25 ≤ (d.evc.s[(0 : Fin 8)]).overRun) ∧
    (∀ st ∈ [Sess.energizing, .charging], let d := (dev.updEvc 1 fun x => { x with st := st }).setReg 5 1 0x64 0x01010000
     (d.evc.s[(1 : Fin 8)]).st = st ∧ d.dcFrames 1 = true ∧
      (d.evc.s[(1 : Fin 8)]).tRx + d.rfld 5 1 0x64 23 16 * 10000000 ≤ d.tim.elapsed) ∧
    (let d := sessDev fun x => { x with fn := { st := .running } }
     (d.evc.s[(0 : Fin 8)]).fn.st = .running ∧ (d.evc.s[(0 : Fin 8)]).st ≠ .fault) := by
  refine ⟨by decide, ⟨_, rfl, by decide⟩, by decide, by decide, by decide, by decide, by decide, by decide, by decide, by decide,
    by decide, by decide⟩

theorem test_hyps_ControlCycle :
    (dev.due (keyCycle (7 : Fin 8).val) 1000000 = true ∧ dev.present (0 : Fin 8).val = true ∧ dev.due (keyCycle (0 : Fin 8).val) 1000000 = true) ∧
    (let d := sessDev fun x => { x with fn := { st := .running } }
     d.due (keyCycle (0 : Fin 8).val) 1000000 = true ∧ d.present (0 : Fin 8).val = true ∧ (d.evc.s[(0 : Fin 8)]).fn.st = .running ∧
      (d.evc.s[(0 : Fin 8)]).st ≠ .fault) := by decide

theorem test_hyps_SessionTransitions :
    (let d := sessDev fun x => { x with tripSeen := true }
     (d.evc.s[(0 : Fin 8)]).tripSeen = true ∧ (d.evc.s[(0 : Fin 8)]).st ≠ .fault) ∧
    (∀ y ∈ [true, false], let d := sessDev fun x => { x with young := y, fn := { st := .running } }
     (d.evc.s[(0 : Fin 8)]).tripSeen = false ∧ (d.evc.s[(0 : Fin 8)]).fn.isRunning = true ∧ d.pilotFault 0 = false ∧
      (d.evc.s[(0 : Fin 8)]).young = y) ∧
    (dev.evc.s[(0 : Fin 8)]).waiting = false ∧ (dev.evc.s[(0 : Fin 8)]).st ≠ .suspended ∧
    (let d := sessDev fun x => { x with st := .charging, pilot := .E, fn := { st := .running } }
     (d.evc.s[(0 : Fin 8)]).tripSeen = false ∧ (d.evc.s[(0 : Fin 8)]).fn.isRunning = true ∧ d.pilotFault 0 = true) ∧
    (∀ p ∈ [Pilot.A, .B, .C, .D], ((sessDev fun x => { x with st := .idle, pilot := p }).evc.s[(0 : Fin 8)]).st = .idle ∧
      ((sessDev fun x => { x with st := .idle, pilot := p }).evc.s[(0 : Fin 8)]).pilot = p) ∧
    (∀ st ∈ [Sess.plugged, .authorizing, .authorized, .charging, .finished],
      ((sessDev fun x => { x with st := st, pilot := .A }).evc.s[(0 : Fin 8)]).st = st ∧
      ((sessDev fun x => { x with st := st, pilot := .A }).evc.s[(0 : Fin 8)]).pilot = .A) ∧
    (let d := sessDev fun x => { x with st := .plugged, pilot := .B }
     (d.evc.s[(0 : Fin 8)]).st = .plugged ∧ (d.evc.s[(0 : Fin 8)]).pilot = .B ∧ d.startRefuse 0 ≠ 0) ∧
    (let d := ((sessDev fun x => { x with st := .authorized, pilot := .C, grant := 60 }).updKao 0 fun x => { x with st := .armed }).setFunc .mtr 0 { st := .running }
     let e : Dev := { d with kao := { d.kao with hbLost := false } }
     (e.evc.s[(0 : Fin 8)]).st = .authorized ∧ (e.evc.s[(0 : Fin 8)]).pilot ≠ .A ∧ e.closeConditions 0 = true) ∧
    (let d := (sessDev fun x => { x with st := .energizing, pilot := .C, close := .energized }).updKao 0 fun x => { x with fb := true }
     (d.evc.s[(0 : Fin 8)]).st = .energizing ∧ (d.evc.s[(0 : Fin 8)]).pilot = .C ∧ d.mtrFault 0 = false ∧
      (d.evc.s[(0 : Fin 8)]).close = .energized ∧ (d.kao.m[(0 : Fin 8)]).fb = true) ∧
    (let d := sessDev fun x => { x with st := .charging, pilot := .B }
     (d.evc.s[(0 : Fin 8)]).st = .charging ∧ (d.evc.s[(0 : Fin 8)]).pilot = .B ∧ d.mtrFault 0 = false) ∧
    (let d := (sessDev fun x => { x with st := .charging, pilot := .C }).setFunc .mtr 0 { st := .fault }
     (d.evc.s[(0 : Fin 8)]).st = .charging ∧ (d.evc.s[(0 : Fin 8)]).pilot = .C ∧ d.mtrFault 0 = true) ∧
    (let d := sessDev fun x => { x with st := .stopping, tOpen := some 0 }
     (d.evc.s[(0 : Fin 8)]).st = .stopping ∧ d.mtrFault 0 = false ∧ (d.evc.s[(0 : Fin 8)]).tOpen.isSome = true ∧
      (d.evc.s[(0 : Fin 8)]).endDue = false) := by decide

/-- An authorisation message of the host for session 0. -/
def authMsg (m dec : Nat) : List QData := [msgHeader 0x31 4 2 0xFF 0, packQ [(8, m), (8, dec), (48, 0)], 0, 0, 0]

/-- A device whose queue 5 holds that message for slice 0 in AUTHORIZING. -/
def authDev (m dec : Nat) : Dev := withQueue (sessDev fun x => { x with st := .authorizing }) 5 1 2 0x20 (authMsg m dec)

theorem test_hyps_LinkFrames :
    (let d := (dev.setReg 5 1 0x64 0x01010000).setReg 5 1 0x60 0x100
     d.statusSlice (d.dcPort 1) ⟨false, 0x101, List.replicate 8 0⟩ = some 1) ∧ dev.statusSlice 0 ⟨false, 0x101, []⟩ = none ∧
    (let d := withQueue dev 5 1 1 0x0B [0, 0]
     (d.que.q[(5 : Fin 64)]).entry.cons = 0x0B + (0 : Fin 2).val ∧ d.serves 5 = true ∧ ∃ ws d1, d.takeMsg 5 [] = (some ws, d1) ∧ isPoison ws = false) ∧
    (∀ m ∈ [(3, 0), (3, 1)], let d := authDev m.1 m.2
     (d.que.q[(5 : Fin 64)]).entry.cons = 0x20 + (0 : Fin 8).val ∧ d.present (0 : Fin 8).val = true ∧
      authAgent (d.que.q[(5 : Fin 64)]).entry.prod = some .host ∧ methodAllowed .host (bits ((authMsg m.1 m.2).getD 1 0).toNat 63 56) = true ∧
      (authMsg m.1 m.2).length = 5 ∧ hdrType (msgHead (authMsg m.1 m.2)) = 0x31 ∧ bits ((authMsg m.1 m.2).getD 1 0).toNat 55 48 = m.2 ∧
      ((d.takeMsg 5 []).2.evc.s[(0 : Fin 8)]).st = .authorizing ∧ d.serves 5 = true ∧
      hdrIdent (msgHead (authMsg m.1 m.2)) = ((d.takeMsg 5 []).2.evc.s[(0 : Fin 8)]).sid.toNat ∧ (d.takeMsg 5 []).1 = some (authMsg m.1 m.2)) ∧
    (let d := withQueue dev 5 1 2 0x20 (authMsg 3 0)
     d.serves 5 = true ∧ (d.takeMsg 5 []).1 = some (authMsg 3 0) ∧ ((d.takeMsg 5 []).2.evc.s[(0 : Fin 8)]).st ≠ .authorizing) := by
  refine ⟨by decide, by decide, ⟨rfl, by decide +kernel, _, _, rfl, by decide⟩, by decide +kernel, by decide +kernel⟩

/-- A slice with its Green PHY modem wired, at PWM 5 %, and its island running. -/
def gpDev (f : Modem → Modem) : Dev :=
  let d := ((sessDev fun x => { x with st := .plugged, drive := 3, duty := 50 }).updGp 0 f).setRun 2 true
  { d with img := { d.img with loaded := some { image with persona := [0, 0, 0, 0, 0, 0, 0, 1] } } }

theorem test_hyps_LinkFrames_modem :
    (∀ m ∈ [GpSt.wait, .slac, .lost], let d := gpDev fun g => { g with st := m }; d.gpOpen 0 = true ∧ (d.evc.gp[(0 : Fin 8)]).st = m) ∧
    (let d := (gpDev fun g => { g with st := .slac, atten := 20, slacMac := 5, rivals := Vector.replicate 8 (some 10) })
     d.gpOpen 0 = true ∧ (d.evc.gp[(0 : Fin 8)]).st = .slac ∧ d.slacQualifies 0 = false) ∧
    (let d := gpDev fun g => { g with st := .slac, atten := 0 }
     d.gpOpen 0 = true ∧ (d.evc.gp[(0 : Fin 8)]).st = .slac ∧ (d.evc.gp[(0 : Fin 8)]).atten ≤ d.rfld 5 (0x10 + (0 : Fin 8).val) 0 31 24 ∧
      d.slacQualifies 0 = true) ∧
    (let d := gpDev fun g => { g with st := .matched }
     (d.evc.gp[(0 : Fin 8)]).st = .matched ∧ (d.evc.gp[(0 : Fin 8)]).tRx + 1000000000 ≤ d.tim.elapsed ∧ d.runs (2 + (0 : Fin 8).val) = true) ∧
    (let d := withQueue (gpDev fun g => { g with st := .matched }) 5 1 1 0x28 [0, 0]
     (d.que.q[(5 : Fin 64)]).entry.cons = 0x28 + (0 : Fin 8).val ∧ d.serves 5 = true ∧ ∃ ws d1, d.takeMsg 5 [] = (some ws, d1) ∧ isPoison ws = false) := by
  refine ⟨by decide, by decide, by decide, by decide, ⟨rfl, by decide +kernel, _, _, rfl, by decide⟩⟩


/-- A slice block with one action and every filter 0. -/
def kaoBlock (src action : Nat) : List Nat := (List.replicate 64 0).set (0x1C + src) action

/-- A device whose Kaolin machine of slice 0 is as the given change makes it, with the heartbeat present. -/
def kaoDev (f : KaoSlice → KaoSlice) : Dev :=
  ({ dev with kao := { dev.kao with hbLost := false, hbLast := dev.tim.elapsed } } : Dev).updKao 0 f

theorem test_hyps_KaolinSources :
    (∀ a ∈ [0, 1, 2, 3], let d := kaoDev fun x => { x with st := .armed, ken := true, block := kaoBlock 2 a }
     d.present (0 : Fin 8).val = true ∧ (d.kao.m[(0 : Fin 8)]).force = none ∧ d.rawPossible 0 2 = true ∧
      (d.kao.m[(0 : Fin 8)]).isActive 2 = false ∧ (d.kao.m[(0 : Fin 8)]).st = .armed ∧ d.kaoAction 0 2 = a ∧ d.kaoCommon 1 = 0) ∧
    (let d := kaoDev fun x => { x with active := 4, latched := 4 }
     d.present (0 : Fin 8).val = true ∧ (d.kao.m[(0 : Fin 8)]).force = none ∧ (d.kao.m[(0 : Fin 8)]).isActive 2 = true ∧
      (d.kao.m[(0 : Fin 8)]).resFail = false ∧ d.discharged 0 2 = true) ∧
    (let d := kaoDev fun x => { x with active := 0x400, latched := 0x400, raw := 0x400 }
     (d.kao.m[(0 : Fin 8)]).isActive 10 = true ∧ (d.kao.m[(0 : Fin 8)]).raw.getLsbD (10 : Fin 16).val = true) ∧
    (let d := kaoDev fun x => { x with raw := 4 }
     d.rawPossible 0 2 = true ∧ (d.kao.m[(0 : Fin 8)]).isActive 2 = false ∧ (d.kao.m[(0 : Fin 8)]).raw.getLsbD (2 : Fin 16).val = true ∧
      d.charged 0 2 = true) ∧
    (let d := kaoDev fun x => { x with st := .armed, block := kaoBlock 3 1, force := some (3, 0) }
     (d.kao.m[(0 : Fin 8)]).force = some ((3 : Fin 16).val, 0) ∧ 0 + d.kaoFilter 0 3 * 9 / 10 ≤ d.tim.elapsed ∧
      (d.kao.m[(0 : Fin 8)]).isActive 3 = false ∧ (d.kao.m[(0 : Fin 8)]).st = .armed ∧ d.kaoAction 0 3 = 1) ∧
    (let d := kaoDev fun x => { x with st := .armed, block := kaoBlock 10 3 }
     d.rawPossible 0 10 = true ∧ (d.kao.m[(0 : Fin 8)]).isActive 10 = false ∧ d.kaoAction 0 10 = 3) := by decide

theorem test_hyps_KaolinClose :
    (let d := (kaoDev fun x => { x with st := .armed }).updEvc 0 fun x =>
       { x with st := .energizing, close := .requested, asking := true, highMv := 6000 }
     (d.evc.s[(0 : Fin 8)]).asking = true ∧ (d.kao.m[(0 : Fin 8)]).req = false ∧ d.present (0 : Fin 8).val = true ∧
      d.closeRefusal 0 = 0 ∧ d.pwr.uvlo = false) ∧
    (let d := (kaoDev id).updEvc 0 fun x => { x with st := .energizing, close := .requested, asking := true }
     (d.evc.s[(0 : Fin 8)]).asking = true ∧ (d.kao.m[(0 : Fin 8)]).req = false ∧ d.closeRefusal 0 = 1 ∧ (d.kao.m[(0 : Fin 8)]).ken = false) ∧
    (let d := kaoDev fun x => { x with req := true, ken := true }; (d.kao.m[(0 : Fin 8)]).req = true) ∧
    (let d := kaoDev fun x => { x with window := some 0, fb := true }
     (d.kao.m[(0 : Fin 8)]).window = some 0 ∧ 0 + 100400000 ≤ d.tim.elapsed ∧ d.present (0 : Fin 8).val = true ∧
      (d.kao.m[(0 : Fin 8)]).fb = true) ∧ ((kaoDev fun x => { x with window := some 0 }).kao.m[(0 : Fin 8)]).fb = false ∧
    (let d := kaoDev fun x => { x with st := .tripped, rearmSince := some 0, block := (List.replicate 64 0).set 0x2D 10 }
     (d.kao.m[(0 : Fin 8)]).rearmSince = some 0 ∧ (d.kao.m[(0 : Fin 8)]).st = .tripped ∧ d.rearmOk 0 = true ∧
      0 + 90000000 * d.kaoByte 0 0x2D ≤ d.tim.elapsed) := by decide

theorem test_hyps_KaolinHeartbeat :
    (dev.canWrite .core 6 9 ∧ dev.canWrite .host 6 9 ∧ Agent.host ≠ .core) ∧
    (let d := (kaoDev id).setReg 6 9 0 0x000100FE
     hbCheckOk (d.reg 6 9 0) = true ∧ fld (d.reg 6 9 0) 31 16 ≠ d.kao.hbCount.toNat ∧ d.kao.hbLost = false) ∧
    (let d := dev.setReg 6 9 0 0x000100FE
     hbCheckOk (d.reg 6 9 0) = true ∧ fld (d.reg 6 9 0) 31 16 ≠ d.kao.hbCount.toNat ∧ d.kao.hbLost = true ∧ d.beatRun < 3) ∧
    (let d : Dev := { dev with kao := { dev.kao with hbRun := 2, hbLast := dev.tim.elapsed } }; d.kao.hbLost = true ∧ 3 ≤ d.beatRun) ∧
    (∀ mode ∈ [0, 1], let d : Dev := { dev with kao := { dev.kao with hbLost := false, common := [mode, 0, 0, 0] } }
     d.kao.hbLost = false ∧ d.kao.hbLast + 18000000 ≤ d.tim.elapsed ∧ d.kaoCommon 0 = mode ∧ d.present (0 : Fin 8).val = true) ∧
    (let d : Dev := { dev with kao := { dev.kao with grace := some 0, common := [1, 0, 10, 0] } }
     d.kao.grace = some 0 ∧ d.kao.hbLost = true ∧ 0 + (d.kaoCommon 2 + 256 * d.kaoCommon 3) * 900000000 ≤ d.tim.elapsed) := by decide

theorem test_hyps_KaolinMonitors :
    (let im : Image := { image with chans := (List.replicate 6 (0xFF, 0)) ++ [(0, 6)] }
     let d : Dev := { dev with img := { dev.img with loaded := some im } }
     d.present (0 : Fin 8).val = true ∧ d.ownsIres 0 = true ∧ (d.kao.m[(0 : Fin 8)]).ken = false ∧ (d.kao.m[(0 : Fin 8)]).req = false ∧
      (d.kao.m[(0 : Fin 8)]).resRunning = false ∧ (d.updEvc 0 fun x => { x with leftA := true }).selftestDue 0 = true ∧ d.selftestDue 0 = false) ∧
    (let d := kaoDev fun x => { x with resRunning := true }; (d.kao.m[(0 : Fin 8)]).resRunning = true) ∧
    (let d : Dev := { (kaoDev fun x => { x with resValid := true, escCount := 1 }) with tim := { dev.tim with elapsed := 78480000000000 } }
     (d.kao.m[(0 : Fin 8)]).resValid = true ∧ (d.kao.m[(0 : Fin 8)]).resSince + 78480000000000 ≤ d.tim.elapsed ∧
      (d.kao.m[(0 : Fin 8)]).escCount ≠ 0 ∧ (d.kao.m[(0 : Fin 8)]).escSince + 3444000000000 ≤ d.tim.elapsed) ∧
    (let d : Dev := { dev with img := { dev.img with loaded := some { image with switch := (List.replicate 16 0xFF) ++ [1] } } }
     d.imdSlice 0 = some 1 ∧ (0xFFFFFF : Nat) < 2 ^ 24) ∧
    (let d := kaoDev fun x => { x with force := some (3, 0) }
     (d.kao.m[(0 : Fin 8)]).force = some ((3 : Fin 16).val, 0) ∧ 0 + (d.kaoFilter 0 3 * 11 / 10 + 10000000) ≤ d.tim.elapsed) := by decide

theorem test_hyps_KaolinCommands :
    (let d : Dev := { dev with kao := { dev.kao with received := true, check := 7 } }
     let e := d.setView .host (lattice 6 8 0xC) 7
     e.ready .host 6 0xFF ∧ e.kao.received = true ∧ e.kao.bad = false ∧ e.img.load ≠ .reloading ∧ e.kao.internal = 0 ∧
      e.present (0 : Fin 8).val = true ∧ (e.kao.m[(0 : Fin 8)]).st = .unconfirmed ∧ e.view .host (lattice 6 8 0xC) = e.kao.check) ∧
    (let d := kaoDev fun x => { x with st := .lockout }
     argUnit 0 = (0 : Fin 8).val ∧ d.ready .host 6 (0 : Fin 8).val ∧ d.present (0 : Fin 8).val = true ∧ (d.kao.m[(0 : Fin 8)]).st = .lockout ∧
      d.rearmOk 0 = true) ∧
    (let d := kaoDev fun x => { x with st := .armed, block := kaoBlock 3 1 }
     argUnit 0x000300 = (0 : Fin 8).val ∧ d.ready .host 6 (0 : Fin 8).val ∧ tripSource (argBits 0x000300 15 8) = true ∧
      d.kaoAction 0 (argBits 0x000300 15 8) ≠ 0 ∧ (d.kao.m[(0 : Fin 8)]).st = .armed) ∧ dev.canIssue .core = true ∧ Agent.core ≠ .host ∧ Agent.core ≠ .service ∧
    (∀ m ∈ [KaoSt.armed, .tripped],
     let e := kaoDev fun x => { x with st := m, block := kaoBlock 0 1 }
     let d : Dev := { e with img := { e.img with loaded := some { image with chans := (List.replicate 6 (0xFF, 0)) ++ [(0, 6)] } } }
     argUnit 0 = (0 : Fin 8).val ∧ d.ready .core 6 (0 : Fin 8).val ∧ d.present (0 : Fin 8).val = true ∧ (d.kao.m[(0 : Fin 8)]).st = m ∧
      (d.kao.m[(0 : Fin 8)]).ken = false ∧ (d.kao.m[(0 : Fin 8)]).req = false ∧ d.resUsed 0 = true ∧ d.ownsIres 0 = true) := by decide

/-- A device whose channel LSW8 is GENERAL, of the device, and as the given change makes it. -/
def lswDev (f : LswChan → LswChan) : Dev :=
  ({ dev with img := { dev.img with loaded := some { image with switch := [0xF0, 0] } } } : Dev).updLsw 8 f

theorem test_hyps_SwitchCommands :
    (let d := lswDev id
     argUnit 0x080000 = (8 : Fin 16).val ∧ argBits 0x080000 15 0 = 0 ∧ d.ready .host 7 (8 : Fin 16).val ∧ d.lswOwned (8 : Fin 16).val = true ∧ d.lswFree 8 = true ∧
      (d.lsw.c[(8 : Fin 16)]).st = .off ∧ (d.lsw.c[(8 : Fin 16)]).demand = false) ∧
    (∀ m ∈ [LswSt.off, .backoff, .latched, .lockedOff], ∀ b ∈ [true, false], let d := lswDev fun x => { x with st := m, demand := b }
     d.lswOwned (8 : Fin 16).val = true ∧ d.lswFree 8 = true ∧ (d.lsw.c[(8 : Fin 16)]).st = m ∧ (d.lsw.c[(8 : Fin 16)]).demand = b) ∧
    (let d := lswDev fun x => { x with st := .on, demand := true }
     d.lswFree 8 = true ∧ (d.lsw.c[(8 : Fin 16)]).st.driven = true ∧ (d.lsw.c[(8 : Fin 16)]).demand = true) ∧
    (argUnit 0 = (0 : Fin 16).val ∧ dev.ready .host 7 (0 : Fin 16).val ∧ dev.lswOwned (0 : Fin 16).val = true ∧ dev.lswFree 0 = false) ∧
    (let d := lswDev fun x => { x with st := .latched }
     d.ready .host 7 (8 : Fin 16).val ∧ d.releaseAllowed 8 = true ∧ (d.lsw.c[(8 : Fin 16)]).st = .latched ∧ (d.lsw.c[(8 : Fin 16)]).tj < 140) ∧
    (let d := lswDev fun x => { x with st := .lockedOff }
     d.releaseAllowed 8 = true ∧ (d.lsw.c[(8 : Fin 16)]).st = .lockedOff ∧ (d.lsw.c[(8 : Fin 16)]).tj < 140) ∧
    (let d := lswDev fun x => { x with st := .lockedOff, tj := 140 }
     d.releaseAllowed 8 = true ∧ (d.lsw.c[(8 : Fin 16)]).st = .lockedOff ∧ 140 ≤ (d.lsw.c[(8 : Fin 16)]).tj) := by decide

theorem test_hyps_SwitchProtection :
    (let d := lswDev fun x => { x with st := .inrush, used := 15 }
     (d.lsw.c[(8 : Fin 16)]).hold = false ∧ (d.lsw.c[(8 : Fin 16)]).st = .inrush ∧ (d.lsw.c[(8 : Fin 16)]).restart = none ∧
      d.lswUv 8 = false ∧ d.lswOut 8 = true ∧
      (d.lsw.c[(8 : Fin 16)]).since + d.rfld 7 (8 : Fin 16).val 0 15 8 * 1000000 ≤ d.tim.elapsed ∧
      d.rfld 7 (8 : Fin 16).val 0 7 4 ≤ (d.lsw.c[(8 : Fin 16)]).used) ∧
    (let d := (lswDev fun x => { x with st := .on }).setRfld 7 8 0 7 4 3
     d.lswOut 8 = true ∧ (d.lsw.c[(8 : Fin 16)]).used < d.rfld 7 (8 : Fin 16).val 0 7 4 ∧ (d.lsw.c[(8 : Fin 16)]).st = .on ∧
      (d.lsw.c[(8 : Fin 16)]).st.driven = true ∧ (d.lsw.c[(8 : Fin 16)]).since + 60000000000 ≤ d.tim.elapsed) ∧
    (let d := lswDev fun x => { x with st := .latched, since := dev.tim.elapsed, used := 15 }
     (d.lsw.c[(8 : Fin 16)]).st = .latched ∧ (d.lsw.c[(8 : Fin 16)]).since = d.tim.elapsed ∧
      d.rfld 7 (8 : Fin 16).val 0 7 4 ≤ (d.lsw.c[(8 : Fin 16)]).used) ∧
    (let d := lswDev fun x => { x with st := .backoff, since := dev.tim.elapsed, used := 1 }
     (d.lsw.c[(8 : Fin 16)]).st = .backoff ∧ (d.lsw.c[(8 : Fin 16)]).since = d.tim.elapsed) ∧
    (let d := (lswDev fun x => { x with st := .latched }).setReg 7 8 0 8
     (d.lsw.c[(8 : Fin 16)]).st = .latched ∧ bit (d.reg 7 (8 : Fin 16).val 0) 3 = true ∧ (139 : Int) < 140) ∧
    (let d := (lswDev fun x => { x with st := .backoff, demand := true }).updLsw 9 fun x => { x with st := .inrush }
     (d.lsw.c[(8 : Fin 16)]).st = .backoff ∧ d.lswUv 8 = false ∧ (d.lsw.c[(8 : Fin 16)]).backoffEnd ≤ d.tim.elapsed ∧
      (d.lsw.c[(8 : Fin 16)]).demand = true ∧ d.groupInrush (lswGroup 8) = true) := by decide

theorem test_hyps_SwitchSupplies :
    (dev.lsw.uv.getLsbD (3 : Fin 4).val = false) ∧ (({ dev.lsw with uv := 8 } : LswState).uv.getLsbD (3 : Fin 4).val = true) ∧
    (let d := (lswDev fun x => { x with st := .on }).updLsw 10 fun x => { x with st := .inrush }
     ((groupChannels (lswGroup 8)).filter fun x : Fin 16 => (d.lsw.c[x]).st.driven)[0]? = some 8 ∧
     ((groupChannels (lswGroup 8)).filter fun x : Fin 16 => (d.lsw.c[x]).st.driven)[1]? = some 10 ∧
     (d.lsw.c[(8 : Fin 16)]).hold = false ∧ (d.lsw.c[(10 : Fin 16)]).hold = false) ∧ lswGroup 0 ≠ (3 : Fin 4) ∧
    (∀ c : Fin 16, (dev.lsw.c[c]).restart = none) ∧
    (let d : Dev := { lswDev fun x => { x with st := .on } with lsw := { (lswDev fun x => { x with st := .on }).lsw with totalMa := 6001, lastShed := 0 } }
     d.lsw.lastShed + 100000000 ≤ d.tim.elapsed ∧ d.shedOrder = [8] ∧ (6001 : Nat) < 65536 ∧ ¬ d.lsw.totalMa ≤ 6000) ∧
    (let d := (lswDev fun x => { x with st := .on }).updLsw 0 fun x => { x with st := .on }
     d.lsw.totalMa ≤ 6000 ∧ d.shedOrder = [8]) ∧ dev.lsw.limp ≠ true ∧
    (∀ c : Fin 16, dev.limpMapped c.val = false) := by decide


/-- A device with the mesh and the zero-crossing channel running, at node address 5 of cell 7. -/
def meshDev (f : PlcState → PlcState) : Dev :=
  let d := ((dev.setFunc .plc 0 { st := .running }).setFunc .plc 1 { st := .running }).setReg 8 0 8 0x00070005
  { d with plc := f d.plc }

/-- A job of this node with a frame to node 9 that asks for an acknowledgement. -/
def job : MeshJob := { frame := { meshF with flags := 1, ldst := 9 }, attempts := 0, k := 0, own := false, frag := false, degraded := false, since := 1000000000000, ageIn := 0 }

/-- A neighbour with the given address. -/
def nbr (a : BitVec 16) : Neighbour := { addr := a, snr := 10, fail := 0, penalty := 4, advertised := none, heard := 0 }

/-- An acknowledgement that waits for node 9. -/
def ackJob : MeshJob := { job with frame := { meshF with ftype := 4, ldst := 9 } }

theorem test_hyps_MeshTransmitter :
    (meshF.payload.length ≤ 96 ∧ ({ meshF with payload := List.replicate 96 0 } : MeshFrame).payload.length ≤ 96) ∧
    (let d := meshDev fun x => { x with cur := some job }
     d.meshRuns = true ∧ d.startInstant d.tim.now = true ∧ d.startInstant (d.tim.now - 62499) = true ∧ d.readyFrames.nextAck.isNone = true ∧
      d.readyFrames.plc.cur = some job ∧ d.readyFrames.plc.tx = .idle ∧ d.readyFrames.plc.awaitAck = none) ∧
    (let d := meshDev fun x => { x with waiting := [ackJob], cur := some job }
     d.meshRuns = true ∧ d.readyFrames.nextAck.map (·.1) = some ackJob) ∧
    (let d := meshDev fun x => { x with cur := some job, tx := .defer, deferCycles := 3 }
     d.meshRuns = true ∧ d.plc.tx = .defer ∧ d.plc.deferCycles ≤ 3 ∧ d.readyFrames.plc.tx = .defer ∧ d.readyFrames.nextAck.isNone = true ∧
      d.readyFrames.plc.cur = some job) ∧
    (let d := meshDev fun x => { x with cur := some job, tx := .sending, txTones := [40, 50, 40], txBit := 1 }
     d.plc.cur = some job ∧ d.plc.ack = none ∧ d.plc.tx = .sending ∧ d.plc.limRun = 0 ∧ (∀ b ∈ [false, false], b = false) ∧
      d.plc.txBit + [false, false].length = d.plc.txTones.length ∧ job.frame.flags.getLsbD 0 = true ∧ job.frame.ldst ≠ 0xFFFF ∧
      d.plc.txBit + 1 < d.plc.txTones.length) ∧
    (let d := meshDev fun x => { x with cur := some job, tx := .reduced, txTones := [40, 50], txBit := 1, limRun := 7 }
     d.plc.cur = some job ∧ d.plc.ack = none ∧ d.plc.tx = .reduced ∧ d.plc.limRun = 7 ∧ d.plc.txBit < d.plc.txTones.length ∧
      job.own = false ∧ job.frag = false) ∧
    (∀ k ∈ [3, 4], let d := meshDev fun x => { x with cur := some { job with attempts := k }, awaitAck := some 0, nbrs := [nbr 9] }
     d.plc.cur = some { job with attempts := k } ∧ d.plc.awaitAck = some 0 ∧ 0 + 50000000 ≤ d.tim.elapsed ∧
      (d.nbr job.frame.ldst).isSome = true) ∧
    (let d := meshDev fun x => { x with stagedAt := some 0 }
     d.meshRuns = true ∧ d.plc.lastBeacon + d.rfld 8 0 4 15 8 * 1000000000 ≤ d.tim.elapsed ∧ d.plc.stagedAt = some 0 ∧
      0 + 1000000000 ≤ d.tim.elapsed) ∧
    (let d := withQueue (meshDev id) 5 1 4 5 (mkMsg 0x20 4 0xFF 0 [0])
     d.meshRuns = true ∧ d.plc.block = none ∧ (d.que.q[(5 : Fin 64)]).entry.cons = 5 ∧ (d.plcFront 5).serves 5 = true ∧
      ∃ m ms ws d2, (d.plcFront 5).que.q[(5 : Fin 64)].msgs = m :: ms ∧ hdrType (msgHead m.words) = 0x20 ∧
        (d.plcFront 5).takeMsg 5 [] = (some ws, d2) ∧ isPoison ws = false) := by
  refine ⟨by decide +kernel, by decide +kernel, by decide +kernel, by decide +kernel, by decide +kernel, by decide +kernel, by decide +kernel,
    by decide +kernel, by decide, by decide, rfl, by decide +kernel, _, _, _, _, rfl, by decide, rfl, by decide⟩

/-- A frame of node 9 to node 5 in cell 7, with both its checks. -/
def goodFrame : MeshFrame := meshSeal { meshF with cell := 7, lsrc := 9, ldst := 5, origin := 9, dest := 5, hops := 1 }

theorem test_hyps_MeshReceiver :
    (meshDev id).meshRuns = true ∧ noiseStep ⟨20, 20, [(20, 20), (5, 20), (5, 20)], 0⟩ ((meshDev id).rfld 8 0 0xC 15 8)
      (rxWindows goodFrame ⟨20, 20, [(20, 20), (5, 20), (5, 20)], 0⟩) 0 (false, false) = some 3 ∧
    noiseStep ⟨20, 20, [(20, 5), (5, 20)], 0⟩ ((meshDev id).rfld 8 0 0xC 15 8) (rxWindows goodFrame ⟨20, 20, [(20, 5), (5, 20)], 0⟩) 0
      (false, false) = none ∧ (meshDev id).plcPair = 0 ∧ (fromHeadEnd goodFrame = true → meshHasMac goodFrame = true) ∧
    600 < ({ goodFrame with age := 601 } : MeshFrame).age.toNat ∧
    (let d := meshDev id
     meshHeadOk goodFrame = true ∧ meshCheckOk goodFrame = true ∧ goodFrame.cell = d.meshCell ∧ goodFrame.ldst = d.meshAddr ∧
      goodFrame.ftype ≠ 4 ∧ d.isLatticeRequest goodFrame = false ∧ goodFrame.flags.getLsbD 0 = false ∧ goodFrame.age.toNat ≤ 600 ∧
      d.inCache goodFrame = false) ∧
    (meshDev fun x => { x with cache := [(9, 0, dev.tim.elapsed)] }).inCache goodFrame = true ∧
    (let d := meshDev fun x => { x with nbrs := [nbr 9] }
     (d.nbr 9).isSome = true ∧ (nbr 9).heard + 4 * d.beaconNs ≤ d.tim.elapsed) ∧
    (meshDev id).plc.lastDecay + 60000000000 ≤ (meshDev id).tim.elapsed ∧
    ((meshDev id).ready .host 8 0xFF ∧ (meshDev id).plc.mesh.st = .running) ∧
    (∃ d1, dev.hesAccept meshF = (false, d1)) := by
  refine ⟨by decide, by decide +kernel, by decide +kernel, by decide, by decide +kernel, by decide, by decide +kernel, by decide, by decide, by decide, by decide, _, rfl⟩

/-- A Lattice request of the head-end whose MAC is right. -/
def hesFrame (d : Dev) : MeshFrame :=
  let f := { meshF with flags := 2, cell := 7, origin := 1, dest := 5, payload := [0x4C, 0] }
  { f with mac := BitVec.ofNat 64 (macBytes 8 (d.keySlot 5).live.secret (meshMacText f)) }

theorem macBytes_lt (n : Nat) (h : n ≤ 32) (key : BitVec 256) (bs : List Byte) : macBytes n key bs < 2 ^ (8 * n) := by
  unfold macBytes
  rw [Nat.div_lt_iff_lt_mul (by positivity), ← Nat.pow_add, Nat.add_sub_cancel' (by omega)]
  exact (Config.hmac key bs).isLt

theorem test_hyps_MeshReceiver_request (hesOn : Bool) :
    let d := ((meshDev id).updKey 5 fun x => { x with st := .valid }).setReg 8 0 0x28 (if hesOn then 1 else 0)
    ∃ d1, d.hesAccept (hesFrame d) = (true, d1) ∧ bit (d1.reg 8 0 0x28) 0 = hesOn := by
  intro d
  have hm : d.meshMacOk (hesFrame d) = true := by
    have hk : d.keyValid 5 = true := by cases hesOn <;> decide
    have hf : meshHasMac (hesFrame d) = true := by
      show (2 : Byte).getLsbD 1 = true
      decide
    have ht : meshMacText (hesFrame d) = meshMacText { meshF with flags := 2, cell := 7, origin := 1, dest := 5, payload := [0x4C, 0] } := rfl
    simp only [Dev.meshMacOk, hk, hf, ht, Bool.true_and, decide_eq_true_eq]
    simp only [hesFrame, BitVec.toNat_ofNat]
    exact Nat.mod_eq_of_lt (macBytes_lt 8 (by omega) _ _)
  have ha : d.headAccept (hesFrame d) = (d.useKey 5).headEpoch (hesFrame d) := by
    have hk : d.keyValid 5 = true := by cases hesOn <;> decide
    have hf : meshHasMac (hesFrame d) = true := by
      show (2 : Byte).getLsbD 1 = true
      decide
    have h1 : fromHeadEnd (hesFrame d) = true := by
      show ((2 : Byte).getLsbD 2 || decide ((1 : BitVec 16) = 1)) = true
      decide
    have ho : (hesFrame d).origin = 1 := rfl
    simp only [Dev.headAccept, Dev.macAccept, h1, hm, hk, hf, ho]; simp
  have hr : (d.meshRuns && d.isLatticeRequest (hesFrame d)) = true := by
    have h5 : d.meshAddr = 5 := by cases hesOn <;> decide
    have h6 : d.meshRuns = true := by cases hesOn <;> decide
    simp [Dev.isLatticeRequest, hesFrame, meshF, h5, h6]
  have hs : ¬(600 < (hesFrame d).age.toNat ∨ d.inCache (hesFrame d) = true) := by
    cases hesOn <;> decide
  have he : (d.useKey 5).headEpoch (hesFrame d) = (true, (d.useKey 5).updSpace 12 fun x => { x with epoch := 0, index := 0 }) := by
    have hacc : ((d.useKey 5).que.spaces[(12 : Fin 13)]).accepts 12 0 = true := by cases hesOn <;> decide
    have h0 : (hesFrame d).msgId = 0 := rfl
    simp only [Dev.headEpoch, h0]
    rw [if_pos (by simpa using hacc)]; rfl
  refine ⟨((d.useKey 5).updSpace 12 fun x => { x with epoch := 0, index := 0 }).remember (hesFrame d), ?_, ?_⟩
  · simp only [Dev.hesAccept, hr, if_neg hs, ha, he]; simp
  · cases hesOn <;> decide

/-- The bits of a number, the most significant first. -/
def natBits : Nat → Nat → List ZxBit
  | 0, _ => []
  | k + 1, n => natBits k (n / 2) ++ [if n % 2 = 1 then .one else .zero]

theorem natBits_length (k n : Nat) : (natBits k n).length = k := by
  induction k generalizing n with
  | zero => rfl
  | succ k ih => simp [natBits, ih]

theorem bitsToNat_natBits (k n : Nat) (h : n < 2 ^ k) : bitsToNat (natBits k n) = n := by
  induction k generalizing n with
  | zero => simp at h; subst h; rfl
  | succ k ih =>
    have h2 : n / 2 < 2 ^ k := by rw [Nat.pow_succ] at h; omega
    have h3 := ih _ h2
    unfold bitsToNat at h3
    simp only [natBits, bitsToNat, List.foldl_append, h3, List.foldl_cons, List.foldl_nil]
    by_cases h4 : n % 2 = 1 <;> simp [h4] <;> omega

theorem natBits_noErasure (k n : Nat) : ZxBit.erasure ∉ natBits k n := by
  induction k generalizing n with
  | zero => simp [natBits]
  | succ k ih => simp only [natBits, List.mem_append, List.mem_singleton, ih, false_or]; split <;> simp

/-- A device of group 3 whose grid key K6 is VALID. -/
def zxDev : Dev := ((meshDev id).updKey 6 fun x => { x with st := .valid }).setReg 8 1 4 0x00300000

/-- The 64 bits of PING for group 3 with sequence 1. -/
def pingBits : List ZxBit := natBits 64 0x6003000000000001

/-- The voltage differences of the mains cycles that carry some bits, in µV. -/
def zxDs (bs : List ZxBit) : List Int := bs.flatMap fun b => if b = .one then [1000000, 0] else [0, 1000000]

theorem zxDs_length (bs : List ZxBit) : (zxDs bs).length = 2 * bs.length := by
  induction bs with
  | nil => rfl
  | cons b bs ih => simp only [zxDs, List.flatMap_cons, List.length_append, List.length_cons] at *; split <;> simp [ih] <;> omega

theorem zxBits_zxDs (thr : Int) (h0 : 0 ≤ thr) (h1 : thr < 1000000) (bs : List ZxBit) (h : .erasure ∉ bs) : zxBits thr (zxDs bs) = bs := by
  induction bs with
  | nil => rfl
  | cons b bs ih =>
    simp only [List.mem_cons, not_or] at h
    have h2 := ih h.2
    simp only [zxDs, List.flatMap_cons] at *
    cases b with
    | one =>
      have h3 : zxDecide thr (1000000 - 0) = .one := by unfold zxDecide; rw [if_pos (by omega)]
      simp only [if_true, List.cons_append, List.nil_append, zxBits, h3, h2]
    | zero =>
      have h3 : zxDecide thr (0 - 1000000) = .zero := by unfold zxDecide; rw [if_neg (by omega), if_pos (by omega)]
      simp only [reduceCtorEq, if_false, List.cons_append, List.nil_append, zxBits, h3, h2]
    | erasure => exact absurd rfl h.1

theorem test_hyps_GridMessages_message (mac : Nat) (h : mac < 2 ^ 32) :
    let d : Dev := { zxDev with plc := { zxDev.plc with zxMsg := some [] } }
    let ds := zxDs (pingBits ++ natBits 32 mac)
    d.zxRuns = true ∧ d.plc.zxAwait = none ∧ d.plc.zxMsg = some [] ∧ d.plc.zxWin = [] ∧ d.sto.holdup = false ∧
      .erasure ∉ zxBits d.zxThr ds ∧ ds.length = 192 ∧
      bits (BitVec.ofNat 64 (bitsToNat ((zxBits d.zxThr ds).take 64))).toNat 59 48 = d.rfld 8 1 4 31 20 ∧ d.keyValid 6 = true ∧
      bitsToNat (((zxBits d.zxThr ds).drop 64).take 32) = mac := by
  intro d ds
  have hl : pingBits.length = 64 := natBits_length _ _
  have he : ZxBit.erasure ∉ pingBits ++ natBits 32 mac := by
    simp only [List.mem_append, not_or]; exact ⟨natBits_noErasure _ _, natBits_noErasure _ _⟩
  have hb : zxBits d.zxThr ds = pingBits ++ natBits 32 mac := zxBits_zxDs _ (by decide +kernel) (by decide +kernel) _ he
  rw [hb]
  refine ⟨by decide, by decide, rfl, by decide, by decide, he, ?_, ?_, by decide, ?_⟩
  · simp [ds, zxDs_length, hl, natBits_length]
  · rw [List.take_left' hl]; decide +kernel
  · rw [List.drop_left' hl, List.take_of_length_le (by simp [natBits_length])]; exact bitsToNat_natBits _ _ h

/-- The last mains cycle of a sync, and of a bit that is an erasure. -/
theorem test_hyps_GridMessages_sync :
    (let d : Dev := { zxDev with plc := { zxDev.plc with zxWin := (zxDs zxSync).dropLast } }
     d.zxRuns = true ∧ d.plc.zxAwait = none ∧ d.plc.zxMsg = none ∧
      zxBits d.zxThr ((d.plc.zxWin ++ [(zxDs zxSync).getLast (by decide)]).drop (d.plc.zxWin.length + 1 - 32)) = zxSync) ∧
    (let d : Dev := { zxDev with plc := { zxDev.plc with zxMsg := some [.one], zxWin := [5] } }
     d.plc.zxMsg = some [.one] ∧ d.plc.zxWin = [5] ∧ zxDecide d.zxThr (5 - 5) = .erasure) := by decide +kernel

/-- The MAC of the first candidate is accepted, and some 32 bits are the MAC of no candidate. -/
theorem test_hyps_GridMessages_mac (msg : BitVec 64) :
    (∃ mac q, mac < 2 ^ 32 ∧ zxDev.zxSequence msg mac = some q) ∧ ∃ mac, mac < 2 ^ 32 ∧ zxDev.zxSequence msg mac = none := by
  constructor
  · let c := zxCand zxDev.plc.zxSeq.toNat (bits msg.toNat 7 0)
    have hlt : zxDev.zxMac c msg < 2 ^ 32 := macBytes_lt 4 (by omega) _ _
    have hs : (zxDev.zxSequence msg (zxDev.zxMac c msg)).isSome = true := by
      simp only [Dev.zxSequence, List.find?_isSome]
      exact ⟨c, List.mem_map.2 ⟨0, by decide, by simp [c]⟩, by simp⟩
    obtain ⟨q, hq⟩ := Option.isSome_iff_exists.1 hs
    exact ⟨_, q, hlt, hq⟩
  · let c := zxCand zxDev.plc.zxSeq.toNat (bits msg.toNat 7 0)
    let ms : Finset Nat := (Finset.range 16).image fun j => zxDev.zxMac (c + 256 * j) msg
    obtain ⟨mac, hm, hn⟩ : ∃ m ∈ Finset.range 17, m ∉ ms :=
      Finset.exists_mem_notMem_of_card_lt_card (lt_of_le_of_lt Finset.card_image_le (by simp))
    refine ⟨mac, by simp at hm; omega, ?_⟩
    simp only [Dev.zxSequence, List.find?_eq_none, List.mem_map, List.mem_range]
    rintro x ⟨j, hj, rfl⟩ h
    exact hn (Finset.mem_image.2 ⟨j, by simpa using hj, by simpa using h⟩)

theorem test_hyps_GridMessages :
    (let d := meshDev fun x => { x with zxAwait := some (0x1003010000000001, 1, 0) }
     d.plc.zxAwait = some (0x1003010000000001, 1, 0) ∧ d.sto.holdup = false ∧ bits (0x1003010000000001 : BitVec 64).toNat 63 60 = 1 ∧
      0 ∈ d.zxSlices (bits (0x1003010000000001 : BitVec 64).toNat 47 40)) ∧
    (let d := meshDev fun x => { x with conf := some (0, 0) }
     d.plc.conf = some (0, 0) ∧ 0 ≤ d.plc.zxCount ∧ d.zxRuns = true ∧ d.plc.confSending = false) ∧
    (let d := meshDev fun x => { x with confSending := true, zxiPulses := confPulses 0, zxCount := 160 }
     d.plc.confSending = true ∧ d.plc.confAt + d.plc.zxiPulses.length ≤ d.plc.zxCount) ∧
    (dev.present (0 : Fin 8).val = true ∧ (1 : Byte).getLsbD (0 : Fin 8).val = true ∧ dev.present (7 : Fin 8).val = false) ∧
    (zxTariffOk 0x80008000 = true ∧ zxTariffOk 0x80000000 = false) := by decide +kernel


/-- A card with a UID of 4 bytes. -/
def card : Card := { typeB := false, uid := [1, 2, 3, 4], atqa := 4, sak := 0x20, part4 := true }

/-- A device with the reader running for type A and MUTUAL_AES for the service tag. -/
def tagDev (f : TagState → TagState) : Dev :=
  let d : Dev := { dev with img := { dev.img with loaded := some { image with persona := [0, 0, 0, 0, 0, 1, 1] } } }
  { d with tag := f { d.tag with rdr := { st := .running } } }

theorem test_hyps_CardReader :
    (let d := tagDev fun x => { x with pollDue := true }
     d.tag.rdr.st = .running ∧ d.tag.rdrSt = .idle ∧ d.tag.pollDue = true ∧ d.tag.field = false ∧ d.cardEnabled card = true ∧
      (∀ e ∈ d.tag.seen, e.1 ≠ card.uid) ∧ d.ready .host 11 0xFF) ∧
    (let d := tagDev fun x => { x with pollDue := true, field := true }
     d.tag.rdr.st = .running ∧ d.tag.rdrSt = .idle ∧ d.tag.pollDue = true ∧ d.tag.field = true) ∧
    (∀ n ∈ [0, 1], let d := withQueue (tagDev fun x => { x with rdrSt := .exchange, card := some card }) 5 1 2 7 (mkMsg 0x62 2 0xFF 0 [packQ [(16, n), (48, 0)]])
     d.tag.rdrSt = .exchange ∧ (d.que.q[(5 : Fin 64)]).entry.cons = 7 ∧ d.serves 5 = true ∧ d.tag.tRdr + 1000000000 ≤ d.tim.elapsed ∧
      ((d.takeMsg 5 []).1.map fun ws => (hdrType (msgHead ws), bits (ws.getD 1 0).toNat 63 48)) = some (0x62, n)) ∧
    (let d := tagDev fun x => { x with rdrSt := .awaiting, card := some card }
     d.tag.rdrSt = .awaiting ∧ d.tag.tRdr + d.rfld 11 0 4 7 0 * 1000000 ≤ d.tim.elapsed) := by
  refine ⟨by decide, by decide, by decide +kernel, by decide⟩

/-- A session of the handheld. -/
def svc : SvcSession := { rH := 1, rD := 2, ks := 3, rxCtr := 0, txCtr := 0, frames := 0, tLast := 0 }

theorem test_hyps_ServiceSession :
    (tagDev id).tag.field = false ∧ (tagDev fun x => { x with field := true }).tag.field = true ∧
    (let d := tagDev fun x => { x with fdet := false }
     d.tag.field = false ∧ d.tag.fdet = false ∧ d.tag.tFieldLost + 100000000 ≤ d.tim.elapsed) ∧
    (let d := (tagDev fun x => { x with field := true, keyCopy := some (1, 2), pendAuth := some (4, 5) }).updKey 8 fun x => { x with st := .valid }
     d.tagOn = true ∧ d.tag.sess = none ∧ d.tag.supply ≠ 2 ∧ d.mutualAes = true ∧ d.tagKey = some 3 ∧ d.tag.locked = false ∧
      d.tag.pendAuth = some (4, 5)) ∧
    (let d := tagDev fun x => { x with field := true, sess := some svc }
     d.tagOn = true ∧ d.tag.sess = some svc ∧ svc.tLast + 10000000000 ≤ d.tim.elapsed ∧ d.tag.sess.isSome = true ∧ d.ready .host 11 0xFF) ∧
    (∃ p : SvcProt, svc.accepts p [2, 0, 0] = false) := by
  refine ⟨by decide, by decide, by decide, by decide, by decide, ⟨0, 0⟩, rfl⟩

/-- The protection that makes a message the next frame of the session. -/
def svcProt (msg : List Byte) : SvcProt := { counter := 1, mac := Config.ccmTag svc.ks (svcNonce 0 1 svc.rD) msg }

/-- Every message has a protection with which an open session takes it. -/
theorem test_hyps_ServiceCommands :
    (let d := tagDev fun x => { x with field := true, sess := some svc }
     d.tagOn = true ∧ d.tag.sess = some svc ∧ d.tag.supply = 0 ∧
      ∀ msg, ∃ d1, d.sessionFrame svc (svcProt msg) msg = some d1) ∧
    ((8 : BitVec 16).toNat ≤ 1023 ∧ fieldReadable (8 : BitVec 16).toNat true = true) ∧
    (64 ≤ (1023 : BitVec 16).toNat ∧ (1023 : BitVec 16).toNat ≤ 1023) ∧ ((31 : Byte).toNat ≤ 31 ∧ (1 : BitVec 16) ≠ 0) := by
  refine ⟨⟨by decide, rfl, rfl, fun msg => ?_⟩, by decide, by decide, by decide⟩
  have h : svc.accepts (svcProt msg) msg = true := by
    have h0 : svc.rxCtr = 0 := rfl
    simp [SvcSession.accepts, h0, svcProt]
  simp only [Dev.sessionFrame, h, if_true]
  exact ⟨_, rfl⟩

/-- A journal entry of block 12. -/
def jrn (marker : Bool) : TagJournal := { blk := 12, data := 7, marker := marker, primary := false, done := false, seq := 1 }

theorem test_hyps_TagStore :
    ((tagDev id).ready .host 11 0xFF ∧ (3 : BitVec 24).toNat ≤ 1023 ∧ ¬(4 ≤ (3 : BitVec 24).toNat ∧ (3 : BitVec 24).toNat ≤ 7) ∧
      12 ≤ (1023 : BitVec 24).toNat ∧ (1023 : BitVec 24).toNat ≤ 1023 ∧ (tagDev id).tag.sess = none ∧ argUnit 0x1F0001 ≤ 31 ∧
      argBits 0x1F0001 15 0 ≠ 0) ∧
    (let d := tagDev fun x => { x with sess := some svc, sharedMap := [(12, 0x1000000000)] }
     d.ready .host 11 0xFF ∧ d.tag.sess.isSome = true ∧ sharedIn d.tag.sharedMap (36 : BitVec 24).toNat = true) ∧
    (let d := tagDev fun x => { x with defer := some (.host, 36, 7, 0) }
     d.tag.defer = some (.host, 36, 7, 0) ∧ d.tag.sess = none ∧ 0 + 200000000 ≤ d.tim.elapsed) ∧
    (∀ m ∈ [true, false], let d := tagDev fun x => { x with journal := some (jrn m) }
     d.tag.journal = some (jrn m) ∧ (jrn m).done = false ∧ (jrn m).marker = m ∧ 3 ≤ (jrn m).blk) ∧
    (let d := withQueue (tagDev fun x => { x with sess := some svc }) 5 1 4 8 (mkMsg 0x20 4 0xFF 0 [0])
     (d.que.q[(5 : Fin 64)]).entry.cons = 8 ∧ d.tag.block = none ∧ d.tag.sess.isSome = true ∧
      (d.freshFront 5).serves 5 = true ∧
      ∃ m ms ws d2, (d.freshFront 5).que.q[(5 : Fin 64)].msgs = m :: ms ∧ hdrType (msgHead m.words) = 0x20 ∧
        (d.freshFront 5).takeMsg 5 [] = (some ws, d2) ∧ isPoison ws = false) := by
  refine ⟨by decide, by decide, by decide, by decide, rfl, rfl, rfl, by decide +kernel, _, _, _, _, rfl, by decide, rfl, by decide⟩

/-- A device with the panel running and one legal region 0 of 2 by 2 pixels. -/
def pnlDev (f : Region → Region) : Dev :=
  let d : Dev := { dev with img := { dev.img with loaded := some { image with
    persona := List.replicate 0x18 0 ++ [16, 0, 16, 0] ++ List.replicate 0x16 0 ++ [2, 0, 0, 0, 2, 0, 1] } } }
  { d with pnl := { d.pnl with fn := { st := .running }, autoDone := true, pwrUp := true, pwrGood := true, r := d.pnl.r.set 0 (f d.pnl.r[0]) } }

theorem test_hyps_RegionUpdates :
    (let d := pnlDev fun x => { x with lastUpdate := true }
     argUnit 0x000300 = (0 : Fin 16).val ∧ d.ready .host 12 (0x10 + (0 : Fin 16).val) ∧ d.rgnUsed (0 : Fin 16).val = true ∧
      d.pnl.fn.st = .running ∧ 1 ≤ argBits 0x000300 15 8 ∧ argBits 0x000300 15 8 ≤ 3 ∧ argBits 0x000300 7 0 = 0 ∧
      (d.pnl.r[(0 : Fin 16)]).st = .idle ∧ d.rgnLegal (0 : Fin 16).val = true ∧ d.verified 0 = true ∧ (d.pnl.r[(0 : Fin 16)]).busy = false) ∧
    (let d := pnlDev fun x => { x with st := .running, table := 3, pending := some (2, 5) }
     d.ready .host 12 (0x10 + (0 : Fin 16).val) ∧ (d.pnl.r[(0 : Fin 16)]).st = .running ∧ (d.pnl.r[(0 : Fin 16)]).pending ≠ none) ∧
    (∀ m ∈ [RgnSt.clearing, .unknown, .held], let d := pnlDev fun x => { x with st := m }
     d.ready .host 12 (0x10 + (0 : Fin 16).val) ∧ (d.pnl.r[(0 : Fin 16)]).st = m) ∧
    (let d := pnlDev id
     let e := pnlDev fun x => { x with st := .held, jCrc := d.rgnCrc d.pnl.new 0, jUpdate := true, jValid := true }
     argBits 0 15 0 = 0 ∧ e.ready .host 12 (0x10 + (0 : Fin 16).val) ∧ (e.pnl.r[(0 : Fin 16)]).st = .held ∧
      (e.pnl.r[(0 : Fin 16)]).jCrc = e.rgnCrc e.pnl.new (0 : Fin 16).val ∧ (e.pnl.r[(0 : Fin 16)]).jUpdate = true ∧
      (e.pnl.r[(0 : Fin 16)]).jValid = true ∧ (e.pnl.r[(0 : Fin 16)]).pending = none) ∧
    (∀ k ∈ [RgnSt.running, .clearing], let d := pnlDev fun x => { x with st := k, started := true, frame := 5 }
     d.lastFrame 0 = true ∧ (d.pnl.r[(0 : Fin 16)]).pending = none ∧ (d.pnl.r[(0 : Fin 16)]).st = k) := by decide +kernel

theorem test_hyps_PanelController :
    (let d := pnlDev fun x => { x with st := .running }
     d.frameDue = true ∧ d.pwr.held = false ∧ d.pnl.autoDone = true ∧ d.mayDrive = true ∧ (d.pnl.r[(0 : Fin 16)]).busy = true ∧
      d.lastFrame 0 = false ∧ d.pnl.fn.st = .running ∧ d.pnl.stopped = false ∧ d.pnlBusy = true) ∧
    (let d := pnlDev fun x => { x with st := .unknown }
     let e : Dev := { d with pnl := { d.pnl with autoClear := true } }
     e.pnl.autoClear = true ∧ e.mayDrive = true ∧ (e.pnl.r[(0 : Fin 16)]).st = .unknown ∧ e.rgnUsed (0 : Fin 16).val = true) ∧
    (let d := (pnlDev id).setReg 12 0 0x2C 0x80000000
     let e : Dev := { d with pnl := { d.pnl with stripReady := true } }
     e.pnl.fn.st = .running ∧ e.stripOn = true ∧ e.pnl.stopped = false ∧ e.pnl.stripReady = true ∧ e.pnl.strip = .idle ∧
      e.stripCells ≠ e.pnl.stripShown) ∧
    (let d := pnlDev id
     d.pnl.pwrUp = true ∧ d.pnlBusy = false ∧ d.pnl.autoClear = false ∧ d.stripDue = false ∧ d.pnl.tIdle + 100000000 ≤ d.tim.elapsed) ∧
    (let d := { pnlDev id with tim := { dev.tim with elapsed := 3600000000000 } }
     d.pnl.tStress + 3600000000000 ≤ d.tim.elapsed) ∧
    (let d := pnlDev id
     d.canWrite .host 12 0 ∧ d.canIssue .host = true ∧ d.granted .host 12 0 .read = true ∧ d.stoppedIsland 12 0 = none ∧
      d.winRunning = false ∧ d.winInside = true) ∧
    (∀ t ∈ [0, 1], let d := (pnlDev id).setRfld 12 0 0x20 31 30 t
     d.canWrite .host 12 0 ∧ d.rfld 12 0 0x20 31 30 = t ∧ d.rfld 12 0 0x20 14 0 < 4096 ∧ d.pnl.fn.idle = false ∧
      (d.pnl.wave.find (d.rfld 12 0 0x20 14 0)).getD 0 ≠ (1 : Word)) ∧ dev.pnl.fn.idle = true := by decide +kernel


/-- A ring frame for module 5 in class 2. -/
def frame (ty : BitVec 6) (payload : List QData) : RingFrame := { ringF with cls := 2, ftype := ty, dest := 5, queue := 7, payload := payload }

/-- A device numbered 5 with both ports up. -/
def ringDev (f : AulState → AulState) : Dev :=
  { dev with aul := f { dev.aul with number := 5, numbered := true, a := { st := .up }, b := { st := .up } } }

/-- The transaction word of an LREQ of one access with ID 1. -/
def lreqWord : QData := packQ [(32, 1), (8, 1), (24, 0)]

theorem test_hyps_RingTraffic :
    (let d := (ringDev id).updQ 7 fun _ => { entry := ⟨2, 512, 2, 1, 0⟩ }
     let f := frame 0 [0]
     d.portIsUp true = true ∧ d.aul.stopped = false ∧ f.eofBad = false ∧ f.ftype = 0 ∧ f.dest ≠ 0xFF ∧ d.forMe f = true ∧
      f.crcOk = true ∧ d.dataQueue f = some 7 ∧ (d.que.q[(7 : Fin 64)]).room f.payload.length = true ∧
      d.aul.rxHeld.any (behind true f) = false) ∧
    (ringDev id).dataQueue (frame 0 [0]) = none ∧ ({ frame 0 [0] with crcOk := false } : RingFrame).crcOk = false ∧
    (let f := frame 1 [lreqWord, 0]
     f.ftype = 1 ∧ f.dest ≠ 0xFF ∧ (ringDev id).forMe f = true ∧ f.crcOk = true ∧ (ringDev id).sto.holdup = false ∧
      [(0 : QData)].length = bits lreqWord.toNat 31 24) ∧
    (∃ d1, (ringDev id).takeTransaction (bits lreqWord.toNat 63 32) = (true, d1)) ∧
    (∃ d1, (ringDev id).takeTransaction 0x05000001 = (false, d1)) ∧
    (let f := { frame 0 [0] with cls := 0, dest := 6 }
     (ringDev id).forMe f = false ∧ f.ftype ≠ 4 ∧ f.ftype ≠ 5 ∧ f.crcOk = true ∧ f.cls = 0 ∧ (ringDev id).portUsed true = true ∧
      (ringDev id).portIsUp true = true) ∧
    (let f := { frame 0 [0] with dest := 6 }
     (ringDev id).forMe f = false ∧ f.cls ≠ 0 ∧ (ringDev id).canForward true f.cls = true ∧ (ringDev id).aul.rxHeld.any (behind true f) = false ∧
      (ringDev fun x => { x with a := { st := .up, paused := 4 } }).canForward true f.cls = false) ∧
    (let d := withQueue (ringDev id) 7 1 1 2 [0]
     d.serves 7 d.bridgeCan = true ∧ (d.freshFront 7).que.q[(7 : Fin 64)].msgs = [⟨[0], d.tim.now, d.tim.elapsed, false, 0⟩] ∧
      poisonSpan ⟨[0], d.tim.now, d.tim.elapsed, false, 0⟩ [] [] = 0 ∧ d.idSpace 7 ≠ 9) ∧
    ((0 : Nat) + 8 * ((20 - 20 * b1 ((0 : Nat) = 0)) / 160 + 1) < 20 ∧ (frame 0 [0]).cls ≠ 0) ∧
    (let d := withQueue (ringDev id) 7 1 1 2 [0]
     (d.que.q[(7 : Fin 64)]).entry.cls < 4 ∧ (d.que.q[(7 : Fin 64)]).entry.cons = 2 ∧ (d.que.q[(7 : Fin 64)]).entry.depth ≠ 0 ∧
      d.bridgeMay 1 = true ∧ d.aul.idWait = false ∧ (d.que.q[(7 : Fin 64)]).entry.cls ≠ 0) ∧
    (let d := withQueue (ringDev fun x => { x with a := { st := .up, c0Starts := [dev.tim.elapsed, dev.tim.elapsed] } }) 7 0 1 2 [0]
     (d.que.q[(7 : Fin 64)]).entry.cls = 0 ∧ d.bridgeMay 0 = true ∧ d.c0Free d.aul.hostB = false ∧ (d.que.q[(7 : Fin 64)]).msgs ≠ [] ∧
      d.aul.c0Wait.contains (7 : Fin 64).val = false) ∧
    (let d := ringDev fun x => { x with c0Wait := [7] }; d.aul.c0Wait.contains (7 : Fin 64).val = true ∧ d.c0Free d.aul.hostB = true) := by
  refine ⟨by decide, by decide, by decide, by decide, ⟨_, rfl⟩, ⟨_, rfl⟩, by decide, by decide, by decide +kernel, by decide, by decide, by decide, by decide⟩

theorem test_hyps_RingLink :
    ((3 : Fin 4) ≠ 0 ∧ (ringDev id).portIsUp false = true ∧ (ringDev id).aul.stopped = false) ∧
    (let d := ringDev id
     bits (packQ [(8, 1), (8, 0), (48, 0)]).toNat 63 56 = 1 ∧ ¬(1 ≤ d.persona 1 ∧ d.persona 1 ≤ 64 ∧ nbit (0 : QData).toNat (d.persona 1 - 1) = false)) ∧
    (let d := ringDev fun x => { x with numbered := false }
     bits (packQ [(8, 2), (56, 0)]).toNat 63 56 = 2 ∧ d.aul.numbered = false ∧ lowestClear (3 : QData).toNat = some 2 ∧
      lowestClear (0x7FFFFFFFFFFFFFFF : QData).toNat = some 63) ∧
    ((ringDev id).portUsed true = true ∧ bits (msgHead [(0 : QData)]).toNat 63 56 = 0 ∧ (ringDev id).aul.hostB = false ∧
      (ringDev id).portIsUp true = true) ∧
    (let d := ringDev fun x => { x with a := { st := .up, t1 := some 5 } }
     (d.port false).t1 = some 5 ∧ d.sto.holdup = false ∧ (d.port false).lastReq + d.rfld 9 0 4 7 0 * 100000000 ≤ d.tim.elapsed) ∧
    (let d := ringDev fun x => { x with b := {} }
     d.aul.stopped = false ∧ d.portIsUp true = false ∧ d.portUsed true = true ∧ d.pwr.held = false) ∧
    (dev.ready .host 9 0xFF ∧ argUnit 0x010000 = b1 true ∧ argBits 0x010000 15 0 = 0 ∧ dev.ready .host 9 (0x10 + argUnit 0x010000) ∧
      ({ dev with aul := { dev.aul with hostB := true } } : Dev).aul.hostB = true ∧ dev.ready .core 9 (0x10 + argUnit 0x010000)) := by
  decide

theorem test_hyps_CommandWrite :
    (restrictedCommand 5 0x12 = false ∧ ∃ u h, ((commonCommand 5 0x12 0).orElse fun _ => groupCommand .host 5 0x12 0) = some (u, h)) ∧
    (restrictedCommand 14 0xFF = false ∧ ((commonCommand 14 0xFF 0).orElse fun _ => groupCommand .host 14 0xFF 0) = none ∧
      dev.ready .host 14 0xFF) := by
  refine ⟨⟨by decide, _, _, rfl⟩, by decide, rfl, by decide⟩

theorem test_hyps_ContactorsStayGuarded :
    (st (kaoDev fun x => { x with st := .armed, ken := true })).contactorsGuarded ∧
    ∃ t, step (st (kaoDev fun x => { x with st := .armed, ken := true })) = .next t := by
  refine ⟨?_, _, rfl⟩
  show ∀ n : Fin 8, ((kaoDev fun x => { x with st := .armed, ken := true }).kao.m[n]).ken = true →
    ((kaoDev fun x => { x with st := .armed, ken := true }).kao.m[n]).st = .armed
  decide

theorem test_hyps_CommandScope :
    (∃ ks t, commandScope (.linInputChange 0 true) = some ks ∧ Part.kao ∉ ks ∧ exec (.linInputChange 0 true) (st dev) = .next t) ∧
    (argUnit 0x000300 ≠ (1 : Fin 8).val ∧ ∃ t, exec (.authorize .host 0x000300) (st (sessDev fun x => { x with st := .plugged })) = .next t) ∧
    ((0 : Fin 8) ≠ 1 ∧ ∃ t, exec (.authTimeout 0) (st (sessDev fun x => { x with st := .authorizing })) = .next t) := by
  refine ⟨⟨_, _, rfl, by decide, rfl⟩, ⟨by decide, _, rfl⟩, by decide, _, rfl⟩

/-- A port with an own and a forwarded frame of class 2 and a frame of class 3 waiting. -/
def sharedPort : Port := { waiting := [(false, frame 0 [0]), (true, frame 0 [0]), (true, { frame 0 [0] with cls := 3 })] }

theorem test_hyps_RingTraffic_shares :
    sharedPort.nextClass = some 2 ∧ ∃ y ∈ sharedPort.waiting, y.2.cls = 2 ∧ y.1 ≠ sharedPort.ownLast.getLsbD (2 : Fin 4).val := by
  decide


/-! ### Worked examples of the spec -/

/-- What the host reads at a register's address. -/
def readOf (d : Dev) (addr : Nat) : Option Word := (mapped addr).map fun r => (d.readReg .host (addrGroup addr) (addrUnit addr) r addr false).2.1

/-- 03_lattice.md, clearing SYS_FLAGS while a rejection arrives: the read, the clear with bit 2 set again, the last read. -/
theorem test_flags_example :
    let f : FlagReg := ((({ count := 0x151 } : FlagReg).raise 2).raise 4)
    let g := ((f.noteRead 1).raise 4).clear 1 6
    f.word = 0x01530006 ∧ (f.noteRead 1).accepts 1 0x153 = true ∧ g.word = 0x01540004 ∧ ((g.noteRead 1).clear 1 4).word = 0x01540000 := by
  decide

/-- 01_architecture.md: register word w of queue Q23 is at 0x2170_0000 + 4w. -/
theorem test_address_q23 : lattice 2 23 4 = 0x21700004 := by decide

/-- 04_queues.md: 0.4 s into its quarantine QUE_IDQ of space 9 reads 0x8000_2968, and the wait ends in epoch 8 at index 1. -/
theorem test_quarantine_example :
    readOf (dev.updSpace 9 fun x => { x with quar := some (dev.tim.elapsed - 400000000), quarLen := 11000000000 }) 0x28900004 = some 0x80002968 := by
  decide +kernel

/-- 05_time.md: a delta of −1 500 020 µs rounds to a step of −1.5 s. -/
theorem test_step_example : signed 64 0xFFFFFFFFA69782E0 = -1500020000 ∧ roundStep (-1500020000) = -1500000000 := by decide

/-- 10_load_switches.md: LSW_STATE of the short-circuited lamp in BACKOFF and in LOCKED_OFF (here of function GENERAL). -/
theorem test_lamp_example :
    readOf (lswDev fun x => { x with st := .backoff, reason := 1, used := 1, demand := true, hold := true }) 0x70800010 = some 0x311CF000 ∧
    readOf (lswDev fun x => { x with st := .lockedOff, reason := 1, used := 3, demand := true }) 0x70800010 = some 0x5138F000 := by decide +kernel

/-- 11_powerline.md: the neighbour's cost of 26 after the abandoned frame, and its table words. -/
theorem test_noise_example :
    let x : Neighbour := { nbr 0x31 with snr := 14, fail := 26 / 256, penalty := 16, advertised := some (18, 2), heard := dev.tim.elapsed }
    x.cost = 26 ∧ readOf (meshDev fun p => { p with nbrs := [x] }) 0x80000034 = some 0x00311A0E ∧
    readOf (meshDev fun p => { p with nbrs := [x] }) 0x80000038 = some 0x101A0000 := by decide +kernel

/-- 16_aulan.md: AUL_STATUS of module 18 with the cable cut, and after the repair. -/
theorem test_cable_example :
    readOf (ringDev fun x => { x with hostB := true, number := 18, position := 18, a := { st := .down } }) 0x90000008 = some 0x3C121202 ∧
    readOf (ringDev fun x => { x with number := 18, position := 18 }) 0x90000008 = some 0x24121203 := by decide +kernel

/-- 08_connector.md, the card session: EVC_SESSION, EVC_PILOT and EVC_GRANT of S2 in CHARGING at 32 A. -/
theorem test_card_session_example :
    let d := dev.updEvc 2 fun x => { x with
      st := .charging, method := 1, lockOn := true, pilot := .C, pwmOn := true, drive := 3, duty := 533, highMv := 6000, lowMv := -12000, grant := 320 }
    readOf d 0x5020000C = some 0x50002400 ∧ readOf d 0x50200018 = some 0x2A153C88 ∧ readOf d 0x50200020 = some 0x01400000 := by
  decide +kernel

/-- 09_kaolin.md, the forced IMD trip of S6: KAO_STATE, KAO_ACTIVE and KAO_TRIP. -/
theorem test_confirm_example :
    let d : Dev := (kaoDev id).updKao 6 fun x => { x with
      st := .tripped, tripSource := 6, tripAction := 1, tripTest := true, active := 0x40, latched := 0x40 }
    let im : Image := { image with kinds := [1, 3, 4, 2, 2, 2, 3, 0] }
    let e : Dev := { d with img := { d.img with loaded := some im } }
    readOf e 0x60600000 = some 0x80000000 ∧ readOf e 0x60600004 = some 0x00400040 ∧ readOf e 0x60600008 = some 0x06010001 := by
  decide +kernel

/-- 07_billing.md, clock set back across an interval end: 11 kW for 300 s of 900 s is 3 666 666 mW, and for 1200 s of
1200 s 11 000 000 mW. -/
theorem test_demand_example : demandMw 916666666 300000000000 900000000000 = 3666666 ∧ demandMw 3666666666 1200000000000 900000000000 = 10999999 ∧
    demandMw 3666666667 1200000000000 900000000000 = 11000000 := by decide

/-- A delivery below the creep level and one above it. -/
theorem test_hyps_DeliveryKeepsEnergy : (∃ e : Engine, (deliveryEnergies e.dlv 0).creep = false) ∧
    ∃ e : Engine, (deliveryEnergies e.dlv 5).creep = true := ⟨⟨{}, by decide +kernel⟩, ⟨{ dlv := { n := 1 } }, by decide +kernel⟩⟩

end Sys2Proof.Tests
end

section
/-! SUPPORT. The flag register of R92 to R95: what a hardware set, a read and a clear write leave in it. -/

namespace Sys2Proof.Machine

/-- Adding up the weights of the bits that hold, in the model's order, builds the library's number of those bits. -/
theorem foldl_bitWeights_eq_ofBits {n : Nat} (p : Fin n → Bool) (k a : Nat) :
    (List.finRange n).foldl (fun acc i => acc + b1 (p i) * 2 ^ (k + i.val)) a = a + 2 ^ k * Nat.ofBits p := by
  induction n generalizing k a with
  | zero => simp
  | succ n ih =>
    have hb : b1 (p 0) = (p 0).toNat := by cases p 0 <;> rfl
    have hk : ∀ i : Fin n, k + i.succ.val = k + 1 + i.val := fun i => by simp only [Fin.val_succ]; omega
    rw [List.finRange_succ, List.foldl_cons, List.foldl_map]
    simp only [hk]
    rw [ih (fun i => p i.succ) (k + 1), Nat.ofBits_succ, hb]
    simp only [Fin.val_zero, Nat.add_zero, Function.comp_def]
    ring

theorem agentNum_lt (ag : Agent) : agentNum ag < 6 := by cases ag <;> decide

namespace FlagReg

/-! ### A hardware set (R93) -/

@[simp] theorem raise_count (f : FlagReg) (mask : Nat) : (f.raise mask).count = (f.count + 1) % 2 ^ 48 := rfl

@[simp] theorem keptOf_raise (f : FlagReg) (mask ag : Nat) : (f.raise mask).keptOf ag = f.keptOf ag := rfl

theorem getLsbD_raise_bits (f : FlagReg) (mask : Nat) (i : Fin 16) :
    (f.raise mask).bits.getLsbD i.val = (f.bits.getLsbD i.val || mask.testBit i.val) := by
  simp only [FlagReg.raise, BitVec.getLsbD_or, BitVec.getLsbD_ofNat, i.isLt, decide_true, Bool.true_and]

theorem lastSet_raise (f : FlagReg) (mask : Nat) (i : Fin 16) :
    (f.raise mask).lastSet[i] = if mask.testBit i.val = true then (f.count + 1) % 2 ^ 48 else f.lastSet[i] := by
  simp [FlagReg.raise]

/-! ### A read (R92, R94) -/

theorem word_toNat (f : FlagReg) : f.word.toNat = f.count % 2 ^ 16 * 2 ^ 16 + f.bits.toNat := by
  have hb := f.bits.isLt
  simp only [FlagReg.word, packW, pack, List.foldl, BitVec.toNat_ofNat]
  omega

theorem word_seq (f : FlagReg) : fld f.word 31 16 = f.count % 2 ^ 16 := by
  have hb := f.bits.isLt
  simp only [fld, Sys2Proof.Machine.bits, word_toNat]
  omega

theorem word_bits (f : FlagReg) : fld f.word 15 0 = f.bits.toNat := by
  have hb := f.bits.isLt
  simp only [fld, Sys2Proof.Machine.bits, word_toNat]
  omega

@[simp] theorem noteRead_bits (f : FlagReg) (ag : Nat) : (f.noteRead ag).bits = f.bits := rfl

theorem keptOf_noteRead_self (f : FlagReg) (ag : Agent) : (f.noteRead (agentNum ag)).keptOf (agentNum ag) = f.count := by
  rw [keptOf_noteRead _ _ _ (agentNum_lt ag), if_pos rfl]

theorem keptOf_noteRead_other (f : FlagReg) (ag other : Agent) (h : agentNum other ≠ agentNum ag) :
    (f.noteRead (agentNum ag)).keptOf (agentNum other) = f.keptOf (agentNum other) := by
  rw [keptOf_noteRead _ _ _ (agentNum_lt other), if_neg h]

/-! ### A clear write (R94, R95) -/

theorem accepts_iff (f : FlagReg) (ag token : Nat) : f.accepts ag token = true ↔ token = f.keptOf ag % 2 ^ 16 := by
  simp [FlagReg.accepts]

@[simp] theorem clear_count (f : FlagReg) (ag mask : Nat) : (f.clear ag mask).count = f.count := rfl

@[simp] theorem clear_lastSet (f : FlagReg) (ag mask : Nat) : (f.clear ag mask).lastSet = f.lastSet := rfl

theorem clears_iff (f : FlagReg) (ag mask : Nat) (i : Fin 16) :
    f.clears ag mask i = true ↔ mask.testBit i.val = true ∧ f.lastSet[i] ≤ f.keptOf ag := by
  simp [FlagReg.clears]

theorem clear_bits_eq_ofBits (f : FlagReg) (ag mask : Nat) :
    (f.clear ag mask).bits =
      BitVec.ofNat 16 (Nat.ofBits fun i : Fin 16 => f.bits.getLsbD i && !f.clears ag mask i) := by
  have h := foldl_bitWeights_eq_ofBits (fun i : Fin 16 => f.bits.getLsbD i && !f.clears ag mask i) 0 0
  simp only [Nat.zero_add, pow_zero, Nat.one_mul] at h
  exact congrArg (BitVec.ofNat 16) h

/-- A clear write leaves the bits that were set and that it does not clear. -/
theorem getLsbD_clear_bits (f : FlagReg) (ag mask : Nat) (i : Fin 16) :
    (f.clear ag mask).bits.getLsbD i.val = (f.bits.getLsbD i.val && !f.clears ag mask i) := by
  rw [clear_bits_eq_ofBits, BitVec.getLsbD_ofNat, Nat.testBit_ofBits_lt _ i.val i.isLt]
  simp

theorem getLsbD_clear_bits_iff (f : FlagReg) (ag mask : Nat) (i : Fin 16) :
    (f.clear ag mask).bits.getLsbD i.val = true ↔
      f.bits.getLsbD i.val = true ∧ ¬(mask.testBit i.val = true ∧ f.lastSet[i] ≤ f.keptOf ag) := by
  rw [getLsbD_clear_bits, ← clears_iff]
  simp

/-- A flag set after an agent's read carries a count above the one that agent keeps, so its clear write leaves it. -/
theorem getLsbD_clear_raise (f : FlagReg) (ag mask set : Nat) (i : Fin 16) (hc : f.count + 1 < 2 ^ 48)
    (hk : f.keptOf ag ≤ f.count) (hs : set.testBit i.val = true) :
    ((f.raise set).clear ag mask).bits.getLsbD i.val = true := by
  have hlast : (f.raise set).lastSet[i] = f.count + 1 := by
    rw [lastSet_raise, if_pos hs, Nat.mod_eq_of_lt hc]
  rw [getLsbD_clear_bits_iff]
  refine ⟨by rw [getLsbD_raise_bits, hs, Bool.or_true], fun ⟨_, hle⟩ => ?_⟩
  rw [hlast, keptOf_raise] at hle
  omega

end FlagReg

end Sys2Proof.Machine
end

section
/-! SUPPORT. Reads and clear writes of a flag register over the Lattice (R83, R94): what an access that no check refuses answers. -/

namespace Sys2Proof.Machine

/-- A read of a register that no check refuses. -/
theorem readAccess_run {d d1 : Dev} {ag : Agent} {g u a : Nat} {h : Dev → CmdSt × Word × Dev} {st : CmdSt} {w : Word}
    (hi : d.canIssue ag = true) (hg : d.granted ag g u .read = true) (hs : d.stoppedIsland g u = none)
    (hh : h d = (st, w, d1)) (hst : st ≠ .perm) : readAccess ag g u a h d = d1.answer ag st w := by
  unfold readAccess
  rw [if_neg (by simp [hi]), if_neg (by simp [hg]), hs, hh]
  cases st with
  | perm => exact absurd rfl hst
  | _ => rfl

/-- A read of a mapped address is the access of its register, once the agent is there and holds the grant; A5 reads
only what R324 lists. -/
theorem Dev.latticeRead_mapped {d : Dev} {ag : Agent} {addr : Nat} {r : RegAt} (hi : d.canIssue ag = true)
    (hg : d.granted ag (addrGroup addr) (addrUnit addr) .read = true) (hm : mapped addr = some r)
    (hk : ag = .kaolin → kaolinReads (addrGroup addr) r.row.id = true) :
    d.latticeRead ag addr = readAccess ag (addrGroup addr) (addrUnit addr) addr
      (fun x => x.readReg ag (addrGroup addr) (addrUnit addr) r
        (lattice (addrGroup addr) (addrUnit addr) (addrOff addr)) (addrStaged addr)) d := by
  have hk' : ¬(ag = .kaolin ∧ (!kaolinReads (addrGroup addr) r.row.id) = true) := fun ⟨ha, hn⟩ => by
    simp [hk ha] at hn
  simp only [Dev.latticeRead]
  rw [if_neg (by simp [hi]), if_neg (by simp [hg]), hm]
  exact if_neg hk'

/-- A write of a mapped address that is no command register is the access of its register. -/
theorem Dev.latticeWrite_mapped {d : Dev} {ag : Agent} {addr : Nat} {r : RegAt} (data : Word)
    (hc : isCmdAddr addr = false) (hi : d.canIssue ag = true)
    (hg : d.granted ag (addrGroup addr) (addrUnit addr) .write = true) (hm : mapped addr = some r) :
    d.latticeWrite ag addr data = writeAccess ag (addrGroup addr) (addrUnit addr) addr
      (fun x => x.writeReg (some ag) (addrGroup addr) (addrUnit addr) r
        (lattice (addrGroup addr) (addrUnit addr) (addrOff addr)) data) d := by
  simp only [Dev.latticeWrite]
  rw [if_neg (by simp [hc]), if_neg (by simp [hi]), if_neg (by simp [hg]), hm]

/-- With no released request waiting there is nothing to run on. -/
theorem Dev.settleReleased_of_resume_nil {d : Dev} (h : d.resume = []) : d.settleReleased = d := by
  unfold Dev.settleReleased
  generalize 9 * (d.hung.length + d.resume.length) = n
  cases n with
  | zero => rfl
  | succ n => rw [Dev.runReleased, h]

theorem exec_flagsRead (ag : Agent) (addr : Word) (s : State) :
    exec (.flagsRead ag addr) s = .next (s.put (s.dev.latticeRead ag addr.toNat)) := rfl

theorem exec_flagsClearWrite (ag : Agent) (addr data : Word) (s : State) :
    exec (.flagsClearWrite ag addr data) s = .next (s.put (s.dev.latticeWrite ag addr.toNat data).settleReleased) := rfl

theorem Dev.readReg_of_isFlags {d : Dev} {r : RegAt} (ag : Agent) (g u a : Nat) (staged : Bool)
    (hw : d.wideValue r = none) (hf : r.row.id.isFlags = true) :
    d.readReg ag g u r a staged =
      (.ok, (d.flagReg a).word, d.putFlag a ((d.flagReg a).noteRead (agentNum ag))) := by
  unfold Dev.readReg
  rw [hw]
  exact if_pos hf

theorem Dev.writeReg_of_isFlags {r : RegAt} (d : Dev) (who : Option Agent) (g u a : Nat) (data : Word)
    (hf : r.row.id.isFlags = true) : d.writeReg who g u r a data = d.clearFlags who a data := by
  unfold Dev.writeReg
  exact if_pos hf

theorem Dev.clearFlags_of_accepts {d : Dev} {ag : Agent} {a : Nat} {data : Word}
    (h : (d.flagReg a).accepts (agentNum ag) (fld data 31 16) = true) :
    d.clearFlags (some ag) a data = (.ok, d.putFlag a ((d.flagReg a).clear (agentNum ag) (fld data 15 0))) :=
  if_pos h

theorem Dev.clearFlags_of_not_accepts {d : Dev} {ag : Agent} {a : Nat} {data : Word}
    (h : (d.flagReg a).accepts (agentNum ag) (fld data 31 16) = false) :
    d.clearFlags (some ag) a data = (.arg, d) :=
  if_neg (by simp [h])

/-- FLAGS_READ of a flag register that no check refuses answers its word and keeps its count for the agent (R94). -/
theorem exec_flagsRead_run {ag : Agent} {addr : Word} {s : State} {r : RegAt} (hi : s.dev.canIssue ag = true)
    (hm : mapped addr.toNat = some r) (hf : r.row.id.isFlags = true)
    (hs : s.dev.stoppedIsland (addrGroup addr.toNat) (addrUnit addr.toNat) = none)
    (hg : s.dev.granted ag (addrGroup addr.toNat) (addrUnit addr.toNat) .read = true) (hw : s.dev.wideValue r = none)
    (hk : ag = .kaolin → kaolinReads (addrGroup addr.toNat) r.row.id = true) :
    let a := lattice (addrGroup addr.toNat) (addrUnit addr.toNat) (addrOff addr.toNat)
    exec (.flagsRead ag addr) s = .next (s.put
      ((s.dev.putFlag a ((s.dev.flagReg a).noteRead (agentNum ag))).answer ag .ok (s.dev.flagReg a).word)) := by
  intro a
  have heff := Dev.readReg_of_isFlags ag (addrGroup addr.toNat) (addrUnit addr.toNat) a (addrStaged addr.toNat) hw hf
  rw [exec_flagsRead, Dev.latticeRead_mapped hi hg hm hk, readAccess_run hi hg hs heff (by decide)]

/-- FLAGS_CLEAR_WRITE of a flag register that no check refuses completes as its clear write does. -/
theorem exec_flagsClearWrite_run {ag : Agent} {addr data : Word} {s : State} {r : RegAt} {st : CmdSt} {d1 : Dev}
    (hw : s.dev.canWrite ag (addrGroup addr.toNat) (addrUnit addr.toNat)) (hm : mapped addr.toNat = some r)
    (hf : r.row.id.isFlags = true) (hc : isCmdAddr addr.toNat = false) (hr : d1.resume = [])
    (heff : s.dev.clearFlags (some ag)
      (lattice (addrGroup addr.toNat) (addrUnit addr.toNat) (addrOff addr.toNat)) data = (st, d1)) (hst : st ≠ .perm) :
    exec (.flagsClearWrite ag addr data) s = .next (s.put (d1.answer ag st)) := by
  have ⟨hi, hg, _⟩ := hw
  rw [exec_flagsClearWrite, Dev.latticeWrite_mapped data hc hi hg hm,
    writeAccess_run hw ((Dev.writeReg_of_isFlags _ _ _ _ _ _ hf).trans heff) hst,
    Dev.settleReleased_of_resume_nil (d := d1.answer ag st) hr]

/-- Settles O4: the register's own laws, then the two accesses that no check refuses. -/
theorem flagRegisters : Obligations.FlagRegisters := by
  unfold Obligations.FlagRegisters
  refine ⟨?hardwareSet, ?word, ?read, FlagReg.accepts_iff, ?clear, FlagReg.getLsbD_clear_raise, ?access⟩
  case hardwareSet =>
    intro f mask
    exact ⟨f.raise_count mask, f.keptOf_raise mask, fun i => ⟨f.getLsbD_raise_bits mask i, f.lastSet_raise mask i⟩⟩
  case word => exact fun f => ⟨f.word_seq, f.word_bits⟩
  case read =>
    intro f ag other
    exact ⟨f.keptOf_noteRead_self ag, f.keptOf_noteRead_other ag other, f.noteRead_bits _⟩
  case clear =>
    intro f ag mask i
    exact ⟨f.clear_count ag mask, f.clear_lastSet ag mask, f.getLsbD_clear_bits_iff ag mask i⟩
  case access =>
    intro ag addr s r hi hm hf hs
    refine ⟨exec_flagsRead_run hi hm hf hs, fun hg hc hr data => ⟨fun hacc => ?_, fun hrej => ?_⟩⟩
    · exact exec_flagsClearWrite_run ⟨hi, hg, hs⟩ hm hf hc hr (Dev.clearFlags_of_accepts hacc) (by decide)
    · exact exec_flagsClearWrite_run ⟨hi, hg, hs⟩ hm hf hc hr (Dev.clearFlags_of_not_accepts hrej) (by decide)

end Sys2Proof.Machine
end

section
/-! SUPPORT. What a commit, a notice and a delivery do to the messages of the queues (R120, R121, R128), each said once. -/

namespace Sys2Proof.Machine

/-! ### The words that wait in a queue -/

/-- The words of a list of messages that were not delivered yet, in the order of delivery. -/
def waitingWords (ms : List QMsg) : List QData := ms.flatMap fun m => m.words.drop m.taken

@[simp] theorem waitingWords_nil : waitingWords [] = [] := rfl

@[simp] theorem waitingWords_cons (m : QMsg) (ms : List QMsg) :
    waitingWords (m :: ms) = m.words.drop m.taken ++ waitingWords ms := List.flatMap_cons

theorem QMsg.left_notified (m : QMsg) : ({ m with notified := true } : QMsg).left = m.left := rfl

theorem QMsg.length_drop_taken (m : QMsg) : (m.words.drop m.taken).length = m.left := List.length_drop

/-- The fill counts the words that wait. -/
theorem length_waitingWords (ms : List QMsg) : (waitingWords ms).length = (ms.map QMsg.left).sum := by
  simp only [waitingWords, List.length_flatMap, QMsg.length_drop_taken]

/-! ### Words leave from the front -/

theorem dropWords_of_left_le {n : Nat} {m : QMsg} (ms : List QMsg) (h : m.left ≤ n) :
    dropWords n (m :: ms) = dropWords (n - m.left) ms := if_pos h

theorem dropWords_of_lt_left {n : Nat} {m : QMsg} (ms : List QMsg) (h : n < m.left) :
    dropWords n (m :: ms) = { m with taken := m.taken + n } :: ms := if_neg (Nat.not_le.mpr h)

/-- A delivery of `n` words takes the first `n` of those that wait and leaves the others in their order (R120). -/
theorem waitingWords_dropWords (n : Nat) (ms : List QMsg) : waitingWords (dropWords n ms) = (waitingWords ms).drop n := by
  induction ms generalizing n with
  | nil => simp [dropWords]
  | cons m ms ih =>
    rw [waitingWords_cons, List.drop_append, QMsg.length_drop_taken, List.drop_drop]
    rcases Nat.lt_or_ge n m.left with h | h
    · rw [dropWords_of_lt_left ms h, waitingWords_cons, Nat.sub_eq_zero_of_le h.le, List.drop_zero]
    · have hgone : m.words.length ≤ m.taken + n := by unfold QMsg.left at h; omega
      rw [dropWords_of_left_le ms h, ih, List.drop_eq_nil_of_le hgone, List.nil_append]

theorem fill_dropWords (n : Nat) (ms : List QMsg) :
    ((dropWords n ms).map QMsg.left).sum = (ms.map QMsg.left).sum - n := by
  simp only [← length_waitingWords, waitingWords_dropWords, List.length_drop]

/-! ### A notice and a commit -/

/-- A notice marks the messages of its queue as notified and leaves the other queues as they are (R128). -/
theorem Dev.notice_at (d : Dev) (q k : Fin 64) :
    (d.notice q).que.q[k.val] =
      if k = q then { d.que.q[q.val] with msgs := d.que.q[q.val].msgs.map fun m => { m with notified := true } }
      else d.que.q[k.val] := by
  have hque : ((d.raiseQue q.val 0).updQ q fun x =>
      { x with msgs := x.msgs.map fun m => { m with notified := true } }).que.q[k.val] = _ := Dev.updQ_at ..
  unfold Dev.notice
  split <;> exact hque

/-- Outside the queues and the flags a notice changes nothing. -/
theorem Dev.notice_frame (d : Dev) (q : Fin 64) :
    d.notice q = { d with que := (d.notice q).que, flags := (d.notice q).flags } := by
  unfold Dev.notice
  split <;> rfl

/-- A message as its commit writes it (R115, R121). -/
def Dev.committed (d : Dev) (ws : List QData) : QMsg :=
  { words := ws, time := d.tim.now, since := d.el, notified := false, taken := 0 }

theorem Dev.committed_left (d : Dev) (ws : List QData) : (d.committed ws).left = ws.length := rfl

/-- A device with a message behind those of a queue. -/
def Dev.enqueue (d : Dev) (q : Fin 64) (ws : List QData) : Dev :=
  d.updQ q fun x => { x with msgs := x.msgs ++ [d.committed ws] }

theorem Dev.enqueue_at (d : Dev) (q k : Fin 64) (ws : List QData) :
    (d.enqueue q ws).que.q[k.val] =
      if k = q then { d.que.q[q.val] with msgs := d.que.q[q.val].msgs ++ [d.committed ws] } else d.que.q[k.val] :=
  Dev.updQ_at ..

theorem Dev.enqueue_frame (d : Dev) (q : Fin 64) (ws : List QData) : d.enqueue q ws = { d with que := (d.enqueue q ws).que } :=
  rfl

/-- A commit puts its message into the queue, and a notice may follow (R121, R128). -/
theorem Dev.commit_cases (d : Dev) (q : Fin 64) (ws : List QData) :
    d.commit q ws = d.enqueue q ws ∨ d.commit q ws = (d.enqueue q ws).notice q :=
  (ite_eq_or_eq _ _ _).symm

theorem Dev.commit_msgs_words (d : Dev) (q : Fin 64) (ws : List QData) :
    (d.commit q ws).que.q[q].msgs.map (·.words) = d.que.q[q].msgs.map (·.words) ++ [ws] := by
  rcases d.commit_cases q ws with h | h <;>
    simp [h, Dev.notice_at, Dev.enqueue_at, Dev.committed, Function.comp_def]

theorem Dev.commit_fill (d : Dev) (q : Fin 64) (ws : List QData) :
    (d.commit q ws).que.q[q].fill = d.que.q[q].fill + ws.length := by
  rcases d.commit_cases q ws with h | h <;>
    simp [h, Queue.fill, Dev.notice_at, Dev.enqueue_at, Dev.committed_left, QMsg.left_notified, Function.comp_def]

/-- A commit leaves every other queue as it is (R120). -/
theorem Dev.commit_at_ne (d : Dev) {q p : Fin 64} (ws : List QData) (hp : p ≠ q) :
    (d.commit q ws).que.q[p] = d.que.q[p] := by
  rcases d.commit_cases q ws with h | h <;> simp [h, Dev.notice_at, Dev.enqueue_at, hp]

/-- Outside the queues and the flags a commit changes nothing. -/
theorem Dev.commit_frame (d : Dev) (q : Fin 64) (ws : List QData) :
    d.commit q ws = { d with que := (d.commit q ws).que, flags := (d.commit q ws).flags } := by
  rcases d.commit_cases q ws with h | h <;> rw [h]
  · exact d.enqueue_frame q ws
  · exact (d.enqueue q ws).notice_frame q

/-- Settles O15: what a commit does to its own queue, to the others and to the device; then the deliveries. -/
theorem deliveryOrder : Obligations.DeliveryOrder := by
  unfold Obligations.DeliveryOrder
  constructor
  · intro d q ws
    exact ⟨d.commit_msgs_words q ws, d.commit_fill q ws, fun p hp => d.commit_at_ne ws hp, d.commit_frame q ws⟩
  · intro n ms _
    exact ⟨waitingWords_dropWords n ms, fill_dropWords n ms⟩

end Sys2Proof.Machine
end

section
/-! SUPPORT. How a space issues identifiers (R134): the three cases of an issue, and why a run without the end of a
quarantine ascends. -/

namespace Sys2Proof.Machine

namespace IdSpace

/-! ### One issue -/

/-- An issue waits while the quarantine runs. -/
theorem issue_of_quar {x : IdSpace} (sp el : Nat) (h : x.quar.isSome = true) :
    x.issue sp el = (none, { x with waiting := true }) := if_pos h

/-- Below the last index an issue carries the epoch and the next index; the last one starts the quarantine. -/
theorem issue_of_index_ne {x : IdSpace} (sp el : Nat) (h : x.quar = none) (hi : x.index ≠ 0xFFFFFF) :
    x.issue sp el = (some (x.epoch ++ (x.index + 1)),
      { x with
        index := x.index + 1, issued := true, lastIssue := el, waiting := false
        quar := if x.index + 1 = 0xFFFFFF then some el else none
        quarLen := if x.index + 1 = 0xFFFFFF then quarantineOf sp else x.quarLen }) := by
  simp only [issue, h, hi, if_false, Option.isSome_none, Bool.false_eq_true]

/-- After the last index an issue carries the next epoch and index 1. -/
theorem issue_of_index_eq {x : IdSpace} (sp el : Nat) (h : x.quar = none) (hi : x.index = 0xFFFFFF) :
    x.issue sp el = (some ((x.epoch + 1) ++ (1 : BitVec 24)),
      { x with epoch := x.epoch + 1, index := 1, issued := true, lastIssue := el, waiting := false, quar := none }) := by
  simp [issue, h, hi]

theorem index_succ_ne_zero {i : BitVec 24} (h : i ≠ 0xFFFFFF) : i + 1 ≠ 0 := by bv_omega

theorem quarOver_iff {x : IdSpace} {el : Nat} (now : Nat) (h : x.quar = some el) :
    x.quarOver now = true ↔ el + x.quarLen ≤ now := by
  simp [quarOver, h]

/-! ### A run of issues -/

/-- The identifier that a space issued last. -/
def last (x : IdSpace) : Word := x.epoch ++ x.index

/-- The next issue does not change the epoch: a space at its last index is in quarantine. -/
def keepsEpoch (x : IdSpace) : Prop := x.index = 0xFFFFFF → x.quar.isSome = true

theorem append_lt_append {e : BitVec 8} {i j : BitVec 24} (h : i < j) : e ++ i < e ++ j := by
  simp only [BitVec.lt_def, BitVec.toNat_append, ← Nat.shiftLeft_add_eq_or_of_lt (BitVec.isLt _)] at h ⊢
  omega

theorem index_lt_succ {i : BitVec 24} (h : i ≠ 0xFFFFFF) : i < i + 1 := by bv_omega

/-- No issue of a space that keeps its epoch lets it change the epoch at the next one. -/
theorem keepsEpoch_issue {x : IdSpace} (sp el : Nat) (h : x.keepsEpoch) : (x.issue sp el).2.keepsEpoch := by
  cases hq : x.quar with
  | some t => rwa [issue_of_quar sp el (by simp [hq])]
  | none =>
    have hi : x.index ≠ 0xFFFFFF := fun e => by simpa [hq] using h e
    rw [issue_of_index_ne sp el hq hi]
    exact fun e => Option.isSome_of_eq_some (if_pos e)

/-- A space that keeps its epoch issues an identifier above its last one, or none and keeps its last one. -/
theorem issue_ascends {x : IdSpace} (sp el : Nat) (h : x.keepsEpoch) :
    ((x.issue sp el).1 = none ∧ (x.issue sp el).2.last = x.last) ∨
    ((x.issue sp el).1 = some (x.issue sp el).2.last ∧ x.last < (x.issue sp el).2.last) := by
  cases hq : x.quar with
  | some t =>
    rw [issue_of_quar sp el (by simp [hq])]
    exact .inl ⟨rfl, rfl⟩
  | none =>
    have hi : x.index ≠ 0xFFFFFF := fun e => by simpa [hq] using h e
    rw [issue_of_index_ne sp el hq hi]
    exact .inr ⟨rfl, append_lt_append (index_lt_succ hi)⟩

theorem issueAll_cons (x : IdSpace) (sp el : Nat) (els : List Nat) :
    x.issueAll sp (el :: els) = (x.issue sp el).1.toList ++ (x.issue sp el).2.issueAll sp els := by
  rw [issueAll]
  split <;> simp [*]

/-- A run of issues that starts with the epoch kept ascends from the last identifier. -/
theorem pairwise_lt_last_cons_issueAll (sp : Nat) (els : List Nat) {x : IdSpace} (h : x.keepsEpoch) :
    (x.last :: x.issueAll sp els).Pairwise (· < ·) := by
  induction els generalizing x with
  | nil => exact List.pairwise_singleton ..
  | cons el els ih =>
    have hrest := ih (keepsEpoch_issue sp el h)
    rw [issueAll_cons]
    rcases issue_ascends sp el h with ⟨hnone, hlast⟩ | ⟨hsome, hlt⟩
    · rwa [hnone, Option.toList_none, List.nil_append, ← hlast]
    · rw [hsome, Option.toList_some, List.singleton_append]
      exact List.pairwise_cons_cons_iff_of_trans.mpr ⟨hlt, hrest⟩

/-- A run of issues without the end of a quarantine gives no identifier twice (R134). -/
theorem pairwise_ne_issueAll (sp : Nat) (els : List Nat) {x : IdSpace} (h : x.keepsEpoch) :
    (x.issueAll sp els).Pairwise (· ≠ ·) :=
  (pairwise_lt_last_cons_issueAll sp els h).of_cons.imp BitVec.ne_of_lt

end IdSpace

/-- Settles O17: the cases of one issue, then the runs, which ascend. -/
theorem identifiers : Obligations.Identifiers := by
  unfold Obligations.Identifiers
  refine ⟨fun x sp el now => ⟨fun h => ?waits, fun h hi => ?next, fun h hi => ?wraps, IdSpace.quarOver_iff now⟩,
    fun x sp els hi => IdSpace.pairwise_ne_issueAll sp els fun e => absurd e hi⟩
  case waits =>
    rw [IdSpace.issue_of_quar sp el h]
    exact ⟨rfl, rfl, rfl⟩
  case next =>
    rw [IdSpace.issue_of_index_ne sp el h hi]
    exact ⟨rfl, rfl, rfl, IdSpace.index_succ_ne_zero hi, fun hn => if_neg hn, fun he => ⟨if_pos he, if_pos he⟩⟩
  case wraps =>
    rw [IdSpace.issue_of_index_eq sp el h hi]
    exact ⟨rfl, rfl, rfl⟩

end Sys2Proof.Machine
end

section
/-! SUPPORT. Every command keeps the guard of the contactor drivers (R282, R314): the commands that a table of Kaolin's own
names one by one, the others by the lemma about their operation. -/

namespace Sys2Proof.Machine

theorem Dev_tripTestIssue_guarded (ag : Agent) (arg : BitVec 24) (d : Dev) (hg : d.kao.guarded) :
    (kaoRestricted ag 0x13 arg (argUnit arg) (fun d =>
      if argUnit arg < 8 ∧ !tripSource (argBits arg 15 8) then (.arg, d)
      else kaoCommand arg (tripTestCmd (argBits arg 15 8)) d) d).kao.guarded := by
  refine kaoRestricted_guarded _ _ _ _ _ _ (fun x hx => ?_) hg
  split
  · exact hx
  · exact kaoCommand_guarded _ _ _ (fun _ _ h => tripTestCmd_guarded _ _ _ h) hx

theorem confirmCmd_noArg_guarded (ag : Agent) (arg : BitVec 24) (d : Dev) (hg : d.kao.guarded) :
    (noArg arg (confirmCmd ag) d).2.kao.guarded := by
  unfold noArg
  split
  · exact confirmCmd_guarded ag d hg
  · exact hg

/-- Whatever command runs, in whatever state, it keeps the guard. -/
theorem exec_guarded {c : Instr} {s t : State} (hg : s.dev.kao.guarded) (h : exec c s = .next t) : t.dev.kao.guarded := by
  cases c <;> obtain rfl := Host.Outcome.next.inj h <;> clear h
  case confirm ag arg => exact kaoRestricted_guarded _ _ _ _ _ _ (fun x hx => confirmCmd_noArg_guarded ag arg x hx) hg
  case lockRelease ag arg =>
    exact kaoRestricted_guarded _ _ _ _ _ _
      (fun x hx => kaoCommand_guarded _ _ x (fun _ _ h => lockReleaseCmd_guarded _ _ h) hx) hg
  case resTest ag arg =>
    exact issueCommand_guarded _ _ _ _ _ _ _ (fun x hx => kaoCommand_guarded _ _ x (fun _ _ h => resTestCmd_guarded _ _ h) hx) hg
  case tripTest ag arg => exact Dev_tripTestIssue_guarded ag arg s.dev hg
  case coldReset cause => exact Dev_coldReset_guarded s.dev cause
  case wholeSecond => dsimp only; split <;> simp [hg]
  case residualSlewEnd => dsimp only; split <;> exact hg
  case dcStatusFrame port f => dsimp only; split <;> simp [hg]
  case panelWindowAccess ag write => cases write <;> simp [hg]
  case panelMemoryAccess ag write => cases write <;> simp [hg]
  all_goals simp [hg]

/-- Settles O59: a command keeps the guard, and so does the passing of time, which leaves Kaolin as it was. -/
theorem contactorsStayGuarded : Obligations.ContactorsStayGuarded := by
  unfold Obligations.ContactorsStayGuarded
  intro s t hg h
  unfold step at h
  split at h
  · obtain rfl := Host.Outcome.next.inj h
    have hkao : s.dev.tick.restartDue.kao = s.dev.kao := by simp
    exact (congrArg KaoState.guarded hkao).mpr hg
  case _ c rest _ => exact exec_guarded (s := { s with pending := rest }) hg h

end Sys2Proof.Machine
end

section
/-! SUPPORT. The frame of every operation that a command of a given scope calls: one lemma per operation, named after it,
which says that it leaves every part but those it names as it was. -/

namespace Sys2Proof.Machine

/-- The type of a part of the device. -/
@[reducible] def Part.State : Part → Type
  | .img => ImgState
  | .que => QueState
  | .tim => TimState
  | .mtr => MtrState
  | .bil => BilState
  | .evc => EvcState
  | .kao => KaoState
  | .lsw => LswState
  | .plc => PlcState
  | .key => KeyState
  | .tag => TagState
  | .pnl => PnlState
  | .sto => StoState
  | .aul => AulState
  | .pwr => PwrState

/-- The part of a device. -/
def Dev.part (d : Dev) : (pt : Part) → pt.State
  | .img => d.img
  | .que => d.que
  | .tim => d.tim
  | .mtr => d.mtr
  | .bil => d.bil
  | .evc => d.evc
  | .kao => d.kao
  | .lsw => d.lsw
  | .plc => d.plc
  | .key => d.key
  | .tag => d.tag
  | .pnl => d.pnl
  | .sto => d.sto
  | .aul => d.aul
  | .pwr => d.pwr

theorem Part.same_iff {pt : Part} {d e : Dev} : pt.same d e ↔ e.part pt = d.part pt := by
  cases pt <;> exact Iff.rfl

section
variable {pt : Part} {d : Dev} {regs staged views : RegFile} {flags : List (Nat × FlagReg)} {coreA1 : Bool} {reply : Reply}
  {replies : List Reply} {coreReply : Option Reply} {busy : List PendingCmd} {hung : List HungAccess} {resume : List Request}
  {permLog cfgLog : List RateLimit} {log : List LogEntry} {logSeq : Nat} {islandRun clockLost : BitVec 16} {fresh : Nat}

theorem Dev.part_mk :
    (⟨regs, staged, views, flags, coreA1, reply, replies, coreReply, busy, hung, resume, permLog, cfgLog, log, logSeq,
    islandRun, clockLost, d.img, d.que, d.tim, d.mtr, d.bil, d.evc, d.kao, d.lsw, d.plc, d.key, d.tag, d.pnl, d.sto, d.aul,
    d.pwr, fresh⟩ : Dev).part pt = d.part pt := by
  cases pt <;> rfl

theorem Dev.part_mk_img (h : pt ≠ .img) {x : ImgState} :
    (⟨regs, staged, views, flags, coreA1, reply, replies, coreReply, busy, hung, resume, permLog, cfgLog, log, logSeq,
    islandRun, clockLost, x, d.que, d.tim, d.mtr, d.bil, d.evc, d.kao, d.lsw, d.plc, d.key, d.tag, d.pnl, d.sto, d.aul,
    d.pwr, fresh⟩ : Dev).part pt = d.part pt := by
  cases pt <;> first | rfl | exact absurd rfl h

theorem Dev.part_mk_que (h : pt ≠ .que) {x : QueState} :
    (⟨regs, staged, views, flags, coreA1, reply, replies, coreReply, busy, hung, resume, permLog, cfgLog, log, logSeq,
    islandRun, clockLost, d.img, x, d.tim, d.mtr, d.bil, d.evc, d.kao, d.lsw, d.plc, d.key, d.tag, d.pnl, d.sto, d.aul,
    d.pwr, fresh⟩ : Dev).part pt = d.part pt := by
  cases pt <;> first | rfl | exact absurd rfl h

theorem Dev.part_mk_tim (h : pt ≠ .tim) {x : TimState} :
    (⟨regs, staged, views, flags, coreA1, reply, replies, coreReply, busy, hung, resume, permLog, cfgLog, log, logSeq,
    islandRun, clockLost, d.img, d.que, x, d.mtr, d.bil, d.evc, d.kao, d.lsw, d.plc, d.key, d.tag, d.pnl, d.sto, d.aul,
    d.pwr, fresh⟩ : Dev).part pt = d.part pt := by
  cases pt <;> first | rfl | exact absurd rfl h

theorem Dev.part_mk_mtr (h : pt ≠ .mtr) {x : MtrState} :
    (⟨regs, staged, views, flags, coreA1, reply, replies, coreReply, busy, hung, resume, permLog, cfgLog, log, logSeq,
    islandRun, clockLost, d.img, d.que, d.tim, x, d.bil, d.evc, d.kao, d.lsw, d.plc, d.key, d.tag, d.pnl, d.sto, d.aul,
    d.pwr, fresh⟩ : Dev).part pt = d.part pt := by
  cases pt <;> first | rfl | exact absurd rfl h

theorem Dev.part_mk_bil (h : pt ≠ .bil) {x : BilState} :
    (⟨regs, staged, views, flags, coreA1, reply, replies, coreReply, busy, hung, resume, permLog, cfgLog, log, logSeq,
    islandRun, clockLost, d.img, d.que, d.tim, d.mtr, x, d.evc, d.kao, d.lsw, d.plc, d.key, d.tag, d.pnl, d.sto, d.aul,
    d.pwr, fresh⟩ : Dev).part pt = d.part pt := by
  cases pt <;> first | rfl | exact absurd rfl h

theorem Dev.part_mk_evc (h : pt ≠ .evc) {x : EvcState} :
    (⟨regs, staged, views, flags, coreA1, reply, replies, coreReply, busy, hung, resume, permLog, cfgLog, log, logSeq,
    islandRun, clockLost, d.img, d.que, d.tim, d.mtr, d.bil, x, d.kao, d.lsw, d.plc, d.key, d.tag, d.pnl, d.sto, d.aul,
    d.pwr, fresh⟩ : Dev).part pt = d.part pt := by
  cases pt <;> first | rfl | exact absurd rfl h

theorem Dev.part_mk_kao (h : pt ≠ .kao) {x : KaoState} :
    (⟨regs, staged, views, flags, coreA1, reply, replies, coreReply, busy, hung, resume, permLog, cfgLog, log, logSeq,
    islandRun, clockLost, d.img, d.que, d.tim, d.mtr, d.bil, d.evc, x, d.lsw, d.plc, d.key, d.tag, d.pnl, d.sto, d.aul,
    d.pwr, fresh⟩ : Dev).part pt = d.part pt := by
  cases pt <;> first | rfl | exact absurd rfl h

theorem Dev.part_mk_lsw (h : pt ≠ .lsw) {x : LswState} :
    (⟨regs, staged, views, flags, coreA1, reply, replies, coreReply, busy, hung, resume, permLog, cfgLog, log, logSeq,
    islandRun, clockLost, d.img, d.que, d.tim, d.mtr, d.bil, d.evc, d.kao, x, d.plc, d.key, d.tag, d.pnl, d.sto, d.aul,
    d.pwr, fresh⟩ : Dev).part pt = d.part pt := by
  cases pt <;> first | rfl | exact absurd rfl h

theorem Dev.part_mk_plc (h : pt ≠ .plc) {x : PlcState} :
    (⟨regs, staged, views, flags, coreA1, reply, replies, coreReply, busy, hung, resume, permLog, cfgLog, log, logSeq,
    islandRun, clockLost, d.img, d.que, d.tim, d.mtr, d.bil, d.evc, d.kao, d.lsw, x, d.key, d.tag, d.pnl, d.sto, d.aul,
    d.pwr, fresh⟩ : Dev).part pt = d.part pt := by
  cases pt <;> first | rfl | exact absurd rfl h

theorem Dev.part_mk_key (h : pt ≠ .key) {x : KeyState} :
    (⟨regs, staged, views, flags, coreA1, reply, replies, coreReply, busy, hung, resume, permLog, cfgLog, log, logSeq,
    islandRun, clockLost, d.img, d.que, d.tim, d.mtr, d.bil, d.evc, d.kao, d.lsw, d.plc, x, d.tag, d.pnl, d.sto, d.aul,
    d.pwr, fresh⟩ : Dev).part pt = d.part pt := by
  cases pt <;> first | rfl | exact absurd rfl h

theorem Dev.part_mk_tag (h : pt ≠ .tag) {x : TagState} :
    (⟨regs, staged, views, flags, coreA1, reply, replies, coreReply, busy, hung, resume, permLog, cfgLog, log, logSeq,
    islandRun, clockLost, d.img, d.que, d.tim, d.mtr, d.bil, d.evc, d.kao, d.lsw, d.plc, d.key, x, d.pnl, d.sto, d.aul,
    d.pwr, fresh⟩ : Dev).part pt = d.part pt := by
  cases pt <;> first | rfl | exact absurd rfl h

theorem Dev.part_mk_pnl (h : pt ≠ .pnl) {x : PnlState} :
    (⟨regs, staged, views, flags, coreA1, reply, replies, coreReply, busy, hung, resume, permLog, cfgLog, log, logSeq,
    islandRun, clockLost, d.img, d.que, d.tim, d.mtr, d.bil, d.evc, d.kao, d.lsw, d.plc, d.key, d.tag, x, d.sto, d.aul,
    d.pwr, fresh⟩ : Dev).part pt = d.part pt := by
  cases pt <;> first | rfl | exact absurd rfl h

theorem Dev.part_mk_sto (h : pt ≠ .sto) {x : StoState} :
    (⟨regs, staged, views, flags, coreA1, reply, replies, coreReply, busy, hung, resume, permLog, cfgLog, log, logSeq,
    islandRun, clockLost, d.img, d.que, d.tim, d.mtr, d.bil, d.evc, d.kao, d.lsw, d.plc, d.key, d.tag, d.pnl, x, d.aul,
    d.pwr, fresh⟩ : Dev).part pt = d.part pt := by
  cases pt <;> first | rfl | exact absurd rfl h

theorem Dev.part_mk_aul (h : pt ≠ .aul) {x : AulState} :
    (⟨regs, staged, views, flags, coreA1, reply, replies, coreReply, busy, hung, resume, permLog, cfgLog, log, logSeq,
    islandRun, clockLost, d.img, d.que, d.tim, d.mtr, d.bil, d.evc, d.kao, d.lsw, d.plc, d.key, d.tag, d.pnl, d.sto, x,
    d.pwr, fresh⟩ : Dev).part pt = d.part pt := by
  cases pt <;> first | rfl | exact absurd rfl h

theorem Dev.part_mk_pwr (h : pt ≠ .pwr) {x : PwrState} :
    (⟨regs, staged, views, flags, coreA1, reply, replies, coreReply, busy, hung, resume, permLog, cfgLog, log, logSeq,
    islandRun, clockLost, d.img, d.que, d.tim, d.mtr, d.bil, d.evc, d.kao, d.lsw, d.plc, d.key, d.tag, d.pnl, d.sto, d.aul,
    x, fresh⟩ : Dev).part pt = d.part pt := by
  cases pt <;> first | rfl | exact absurd rfl h

theorem Dev.part_mk_key_tag (h : pt ≠ .key) (h' : pt ≠ .tag) {x : KeyState} {y : TagState} :
    (⟨regs, staged, views, flags, coreA1, reply, replies, coreReply, busy, hung, resume, permLog, cfgLog, log, logSeq,
    islandRun, clockLost, d.img, d.que, d.tim, d.mtr, d.bil, d.evc, d.kao, d.lsw, d.plc, x, y, d.pnl, d.sto, d.aul, d.pwr,
    fresh⟩ : Dev).part pt = d.part pt := by
  cases pt <;> first | rfl | exact absurd rfl h | exact absurd rfl h'

end

theorem Dev.part_ite {pt : Part} {c : Prop} [Decidable c] {d e : Dev} :
    (if c then d else e).part pt = if c then d.part pt else e.part pt := by
  split <;> rfl

/-- The device of a pair, by the name that a match gave it. -/
theorem part_of_eq {pt : Part} {α : Type} {x : α × Dev} {a : α} {d d1 : Dev} (h : x = (a, d1))
    (hx : x.2.part pt = d.part pt) :
    d1.part pt = d.part pt := by
  rw [h] at hx; exact hx

/-- A fold keeps what each of its steps keeps. -/
theorem foldl_part {pt : Part} {α : Type} (l : List α) (g : Dev → α → Dev) (d : Dev)
    (h : ∀ a x, (g a x).part pt = a.part pt) : (l.foldl g d).part pt = d.part pt := by
  induction l generalizing d with
  | nil => rfl
  | cons x xs ih => rw [List.foldl_cons, ih, h]

theorem Dev.setReg_part {pt : Part} (d : Dev) (g u off : Nat) (v : Word) : (Dev.setReg d g u off v).part pt = d.part pt := by
  simp only [↓Dev.part_mk, Dev.setReg]

theorem Dev.setRfld_part {pt : Part} (d : Dev) (g u off hi lo v : Nat) :
    (Dev.setRfld d g u off hi lo v).part pt = d.part pt := by
  simp only [Dev.setReg_part, Dev.setRfld]

theorem Dev.count_part {pt : Part} (d : Dev) (g u off hi lo : Nat) (k : Nat) :
    (Dev.count d g u off hi lo k).part pt = d.part pt := by
  simp only [Dev.setRfld_part, Dev.count]

theorem Dev.countMod_part {pt : Part} (d : Dev) (g u off hi lo : Nat) (k : Nat) :
    (Dev.countMod d g u off hi lo k).part pt = d.part pt := by
  simp only [Dev.setRfld_part, Dev.countMod]

theorem Dev.setView_part {pt : Part} (d : Dev) (ag : Agent) (addr : Nat) (v : Word) :
    (Dev.setView d ag addr v).part pt = d.part pt := by
  simp only [↓Dev.part_mk, Dev.setView]

theorem Dev.setViewBytes_part {pt : Part} (d : Dev) (ag : Agent) (a n : Nat) (bs : List Byte) :
    (Dev.setViewBytes d ag a n bs).part pt = d.part pt := by
  induction n generalizing d a bs with
  | zero => rfl
  | succ n ih => unfold Dev.setViewBytes; rw [ih, Dev.setView_part]

theorem Dev.round_part {pt : Part} (d : Dev) (q : Rat) : (Dev.round d q).2.part pt = d.part pt := by
  unfold Dev.round; split <;> simp only [↓Dev.part_mk]

theorem Dev.logEvent_part {pt : Part} (d : Dev) (g : Group) (event : Nat) (data : List Word) (ag : Option Agent) (sl : Nat) :
    (Dev.logEvent d g event data ag sl).part pt = d.part pt := by
  simp only [↓Dev.part_mk, Dev.logEvent]

theorem Dev.setRun_part {pt : Part} (d : Dev) (i : Nat) (on : Bool) : (Dev.setRun d i on).part pt = d.part pt := by
  simp only [↓Dev.part_mk, Dev.setRun]

theorem Dev.putInt_part {pt : Part} (d : Dev) (g u off : Nat) (v : Int) : (Dev.putInt d g u off v).part pt = d.part pt := by
  unfold Dev.putInt; split <;> simp only [Dev.setReg_part, ↓Dev.part_mk]

theorem Dev.putNat_part {pt : Part} (d : Dev) (g u off v : Nat) : (Dev.putNat d g u off v).part pt = d.part pt := by
  unfold Dev.putNat; split <;> simp only [Dev.setReg_part, ↓Dev.part_mk]

theorem Dev.updEvc_part {pt : Part} (hevc : pt ≠ .evc) (d : Dev) (n : Fin 8) (fr : EvcSlice → EvcSlice) :
    (Dev.updEvc d n fr).part pt = d.part pt := by
  simp only [↓Dev.part_mk_evc hevc, Dev.updEvc]

theorem Dev.updGp_part {pt : Part} (hevc : pt ≠ .evc) (d : Dev) (n : Fin 8) (fr : Modem → Modem) :
    (Dev.updGp d n fr).part pt = d.part pt := by
  simp only [↓Dev.part_mk_evc hevc, Dev.updGp]

theorem Dev.updLsw_part {pt : Part} (hlsw : pt ≠ .lsw) (d : Dev) (c : Fin 16) (fr : LswChan → LswChan) :
    (Dev.updLsw d c fr).part pt = d.part pt := by
  simp only [↓Dev.part_mk_lsw hlsw, Dev.updLsw]

theorem Dev.updEng_part {pt : Part} (hmtr : pt ≠ .mtr) (d : Dev) (u : Fin 9) (fr : Engine → Engine) :
    (Dev.updEng d u fr).part pt = d.part pt := by
  simp only [↓Dev.part_mk_mtr hmtr, Dev.updEng]

theorem Dev.updCh_part {pt : Part} (hmtr : pt ≠ .mtr) (d : Dev) (c : Fin 64) (fr : Chan → Chan) :
    (Dev.updCh d c fr).part pt = d.part pt := by
  simp only [↓Dev.part_mk_mtr hmtr, Dev.updCh]

theorem Dev.updPulse_part {pt : Part} (hmtr : pt ≠ .mtr) (d : Dev) (p : Fin 4) (fr : Pulse → Pulse) :
    (Dev.updPulse d p fr).part pt = d.part pt := by
  simp only [↓Dev.part_mk_mtr hmtr, Dev.updPulse]

theorem Dev.updBil_part {pt : Part} (hbil : pt ≠ .bil) (d : Dev) (n : Fin 8) (fr : BilSlice → BilSlice) :
    (Dev.updBil d n fr).part pt = d.part pt := by
  simp only [↓Dev.part_mk_bil hbil, Dev.updBil]

theorem Dev.updQ_part {pt : Part} (hque : pt ≠ .que) (d : Dev) (q : Fin 64) (fr : Queue → Queue) :
    (Dev.updQ d q fr).part pt = d.part pt := by
  simp only [↓Dev.part_mk_que hque, Dev.updQ]

theorem Dev.updSpace_part {pt : Part} (hque : pt ≠ .que) (d : Dev) (s : Fin 13) (fr : IdSpace → IdSpace) :
    (Dev.updSpace d s fr).part pt = d.part pt := by
  simp only [↓Dev.part_mk_que hque, Dev.updSpace]

theorem Dev.updKey_part {pt : Part} (hkey : pt ≠ .key) (d : Dev) (k : Fin 64) (fr : KeySlot → KeySlot) :
    (Dev.updKey d k fr).part pt = d.part pt := by
  simp only [↓Dev.part_mk_key hkey, Dev.updKey]

theorem Dev.updRgn_part {pt : Part} (hpnl : pt ≠ .pnl) (d : Dev) (r : Fin 16) (fr : Region → Region) :
    (Dev.updRgn d r fr).part pt = d.part pt := by
  simp only [↓Dev.part_mk_pnl hpnl, Dev.updRgn]

theorem Dev.updCmp_part {pt : Part} (htim : pt ≠ .tim) (d : Dev) (c : Fin 16) (fr : Cmp → Cmp) :
    (Dev.updCmp d c fr).part pt = d.part pt := by
  simp only [↓Dev.part_mk_tim htim, Dev.updCmp]

theorem Dev.updPort_part {pt : Part} (haul : pt ≠ .aul) (d : Dev) (portB : Bool) (fr : Port → Port) :
    (Dev.updPort d portB fr).part pt = d.part pt := by
  unfold Dev.updPort; split <;> simp only [↓Dev.part_mk_aul haul]

theorem Dev.swapUnit_part {pt : Part} (d : Dev) (g u : Nat) : (Dev.swapUnit d g u).part pt = d.part pt := by
  simp only [↓Dev.part_mk, Dev.swapUnit]

theorem Dev.putFlag_part {pt : Part} (d : Dev) (addr : Nat) (fr : FlagReg) :
    (Dev.putFlag d addr fr).part pt = d.part pt := by
  simp only [↓Dev.part_mk, Dev.putFlag]

theorem Dev.oneEvent_part {pt : Part} (d : Dev) (f : Dev → Dev) : (d.oneEvent f).part pt = (f d).part pt := rfl

theorem Dev.raise_part {pt : Part} (d : Dev) (g u off mask : Nat) : (Dev.raise d g u off mask).part pt = d.part pt := by
  simp only [Dev.putFlag_part, Dev.raise]

theorem Dev.raiseSys_part {pt : Part} (d : Dev) (b : Nat) : (Dev.raiseSys d b).part pt = d.part pt := by
  simp only [Dev.raise_part, Dev.raiseSys]

theorem Dev.raiseTim_part {pt : Part} (d : Dev) (b : Nat) : (Dev.raiseTim d b).part pt = d.part pt := by
  simp only [Dev.raise_part, Dev.raiseTim]

theorem Dev.raiseQue_part {pt : Part} (d : Dev) (q b : Nat) : (Dev.raiseQue d q b).part pt = d.part pt := by
  simp only [Dev.raise_part, Dev.raiseQue]

theorem Dev.raiseMtr_part {pt : Part} (d : Dev) (u b : Nat) : (Dev.raiseMtr d u b).part pt = d.part pt := by
  simp only [Dev.raise_part, Dev.raiseMtr]

theorem Dev.raiseBil_part {pt : Part} (d : Dev) (n b : Nat) : (Dev.raiseBil d n b).part pt = d.part pt := by
  simp only [Dev.raise_part, Dev.raiseBil]

theorem Dev.raiseEvc_part {pt : Part} (d : Dev) (n b : Nat) : (Dev.raiseEvc d n b).part pt = d.part pt := by
  simp only [Dev.raise_part, Dev.raiseEvc]

theorem Dev.raiseKao_part {pt : Part} (d : Dev) (b : Nat) : (Dev.raiseKao d b).part pt = d.part pt := by
  simp only [Dev.raise_part, Dev.raiseKao]

theorem Dev.raiseLsw_part {pt : Part} (d : Dev) (b : Nat) : (Dev.raiseLsw d b).part pt = d.part pt := by
  simp only [Dev.raise_part, Dev.raiseLsw]

theorem Dev.raisePlc_part {pt : Part} (d : Dev) (b : Nat) : (Dev.raisePlc d b).part pt = d.part pt := by
  simp only [Dev.raise_part, Dev.raisePlc]

theorem Dev.raiseAul_part {pt : Part} (d : Dev) (b : Nat) : (Dev.raiseAul d b).part pt = d.part pt := by
  simp only [Dev.raise_part, Dev.raiseAul]

theorem Dev.raiseKey_part {pt : Part} (d : Dev) (b : Nat) : (Dev.raiseKey d b).part pt = d.part pt := by
  simp only [Dev.raise_part, Dev.raiseKey]

theorem Dev.raiseTag_part {pt : Part} (d : Dev) (b : Nat) : (Dev.raiseTag d b).part pt = d.part pt := by
  simp only [Dev.raise_part, Dev.raiseTag]

theorem Dev.raisePnl_part {pt : Part} (d : Dev) (b : Nat) : (Dev.raisePnl d b).part pt = d.part pt := by
  simp only [Dev.raise_part, Dev.raisePnl]

theorem Dev.raiseSto_part {pt : Part} (d : Dev) (b : Nat) : (Dev.raiseSto d b).part pt = d.part pt := by
  simp only [Dev.raise_part, Dev.raiseSto]

theorem Dev.raisePwr_part {pt : Part} (d : Dev) (b : Nat) : (Dev.raisePwr d b).part pt = d.part pt := by
  simp only [Dev.raise_part, Dev.raisePwr]

theorem Dev.answer_part {pt : Part} (d : Dev) (ag : Agent) (st : CmdSt) (data : Word) :
    (Dev.answer d ag st data).part pt = d.part pt := by
  simp only [↓Dev.part_mk, Dev.answer]

theorem Dev.permReject_part {pt : Part} (d : Dev) (ag : Agent) (g : Nat) : (Dev.permReject d ag g).part pt = d.part pt := by
  unfold Dev.permReject; (repeat' split) <;> simp only [Dev.answer_part, Dev.count_part, Dev.logEvent_part,
    Dev.raiseSys_part, ↓Dev.part_mk]

theorem Dev.stateReject_part {pt : Part} (d : Dev) (ag : Agent) (g u op target : Nat) :
    (Dev.stateReject d ag g u op target).part pt = d.part pt := by
  simp only [Dev.answer_part, Dev.count_part, Dev.logEvent_part, Dev.raiseSys_part, Dev.stateReject]

theorem Dev.noteCommand_part {pt : Part} (d : Dev) (ag : Agent) (g op : Nat) (st : CmdSt) :
    (Dev.noteCommand d ag g op st).part pt = d.part pt := by
  simp only [Dev.setView_part, Dev.noteCommand]

theorem Dev.endCommand_part {pt : Part} (d : Dev) (g : Nat) (st : CmdSt) : (Dev.endCommand d g st).part pt = d.part pt := by
  unfold Dev.endCommand; dsimp only; (repeat' split) <;> simp only [Dev.setView_part, ↓Dev.part_mk]

@[simp] theorem issueCommand_part {pt : Part} (ag : Agent) (g op : Nat) (arg : BitVec 24) (u : Nat) (h : Dev → CmdSt × Dev) (d : Dev)
    (hk : (h d).2.part pt = d.part pt) : (issueCommand ag g op arg u h d).part pt = d.part pt := by
  unfold issueCommand
  (repeat' split) <;> (try rename_i he; rw [he] at hk) <;> simp only [Dev.answer_part, Dev.noteCommand_part,
    Dev.permReject_part, Dev.stateReject_part, ↓Dev.part_mk] <;> exact hk

@[simp] theorem noArg_part {pt : Part} (arg : BitVec 24) (h : Dev → CmdSt × Dev) (d : Dev) (hk : (h d).2.part pt = d.part pt) :
    (noArg arg h d).2.part pt = d.part pt := by
  unfold noArg; split <;> simp only [hk]

theorem Dev.hang_part {pt : Part} (d : Dev) (ag : Agent) (isl addr : Nat) :
    (Dev.hang d ag isl addr).part pt = d.part pt := by
  simp only [Dev.answer_part, ↓Dev.part_mk, Dev.hang]

@[simp] theorem writeAccess_part {pt : Part} (ag : Agent) (g u a : Nat) (h : Dev → CmdSt × Dev) (d : Dev)
    (hk : (h d).2.part pt = d.part pt) :
    (writeAccess ag g u a h d).part pt = d.part pt := by
  unfold writeAccess
  (repeat' split) <;> (try rename_i he; rw [he] at hk) <;> simp only [Dev.answer_part, Dev.hang_part, Dev.permReject_part];
    exact hk

@[simp] theorem readAccess_part {pt : Part} (ag : Agent) (g u a : Nat) (h : Dev → CmdSt × Word × Dev) (d : Dev)
    (hk : (h d).2.2.part pt = d.part pt) : (readAccess ag g u a h d).part pt = d.part pt := by
  unfold readAccess
  (repeat' split) <;> (try rename_i he; rw [he] at hk) <;> simp only [Dev.answer_part, Dev.hang_part, Dev.permReject_part];
    exact hk

theorem Dev.writeFields_part {pt : Part} (d : Dev) (row : RegDef) (addr : Nat) (hold : Nat) (data : Word) :
    (Dev.writeFields d row addr hold data).part pt = d.part pt := by
  unfold Dev.writeFields; simp only [↓Dev.part_mk, Dev.part_ite, ite_self]

@[simp] theorem Dev.ran_part {pt : Part} (htim : pt ≠ .tim) (d : Dev) (key : Nat) : (Dev.ran d key).part pt = d.part pt := by
  simp only [↓Dev.part_mk_tim htim, Dev.ran]

theorem Dev.noteErr_part {pt : Part} (hbil : pt ≠ .bil) (d : Dev) : (Dev.noteErr d).part pt = d.part pt := by
  simp only [↓Dev.part_mk_bil hbil, Dev.noteErr]

theorem Dev.holdover_part {pt : Part} (htim : pt ≠ .tim) (d : Dev) : (Dev.holdover d).part pt = d.part pt := by
  unfold Dev.holdover; split <;> simp only [↓Dev.part_mk_tim htim]

theorem Dev.servoOffset_part {pt : Part} (htim : pt ≠ .tim) (d : Dev) (mesh : Bool) (off : Int) :
    (Dev.servoOffset d mesh off).part pt = d.part pt := by
  unfold Dev.servoOffset; simp only [↓Dev.part_mk_tim htim, Dev.part_ite, ite_self]

theorem Dev.servoLock_part {pt : Part} (hbil : pt ≠ .bil) (htim : pt ≠ .tim) (d : Dev) (offs : List Int) :
    (Dev.servoLock d offs).part pt = d.part pt := by
  unfold Dev.servoLock; rw [Dev.oneEvent_part]; simp only [Dev.noteErr_part hbil, Dev.raiseTim_part, Dev.round_part,
    Dev.setReg_part, ↓Dev.part_mk_tim htim, Dev.part_ite, ite_self]

theorem Dev.servoEnd_part {pt : Part} (hbil : pt ≠ .bil) (htim : pt ≠ .tim) (d : Dev) :
    (Dev.servoEnd d).part pt = d.part pt := by
  unfold Dev.servoEnd; simp only [Dev.holdover_part htim, Dev.raiseTim_part, Dev.servoLock_part hbil htim,
    ↓Dev.part_mk_tim htim, Dev.part_ite, ite_self]

@[simp] theorem Dev.servoIntervalEnd_part {pt : Part} (hbil : pt ≠ .bil) (htim : pt ≠ .tim) (d : Dev) :
    (Dev.servoIntervalEnd d).part pt = d.part pt := by
  unfold Dev.servoIntervalEnd; (repeat' split) <;> simp only [Dev.ran_part htim, Dev.servoEnd_part hbil htim,
    Dev.swapUnit_part, ↓Dev.part_mk_tim htim]

@[simp] theorem Dev.writeOffset_part {pt : Part} (htim : pt ≠ .tim) (d : Dev) (data : Word) :
    (Dev.writeOffset d data).2.part pt = d.part pt := by
  unfold Dev.writeOffset; split <;> simp only [Dev.servoOffset_part htim]

theorem Dev.fireCmp_part {pt : Part} (hpwr : pt ≠ .pwr) (htim : pt ≠ .tim) (d : Dev) (c : Fin 16) (step late : Bool) :
    (Dev.fireCmp d c step late).part pt = d.part pt := by
  unfold Dev.fireCmp; simp only [Dev.raise_part, Dev.updCmp_part htim, ↓Dev.part_mk_pwr hpwr, Dev.part_ite, ite_self]

@[simp] theorem Dev.cmpFire_part {pt : Part} (hpwr : pt ≠ .pwr) (htim : pt ≠ .tim) (d : Dev) (c : Fin 16) :
    (Dev.cmpFire d c).part pt = d.part pt := by
  unfold Dev.cmpFire; split <;> simp only [Dev.fireCmp_part hpwr htim]

@[simp] theorem Dev.writeCmpTarget_part {pt : Part} (hpwr : pt ≠ .pwr) (htim : pt ≠ .tim) (d : Dev) (c : Fin 16) (target : Word) :
    (Dev.writeCmpTarget d c target).part pt = d.part pt := by
  unfold Dev.writeCmpTarget; simp only [Dev.fireCmp_part hpwr htim, Dev.updCmp_part htim, Dev.part_ite, ite_self]

@[simp] theorem Dev.writeCmpCtrl_part {pt : Part} (htim : pt ≠ .tim) (d : Dev) (c : Fin 16) (ctrl : Word) :
    (Dev.writeCmpCtrl d c ctrl).part pt = d.part pt := by
  unfold Dev.writeCmpCtrl; split <;> simp only [Dev.setReg_part, Dev.updCmp_part htim]

@[simp] theorem Dev.writeAlmHi_part {pt : Part} (htim : pt ≠ .tim) (d : Dev) (a : Fin 8) (hi : Word) :
    (Dev.writeAlmHi d a hi).part pt = d.part pt := by
  simp only [Dev.setReg_part, ↓Dev.part_mk_tim htim, Dev.writeAlmHi]

theorem Dev.disarmAlm_part {pt : Part} (htim : pt ≠ .tim) (d : Dev) (a : Nat) : (Dev.disarmAlm d a).part pt = d.part pt := by
  simp only [↓Dev.part_mk_tim htim, Dev.disarmAlm]

@[simp] theorem Dev.almFire_part {pt : Part} (htim : pt ≠ .tim) (d : Dev) (a : Fin 8) : (Dev.almFire d a).part pt = d.part pt := by
  unfold Dev.almFire; split <;> simp only [Dev.disarmAlm_part htim, Dev.raiseTim_part]

@[simp] theorem Dev.captureEdge_part {pt : Part} (htim : pt ≠ .tim) (d : Dev) (src : CapSource) (rising : Bool) :
    (Dev.captureEdge d src rising).part pt = d.part pt := by
  unfold Dev.captureEdge; simp only [Dev.countMod_part, ↓Dev.part_mk_tim htim, Dev.part_ite, ite_self, foldl_part,
    implies_true]

theorem Dev.applyLeap_part {pt : Part} (d : Dev) : (Dev.applyLeap d).part pt = d.part pt := by
  simp only [Dev.raiseTim_part, Dev.setReg_part, Dev.applyLeap]

@[simp] theorem Dev.leapApply_part {pt : Part} (d : Dev) : (Dev.leapApply d).part pt = d.part pt := by
  unfold Dev.leapApply; split <;> simp only [Dev.applyLeap_part]

@[simp] theorem Dev.saveRtc_part {pt : Part} (htim : pt ≠ .tim) (d : Dev) : (Dev.saveRtc d).part pt = d.part pt := by
  simp only [↓Dev.part_mk_tim htim, Dev.saveRtc]

@[simp] theorem timeSetCmd_part {pt : Part} (htim : pt ≠ .tim) (arg : BitVec 24) (d : Dev) :
    (timeSetCmd arg d).2.part pt = d.part pt := by
  unfold timeSetCmd; split <;> simp only [↓Dev.part_mk_tim htim]

@[simp] theorem timeAdjustCmd_part {pt : Part} (htim : pt ≠ .tim) (arg : BitVec 24) (d : Dev) :
    (timeAdjustCmd arg d).2.part pt = d.part pt := by
  unfold timeAdjustCmd; extract_lets; split
  · exact Dev.part_mk_tim htim
  · rfl

@[simp] theorem alarmCancelCmd_part {pt : Part} (htim : pt ≠ .tim) (arg : BitVec 24) (d : Dev) :
    (alarmCancelCmd arg d).2.part pt = d.part pt := by
  unfold alarmCancelCmd; split <;> simp only [Dev.disarmAlm_part htim]

theorem Dev.notice_part {pt : Part} (hque : pt ≠ .que) (d : Dev) (q : Fin 64) : (Dev.notice d q).part pt = d.part pt := by
  unfold Dev.notice; split <;> simp only [Dev.raiseQue_part, Dev.updQ_part hque, ↓Dev.part_mk_que hque]

theorem Dev.commit_part {pt : Part} (hque : pt ≠ .que) (d : Dev) (q : Fin 64) (ws : List QData) :
    (Dev.commit d q ws).part pt = d.part pt := by
  unfold Dev.commit; simp only [Dev.notice_part hque, Dev.updQ_part hque, Dev.part_ite, ite_self]

theorem Dev.produce_part {pt : Part} (hque : pt ≠ .que) (d : Dev) (q : Fin 64) (ws : List QData) :
    (Dev.produce d q ws).part pt = d.part pt := by
  unfold Dev.produce; simp only [Dev.commit_part hque, Dev.count_part, Dev.raise_part, Dev.raiseQue_part,
    Dev.updQ_part hque, Dev.part_ite, ite_self]

theorem Dev.issueId_part {pt : Part} (hque : pt ≠ .que) (d : Dev) (s : Fin 13) :
    (Dev.issueId d s).2.part pt = d.part pt := by
  simp only [Dev.updSpace_part hque, Dev.issueId]

theorem Dev.adoptEpoch_part {pt : Part} (hque : pt ≠ .que) (d : Dev) (q ident : Nat) :
    (Dev.adoptEpoch d q ident).part pt = d.part pt := by
  unfold Dev.adoptEpoch; simp only [Dev.updSpace_part hque, Dev.part_ite, ite_self]

theorem Dev.dropStale_part {pt : Part} (hque : pt ≠ .que) (q : Fin 64) (ms : List QMsg) (d : Dev) :
    (Dev.dropStale q ms d).part pt = d.part pt := by
  induction ms generalizing d with
  | nil => rfl
  | cons m ms ih =>
    unfold Dev.dropStale
    (repeat' split) <;> simp only [ih, Dev.raiseQue_part, Dev.count_part, Dev.updQ_part hque]

theorem Dev.freshFront_part {pt : Part} (hque : pt ≠ .que) (d : Dev) (q : Fin 64) :
    (Dev.freshFront d q).part pt = d.part pt := by
  simp only [Dev.dropStale_part hque, Dev.freshFront]

theorem Dev.countCorrected_part {pt : Part} (d : Dev) (q : Nat) : (Dev.countCorrected d q).part pt = d.part pt := by
  simp only [Dev.count_part, Dev.raiseQue_part, Dev.countCorrected]

theorem Dev.countPoison_part {pt : Part} (d : Dev) (q : Nat) : (Dev.countPoison d q).part pt = d.part pt := by
  simp only [Dev.count_part, Dev.raiseQue_part, Dev.countPoison]

theorem Dev.countSingles_part {pt : Part} (d : Dev) (q : Nat) (cs : List WordCheck) :
    (Dev.countSingles d q cs).part pt = d.part pt := by
  unfold Dev.countSingles; simp only [Dev.countCorrected_part, Dev.part_ite, ite_self, foldl_part, implies_true,
    Dev.part_ite]

theorem Dev.noteTurn_part {pt : Part} (hque : pt ≠ .que) (d : Dev) (q : Fin 64) :
    (Dev.noteTurn d q).part pt = d.part pt := by
  simp only [↓Dev.part_mk_que hque, Dev.noteTurn]

theorem Dev.nextQueue_part {pt : Part} (d : Dev) (cons : Nat) (can : Fin 64 → Bool) :
    (Dev.nextQueue d cons can).2.part pt = d.part pt := by
  unfold Dev.nextQueue; dsimp only; (repeat' split) <;> simp only [↓Dev.part_mk]

theorem Dev.takeMsg_part {pt : Part} (hque : pt ≠ .que) (d : Dev) (q : Fin 64) (cs : List WordCheck) :
    (Dev.takeMsg d q cs).2.part pt = d.part pt := by
  unfold Dev.takeMsg; dsimp only; (repeat' split) <;> simp only [Dev.adoptEpoch_part hque, Dev.countPoison_part,
    Dev.countSingles_part, Dev.freshFront_part hque, Dev.noteTurn_part hque, Dev.updQ_part hque]

theorem Dev.portDone_part {pt : Part} (hque : pt ≠ .que) (d : Dev) (result : Nat) (w : QData) :
    (Dev.portDone d result w).part pt = d.part pt := by
  simp only [↓Dev.part_mk_que hque, Dev.portDone]

theorem Dev.portWordRead_part {pt : Part} (hque : pt ≠ .que) (d : Dev) (q : Fin 64) (cs : List WordCheck) :
    (Dev.portWordRead d q cs).part pt = d.part pt := by
  unfold Dev.portWordRead; (repeat' split) <;> simp only [Dev.adoptEpoch_part hque, Dev.countCorrected_part,
    Dev.countPoison_part, Dev.countSingles_part, Dev.portDone_part hque, Dev.updQ_part hque]

@[simp] theorem Dev.portRead_part {pt : Part} (hque : pt ≠ .que) (d : Dev) (q : Fin 64) (cs : List WordCheck) :
    (Dev.portRead d q cs).part pt = d.part pt := by
  unfold Dev.portRead; (repeat' split) <;> simp only [Dev.freshFront_part hque, Dev.portDone_part hque,
    Dev.portWordRead_part hque, ↓Dev.part_mk_que hque]

@[simp] theorem Dev.portWrite_part {pt : Part} (hque : pt ≠ .que) (d : Dev) (q : Fin 64) (data : QData) (mark : Bool) :
    (Dev.portWrite d q data mark).part pt = d.part pt := by
  unfold Dev.portWrite; simp only [Dev.commit_part hque, Dev.count_part, Dev.portDone_part hque, Dev.raiseQue_part,
    Dev.updQ_part hque, Dev.part_ite, ite_self]

@[simp] theorem Dev.noticeHold_part {pt : Part} (hque : pt ≠ .que) (d : Dev) (q : Fin 64) :
    (Dev.noticeHold d q).part pt = d.part pt := by
  unfold Dev.noticeHold; dsimp only; (repeat' split) <;> simp only [Dev.notice_part hque]

@[simp] theorem queFlushCmd_part {pt : Part} (hque : pt ≠ .que) (arg : BitVec 24) (d : Dev) :
    (queFlushCmd arg d).2.part pt = d.part pt := by
  unfold queFlushCmd; dsimp only; (repeat' split) <;> simp only [Dev.count_part, Dev.updQ_part hque]

@[simp] theorem queCountClearCmd_part {pt : Part} (arg : BitVec 24) (d : Dev) : (queCountClearCmd arg d).2.part pt = d.part pt := by
  unfold queCountClearCmd; (repeat' split) <;> simp only [Dev.setReg_part]

theorem Dev.delayed_part {pt : Part} (d : Dev) (phase : Int) (codes : List (Rat × Nat)) :
    (Dev.delayed d phase codes).2.part pt = d.part pt := by
  unfold Dev.delayed; split <;> simp only [↓Dev.part_mk]

theorem Dev.calibrate_part {pt : Part} (d : Dev) (ch : Nat) (code : Int) (gain : Nat) (past : List (Rat × Nat)) :
    (Dev.calibrate d ch code gain past).2.part pt = d.part pt := by
  simp only [Dev.delayed_part, Dev.calibrate]

theorem Dev.sampleChannel_part {pt : Part} (hmtr : pt ≠ .mtr) (d : Dev) (ch : Fin 64) (codes : Int × Int) :
    (Dev.sampleChannel d ch codes).part pt = d.part pt := by
  unfold Dev.sampleChannel
  extract_lets cur c auto fromA
  generalize (if cur then c.instant auto codes.1 codes.2 else (c, false)) = sw
  obtain ⟨c1, switched⟩ := sw
  dsimp -zeta only
  extract_lets d1 d2
  have h2 : d2.part pt = d.part pt := by simp only [d2, d1, Dev.count_part, Dev.updCh_part hmtr, Dev.part_ite, ite_self]
  split
  · exact h2
  split
  · generalize (if fromA = true then (codes.fst, if cur = true then c.gain else 0) else (codes.snd, 0)) = cg
    obtain ⟨code, gain⟩ := cg
    dsimp -zeta only
    have h3 := Dev.calibrate_part (pt := pt) d2 ch.val code gain c.past
    generalize d2.calibrate ch.val code gain c.past = e at h3 ⊢
    obtain ⟨x, d3⟩ := e
    dsimp -zeta only at h3 ⊢
    extract_lets cap
    have h4 : (if cap then d3.round x else (0, d3)).2.part pt = d3.part pt := by split <;> simp only [Dev.round_part]
    split
    · rw [Dev.updEng_part hmtr, Dev.updCh_part hmtr, h4, h3, h2]
    · rw [Dev.updCh_part hmtr, h4, h3, h2]
  · exact h2

theorem Dev.samplePhase_part {pt : Part} (hmtr : pt ≠ .mtr) (d : Dev) (n : Fin 8) (p : Fin 3) :
    (Dev.samplePhase d n p).part pt = d.part pt := by
  simp only [Dev.updEng_part hmtr, ↓Dev.part_mk, Dev.samplePhase]

theorem Dev.sampleSlice_part {pt : Part} (hmtr : pt ≠ .mtr) (d : Dev) (n : Fin 8) :
    (Dev.sampleSlice d n).part pt = d.part pt := by
  simp only [Dev.samplePhase_part hmtr, Dev.updEng_part hmtr, foldl_part, implies_true, Dev.sampleSlice]

theorem Dev.samplePulse_part {pt : Part} (hmtr : pt ≠ .mtr) (d : Dev) (p : Fin 4) (n : Nat) (act react : Rat) :
    (Dev.samplePulse d p n act react).part pt = d.part pt := by
  unfold Dev.samplePulse; simp only [Dev.raiseMtr_part, Dev.updPulse_part hmtr, ↓Dev.part_mk_mtr hmtr, Dev.part_ite,
    ite_self, Dev.part_ite]

@[simp] theorem Dev.pulseEmit_part {pt : Part} (hmtr : pt ≠ .mtr) (d : Dev) (p : Fin 4) :
    (Dev.pulseEmit d p).part pt = d.part pt := by
  unfold Dev.pulseEmit; simp only [Dev.updPulse_part hmtr, ↓Dev.part_mk_mtr hmtr, Dev.part_ite, ite_self]

theorem Dev.sampleEngine_part {pt : Part} (hmtr : pt ≠ .mtr) (d : Dev) (n : Fin 8) :
    (Dev.sampleEngine d n).part pt = d.part pt := by
  unfold Dev.sampleEngine; split <;> simp only [Dev.samplePulse_part hmtr, Dev.sampleSlice_part hmtr, foldl_part,
    implies_true]

theorem Dev.countCaptures_part {pt : Part} (hmtr : pt ≠ .mtr) (d : Dev) (dieB : Bool) :
    (Dev.countCaptures d dieB).part pt = d.part pt := by
  unfold Dev.countCaptures; simp only [Dev.updEng_part hmtr, Dev.part_ite, ite_self, foldl_part, implies_true]

theorem Dev.takeSamples_part {pt : Part} (hmtr : pt ≠ .mtr) (d : Dev) (dieB : Bool) (codes : List (Int × Int)) :
    (Dev.takeSamples d dieB codes).part pt = d.part pt := by
  simp only [Dev.countCaptures_part hmtr, Dev.sampleChannel_part hmtr, Dev.sampleEngine_part hmtr, foldl_part,
    implies_true, Dev.takeSamples]

theorem Dev.roundSqrt_part {pt : Part} (d : Dev) (q : Rat) : (Dev.roundSqrt d q).2.part pt = d.part pt := by
  unfold Dev.roundSqrt; dsimp only; (repeat' split) <;> simp only [↓Dev.part_mk]

theorem Dev.publishChannel_part {pt : Part} (hmtr : pt ≠ .mtr) (d : Dev) (ch : Fin 64) :
    (Dev.publishChannel d ch).part pt = d.part pt := by
  unfold Dev.publishChannel; dsimp only; (repeat' split) <;> simp only [Dev.putInt_part, Dev.putNat_part, Dev.round_part,
    Dev.roundSqrt_part, Dev.updCh_part hmtr]

theorem Dev.apparent_part {pt : Part} (d : Dev) (x : Sums) (p : Fin 3) : (Dev.apparent d x p).2.part pt = d.part pt := by
  unfold Dev.apparent; split <;> simp only [Dev.roundSqrt_part]

theorem Dev.publishPhase_part {pt : Part} (d : Dev) (n : Fin 8) (x : Sums) (p : Fin 3) :
    (Dev.publishPhase d n x p).part pt = d.part pt := by
  unfold Dev.publishPhase; split <;> simp only [Dev.apparent_part, Dev.putInt_part, Dev.putNat_part, Dev.round_part]

theorem Dev.apparentTotal_part {pt : Part} (d : Dev) (x : Sums) : (Dev.apparentTotal d x).2.part pt = d.part pt := by
  unfold Dev.apparentTotal; dsimp only; (repeat' split) <;> simp only [↓Dev.part_mk]

theorem Dev.publishTotals_part {pt : Part} (d : Dev) (n : Nat) (x : Sums) :
    (Dev.publishTotals d n x).part pt = d.part pt := by
  unfold Dev.publishTotals; dsimp only; (repeat' split) <;> simp only [Dev.apparentTotal_part, Dev.putInt_part,
    Dev.putNat_part, Dev.round_part, Dev.setReg_part]

theorem Dev.mtrSend_part {pt : Part} (hque : pt ≠ .que) (hmtr : pt ≠ .mtr) (d : Dev) (n : Fin 8) (ws : List QData) :
    (Dev.mtrSend d n ws).part pt = d.part pt := by
  unfold Dev.mtrSend; dsimp only; (repeat' split) <;> simp only [Dev.commit_part hque, Dev.raiseMtr_part,
    Dev.raiseQue_part, Dev.updEng_part hmtr]

theorem Dev.sendPq_part {pt : Part} (hque : pt ≠ .que) (hmtr : pt ≠ .mtr) (d : Dev) (u : Fin 9) (ph : Nat) (st : PqState)
    (ending : Bool) (refreshes ext : Nat) :
    (Dev.sendPq d u ph st ending refreshes ext).part pt = d.part pt := by
  unfold Dev.sendPq; split <;> simp only [Dev.mtrSend_part hque hmtr]

theorem Dev.startCapture_part {pt : Part} (hmtr : pt ≠ .mtr) (d : Dev) (n : Fin 8) :
    (Dev.startCapture d n).part pt = d.part pt := by
  simp only [Dev.updCh_part hmtr, Dev.updEng_part hmtr, foldl_part, implies_true, Dev.startCapture]

theorem Dev.pqCapture_part {pt : Part} (hmtr : pt ≠ .mtr) (d : Dev) (u : Fin 9) :
    (Dev.pqCapture d u).part pt = d.part pt := by
  unfold Dev.pqCapture; (repeat' split) <;> simp only [Dev.startCapture_part hmtr]

theorem Dev.pqEnd_part {pt : Part} (hque : pt ≠ .que) (hmtr : pt ≠ .mtr) (d : Dev) (u : Fin 9) (ph : Fin 3) (x : PqPhase) :
    (Dev.pqEnd d u ph x).part pt = d.part pt := by
  simp only [Dev.pqCapture_part hmtr, Dev.raiseMtr_part, Dev.sendPq_part hque hmtr, Dev.pqEnd]

theorem Dev.pqStart_part {pt : Part} (hque : pt ≠ .que) (hmtr : pt ≠ .mtr) (d : Dev) (u : Fin 9) (ph : Fin 3)
    (st : PqState) (uv : Nat) :
    (Dev.pqStart d u ph st uv).part pt = d.part pt := by
  simp only [Dev.count_part, Dev.pqCapture_part hmtr, Dev.raiseMtr_part, Dev.sendPq_part hque hmtr, Dev.pqStart]

theorem Dev.pqRefresh_part {pt : Part} (hque : pt ≠ .que) (hmtr : pt ≠ .mtr) (d : Dev) (u : Fin 9) (ph : Fin 3)
    (uv : Nat) : (Dev.pqRefresh d u ph uv).part pt = d.part pt := by
  unfold Dev.pqRefresh; simp only [Dev.pqEnd_part hque hmtr, Dev.pqStart_part hque hmtr, Dev.updEng_part hmtr,
    Dev.part_ite, ite_self]

theorem Dev.writeGain_part {pt : Part} (hmtr : pt ≠ .mtr) (d : Dev) (ch : Fin 64) (data : Word) :
    (Dev.writeGain d ch data).part pt = d.part pt := by
  unfold Dev.writeGain; simp only [Dev.setRfld_part, Dev.updCh_part hmtr, Dev.part_ite, ite_self]

theorem Dev.gainWrite_part {pt : Part} (hmtr : pt ≠ .mtr) (d : Dev) (ch : Fin 64) (data : Word) :
    (Dev.gainWrite d ch data).2.part pt = d.part pt := by
  unfold Dev.gainWrite; split <;> simp only [Dev.writeGain_part hmtr]

@[simp] theorem pqCountClearCmd_part {pt : Part} (arg : BitVec 24) (d : Dev) : (pqCountClearCmd arg d).2.part pt = d.part pt := by
  unfold pqCountClearCmd; dsimp only; (repeat' split) <;> simp only [Dev.setReg_part]

@[simp] theorem captureCmd_part {pt : Part} (hmtr : pt ≠ .mtr) (arg : BitVec 24) (d : Dev) :
    (captureCmd arg d).2.part pt = d.part pt := by
  unfold captureCmd; dsimp only; (repeat' split) <;> simp only [Dev.startCapture_part hmtr]

@[simp] theorem Dev.captureComplete_part {pt : Part} (hque : pt ≠ .que) (hmtr : pt ≠ .mtr) (d : Dev) (n : Fin 8) :
    (Dev.captureComplete d n).part pt = d.part pt := by
  unfold Dev.captureComplete; dsimp only; (repeat' split) <;> simp only [Dev.produce_part hque, Dev.updCh_part hmtr,
    Dev.updEng_part hmtr, foldl_part, implies_true]

theorem Dev.thd_part {pt : Part} (d : Dev) (xs : List Nat) : (Dev.thd d xs).2.part pt = d.part pt := by
  unfold Dev.thd; dsimp only; split <;> simp only [Dev.roundSqrt_part, ↓Dev.part_mk]

theorem Dev.withThd_part {pt : Part} (rs : List (Nat × List Nat)) (d : Dev) : (Dev.withThd rs d).2.part pt = d.part pt := by
  induction rs generalizing d with
  | nil => rfl
  | cons r rs ih => simp only [Dev.withThd, ih, Dev.thd_part]

@[simp] theorem Dev.harmonicEnd_part {pt : Part} (hmtr : pt ≠ .mtr) (d : Dev) (u : Fin 9) (k : Nat) (rs : List (Nat × List Nat)) :
    (Dev.harmonicEnd d u k rs).part pt = d.part pt := by
  unfold Dev.harmonicEnd; split <;> simp only [Dev.updEng_part hmtr, Dev.withThd_part]

@[simp] theorem Dev.mtrGainWrite_part {pt : Part} (hmtr : pt ≠ .mtr) (d : Dev) (ag : Agent) (addr : Nat) (data : Word) :
    (Dev.mtrGainWrite d ag addr data).part pt = d.part pt := by
  unfold Dev.mtrGainWrite; dsimp only; (repeat' split) <;> simp only [Dev.gainWrite_part hmtr, writeAccess_part]

theorem Dev.storeWrite_part {pt : Part} (hsto : pt ≠ .sto) (d : Dev) (addr : Nat) (bs : List Byte) :
    (Dev.storeWrite d addr bs).part pt = d.part pt := by
  simp only [↓Dev.part_mk_sto hsto, Dev.storeWrite]

theorem Dev.tamper_part {pt : Part} (hbil : pt ≠ .bil) (d : Dev) (k : Fin 24) (sl : Option (Fin 8)) :
    (Dev.tamper d k sl).part pt = d.part pt := by
  unfold Dev.tamper; split <;> simp only [Dev.logEvent_part, Dev.updBil_part hbil, ↓Dev.part_mk_bil hbil, foldl_part,
    implies_true]

theorem Dev.closeDelivery_part {pt : Part} (hmtr : pt ≠ .mtr) (hbil : pt ≠ .bil) (d : Dev) (n : Fin 8) :
    (Dev.closeDelivery d n).part pt = d.part pt := by
  unfold Dev.closeDelivery; simp only [Dev.tamper_part hbil, Dev.updBil_part hbil, Dev.updEng_part hmtr, Dev.part_ite,
    ite_self, Dev.part_ite]

@[simp] theorem Dev.midPeriod_part {pt : Part} (hmtr : pt ≠ .mtr) (hbil : pt ≠ .bil) (d : Dev) (n : Fin 8) :
    (Dev.midPeriod d n).part pt = d.part pt := by
  unfold Dev.midPeriod; split <;> simp only [Dev.closeDelivery_part hmtr hbil, Dev.updEng_part hmtr]

theorem Dev.addReading_part {pt : Part} (hbil : pt ≠ .bil) (d : Dev) (n : Fin 8) (kind t : Nat) (ag : Agent)
    (nonce : List Byte) :
    (Dev.addReading d n kind t ag nonce).part pt = d.part pt := by
  simp only [Dev.updBil_part hbil, ↓Dev.part_mk_bil hbil, Dev.addReading]

theorem Dev.reading_part {pt : Part} (hbil : pt ≠ .bil) (d : Dev) (n : Fin 8) (kind t : Nat) :
    (Dev.reading d n kind t).part pt = d.part pt := by
  simp only [Dev.addReading_part hbil, Dev.reading]

theorem Dev.resetMd_part {pt : Part} (hbil : pt ≠ .bil) (d : Dev) (n : Fin 8) : (Dev.resetMd d n).part pt = d.part pt := by
  simp only [Dev.tamper_part hbil, Dev.updBil_part hbil, Dev.resetMd]

theorem Dev.writeBilCfg_part {pt : Part} (hbil : pt ≠ .bil) (d : Dev) (who : Option Agent) (n : Fin 8) (data : Word) :
    (Dev.writeBilCfg d who n data).2.part pt = d.part pt := by
  unfold Dev.writeBilCfg; dsimp only; (repeat' split) <;> simp only [Dev.logEvent_part, Dev.tamper_part hbil,
    Dev.writeFields_part]

theorem Dev.buildKarurn_part {pt : Part} (hbil : pt ≠ .bil) (d : Dev) (n : Fin 8) (reason tEnd : Nat) (extra : Byte) :
    (Dev.buildKarurn d n reason tEnd extra).part pt = d.part pt := by
  unfold Dev.buildKarurn; split <;> simp only [Dev.updBil_part hbil, ↓Dev.part_mk_bil hbil]

theorem Dev.sessionEnd_part {pt : Part} (hmtr : pt ≠ .mtr) (hbil : pt ≠ .bil) (d : Dev) (n : Fin 8) (reason : Nat) :
    (Dev.sessionEnd d n reason).part pt = d.part pt := by
  simp only [Dev.buildKarurn_part hbil, Dev.midPeriod_part hmtr hbil, Dev.reading_part hbil, Dev.sessionEnd]

theorem Dev.sessionStart_part {pt : Part} (hmtr : pt ≠ .mtr) (hbil : pt ≠ .bil) (d : Dev) (n : Fin 8) (sid : Word)
    (method : Nat) (r : List Word) : (Dev.sessionStart d n sid method r).part pt = d.part pt := by
  simp only [Dev.updBil_part hbil, Dev.midPeriod_part hmtr hbil, Dev.reading_part hbil, Dev.sessionStart]

@[simp] theorem readSignedCmd_part {pt : Part} (hmtr : pt ≠ .mtr) (hbil : pt ≠ .bil) (ag : Agent) (arg : BitVec 24) (d : Dev) :
    (readSignedCmd ag arg d).2.part pt = d.part pt := by
  unfold readSignedCmd; dsimp only; (repeat' split) <;> simp only [Dev.addReading_part hbil, Dev.midPeriod_part hmtr hbil]

@[simp] theorem mdResetCmd_part {pt : Part} (hbil : pt ≠ .bil) (arg : BitVec 24) (d : Dev) :
    (mdResetCmd arg d).2.part pt = d.part pt := by
  unfold mdResetCmd; (repeat' split) <;> simp only [Dev.resetMd_part hbil, foldl_part, implies_true]

@[simp] theorem calArmCmd_part {pt : Part} (hbil : pt ≠ .bil) (d : Dev) : (calArmCmd d).2.part pt = d.part pt := by
  unfold calArmCmd; dsimp only; (repeat' split) <;> simp only [Dev.tamper_part hbil, ↓Dev.part_mk_bil hbil]

@[simp] theorem calCancelCmd_part {pt : Part} (hbil : pt ≠ .bil) (d : Dev) : (calCancelCmd d).2.part pt = d.part pt := by
  unfold calCancelCmd; split <;> simp only [↓Dev.part_mk_bil hbil]

theorem Dev.putOverride_part {pt : Part} (hbil : pt ≠ .bil) (d : Dev) (mask tariff start minutes : Nat) :
    (Dev.putOverride d mask tariff start minutes).part pt = d.part pt := by
  simp only [Dev.updBil_part hbil, foldl_part, implies_true, Dev.putOverride]

@[simp] theorem overrideCmdSt_part {pt : Part} (hbil : pt ≠ .bil) (d : Dev) : (overrideCmdSt d).2.part pt = d.part pt := by
  unfold overrideCmdSt; dsimp only; (repeat' split) <;> simp only [Dev.putOverride_part hbil]

@[simp] theorem Dev.billingCfgWrite_part {pt : Part} (hbil : pt ≠ .bil) (d : Dev) (ag : Agent) (addr : Nat) (data : Word) :
    (Dev.billingCfgWrite d ag addr data).part pt = d.part pt := by
  unfold Dev.billingCfgWrite; split <;> simp only [Dev.writeBilCfg_part hbil, writeAccess_part]

theorem Dev.orphan_part {pt : Part} (hkey : pt ≠ .key) (d : Dev) (k : Fin 64) : (Dev.orphan d k).part pt = d.part pt := by
  unfold Dev.orphan; split <;> simp only [Dev.raiseKey_part, Dev.updKey_part hkey]

theorem Dev.discardCopy_part {pt : Part} (hkey : pt ≠ .key) (d : Dev) (k : Fin 64) :
    (Dev.discardCopy d k).part pt = d.part pt := by
  simp only [Dev.updKey_part hkey, Dev.discardCopy]

theorem Dev.orphanRooted_part {pt : Part} (hkey : pt ≠ .key) (d : Dev) : (Dev.orphanRooted d).part pt = d.part pt := by
  unfold Dev.orphanRooted; rw [foldl_part]
  intro a x; dsimp only; (repeat' split) <;> simp only [Dev.discardCopy_part hkey, Dev.orphan_part hkey]

theorem Dev.exhaust_part {pt : Part} (hkey : pt ≠ .key) (d : Dev) (k : Fin 64) : (Dev.exhaust d k).part pt = d.part pt := by
  unfold Dev.exhaust; simp only [Dev.raiseKey_part, Dev.updKey_part hkey, Dev.part_ite, ite_self]

theorem Dev.useKey_part {pt : Part} (hkey : pt ≠ .key) (d : Dev) (k : Fin 64) : (Dev.useKey d k).part pt = d.part pt := by
  simp only [Dev.exhaust_part hkey, Dev.updKey_part hkey, Dev.useKey]

@[simp] theorem Dev.useCommit_part {pt : Part} (hkey : pt ≠ .key) (d : Dev) (k : Fin 64) :
    (Dev.useCommit d k).part pt = d.part pt := by
  unfold Dev.useCommit; simp only [Dev.updKey_part hkey, Dev.part_ite, ite_self]

theorem Dev.drawWide_part {pt : Part} (d : Dev) : (Dev.drawWide d).2.part pt = d.part pt := by
  simp only [↓Dev.part_mk, Dev.drawWide]

@[simp] theorem Dev.remask_part {pt : Part} (hkey : pt ≠ .key) (htag : pt ≠ .tag) (d : Dev) :
    (Dev.remask d).part pt = d.part pt := by
  unfold Dev.remask
  split
  · split
    · exact (Dev.part_mk_key_tag hkey htag).trans (Dev.drawWide_part d)
    · rfl
  · rfl

theorem Dev.loseRoot_part {pt : Part} (hkey : pt ≠ .key) (d : Dev) : (Dev.loseRoot d).part pt = d.part pt := by
  simp only [Dev.orphanRooted_part hkey, ↓Dev.part_mk_key hkey, Dev.loseRoot]

theorem Dev.stage_part {pt : Part} (hkey : pt ≠ .key) (d : Dev) (k : Fin 64) (c : KeyCopy) (msg exp : BitVec 256)
    (generated : Bool) :
    (Dev.stage d k c msg exp generated).part pt = d.part pt := by
  simp only [Dev.updKey_part hkey, Dev.stage]

theorem Dev.stageCert_part {pt : Part} (hkey : pt ≠ .key) (d : Dev) (k : Fin 64) (blob : List Byte) :
    (Dev.stageCert d k blob).2.part pt = d.part pt := by
  unfold Dev.stageCert; dsimp only; (repeat' split) <;> simp only [Dev.raiseKey_part, Dev.stage_part hkey]

theorem Dev.stageSecret_part {pt : Part} (hkey : pt ≠ .key) (d : Dev) (k : Fin 64) (blob : List Byte) (z : BitVec 256)
    (user : Fin 64) :
    (Dev.stageSecret d k blob z user).2.part pt = d.part pt := by
  unfold Dev.stageSecret; (repeat' split) <;> simp only [Dev.stage_part hkey, Dev.useKey_part hkey]

@[simp] theorem keyStageCmd_part {pt : Part} (hkey : pt ≠ .key) (ag : Agent) (arg : BitVec 24) (d : Dev) :
    (keyStageCmd ag arg d).2.part pt = d.part pt := by
  unfold keyStageCmd; dsimp only; (repeat' split) <;> simp only [Dev.stageCert_part hkey, Dev.stageSecret_part hkey]

@[simp] theorem keyGenCmd_part {pt : Part} (hkey : pt ≠ .key) (ag : Agent) (arg : BitVec 24) (d : Dev) :
    (keyGenCmd ag arg d).2.part pt = d.part pt := by
  unfold keyGenCmd; dsimp only; (repeat' split) <;> simp only [Dev.drawWide_part, Dev.stage_part hkey]

@[simp] theorem keyVerifyCmd_part {pt : Part} (hkey : pt ≠ .key) (arg : BitVec 24) (d : Dev) :
    (keyVerifyCmd arg d).2.part pt = d.part pt := by
  unfold keyVerifyCmd; dsimp only; (repeat' split) <;> simp only [Dev.raiseKey_part, Dev.updKey_part hkey, ↓Dev.part_mk]

@[simp] theorem keyDiscardCmd_part {pt : Part} (hkey : pt ≠ .key) (arg : BitVec 24) (d : Dev) :
    (keyDiscardCmd arg d).2.part pt = d.part pt := by
  unfold keyDiscardCmd; (repeat' split) <;> simp only [Dev.updKey_part hkey]

@[simp] theorem keyDestroyCmd_part {pt : Part} (hkey : pt ≠ .key) (arg : BitVec 24) (d : Dev) :
    (keyDestroyCmd arg d).2.part pt = d.part pt := by
  unfold keyDestroyCmd; dsimp only; (repeat' split) <;> simp only [Dev.orphan_part hkey, Dev.updKey_part hkey, foldl_part,
    implies_true]

@[simp] theorem keyRespondCmd_part {pt : Part} (hkey : pt ≠ .key) (ag : Agent) (arg : BitVec 24) (d : Dev) :
    (keyRespondCmd ag arg d).2.part pt = d.part pt := by
  unfold keyRespondCmd; (repeat' split) <;> simp only [Dev.setViewBytes_part, Dev.useKey_part hkey]

@[simp] theorem keyChallengeCmd_part {pt : Part} (ag : Agent) (arg : BitVec 24) (d : Dev) :
    (keyChallengeCmd ag arg d).2.part pt = d.part pt := by
  unfold keyChallengeCmd; dsimp only; (repeat' split) <;> simp only [Dev.drawWide_part, Dev.setViewBytes_part]

@[simp] theorem keyCheckCmd_part {pt : Part} (hkey : pt ≠ .key) (ag : Agent) (arg : BitVec 24) (d : Dev) :
    (keyCheckCmd ag arg d).2.part pt = d.part pt := by
  unfold keyCheckCmd; (repeat' split) <;> simp only [Dev.setViewBytes_part, Dev.useKey_part hkey]

@[simp] theorem keyAttestCmd_part {pt : Part} (hkey : pt ≠ .key) (ag : Agent) (arg : BitVec 24) (d : Dev) :
    (keyAttestCmd ag arg d).2.part pt = d.part pt := by
  unfold keyAttestCmd; dsimp only; (repeat' split) <;> simp only [Dev.setViewBytes_part, Dev.useKey_part hkey, ↓Dev.part_mk]

theorem Dev.signBytes_part {pt : Part} (hkey : pt ≠ .key) (d : Dev) (bs : List Byte) :
    (Dev.signBytes d bs).2.part pt = d.part pt := by
  unfold Dev.signBytes; split <;> simp only [Dev.raiseKey_part, Dev.useKey_part hkey, ↓Dev.part_mk]

theorem Dev.keepRecord_part {pt : Part} (hbil : pt ≠ .bil) (d : Dev) (j : SignJob) (bs : List Byte) :
    (Dev.keepRecord d j bs).part pt = d.part pt := by
  simp only [Dev.raiseBil_part, ↓Dev.part_mk_bil hbil, Dev.keepRecord]

theorem Dev.writeKept_part {pt : Part} (hque : pt ≠ .que) (hbil : pt ≠ .bil) (d : Dev) (q : Fin 64) :
    (Dev.writeKept d q).part pt = d.part pt := by
  simp only [Dev.produce_part hque, ↓Dev.part_mk_bil hbil, foldl_part, implies_true, Dev.writeKept]

theorem Dev.deliverBlock_part {pt : Part} (hque : pt ≠ .que) (hbil : pt ≠ .bil) (d : Dev) (j : SignJob) (bs : List Byte) :
    (Dev.deliverBlock d j bs).part pt = d.part pt := by
  unfold Dev.deliverBlock; (repeat' split) <;> simp only [Dev.keepRecord_part hbil, Dev.produce_part hque,
    Dev.writeKept_part hque hbil]

@[simp] theorem Dev.signNext_part {pt : Part} (hque : pt ≠ .que) (hbil : pt ≠ .bil) (hkey : pt ≠ .key) (d : Dev) :
    (Dev.signNext d).part pt = d.part pt := by
  unfold Dev.signNext; split <;> simp only [Dev.deliverBlock_part hque hbil, Dev.signBytes_part hkey, ↓Dev.part_mk_bil hbil]

@[simp] theorem Dev.tamperInactive_part {pt : Part} (hkey : pt ≠ .key) (d : Dev) : (Dev.tamperInactive d).part pt = d.part pt := by
  simp only [↓Dev.part_mk_key hkey, Dev.tamperInactive]

@[simp] theorem Dev.keyCommand_part {pt : Part} (d : Dev) (ag : Agent) (op : Nat) (arg : BitVec 24) (h : Dev → CmdSt × Dev)
    (hk : (h d).2.part pt = d.part pt) : (d.keyCommand ag op arg h).part pt = d.part pt := by
  unfold Dev.keyCommand; simp only [issueCommand_part, hk]

theorem Dev.rdrSend_part {pt : Part} (hque : pt ≠ .que) (d : Dev) (ty : Nat) (body : List QData) :
    (Dev.rdrSend d ty body).part pt = d.part pt := by
  unfold Dev.rdrSend; split <;> simp only [Dev.produce_part hque]

theorem Dev.svcSend_part {pt : Part} (hque : pt ≠ .que) (d : Dev) (ty : Nat) (body : List QData) :
    (Dev.svcSend d ty body).part pt = d.part pt := by
  unfold Dev.svcSend; split <;> simp only [Dev.produce_part hque]

theorem Dev.svcEvent_part {pt : Part} (hque : pt ≠ .que) (d : Dev) (ev cause : Nat) :
    (Dev.svcEvent d ev cause).part pt = d.part pt := by
  simp only [Dev.svcSend_part hque, Dev.svcEvent]

theorem Dev.rdrFieldOff_part {pt : Part} (htag : pt ≠ .tag) (d : Dev) : (Dev.rdrFieldOff d).part pt = d.part pt := by
  simp only [Dev.setRun_part, ↓Dev.part_mk_tag htag, Dev.rdrFieldOff]

theorem Dev.cardSeen_part {pt : Part} (hque : pt ≠ .que) (d : Dev) (c : Card) : (Dev.cardSeen d c).part pt = d.part pt := by
  simp only [Dev.count_part, Dev.raiseTag_part, Dev.rdrSend_part hque, Dev.cardSeen]

theorem Dev.pollMissed_part {pt : Part} (htag : pt ≠ .tag) (d : Dev) : (Dev.pollMissed d).part pt = d.part pt := by
  simp only [Dev.rdrFieldOff_part htag, ↓Dev.part_mk_tag htag, Dev.pollMissed]

theorem Dev.pollFound_part {pt : Part} (hque : pt ≠ .que) (htag : pt ≠ .tag) (d : Dev) (c : Card) :
    (Dev.pollFound d c).part pt = d.part pt := by
  unfold Dev.pollFound; split <;> simp only [Dev.cardSeen_part hque, Dev.rdrFieldOff_part htag, Dev.setRun_part,
    ↓Dev.part_mk_tag htag]

@[simp] theorem Dev.readerPoll_part {pt : Part} (hque : pt ≠ .que) (htag : pt ≠ .tag) (d : Dev) (card : Option Card) :
    (Dev.readerPoll d card).part pt = d.part pt := by
  unfold Dev.readerPoll; (repeat' split) <;> simp only [Dev.pollFound_part hque htag, Dev.pollMissed_part htag,
    Dev.raiseTag_part, ↓Dev.part_mk_tag htag]

theorem Dev.rdrRx_part {pt : Part} (hque : pt ≠ .que) (d : Dev) (status : Nat) (bs : List Byte) :
    (Dev.rdrRx d status bs).part pt = d.part pt := by
  simp only [Dev.rdrSend_part hque, Dev.rdrRx]

theorem Dev.exchangeFail_part {pt : Part} (hque : pt ≠ .que) (htag : pt ≠ .tag) (d : Dev) (status : Nat) :
    (Dev.exchangeFail d status).part pt = d.part pt := by
  simp only [Dev.count_part, Dev.rdrFieldOff_part htag, Dev.rdrRx_part hque, Dev.exchangeFail]

@[simp] theorem Dev.readerExchange_part {pt : Part} (hque : pt ≠ .que) (htag : pt ≠ .tag) (d : Dev) (q : Fin 64)
    (cs : List WordCheck) (answer : CardAnswer) :
    (Dev.readerExchange d q cs answer).part pt = d.part pt := by
  unfold Dev.readerExchange; grind [Dev.takeMsg_part, Dev.rdrFieldOff_part, Dev.rdrRx_part,
    Dev.exchangeFail_part, Dev.answer_part, Dev.part_mk_tag]

@[simp] theorem Dev.readerTimeout_part {pt : Part} (hque : pt ≠ .que) (htag : pt ≠ .tag) (d : Dev) (cardLost : Bool) :
    (Dev.readerTimeout d cardLost).part pt = d.part pt := by
  unfold Dev.readerTimeout; (repeat' split) <;> simp only [Dev.exchangeFail_part hque htag]

@[simp] theorem rdrPollCmd_part {pt : Part} (htag : pt ≠ .tag) (arg : BitVec 24) (d : Dev) :
    (rdrPollCmd arg d).2.part pt = d.part pt := by
  unfold rdrPollCmd; (repeat' split) <;> simp only [↓Dev.part_mk_tag htag]

theorem Dev.tagCommit_part {pt : Part} (htag : pt ≠ .tag) (d : Dev) (b : Nat) (v : BitVec 256) :
    (Dev.tagCommit d b v).part pt = d.part pt := by
  simp only [↓Dev.part_mk_tag htag, Dev.tagCommit]

theorem Dev.tagAbandon_part {pt : Part} (htag : pt ≠ .tag) (d : Dev) (b : Nat) (v : BitVec 256) :
    (Dev.tagAbandon d b v).part pt = d.part pt := by
  simp only [↓Dev.part_mk_tag htag, Dev.tagAbandon]

theorem Dev.tagCutOff_part {pt : Part} (htag : pt ≠ .tag) (d : Dev) (b : Nat) (v : BitVec 256) (primary : Bool) :
    (Dev.tagCutOff d b v primary).part pt = d.part pt := by
  simp only [↓Dev.part_mk_tag htag, Dev.tagCutOff]

@[simp] theorem Dev.tagRecovery_part {pt : Part} (htag : pt ≠ .tag) (d : Dev) : (Dev.tagRecovery d).part pt = d.part pt := by
  unfold Dev.tagRecovery; (repeat' split) <;> simp only [Dev.raiseTag_part, ↓Dev.part_mk_tag htag]

theorem Dev.tagSupplyUp_part {pt : Part} (htag : pt ≠ .tag) (d : Dev) : (Dev.tagSupplyUp d).part pt = d.part pt := by
  unfold Dev.tagSupplyUp; split <;> simp only [Dev.tagRecovery_part htag]

theorem Dev.endSession_part {pt : Part} (hque : pt ≠ .que) (htag : pt ≠ .tag) (d : Dev) (cause : Nat) :
    (Dev.endSession d cause).part pt = d.part pt := by
  unfold Dev.endSession; (repeat' split) <;> simp only [Dev.count_part, Dev.raiseTag_part, Dev.svcEvent_part hque,
    ↓Dev.part_mk_tag htag]

@[simp] theorem Dev.fieldOn_part {pt : Part} (hque : pt ≠ .que) (htag : pt ≠ .tag) (d : Dev) :
    (Dev.fieldOn d).part pt = d.part pt := by
  unfold Dev.fieldOn; split <;> simp only [Dev.raiseTag_part, Dev.setRun_part, Dev.svcEvent_part hque,
    Dev.tagSupplyUp_part htag, ↓Dev.part_mk_tag htag]

@[simp] theorem Dev.fieldOff_part {pt : Part} (hque : pt ≠ .que) (htag : pt ≠ .tag) (d : Dev) :
    (Dev.fieldOff d).part pt = d.part pt := by
  unfold Dev.fieldOff; split <;> simp only [Dev.endSession_part hque htag, Dev.setRun_part, Dev.svcEvent_part hque,
    ↓Dev.part_mk_tag htag]

@[simp] theorem Dev.fdetRelease_part {pt : Part} (htag : pt ≠ .tag) (d : Dev) : (Dev.fdetRelease d).part pt = d.part pt := by
  unfold Dev.fdetRelease; split <;> simp only [↓Dev.part_mk_tag htag]

theorem Dev.tagReply_part {pt : Part} (htag : pt ≠ .tag) (d : Dev) (bs : List Byte) :
    (Dev.tagReply d bs).part pt = d.part pt := by
  simp only [↓Dev.part_mk_tag htag, Dev.tagReply]

theorem Dev.dropFrame_part {pt : Part} (d : Dev) : (Dev.dropFrame d).part pt = d.part pt := by
  simp only [Dev.count_part, Dev.dropFrame]

theorem Dev.fieldCommand_part {pt : Part} (htag : pt ≠ .tag) (d : Dev) (p : SvcProt) (msg : List Byte) (h : Bool → Dev → Dev)
    (hk : ∀ b x, (h b x).part pt = x.part pt) : (d.fieldCommand p msg h).part pt = d.part pt := by
  unfold Dev.fieldCommand
  split
  · rfl
  · split
    · exact hk _ _
    · split
      · rename_i he
        unfold Dev.sessionFrame at he
        split at he
        · cases he; exact (hk _ _).trans (Dev.part_mk_tag htag)
        · cases he
      · exact Dev.dropFrame_part d

@[simp] theorem Dev.getIdentity_part {pt : Part} (htag : pt ≠ .tag) (d : Dev) : (Dev.getIdentity d).part pt = d.part pt := by
  unfold Dev.getIdentity; split <;> simp only [Dev.tagReply_part htag]

@[simp] theorem Dev.fieldRead_part {pt : Part} (htag : pt ≠ .tag) (d : Dev) (blk : BitVec 16) (p : SvcProt) :
    (Dev.fieldRead d blk p).part pt = d.part pt := by
  unfold Dev.fieldRead
  apply Dev.fieldCommand_part htag; intro b x; dsimp only; (repeat' split) <;> simp only [Dev.tagReply_part htag]

theorem Dev.authFailed_part {pt : Part} (htag : pt ≠ .tag) (d : Dev) : (Dev.authFailed d).part pt = d.part pt := by
  simp only [Dev.count_part, Dev.raiseTag_part, Dev.tagReply_part htag, Dev.authFailed]

@[simp] theorem Dev.auth1_part {pt : Part} (hkey : pt ≠ .key) (htag : pt ≠ .tag) (d : Dev) (rH : BitVec 128) :
    (Dev.auth1 d rH).part pt = d.part pt := by
  unfold Dev.auth1; dsimp only; (repeat' split) <;> simp only [Dev.authFailed_part htag, Dev.drawWide_part,
    Dev.dropFrame_part, Dev.tagReply_part htag, Dev.useKey_part hkey, ↓Dev.part_mk_tag htag]

theorem Dev.auth2Failed_part {pt : Part} (htag : pt ≠ .tag) (d : Dev) : (Dev.auth2Failed d).part pt = d.part pt := by
  simp only [Dev.authFailed_part htag, ↓Dev.part_mk_tag htag, Dev.auth2Failed]

@[simp] theorem Dev.auth2_part {pt : Part} (hque : pt ≠ .que) (hkey : pt ≠ .key) (htag : pt ≠ .tag) (d : Dev)
    (answer : BitVec 128) : (Dev.auth2 d answer).part pt = d.part pt := by
  unfold Dev.auth2; (repeat' split) <;> simp only [Dev.auth2Failed_part htag, Dev.dropFrame_part, Dev.raiseTag_part,
    Dev.svcEvent_part hque, Dev.tagReply_part htag, Dev.useKey_part hkey, ↓Dev.part_mk_tag htag]

theorem Dev.fieldSequence_part {pt : Part} (hque : pt ≠ .que) (htag : pt ≠ .tag) (d : Dev) (b : Nat) (v : BitVec 256)
    (energy : Bool) (c : Collapse) :
    (Dev.fieldSequence d b v energy c).part pt = d.part pt := by
  unfold Dev.fieldSequence; (repeat' split) <;> simp only [Dev.fieldOff_part hque htag, Dev.raiseTag_part,
    Dev.tagAbandon_part htag, Dev.tagCommit_part htag, Dev.tagCutOff_part htag, Dev.tagReply_part htag,
      ↓Dev.part_mk_tag htag]

@[simp] theorem Dev.fieldWrite_part {pt : Part} (hque : pt ≠ .que) (htag : pt ≠ .tag) (d : Dev) (blk : BitVec 16)
    (data : BitVec 256) (p : SvcProt) (energy : Bool) (c : Collapse) :
    (Dev.fieldWrite d blk data p energy c).part pt = d.part pt := by
  unfold Dev.fieldWrite
  apply Dev.fieldCommand_part htag; intro b x; dsimp only; (repeat' split) <;> simp only [Dev.fieldSequence_part hque htag,
    Dev.tagReply_part htag]

@[simp] theorem Dev.fieldInc_part {pt : Part} (hque : pt ≠ .que) (htag : pt ≠ .tag) (d : Dev) (ctr : Byte) (amount : BitVec 16)
    (p : SvcProt) (energy : Bool) (c : Collapse) :
    (Dev.fieldInc d ctr amount p energy c).part pt = d.part pt := by
  unfold Dev.fieldInc
  apply Dev.fieldCommand_part htag; intro b x; dsimp only; (repeat' split) <;> simp only [Dev.fieldSequence_part hque htag,
    Dev.tagReply_part htag]

theorem Dev.svcFresh_part {pt : Part} (hque : pt ≠ .que) (d : Dev) : (Dev.svcFresh d).part pt = d.part pt := by
  simp only [Dev.freshFront_part hque, foldl_part, implies_true, Dev.svcFresh]

theorem Dev.dataReply_part {pt : Part} (hque : pt ≠ .que) (htag : pt ≠ .tag) (d : Dev) (sess : Bool) (cs : List WordCheck) :
    (Dev.dataReply d sess cs).part pt = d.part pt := by
  unfold Dev.dataReply
  split
  · simp only [Dev.tagReply_part htag, ↓Dev.part_mk_tag htag]
  · dsimp only
    have h0 := Dev.svcFresh_part hque d
    split
    · rw [Dev.tagReply_part htag]
      exact (part_of_eq ‹_› (Dev.nextQueue_part ..)).trans h0
    · have h1 := (part_of_eq ‹_› (Dev.nextQueue_part (pt := pt) ..)).trans h0
      split <;> rw [Dev.tagReply_part htag] <;> exact (part_of_eq ‹_› (Dev.takeMsg_part hque ..)).trans h1

@[simp] theorem Dev.fieldData_part {pt : Part} (hque : pt ≠ .que) (htag : pt ≠ .tag) (d : Dev) (bs : List Byte) (p : SvcProt)
    (cs : List WordCheck) :
    (Dev.fieldData d bs p cs).part pt = d.part pt := by
  unfold Dev.fieldData
  apply Dev.fieldCommand_part htag; intro b x; dsimp only; (repeat' split) <;> simp only [Dev.dataReply_part hque htag,
    Dev.svcSend_part hque, Dev.tagReply_part htag]

@[simp] theorem Dev.fieldEnd_part {pt : Part} (hque : pt ≠ .que) (htag : pt ≠ .tag) (d : Dev) (p : SvcProt) :
    (Dev.fieldEnd d p).part pt = d.part pt := by
  unfold Dev.fieldEnd
  apply Dev.fieldCommand_part htag; intro b x; (repeat' split) <;> simp only [Dev.endSession_part hque htag,
    Dev.tagReply_part htag]

@[simp] theorem Dev.sessionIdle_part {pt : Part} (hque : pt ≠ .que) (htag : pt ≠ .tag) (d : Dev) :
    (Dev.sessionIdle d).part pt = d.part pt := by
  unfold Dev.sessionIdle; (repeat' split) <;> simp only [Dev.endSession_part hque htag]

@[simp] theorem Dev.svcReading_part {pt : Part} (hque : pt ≠ .que) (htag : pt ≠ .tag) (d : Dev) (q : Fin 64) (cs : List WordCheck) :
    (Dev.svcReading d q cs).part pt = d.part pt := by
  unfold Dev.svcReading; grind [Dev.freshFront_part, Dev.takeMsg_part, Dev.count_part, Dev.part_mk_tag]

@[simp] theorem tagReadCmd_part {pt : Part} (ag : Agent) (arg : BitVec 24) (d : Dev) :
    (tagReadCmd ag arg d).2.part pt = d.part pt := by
  unfold tagReadCmd; dsimp only; (repeat' split) <;> simp only [Dev.setViewBytes_part]

@[simp] theorem tagWriteCmd_part {pt : Part} (htag : pt ≠ .tag) (ag : Agent) (arg : BitVec 24) (d : Dev) :
    (tagWriteCmd ag arg d).2.part pt = d.part pt := by
  unfold tagWriteCmd; dsimp only; (repeat' split) <;> simp only [Dev.raiseTag_part, Dev.tagCommit_part htag,
    ↓Dev.part_mk_tag htag]

@[simp] theorem Dev.deferredWrite_part {pt : Part} (htag : pt ≠ .tag) (d : Dev) : (Dev.deferredWrite d).part pt = d.part pt := by
  unfold Dev.deferredWrite; (repeat' split) <;> simp only [Dev.endCommand_part, Dev.tagCommit_part htag,
    ↓Dev.part_mk_tag htag]

@[simp] theorem tagIncCmd_part {pt : Part} (htag : pt ≠ .tag) (arg : BitVec 24) (d : Dev) :
    (tagIncCmd arg d).2.part pt = d.part pt := by
  unfold tagIncCmd; dsimp only; (repeat' split) <;> simp only [Dev.tagCommit_part htag]

@[simp] theorem svcEndCmd_part {pt : Part} (hque : pt ≠ .que) (htag : pt ≠ .tag) (arg : BitVec 24) (d : Dev) :
    (svcEndCmd arg d).2.part pt = d.part pt := by
  unfold svcEndCmd; (repeat' split) <;> simp only [Dev.endSession_part hque htag]

theorem Dev.clearKeyViews_part {pt : Part} (d : Dev) : (Dev.clearKeyViews d).part pt = d.part pt := rfl

@[simp] theorem Dev.tamperEvent_part {pt : Part} (hque : pt ≠ .que) (hbil : pt ≠ .bil) (hkey : pt ≠ .key) (htag : pt ≠ .tag)
    (d : Dev) :
    (Dev.tamperEvent d).part pt = d.part pt := by
  unfold Dev.tamperEvent
  simp only [Dev.clearKeyViews_part, Dev.endCommand_part, Dev.endSession_part hque htag, Dev.loseRoot_part hkey,
    Dev.oneEvent_part, Dev.raiseKey_part, Dev.tamper_part hbil, Dev.part_ite, ite_self, ↓Dev.part_mk_key_tag hkey htag]

theorem Dev.readBand_part {pt : Part} (hpnl : pt ≠ .pnl) (d : Dev) : (Dev.readBand d).part pt = d.part pt := by
  unfold Dev.readBand; split <;> simp only [Dev.raisePnl_part, Dev.raisePwr_part, Dev.round_part, ↓Dev.part_mk_pnl hpnl]

theorem Dev.countStress_part {pt : Part} (hpnl : pt ≠ .pnl) (d : Dev) (bs : List Nat) :
    (Dev.countStress d bs).part pt = d.part pt := by
  simp only [↓Dev.part_mk_pnl hpnl, Dev.countStress]

theorem Dev.watchLegal_part {pt : Part} (d : Dev) (g : Dev → Dev) (hk : (g d).part pt = d.part pt) :
    (d.watchLegal g).part pt = d.part pt := by
  unfold Dev.watchLegal; rw [Dev.oneEvent_part]; dsimp only; split <;> simp only [Dev.raisePnl_part, hk]

theorem Dev.copyPixels_part {pt : Part} (hpnl : pt ≠ .pnl) (d : Dev) (ps : List Nat) :
    (Dev.copyPixels d ps).part pt = d.part pt := by
  simp only [↓Dev.part_mk_pnl hpnl, Dev.copyPixels]

theorem Dev.whitePixels_part {pt : Part} (hpnl : pt ≠ .pnl) (d : Dev) (ps : List Nat) :
    (Dev.whitePixels d ps).part pt = d.part pt := by
  simp only [↓Dev.part_mk_pnl hpnl, Dev.whitePixels]

theorem Dev.raisePwrUp_part {pt : Part} (hpnl : pt ≠ .pnl) (d : Dev) : (Dev.raisePwrUp d).part pt = d.part pt := by
  unfold Dev.raisePwrUp; split <;> simp only [↓Dev.part_mk_pnl hpnl]

theorem Dev.startRegion_part {pt : Part} (hpnl : pt ≠ .pnl) (d : Dev) (r : Fin 16) (st : RgnSt) (table : Nat) (exp : Word) :
    (Dev.startRegion d r st table exp).part pt = d.part pt := by
  simp only [Dev.raisePwrUp_part hpnl, Dev.updRgn_part hpnl, Dev.startRegion]

theorem Dev.afterRegion_part {pt : Part} (hpnl : pt ≠ .pnl) (d : Dev) (r : Fin 16) :
    (Dev.afterRegion d r).part pt = d.part pt := by
  unfold Dev.afterRegion; split <;> simp only [Dev.startRegion_part hpnl, ↓Dev.part_mk_pnl hpnl]

theorem Dev.closeRegion_part {pt : Part} (hpnl : pt ≠ .pnl) (d : Dev) (r : Fin 16) (update : Bool) :
    (Dev.closeRegion d r update).part pt = d.part pt := by
  simp only [Dev.afterRegion_part hpnl, Dev.updRgn_part hpnl, Dev.closeRegion]

@[simp] theorem Dev.updateComplete_part {pt : Part} (hpnl : pt ≠ .pnl) (d : Dev) (r : Fin 16) :
    (Dev.updateComplete d r).part pt = d.part pt := by
  unfold Dev.updateComplete; split <;> simp only [Dev.closeRegion_part hpnl, Dev.copyPixels_part hpnl, Dev.raisePnl_part]

@[simp] theorem Dev.clearComplete_part {pt : Part} (hpnl : pt ≠ .pnl) (d : Dev) (r : Fin 16) :
    (Dev.clearComplete d r).part pt = d.part pt := by
  unfold Dev.clearComplete; split <;> simp only [Dev.closeRegion_part hpnl, Dev.whitePixels_part hpnl]

theorem Dev.renderStrip_part {pt : Part} (hpnl : pt ≠ .pnl) (d : Dev) (cells : List Nat) :
    (Dev.renderStrip d cells).part pt = d.part pt := by
  simp only [↓Dev.part_mk_pnl hpnl, Dev.renderStrip]

@[simp] theorem Dev.stripUpdate_part {pt : Part} (hpnl : pt ≠ .pnl) (d : Dev) : (Dev.stripUpdate d).part pt = d.part pt := by
  unfold Dev.stripUpdate; split <;> simp only [Dev.raisePwrUp_part hpnl, Dev.renderStrip_part hpnl, ↓Dev.part_mk_pnl hpnl]

theorem Dev.stripEnd_part {pt : Part} (hpnl : pt ≠ .pnl) (d : Dev) : (Dev.stripEnd d).part pt = d.part pt := by
  unfold Dev.stripEnd; simp only [Dev.copyPixels_part hpnl, Dev.raisePnl_part, Dev.whitePixels_part hpnl,
    ↓Dev.part_mk_pnl hpnl, Dev.part_ite, ite_self]

theorem Dev.frameRegion_part {pt : Part} (hpnl : pt ≠ .pnl) (d : Dev) (r : Fin 16) :
    (Dev.frameRegion d r).part pt = d.part pt := by
  unfold Dev.frameRegion; simp only [Dev.readBand_part hpnl, Dev.updRgn_part hpnl, Dev.part_ite, ite_self]

theorem Dev.frameStrip_part {pt : Part} (hpnl : pt ≠ .pnl) (d : Dev) : (Dev.frameStrip d).part pt = d.part pt := by
  unfold Dev.frameStrip; simp only [Dev.readBand_part hpnl, ↓Dev.part_mk_pnl hpnl, Dev.part_ite, ite_self]

theorem Dev.idleFrame_part {pt : Part} (hpnl : pt ≠ .pnl) (d : Dev) : (Dev.idleFrame d).part pt = d.part pt :=
  Dev.part_mk_pnl hpnl

theorem Dev.driveFrame_part {pt : Part} (hpnl : pt ≠ .pnl) (d : Dev) : (Dev.driveFrame d).part pt = d.part pt := by
  simp only [Dev.countStress_part hpnl, Dev.frameRegion_part hpnl, Dev.frameStrip_part hpnl, ↓Dev.part_mk_pnl hpnl,
    foldl_part, implies_true, Dev.driveFrame]

theorem Dev.journalPanel_part {pt : Part} (hpnl : pt ≠ .pnl) (d : Dev) : (Dev.journalPanel d).part pt = d.part pt := by
  simp only [↓Dev.part_mk_pnl hpnl, Dev.journalPanel]

theorem Dev.closeDone_part {pt : Part} (hpnl : pt ≠ .pnl) (d : Dev) : (Dev.closeDone d).part pt = d.part pt := by
  simp only [Dev.clearComplete_part hpnl, Dev.stripEnd_part hpnl, Dev.updateComplete_part hpnl, foldl_part, implies_true,
    Dev.closeDone]

theorem Dev.panelStart_part {pt : Part} (hpnl : pt ≠ .pnl) (d : Dev) : (Dev.panelStart d).part pt = d.part pt := by
  unfold Dev.panelStart; dsimp only; split <;> simp only [Dev.raisePwrUp_part hpnl, ↓Dev.part_mk_pnl hpnl]

theorem Dev.panelAutoStart_part {pt : Part} (hpnl : pt ≠ .pnl) (d : Dev) : (Dev.panelAutoStart d).part pt = d.part pt := by
  unfold Dev.panelAutoStart; simp only [Dev.panelStart_part hpnl, ↓Dev.part_mk_pnl hpnl, Dev.part_ite, ite_self]

@[simp] theorem Dev.panelFrame_part {pt : Part} (hpnl : pt ≠ .pnl) (htim : pt ≠ .tim) (d : Dev) :
    (Dev.panelFrame d).part pt = d.part pt := by
  unfold Dev.panelFrame; simp only [Dev.closeDone_part hpnl, Dev.driveFrame_part hpnl, Dev.idleFrame_part hpnl,
    Dev.journalPanel_part hpnl, Dev.panelAutoStart_part hpnl, ↓Dev.part_mk_tim htim, Dev.part_ite, ite_self]

theorem Dev.clearUnknown_part {pt : Part} (hpnl : pt ≠ .pnl) (d : Dev) : (Dev.clearUnknown d).part pt = d.part pt := by
  unfold Dev.clearUnknown; rw [foldl_part]
  intro a x; split <;> simp only [Dev.startRegion_part hpnl]

theorem Dev.clearStrip_part {pt : Part} (hpnl : pt ≠ .pnl) (d : Dev) : (Dev.clearStrip d).part pt = d.part pt := by
  unfold Dev.clearStrip; split <;> simp only [↓Dev.part_mk_pnl hpnl]

theorem Dev.powerBad_part {pt : Part} (hpnl : pt ≠ .pnl) (d : Dev) : (Dev.powerBad d).part pt = d.part pt :=
  Dev.part_mk_pnl hpnl

@[simp] theorem Dev.panelAutoClear_part {pt : Part} (hpnl : pt ≠ .pnl) (d : Dev) : (Dev.panelAutoClear d).part pt = d.part pt := by
  unfold Dev.panelAutoClear; simp only [Dev.clearStrip_part hpnl, Dev.clearUnknown_part hpnl, ↓Dev.part_mk_pnl hpnl,
    Dev.part_ite, ite_self]

@[simp] theorem Dev.panelPowerGood_part {pt : Part} (hpnl : pt ≠ .pnl) (d : Dev) : (Dev.panelPowerGood d).part pt = d.part pt := by
  unfold Dev.panelPowerGood; split <;> simp only [↓Dev.part_mk_pnl hpnl]

@[simp] theorem Dev.panelPowerDown_part {pt : Part} (hpnl : pt ≠ .pnl) (d : Dev) : (Dev.panelPowerDown d).part pt = d.part pt := by
  unfold Dev.panelPowerDown; split <;> simp only [↓Dev.part_mk_pnl hpnl]

theorem Dev.panelFaultWith_part {pt : Part} (hpnl : pt ≠ .pnl) (d : Dev) (code : Byte) :
    (Dev.panelFaultWith d code).part pt = d.part pt := by
  unfold Dev.panelFaultWith
  apply Dev.watchLegal_part; simp only [Dev.raisePnl_part, ↓Dev.part_mk_pnl hpnl]

@[simp] theorem Dev.panelFault_part {pt : Part} (hpnl : pt ≠ .pnl) (d : Dev) (c : PanelFaultCause) :
    (Dev.panelFault d c).part pt = d.part pt := by
  unfold Dev.panelFault; dsimp only; (repeat' split) <;> simp only [Dev.panelFaultWith_part hpnl, Dev.powerBad_part hpnl]

@[simp] theorem Dev.stressSave_part {pt : Part} (hpnl : pt ≠ .pnl) (d : Dev) : (Dev.stressSave d).part pt = d.part pt := by
  unfold Dev.stressSave; split <;> simp only [↓Dev.part_mk_pnl hpnl]

theorem Dev.winAdvance_part {pt : Part} (d : Dev) : (Dev.winAdvance d).part pt = d.part pt := by
  unfold Dev.winAdvance; simp only [Dev.setRfld_part, Dev.part_ite, ite_self]

@[simp] theorem Dev.writeWindow_part {pt : Part} (hpnl : pt ≠ .pnl) (d : Dev) (w : Word) :
    (Dev.writeWindow d w).2.part pt = d.part pt := by
  unfold Dev.writeWindow; (repeat' split) <;> simp only [Dev.winAdvance_part, ↓Dev.part_mk_pnl hpnl]

@[simp] theorem Dev.readWindow_part {pt : Part} (d : Dev) : (Dev.readWindow d).2.2.part pt = d.part pt := by
  unfold Dev.readWindow; split <;> simp only [Dev.winAdvance_part]

theorem Dev.memAdvance_part {pt : Part} (d : Dev) : (Dev.memAdvance d).part pt = d.part pt := by
  simp only [Dev.countMod_part, Dev.memAdvance]

@[simp] theorem Dev.writeMem_part {pt : Part} (hpnl : pt ≠ .pnl) (d : Dev) (w : Word) :
    (Dev.writeMem d w).2.part pt = d.part pt := by
  unfold Dev.writeMem; (repeat' split) <;> simp only [Dev.memAdvance_part, ↓Dev.part_mk_pnl hpnl]

@[simp] theorem Dev.readMem_part {pt : Part} (d : Dev) : (Dev.readMem d).2.2.part pt = d.part pt := by
  unfold Dev.readMem; (repeat' split) <;> simp only [Dev.memAdvance_part]

theorem Dev.onRegion_part {pt : Part} (d : Dev) (arg : BitVec 24) (h : Fin 16 → CmdSt × Dev) (hk : ∀ r,
    (h r).2.part pt = d.part pt) :
    (d.onRegion arg h).2.part pt = d.part pt := by
  unfold Dev.onRegion; (repeat' split) <;> simp only [hk]

@[simp] theorem updateCmd_part {pt : Part} (hpnl : pt ≠ .pnl) (ag : Agent) (arg : BitVec 24) (d : Dev) :
    (updateCmd ag arg d).2.part pt = d.part pt := by
  unfold updateCmd
  extract_lets t
  split
  · rfl
  · refine Dev.onRegion_part d arg _ fun r => ?_
    dsimp only
    (repeat' split) <;>
      simp only [Dev.raisePnl_part, Dev.startRegion_part hpnl, Dev.updRgn_part hpnl, Dev.watchLegal_part]

@[simp] theorem adoptCmd_part {pt : Part} (hpnl : pt ≠ .pnl) (arg : BitVec 24) (d : Dev) :
    (adoptCmd arg d).2.part pt = d.part pt := by
  refine Dev.onRegion_part d arg _ fun r => ?_
  dsimp only
  (repeat' split) <;> simp only [Dev.copyPixels_part hpnl, Dev.updRgn_part hpnl]

@[simp] theorem clearCmd_part {pt : Part} (hpnl : pt ≠ .pnl) (arg : BitVec 24) (d : Dev) :
    (clearCmd arg d).2.part pt = d.part pt := by
  refine Dev.onRegion_part d arg _ fun r => ?_
  dsimp only
  (repeat' split) <;> simp only [Dev.startRegion_part hpnl, Dev.watchLegal_part]

theorem Dev.lswInrush_part {pt : Part} (hlsw : pt ≠ .lsw) (d : Dev) (c : Fin 16) :
    (Dev.lswInrush d c).part pt = d.part pt := by
  simp only [Dev.updLsw_part hlsw, Dev.lswInrush]

theorem Dev.lswOff_part {pt : Part} (hlsw : pt ≠ .lsw) (d : Dev) (c : Fin 16) : (Dev.lswOff d c).part pt = d.part pt := by
  simp only [Dev.updLsw_part hlsw, Dev.lswOff]

theorem Dev.lswResume_part {pt : Part} (hlsw : pt ≠ .lsw) (d : Dev) (c : Fin 16) :
    (Dev.lswResume d c).part pt = d.part pt := by
  unfold Dev.lswResume; split <;> simp only [Dev.lswInrush_part hlsw, Dev.lswOff_part hlsw]

theorem Dev.releaseHeld_part {pt : Part} (hlsw : pt ≠ .lsw) (g : Fin 4) (k : Nat) (d : Dev) :
    (Dev.releaseHeld g k d).part pt = d.part pt := by
  induction k generalizing d with
  | zero => rfl
  | succ k ih => unfold Dev.releaseHeld; (repeat' split) <;> simp only [ih, Dev.lswResume_part hlsw]

theorem Dev.lswSettle_part {pt : Part} (hlsw : pt ≠ .lsw) (d : Dev) (c : Fin 16) :
    (Dev.lswSettle d c).part pt = d.part pt := by
  simp only [Dev.releaseHeld_part hlsw, Dev.lswSettle]

theorem Dev.lswDemand_part {pt : Part} (hlsw : pt ≠ .lsw) (d : Dev) (c : Fin 16) (on : Bool) :
    (Dev.lswDemand d c on).part pt = d.part pt := by
  unfold Dev.lswDemand; simp only [Dev.lswInrush_part hlsw, Dev.lswOff_part hlsw, Dev.lswSettle_part hlsw,
    Dev.updLsw_part hlsw, Dev.part_ite, ite_self]

theorem Dev.evcDemand_part {pt : Part} (hlsw : pt ≠ .lsw) (d : Dev) (c : Fin 16) (on : Bool) :
    (Dev.evcDemand d c on).part pt = d.part pt := by
  unfold Dev.evcDemand; split <;> simp only [Dev.lswDemand_part hlsw]

@[simp] theorem Dev.thermalRelease_part {pt : Part} (hlsw : pt ≠ .lsw) (d : Dev) (c : Fin 16) (tj : Int) :
    (Dev.thermalRelease d c tj).part pt = d.part pt := by
  unfold Dev.thermalRelease; split <;> simp only [Dev.lswResume_part hlsw, Dev.updLsw_part hlsw]

@[simp] theorem Dev.inrushEnd_part {pt : Part} (hlsw : pt ≠ .lsw) (d : Dev) (c : Fin 16) :
    (Dev.inrushEnd d c).part pt = d.part pt := by
  unfold Dev.inrushEnd; simp only [Dev.lswSettle_part hlsw, Dev.updLsw_part hlsw, Dev.part_ite, ite_self]

@[simp] theorem Dev.backoffEnd_part {pt : Part} (hlsw : pt ≠ .lsw) (d : Dev) (c : Fin 16) :
    (Dev.backoffEnd d c).part pt = d.part pt := by
  unfold Dev.backoffEnd; simp only [Dev.lswInrush_part hlsw, Dev.lswOff_part hlsw, Dev.updLsw_part hlsw, Dev.part_ite,
    ite_self, Dev.part_ite]

@[simp] theorem Dev.budgetReset_part {pt : Part} (hlsw : pt ≠ .lsw) (d : Dev) (c : Fin 16) :
    (Dev.budgetReset d c).part pt = d.part pt := by
  unfold Dev.budgetReset; split <;> simp only [Dev.updLsw_part hlsw]

@[simp] theorem Dev.vlswFall_part {pt : Part} (hlsw : pt ≠ .lsw) (d : Dev) (g : Fin 4) : (Dev.vlswFall d g).part pt = d.part pt := by
  unfold Dev.vlswFall; split <;> simp only [Dev.raiseLsw_part, Dev.updLsw_part hlsw, ↓Dev.part_mk_lsw hlsw, foldl_part,
    implies_true]

theorem Dev.lswRestart_part {pt : Part} (hlsw : pt ≠ .lsw) (d : Dev) (c : Fin 16) (t : Nat) :
    (Dev.lswRestart d c t).part pt = d.part pt := by
  simp only [Dev.lswInrush_part hlsw, Dev.updLsw_part hlsw, Dev.lswRestart]

theorem Dev.restartOne_part {pt : Part} (hlsw : pt ≠ .lsw) (d : Dev) (c : Fin 16) :
    (Dev.restartOne d c).part pt = d.part pt := by
  unfold Dev.restartOne; (repeat' split) <;> simp only [Dev.lswRestart_part hlsw]

theorem Dev.restartDue_part {pt : Part} (hlsw : pt ≠ .lsw) (d : Dev) : (Dev.restartDue d).part pt = d.part pt := by
  simp only [Dev.restartOne_part hlsw, foldl_part, implies_true, Dev.restartDue]

@[simp] theorem Dev.vlswRise_part {pt : Part} (hlsw : pt ≠ .lsw) (d : Dev) (g : Fin 4) : (Dev.vlswRise d g).part pt = d.part pt := by
  unfold Dev.vlswRise
  simp only [Dev.releaseHeld_part hlsw, Dev.restartDue_part hlsw, Dev.updLsw_part hlsw, ↓Dev.part_mk_lsw hlsw,
    Dev.part_ite, ite_self, foldl_part, implies_true]

theorem Dev.followLimp_part {pt : Part} (hlsw : pt ≠ .lsw) (d : Dev) (c : Fin 16) :
    (Dev.followLimp d c).part pt = d.part pt := by
  unfold Dev.followLimp; split <;> simp only [Dev.lswDemand_part hlsw]

theorem Dev.followInput_part {pt : Part} (hlsw : pt ≠ .lsw) (d : Dev) (i : Fin 8) :
    (Dev.followInput d i).part pt = d.part pt := by
  unfold Dev.followInput; grind [foldl_part, Dev.followLimp_part hlsw]

@[simp] theorem Dev.loadShed_part {pt : Part} (hlsw : pt ≠ .lsw) (d : Dev) (avg : Nat) :
    (Dev.loadShed d avg).part pt = d.part pt := by
  unfold Dev.loadShed; dsimp only; (repeat' split) <;> simp only [Dev.raise_part, Dev.raiseLsw_part, Dev.updLsw_part hlsw,
    ↓Dev.part_mk_lsw hlsw]

theorem Dev.followAll_part {pt : Part} (hlsw : pt ≠ .lsw) (d : Dev) : (Dev.followAll d).part pt = d.part pt := by
  simp only [Dev.followLimp_part hlsw, foldl_part, implies_true, Dev.followAll]

@[simp] theorem Dev.limpChange_part {pt : Part} (hlsw : pt ≠ .lsw) (d : Dev) (active : Bool) :
    (Dev.limpChange d active).part pt = d.part pt := by
  unfold Dev.limpChange; split <;> simp only [Dev.followAll_part hlsw, Dev.logEvent_part, Dev.raiseLsw_part,
    ↓Dev.part_mk_lsw hlsw]

@[simp] theorem Dev.linChange_part {pt : Part} (hlsw : pt ≠ .lsw) (d : Dev) (i : Fin 8) (level : Bool) :
    (Dev.linChange d i level).part pt = d.part pt := by
  unfold Dev.linChange; split <;> simp only [Dev.followInput_part hlsw, ↓Dev.part_mk_lsw hlsw]

@[simp] theorem lswCommand_part {pt : Part} (arg : BitVec 24) (h : Fin 16 → Dev → CmdSt × Dev) (d : Dev) (hk : ∀ c x,
    (h c x).2.part pt = x.part pt) :
    (lswCommand arg h d).2.part pt = d.part pt := by
  unfold lswCommand; dsimp only; (repeat' split) <;> simp only [hk]

@[simp] theorem swOnCmd_part {pt : Part} (hlsw : pt ≠ .lsw) (c : Fin 16) (d : Dev) : (swOnCmd c d).2.part pt = d.part pt := by
  unfold swOnCmd; dsimp only; (repeat' split) <;> simp only [Dev.lswDemand_part hlsw]

@[simp] theorem swOffCmd_part {pt : Part} (hlsw : pt ≠ .lsw) (c : Fin 16) (d : Dev) : (swOffCmd c d).2.part pt = d.part pt := by
  unfold swOffCmd; split <;> simp only [Dev.lswDemand_part hlsw]

@[simp] theorem swReleaseCmd_part {pt : Part} (hlsw : pt ≠ .lsw) (c : Fin 16) (d : Dev) :
    (swReleaseCmd c d).2.part pt = d.part pt := by
  unfold swReleaseCmd; dsimp only; (repeat' split) <;> simp only [Dev.lswResume_part hlsw, Dev.raiseLsw_part,
    Dev.updLsw_part hlsw]

theorem Dev.watchSafe_part {pt : Part} (d : Dev) (g : Dev → Dev) (hk : (g d).part pt = d.part pt) :
    (d.watchSafe g).part pt = d.part pt := by
  unfold Dev.watchSafe; rw [Dev.oneEvent_part]; dsimp only; split <;> simp only [Dev.raiseKao_part, hk]

theorem Dev.endTripTest_part {pt : Part} (d : Dev) (n : Fin 8) : (Dev.endTripTest d n).part pt = d.part pt := by
  unfold Dev.endTripTest; split <;> simp only [Dev.endCommand_part]

theorem Dev.endResTest_part {pt : Part} (d : Dev) (n : Fin 8) : (Dev.endResTest d n).part pt = d.part pt := by
  unfold Dev.endResTest; split <;> simp only [Dev.endCommand_part]

theorem Dev.markTrip_part {pt : Part} (hevc : pt ≠ .evc) (d : Dev) (n : Fin 8) : (Dev.markTrip d n).part pt = d.part pt := by
  simp only [Dev.updEvc_part hevc, Dev.markTrip]

@[simp] theorem Dev.writeHb_part {pt : Part} (d : Dev) (ag : Agent) (data : Word) :
    (Dev.writeHb d ag data).2.part pt = d.part pt := by
  unfold Dev.writeHb; split <;> simp only [Dev.setReg_part]

@[simp] theorem kaoCommand_part {pt : Part} (arg : BitVec 24) (h : Fin 8 → Dev → CmdSt × Dev) (d : Dev) (hk : ∀ c x,
    (h c x).2.part pt = x.part pt) :
    (kaoCommand arg h d).2.part pt = d.part pt := by
  unfold kaoCommand; split
  · dsimp only; split <;> simp only [hk]
  · rfl

@[simp] theorem kaoRestricted_part {pt : Part} (ag : Agent) (op : Nat) (arg : BitVec 24) (u : Nat) (h : Dev → CmdSt × Dev) (d : Dev)
    (hk : (h d).2.part pt = d.part pt) : (kaoRestricted ag op arg u h d).part pt = d.part pt := by
  unfold kaoRestricted; (repeat' split) <;> simp only [Dev.noteCommand_part, Dev.permReject_part, issueCommand_part, hk]

theorem Dev.drivePilot_part {pt : Part} (hevc : pt ≠ .evc) (d : Dev) (n : Fin 8) :
    (Dev.drivePilot d n).part pt = d.part pt := by
  simp only [Dev.updEvc_part hevc, Dev.drivePilot]

theorem Dev.levelPilot_part {pt : Part} (hevc : pt ≠ .evc) (d : Dev) (n : Fin 8) :
    (Dev.levelPilot d n).part pt = d.part pt := by
  unfold Dev.levelPilot; split <;> simp only [Dev.drivePilot_part hevc]

theorem Dev.sessionEvent_part {pt : Part} (hque : pt ≠ .que) (d : Dev) (n : Fin 8) (old : Sess) :
    (Dev.sessionEvent d n old).part pt = d.part pt := by
  unfold Dev.sessionEvent; split <;> simp only [Dev.produce_part hque]

theorem Dev.goSess_part {pt : Part} (hque : pt ≠ .que) (hevc : pt ≠ .evc) (d : Dev) (n : Fin 8) (st : Sess) :
    (Dev.goSess d n st).part pt = d.part pt := by
  simp only [Dev.levelPilot_part hevc, Dev.raise_part, Dev.sessionEvent_part hque, Dev.updEvc_part hevc, Dev.goSess]

theorem Dev.setLock_part {pt : Part} (hevc : pt ≠ .evc) (hlsw : pt ≠ .lsw) (d : Dev) (n : Fin 8) (on : Bool) :
    (Dev.setLock d n on).part pt = d.part pt := by
  simp only [Dev.evcDemand_part hlsw, Dev.updEvc_part hevc, foldl_part, implies_true, Dev.setLock]

theorem Dev.cutContactor_part {pt : Part} (hevc : pt ≠ .evc) (hlsw : pt ≠ .lsw) (d : Dev) (n : Fin 8) :
    (Dev.cutContactor d n).part pt = d.part pt := by
  simp only [Dev.evcDemand_part hlsw, Dev.updEvc_part hevc, Dev.cutContactor]

theorem Dev.takeEnd_part {pt : Part} (hmtr : pt ≠ .mtr) (hbil : pt ≠ .bil) (hevc : pt ≠ .evc) (d : Dev) (n : Fin 8) :
    (Dev.takeEnd d n).part pt = d.part pt := by
  simp only [Dev.sessionEnd_part hmtr hbil, Dev.updEvc_part hevc, Dev.takeEnd]

theorem Dev.settleEnd_part {pt : Part} (hmtr : pt ≠ .mtr) (hbil : pt ≠ .bil) (hevc : pt ≠ .evc) (hlsw : pt ≠ .lsw)
    (d : Dev) (n : Fin 8) : (Dev.settleEnd d n).part pt = d.part pt := by
  unfold Dev.settleEnd; grind [Dev_endDue_kao, Dev.takeEnd_part hmtr hbil hevc, Dev.setLock_part hevc hlsw]

theorem Dev.goIdle_part {pt : Part} (hque : pt ≠ .que) (hevc : pt ≠ .evc) (d : Dev) (n : Fin 8) :
    (Dev.goIdle d n).part pt = d.part pt := by
  simp only [Dev.goSess_part hque hevc, Dev.updEvc_part hevc, Dev.goIdle]

theorem Dev.goFinished_part {pt : Part} (hque : pt ≠ .que) (hevc : pt ≠ .evc) (hlsw : pt ≠ .lsw) (d : Dev) (n : Fin 8)
    (reason : Nat) : (Dev.goFinished d n reason).part pt = d.part pt := by
  simp only [Dev.goSess_part hque hevc, Dev.setLock_part hevc hlsw, Dev.updEvc_part hevc, Dev.goFinished]

theorem Dev.beginOpen_part {pt : Part} (hevc : pt ≠ .evc) (hlsw : pt ≠ .lsw) (d : Dev) (n : Fin 8) (wait : Nat) :
    (Dev.beginOpen d n wait).part pt = d.part pt := by
  unfold Dev.beginOpen; split <;> simp only [Dev.cutContactor_part hevc hlsw, Dev.updEvc_part hevc]

theorem Dev.goStopping_part {pt : Part} (hque : pt ≠ .que) (hevc : pt ≠ .evc) (hlsw : pt ≠ .lsw) (d : Dev) (n : Fin 8)
    (reason wait : Nat) :
    (Dev.goStopping d n reason wait).part pt = d.part pt := by
  simp only [Dev.beginOpen_part hevc hlsw, Dev.goSess_part hque hevc, Dev.updEvc_part hevc, Dev.goStopping]

theorem Dev.overtakeStop_part {pt : Part} (hevc : pt ≠ .evc) (d : Dev) (n : Fin 8) (reason wait : Nat) :
    (Dev.overtakeStop d n reason wait).part pt = d.part pt := by
  unfold Dev.overtakeStop; split <;> simp only [Dev.updEvc_part hevc]

theorem Dev.stopCause_part {pt : Part} (hque : pt ≠ .que) (hevc : pt ≠ .evc) (hlsw : pt ≠ .lsw) (d : Dev) (n : Fin 8)
    (reason wait : Nat) :
    (Dev.stopCause d n reason wait).part pt = d.part pt := by
  unfold Dev.stopCause; split <;> simp only [Dev.goFinished_part hque hevc hlsw, Dev.goStopping_part hque hevc hlsw,
    Dev.overtakeStop_part hevc]

theorem Dev.goSuspended_part {pt : Part} (hque : pt ≠ .que) (hevc : pt ≠ .evc) (hlsw : pt ≠ .lsw) (d : Dev) (n : Fin 8)
    (by_ : Susp) : (Dev.goSuspended d n by_).part pt = d.part pt := by
  simp only [Dev.beginOpen_part hevc hlsw, Dev.goSess_part hque hevc, Dev.updEvc_part hevc, Dev.goSuspended]

@[simp] theorem Dev.stopWaitEnd_part {pt : Part} (hevc : pt ≠ .evc) (hlsw : pt ≠ .lsw) (d : Dev) (n : Fin 8) :
    (Dev.stopWaitEnd d n).part pt = d.part pt := by
  unfold Dev.stopWaitEnd; split <;> simp only [Dev.cutContactor_part hevc hlsw]

theorem Dev.goAuthorized_part {pt : Part} (hque : pt ≠ .que) (hevc : pt ≠ .evc) (d : Dev) (n : Fin 8) (method : Nat)
    (ref : List Word) :
    (Dev.goAuthorized d n method ref).part pt = d.part pt := by
  simp only [Dev.goSess_part hque hevc, Dev.updEvc_part hevc, Dev.goAuthorized]

@[simp] theorem Dev.lockTimeout_part {pt : Part} (hque : pt ≠ .que) (hevc : pt ≠ .evc) (hlsw : pt ≠ .lsw) (d : Dev) (n : Fin 8) :
    (Dev.lockTimeout d n).part pt = d.part pt := by
  unfold Dev.lockTimeout; simp only [Dev.goStopping_part hque hevc hlsw, Dev.part_ite, ite_self]

@[simp] theorem Dev.energizeTimeout_part {pt : Part} (hque : pt ≠ .que) (hevc : pt ≠ .evc) (hlsw : pt ≠ .lsw) (d : Dev)
    (n : Fin 8) : (Dev.energizeTimeout d n).part pt = d.part pt := by
  unfold Dev.energizeTimeout; split <;> simp only [Dev.goStopping_part hque hevc hlsw]

theorem Dev.sendCan_part {pt : Part} (hevc : pt ≠ .evc) (d : Dev) (port : Fin 2) (fr : CanFrame) :
    (Dev.sendCan d port fr).part pt = d.part pt := by
  simp only [↓Dev.part_mk_evc hevc, Dev.sendCan]

@[simp] theorem Dev.takeStatus_part {pt : Part} (hevc : pt ≠ .evc) (d : Dev) (n : Fin 8) (fr : CanFrame) :
    (Dev.takeStatus d n fr).part pt = d.part pt := by
  simp only [Dev.updEvc_part hevc, Dev.takeStatus]

theorem Dev.passCan_part {pt : Part} (hque : pt ≠ .que) (d : Dev) (port : Fin 2) (fr : CanFrame) :
    (Dev.passCan d port fr).part pt = d.part pt := by
  unfold Dev.passCan; split <;> simp only [Dev.produce_part hque]

@[simp] theorem Dev.canRx_part {pt : Part} (hque : pt ≠ .que) (hevc : pt ≠ .evc) (d : Dev) (port : Fin 2) (fr : CanFrame) :
    (Dev.canRx d port fr).part pt = d.part pt := by
  unfold Dev.canRx; split <;> simp only [Dev.passCan_part hque, Dev.takeStatus_part hevc]

@[simp] theorem Dev.canSend_part {pt : Part} (hque : pt ≠ .que) (hevc : pt ≠ .evc) (d : Dev) (port : Fin 2) (q : Fin 64)
    (cs : List WordCheck) :
    (Dev.canSend d port q cs).part pt = d.part pt := by
  unfold Dev.canSend; grind [Dev.takeMsg_part hque, Dev.sendCan_part hevc]

@[simp] theorem Dev.moduleLost_part {pt : Part} (hque : pt ≠ .que) (hevc : pt ≠ .evc) (hlsw : pt ≠ .lsw) (d : Dev) (n : Fin 8) :
    (Dev.moduleLost d n).part pt = d.part pt := by
  unfold Dev.moduleLost; simp only [Dev.goStopping_part hque hevc hlsw, Dev.oneEvent_part, Dev.raiseEvc_part,
    Dev.updEvc_part hevc, Dev.part_ite, ite_self]

@[simp] theorem Dev.slacParm_part {pt : Part} (hevc : pt ≠ .evc) (d : Dev) (n : Fin 8) (mac : BitVec 48) (atten : Nat) :
    (Dev.slacParm d n mac atten).part pt = d.part pt := by
  unfold Dev.slacParm; simp only [Dev.updGp_part hevc, Dev.part_ite, ite_self, foldl_part, implies_true]

theorem Dev.noteMatch_part {pt : Part} (hevc : pt ≠ .evc) (d : Dev) (n : Fin 8) :
    (Dev.noteMatch d n).part pt = d.part pt := by
  simp only [Dev.updEvc_part hevc, Dev.noteMatch]

@[simp] theorem Dev.slacMatch_part {pt : Part} (hevc : pt ≠ .evc) (d : Dev) (n : Fin 8) :
    (Dev.slacMatch d n).part pt = d.part pt := by
  unfold Dev.slacMatch; simp only [Dev.noteMatch_part hevc, Dev.raiseEvc_part, Dev.updGp_part hevc, ↓Dev.part_mk,
    Dev.part_ite, ite_self]

@[simp] theorem Dev.slacLost_part {pt : Part} (hevc : pt ≠ .evc) (d : Dev) (n : Fin 8) : (Dev.slacLost d n).part pt = d.part pt := by
  unfold Dev.slacLost; split <;> simp only [Dev.raiseEvc_part, Dev.updGp_part hevc]

@[simp] theorem Dev.gpRx_part {pt : Part} (hque : pt ≠ .que) (hevc : pt ≠ .evc) (d : Dev) (n : Fin 8) (bytes : List Byte) :
    (Dev.gpRx d n bytes).part pt = d.part pt := by
  unfold Dev.gpRx; dsimp only; (repeat' split) <;> simp only [Dev.produce_part hque, Dev.updGp_part hevc]

@[simp] theorem Dev.gpTx_part {pt : Part} (hque : pt ≠ .que) (hevc : pt ≠ .evc) (d : Dev) (n : Fin 8) (q : Fin 64)
    (cs : List WordCheck) :
    (Dev.gpTx d n q cs).part pt = d.part pt := by
  unfold Dev.gpTx; grind [Dev.takeMsg_part hque, Dev.updGp_part hevc]

@[simp] theorem Dev.pwmFallback_part {pt : Part} (hevc : pt ≠ .evc) (d : Dev) (n : Fin 8) :
    (Dev.pwmFallback d n).part pt = d.part pt := by
  unfold Dev.pwmFallback; simp only [Dev.updEvc_part hevc, Dev.part_ite, ite_self]

@[simp] theorem Dev.evOvercurrent_part {pt : Part} (hque : pt ≠ .que) (hevc : pt ≠ .evc) (hlsw : pt ≠ .lsw) (d : Dev) (n : Fin 8) :
    (Dev.evOvercurrent d n).part pt = d.part pt := by
  unfold Dev.evOvercurrent; split <;> simp only [Dev.goStopping_part hque hevc hlsw, Dev.oneEvent_part, Dev.raiseEvc_part]

theorem Dev.gridStop_part {pt : Part} (hque : pt ≠ .que) (hevc : pt ≠ .evc) (hlsw : pt ≠ .lsw) (d : Dev) (n : Fin 8)
    (reason : Nat) : (Dev.gridStop d n reason).part pt = d.part pt := by
  unfold Dev.gridStop; rw [Dev.oneEvent_part]; dsimp only; (repeat' split) <;> simp only [Dev.raiseEvc_part,
    Dev.stopCause_part hque hevc hlsw, Dev.updEvc_part hevc]

theorem Dev.gridReconnect_part {pt : Part} (hevc : pt ≠ .evc) (d : Dev) (n : Fin 8) :
    (Dev.gridReconnect d n).part pt = d.part pt := by
  simp only [Dev.raiseEvc_part, Dev.updEvc_part hevc, Dev.gridReconnect]

theorem Dev.gridLimit_part {pt : Part} (hevc : pt ≠ .evc) (d : Dev) (n : Fin 8) (da : Option Nat) :
    (Dev.gridLimit d n da).part pt = d.part pt := by
  simp only [Dev.raiseEvc_part, Dev.updEvc_part hevc, Dev.gridLimit]

@[simp] theorem authorizeCmd_part {pt : Part} (hque : pt ≠ .que) (hevc : pt ≠ .evc) (ag : Agent) (m : Nat) (n : Fin 8) (d : Dev) :
    (authorizeCmd ag m n d).2.part pt = d.part pt := by
  unfold authorizeCmd; dsimp only; (repeat' split) <;> simp only [Dev.goAuthorized_part hque hevc, Dev.updEvc_part hevc]

@[simp] theorem denyCmd_part {pt : Part} (hque : pt ≠ .que) (hevc : pt ≠ .evc) (hlsw : pt ≠ .lsw) (n : Fin 8) (d : Dev) :
    (denyCmd n d).2.part pt = d.part pt := by
  unfold denyCmd; split <;> simp only [Dev.goFinished_part hque hevc hlsw]

theorem Dev.stopBy_part {pt : Part} (hque : pt ≠ .que) (hevc : pt ≠ .evc) (hlsw : pt ≠ .lsw) (d : Dev) (n : Fin 8)
    (reason wait : Nat) : (Dev.stopBy d n reason wait).2.part pt = d.part pt := by
  unfold Dev.stopBy; split <;> simp only [Dev.stopCause_part hque hevc hlsw, Dev.updEvc_part hevc]

@[simp] theorem stopCmd_part {pt : Part} (hque : pt ≠ .que) (hevc : pt ≠ .evc) (hlsw : pt ≠ .lsw) (ag : Agent) (n : Fin 8)
    (d : Dev) : (stopCmd ag n d).2.part pt = d.part pt := by
  unfold stopCmd
  (repeat' split) <;> simp only [Dev.setReg_part, Dev.stopBy_part hque hevc hlsw];
    exact part_of_eq ‹_› (Dev.stopBy_part hque hevc hlsw ..)

@[simp] theorem suspendCmd_part {pt : Part} (hque : pt ≠ .que) (hevc : pt ≠ .evc) (hlsw : pt ≠ .lsw) (n : Fin 8) (d : Dev) :
    (suspendCmd n d).2.part pt = d.part pt := by
  unfold suspendCmd; split <;> simp only [Dev.goSuspended_part hque hevc hlsw]

@[simp] theorem resumeCmd_part {pt : Part} (hevc : pt ≠ .evc) (n : Fin 8) (d : Dev) : (resumeCmd n d).2.part pt = d.part pt := by
  unfold resumeCmd; split <;> simp only [Dev.updEvc_part hevc]

@[simp] theorem faultClearCmd_part {pt : Part} (hque : pt ≠ .que) (hmtr : pt ≠ .mtr) (hbil : pt ≠ .bil) (hevc : pt ≠ .evc)
    (hlsw : pt ≠ .lsw) (n : Fin 8) (d : Dev) : (faultClearCmd n d).2.part pt = d.part pt := by
  unfold faultClearCmd; split <;> simp only [Dev.goIdle_part hque hevc, Dev.settleEnd_part hmtr hbil hevc hlsw]

@[simp] theorem evcCommand_part {pt : Part} (arg : BitVec 24) (b : Bool) (h : Fin 8 → Dev → CmdSt × Dev) (d : Dev) (hk : ∀ c x,
    (h c x).2.part pt = x.part pt) :
    (evcCommand arg b h d).2.part pt = d.part pt := by
  unfold evcCommand; (repeat' split) <;> simp only [hk]

@[simp] theorem Dev.authMessage_part {pt : Part} (hque : pt ≠ .que) (hevc : pt ≠ .evc) (hlsw : pt ≠ .lsw) (d : Dev) (n : Fin 8)
    (q : Fin 64) (cs : List WordCheck) :
    (Dev.authMessage d n q cs).part pt = d.part pt := by
  unfold Dev.authMessage; grind [Dev.takeMsg_part hque, Dev.goAuthorized_part hque hevc,
    Dev.goFinished_part hque hevc hlsw, Dev.raiseEvc_part]

@[simp] theorem Dev.authTimeout_part {pt : Part} (hque : pt ≠ .que) (hevc : pt ≠ .evc) (hlsw : pt ≠ .lsw) (d : Dev) (n : Fin 8) :
    (Dev.authTimeout d n).part pt = d.part pt := by
  unfold Dev.authTimeout; simp only [Dev.goFinished_part hque hevc hlsw, Dev.part_ite, ite_self]

@[simp] theorem Dev.preauthExpiry_part {pt : Part} (hevc : pt ≠ .evc) (d : Dev) (n : Fin 8) :
    (Dev.preauthExpiry d n).part pt = d.part pt := by
  unfold Dev.preauthExpiry; (repeat' split) <;> simp only [Dev.updEvc_part hevc]

theorem Dev.closeAnswer_part {pt : Part} (hque : pt ≠ .que) (hevc : pt ≠ .evc) (hlsw : pt ≠ .lsw) (d : Dev) (n : Fin 8)
    (r : Bool × Dev) : (d.closeAnswer n r).part pt = r.2.part pt := by
  unfold Dev.closeAnswer; split
  · split <;> simp only [Dev.goStopping_part hque hevc hlsw, Dev.updEvc_part hevc]
  · rfl

theorem Dev.withMac_part {pt : Part} (hkey : pt ≠ .key) (d : Dev) (fr : MeshFrame) :
    (Dev.withMac d fr).2.part pt = d.part pt := by
  simp only [Dev.useKey_part hkey, Dev.withMac]

theorem Dev.updNbr_part {pt : Part} (hplc : pt ≠ .plc) (d : Dev) (a : BitVec 16) (fr : Neighbour → Neighbour) :
    (Dev.updNbr d a fr).part pt = d.part pt := by
  simp only [↓Dev.part_mk_plc hplc, Dev.updNbr]

theorem Dev.hear_part {pt : Part} (hplc : pt ≠ .plc) (d : Dev) (a : BitVec 16) (snr : Int) :
    (Dev.hear d a snr).part pt = d.part pt := by
  unfold Dev.hear; dsimp only; (repeat' split) <;> simp only [Dev.updNbr_part hplc, ↓Dev.part_mk_plc hplc]

theorem Dev.offerRoute_part {pt : Part} (hplc : pt ≠ .plc) (d : Dev) (dest next : BitVec 16) (cost hops : Nat) :
    (Dev.offerRoute d dest next cost hops).part pt = d.part pt := by
  unfold Dev.offerRoute; (repeat' split) <;> simp only [Dev.raisePlc_part, ↓Dev.part_mk_plc hplc]

theorem Dev.recomputeHead_part {pt : Part} (hplc : pt ≠ .plc) (d : Dev) : (Dev.recomputeHead d).part pt = d.part pt := by
  unfold Dev.recomputeHead; dsimp only; (repeat' split) <;> simp only [Dev.offerRoute_part hplc, ↓Dev.part_mk_plc hplc]

theorem Dev.relinked_part {pt : Part} (hplc : pt ≠ .plc) (d before : Dev) : (Dev.relinked d before).part pt = d.part pt := by
  simp only [Dev.recomputeHead_part hplc, ↓Dev.part_mk_plc hplc, Dev.relinked]

theorem Dev.linkTried_part {pt : Part} (hplc : pt ≠ .plc) (d : Dev) (a : BitVec 16) (v : Rat) :
    (Dev.linkTried d a v).part pt = d.part pt := by
  simp only [Dev.relinked_part hplc, Dev.updNbr_part hplc, Dev.linkTried]

theorem Dev.enqueueMesh_part {pt : Part} (hplc : pt ≠ .plc) (d : Dev) (f : MeshFrame) :
    (Dev.enqueueMesh d f).part pt = d.part pt := by
  simp only [↓Dev.part_mk_plc hplc, Dev.enqueueMesh]

theorem Dev.enqueueFirst_part {pt : Part} (hplc : pt ≠ .plc) (d : Dev) (f : MeshFrame) :
    (Dev.enqueueFirst d f).part pt = d.part pt := by
  simp only [↓Dev.part_mk_plc hplc, Dev.enqueueFirst]

theorem Dev.enqueueAck_part {pt : Part} (hplc : pt ≠ .plc) (d : Dev) (fr : MeshFrame) :
    (Dev.enqueueAck d fr).part pt = d.part pt := by
  simp only [Dev.enqueueFirst_part hplc, Dev.enqueueAck]

theorem Dev.meshId_part {pt : Part} (hque : pt ≠ .que) (hplc : pt ≠ .plc) (d : Dev) :
    (Dev.meshId d).2.part pt = d.part pt := by
  have h1 := Dev.issueId_part (pt := pt) hque d 11
  unfold Dev.meshId
  (repeat' split) <;> simp only [Dev.raisePlc_part, ↓Dev.part_mk_plc hplc] <;> exact part_of_eq (x := d.issueId 11) ‹_› h1

theorem Dev.useRoute_part {pt : Part} (hplc : pt ≠ .plc) (d : Dev) (dest : BitVec 16) :
    (Dev.useRoute d dest).part pt = d.part pt := by
  simp only [↓Dev.part_mk_plc hplc, Dev.useRoute]

theorem Dev.holdOrig_part {pt : Part} (hplc : pt ≠ .plc) (d : Dev) (o : MeshOrig) :
    (Dev.holdOrig d o).part pt = d.part pt := by
  unfold Dev.holdOrig; split <;> simp only [↓Dev.part_mk_plc hplc]

theorem Dev.originateNow_part {pt : Part} (hque : pt ≠ .que) (hplc : pt ≠ .plc) (hkey : pt ≠ .key) (d : Dev) (o : MeshOrig) :
    (Dev.originateNow d o).part pt = d.part pt := by
  have h1 := Dev.meshId_part hque hplc d
  unfold Dev.originateNow
  (repeat' split) <;> simp only [Dev.enqueueFirst_part hplc, Dev.enqueueMesh_part hplc, Dev.holdOrig_part hplc,
    Dev.useKey_part hkey, Dev.useRoute_part hplc] <;> exact part_of_eq ‹_› h1

theorem Dev.originate_part {pt : Part} (hque : pt ≠ .que) (hplc : pt ≠ .plc) (hkey : pt ≠ .key) (d : Dev) (ty : Nat)
    (ldst dest : BitVec 16) (cost hops : Nat) :
    (Dev.originate d ty ldst dest cost hops).part pt = d.part pt := by
  simp only [Dev.originateNow_part hque hplc hkey, Dev.originate]

theorem Dev.releaseOrigs_part {pt : Part} (hque : pt ≠ .que) (hplc : pt ≠ .plc) (hkey : pt ≠ .key) (d : Dev) :
    (Dev.releaseOrigs d).part pt = d.part pt := by
  simp only [Dev.originateNow_part hque hplc hkey, ↓Dev.part_mk_plc hplc, foldl_part, implies_true, Dev.releaseOrigs]

theorem Dev.sendBeacon_part {pt : Part} (hque : pt ≠ .que) (hplc : pt ≠ .plc) (hkey : pt ≠ .key) (d : Dev) :
    (Dev.sendBeacon d).part pt = d.part pt := by
  simp only [Dev.originateNow_part hque hplc hkey, Dev.sendBeacon]

theorem Dev.plcSend_part {pt : Part} (hque : pt ≠ .que) (d : Dev) (ws : List QData) (flag : Nat) :
    (Dev.plcSend d ws flag).part pt = d.part pt := by
  unfold Dev.plcSend; (repeat' split) <;> simp only [Dev.produce_part hque, Dev.raisePlc_part]

theorem Dev.txDone_part {pt : Part} (hque : pt ≠ .que) (d : Dev) (ident : Word) (status attempts : Nat) :
    (Dev.txDone d ident status attempts).part pt = d.part pt := by
  simp only [Dev.plcSend_part hque, Dev.txDone]

theorem Dev.finishJob_part {pt : Part} (hque : pt ≠ .que) (hplc : pt ≠ .plc) (d : Dev) (status : Nat) :
    (Dev.finishJob d status).part pt = d.part pt := by
  unfold Dev.finishJob; (repeat' split) <;> simp only [Dev.txDone_part hque, ↓Dev.part_mk_plc hplc]

theorem Dev.meshFrameEnd_part {pt : Part} (hplc : pt ≠ .plc) (d : Dev) : (Dev.meshFrameEnd d).part pt = d.part pt := by
  unfold Dev.meshFrameEnd; split <;> simp only [Dev.swapUnit_part, ↓Dev.part_mk_plc hplc]

theorem Dev.abandonFrame_part {pt : Part} (hplc : pt ≠ .plc) (d : Dev) (fr : MeshFrame) (headPassed : Bool) :
    (Dev.abandonFrame d fr headPassed).part pt = d.part pt := by
  unfold Dev.abandonFrame; rw [Dev.oneEvent_part]; dsimp only; split <;> simp only [Dev.count_part, Dev.raisePlc_part,
    Dev.relinked_part hplc, Dev.updNbr_part hplc]

theorem Dev.remember_part {pt : Part} (hplc : pt ≠ .plc) (d : Dev) (fr : MeshFrame) :
    (Dev.remember d fr).part pt = d.part pt := by
  simp only [↓Dev.part_mk_plc hplc, Dev.remember]

theorem Dev.meshStale_part {pt : Part} (d : Dev) : (Dev.meshStale d).part pt = d.part pt := by
  simp only [Dev.count_part, Dev.meshStale]

theorem Dev.headEpoch_part {pt : Part} (hque : pt ≠ .que) (d : Dev) (fr : MeshFrame) :
    (Dev.headEpoch d fr).2.part pt = d.part pt := by
  unfold Dev.headEpoch; dsimp only; (repeat' split) <;> simp only [Dev.count_part, Dev.updSpace_part hque]

theorem Dev.macReject_part {pt : Part} (d : Dev) (f : MeshFrame) : (Dev.macReject d f).part pt = d.part pt := by
  unfold Dev.macReject; split <;> simp only [Dev.count_part, Dev.raisePlc_part]

theorem Dev.macAccept_part {pt : Part} (hkey : pt ≠ .key) (d : Dev) (f : MeshFrame) :
    (Dev.macAccept d f).2.part pt = d.part pt := by
  unfold Dev.macAccept; (repeat' split) <;> simp only [Dev.macReject_part, Dev.useKey_part hkey]

theorem Dev.headAccept_part {pt : Part} (hque : pt ≠ .que) (hkey : pt ≠ .key) (d : Dev) (f : MeshFrame) :
    (Dev.headAccept d f).2.part pt = d.part pt := by
  unfold Dev.headAccept; grind [Dev.macAccept_part hkey, Dev.headEpoch_part hque]

theorem Dev.forward_part {pt : Part} (hque : pt ≠ .que) (hplc : pt ≠ .plc) (hkey : pt ≠ .key) (d : Dev) (f : MeshFrame)
    (payload : List Byte) :
    (Dev.forward d f payload).part pt = d.part pt := by
  unfold Dev.forward; (repeat' split) <;> simp only [Dev.enqueueMesh_part hplc, Dev.originate_part hque hplc hkey,
    Dev.useRoute_part hplc]

theorem Dev.flood_part {pt : Part} (hplc : pt ≠ .plc) (d : Dev) (fr : MeshFrame) (payload : List Byte) :
    (Dev.flood d fr payload).part pt = d.part pt := by
  unfold Dev.flood; split <;> simp only [Dev.enqueueMesh_part hplc]

theorem Dev.offerOrigin_part {pt : Part} (hplc : pt ≠ .plc) (d : Dev) (f : MeshFrame) :
    (Dev.offerOrigin d f).part pt = d.part pt := by
  simp only [Dev.offerRoute_part hplc, Dev.offerOrigin]

theorem Dev.takeMine_part {pt : Part} (hque : pt ≠ .que) (hplc : pt ≠ .plc) (hkey : pt ≠ .key) (d : Dev) (f : MeshFrame) :
    (Dev.takeMine d f).part pt = d.part pt := by
  unfold Dev.takeMine; grind [Dev.plcSend_part hque, Dev.updNbr_part hplc, Dev.recomputeHead_part hplc,
    Dev.offerOrigin_part hplc,
    Dev.originate_part hque hplc hkey, Dev.flood_part hplc]

theorem Dev.meshPass_part {pt : Part} (hque : pt ≠ .que) (hplc : pt ≠ .plc) (hkey : pt ≠ .key) (d : Dev) (f : MeshFrame) :
    (Dev.meshPass d f).part pt = d.part pt := by
  unfold Dev.meshPass; grind [Dev.forward_part hque hplc hkey, Dev.offerOrigin_part hplc, Dev.flood_part hplc]

theorem Dev.takeFrame_part {pt : Part} (hque : pt ≠ .que) (hplc : pt ≠ .plc) (hkey : pt ≠ .key) (d : Dev) (f : MeshFrame) :
    (Dev.takeFrame d f).part pt = d.part pt := by
  unfold Dev.takeFrame; grind [Dev.headAccept_part hque hkey, Dev.remember_part hplc, Dev.takeMine_part hque hplc hkey,
    Dev.meshPass_part hque hplc hkey]

theorem Dev.takeAck_part {pt : Part} (hque : pt ≠ .que) (hplc : pt ≠ .plc) (d : Dev) (fr : MeshFrame) :
    (Dev.takeAck d fr).part pt = d.part pt := by
  unfold Dev.takeAck; (repeat' split) <;> simp only [Dev.finishJob_part hque hplc, Dev.linkTried_part hplc,
    Dev.oneEvent_part]

theorem Dev.goodFrame_part {pt : Part} (hque : pt ≠ .que) (hplc : pt ≠ .plc) (hkey : pt ≠ .key) (d : Dev) (f : MeshFrame)
    (snr : Int) : (Dev.goodFrame d f snr).part pt = d.part pt := by
  unfold Dev.goodFrame; grind [Dev.count_part, Dev.hear_part hplc, Dev.relinked_part hplc, Dev.macReject_part,
    Dev.macAccept_part hkey, Dev.takeAck_part hque hplc, Dev.enqueueAck_part hplc, Dev.meshStale_part,
      Dev.takeFrame_part hque hplc hkey]

@[simp] theorem Dev.meshRx_part {pt : Part} (hque : pt ≠ .que) (hplc : pt ≠ .plc) (hkey : pt ≠ .key) (d : Dev) (f : MeshFrame)
    (m : RxMeas) : (Dev.meshRx d f m).part pt = d.part pt := by
  unfold Dev.meshRx; (repeat' split) <;> simp only [Dev.abandonFrame_part hplc, Dev.count_part,
    Dev.goodFrame_part hque hplc hkey, Dev.meshFrameEnd_part hplc]

theorem Dev.putOnLine_part {pt : Part} (hplc : pt ≠ .plc) (d : Dev) (f : MeshFrame) :
    (Dev.putOnLine d f).part pt = d.part pt := by
  simp only [↓Dev.part_mk_plc hplc, Dev.putOnLine]

theorem Dev.sendAck_part {pt : Part} (hplc : pt ≠ .plc) (d : Dev) (j : MeshJob) : (Dev.sendAck d j).part pt = d.part pt := by
  unfold Dev.sendAck; simp only [Dev.putOnLine_part hplc, ↓Dev.part_mk_plc hplc]

theorem Dev.senseTones_part {pt : Part} (hplc : pt ≠ .plc) (d : Dev) (lo hi : Nat) :
    (Dev.senseTones d lo hi).part pt = d.part pt := by
  unfold Dev.senseTones; (repeat' split) <;> simp only [Dev.putOnLine_part hplc, ↓Dev.part_mk_plc hplc]

theorem Dev.loadJob_part {pt : Part} (hplc : pt ≠ .plc) (d : Dev) (j : MeshJob) : (Dev.loadJob d j).part pt = d.part pt := by
  simp only [↓Dev.part_mk_plc hplc, Dev.loadJob]

theorem Dev.startOwn_part {pt : Part} (hque : pt ≠ .que) (hplc : pt ≠ .plc) (hkey : pt ≠ .key) (d : Dev) (ty flags : Nat)
    (dest : BitVec 16) (payload : List Byte) (frag : Bool) :
      (Dev.startOwn d ty flags dest payload frag).part pt = d.part pt := by
  unfold Dev.startOwn; grind [Dev.meshId_part, Dev.useRoute_part, Dev.finishJob_part, Dev.originate_part,
    Dev.withMac_part, Dev.loadJob_part, Dev.part_mk_plc, Dev.part_mk]

theorem Dev.plcFront_part {pt : Part} (hque : pt ≠ .que) (d : Dev) (q : Fin 64) :
    (Dev.plcFront d q).part pt = d.part pt := by
  unfold Dev.plcFront; rw [foldl_part] <;> simp only [Dev.freshFront_part hque, Dev.txDone_part hque, implies_true]

theorem Dev.takePlcTx_part {pt : Part} (hque : pt ≠ .que) (hplc : pt ≠ .plc) (hkey : pt ≠ .key) (d : Dev)
    (cs : List WordCheck) :
    (Dev.takePlcTx d cs).part pt = d.part pt := by
  unfold Dev.takePlcTx
  extract_lets d0
  have h0 : d0.part pt = d.part pt := foldl_part _ _ _ fun x q => Dev.plcFront_part hque x q
  split
  · exact (part_of_eq ‹_› (Dev.nextQueue_part ..)).trans h0
  · have h1 := (part_of_eq ‹_› (Dev.nextQueue_part (pt := pt) ..)).trans h0
    split
    · have h2 := (part_of_eq ‹_› (Dev.takeMsg_part hque ..)).trans h1
      dsimp only
      split
      · exact h2
      · exact (Dev.startOwn_part hque hplc hkey ..).trans h2
    · exact (part_of_eq ‹_› (Dev.takeMsg_part hque ..)).trans h1

theorem Dev.chooseFrame_part {pt : Part} (hque : pt ≠ .que) (hplc : pt ≠ .plc) (hkey : pt ≠ .key) (d : Dev)
    (cs : List WordCheck) :
    (Dev.chooseFrame d cs).part pt = d.part pt := by
  unfold Dev.chooseFrame; grind [Dev.loadJob_part, Dev.meshId_part, Dev.startOwn_part, foldl_part, Dev.plcFront_part,
    Dev.takePlcTx_part, Dev.part_mk_plc]

theorem Dev.offLine_part {pt : Part} (hplc : pt ≠ .plc) (d : Dev) : (Dev.offLine d).part pt = d.part pt := by
  simp only [↓Dev.part_mk_plc hplc, Dev.offLine]

theorem Dev.dropAged_part {pt : Part} (hplc : pt ≠ .plc) (d : Dev) : (Dev.dropAged d).part pt = d.part pt := by
  unfold Dev.dropAged; (repeat' split) <;> simp only [Dev.meshStale_part, ↓Dev.part_mk_plc hplc, foldl_part, implies_true]

theorem Dev.readyFrames_part {pt : Part} (hque : pt ≠ .que) (hplc : pt ≠ .plc) (hkey : pt ≠ .key) (d : Dev) :
    (Dev.readyFrames d).part pt = d.part pt := by
  simp only [Dev.dropAged_part hplc, Dev.releaseOrigs_part hque hplc hkey, Dev.readyFrames]

theorem Dev.nextAck_part {pt : Part} (hplc : pt ≠ .plc) {d d1 : Dev} {j : MeshJob} (h : d.nextAck = some (j, d1)) :
    d1.part pt = d.part pt := by
  unfold Dev.nextAck at h
  split at h
  · split at h
    · cases h; exact Dev.part_mk_plc hplc
    · cases h
  · cases h

@[simp] theorem Dev.meshTransmit_part {pt : Part} (hque : pt ≠ .que) (hplc : pt ≠ .plc) (hkey : pt ≠ .key) (d : Dev) (lo hi zx : Nat)
    (cs : List WordCheck) : (Dev.meshTransmit d lo hi zx cs).part pt = d.part pt := by
  unfold Dev.meshTransmit
  split
  · extract_lets d0
    have h0 : d0.part pt = d.part pt := Dev.readyFrames_part hque hplc hkey d
    split
    · exact (Dev.sendAck_part hplc ..).trans ((Dev.nextAck_part hplc ‹_›).trans h0)
    · simp only [Dev.chooseFrame_part hque hplc hkey, Dev.senseTones_part hplc, Dev.part_ite, ite_self]; exact h0
  · rfl

@[simp] theorem Dev.meshDeferEnd_part {pt : Part} (hque : pt ≠ .que) (hplc : pt ≠ .plc) (hkey : pt ≠ .key) (d : Dev)
    (lo hi zx cycles : Nat) :
    (Dev.meshDeferEnd d lo hi zx cycles).part pt = d.part pt := by
  unfold Dev.meshDeferEnd
  split
  · extract_lets d0
    have h0 : d0.part pt = d.part pt := Dev.readyFrames_part hque hplc hkey d
    split
    · exact (Dev.sendAck_part hplc ..).trans ((Dev.nextAck_part hplc ‹_›).trans h0)
    · simp only [Dev.senseTones_part hplc, Dev.part_ite, ite_self]; exact h0
  · rfl

theorem Dev.sentFrame_part {pt : Part} (hque : pt ≠ .que) (hplc : pt ≠ .plc) (d : Dev) (j : MeshJob) :
    (Dev.sentFrame d j).part pt = d.part pt := by
  unfold Dev.sentFrame; (repeat' split) <;> simp only [Dev.finishJob_part hque hplc, Dev.linkTried_part hplc,
    ↓Dev.part_mk_plc hplc]

theorem Dev.countSent_part {pt : Part} (d : Dev) (degraded : Bool) : (Dev.countSent d degraded).part pt = d.part pt := by
  unfold Dev.countSent; split <;> simp only [Dev.count_part, Dev.raisePlc_part]

theorem Dev.lineBits_part {pt : Part} (hplc : pt ≠ .plc) (d : Dev) (limits : List Bool) :
    (Dev.lineBits d limits).part pt = d.part pt := by
  simp only [↓Dev.part_mk_plc hplc, Dev.lineBits]

theorem Dev.meshLineEnd_part {pt : Part} (hque : pt ≠ .que) (hplc : pt ≠ .plc) (d : Dev) (fault : Bool) :
    (Dev.meshLineEnd d fault).part pt = d.part pt := by
  unfold Dev.meshLineEnd; dsimp only; (repeat' split) <;> simp only [Dev.countSent_part, Dev.finishJob_part hque hplc,
    Dev.offLine_part hplc, Dev.raise_part, Dev.sentFrame_part hque hplc, ↓Dev.part_mk_plc hplc]

@[simp] theorem Dev.meshTxComplete_part {pt : Part} (hque : pt ≠ .que) (hplc : pt ≠ .plc) (d : Dev) (limits : List Bool) :
    (Dev.meshTxComplete d limits).part pt = d.part pt := by
  unfold Dev.meshTxComplete; grind [Dev.lineBits_part hplc, Dev.oneEvent_part, Dev.meshLineEnd_part hque hplc,
    Dev.meshFrameEnd_part hplc]

@[simp] theorem Dev.ackTimeout_part {pt : Part} (hque : pt ≠ .que) (hplc : pt ≠ .plc) (hkey : pt ≠ .key) (d : Dev) :
    (Dev.ackTimeout d).part pt = d.part pt := by
  unfold Dev.ackTimeout; dsimp only; (repeat' split) <;> simp only [Dev.finishJob_part hque hplc, Dev.linkTried_part hplc,
    Dev.oneEvent_part, Dev.originate_part hque hplc hkey, ↓Dev.part_mk_plc hplc]

@[simp] theorem Dev.beaconPeriod_part {pt : Part} (hque : pt ≠ .que) (hplc : pt ≠ .plc) (hkey : pt ≠ .key) (d : Dev) :
    (Dev.beaconPeriod d).part pt = d.part pt := by
  unfold Dev.beaconPeriod; split <;> simp only [Dev.sendBeacon_part hque hplc hkey, ↓Dev.part_mk_plc hplc]

@[simp] theorem Dev.pairBeacon_part {pt : Part} (hque : pt ≠ .que) (hplc : pt ≠ .plc) (hkey : pt ≠ .key) (d : Dev) :
    (Dev.pairBeacon d).part pt = d.part pt := by
  unfold Dev.pairBeacon; (repeat' split) <;> simp only [Dev.sendBeacon_part hque hplc hkey, ↓Dev.part_mk_plc hplc]

@[simp] theorem Dev.nbrExpiry_part {pt : Part} (hplc : pt ≠ .plc) (d : Dev) (a : BitVec 16) :
    (Dev.nbrExpiry d a).part pt = d.part pt := by
  unfold Dev.nbrExpiry; (repeat' split) <;> simp only [Dev.recomputeHead_part hplc, ↓Dev.part_mk_plc hplc]

@[simp] theorem Dev.penaltyDecay_part {pt : Part} (hplc : pt ≠ .plc) (d : Dev) : (Dev.penaltyDecay d).part pt = d.part pt := by
  unfold Dev.penaltyDecay; split <;> simp only [Dev.relinked_part hplc, ↓Dev.part_mk_plc hplc]

@[simp] theorem Dev.meshReading_part {pt : Part} (hque : pt ≠ .que) (hplc : pt ≠ .plc) (d : Dev) (q : Fin 64) (cs : List WordCheck) :
    (Dev.meshReading d q cs).part pt = d.part pt := by
  unfold Dev.meshReading; grind [Dev.plcFront_part, Dev.takeMsg_part, Dev.part_mk_plc]

theorem Dev.zxCheck_part {pt : Part} (hplc : pt ≠ .plc) (hkey : pt ≠ .key) (d : Dev) (msg : BitVec 64) (mac : Nat) :
    (Dev.zxCheck d msg mac).part pt = d.part pt := by
  unfold Dev.zxCheck; dsimp only; (repeat' split) <;> simp only [Dev.count_part, Dev.raisePlc_part, Dev.useKey_part hkey,
    ↓Dev.part_mk_plc hplc]

theorem Dev.zxWhole_part {pt : Part} (hplc : pt ≠ .plc) (hkey : pt ≠ .key) (d : Dev) (bs : List ZxBit) :
    (Dev.zxWhole d bs).part pt = d.part pt := by
  simp only [Dev.zxCheck_part hplc hkey, Dev.zxWhole]

theorem Dev.zxReceive_part {pt : Part} (hplc : pt ≠ .plc) (hkey : pt ≠ .key) (d : Dev) (x : Int) :
    (Dev.zxReceive d x).part pt = d.part pt := by
  unfold Dev.zxReceive; dsimp only; (repeat' split) <;> simp only [Dev.count_part, Dev.raisePlc_part,
    Dev.zxWhole_part hplc hkey, ↓Dev.part_mk_plc hplc]

theorem Dev.zxCycle_part {pt : Part} (hplc : pt ≠ .plc) (hkey : pt ≠ .key) (d : Dev) (x : Int) :
    (Dev.zxCycle d x).part pt = d.part pt := by
  simp only [Dev.zxReceive_part hplc hkey, ↓Dev.part_mk_plc hplc, Dev.zxCycle]

@[simp] theorem Dev.zxMessage_part {pt : Part} (hplc : pt ≠ .plc) (hkey : pt ≠ .key) (d : Dev) (cycles : List Int) :
    (Dev.zxMessage d cycles).part pt = d.part pt := by
  unfold Dev.zxMessage; split <;> simp only [Dev.zxCycle_part hplc hkey, foldl_part, implies_true]

@[simp] theorem Dev.zxDisconnect_part {pt : Part} (hque : pt ≠ .que) (hevc : pt ≠ .evc) (hlsw : pt ≠ .lsw) (d : Dev) (mask : Nat) :
    (Dev.zxDisconnect d mask).part pt = d.part pt := by
  simp only [Dev.gridStop_part hque hevc hlsw, foldl_part, implies_true, Dev.zxDisconnect]

@[simp] theorem Dev.zxReconnect_part {pt : Part} (hevc : pt ≠ .evc) (d : Dev) (mask : Nat) :
    (Dev.zxReconnect d mask).part pt = d.part pt := by
  simp only [Dev.gridReconnect_part hevc, foldl_part, implies_true, Dev.zxReconnect]

@[simp] theorem Dev.zxStop_part {pt : Part} (hque : pt ≠ .que) (hevc : pt ≠ .evc) (hlsw : pt ≠ .lsw) (d : Dev) (mask : Nat) :
    (Dev.zxStop d mask).part pt = d.part pt := by
  simp only [Dev.gridStop_part hque hevc hlsw, foldl_part, implies_true, Dev.zxStop]

@[simp] theorem Dev.zxLimit_part {pt : Part} (hevc : pt ≠ .evc) (d : Dev) (mask : Nat) (params : Word) :
    (Dev.zxLimit d mask params).part pt = d.part pt := by
  simp only [Dev.gridLimit_part hevc, foldl_part, implies_true, Dev.zxLimit]

@[simp] theorem Dev.zxTariff_part {pt : Part} (hbil : pt ≠ .bil) (d : Dev) (mask : Nat) (params : Word) (t : Nat) :
    (Dev.zxTariff d mask params t).part pt = d.part pt := by
  unfold Dev.zxTariff; split <;> simp only [Dev.putOverride_part hbil]

@[simp] theorem Dev.zxConfirm_part {pt : Part} (hplc : pt ≠ .plc) (d : Dev) : (Dev.zxConfirm d).part pt = d.part pt := by
  unfold Dev.zxConfirm; (repeat' split) <;> simp only [↓Dev.part_mk_plc hplc]

@[simp] theorem Dev.zxConfirmEnd_part {pt : Part} (hplc : pt ≠ .plc) (d : Dev) : (Dev.zxConfirmEnd d).part pt = d.part pt := by
  unfold Dev.zxConfirmEnd; split <;> simp only [↓Dev.part_mk_plc hplc]

@[simp] theorem routeClearCmd_part {pt : Part} (hplc : pt ≠ .plc) (d : Dev) : (routeClearCmd d).2.part pt = d.part pt := by
  unfold routeClearCmd; split <;> simp only [↓Dev.part_mk_plc hplc]

@[simp] theorem plcCountClearCmd_part {pt : Part} (d : Dev) : (plcCountClearCmd d).2.part pt = d.part pt := by
  simp only [Dev.setReg_part, plcCountClearCmd]

@[simp] theorem beaconCmd_part {pt : Part} (hque : pt ≠ .que) (hplc : pt ≠ .plc) (hkey : pt ≠ .key) (d : Dev) :
    (beaconCmd d).2.part pt = d.part pt := by
  unfold beaconCmd; split <;> simp only [Dev.originateNow_part hque hplc hkey]

theorem Dev.stoWord_part {pt : Part} (hsto : pt ≠ .sto) (d : Dev) (a : Nat) : (Dev.stoWord d a).2.part pt = d.part pt := by
  unfold Dev.stoWord; (repeat' split) <;> simp only [Dev.raiseSto_part, ↓Dev.part_mk_sto hsto]

theorem Dev.stoAdvance_part {pt : Part} (d : Dev) (ag : Agent) : (Dev.stoAdvance d ag).part pt = d.part pt := by
  simp only [Dev.setView_part, Dev.stoAdvance]

theorem Dev.stoRead_part {pt : Part} (hsto : pt ≠ .sto) (d : Dev) (ag : Agent) :
    (Dev.stoRead d ag).2.2.part pt = d.part pt := by
  unfold Dev.stoRead; split <;> simp only [Dev.stoAdvance_part, Dev.stoWord_part hsto]

theorem Dev.stoRefuse_part {pt : Part} (d : Dev) (target : Nat) : (Dev.stoRefuse d target).2.part pt = d.part pt := by
  simp only [Dev.raiseSto_part, Dev.stoRefuse]

theorem Dev.stoNote_part {pt : Part} (himg : pt ≠ .img) (hbil : pt ≠ .bil) (d : Dev) (ag : Agent) (a : Nat) (x : StoArea) :
    (d.stoNote ag a x).part pt = d.part pt := by
  unfold Dev.stoNote; (repeat' split) <;> simp only [Dev.logEvent_part, Dev.tamper_part hbil, ↓Dev.part_mk_img himg,
    ↓Dev.part_mk_bil hbil]

theorem Dev.stoWrite_part {pt : Part} (himg : pt ≠ .img) (hbil : pt ≠ .bil) (hsto : pt ≠ .sto) (d : Dev) (ag : Agent)
    (data : Word) : (Dev.stoWrite d ag data).2.part pt = d.part pt := by
  unfold Dev.stoWrite; dsimp only; (repeat' split) <;> simp only [Dev.stoAdvance_part, Dev.stoNote_part himg hbil,
    Dev.stoRefuse_part, Dev.storeWrite_part hsto]

@[simp] theorem Dev.storeWindow_part {pt : Part} (himg : pt ≠ .img) (hbil : pt ≠ .bil) (hsto : pt ≠ .sto) (d : Dev) (ag : Agent)
    (write : Option Word) :
    (Dev.storeWindow d ag write).part pt = d.part pt := by
  unfold Dev.storeWindow; split <;> simp only [Dev.stoRead_part hsto, Dev.stoWrite_part himg hbil hsto, readAccess_part,
    writeAccess_part]

@[simp] theorem scrubCmd_part {pt : Part} (hsto : pt ≠ .sto) (arg : BitVec 24) (d : Dev) :
    (scrubCmd arg d).2.part pt = d.part pt := by
  simp only [↓Dev.part_mk_sto hsto, scrubCmd]

@[simp] theorem stoCountClearCmd_part {pt : Part} (hsto : pt ≠ .sto) (arg : BitVec 24) (d : Dev) :
    (stoCountClearCmd arg d).2.part pt = d.part pt := by
  simp only [↓Dev.part_mk_sto hsto, stoCountClearCmd]

@[simp] theorem Dev.scrubPass_part {pt : Part} (hsto : pt ≠ .sto) (d : Dev) : (Dev.scrubPass d).part pt = d.part pt := by
  unfold Dev.scrubPass; split <;> simp only [↓Dev.part_mk_sto hsto]

theorem Dev.foundBad_part {pt : Part} (hbil : pt ≠ .bil) (hsto : pt ≠ .sto) (d : Dev) (a : Nat) :
    (Dev.foundBad d a).part pt = d.part pt := by
  unfold Dev.foundBad; simp only [Dev.raiseSto_part, Dev.tamper_part hbil, ↓Dev.part_mk_sto hsto, Dev.part_ite, ite_self]

@[simp] theorem Dev.scrubComplete_part {pt : Part} (hbil : pt ≠ .bil) (hsto : pt ≠ .sto) (d : Dev) (corrected : Nat)
    (bad : List Nat) :
    (Dev.scrubComplete d corrected bad).part pt = d.part pt := by
  unfold Dev.scrubComplete; simp only [Dev.foundBad_part hbil hsto, Dev.raiseSto_part, ↓Dev.part_mk_sto hsto, Dev.part_ite,
    ite_self, foldl_part, implies_true, Dev.part_ite]

theorem Dev.storeBlock_part {pt : Part} (hbil : pt ≠ .bil) (hsto : pt ≠ .sto) (d : Dev) (ws : List QData) :
    (Dev.storeBlock d ws).part pt = d.part pt := by
  unfold Dev.storeBlock; simp only [Dev.storeWrite_part hsto, ↓Dev.part_mk_bil hbil, Dev.part_ite, ite_self]

@[simp] theorem Dev.storeMessage_part {pt : Part} (hque : pt ≠ .que) (hbil : pt ≠ .bil) (hsto : pt ≠ .sto) (d : Dev) (q : Fin 64)
    (cs : List WordCheck) :
    (Dev.storeMessage d q cs).part pt = d.part pt := by
  unfold Dev.storeMessage; grind [Dev.freshFront_part hque, Dev.takeMsg_part hque, Dev.storeBlock_part hbil hsto, foldl_part,
    Dev.produce_part hque]

theorem Dev.watchSplit_part {pt : Part} (d : Dev) (g : Dev → Dev) (hk : (g d).part pt = d.part pt) :
    (d.watchSplit g).part pt = d.part pt := by
  unfold Dev.watchSplit; rw [Dev.oneEvent_part]; dsimp only; split <;> simp only [Dev.raiseAul_part, hk]

theorem Dev.setHostPort_part {pt : Part} (haul : pt ≠ .aul) (d : Dev) (portB : Bool) :
    (Dev.setHostPort d portB).part pt = d.part pt := by
  unfold Dev.setHostPort; split <;> simp only [↓Dev.part_mk_aul haul]

theorem Dev.loseHostPort_part {pt : Part} (haul : pt ≠ .aul) (d : Dev) : (Dev.loseHostPort d).part pt = d.part pt := by
  unfold Dev.loseHostPort; split <;> simp only [Dev.setHostPort_part haul]

theorem Dev.flowPort_part {pt : Part} (haul : pt ≠ .aul) (d : Dev) (portB : Bool) :
    (Dev.flowPort d portB).part pt = d.part pt := by
  simp only [Dev.updPort_part haul, Dev.flowPort]

theorem Dev.flow_part {pt : Part} (haul : pt ≠ .aul) (d : Dev) : (Dev.flow d).part pt = d.part pt := by
  simp only [Dev.flowPort_part haul, Dev.flow]

theorem Dev.sendRing_part {pt : Part} (haul : pt ≠ .aul) (d : Dev) (portB : Bool) (fr : RingFrame) (own : Bool) :
    (Dev.sendRing d portB fr own).part pt = d.part pt := by
  simp only [Dev.flow_part haul, Dev.updPort_part haul, Dev.sendRing]

theorem Dev.startC0_part {pt : Part} (haul : pt ≠ .aul) (d : Dev) (portB : Bool) (fr : RingFrame) :
    (Dev.startC0 d portB fr).part pt = d.part pt := by
  simp only [Dev.sendRing_part haul, Dev.updPort_part haul, ↓Dev.part_mk_aul haul, Dev.startC0]

theorem Dev.sendLink_part {pt : Part} (haul : pt ≠ .aul) (d : Dev) (portB : Bool) (up : Nat) :
    (Dev.sendLink d portB up).part pt = d.part pt := by
  unfold Dev.sendLink; split <;> simp only [Dev.startC0_part haul]

theorem Dev.bridgeTake_part {pt : Part} (hque : pt ≠ .que) (haul : pt ≠ .aul) (d : Dev) (q : Fin 64) (cls : Fin 4)
    (cs : List WordCheck) : (Dev.bridgeTake d q cls cs).part pt = d.part pt := by
  have h0 : (d.freshFront q).part pt = d.part pt := Dev.freshFront_part hque d q
  unfold Dev.bridgeTake
  split
  · exact h0
  · extract_lets d0 bad need
    have h1 : (if need = true then d0.issueId 9 else (some (w32 (hdrIdent (msgHead ‹QMsg›.words))),
      d0)).2.part pt = d.part pt := by
      split
      · exact (Dev.issueId_part hque ..).trans h0
      · exact h0
    dsimp only
    split <;> simp only [Dev.raiseAul_part, Dev.sendRing_part haul, Dev.startC0_part haul, Dev.takeMsg_part hque,
      ↓Dev.part_mk_aul haul, Dev.part_ite, ite_self] <;> exact h1


@[simp] theorem Dev.bridgeSend_part {pt : Part} (hque : pt ≠ .que) (haul : pt ≠ .aul) (d : Dev) (q : Fin 64) (cs : List WordCheck) :
    (Dev.bridgeSend d q cs).part pt = d.part pt := by
  unfold Dev.bridgeSend; dsimp only; (repeat' split) <;> simp only [Dev.bridgeTake_part hque haul, ↓Dev.part_mk_aul haul]

@[simp] theorem Dev.c0Release_part {pt : Part} (hque : pt ≠ .que) (haul : pt ≠ .aul) (d : Dev) (q : Fin 64) (cs : List WordCheck) :
    (Dev.c0Release d q cs).part pt = d.part pt := by
  unfold Dev.c0Release; split <;> simp only [Dev.bridgeSend_part hque haul]

theorem Dev.countCrc_part {pt : Part} (haul : pt ≠ .aul) (d : Dev) : (Dev.countCrc d).part pt = d.part pt := by
  simp only [Dev.raiseAul_part, ↓Dev.part_mk_aul haul, Dev.countCrc]

theorem Dev.misroute_part {pt : Part} (haul : pt ≠ .aul) (d : Dev) : (Dev.misroute d).part pt = d.part pt := by
  simp only [Dev.raiseAul_part, ↓Dev.part_mk_aul haul, Dev.misroute]

theorem Dev.passOn_part {pt : Part} (haul : pt ≠ .aul) (d : Dev) (portB : Bool) (fr : RingFrame) :
    (Dev.passOn d portB fr).part pt = d.part pt := by
  unfold Dev.passOn; split <;> simp only [Dev.sendRing_part haul]

theorem Dev.holdFrame_part {pt : Part} (haul : pt ≠ .aul) (d : Dev) (portB : Bool) (fr : RingFrame) :
    (Dev.holdFrame d portB fr).part pt = d.part pt := by
  simp only [Dev.flow_part haul, ↓Dev.part_mk_aul haul, Dev.holdFrame]

theorem Dev.takeData_part {pt : Part} (hque : pt ≠ .que) (haul : pt ≠ .aul) (d : Dev) (portB : Bool) (fr : RingFrame) :
    (Dev.takeData d portB fr).part pt = d.part pt := by
  unfold Dev.takeData; (repeat' split) <;> simp only [Dev.holdFrame_part haul, Dev.misroute_part haul,
    Dev.produce_part hque, Dev.raiseQue_part]

theorem Dev.forwardFrame_part {pt : Part} (haul : pt ≠ .aul) (d : Dev) (portB : Bool) (fr : RingFrame) :
    (Dev.forwardFrame d portB fr).part pt = d.part pt := by
  unfold Dev.forwardFrame; simp only [Dev.countCrc_part haul, Dev.holdFrame_part haul, Dev.passOn_part haul, Dev.part_ite,
    ite_self, Dev.part_ite]

theorem Dev.releaseRing_part {pt : Part} (hque : pt ≠ .que) (haul : pt ≠ .aul) (xs kept : List (Bool × RingFrame))
    (d : Dev) :
    (Dev.releaseRing xs kept d).part pt = d.part pt := by
  induction xs generalizing kept d with
  | nil => exact Dev.part_mk_aul haul
  | cons x xs ih =>
    obtain ⟨p, fr⟩ := x
    unfold Dev.releaseRing
    (repeat' split) <;> simp only [ih, Dev.misroute_part haul, Dev.produce_part hque, Dev.passOn_part haul]

theorem Dev.workBuffers_part {pt : Part} (hque : pt ≠ .que) (haul : pt ≠ .aul) (d : Dev) :
    (Dev.workBuffers d).part pt = d.part pt := by
  simp only [Dev.flow_part haul, Dev.releaseRing_part hque haul, Dev.workBuffers]

theorem Dev.receive_part {pt : Part} (haul : pt ≠ .aul) (d : Dev) (p : Bool) (fr : RingFrame) (g : Dev → Dev)
    (hk : (g d).part pt = d.part pt) :
    (d.receive p fr g).part pt = d.part pt := by
  unfold Dev.receive; (repeat' split) <;> simp only [Dev.countCrc_part haul, Dev.forwardFrame_part haul, hk]

@[simp] theorem Dev.dataFrame_part {pt : Part} (hque : pt ≠ .que) (haul : pt ≠ .aul) (d : Dev) (portB : Bool) (fr : RingFrame) :
    (Dev.dataFrame d portB fr).part pt = d.part pt := by
  unfold Dev.dataFrame
  split
  · refine Dev.receive_part haul d portB fr _ ?_
    (repeat' split) <;> simp only [Dev.forwardFrame_part haul, Dev.takeData_part hque haul]
  · rfl

@[simp] theorem Dev.frameForward_part {pt : Part} (haul : pt ≠ .aul) (d : Dev) (portB : Bool) (fr : RingFrame) :
    (Dev.frameForward d portB fr).part pt = d.part pt := by
  unfold Dev.frameForward; split <;> simp only [Dev.forwardFrame_part haul]

@[simp] theorem Dev.pauseRx_part {pt : Part} (haul : pt ≠ .aul) (d : Dev) (portB : Bool) (cls : Fin 4) :
    (Dev.pauseRx d portB cls).part pt = d.part pt := by
  unfold Dev.pauseRx; split <;> simp only [Dev.updPort_part haul]

theorem Dev.sendReps_part {pt : Part} (haul : pt ≠ .aul) (d : Dev) : (Dev.sendReps d).part pt = d.part pt := by
  simp only [Dev.sendRing_part haul, ↓Dev.part_mk_aul haul, foldl_part, implies_true, Dev.sendReps]

@[simp] theorem Dev.goRx_part {pt : Part} (hque : pt ≠ .que) (haul : pt ≠ .aul) (d : Dev) (portB : Bool) (cls : Fin 4) :
    (Dev.goRx d portB cls).part pt = d.part pt := by
  simp only [Dev.sendReps_part haul, Dev.updPort_part haul, Dev.workBuffers_part hque haul, Dev.goRx]

theorem Dev.takeNumber_part {pt : Part} (haul : pt ≠ .aul) (d : Dev) (n : Nat) :
    (Dev.takeNumber d n).part pt = d.part pt := by
  simp only [Dev.raiseAul_part, ↓Dev.part_mk_aul haul, Dev.takeNumber]

theorem Dev.enumAct_part {pt : Part} (haul : pt ≠ .aul) (d : Dev) (pass : Nat) (m : Nat) :
    (Dev.enumAct d pass m).1.part pt = d.part pt := by
  unfold Dev.enumAct; dsimp only; (repeat' split) <;> simp only [Dev.raiseAul_part, Dev.takeNumber_part haul,
    ↓Dev.part_mk_aul haul]

@[simp] theorem Dev.ringEnum_part {pt : Part} (haul : pt ≠ .aul) (d : Dev) (portB : Bool) (fr : RingFrame) :
    (Dev.ringEnum d portB fr).part pt = d.part pt := by
  unfold Dev.ringEnum
  split
  · refine Dev.receive_part haul d portB fr _ ?_
    refine Dev.watchSplit_part _ _ ?_
    split
    · dsimp only
      split <;>
        simp only [Dev.enumAct_part haul, Dev.forwardFrame_part haul, Dev.setHostPort_part haul, ↓Dev.part_mk_aul haul]
    · rfl
  · rfl

@[simp] theorem Dev.ringRoute_part {pt : Part} (haul : pt ≠ .aul) (d : Dev) (portB : Bool) (fr : RingFrame) :
    (Dev.ringRoute d portB fr).part pt = d.part pt := by
  unfold Dev.ringRoute
  split
  · refine Dev.receive_part haul d portB fr _ ?_
    rw [Dev.forwardFrame_part haul]
    exact Dev.watchSplit_part _ _ (Dev.setHostPort_part haul ..)
  · rfl

@[simp] theorem Dev.ringLink_part {pt : Part} (haul : pt ≠ .aul) (d : Dev) (portB : Bool) (fr : RingFrame) :
    (Dev.ringLink d portB fr).part pt = d.part pt := by
  unfold Dev.ringLink
  split
  · refine Dev.receive_part haul d portB fr _ ?_
    dsimp only
    rw [Dev.forwardFrame_part haul]
    refine Dev.watchSplit_part _ _ ?_
    simp only [Dev.loseHostPort_part haul, Dev.part_ite, ite_self]
  · rfl

theorem Dev.dropPort_part {pt : Part} (haul : pt ≠ .aul) (d : Dev) (portB : Bool) :
    (Dev.dropPort d portB).part pt = d.part pt := by
  unfold Dev.dropPort; dsimp only; rw [Dev.watchSplit_part]; simp only [Dev.loseHostPort_part haul, Dev.raiseAul_part,
    Dev.sendLink_part haul, Dev.updPort_part haul, ↓Dev.part_mk, Dev.part_ite, ite_self]

@[simp] theorem Dev.portDown_part {pt : Part} (haul : pt ≠ .aul) (d : Dev) (portB : Bool) :
    (Dev.portDown d portB).part pt = d.part pt := by
  unfold Dev.portDown; split <;> simp only [Dev.dropPort_part haul]

@[simp] theorem Dev.portUp_part {pt : Part} (haul : pt ≠ .aul) (d : Dev) (portB : Bool) :
    (Dev.portUp d portB).part pt = d.part pt := by
  unfold Dev.portUp
  split
  · rfl
  · rw [Dev.flow_part haul, Dev.sendReps_part haul]; apply Dev.watchSplit_part; simp only [Dev.raiseAul_part,
      Dev.sendLink_part haul, Dev.updPort_part haul]

@[simp] theorem Dev.delayReq_part {pt : Part} (haul : pt ≠ .aul) (d : Dev) (portB : Bool) :
    (Dev.delayReq d portB).part pt = d.part pt := by
  unfold Dev.delayReq; split <;> simp only [Dev.sendRing_part haul, ↓Dev.part_mk]

@[simp] theorem Dev.delayResp_part {pt : Part} (haul : pt ≠ .aul) (d : Dev) (portB : Bool) (t2 t3 : BitVec 64) :
    (Dev.delayResp d portB t2 t3).part pt = d.part pt := by
  unfold Dev.delayResp; (repeat' split) <;> simp only [Dev.updPort_part haul]

theorem Dev.sendDelayReq_part {pt : Part} (haul : pt ≠ .aul) (d : Dev) (portB : Bool) :
    (Dev.sendDelayReq d portB).part pt = d.part pt := by
  unfold Dev.sendDelayReq; split <;> simp only [Dev.sendRing_part haul, Dev.updPort_part haul]

@[simp] theorem Dev.delayTimer_part {pt : Part} (haul : pt ≠ .aul) (d : Dev) : (Dev.delayTimer d).part pt = d.part pt := by
  unfold Dev.delayTimer; split <;> simp only [Dev.sendDelayReq_part haul]

@[simp] theorem Dev.ringSync_part {pt : Part} (haul : pt ≠ .aul) (htim : pt ≠ .tim) (d : Dev) (portB : Bool) (fr : RingFrame) :
    (Dev.ringSync d portB fr).part pt = d.part pt := by
  unfold Dev.ringSync
  split
  · refine Dev.receive_part haul d portB fr _ ?_
    dsimp only
    (repeat' split) <;>
      simp only [Dev.forwardFrame_part haul, Dev.round_part, Dev.servoOffset_part htim, ↓Dev.part_mk_aul haul]
  · rfl

@[simp] theorem aulCountClearCmd_part {pt : Part} (haul : pt ≠ .aul) (arg : BitVec 24) (d : Dev) :
    (aulCountClearCmd arg d).2.part pt = d.part pt := by
  unfold aulCountClearCmd; split <;> simp only [Dev.updPort_part haul, ↓Dev.part_mk_aul haul]

@[simp] theorem portRetrainCmd_part {pt : Part} (haul : pt ≠ .aul) (ag : Agent) (arg : BitVec 24) (d : Dev) :
    (portRetrainCmd ag arg d).2.part pt = d.part pt := by
  unfold portRetrainCmd; dsimp only; (repeat' split) <;> simp only [Dev.dropPort_part haul, Dev.updPort_part haul]

theorem Dev.updateTail_part {pt : Part} (hbil : pt ≠ .bil) (d : Dev) : (Dev.updateTail d).part pt = d.part pt := by
  unfold Dev.updateTail; split <;> simp only [↓Dev.part_mk_bil hbil]

theorem Dev.closeUnit_part {pt : Part} (hmtr : pt ≠ .mtr) (hbil : pt ≠ .bil) (d : Dev) (u : Fin 9) :
    (Dev.closeUnit d u).part pt = d.part pt := by
  unfold Dev.closeUnit; split <;> simp only [Dev.closeDelivery_part hmtr hbil, Dev.updEng_part hmtr]

theorem Dev.publishEnergy_part {pt : Part} (d : Dev) (n : Nat) (e : Engine) :
    (Dev.publishEnergy d n e).part pt = d.part pt := by
  unfold Dev.publishEnergy; split <;> simp only [Dev.putInt_part, Dev.putNat_part, Dev.setReg_part, ↓Dev.part_mk]

theorem Dev.publishSlice_part {pt : Part} (d : Dev) (u : Fin 9) (e : Engine) :
    (Dev.publishSlice d u e).part pt = d.part pt := by
  unfold Dev.publishSlice; split <;> simp only [Dev.publishEnergy_part, Dev.publishPhase_part, Dev.publishTotals_part,
    foldl_part, implies_true]

theorem Dev.reverseEnergy_part {pt : Part} (hbil : pt ≠ .bil) (d : Dev) (n : Fin 8) (e : Engine) :
    (Dev.reverseEnergy d n e).part pt = d.part pt := by
  unfold Dev.reverseEnergy; simp only [Dev.tamper_part hbil, Dev.updBil_part hbil, Dev.part_ite, ite_self]

theorem Dev.currentEpisode_part {pt : Part} (hbil : pt ≠ .bil) (d : Dev) (n : Fin 8) :
    (Dev.currentEpisode d n).part pt = d.part pt := by
  simp only [Dev.tamper_part hbil, Dev.updBil_part hbil, foldl_part, implies_true, Dev.currentEpisode]

theorem Dev.periodTampers_part {pt : Part} (hbil : pt ≠ .bil) (d : Dev) (u : Fin 9) (e : Engine) :
    (Dev.periodTampers d u e).part pt = d.part pt := by
  unfold Dev.periodTampers; split <;> simp only [Dev.currentEpisode_part hbil, Dev.reverseEnergy_part hbil]

theorem Dev.closePeriod_part {pt : Part} (hque : pt ≠ .que) (hmtr : pt ≠ .mtr) (hbil : pt ≠ .bil) (d : Dev) (u : Fin 9)
    (cycles : Nat × Nat) (stopped fault : Bool) :
    (Dev.closePeriod d u cycles stopped fault).part pt = d.part pt := by
  unfold Dev.closePeriod; dsimp only; rw [Dev.oneEvent_part]; (repeat' split) <;> simp only [Dev.closeUnit_part hmtr hbil,
    Dev.mtrSend_part hque hmtr, Dev.periodTampers_part hbil, Dev.publishChannel_part hmtr, Dev.publishSlice_part,
      Dev.raiseMtr_part, Dev.round_part, Dev.setReg_part, Dev.updEng_part hmtr, foldl_part, implies_true]

theorem Dev.freeCycles_part {pt : Part} (d : Dev) (samples : Nat) : (Dev.freeCycles d samples).2.part pt = d.part pt := by
  unfold Dev.freeCycles; split <;> rfl

theorem Dev.cutPeriod_part {pt : Part} (hque : pt ≠ .que) (hmtr : pt ≠ .mtr) (hbil : pt ≠ .bil) (d : Dev) (u : Fin 9)
    (stopped fault : Bool) :
    (Dev.cutPeriod d u stopped fault).part pt = d.part pt := by
  simp only [Dev.closePeriod_part hque hmtr hbil, Dev.freeCycles_part, Dev.cutPeriod]

theorem Dev.pulseLow_part {pt : Part} (hmtr : pt ≠ .mtr) (d : Dev) (p : Fin 4) : (Dev.pulseLow d p).part pt = d.part pt := by
  simp only [Dev.updPulse_part hmtr, ↓Dev.part_mk_mtr hmtr, Dev.pulseLow]

theorem Dev.pulsesLow_part {pt : Part} (hmtr : pt ≠ .mtr) (d : Dev) (u : Nat) : (Dev.pulsesLow d u).part pt = d.part pt := by
  simp only [Dev.pulseLow_part hmtr, foldl_part, implies_true, Dev.pulsesLow]

theorem Dev.endWork_part {pt : Part} (hmtr : pt ≠ .mtr) (d : Dev) (u : Fin 9) : (Dev.endWork d u).part pt = d.part pt := by
  simp only [Dev.updEng_part hmtr, Dev.endWork]

theorem Dev.meterFault_part {pt : Part} (hque : pt ≠ .que) (hmtr : pt ≠ .mtr) (hbil : pt ≠ .bil) (d : Dev) (u : Fin 9)
    (code : Byte) : (Dev.meterFault d u code).part pt = d.part pt := by
  unfold Dev.meterFault; (repeat' split) <;> simp only [Dev.cutPeriod_part hque hmtr hbil, Dev.endWork_part hmtr,
    Dev.pulsesLow_part hmtr, Dev.tamper_part hbil, Dev.updEng_part hmtr]

theorem Dev.dieFault_part {pt : Part} (hque : pt ≠ .que) (hmtr : pt ≠ .mtr) (hbil : pt ≠ .bil) (d : Dev) (dieB : Bool)
    (code : Byte) : (Dev.dieFault d dieB code).part pt = d.part pt := by
  simp only [Dev.meterFault_part hque hmtr hbil, foldl_part, implies_true, Dev.dieFault]

@[simp] theorem Dev.sampleTransfer_part {pt : Part} (hque : pt ≠ .que) (hmtr : pt ≠ .mtr) (hbil : pt ≠ .bil) (htim : pt ≠ .tim)
    (d : Dev) (dieB : Bool) (fr : SampleFrame) :
    (Dev.sampleTransfer d dieB fr).part pt = d.part pt := by
  unfold Dev.sampleTransfer; simp only [Dev.dieFault_part hque hmtr hbil, Dev.logEvent_part, Dev.raise_part,
    Dev.raiseSys_part, Dev.ran_part htim, Dev.takeSamples_part hmtr, Dev.updateTail_part hbil, Dev.part_ite, ite_self]

@[simp] theorem Dev.pathMismatch_part {pt : Part} (hque : pt ≠ .que) (hmtr : pt ≠ .mtr) (hbil : pt ≠ .bil) (d : Dev)
    (ch : Fin 64) : (Dev.pathMismatch d ch).part pt = d.part pt := by
  unfold Dev.pathMismatch; (repeat' split) <;> simp only [Dev.meterFault_part hque hmtr hbil]

@[simp] theorem Dev.afeReferenceFault_part {pt : Part} (hque : pt ≠ .que) (hmtr : pt ≠ .mtr) (hbil : pt ≠ .bil) (d : Dev)
    (dieB : Bool) : (Dev.afeReferenceFault d dieB).part pt = d.part pt := by
  simp only [Dev.dieFault_part hque hmtr hbil, Dev.afeReferenceFault]

theorem Dev.missingEpisode_part {pt : Part} (hbil : pt ≠ .bil) (d : Dev) (n : Fin 8) :
    (Dev.missingEpisode d n).part pt = d.part pt := by
  unfold Dev.missingEpisode; dsimp only; (repeat' split) <;> simp only [Dev.tamper_part hbil, Dev.updBil_part hbil]

@[simp] theorem Dev.urmsRefresh_part {pt : Part} (hque : pt ≠ .que) (hmtr : pt ≠ .mtr) (hbil : pt ≠ .bil) (d : Dev) (u : Fin 9)
    (ph : Fin 3) (uv : Nat) :
    (Dev.urmsRefresh d u ph uv).part pt = d.part pt := by
  unfold Dev.urmsRefresh; (repeat' split) <;> simp only [Dev.missingEpisode_part hbil, Dev.pqRefresh_part hque hmtr,
    Dev.updCh_part hmtr]

theorem Dev.writeMeter_part {pt : Part} (hbil : pt ≠ .bil) (d : Dev) (who : Option Agent) (row : RegDef) (u addr : Nat)
    (data : Word) :
    (Dev.writeMeter d who row u addr data).2.part pt = d.part pt := by
  unfold Dev.writeMeter; dsimp only; (repeat' split) <;> simp only [Dev.logEvent_part, Dev.tamper_part hbil,
    Dev.writeFields_part]

@[simp] theorem Dev.calibrationWrite_part {pt : Part} (hbil : pt ≠ .bil) (d : Dev) (ag : Agent) (a : Nat) (data : Word) :
    (Dev.calibrationWrite d ag a data).part pt = d.part pt := by
  unfold Dev.calibrationWrite; dsimp only; (repeat' split) <;> simp only [Dev.writeMeter_part hbil, writeAccess_part]

@[simp] theorem islandStopCmd_part {pt : Part} (arg : BitVec 24) (d : Dev) : (islandStopCmd arg d).2.part pt = d.part pt := by
  unfold islandStopCmd; dsimp only; (repeat' split) <;> simp only [Dev.setRun_part]

theorem Dev.clockPresent_part {pt : Part} (d : Dev) (i : Nat) : (Dev.clockPresent d i).2.part pt = d.part pt := by
  unfold Dev.clockPresent; (repeat' split) <;> simp only [↓Dev.part_mk]

@[simp] theorem islandStartCmd_part {pt : Part} (arg : BitVec 24) (d : Dev) : (islandStartCmd arg d).2.part pt = d.part pt := by
  unfold islandStartCmd; dsimp only; (repeat' split) <;> simp only [Dev.clockPresent_part, Dev.setRun_part, ↓Dev.part_mk]

@[simp] theorem Dev.islandClockLoss_part {pt : Part} (d : Dev) (i : Fin 16) : (Dev.islandClockLoss d i).part pt = d.part pt := by
  unfold Dev.islandClockLoss; split <;> simp only [Dev.raiseSys_part, Dev.setRun_part, ↓Dev.part_mk]

@[simp] theorem Dev.stallDetect_part {pt : Part} (d : Dev) : (Dev.stallDetect d).part pt = d.part pt := by
  unfold Dev.stallDetect; simp only [Dev.raiseSys_part, ↓Dev.part_mk, Dev.part_ite, ite_self]

theorem Dev.updKao_part {pt : Part} (hkao : pt ≠ .kao) (d : Dev) (n : Fin 8) (f : KaoSlice → KaoSlice) :
    (Dev.updKao d n f).part pt = d.part pt := by
  unfold Dev.updKao; dsimp only; simp only [↓Dev.part_mk_kao hkao]

theorem Dev.modKao_part {pt : Part} (hkao : pt ≠ .kao) (d : Dev) (f : KaoState → KaoState) :
    (Dev.modKao d f).part pt = d.part pt := by
  unfold Dev.modKao; simp only [↓Dev.part_mk_kao hkao]

theorem Dev.writeCell_part {pt : Part} (hkao : pt ≠ .kao) (d : Dev) (f : KaoCell → KaoCell) :
    (Dev.writeCell d f).part pt = d.part pt := by
  unfold Dev.writeCell; dsimp only; simp only [Dev.modKao_part hkao]

theorem Dev.kaoSend_part {pt : Part} (hque : pt ≠ .que) (hkao : pt ≠ .kao) (d : Dev) (n : Fin 8) (ws : List QData) :
    (Dev.kaoSend d n ws).part pt = d.part pt := by
  unfold Dev.kaoSend; (repeat' split) <;> simp only [Dev.commit_part hque, Dev.raiseKao_part, Dev.raiseQue_part,
    Dev.updKao_part hkao]

theorem Dev.sendKaoState_part {pt : Part} (hque : pt ≠ .que) (hkao : pt ≠ .kao) (d : Dev) (n : Fin 8) (old new : KaoSt)
    (cause : Nat) :
    (Dev.sendKaoState d n old new cause).part pt = d.part pt := by
  unfold Dev.sendKaoState; simp only [Dev.kaoSend_part hque hkao]

theorem Dev.kenRelease_part {pt : Part} (hkao : pt ≠ .kao) (d : Dev) (n : Fin 8) :
    (Dev.kenRelease d n).part pt = d.part pt := by
  unfold Dev.kenRelease; (repeat' split) <;> simp only [Dev.updKao_part hkao]

theorem Dev.rearmTrack_part {pt : Part} (hkao : pt ≠ .kao) (d : Dev) (n : Fin 8) :
    (Dev.rearmTrack d n).part pt = d.part pt := by
  unfold Dev.rearmTrack; dsimp only; (repeat' split) <;> simp only [Dev.updKao_part hkao]

theorem Dev.enterArmed_part {pt : Part} (hkao : pt ≠ .kao) (d : Dev) (n : Fin 8) :
    (Dev.enterArmed d n).part pt = d.part pt := by
  unfold Dev.enterArmed; simp only [Dev.raiseKao_part, Dev.updKao_part hkao]

theorem Dev.enterLockout_part {pt : Part} (hkao : pt ≠ .kao) (d : Dev) (n : Fin 8) (upstream : Bool) :
    (Dev.enterLockout d n upstream).part pt = d.part pt := by
  unfold Dev.enterLockout; (repeat' split) <;> simp only [Dev.raiseKao_part, Dev.updKao_part hkao, Dev.writeCell_part hkao]

theorem Dev.countTrip_part {pt : Part} (hkao : pt ≠ .kao) (d : Dev) (n : Fin 8) :
    (Dev.countTrip d n).part pt = d.part pt := by
  unfold Dev.countTrip; simp only [Dev.writeCell_part hkao]

theorem Dev.escalate_part {pt : Part} (hkao : pt ≠ .kao) (d : Dev) (n : Fin 8) :
    (Dev.escalate d n).part pt = d.part pt := by
  unfold Dev.escalate; simp only [Dev.updKao_part hkao]

theorem Dev.trip_part {pt : Part} (hque : pt ≠ .que) (hevc : pt ≠ .evc) (hkao : pt ≠ .kao) (d : Dev) (n : Fin 8)
    (s act detail : Nat) (test toLockout : Bool) :
    (Dev.trip d n s act detail test toLockout).part pt = d.part pt := by
  unfold Dev.trip; dsimp only; (repeat' split) <;> simp only [Dev.countTrip_part hkao, Dev.endTripTest_part,
    Dev.enterLockout_part hkao, Dev.kaoSend_part hque hkao, Dev.kenRelease_part hkao, Dev.markTrip_part hevc,
      Dev.raiseKao_part, Dev.updKao_part hkao]

theorem Dev.joinTrip_part {pt : Part} (hkao : pt ≠ .kao) (d : Dev) (n : Fin 8) (s act detail : Nat) :
    (Dev.joinTrip d n s act detail).part pt = d.part pt := by
  unfold Dev.joinTrip; dsimp only; (repeat' split) <;> simp only [Dev.enterLockout_part hkao, Dev.updKao_part hkao,
    Dev.writeCell_part hkao]

theorem Dev.sourceAction_part {pt : Part} (hque : pt ≠ .que) (hevc : pt ≠ .evc) (hkao : pt ≠ .kao) (d : Dev) (n : Fin 8)
    (s detail : Nat) :
    (Dev.sourceAction d n s detail).part pt = d.part pt := by
  unfold Dev.sourceAction; dsimp only; (repeat' split) <;> simp only [Dev.escalate_part hkao, Dev.joinTrip_part hkao,
    Dev.trip_part hque hevc hkao, Dev.writeCell_part hkao]

theorem Dev.sourceActive_part {pt : Part} (hque : pt ≠ .que) (hevc : pt ≠ .evc) (hkao : pt ≠ .kao) (d : Dev) (n : Fin 8)
    (s : Fin 16) (detail : Nat) :
    (Dev.sourceActive d n s detail).part pt = d.part pt := by
  unfold Dev.sourceActive; dsimp only; (repeat' split) <;> simp only [Dev.raiseKao_part, Dev.rearmTrack_part hkao,
    Dev.sourceAction_part hque hevc hkao, Dev.updKao_part hkao, Dev.watchSafe_part]

theorem Dev.sourceInactive_part {pt : Part} (hkao : pt ≠ .kao) (d : Dev) (n : Fin 8) (s : Fin 16) :
    (Dev.sourceInactive d n s).part pt = d.part pt := by
  unfold Dev.sourceInactive; simp only [Dev.rearmTrack_part hkao, Dev.updKao_part hkao]

theorem Dev.setRaw_part {pt : Part} (hkao : pt ≠ .kao) (d : Dev) (n : Fin 8) (s : Fin 16) (on : Bool) :
    (Dev.setRaw d n s on).part pt = d.part pt := by
  unfold Dev.setRaw; dsimp only; (repeat' split) <;> simp only [Dev.updKao_part hkao]

theorem Dev.setCharge_part {pt : Part} (hkao : pt ≠ .kao) (d : Dev) (n : Fin 8) (s : Fin 16) (k : Nat) :
    (Dev.setCharge d n s k).part pt = d.part pt := by
  unfold Dev.setCharge; simp only [Dev.updKao_part hkao]

theorem Dev.rawChange_part {pt : Part} (hque : pt ≠ .que) (hevc : pt ≠ .evc) (hkao : pt ≠ .kao) (d : Dev) (n : Fin 8)
    (s : Fin 16) (on : Bool) :
    (Dev.rawChange d n s on).part pt = d.part pt := by
  unfold Dev.rawChange; dsimp only; (repeat' split) <;> simp only [Dev.setRaw_part hkao,
    Dev.sourceActive_part hque hevc hkao, Dev.sourceInactive_part hkao]

theorem Dev.showSource_part {pt : Part} (hkao : pt ≠ .kao) (d : Dev) (n : Fin 8) (s : Fin 16) (on : Bool) :
    (Dev.showSource d n s on).part pt = d.part pt := by
  unfold Dev.showSource; (repeat' split) <;> simp only [Dev.modKao_part hkao, Dev.updKao_part hkao]

theorem Dev.filterRises_part {pt : Part} (hque : pt ≠ .que) (hevc : pt ≠ .evc) (hkao : pt ≠ .kao) (d : Dev) (n : Fin 8)
    (s : Fin 16) :
    (Dev.filterRises d n s).part pt = d.part pt := by
  unfold Dev.filterRises; simp only [Dev.setCharge_part hkao, Dev.setRaw_part hkao, Dev.sourceActive_part hque hevc hkao]

theorem Dev.filterFull_part {pt : Part} (hque : pt ≠ .que) (hevc : pt ≠ .evc) (hkao : pt ≠ .kao) (d : Dev) (n : Fin 8)
    (s : Fin 16) :
    (Dev.filterFull d n s).part pt = d.part pt := by
  unfold Dev.filterFull; (repeat' split) <;> simp only [Dev.filterRises_part hque hevc hkao,
    Dev.sourceActive_part hque hevc hkao]

theorem Dev.estopOthers_part {pt : Part} (hque : pt ≠ .que) (hevc : pt ≠ .evc) (hkao : pt ≠ .kao) (d : Dev) (n : Fin 8)
    (on : Bool) :
    (Dev.estopOthers d n on).part pt = d.part pt := by
  unfold Dev.estopOthers; simp only [Dev.rawChange_part hque hevc hkao, Dev.part_ite, ite_self, foldl_part, implies_true]

@[simp] theorem Dev.kaolinActive_part {pt : Part} (hque : pt ≠ .que) (hevc : pt ≠ .evc) (hkao : pt ≠ .kao) (d : Dev) (n : Fin 8)
    (s : Fin 16) :
    (Dev.kaolinActive d n s).part pt = d.part pt := by
  unfold Dev.kaolinActive; dsimp only; (repeat' split) <;> simp only [Dev.estopOthers_part hque hevc hkao,
    Dev.filterFull_part hque hevc hkao, Dev.filterRises_part hque hevc hkao, Dev.showSource_part hkao]

theorem Dev.filterEmpty_part {pt : Part} (hkao : pt ≠ .kao) (d : Dev) (n : Fin 8) (s : Fin 16) :
    (Dev.filterEmpty d n s).part pt = d.part pt := by
  unfold Dev.filterEmpty; (repeat' split) <;> simp only [Dev.setCharge_part hkao, Dev.setRaw_part hkao,
    Dev.sourceInactive_part hkao]

@[simp] theorem Dev.kaolinInactive_part {pt : Part} (hque : pt ≠ .que) (hevc : pt ≠ .evc) (hkao : pt ≠ .kao) (d : Dev) (n : Fin 8)
    (s : Fin 16) :
    (Dev.kaolinInactive d n s).part pt = d.part pt := by
  unfold Dev.kaolinInactive; dsimp only; (repeat' split) <;> simp only [Dev.estopOthers_part hque hevc hkao,
    Dev.filterEmpty_part hkao, Dev.showSource_part hkao]

theorem Dev.kaoRequest_part {pt : Part} (hque : pt ≠ .que) (hevc : pt ≠ .evc) (hkao : pt ≠ .kao) (d : Dev) (n : Fin 8) :
    (Dev.kaoRequest d n).2.part pt = d.part pt := by
  unfold Dev.kaoRequest; dsimp only; (repeat' split) <;> simp only [Dev.endResTest_part, Dev.rearmTrack_part hkao,
    Dev.sourceActive_part hque hevc hkao, Dev.updKao_part hkao]

theorem Dev.kaoWithdraw_part {pt : Part} (hkao : pt ≠ .kao) (d : Dev) (n : Fin 8) :
    (Dev.kaoWithdraw d n).part pt = d.part pt := by
  unfold Dev.kaoWithdraw; simp only [Dev.kenRelease_part hkao, Dev.rearmTrack_part hkao, Dev.updKao_part hkao]

theorem Dev.kaoFeedback_part {pt : Part} (hkao : pt ≠ .kao) (d : Dev) (n : Fin 8) (closed : Bool) :
    (Dev.kaoFeedback d n closed).part pt = d.part pt := by
  unfold Dev.kaoFeedback; dsimp only; (repeat' split) <;> simp only [Dev.rearmTrack_part hkao,
    Dev.sourceInactive_part hkao, Dev.updKao_part hkao]

@[simp] theorem Dev.windowEnd_part {pt : Part} (hque : pt ≠ .que) (hevc : pt ≠ .evc) (hkao : pt ≠ .kao) (d : Dev) (n : Fin 8) :
    (Dev.windowEnd d n).part pt = d.part pt := by
  unfold Dev.windowEnd; dsimp only; (repeat' split) <;> simp only [Dev.rearmTrack_part hkao,
    Dev.sourceActive_part hque hevc hkao, Dev.updKao_part hkao]

@[simp] theorem Dev.rearm_part {pt : Part} (hque : pt ≠ .que) (hkao : pt ≠ .kao) (d : Dev) (n : Fin 8) :
    (Dev.rearm d n).part pt = d.part pt := by
  unfold Dev.rearm; (repeat' split) <;> simp only [Dev.enterArmed_part hkao, Dev.sendKaoState_part hque hkao]

theorem Dev.hbMessages_part {pt : Part} (hque : pt ≠ .que) (hkao : pt ≠ .kao) (d : Dev) (cause : Nat) :
    (Dev.hbMessages d cause).part pt = d.part pt := by
  unfold Dev.hbMessages; simp only [Dev.sendKaoState_part hque hkao, foldl_part, implies_true]

theorem Dev.xcheckFollow_part {pt : Part} (hque : pt ≠ .que) (hevc : pt ≠ .evc) (hkao : pt ≠ .kao) (d : Dev) (n : Fin 8) :
    (Dev.xcheckFollow d n).part pt = d.part pt := by
  unfold Dev.xcheckFollow; dsimp only; (repeat' split) <;> simp only [Dev.sourceActive_part hque hevc hkao,
    Dev.sourceInactive_part hkao]

theorem Dev.hbRestore_part {pt : Part} (hque : pt ≠ .que) (hkao : pt ≠ .kao) (d : Dev) :
    (Dev.hbRestore d).part pt = d.part pt := by
  unfold Dev.hbRestore; dsimp only; simp only [Dev.hbMessages_part hque hkao, Dev.modKao_part hkao, Dev.raiseKao_part,
    Dev.sourceInactive_part hkao, foldl_part, implies_true]

theorem Dev.diagBeat_part {pt : Part} (hque : pt ≠ .que) (hevc : pt ≠ .evc) (hkao : pt ≠ .kao) (d : Dev) (diag : Nat)
    (n : Fin 8) :
    (Dev.diagBeat d diag n).part pt = d.part pt := by
  unfold Dev.diagBeat; (repeat' split) <;> simp only [Dev.updKao_part hkao, Dev.xcheckFollow_part hque hevc hkao]

theorem Dev.acceptBeat_part {pt : Part} (hkao : pt ≠ .kao) (d : Dev) (w : Word) :
    (Dev.acceptBeat d w).part pt = d.part pt := by
  unfold Dev.acceptBeat; simp only [Dev.modKao_part hkao]

theorem Dev.loseBeat_part {pt : Part} (hkao : pt ≠ .kao) (d : Dev) :
    (Dev.loseBeat d).part pt = d.part pt := by
  unfold Dev.loseBeat; (repeat' split) <;> simp only [Dev.modKao_part hkao, Dev.updKao_part hkao, foldl_part, implies_true]

@[simp] theorem Dev.heartbeatLost_part {pt : Part} (hque : pt ≠ .que) (hevc : pt ≠ .evc) (hkao : pt ≠ .kao) (d : Dev) :
    (Dev.heartbeatLost d).part pt = d.part pt := by
  unfold Dev.heartbeatLost; dsimp only; (repeat' split) <;> simp only [Dev.hbMessages_part hque hkao,
    Dev.loseBeat_part hkao, Dev.raiseKao_part, Dev.sourceActive_part hque hevc hkao, foldl_part, implies_true]

theorem Dev.graceSlice_part {pt : Part} (hque : pt ≠ .que) (hevc : pt ≠ .evc) (hkao : pt ≠ .kao) (d : Dev) (n : Fin 8) :
    (Dev.graceSlice d n).part pt = d.part pt := by
  unfold Dev.graceSlice; dsimp only; simp only [Dev.sendKaoState_part hque hkao, Dev.sourceActive_part hque hevc hkao]

@[simp] theorem Dev.graceEnd_part {pt : Part} (hque : pt ≠ .que) (hevc : pt ≠ .evc) (hkao : pt ≠ .kao) (d : Dev) :
    (Dev.graceEnd d).part pt = d.part pt := by
  unfold Dev.graceEnd; dsimp only; (repeat' split) <;> simp only [Dev.graceSlice_part hque hevc hkao, Dev.modKao_part hkao,
    foldl_part, implies_true]

theorem Dev.graceFirst_part {pt : Part} (hque : pt ≠ .que) (hevc : pt ≠ .evc) (hkao : pt ≠ .kao) (d : Dev) :
    (Dev.graceFirst d).part pt = d.part pt := by
  unfold Dev.graceFirst; (repeat' split) <;> simp only [Dev.graceEnd_part hque hevc hkao]

@[simp] theorem Dev.heartbeatPoll_part {pt : Part} (hque : pt ≠ .que) (hevc : pt ≠ .evc) (hkao : pt ≠ .kao) (d : Dev) :
    (Dev.heartbeatPoll d).part pt = d.part pt := by
  unfold Dev.heartbeatPoll; dsimp only; (repeat' split) <;> simp only [Dev.acceptBeat_part hkao,
    Dev.diagBeat_part hque hevc hkao, Dev.graceFirst_part hque hevc hkao, Dev.hbRestore_part hque hkao, foldl_part,
      implies_true]

theorem Dev.xcheckPeriod_part {pt : Part} (hkao : pt ≠ .kao) (d : Dev) (n : Fin 8) :
    (Dev.xcheckPeriod d n).part pt = d.part pt := by
  unfold Dev.xcheckPeriod; dsimp only; (repeat' split) <;> simp only [Dev.updKao_part hkao]

theorem Dev.xcheckSession_part {pt : Part} (hkao : pt ≠ .kao) (d : Dev) (n : Fin 8) :
    (Dev.xcheckSession d n).part pt = d.part pt := by
  unfold Dev.xcheckSession; dsimp only; (repeat' split) <;> simp only [Dev.updKao_part hkao]

@[simp] theorem Dev.xcheck_part {pt : Part} (hque : pt ≠ .que) (hevc : pt ≠ .evc) (hkao : pt ≠ .kao) (d : Dev) (n : Fin 8) :
    (Dev.xcheck d n).part pt = d.part pt := by
  unfold Dev.xcheck; (repeat' split) <;> simp only [Dev.xcheckFollow_part hque hevc hkao, Dev.xcheckPeriod_part hkao,
    Dev.xcheckSession_part hkao]

@[simp] theorem Dev.selftestStart_part {pt : Part} (hevc : pt ≠ .evc) (hkao : pt ≠ .kao) (d : Dev) (n : Fin 8) :
    (Dev.selftestStart d n).part pt = d.part pt := by
  unfold Dev.selftestStart; dsimp only; (repeat' split) <;> simp only [Dev.updEvc_part hevc, Dev.updKao_part hkao]

theorem Dev.noteResTest_part {pt : Part} (hkao : pt ≠ .kao) (d : Dev) (n : Fin 8) (pass : Bool) :
    (Dev.noteResTest d n pass).part pt = d.part pt := by
  unfold Dev.noteResTest; (repeat' split) <;> simp only [Dev.updKao_part hkao]

@[simp] theorem Dev.testComplete_part {pt : Part} (hque : pt ≠ .que) (hevc : pt ≠ .evc) (hkao : pt ≠ .kao) (d : Dev) (n : Fin 8)
    (pass : Bool) :
    (Dev.testComplete d n pass).part pt = d.part pt := by
  unfold Dev.testComplete; (repeat' split) <;> simp only [Dev.endResTest_part, Dev.noteResTest_part hkao,
    Dev.raiseKao_part, Dev.rawChange_part hque hevc hkao]

@[simp] theorem Dev.testExpire_part {pt : Part} (hkao : pt ≠ .kao) (d : Dev) (n : Fin 8) :
    (Dev.testExpire d n).part pt = d.part pt := by
  unfold Dev.testExpire; (repeat' split) <;> simp only [Dev.updKao_part hkao]

@[simp] theorem Dev.escalationEnd_part {pt : Part} (hkao : pt ≠ .kao) (d : Dev) (n : Fin 8) :
    (Dev.escalationEnd d n).part pt = d.part pt := by
  unfold Dev.escalationEnd; (repeat' split) <;> simp only [Dev.updKao_part hkao]

theorem Dev.imdResult_part {pt : Part} (hkao : pt ≠ .kao) (d : Dev) (n : Fin 8) (kohm : Nat) :
    (Dev.imdResult d n kohm).part pt = d.part pt := by
  unfold Dev.imdResult; simp only [Dev.updKao_part hkao]

@[simp] theorem Dev.imdMeasure_part {pt : Part} (hque : pt ≠ .que) (hevc : pt ≠ .evc) (hkao : pt ≠ .kao) (d : Dev) (i : Fin 4)
    (kohm : Nat) (settled : Bool) :
    (Dev.imdMeasure d i kohm settled).part pt = d.part pt := by
  unfold Dev.imdMeasure; (repeat' split) <;> simp only [Dev.imdResult_part hkao, Dev.raiseKao_part,
    Dev.rawChange_part hque hevc hkao, Dev.updKao_part hkao]

theorem Dev.internalSlice_part {pt : Part} (hque : pt ≠ .que) (hevc : pt ≠ .evc) (hkao : pt ≠ .kao) (d : Dev) (n : Fin 8) :
    (Dev.internalSlice d n).part pt = d.part pt := by
  unfold Dev.internalSlice; dsimp only; (repeat' split) <;> simp only [Dev.endTripTest_part, Dev.enterLockout_part hkao,
    Dev.kenRelease_part hkao, Dev.markTrip_part hevc, Dev.rearmTrack_part hkao, Dev.sendKaoState_part hque hkao]

@[simp] theorem Dev.internalFault_part {pt : Part} (hque : pt ≠ .que) (hevc : pt ≠ .evc) (hkao : pt ≠ .kao) (d : Dev)
    (c : KaoInternal) :
    (Dev.internalFault d c).part pt = d.part pt := by
  unfold Dev.internalFault; dsimp only; simp only [Dev.internalSlice_part hque hevc hkao, Dev.modKao_part hkao,
    Dev.raiseKao_part, Dev.watchSafe_part, foldl_part, implies_true]

@[simp] theorem Dev.switchSelftest_part {pt : Part} (hkao : pt ≠ .kao) (d : Dev) :
    (Dev.switchSelftest d).part pt = d.part pt := by
  unfold Dev.switchSelftest; simp only [Dev.modKao_part hkao]

theorem Dev.confirmSlice_part {pt : Part} (hque : pt ≠ .que) (hkao : pt ≠ .kao) (d : Dev) (n : Fin 8) :
    (Dev.confirmSlice d n).part pt = d.part pt := by
  unfold Dev.confirmSlice; (repeat' split) <;> simp only [Dev.enterArmed_part hkao, Dev.enterLockout_part hkao,
    Dev.sendKaoState_part hque hkao]

@[simp] theorem confirmCmd_part {pt : Part} (hque : pt ≠ .que) (hkao : pt ≠ .kao) (ag : Agent) (d : Dev) :
    (confirmCmd ag d).2.part pt = d.part pt := by
  unfold confirmCmd; dsimp only; (repeat' split) <;> simp only [Dev.confirmSlice_part hque hkao, Dev.oneEvent_part,
    Dev.raiseKao_part, Dev.writeCell_part hkao, foldl_part, implies_true]

@[simp] theorem lockReleaseCmd_part {pt : Part} (hque : pt ≠ .que) (hkao : pt ≠ .kao) (n : Fin 8) (d : Dev) :
    (lockReleaseCmd n d).2.part pt = d.part pt := by
  unfold lockReleaseCmd; dsimp only; (repeat' split) <;> simp only [Dev.enterArmed_part hkao,
    Dev.sendKaoState_part hque hkao, Dev.writeCell_part hkao]

@[simp] theorem resTestCmd_part {pt : Part} (hkao : pt ≠ .kao) (n : Fin 8) (d : Dev) :
    (resTestCmd n d).2.part pt = d.part pt := by
  unfold resTestCmd; dsimp only; (repeat' split) <;> simp only [Dev.updKao_part hkao]

@[simp] theorem tripTestCmd_part {pt : Part} (hkao : pt ≠ .kao) (src : Nat) (n : Fin 8) (d : Dev) :
    (tripTestCmd src n d).2.part pt = d.part pt := by
  unfold tripTestCmd; (repeat' split) <;> simp only [Dev.updKao_part hkao]

theorem Dev.unforce_part {pt : Part} (hkao : pt ≠ .kao) (d : Dev) (n : Fin 8) :
    (Dev.unforce d n).part pt = d.part pt := by
  unfold Dev.unforce; simp only [Dev.updKao_part hkao]

@[simp] theorem Dev.forceEnd_part {pt : Part} (hque : pt ≠ .que) (hevc : pt ≠ .evc) (hkao : pt ≠ .kao) (d : Dev) (n : Fin 8) :
    (Dev.forceEnd d n).part pt = d.part pt := by
  unfold Dev.forceEnd; (repeat' split) <;> simp only [Dev.rawChange_part hque hevc hkao, Dev.unforce_part hkao]

@[simp] theorem Dev.closeRequest_part {pt : Part} (hque : pt ≠ .que) (hevc : pt ≠ .evc) (hkao : pt ≠ .kao) (hlsw : pt ≠ .lsw)
    (d : Dev) (n : Fin 8) :
    (Dev.closeRequest d n).part pt = d.part pt := by
  unfold Dev.closeRequest; (repeat' split) <;> simp only [Dev.closeAnswer_part hque hevc hlsw,
    Dev.kaoRequest_part hque hevc hkao]

@[simp] theorem Dev.closeWithdraw_part {pt : Part} (hkao : pt ≠ .kao) (d : Dev) (n : Fin 8) :
    (Dev.closeWithdraw d n).part pt = d.part pt := by
  unfold Dev.closeWithdraw; (repeat' split) <;> simp only [Dev.kaoWithdraw_part hkao]

@[simp] theorem Dev.feedback_part {pt : Part} (hevc : pt ≠ .evc) (hkao : pt ≠ .kao) (d : Dev) (n : Fin 8) (closed : Bool) :
    (Dev.feedback d n closed).part pt = d.part pt := by
  unfold Dev.feedback; dsimp only; (repeat' split) <;> simp only [Dev.kaoFeedback_part hkao, Dev.updEvc_part hevc]

end Sys2Proof.Machine
end

section
/-! SUPPORT. The scope of the commands (O60): the parts outside a command's scope, by the frame of its operation; and the
sessions of the other slices, which an operation of one slice leaves as they were. -/

namespace Sys2Proof.Machine

/-- A command changes no part of the block beyond its scope. -/
theorem exec_part {c : Instr} {ks : List Part} {pt : Part} {s t : State} (hs : commandScope c = some ks) (hp : pt ∉ ks)
    (h : exec c s = .next t) : t.dev.part pt = s.dev.part pt := by
  cases c <;> first | (cases hs; done) | skip
  all_goals
    obtain rfl := Option.some.inj hs
    obtain rfl := Host.Outcome.next.inj h
    clear h
    simp only [List.mem_cons, List.not_mem_nil, or_false, not_or] at hp
  case calArm | calCancel | overrideCmd | authorize | deny | evcStop | suspend | resume | faultClear | resTest | swOn | swOff
    | swRelease | routeClear | beacon => exact issueCommand_part _ _ _ _ _ _ _ (by simp [hp])
  case confirm | lockRelease => exact kaoRestricted_part _ _ _ _ _ _ (by simp [hp])
  case tripTest => exact kaoRestricted_part _ _ _ _ _ _ (by split <;> simp [hp])
  case wholeSecond => dsimp only; split <;> simp [hp]
  case residualSlewEnd => dsimp only; split <;> simp only [Dev.part_mk_tim hp]
  case dcStatusFrame => dsimp only; split <;> simp [hp]
  case panelWindowAccess write => cases write <;> simp [hp]
  case panelMemoryAccess write => cases write <;> simp [hp]
  all_goals simp [hp]

/-! ### The sessions of the other slices -/

/-- The session of a slice. -/
def Dev.session (d : Dev) (m : Fin 8) : EvcSlice := d.evc.s[m]

/-- An operation that leaves the connector control leaves every session. -/
theorem session_of_part {d e : Dev} {m : Fin 8} (h : e.part .evc = d.part .evc) : e.session m = d.session m :=
  congrArg (fun x : EvcState => x.s[m]) h

section
variable {n m : Fin 8} (h : m ≠ n) (d : Dev)
include h

theorem Dev.updEvc_session (f : EvcSlice → EvcSlice) : (d.updEvc n f).session m = d.session m := by
  have hat := d.updEvc_at n m f
  rwa [if_neg h] at hat

theorem Dev.cutContactor_session : (d.cutContactor n).session m = d.session m :=
  (Dev.updEvc_session h _ _).trans (session_of_part (Dev.evcDemand_part (by decide) ..))

theorem Dev.beginOpen_session (wait : Nat) : (d.beginOpen n wait).session m = d.session m := by
  unfold Dev.beginOpen
  split
  · exact Dev.cutContactor_session h d
  · exact Dev.updEvc_session h d _

theorem Dev.levelPilot_session : (d.levelPilot n).session m = d.session m := by
  unfold Dev.levelPilot
  split
  · rfl
  · exact Dev.updEvc_session h d _

theorem Dev.goSess_session (st : Sess) : (d.goSess n st).session m = d.session m := by
  unfold Dev.goSess
  dsimp only
  rw [Dev.levelPilot_session h, session_of_part (Dev.sessionEvent_part (by decide) ..), session_of_part (Dev.raise_part ..),
    Dev.updEvc_session h]

theorem Dev.setLock_session (on : Bool) : (d.setLock n on).session m = d.session m :=
  (Dev.updEvc_session h _ _).trans (session_of_part (foldl_part _ _ _ fun x c => Dev.evcDemand_part (by decide) x c on))

theorem Dev.goIdle_session : (d.goIdle n).session m = d.session m :=
  (Dev.updEvc_session h _ _).trans (Dev.goSess_session h d _)

theorem Dev.goAuthorized_session (method : Nat) (r : List Word) : (d.goAuthorized n method r).session m = d.session m :=
  (Dev.goSess_session h _ _).trans (Dev.updEvc_session h d _)

theorem Dev.goFinished_session (reason : Nat) : (d.goFinished n reason).session m = d.session m :=
  (Dev.setLock_session h _ _).trans ((Dev.goSess_session h _ _).trans (Dev.updEvc_session h d _))

theorem Dev.goStopping_session (reason wait : Nat) : (d.goStopping n reason wait).session m = d.session m :=
  (Dev.beginOpen_session h _ _).trans ((Dev.goSess_session h _ _).trans (Dev.updEvc_session h d _))

theorem Dev.goSuspended_session (b : Susp) : (d.goSuspended n b).session m = d.session m :=
  (Dev.beginOpen_session h _ _).trans ((Dev.goSess_session h _ _).trans (Dev.updEvc_session h d _))

theorem Dev.goFault_session (reason : Nat) : (d.goFault n reason).session m = d.session m := by
  have hgo : (((d.cutContactor n).updEvc n fun x => { x with reason := reason, preauth := none }).goSess n .fault).session m =
      d.session m := by
    rw [Dev.goSess_session h, Dev.updEvc_session h, Dev.cutContactor_session h]
  unfold Dev.goFault
  dsimp only
  split
  · rfl
  split
  · exact hgo
  · exact (Dev.setLock_session h _ _).trans hgo

theorem Dev.takeEnd_session : (d.takeEnd n).session m = d.session m :=
  (Dev.updEvc_session h _ _).trans (session_of_part (Dev.sessionEnd_part (by decide) (by decide) ..))

theorem Dev.settleEnd_session : (d.settleEnd n).session m = d.session m := by
  unfold Dev.settleEnd
  extract_lets d1
  have hend : d1.session m = d.session m := by
    unfold d1
    split
    · exact Dev.takeEnd_session h d
    · rfl
  split
  · exact (Dev.setLock_session h d1 false).trans hend
  · exact hend

theorem Dev.stopCause_session (reason wait : Nat) : (d.stopCause n reason wait).session m = d.session m := by
  unfold Dev.stopCause Dev.overtakeStop
  (repeat' split) <;> simp only [Dev.goFinished_session h, Dev.goStopping_session h, Dev.updEvc_session h]

theorem Dev.stopBy_session (reason wait : Nat) : (d.stopBy n reason wait).2.session m = d.session m := by
  unfold Dev.stopBy
  (repeat' split) <;> simp only [Dev.stopCause_session h, Dev.updEvc_session h]

theorem authorizeCmd_session (ag : Agent) (k : Nat) : (authorizeCmd ag k n d).2.session m = d.session m := by
  unfold authorizeCmd
  dsimp only
  split <;> simp only [Dev.goAuthorized_session h, Dev.updEvc_session h]

theorem denyCmd_session : (denyCmd n d).2.session m = d.session m := by
  unfold denyCmd
  split <;> simp only [Dev.goFinished_session h]

theorem stopCmd_session (ag : Agent) : (stopCmd ag n d).2.session m = d.session m := by
  have hstop := Dev.stopBy_session h d 2 0
  unfold stopCmd
  split
  · split
    · rw [‹d.stopBy n 2 0 = _›] at hstop
      exact (session_of_part (Dev.setReg_part ..)).trans hstop
    · exact hstop
  · exact Dev.stopBy_session h d _ _

theorem suspendCmd_session : (suspendCmd n d).2.session m = d.session m := by
  unfold suspendCmd
  split <;> simp only [Dev.goSuspended_session h]

theorem resumeCmd_session : (resumeCmd n d).2.session m = d.session m := by
  unfold resumeCmd
  split <;> simp only [Dev.updEvc_session h]

theorem faultClearCmd_session : (faultClearCmd n d).2.session m = d.session m := by
  unfold faultClearCmd
  split <;> simp only [Dev.goIdle_session h, Dev.settleEnd_session h]

end

/-- Issuing a command leaves a part as it was or as the command's effect leaves it. -/
theorem issueCommand_part_cases {pt : Part} (ag : Agent) (g op : Nat) (arg : BitVec 24) (u : Nat) (f : Dev → CmdSt × Dev)
    (d : Dev) : (issueCommand ag g op arg u f d).part pt = d.part pt ∨
      (issueCommand ag g op arg u f d).part pt = (f d).2.part pt := by
  unfold issueCommand
  (repeat' split) <;> simp only [Dev.answer_part, Dev.noteCommand_part, Dev.permReject_part, Dev.stateReject_part,
    ↓Dev.part_mk, true_or, or_true, *]

theorem issueCommand_session {m : Fin 8} (ag : Agent) (g op : Nat) (arg : BitVec 24) (u : Nat) (f : Dev → CmdSt × Dev) (d : Dev)
    (hk : (f d).2.session m = d.session m) : (issueCommand ag g op arg u f d).session m = d.session m := by
  rcases issueCommand_part_cases (pt := .evc) ag g op arg u f d with h | h
  · exact session_of_part h
  · exact (session_of_part h).trans hk

/-- A command of one slice leaves the session of every other. -/
theorem evcCommand_session {m : Fin 8} {arg : BitVec 24} (ok : Bool) (f : Fin 8 → Dev → CmdSt × Dev) (d : Dev)
    (hm : argUnit arg ≠ m.val) (hk : ∀ n, m ≠ n → (f n d).2.session m = d.session m) :
    (evcCommand arg ok f d).2.session m = d.session m := by
  unfold evcCommand
  (repeat' split) <;> first | rfl | exact hk _ fun e => hm (by rw [e])

/-- The command of a slice (R262 to R268) leaves the sessions of the others and Kaolin. -/
theorem sessionCommand_frame {ag : Agent} {arg : BitVec 24} {m : Fin 8} {s t : State} (hm : argUnit arg ≠ m.val)
    (h : exec (.authorize ag arg) s = .next t ∨ exec (.deny ag arg) s = .next t ∨ exec (.evcStop ag arg) s = .next t ∨
      exec (.suspend ag arg) s = .next t ∨ exec (.resume ag arg) s = .next t ∨ exec (.faultClear ag arg) s = .next t) :
    t.dev.session m = s.dev.session m ∧ t.dev.kao = s.dev.kao := by
  rcases h with h | h | h | h | h | h <;> refine ⟨?_, exec_part (pt := .kao) rfl (by decide) h⟩ <;>
    obtain rfl := Host.Outcome.next.inj h <;> refine issueCommand_session _ _ _ _ _ _ _ (evcCommand_session _ _ _ hm fun n hn => ?_)
  · exact authorizeCmd_session hn _ _ _
  · exact denyCmd_session hn _
  · exact stopCmd_session hn _ _
  · exact suspendCmd_session hn _
  · exact resumeCmd_session hn _
  · exact faultClearCmd_session hn _

/-! ### The waits of a session -/

section
variable {n m : Fin 8} (h : m ≠ n) (d : Dev)
include h

theorem Dev.authTimeout_session : (d.authTimeout n).session m = d.session m := by
  unfold Dev.authTimeout
  dsimp only
  split <;> simp only [Dev.goFinished_session h]

theorem Dev.lockTimeout_session : (d.lockTimeout n).session m = d.session m := by
  unfold Dev.lockTimeout
  dsimp only
  split <;> simp only [Dev.goStopping_session h]

theorem Dev.energize_session : (d.energize n).session m = d.session m := by
  unfold Dev.energize
  extract_lets x d1
  have hd1 : d1.session m = d.session m :=
    (session_of_part (Dev.raiseEvc_part ..)).trans
      ((Dev.updEvc_session h _ _).trans (session_of_part (Dev.evcDemand_part (by decide) ..)))
  split
  · split
    · exact hd1
    · exact (session_of_part (Dev.sessionStart_part (by decide) (by decide) ..)).trans hd1
  · rfl

theorem Dev.closeTimeout_session : (d.closeTimeout n).session m = d.session m := by
  unfold Dev.closeTimeout
  dsimp only
  split <;> simp only [Dev.goFault_session h]

theorem Dev.energizeTimeout_session : (d.energizeTimeout n).session m = d.session m := by
  unfold Dev.energizeTimeout
  split <;> simp only [Dev.goStopping_session h]

theorem Dev.stopWaitEnd_session : (d.stopWaitEnd n).session m = d.session m := by
  unfold Dev.stopWaitEnd
  split <;> simp only [Dev.cutContactor_session h]

theorem Dev.openTimeout_session : (d.openTimeout n).session m = d.session m := by
  unfold Dev.openTimeout
  dsimp only
  (repeat' split) <;>
    simp only [Dev.setLock_session h, Dev.goFault_session h, Dev.takeEnd_session h, Dev.updEvc_session h]

theorem Dev.endReading_session : (d.endReading n).session m = d.session m := by
  unfold Dev.endReading
  dsimp only
  (repeat' split) <;> simp only [Dev.setLock_session h, Dev.takeEnd_session h]

theorem Dev.evOvercurrent_session : (d.evOvercurrent n).session m = d.session m := by
  unfold Dev.evOvercurrent
  split
  · refine (session_of_part (Dev.oneEvent_part ..)).trans ((Dev.goStopping_session h _ _ _).trans ?_)
    exact session_of_part (Dev.raiseEvc_part ..)
  · rfl

theorem Dev.moduleLost_session : (d.moduleLost n).session m = d.session m := by
  unfold Dev.moduleLost
  dsimp only
  split
  · refine (session_of_part (Dev.oneEvent_part ..)).trans ((Dev.goStopping_session h _ _ _).trans ?_)
    exact (session_of_part (Dev.raiseEvc_part ..)).trans (Dev.updEvc_session h _ _)
  · rfl

end

/-- What ends a wait of one slice's session leaves the sessions of the others and Kaolin. -/
theorem sessionWait_frame {n m : Fin 8} {s t : State} (hn : m ≠ n)
    (h : exec (.authTimeout n) s = .next t ∨ exec (.lockConfirmTimeout n) s = .next t ∨ exec (.contactorEnergize n) s = .next t ∨
      exec (.closeTimeout n) s = .next t ∨ exec (.energizeTimeout n) s = .next t ∨ exec (.stopWaitEnd n) s = .next t ∨
      exec (.openConfirmTimeout n) s = .next t ∨ exec (.sessionEndReading n) s = .next t ∨
      exec (.evOvercurrent n) s = .next t ∨ exec (.moduleLost n) s = .next t) :
    t.dev.session m = s.dev.session m ∧ t.dev.kao = s.dev.kao := by
  rcases h with h | h | h | h | h | h | h | h | h | h <;> obtain rfl := Host.Outcome.next.inj h
  · exact ⟨Dev.authTimeout_session hn _, Dev_authTimeout_kao _ _⟩
  · exact ⟨Dev.lockTimeout_session hn _, Dev_lockTimeout_kao _ _⟩
  · exact ⟨Dev.energize_session hn _, Dev_energize_kao _ _⟩
  · exact ⟨Dev.closeTimeout_session hn _, Dev_closeTimeout_kao _ _⟩
  · exact ⟨Dev.energizeTimeout_session hn _, Dev_energizeTimeout_kao _ _⟩
  · exact ⟨Dev.stopWaitEnd_session hn _, Dev_stopWaitEnd_kao _ _⟩
  · exact ⟨Dev.openTimeout_session hn _, Dev_openTimeout_kao _ _⟩
  · exact ⟨Dev.endReading_session hn _, Dev_endReading_kao _ _⟩
  · exact ⟨Dev.evOvercurrent_session hn _, Dev_evOvercurrent_kao _ _⟩
  · exact ⟨Dev.moduleLost_session hn _, Dev_moduleLost_kao _ _⟩

/-- Settles O60: the parts outside the scope, then the sessions of the other slices, by commands and by waits. -/
theorem commandScope_frame : Obligations.CommandScope := by
  unfold Obligations.CommandScope
  refine ⟨fun c ks p s t hs hp h => Part.same_iff.mpr (exec_part hs hp h), ?commands, ?waits⟩
  case commands => exact fun ag arg m s t hm h => sessionCommand_frame hm h
  case waits => exact fun n m s t hn h => sessionWait_frame (fun e => hn e.symm) h

end Sys2Proof.Machine
end

section
/-! SUPPORT. The machine as a whole: a step, the command of every row, the reset state (R83, R97). -/

namespace Sys2Proof.Machine

/-- Settles O1: it is the equation of a step with a command waiting. -/
theorem stepRunsFront : Obligations.StepRunsFront := fun _ _ _ => rfl

/-- Settles O58: the meaning of every command is a next state with the same commands waiting. -/
theorem everyCommandCompletes : Obligations.EveryCommandCompletes := by
  unfold Obligations.EveryCommandCompletes
  intro c s
  cases c <;> exact ⟨_, rfl⟩

theorem reset_regs_value (a : Nat) : State.reset.dev.regs.value a = BitVec.ofNat 32 (resetAt a) := rfl

theorem reset_flagReg_bits (a : Nat) : (State.reset.dev.flagReg a).bits = 0 := rfl

theorem reset_kao (n : Fin 8) : State.reset.dev.kao.m[n] = {} := by
  simp [State.reset]

theorem reset_lsw (c : Fin 16) : State.reset.dev.lsw.c[c] = {} := by
  simp [State.reset]

theorem reset_lswOut (c : Fin 16) : State.reset.dev.lswOut c = false := by
  simp only [Dev.lswOut, reset_lsw, LswSt.driven, Bool.false_and]

theorem reset_key (k : Fin 64) : State.reset.dev.key.slots[k] = {} := by
  simp [State.reset]

/-- Settles O57. -/
theorem resetState : Obligations.ResetState := by
  unfold Obligations.ResetState
  refine ⟨rfl, ?_, reset_regs_value, reset_flagReg_bits, ?_, ?_, rfl, rfl, ?_, rfl, rfl⟩
  · intro n; rw [reset_kao]; intro h; cases h
  · intro n; rw [reset_kao]; exact ⟨rfl, rfl⟩
  · intro c; refine ⟨?_, reset_lswOut c⟩; rw [reset_lsw]
  · intro k; rw [reset_key]

/-! ### The write of a command register -/

theorem cmdAddr_toNat {g : Nat} (hg : g < 15) : (BitVec.ofNat 32 (lattice g 0xFF 0)).toNat = lattice g 0xFF 0 := by
  simp only [BitVec.toNat_ofNat, lattice]; omega

theorem addrGroup_cmdAddr {g : Nat} (hg : g < 15) : addrGroup (lattice g 0xFF 0) = g := by
  simp only [addrGroup, lattice]; omega

theorem addrUnit_cmdAddr (g : Nat) : addrUnit (lattice g 0xFF 0) = 0xFF := by
  simp only [addrUnit, lattice]; omega

theorem isCmdAddr_cmdAddr {g : Nat} (hg : g < 15) : isCmdAddr (lattice g 0xFF 0) = true := by
  have hoff : addrOff (lattice g 0xFF 0) = 0 := by simp only [addrOff, lattice]; omega
  simp [isCmdAddr, addrUnit_cmdAddr, addrGroup_cmdAddr hg, hoff, hg]

theorem cmdWord_toNat (op : Nat) (arg : BitVec 24) (h : op < 256) : (BitVec.ofNat 8 op ++ arg).toNat = op * 2 ^ 24 + arg.toNat := by
  have harg := arg.isLt
  rw [BitVec.toNat_append, ← Nat.shiftLeft_add_eq_or_of_lt harg, Nat.shiftLeft_eq, BitVec.toNat_ofNat, Nat.mod_eq_of_lt (by omega)]

theorem cmdWord_opcode {op : Nat} (arg : BitVec 24) (h : op < 256) : fld (BitVec.ofNat 8 op ++ arg) 31 24 = op := by
  have harg := arg.isLt
  simp only [fld, bits, cmdWord_toNat op arg h]; omega

theorem cmdWord_argument {op : Nat} (arg : BitVec 24) (h : op < 256) :
    BitVec.ofNat 24 (fld (BitVec.ofNat 8 op ++ arg) 23 0) = arg := by
  have harg := arg.isLt
  refine BitVec.eq_of_toNat_eq ?_
  simp only [fld, bits, cmdWord_toNat op arg h, BitVec.toNat_ofNat]; omega

/-- A write of a command register, its opcode and its argument taken apart. -/
theorem exec_latticeWrite_command {ag : Agent} {g op : Nat} {arg : BitVec 24} {s : State} (hg : g < 15) :
    exec (.latticeWrite ag (BitVec.ofNat 32 (lattice g 0xFF 0)) (BitVec.ofNat 8 op ++ arg)) s =
      .next (s.put ((s.dev.writeCommand ag g (BitVec.ofNat 8 op ++ arg)).settleReset.settleReleased)) := by
  have hrun : s.dev.latticeWrite ag (BitVec.ofNat 32 (lattice g 0xFF 0)).toNat (BitVec.ofNat 8 op ++ arg) =
      (s.dev.writeCommand ag g (BitVec.ofNat 8 op ++ arg)).settleReset := by
    rw [cmdAddr_toNat hg]
    simp only [Dev.latticeWrite, isCmdAddr_cmdAddr hg, addrGroup_cmdAddr hg, if_true]
  rw [← hrun]; rfl

/-- A command register runs the row of its opcode, where a row has it. -/
theorem Dev.writeCommand_some {d : Dev} {ag : Agent} {g op u : Nat} {arg : BitVec 24} {h : Dev → CmdSt × Dev} (hop : op < 256)
    (hr : restrictedCommand g op = false) (hc : ((commonCommand g op arg).orElse fun _ => groupCommand ag g op arg) = some (u, h)) :
    d.writeCommand ag g (BitVec.ofNat 8 op ++ arg) = issueCommand ag g op arg u h d := by
  simp only [Dev.writeCommand, cmdWord_opcode arg hop, cmdWord_argument arg hop, hc, hr, Bool.false_eq_true, if_false]

/-- A command register completes an opcode that its group does not have with ARG. -/
theorem Dev.writeCommand_none {d : Dev} {ag : Agent} {g op : Nat} {arg : BitVec 24} (hop : op < 256) (hready : d.ready ag g 0xFF)
    (hc : ((commonCommand g op arg).orElse fun _ => groupCommand ag g op arg) = none) :
    d.writeCommand ag g (BitVec.ofNat 8 op ++ arg) = (d.noteCommand ag g op .arg).answer ag .arg := by
  simp only [Dev.writeCommand, cmdWord_opcode arg hop, cmdWord_argument arg hop, hc]
  exact issueCommand_arg hready rfl

/-- Settles O56. -/
theorem commandWrite : Obligations.CommandWrite := by
  unfold Obligations.CommandWrite
  intro ag g op arg s hg hop hr
  constructor
  · intro u h hc
    rw [exec_latticeWrite_command hg, Dev.writeCommand_some hop hr hc]
  · intro hc hready
    rw [exec_latticeWrite_command hg, Dev.writeCommand_none hop hready hc]

end Sys2Proof.Machine
end

section
/-! SUPPORT. The checks of a command write (R83) and the view of <GRP>_CMDST (R97). -/

namespace Sys2Proof.Machine

theorem agentNum_injective : Function.Injective agentNum := by
  intro a b h
  cases a <;> cases b <;> first | rfl | exact absurd h (by decide)

/-- A command of an agent whose grants do not cover it is refused with PERM. -/
theorem issueCommand_ungranted {d : Dev} {ag : Agent} {g u op : Nat} {arg : BitVec 24} {h : Dev → CmdSt × Dev}
    (hi : d.canIssue ag = true) (hg : d.granted ag g u .command = false) : issueCommand ag g op arg u h d = d.permReject ag g := by
  unfold issueCommand
  rw [if_neg (by simp [hi]), if_pos (by simp [hg])]

/-- A command of a group that has a PENDING one completes with BUSY. -/
theorem issueCommand_busy {d : Dev} {ag : Agent} {g u op : Nat} {arg : BitVec 24} {h : Dev → CmdSt × Dev}
    (hi : d.canIssue ag = true) (hg : d.granted ag g u .command = true) (hb : (d.busy.any fun b => groupNum b.group = g) = true) :
    issueCommand ag g op arg u h d = (d.noteCommand ag g op .busy).answer ag .busy := by
  unfold issueCommand
  rw [if_neg (by simp [hi]), if_neg (by simp [hg]), if_pos hb]

theorem cmdstAddr_lt {g : Nat} (hg : g < 15) : cmdstAddr g < 2 ^ 32 := by
  simp only [cmdstAddr, lattice]; omega

theorem Dev.view_noteCommand_self (d : Dev) (ag : Agent) (g op : Nat) (st : CmdSt) :
    (d.noteCommand ag g op st).view ag (cmdstAddr g) =
      packW [(8, op), (16, fld (d.view ag (cmdstAddr g)) 23 8 + 1), (8, st.code)] := by
  unfold Dev.noteCommand
  rw [Dev.view_setView, if_pos rfl]

theorem Dev.view_noteCommand_other {d : Dev} {ag other : Agent} {g a : Nat} (op : Nat) (st : CmdSt) (hg : g < 15)
    (hne : other ≠ ag) (ha : a < 2 ^ 32) : (d.noteCommand ag g op st).view other a = d.view other a := by
  unfold Dev.noteCommand
  rw [Dev.view_setView, if_neg]
  exact fun e => hne (agentNum_injective ((viewKey_inj (cmdstAddr_lt hg) ha).mp e).1.symm)

/-- Settles O3: one rule for each check, in the order of R83, then the view. -/
theorem commandIssue : Obligations.CommandIssue := by
  unfold Obligations.CommandIssue
  constructor
  · intro ag g op u arg h d
    exact ⟨issueCommand_absent, issueCommand_ungranted, issueCommand_busy, fun hr d1 => issueCommand_ok hr,
      fun hr t d1 => issueCommand_state hr, fun hr d1 => issueCommand_arg hr⟩
  · intro d ag other g op a st _ hg
    exact ⟨d.view_noteCommand_self ag g op st, fun hne ha => Dev.view_noteCommand_other op st hg hne ha⟩

end Sys2Proof.Machine
end

section
/-! SUPPORT. The servo and the time step (R141, R149, R157). -/

namespace Sys2Proof.Machine

theorem clampInt_le (v : Int) (m : Nat) : clampInt v m ≤ m := by
  unfold clampInt; split <;> [skip; split] <;> omega

theorem neg_le_clampInt (v : Int) (m : Nat) : -(m : Int) ≤ clampInt v m := by
  unfold clampInt; split <;> [skip; split] <;> omega

/-- A rounded value lies between the floor and the floor plus 1, and never above an integer bound of the value. -/
theorem Dev.round_le {d : Dev} {q : Rat} {m : Int} (h : q ≤ m) : (d.round q).1 ≤ m := by
  unfold Dev.round
  by_cases hq : q.den = 1
  · rw [if_pos hq, ← Int.cast_le (R := Rat), Rat.coe_int_num_of_den_eq_one hq]
    exact h
  · have hlt : q.floor < m := by
      refine Rat.floor_lt_iff.2 (lt_of_le_of_ne h ?_)
      rintro rfl
      exact hq (by simp)
    rw [if_neg hq]
    dsimp only
    split <;> omega

theorem Dev.le_round {d : Dev} {q : Rat} {m : Int} (h : (m : Rat) ≤ q) : m ≤ (d.round q).1 := by
  unfold Dev.round
  by_cases hq : q.den = 1
  · rw [if_pos hq, ← Int.cast_le (R := Rat), Rat.coe_int_num_of_den_eq_one hq]
    exact h
  · have hle : m ≤ q.floor := Rat.le_floor_iff.2 h
    rw [if_neg hq]
    dsimp only
    split <;> omega

@[simp] theorem Dev.round_tim (d : Dev) (q : Rat) : (d.round q).2.tim = d.tim := Dev.round_part (pt := .tim) d q

theorem ratAbs_le_iff {q r : Rat} : ratAbs q ≤ r ↔ -r ≤ q ∧ q ≤ r := by
  unfold ratAbs
  split <;> constructor
  · intro h; constructor <;> linarith
  · rintro ⟨h1, h2⟩; linarith
  · intro h; constructor <;> linarith
  · exact fun h => h.2


theorem clampInt_trim (v : Int) : -100000 ≤ clampInt v 100000 ∧ clampInt v 100000 ≤ 100000 :=
  ⟨neg_le_clampInt v 100000, clampInt_le v 100000⟩

/-- A trim within ±100 000 ppb and a slew within ±500 000 ppb (R149). -/
def TimState.Limited (t : TimState) : Prop :=
  (-100000 ≤ t.trim ∧ t.trim ≤ 100000) ∧ -500000 ≤ t.slew ∧ t.slew ≤ 500000

theorem Dev.raiseTim_tim (d : Dev) (b : Nat) : (d.raiseTim b).tim = d.tim := Dev.raise_tim ..

/-- The proportional part of the servo for an offset (R149), in ppb. -/
def Dev.servoRaw (d : Dev) (off : Rat) : Rat :=
  off * 1000000000 / d.syncInterval / ((2 ^ d.rfld 1 1 4 23 20 : Nat) : Rat)

/-- The slew of R149: the rounded proportional part, or the limit itself where that part is larger. -/
def Dev.servoSlew (d : Dev) (off : Rat) : Int :=
  if 500000 < ratAbs (d.servoRaw off) then (if off < 0 then -500000 else 500000) else (d.round (d.servoRaw off)).1

/-- The first half of `Dev.servoLock`: the slew and the offset that the servo shows. -/
def Dev.servoProportional (d : Dev) (off : Rat) : Dev :=
  let d2 := if 500000 < ratAbs (d.servoRaw off) then (d.round (d.servoRaw off)).2.raiseTim 2 else (d.round (d.servoRaw off)).2
  { (d2.round off).2.setReg 1 1 0x10 (wInt (clampInt (d2.round off).1 0x7FFFFFFF)) with
    tim := { (d2.round off).2.tim with missed := 0, slew := d.servoSlew off } }

/-- The second half of `Dev.servoLock`: the trim and the count of intervals within the lock limit. -/
def Dev.servoIntegral (d d4 : Dev) (off : Rat) : Dev :=
  if ratAbs off ≤ (lockLimit d.tim.source : Rat) then
    let (t, d5) := d4.round ((d.tim.trim : Rat) + off * 1000000000 / d.syncInterval / ((2 ^ d.rfld 1 1 4 19 16 : Nat) : Rat))
    let d6 := { d5 with tim := { d5.tim with trim := clampInt t 100000, good := d5.tim.good + 1 } }
    if 4 ≤ d6.tim.good ∧ d6.tim.quality ≠ sourceQuality d.tim.source ∧ d6.tim.quality ≠ .notValid then
      { (d6.noteErr).raiseTim 4 with tim := { d6.tim with quality := sourceQuality d.tim.source } }
    else d6
  else { d4 with tim := { d4.tim with good := 0 } }

theorem Dev.servoLock_eq (d : Dev) (offs : List Int) :
    d.servoLock offs = d.oneEvent fun d => d.servoIntegral (d.servoProportional (meanOffset offs)) (meanOffset offs) := rfl

theorem Dev.servoSlew_limited (d : Dev) (off : Rat) : -500000 ≤ d.servoSlew off ∧ d.servoSlew off ≤ 500000 := by
  unfold Dev.servoSlew
  by_cases hbig : 500000 < ratAbs (d.servoRaw off)
  · rw [if_pos hbig]
    split <;> decide
  · rw [if_neg hbig]
    obtain ⟨hlo, hhi⟩ := ratAbs_le_iff.1 (not_lt.1 hbig)
    exact ⟨Dev.le_round (by exact_mod_cast hlo), Dev.round_le (by exact_mod_cast hhi)⟩

theorem Dev.servoProportional_tim (d : Dev) (off : Rat) :
    (d.servoProportional off).tim = { d.tim with missed := 0, slew := d.servoSlew off } := by
  unfold Dev.servoProportional
  split <;> simp only [Dev.round_tim, Dev.raiseTim_tim]

/-- The integral part keeps a trim within its limit and changes no slew. -/
theorem Dev.servoIntegral_limited (d d4 : Dev) (off : Rat) (h : d4.tim.Limited) : (d.servoIntegral d4 off).tim.Limited := by
  obtain ⟨ht, hs⟩ := h
  unfold Dev.servoIntegral
  split
  · have h5 := d4.round_tim ((d.tim.trim : Rat) + off * 1000000000 / d.syncInterval / ((2 ^ d.rfld 1 1 4 19 16 : Nat) : Rat))
    rw [← h5] at hs
    dsimp only
    split <;> exact ⟨clampInt_trim _, hs⟩
  · exact ⟨ht, hs⟩

/-- The servo's reaction to an offset sets a slew within its limit and changes the trim within its own (R149). -/
theorem Dev.servoLock_limited (d : Dev) (offs : List Int) (ht : -100000 ≤ d.tim.trim ∧ d.tim.trim ≤ 100000) :
    (d.servoLock offs).tim.Limited := by
  rw [Dev.servoLock_eq, Dev.oneEvent_tim]
  apply Dev.servoIntegral_limited
  rw [Dev.servoProportional_tim]
  exact ⟨ht, d.servoSlew_limited _⟩

/-- The end of a servo interval (R147, R149) keeps the limits. -/
theorem Dev.servoEnd_limited (d : Dev) (ht : -100000 ≤ d.tim.trim ∧ d.tim.trim ≤ 100000) : d.servoEnd.tim.Limited := by
  have hidle : ∀ t : TimState, t.trim = d.tim.trim → t.slew = 0 → t.Limited := by
    intro t h1 h2
    exact ⟨h1 ▸ ht, by rw [h2]; decide, by rw [h2]; decide⟩
  unfold Dev.servoEnd
  extract_lets offs d1
  split
  · exact hidle _ rfl rfl
  split
  · split
    · rw [Dev.raiseTim_tim]
      unfold Dev.holdover
      split <;> exact hidle _ rfl rfl
    · exact hidle _ rfl rfl
  · exact d.servoLock_limited offs ht

/-- Settles O21. -/
theorem servoLimits : Obligations.ServoLimits := by
  intro d hlo hhi
  obtain ⟨⟨h1, h2⟩, h3, h4⟩ := d.servoEnd_limited ⟨hlo, hhi⟩
  exact ⟨h1, h2, h3, h4⟩

/-! The time step. -/

/-- The rounded step is a multiple of the sample period, within half of one of the delta, halves going toward zero (R157). -/
theorem roundStep_nearest (delta : Int) :
    roundStep delta % 62500 = 0 ∧ (delta - roundStep delta).natAbs ≤ 31250 ∧
    ((delta - roundStep delta).natAbs = 31250 → (roundStep delta).natAbs < delta.natAbs) := by
  unfold roundStep samplePeriod
  dsimp only
  split <;> omega

theorem Dev.noteErr_tim (d : Dev) : d.noteErr.tim = d.tim := rfl

theorem Dev.moveTime_now (d : Dev) (p : PendingStep) (h : 0 ≤ (d.tim.now : Int) + roundStep p.delta) :
    ((d.moveTime p).tim.now : Int) = d.tim.now + roundStep p.delta := Int.toNat_of_nonneg h

/-- After TIME_SET, and after TIME_ADJUST of a valid site time, the quality is HOLDOVER with the error given (R157). -/
theorem Dev.moveTime_holdover (d : Dev) (p : PendingStep) (h : p.set = true ∨ d.tim.quality ≠ .notValid) :
    (d.moveTime p).tim.quality = .holdover ∧ (d.moveTime p).tim.errBase = p.accUs := by
  have hk : (d.tim.quality = .notValid && !p.set) = false := by
    rcases h with h | h <;> simp [h]
  unfold Dev.moveTime
  simp only [hk]
  exact ⟨rfl, rfl⟩

/-- TIME_ADJUST leaves NOT_VALID as it is (R157). -/
theorem Dev.moveTime_notValid (d : Dev) (p : PendingStep) (hp : p.set = false) (h : d.tim.quality = .notValid) :
    (d.moveTime p).tim.quality = .notValid := by
  simp [Dev.moveTime, hp, h]

theorem Dev.timErr_notValid {d : Dev} (h : d.tim.quality = .notValid) : d.timErr = 0xFFFFFFFF := by
  simp [Dev.timErr, h]

theorem Dev.timeStepApply_due {d : Dev} {p : PendingStep} (hp : d.tim.step = some p) (h : d.stepDue = true) :
    d.timeStepApply = d.applyStep p := by
  simp [Dev.timeStepApply, hp, h]

theorem Dev.timeStepApply_idle {d : Dev} (h : d.tim.step = none ∨ d.stepDue = false) : d.timeStepApply = d := by
  unfold Dev.timeStepApply
  rcases h with h | h
  · rw [h]
  · split <;> simp [h]

/-- Settles O19. -/
theorem timeStep : Obligations.TimeStep := by
  refine ⟨fun d p hnow => ?_, fun s => ⟨fun p hp hdue => ?_, fun h => ?_, fun h0 hend => ?_⟩⟩
  · obtain ⟨hmul, hnear, hhalf⟩ := roundStep_nearest p.delta
    exact ⟨d.moveTime_now p hnow, hmul, hnear, hhalf, rfl, rfl, d.moveTime_holdover p, fun hp hq =>
      ⟨d.moveTime_notValid p hp hq, Dev.timErr_notValid (d.moveTime_notValid p hp hq)⟩⟩
  · exact congrArg (fun d => Host.Outcome.next (s.put d)) (Dev.timeStepApply_due hp hdue)
  · exact congrArg (fun d => Host.Outcome.next (s.put d)) (Dev.timeStepApply_idle h)
  · exact congrArg (fun d => Host.Outcome.next (s.put d)) (if_pos ⟨h0, hend⟩)

end Sys2Proof.Machine
end

section
/-! SUPPORT. Energy of a delivery (R179, R180) and its credit (R207, R208). -/

namespace Sys2Proof.Machine

/-- What truncation leaves has a magnitude below 1. -/
theorem ratAbs_sub_ratTrunc_lt (q : Rat) : ratAbs (q - (ratTrunc q : Rat)) < 1 := by
  have hfloor : ∀ x : Rat, (x.floor : Rat) ≤ x ∧ x < x.floor + 1 := fun x =>
    ⟨Rat.le_floor_iff.1 le_rfl, by exact_mod_cast Rat.floor_lt_iff.1 (Int.lt_succ x.floor)⟩
  have habs : ∀ x : Rat, -1 < x → x < 1 → ratAbs x < 1 := by
    intro x h1 h2
    unfold ratAbs
    split <;> linarith
  unfold ratTrunc
  split
  · obtain ⟨h1, h2⟩ := hfloor (-q)
    refine habs _ ?_ ?_ <;> push_cast <;> linarith
  · obtain ⟨h1, h2⟩ := hfloor q
    refine habs _ ?_ ?_ <;> linarith

/-- Truncation of a value that is not negative leaves a remainder that is not negative. -/
theorem ratTrunc_le {q : Rat} (h : 0 ≤ q) : (ratTrunc q : Rat) ≤ q := by
  rw [ratTrunc, if_neg (not_lt.2 h)]
  exact Rat.le_floor_iff.1 le_rfl

theorem ratTrunc_nonneg {q : Rat} (h : 0 ≤ q) : 0 ≤ ratTrunc q := by
  rw [ratTrunc, if_neg (not_lt.2 h)]
  exact Rat.le_floor_iff.2 (by exact_mod_cast h)

theorem ratTrunc_zero : ratTrunc 0 = 0 := by decide

/-- Below the creep level nothing is measured (R180). -/
theorem deliveryEnergies_creep {x : Sums} {creep : Nat} (h : (deliveryEnergies x creep).creep = true) :
    deliveryEnergies x creep = { mtr := 0, loss := 0, veh := 0, q := 0, creep := true } := by
  unfold deliveryEnergies at h ⊢
  dsimp only at h ⊢
  split at h
  · next hb => rw [if_pos hb]
  · exact absurd h Bool.false_ne_true

/-- Settles O23. -/
theorem deliveryKeepsEnergy : Obligations.DeliveryKeepsEnergy := by
  intro e creep
  dsimp only
  unfold Engine.close
  extract_lets en a whole b wq h
  refine ⟨ratAbs_sub_ratTrunc_lt a, ratAbs_sub_ratTrunc_lt b, ?_, rfl, fun hc => ⟨?_, rfl⟩, fun hc => ?_⟩
  · show whole.toNat = 0 ∨ (-whole).toNat = 0
    omega
  · have hnet : (whole.toNat : Rat) - ((-whole).toNat : Rat) = whole := by
      exact_mod_cast (by omega : (whole.toNat : Int) - ((-whole).toNat : Int) = whole)
    have ha : a = en.veh + e.remVeh := by simp [a, show en.creep = false from hc]
    show (whole.toNat : Rat) - ((-whole).toNat : Rat) + (a - whole) = en.veh + e.remVeh
    rw [hnet, ha]
    ring
  · have hen : en = { mtr := 0, loss := 0, veh := 0, q := 0, creep := true } := deliveryEnergies_creep hc
    have ha : a = 0 := by simp [a, hen]
    have hb : b = 0 := by simp [b, hen]
    have hw : whole = 0 := by rw [← ratTrunc_zero, ← ha]
    have hq : wq = 0 := by rw [← ratTrunc_zero, ← hb]
    simp [h, hen, ha, hb, hw, hq]

theorem satQ_eq (a b : Nat) : satQ a b = min (a + b) (2 ^ 64 - 1) := rfl

theorem le_satQ {a : Nat} (b : Nat) (h : a < 2 ^ 64) : a ≤ satQ a b := by
  rw [satQ_eq]
  omega

/-- The register set after a credit: the two registers of the tariff in force take import and export (R207). -/
theorem BilSlice.credit_e (b : BilSlice) (h : Handover) (j : Fin 32) :
    (b.credit h).e[j] = if j.val + 1 = b.tariff then satQ b.e[j] h.imp
      else if j.val + 1 = b.tariff + 16 then satQ b.e[j] h.exp else b.e[j] := by
  simp [BilSlice.credit]

theorem BilSlice.credit_q (b : BilSlice) (h : Handover) (k : Fin 4) :
    (b.credit h).q[k] = if k.val = h.quadrant then satQ b.q[k] h.q else b.q[k] := by
  simp [BilSlice.credit]

theorem BilSlice.le_credit_e (b : BilSlice) (h : Handover) (j : Fin 32) (hj : b.e[j] < 2 ^ 64) :
    b.e[j] ≤ (b.credit h).e[j] := by
  rw [BilSlice.credit_e]
  split
  · exact le_satQ _ hj
  split
  · exact le_satQ _ hj
  · exact le_rfl

theorem BilSlice.credit_tariff (b : BilSlice) (h : Handover) : (b.credit h).tariff = b.tariff := by
  simp only [BilSlice.credit]

/-- Settles O26. -/
theorem creditTariff : Obligations.CreditTariff := by
  intro b h _ _ hl hr
  set l : Rat := h.loss + b.remLoss with hldef
  have hl0 : 0 ≤ l := add_nonneg hl hr
  have htrunc : ((ratTrunc l).toNat : Rat) = ratTrunc l := by
    exact_mod_cast Int.toNat_of_nonneg (ratTrunc_nonneg hl0)
  have hrem : (b.credit h).remLoss = l - (ratTrunc l : Rat) := by
    rw [← htrunc]; rfl
  refine ⟨fun j hj => ⟨?_, b.le_credit_e h j hj⟩, fun k _ => ?_, fun hb => le_satQ (ratTrunc l).toNat hb, fun hb => ?_, ?_, ?_,
    b.credit_tariff h⟩
  · rw [BilSlice.credit_e, satQ_eq, satQ_eq]
  · rw [BilSlice.credit_q, satQ_eq]
  · have hloss : (b.credit h).loss = b.loss + (ratTrunc l).toNat := by
      show satQ b.loss (ratTrunc l).toNat = _
      rw [satQ_eq]
      omega
    rw [hloss, hrem]
    push_cast
    rw [htrunc]
    ring
  · rw [hrem]
    exact sub_nonneg.2 (ratTrunc_le hl0)
  · have habs := ratAbs_sub_ratTrunc_lt l
    rw [hrem]
    exact lt_of_le_of_lt (ratAbs_le_iff.1 le_rfl).2 habs

end Sys2Proof.Machine
end

section
/-! SUPPORT. The service of the queues (R125, R128, R134, R138, R139). -/

namespace Sys2Proof.Machine

/-- Two outcomes that go on with equal devices. -/
theorem next_put {s : State} {d d' : Dev} (h : d = d') :
    (Host.Outcome.next (s.put d) : Host.Outcome State Fault Refusal) = .next (s.put d') := by rw [h]

theorem Dev.after_iff (d : Dev) (t w : Nat) : d.after t w = true ↔ t + w ≤ d.tim.elapsed := decide_eq_true_iff

/-- A notice when the oldest unnotified message has waited for the hold time (R128). -/
theorem Dev.noticeHold_due {d : Dev} {q : Fin 64} {m : QMsg} (hc : d.que.q[q].entry.cls ≠ 0)
    (hh : d.rfld 2 q.val 0x10 15 0 ≠ 0) (hm : (d.que.q[q].msgs.find? fun m => !m.notified) = some m)
    (hw : m.since + d.rfld 2 q.val 0x10 15 0 * 10000 ≤ d.tim.elapsed) : d.noticeHold q = d.notice q := by
  simp only [Fin.getElem_fin] at hc hm
  simp [Dev.noticeHold, hm, hc, hh, Dev.after_iff, hw]

/-- QUE_FLUSH of a hardware queue of class 2 or 3, or of one whose producer is idle, is accepted (R139). -/
theorem queFlushCmd_ok {arg : BitVec 24} {d : Dev} {q : Fin 64} (hq : argUnit arg = q.val) (hd : d.que.q[q].entry.depth ≠ 0)
    (hc : d.que.q[q].entry.cons ≠ 3) (hp : d.que.q[q].entry.cls ≤ 1 → d.producerIdle d.que.q[q].entry.prod = true) :
    queFlushCmd arg d = (.ok, (d.count 2 q.val 0x1C 31 0 (d.que.q[q].fill + d.que.q[q].building.length)).updQ q fun x =>
      { x with msgs := [], building := [], reserved := 0, dropRest := x.dropRest + (x.reserved - x.building.length) }) := by
  obtain ⟨n, hn⟩ := q
  obtain rfl : argUnit arg = n := hq
  have hno : ¬((d.que.q[argUnit arg]).entry.cons = 3 ∨
      ((d.que.q[argUnit arg]).entry.cls ≤ 1 ∧ (!d.producerIdle (d.que.q[argUnit arg]).entry.prod) = true)) := by
    rintro (h | ⟨h1, h2⟩)
    · exact hc h
    · have hi : d.producerIdle (d.que.q[argUnit arg]).entry.prod = true := hp h1
      rw [hi] at h2
      exact absurd h2 (by decide)
  exact (dif_pos hn).trans ((if_neg hd).trans (if_neg hno))

theorem queCountClearCmd_ok {arg : BitVec 24} {d : Dev} {q : Fin 64} (hq : argUnit arg = q.val)
    (hd : d.que.q[q].entry.depth ≠ 0) :
    queCountClearCmd arg d = (.ok, ((d.setReg 2 q.val 0x14 0).setReg 2 q.val 0x18 0).setReg 2 q.val 0x1C 0) := by
  obtain ⟨n, hn⟩ := q
  obtain rfl : argUnit arg = n := hq
  exact (dif_pos hn).trans (if_neg hd)

/-! Kept messages go on as far as there is room (R125). -/

theorem Dev.commit_entry (d : Dev) (q p : Fin 64) (ws : List QData) : ((d.commit q ws).que.q[p]).entry = (d.que.q[p]).entry := by
  rcases d.commit_cases q ws with h | h <;> simp [h, Dev.notice_at, Dev.enqueue_at] <;> split <;> simp_all

theorem Dev.writeHeld_entry (q p : Fin 64) (ws : List (List QData)) :
    ∀ d : Dev, ((Dev.writeHeld q ws d).que.q[p]).entry = (d.que.q[p]).entry := by
  induction ws with
  | nil => exact fun d => rfl
  | cons w rest ih =>
    intro d
    unfold Dev.writeHeld
    split
    · rw [ih, Dev.commit_entry]
      simp only [Fin.getElem_fin, Dev.updQ_at]
      split <;> simp_all
    · rfl

theorem Dev.writeHeld_part {pt : Part} (h : pt ≠ .que) (q : Fin 64) (ws : List (List QData)) :
    ∀ d : Dev, (Dev.writeHeld q ws d).part pt = d.part pt := by
  induction ws with
  | nil => exact fun d => rfl
  | cons w rest ih =>
    intro d
    unfold Dev.writeHeld
    split
    · rw [ih, Dev.commit_part h, Dev.updQ_part h]
    · rfl

/-- A queue that a search by its entry finds has such an entry. -/
theorem Dev.findQueue_some {d : Dev} {p : QueueEntry → Bool} {q : Fin 64} (h : d.findQueue p = some q) :
    p (d.que.q[q]).entry = true := by
  have := List.find?_some h
  simp only [Bool.and_eq_true] at this
  exact this.2

theorem foldl_id {α β : Type} {f : β → α → β} {b : β} {l : List α} (h : ∀ a ∈ l, f b a = b) : l.foldl f b = b := by
  induction l with
  | nil => rfl
  | cons a l ih =>
    rw [List.foldl_cons, h a (by simp)]
    exact ih fun x hx => h x (by simp [hx])

/-- With no frame held for room the ring's buffers only report their flow. -/
theorem Dev.workBuffers_empty {d : Dev} (h : d.aul.rxHeld = []) : d.workBuffers = d.flow := by
  have haul : { d.aul with rxHeld := [] } = d.aul := by rw [← h]
  show (Dev.releaseRing d.aul.rxHeld [] d).flow = d.flow
  rw [h]
  show ({ d with aul := { d.aul with rxHeld := [] } } : Dev).flow = d.flow
  rw [haul]

/-- The room of a queue whose producer is no slice's metrology or protection serves its own kept messages only (R125). -/
theorem Dev.roomAvailable_plain {d : Dev} {q : Fin 64} (hp : d.que.q[q].entry.prod < 0x10) (hr : d.aul.rxHeld = []) :
    d.roomAvailable q = (Dev.writeHeld q d.que.q[q].held d).flow := by
  unfold Dev.roomAvailable
  extract_lets d1 d2 d3
  have hp1 : (d1.que.q[q]).entry.prod < 0x10 := by rw [Dev.writeHeld_entry]; exact hp
  have h2 : d2 = d1 := by
    refine foldl_id fun n _ => if_neg fun hq => ?_
    have := Dev.findQueue_some hq
    simp only [Bool.and_eq_true, decide_eq_true_eq] at this
    omega
  have h3 : d3 = d2 := by
    refine foldl_id fun n _ => if_neg fun hq => ?_
    have := Dev.findQueue_some hq
    simp only [Bool.and_eq_true, decide_eq_true_eq, h2] at this
    omega
  have haul : d1.aul = d.aul := Dev.writeHeld_part (pt := .aul) (by decide) q _ d
  rw [h3, h2]
  exact Dev.workBuffers_empty (by rw [haul, hr])

theorem Dev.writeHeld_cons {d : Dev} {q : Fin 64} {ws : List QData} {rest : List (List QData)}
    (h : (d.que.q[q]).room ws.length = true) :
    Dev.writeHeld q (ws :: rest) d = Dev.writeHeld q rest ((d.updQ q fun x => { x with held := rest }).commit q ws) := by
  rw [Dev.writeHeld]
  exact if_pos h

/-- An issue that waits for its quarantine may go on when that has passed (R134). -/
theorem Dev.quarantineEnd_over {d : Dev} {sp : Fin 13} (h : (d.que.spaces[sp]).quarOver d.tim.elapsed = true) :
    d.quarantineEnd sp = { (d.endQuarantine sp) with
      aul := { d.aul with idWait := d.aul.idWait && decide (sp ≠ 9) }, plc := { d.plc with idWait := d.plc.idWait && decide (sp ≠ 11) } } := by
  refine (if_pos h).trans ?_
  by_cases h9 : sp = 9
  · subst h9; simp [Dev.endQuarantine, Dev.updSpace]
  by_cases h11 : sp = 11
  · subst h11; simp [Dev.endQuarantine, Dev.updSpace]
  · simp [Dev.endQuarantine, Dev.updSpace, h9, h11]

theorem Dev.endQuarantine_at (d : Dev) (sp p : Fin 13) :
    (d.endQuarantine sp).que.spaces[p] = if p = sp then { d.que.spaces[sp] with quar := none } else d.que.spaces[p] :=
  Dev.updSpace_at ..

/-- What QUE_FLUSH leaves in its queue and in the others (R139). -/
theorem queFlush_at (d : Dev) (ag : Agent) (q p : Fin 64) (n : Nat) :
    (((d.count 2 q.val 0x1C 31 0 n).updQ q fun x =>
      { x with msgs := [], building := [], reserved := 0, dropRest := x.dropRest + (x.reserved - x.building.length) }).completed ag 2 0x10).que.q[p] =
    if p = q then { d.que.q[q] with msgs := [], building := [], reserved := 0
                                    dropRest := (d.que.q[q]).dropRest + ((d.que.q[q]).reserved - (d.que.q[q]).building.length) }
    else d.que.q[p] := by
  simp

/-- Settles O16. -/
theorem queueService : Obligations.QueueService := by
  refine ⟨⟨fun q s m hc hh hm hw => next_put (Dev.noticeHold_due hc hh hm hw), fun ag arg s q hq hready hd => ⟨fun hc hp => ?_, ?_⟩⟩,
    fun q s hp hr => next_put (Dev.roomAvailable_plain hp hr), fun q ws rest d h => Dev.writeHeld_cons h, fun sp s h => ?_⟩
  · rw [← hq] at hready
    refine ⟨_, next_put (issueCommand_ok hready (queFlushCmd_ok hq hd hc hp)), ?_, ?_, ?_, ?_, ?_⟩
    · exact (congrArg Queue.msgs (queFlush_at ..)).trans (by rw [if_pos rfl])
    · exact (congrArg Queue.building (queFlush_at ..)).trans (by rw [if_pos rfl])
    · exact (congrArg Queue.reserved (queFlush_at ..)).trans (by rw [if_pos rfl])
    · exact fun p hpq => (queFlush_at ..).trans (if_neg hpq)
    · exact congrArg Reply.status (Dev.completed_reply ..)
  · rw [← hq] at hready
    exact next_put (issueCommand_ok hready (queCountClearCmd_ok hq hd))
  · refine ⟨_, next_put (Dev.quarantineEnd_over h), ?_, ?_, rfl, ?_, ?_⟩
    · exact (congrArg IdSpace.quar (Dev.endQuarantine_at s.dev sp sp)).trans (by rw [if_pos rfl])
    · exact fun p hp => (Dev.endQuarantine_at s.dev sp p).trans (if_neg hp)
    · rintro rfl
      exact Bool.and_false _
    · rintro rfl
      exact Bool.and_false _

end Sys2Proof.Machine
end

section
/-! SUPPORT. Writes of BIL_CFG (R222) and the signer (R241 to R243). -/

namespace Sys2Proof.Machine

/-- Replacing the bits of a mask, written as the model's `mergeMask` does: the subtraction clears, the sum sets. -/
theorem bitVec_merge_eq {w : Nat} (a b m : BitVec w) : a - (a &&& m) + (b &&& m) = (a &&& ~~~m) ||| (b &&& m) := by
  have hz : ∀ c : BitVec w, (a &&& ~~~m) &&& (c &&& m) = 0#w := by
    intro c
    ext i hi
    simp
    grind
  have hsplit : (a &&& ~~~m) + (a &&& m) = a := by
    rw [BitVec.add_eq_or_of_and_eq_zero _ _ (hz a)]
    ext i hi
    simp
    grind
  have hsub : a - (a &&& m) = a &&& ~~~m := by
    conv_lhs => lhs; rw [← hsplit]
    exact BitVec.add_sub_cancel _ _
  rw [hsub, BitVec.add_eq_or_of_and_eq_zero _ _ (hz b)]

/-- Merging words by a mask of 32 bits. -/
theorem mergeMask_word (a b m : BitVec 32) :
    w32 (mergeMask a.toNat b.toNat m.toNat) = (a &&& ~~~m) ||| (b &&& m) := by
  rw [← bitVec_merge_eq]
  have hle : a &&& m ≤ a := by
    rw [BitVec.le_def, BitVec.toNat_and]
    exact Nat.and_le_left
  have hsub := BitVec.toNat_sub_of_le hle
  unfold mergeMask w32
  apply BitVec.eq_of_toNat_eq
  rw [BitVec.toNat_add, hsub, BitVec.toNat_and, BitVec.toNat_and, BitVec.toNat_ofNat]

/-- The masked bits of a merge are the new ones. -/
theorem merge_and_mask {w : Nat} (a b m : BitVec w) : ((a &&& ~~~m) ||| (b &&& m)) &&& m = b &&& m := by
  ext i hi
  simp
  grind

/-- The masked fields of a word. -/
theorem mergeMask_and (a b m : Nat) : mergeMask (a &&& m) b m &&& m = b &&& m := by
  unfold mergeMask
  rw [Nat.and_assoc, Nat.and_self, Nat.sub_self, Nat.zero_add, Nat.and_assoc, Nat.and_self]

theorem mergeMask_zero (a b : Nat) : mergeMask a b 0 = a := by simp [mergeMask]

/-- The row of BIL_CFG (R222): staged fields only. -/
def bilCfgRow : RegDef := { id := .bilCfg, u0 := 0, un := 8, off := 4, reset := 0x21040000, rws := 0xFF0F0000 }

theorem RegFile.value_self (f : RegFile) (a b : Nat) : (f.set a (f.value a)).value b = f.value b := by
  rw [RegFile.value_set]
  split
  · next h => rw [h]
  · rfl

/-- A write of a register whose fields are all staged leaves every live value (R89). -/
theorem Dev.writeFields_live (d : Dev) (row : RegDef) (addr a : Nat) (data : Word) (hrw : row.rw = 0) :
    (d.writeFields row addr 0 data).regs.value a = d.regs.value a := by
  have hset : (d.regs.set addr (w32 (mergeMask (d.regs.value addr).toNat data.toNat 0))).value a = d.regs.value a := by
    rw [mergeMask_zero, w32, BitVec.ofNat_toNat, BitVec.setWidth_eq, RegFile.value_self]
  unfold Dev.writeFields
  simp only [hrw, Nat.zero_and, Nat.sub_zero]
  split
  · exact hset
  split <;> exact hset

/-- The value that such a write stages: the written fields of the row (R89). -/
theorem Dev.writeFields_next (d : Dev) (row : RegDef) (addr : Nat) (data m : Word) (hrw : row.rw = 0) (hm : row.rws = m.toNat)
    (h0 : m.toNat ≠ 0) :
    ((d.writeFields row addr 0 data).nextValue addr).toNat &&& m.toNat = data.toNat &&& m.toNat := by
  have hstg : mergeMask (((d.staged.find addr).getD (w32 (d.regs.value addr).toNat)).toNat &&& m.toNat) data.toNat m.toNat &&& m.toNat =
      data.toNat &&& m.toNat := mergeMask_and ..
  unfold Dev.writeFields Dev.nextValue
  simp only [hrw, hm, Nat.and_zero, Nat.sub_zero, mergeMask_zero, hstg, if_neg h0]
  split
  · next heq =>
    simp only [RegFile.find_del, if_pos, Option.getD_none]
    rw [w32, BitVec.ofNat_toNat, BitVec.setWidth_eq, RegFile.value_self, heq]
  · simp only [RegFile.find_put, if_pos, Option.getD_some]
    rw [← BitVec.toNat_and data m, mergeMask_word, ← BitVec.toNat_and, merge_and_mask, BitVec.and_assoc, BitVec.and_self]

/-- The service of a tamper type: its count goes up by 1 and the registers stay (R246). -/
theorem Dev.tamper_count (d : Dev) (k : Fin 24) (n : Fin 8) :
    ((d.tamper k (some n)).bil.tamper[k]).count = satAdd 32 (d.bil.tamper[k]).count 1 := by
  simp [Dev.tamper, Dev.updBil]

theorem Dev.tamper_regs (d : Dev) (k : Fin 24) (n : Fin 8) : (d.tamper k (some n)).regs = d.regs := by
  simp [Dev.tamper]

theorem Dev.tamper_staged (d : Dev) (k : Fin 24) (n : Fin 8) : (d.tamper k (some n)).staged = d.staged := by
  simp [Dev.tamper]

/-- The fields of BIL_CFG as the next reading of the configuration shows them. -/
theorem Dev.writeFields_bilCfg (d : Dev) (addr : Nat) (data : Word) :
    ((d.writeFields bilCfgRow addr 0 data).nextValue addr).toNat &&& 0xFF0F0000 = data.toNat &&& 0xFF0F0000 :=
  d.writeFields_next bilCfgRow addr data 0xFF0F0000#32 rfl rfl (by decide)

/-- The device with a change of BIL_CFG staged and logged (R222). -/
def Dev.stageBilCfg (d : Dev) (ag : Agent) (n : Fin 8) (w : Word) : Dev :=
  (d.writeFields bilCfgRow (lattice 4 n.val 4) 0 w).logEvent .bil 222
    [w32 (lattice 4 n.val 4), w32 (d.nextValue (lattice 4 n.val 4)).toNat, w] (some ag) n.val

theorem Dev.stageBilCfg_bil (d : Dev) (ag : Agent) (n : Fin 8) (w : Word) : (d.stageBilCfg ag n w).bil = d.bil := by
  unfold Dev.stageBilCfg
  rw [Dev.logEvent_bil]
  exact Dev.writeFields_part (pt := .bil) ..

theorem Dev.stageBilCfg_next (d : Dev) (ag : Agent) (n : Fin 8) (w : Word) :
    ((d.stageBilCfg ag n w).nextValue (lattice 4 n.val 4)).toNat &&& 0xFF0F0000 = w.toNat &&& 0xFF0F0000 := by
  have h : (d.stageBilCfg ag n w).nextValue = (d.writeFields bilCfgRow (lattice 4 n.val 4) 0 w).nextValue := by
    unfold Dev.nextValue Dev.stageBilCfg
    rw [Dev.logEvent_staged, Dev.logEvent_regs]
  rw [h]
  exact d.writeFields_bilCfg _ w

theorem Dev.stageBilCfg_reg (d : Dev) (ag : Agent) (n : Fin 8) (w : Word) :
    (d.stageBilCfg ag n w).reg 4 n.val 4 = d.reg 4 n.val 4 := by
  unfold Dev.reg Dev.stageBilCfg
  rw [Dev.logEvent_regs]
  exact d.writeFields_live bilCfgRow _ _ w rfl

section
variable {d : Dev} {ag : Agent} {n : Fin 8} {w : Word}
  (hlen : fld w 31 28 ≤ 4) (hsub : fld w 27 24 ≠ 0) (hdiv : dmdMinutes (fld w 31 28) % fld w 27 24 = 0)
  (htar : fld w 19 16 ≤ 6) (hnew : ((d.nextValue (lattice 4 n.val 4)).toNat &&& 0xFF0F0000) ≠ (w.toNat &&& 0xFF0F0000))
include hlen hsub hdiv htar hnew

/-- A change of BIL_CFG during a billed session is refused with STATE (R222). -/
theorem Dev.writeBilCfg_billed (hb : d.billedSession n = true) :
    d.writeBilCfg (some ag) n w = (.state (d.evc.s[n].st).code, d) := by
  have hok : ¬(4 < fld w 31 28 ∨ fld w 27 24 = 0 ∨ dmdMinutes (fld w 31 28) % fld w 27 24 ≠ 0 ∨ 6 < fld w 19 16) := by
    simp only [not_or, not_lt, not_not]
    exact ⟨hlen, hsub, hdiv, htar⟩
  exact (if_neg hok).trans ((if_neg hnew).trans (if_pos hb))

/-- A change of BIL_CFG outside a billed session is staged, logged and counted as tamper type 9 (R222). -/
theorem Dev.writeBilCfg_staged (hb : d.billedSession n = false) :
    d.writeBilCfg (some ag) n w = (.ok, (d.stageBilCfg ag n w).tamper 9 (some n)) := by
  have hok : ¬(4 < fld w 31 28 ∨ fld w 27 24 = 0 ∨ dmdMinutes (fld w 31 28) % fld w 27 24 ≠ 0 ∨ 6 < fld w 19 16) := by
    simp only [not_or, not_lt, not_not]
    exact ⟨hlen, hsub, hdiv, htar⟩
  exact (if_neg hok).trans ((if_neg hnew).trans (if_neg (by rw [hb]; decide)))
end

theorem bilCfgSlice_lattice : ∀ n : Fin 8, bilCfgSlice (w32 (lattice 4 n.val 4)).toNat = some n := by decide

/-- A write of a slice's BIL_CFG is checked as that slice's. -/
theorem Dev.billingCfgWrite_of_slice {addr : Nat} {n : Fin 8} (h : bilCfgSlice addr = some n) (d : Dev) (ag : Agent) (w : Word) :
    d.billingCfgWrite ag addr w = writeAccess ag 4 n.val addr (fun d => d.writeBilCfg (some ag) n w) d := by
  unfold Dev.billingCfgWrite
  rw [h]

/-- The signer serves a job that waits, one of the lowest rank (R242). -/
theorem nextJob_min {js : List SignJob} : ∀ {j : SignJob}, nextJob js = some j → j ∈ js ∧ ∀ k ∈ js, j.rank ≤ k.rank := by
  induction js with
  | nil => intro j h; cases h
  | cons a js ih =>
    intro j h
    unfold nextJob at h
    cases hn : nextJob js with
    | none =>
      have hnil : js = [] := by
        cases js with
        | nil => rfl
        | cons b js =>
          unfold nextJob at hn
          split at hn <;> [split at hn; skip] <;> cases hn
      rw [hn] at h
      obtain rfl := Option.some.inj h
      simp [hnil]
    | some k =>
      obtain ⟨hk, hmin⟩ := ih hn
      rw [hn] at h
      dsimp only at h
      split at h <;> obtain rfl := Option.some.inj h
      · next hlt => simpa [hk, hlt.le] using hmin
      · next hge =>
        simp only [List.mem_cons, true_or, true_and, forall_eq_or_imp, le_refl]
        exact fun x hx => (not_lt.1 hge).trans (hmin x hx)

/-- Settles O28. -/
theorem billingEvents : Obligations.BillingEvents := by
  refine ⟨fun ag n w s hw hlen hsub hdiv htar hnew => ⟨fun hb => ?_, fun hb => ?_⟩, fun s j hj => ?_⟩
  · have hrun := (Dev.billingCfgWrite_of_slice (bilCfgSlice_lattice n) s.dev ag w).trans
      (writeAccess_run hw (Dev.writeBilCfg_staged hlen hsub hdiv htar hnew hb) nofun)
    refine ⟨_, next_put hrun, rfl, ?_, ?_, ?_⟩
    · exact (Dev.tamper_count _ 9 n).trans
        (congrArg (fun b : BilState => satAdd 32 (b.tamper[9]).count 1) (s.dev.stageBilCfg_bil ag n w))
    · refine Eq.trans ?_ (s.dev.stageBilCfg_next ag n w)
      show (Dev.nextValue (Dev.tamper _ 9 (some n)) _).toNat &&& _ = _
      unfold Dev.nextValue
      rw [Dev.tamper_staged, Dev.tamper_regs]
    · refine Eq.trans ?_ (s.dev.stageBilCfg_reg ag n w)
      show Dev.reg (Dev.tamper _ 9 (some n)) 4 n.val 4 = _
      unfold Dev.reg
      rw [Dev.tamper_regs]
  · have hrun := (Dev.billingCfgWrite_of_slice (bilCfgSlice_lattice n) s.dev ag w).trans
      (writeAccess_run hw (Dev.writeBilCfg_billed hlen hsub hdiv htar hnew hb) nofun)
    exact ⟨_, next_put hrun, rfl, rfl⟩
  · obtain ⟨hmem, hmin⟩ := nextJob_min hj
    refine ⟨hmem, hmin, next_put ?_⟩
    unfold Dev.signNext
    rw [hj]

end Sys2Proof.Machine
end

section
/-! SUPPORT. The commands of the key store (R398, R407 to R409, R412). -/

namespace Sys2Proof.Machine

theorem keyTarget_some {arg : BitVec 24} {k : Fin 64} (h : keyTarget arg = some k) : argUnit arg = k.val := by
  unfold keyTarget at h
  split at h
  · split at h
    · cases h
    · exact congrArg Fin.val (Option.some.inj h)
  · cases h

/-- A command that its target fails to authenticate. -/
theorem issueCommand_auth {d d1 : Dev} {ag : Agent} {g u op : Nat} {arg : BitVec 24} {h : Dev → CmdSt × Dev}
    (hr : d.ready ag g u) (hh : h d = (.auth, d1)) :
    issueCommand ag g op arg u h d = (d1.noteCommand ag g op .auth).answer ag .auth := by
  rw [issueCommand_ready hr, hh]

/-- The answer to a command leaves the flags. -/
theorem Dev.answered_flagBit (d : Dev) (ag : Agent) (g op : Nat) (st : CmdSt) (g' u' off b : Nat) :
    ((d.noteCommand ag g op st).answer ag st).flagBit g' u' off b = d.flagBit g' u' off b :=
  Dev.flagBit_congr ((Dev.answer_flags ..).trans (Dev.noteCommand_flags ..)) g' u' off b

section
variable {arg : BitVec 24} {k : Fin 64} {d : Dev} (hk : keyTarget arg = some k) (ha : argBits arg 15 0 = 0)
include hk ha

/-- KEY_VERIFY of a staged copy whose known-answer test passes (R407). -/
theorem keyVerifyCmd_pass (hs : (d.key.slots[k]).staged = .staged) (hp : (d.key.slots[k]).katPass d.fresh = true) :
    keyVerifyCmd arg d = (.ok, ({ d with fresh := d.fresh + 1 }).updKey k fun x => { x with staged := .verified }) := by
  unfold keyVerifyCmd
  rw [hk]
  exact (if_neg (not_not.2 ha)).trans ((if_neg (not_not.2 hs)).trans (if_pos hp))

/-- KEY_VERIFY of a staged copy whose known-answer test fails discards it (R407). -/
theorem keyVerifyCmd_fail (hs : (d.key.slots[k]).staged = .staged) (hp : (d.key.slots[k]).katPass d.fresh = false) :
    keyVerifyCmd arg d =
      (.auth, (({ d with fresh := d.fresh + 1 }).updKey k fun x => { x with staged := .none, copy := {} }).raiseKey 6) := by
  unfold keyVerifyCmd
  rw [hk]
  exact (if_neg (not_not.2 ha)).trans ((if_neg (not_not.2 hs)).trans (if_neg (by rw [hp]; decide)))

theorem keyDiscardCmd_ok (hs : (d.key.slots[k]).staged ≠ .none) :
    keyDiscardCmd arg d = (.ok, d.updKey k fun x => { x with staged := .none, copy := {} }) := by
  unfold keyDiscardCmd
  rw [hk]
  exact (if_neg (not_not.2 ha)).trans (if_neg hs)

theorem keyCommitCmd_ok (hs : (d.key.slots[k]).staged = .verified) (hp : d.parentReady (d.key.slots[k]).copy.parent = true)
    (hb : d.commitBad k.val (d.key.slots[k]).copy = false) :
    keyCommitCmd arg d = (.ok, (if k = 1 then d.signAll d.bil.jobs.length else d).makeLive k) := by
  have h1 : ¬(argBits arg 15 0 ≠ 0 ∨ ((d.key.slots[k]).staged = .verified ∧ d.commitBad k.val (d.key.slots[k]).copy = true)) := by
    rw [hb]
    rintro (h | ⟨_, h⟩)
    · exact h ha
    · exact absurd h (by decide)
  have h2 : ¬((d.key.slots[k]).staged ≠ .verified ∨ (!d.parentReady (d.key.slots[k]).copy.parent) = true) := by
    rw [hp]
    rintro (h | h)
    · exact h hs
    · exact absurd h (by decide)
  unfold keyCommitCmd
  rw [hk]
  exact (if_neg h1).trans (if_neg h2)

/-- The slots below a slot in the derivation tree. -/
def Dev.descendants (d : Dev) (k : Fin 64) : List (Fin 64) := (List.finRange 64).filter fun x => d.descends x.val k.val

theorem keyDestroyCmd_ok (h1 : (d.key.slots[k]).st ≠ .empty) (h2 : (d.key.slots[k]).st ≠ .invalid) :
    keyDestroyCmd arg d = (.ok, (d.descendants k).foldl (fun (acc : Dev) x => acc.orphan x)
      (d.updKey k fun x => { x with st := .invalid, live := x.live.wipe, staged := .none, copy := {} })) := by
  unfold keyDestroyCmd
  rw [hk]
  exact (if_neg (not_not.2 ha)).trans (if_neg (not_or.2 ⟨h1, h2⟩))

end

/-! A slot whose ancestor is gone (R398). -/

/-- A slot without its ancestor: what it held is overwritten. -/
def KeySlot.orphaned (x : KeySlot) : KeySlot :=
  if x.st.holds then { x with st := .orphaned, live := x.live.wipe, staged := .none, copy := {} } else x

theorem KeySlot.orphaned_orphaned (x : KeySlot) : x.orphaned.orphaned = x.orphaned := by
  unfold KeySlot.orphaned
  by_cases h : x.st.holds
  · rw [if_pos h]; rfl
  · rw [if_neg h, if_neg h]

theorem Dev.orphan_at (d : Dev) (k x : Fin 64) :
    (d.orphan k).key.slots[x] = if x = k then (d.key.slots[k]).orphaned else d.key.slots[x] := by
  unfold Dev.orphan KeySlot.orphaned
  split
  · exact Dev.updKey_at ..
  · split
    · next h => rw [h]
    · rfl

theorem foldl_orphan_at (l : List (Fin 64)) (x : Fin 64) :
    ∀ d : Dev, (l.foldl (fun (acc : Dev) k => acc.orphan k) d).key.slots[x] =
      if x ∈ l then (d.key.slots[x]).orphaned else d.key.slots[x] := by
  induction l with
  | nil => intro d; simp
  | cons k l ih =>
    intro d
    rw [List.foldl_cons, ih, Dev.orphan_at]
    by_cases hk : x = k
    · subst hk
      simp [KeySlot.orphaned_orphaned]
    · simp [hk]

theorem Dev.mem_descendants {d : Dev} {x k : Fin 64} : x ∈ d.descendants k ↔ d.descends x.val k.val = true := by
  simp [Dev.descendants]

/-! A commit. -/

/-- The slot that a commit puts into use (R408). -/
def KeySlot.committed (x : KeySlot) : KeySlot :=
  { x with st := .valid, live := x.copy, staged := .none, copy := {}, gen := x.gen + 1, uses := 0, reserved := 0, recent := []
           impser := if x.generated then x.impser else x.copy.serial }

theorem Dev.loadTagCopy_key (d : Dev) : d.loadTagCopy.key = d.key := by
  unfold Dev.loadTagCopy
  split <;> rfl

theorem Dev.exhaust_at (d : Dev) (k x : Fin 64) :
    (d.exhaust k).key.slots[x] = if x = k then
      (if (d.key.slots[k]).live.limitEn ∧ (d.key.slots[k]).live.limit.toNat ≤ (d.key.slots[k]).uses ∧ (d.key.slots[k]).st = .valid
        then { d.key.slots[k] with st := .exhausted } else d.key.slots[k]) else d.key.slots[x] := by
  unfold Dev.exhaust
  dsimp only
  split
  · exact Dev.updKey_at ..
  · split
    · next h => rw [h]
    · rfl

theorem Dev.makeLive_at (d : Dev) (k x : Fin 64) :
    (d.makeLive k).key.slots[x] = if x = k then
      (if (d.key.slots[k]).copy.limitEn ∧ (d.key.slots[k]).copy.limit = 0 then { (d.key.slots[k]).committed with st := .exhausted }
        else (d.key.slots[k]).committed) else d.key.slots[x] := by
  unfold Dev.makeLive
  extract_lets c d1 d2
  have h1 : ∀ y : Fin 64, d1.key.slots[y] = if y = k then (d.key.slots[k]).committed else d.key.slots[y] :=
    fun y => Dev.updKey_at ..
  have h3 : ((if k = 8 then d2.loadTagCopy else d2).raiseKey 5).key = d1.key := by
    have h2 : d2.key = d1.key := by simp only [d2]; split <;> rfl
    rw [← h2]
    split
    · exact Dev.loadTagCopy_key d2
    · rfl
  rw [Dev.exhaust_at, h3, h1, h1, if_pos rfl]
  by_cases hx : x = k
  · rw [if_pos hx, if_pos hx]
    refine if_congr ?_ rfl rfl
    show (d.key.slots[k]).copy.limitEn = true ∧ (d.key.slots[k]).copy.limit.toNat ≤ 0 ∧ KeySt.valid = KeySt.valid ↔ _
    simp [BitVec.toNat_eq]
  · rw [if_neg hx, if_neg hx, if_neg hx]

theorem Dev.makeLive_slot (d : Dev) (k : Fin 64) :
    (d.makeLive k).key.slots[k] =
      if (d.key.slots[k]).copy.limitEn ∧ (d.key.slots[k]).copy.limit = 0 then { (d.key.slots[k]).committed with st := .exhausted }
        else (d.key.slots[k]).committed := by
  rw [Dev.makeLive_at, if_pos rfl]

/-- The state of every slot after KEY_DESTROY (R398, R412). -/
theorem keyDestroy_at (d : Dev) (k x : Fin 64) :
    ((d.descendants k).foldl (fun (acc : Dev) x => acc.orphan x)
      (d.updKey k fun x => { x with st := .invalid, live := x.live.wipe, staged := .none, copy := {} })).key.slots[x] =
    if x = k then { d.key.slots[k] with st := .invalid, live := (d.key.slots[k]).live.wipe, staged := .none, copy := {} }
    else if d.descends x.val k.val = true then (d.key.slots[x]).orphaned else d.key.slots[x] := by
  have h1 : ∀ y : Fin 64, (d.updKey k fun x => { x with st := .invalid, live := x.live.wipe, staged := .none, copy := {} }).key.slots[y] =
      if y = k then { d.key.slots[k] with st := .invalid, live := (d.key.slots[k]).live.wipe, staged := .none, copy := {} }
      else d.key.slots[y] := fun y => Dev.updKey_at ..
  rw [foldl_orphan_at, h1]
  by_cases hx : x = k
  · rw [if_pos hx, if_pos hx]
    split <;> rfl
  · rw [if_neg hx, if_neg hx]
    exact if_congr Dev.mem_descendants rfl rfl

theorem Dev.raiseKey_key (d : Dev) (b : Nat) : (d.raiseKey b).key = d.key := Dev.raise_key ..

/-- A failed known-answer test sets KEY_FLAGS.kat_fail (R407). -/
theorem keyVerify_fail_flag (d : Dev) (ag : Agent) :
    (((d.raiseKey 6).noteCommand ag 10 0x11 .auth).answer ag .auth).flagBit 10 0x40 0x14 6 = true := by
  rw [Dev.answered_flagBit]
  exact Dev.flagBit_raise_self d 10 0x40 0x14 (2 ^ 6) 6 (by decide) (by decide)

theorem keyVerify_fail_at (d : Dev) (ag : Agent) (k : Fin 64) :
    ((((d.updKey k fun x => { x with staged := .none, copy := {} }).raiseKey 6).noteCommand ag 10 0x11 .auth).answer ag
      .auth).key.slots[k] = { d.key.slots[k] with staged := .none, copy := {} } := by
  simp only [Dev.answer_key, Dev.noteCommand_key, Dev.raiseKey_key]
  exact (Dev.updKey_at ..).trans (if_pos rfl)

/-- Settles O29. -/
theorem keyCommands : Obligations.KeyCommands := by
  intro ag arg k s hk ha hready
  refine ⟨fun hs hp => next_put (issueCommand_ok hready (keyVerifyCmd_pass hk ha hs hp)), fun hs hp => ?_,
    fun hs => next_put (issueCommand_ok hready (keyDiscardCmd_ok hk ha hs)),
    fun hs hp hb => next_put (issueCommand_ok hready (keyCommitCmd_ok hk ha hs hp hb)), fun d => ?_, fun h1 h2 => ?_⟩
  · exact ⟨_, next_put (issueCommand_auth hready (keyVerifyCmd_fail hk ha hs hp)), rfl, keyVerify_fail_flag _ ag, keyVerify_fail_at _ ag k⟩
  · have hslot := d.makeLive_slot k
    refine ⟨?_, ?_, ?_, ?_, ?_, fun x hx => (d.makeLive_at k x).trans (if_neg hx)⟩ <;> rw [hslot] <;> split <;> rfl
  · have hkey : ∀ x : Fin 64, (Dev.completed ((s.dev.descendants k).foldl (fun (acc : Dev) x => acc.orphan x)
        (s.dev.updKey k fun x => { x with st := .invalid, live := x.live.wipe, staged := .none, copy := {} })) ag 10 0x14).key.slots[x] = _ :=
      fun x => (congrArg (fun q : KeyState => q.slots[x]) (Dev.completed_key ..)).trans (keyDestroy_at s.dev k x)
    have hself := (hkey k).trans (if_pos rfl)
    refine ⟨_, next_put (issueCommand_ok hready (keyDestroyCmd_ok hk ha h1 h2)), congrArg Reply.status (Dev.completed_reply ..),
      congrArg KeySlot.st hself, congrArg (fun q : KeySlot => q.live.secret) hself, congrArg KeySlot.staged hself, fun x hx => ?_⟩
    have hx' := (hkey x).trans (if_neg hx)
    by_cases hd : s.dev.descends x.val k.val = true
    · rw [if_pos hd] at hx'
      by_cases hh : (s.dev.key.slots[x]).st.holds = true
      · rw [if_pos ⟨hd, hh⟩]
        rw [KeySlot.orphaned, if_pos hh] at hx'
        exact ⟨congrArg KeySlot.st hx', congrArg (fun q : KeySlot => q.live.secret) hx'⟩
      · rw [if_neg (fun h => hh h.2)]
        rw [KeySlot.orphaned, if_neg hh] at hx'
        exact hx'
    · rw [if_neg (fun h => hd h.1)]
      rw [if_neg hd] at hx'
      exact hx'

end Sys2Proof.Machine
end

section
/-! SUPPORT. The frame of the swap of an image, of the configuration load and of the restore of billing. -/

namespace Sys2Proof.Machine

theorem Dev.bootCommit_part {pt : Part} (himg : pt ≠ .img) (hsto : pt ≠ .sto) (d : Dev) :
    (Dev.bootCommit d).part pt = d.part pt := by
  unfold Dev.bootCommit
  dsimp only
  split
  · rfl
  · cases pt <;> first | rfl | contradiction

theorem Dev.setFunc_part {pt : Part} (hmtr : pt ≠ .mtr) (hevc : pt ≠ .evc) (hplc : pt ≠ .plc) (htag : pt ≠ .tag)
    (hpnl : pt ≠ .pnl) (htim : pt ≠ .tim) (d : Dev) (g : Group) (u : Nat) (f : Func) :
    (Dev.setFunc d g u f).part pt = d.part pt := by
  unfold Dev.setFunc; dsimp only; (repeat' split) <;> simp only [Dev.updEng_part hmtr, Dev.updEvc_part hevc,
    ↓Dev.part_mk_plc hplc, ↓Dev.part_mk_tag htag, ↓Dev.part_mk_pnl hpnl, ↓Dev.part_mk_tim htim]

theorem Dev.dropStaged_part {pt : Part} (d : Dev) (g u : Nat) :
    (Dev.dropStaged d g u).part pt = d.part pt := by
  unfold Dev.dropStaged; simp only [↓Dev.part_mk]

theorem Dev.raiseImg_part {pt : Part} (d : Dev) (b : Nat) :
    (Dev.raiseImg d b).part pt = d.part pt := by
  unfold Dev.raiseImg; simp only [Dev.raise_part]

theorem Dev.writeQueEnds_part {pt : Part} (d : Dev) (q : Fin 64) (data : Word) :
    (Dev.writeQueEnds d q data).2.part pt = d.part pt := by
  unfold Dev.writeQueEnds; (repeat' split) <;> simp only [Dev.setReg_part]

theorem Dev.loadQueues_part {pt : Part} (hque : pt ≠ .que) (d : Dev) (es : List QueueEntry) :
    (Dev.loadQueues d es).part pt = d.part pt := by
  unfold Dev.loadQueues; dsimp only; simp only [Dev.setReg_part, ↓Dev.part_mk_que hque, foldl_part, implies_true]

theorem Dev.overrideStart_part {pt : Part} (hbil : pt ≠ .bil) (d : Dev) (n : Fin 8) (o : Override) (t : Nat) :
    (Dev.overrideStart d n o t).part pt = d.part pt := by
  unfold Dev.overrideStart; (repeat' split) <;> simp only [Dev.raiseBil_part, Dev.tamper_part hbil, Dev.updBil_part hbil]

theorem Dev.switchOverride_part {pt : Part} (hbil : pt ≠ .bil) (d : Dev) (n : Fin 8) (t : Nat) :
    (Dev.switchOverride d n t).part pt = d.part pt := by
  unfold Dev.switchOverride; dsimp only; (repeat' split) <;> simp only [Dev.overrideStart_part hbil, Dev.raiseBil_part,
    Dev.updBil_part hbil]

theorem Dev.setTariff_part {pt : Part} (hbil : pt ≠ .bil) (d : Dev) (n : Fin 8) (t : Nat) :
    (Dev.setTariff d n t).part pt = d.part pt := by
  unfold Dev.setTariff; dsimp only; (repeat' split) <;> simp only [Dev.raiseBil_part, Dev.updBil_part hbil]

theorem Dev.switchTariff_part {pt : Part} (hbil : pt ≠ .bil) (d : Dev) (n : Fin 8) (t : Nat) :
    (Dev.switchTariff d n t).part pt = d.part pt := by
  unfold Dev.switchTariff; simp only [Dev.setTariff_part hbil, Dev.switchOverride_part hbil]

theorem Dev.closeDemand_part {pt : Part} (hbil : pt ≠ .bil) (d : Dev) (n : Fin 8) (t dur : Nat) (extra : Byte) :
    (Dev.closeDemand d n t dur extra).part pt = d.part pt := by
  unfold Dev.closeDemand; dsimp only; simp only [Dev.raise_part, Dev.updBil_part hbil]

theorem Dev.openDemand_part {pt : Part} (hbil : pt ≠ .bil) (d : Dev) (n : Fin 8) (t : Nat) (flags : Byte) :
    (Dev.openDemand d n t flags).part pt = d.part pt := by
  unfold Dev.openDemand; dsimp only; (repeat' split) <;> simp only [Dev.updBil_part hbil]

theorem Dev.closeLp_part {pt : Part} (hbil : pt ≠ .bil) (hsto : pt ≠ .sto) (d : Dev) (n : Fin 8) (t dur : Nat)
    (extra : Byte) (len : Nat) :
    (Dev.closeLp d n t dur extra len).part pt = d.part pt := by
  unfold Dev.closeLp; dsimp only; (repeat' split) <;> simp only [Dev.raise_part, Dev.storeWrite_part hsto,
    Dev.updBil_part hbil]

theorem Dev.openLp_part {pt : Part} (hbil : pt ≠ .bil) (d : Dev) (n : Fin 8) (t : Nat) (flags : Byte) :
    (Dev.openLp d n t flags).part pt = d.part pt := by
  unfold Dev.openLp; dsimp only; (repeat' split) <;> simp only [Dev.updBil_part hbil]

theorem Dev.billingEnd_part {pt : Part} (hbil : pt ≠ .bil) (d : Dev) (n : Fin 8) (t : Nat) :
    (Dev.billingEnd d n t).part pt = d.part pt := by
  unfold Dev.billingEnd; dsimp only; (repeat' split) <;> simp only [Dev.raiseBil_part, Dev.reading_part hbil,
    Dev.resetMd_part hbil, Dev.updBil_part hbil]

theorem Dev.activateCalendar_part {pt : Part} (hbil : pt ≠ .bil) (hsto : pt ≠ .sto) (d : Dev) (t : Nat) :
    (Dev.activateCalendar d t).part pt = d.part pt := by
  unfold Dev.activateCalendar; dsimp only; (repeat' split) <;> simp only [Dev.raiseBil_part, Dev.storeWrite_part hsto,
    Dev.tamper_part hbil, Dev.updBil_part hbil, ↓Dev.part_mk_bil hbil, foldl_part, implies_true]

theorem Dev.closeDue_part {pt : Part} (hbil : pt ≠ .bil) (hsto : pt ≠ .sto) (d : Dev) (n : Fin 8) (t : Nat)
    (m : BoundaryMode) (due chg : Bool × Bool) :
    (Dev.closeDue d n t m due chg).part pt = d.part pt := by
  unfold Dev.closeDue; dsimp only; (repeat' split) <;> simp only [Dev.closeDemand_part hbil, Dev.closeLp_part hbil hsto,
    Dev.updBil_part hbil]

theorem Dev.endDue_part {pt : Part} (hbil : pt ≠ .bil) (d : Dev) (n : Fin 8) (t : Nat) :
    (Dev.endDue d n t).part pt = d.part pt := by
  unfold Dev.endDue; (repeat' split) <;> simp only [Dev.billingEnd_part hbil]

theorem Dev.openDue_part {pt : Part} (hbil : pt ≠ .bil) (d : Dev) (n : Fin 8) (t : Nat) (m : BoundaryMode)
    (due chg : Bool × Bool) :
    (Dev.openDue d n t m due chg).part pt = d.part pt := by
  unfold Dev.openDue; dsimp only; (repeat' split) <;> simp only [Dev.openDemand_part hbil, Dev.openLp_part hbil]

theorem Dev.missedTariff_part {pt : Part} (hbil : pt ≠ .bil) (d : Dev) (n : Fin 8) (t : Nat) (m : BoundaryMode) :
    (Dev.missedTariff d n t m).part pt = d.part pt := by
  unfold Dev.missedTariff; (repeat' split) <;> simp only [Dev.updBil_part hbil]

theorem Dev.boundarySteps_part {pt : Part} (hbil : pt ≠ .bil) (hsto : pt ≠ .sto) (d : Dev) (t : Nat) (m : BoundaryMode)
    (chg : Fin 8 → Bool × Bool) (swap : Dev → Dev) (hs : ∀ x, (swap x).part pt = x.part pt) :
    (Dev.boundarySteps d t m chg swap).part pt = d.part pt := by
  unfold Dev.boundarySteps
  simp only [Dev.activateCalendar_part hbil hsto, Dev.closeDue_part hbil hsto, Dev.endDue_part hbil,
    Dev.missedTariff_part hbil,
    Dev.oneEvent_part, Dev.openDue_part hbil, Dev.switchTariff_part hbil, Dev.part_ite, ite_self, foldl_part, implies_true,
      hs]

theorem Dev.boundariesAt_part {pt : Part} (hbil : pt ≠ .bil) (hsto : pt ≠ .sto) (d : Dev) (t : Nat) (m : BoundaryMode) :
    (Dev.boundariesAt d t m).part pt = d.part pt := by
  unfold Dev.boundariesAt; simp only [Dev.boundarySteps_part hbil hsto, implies_true]

theorem Dev.runBoundaries_part {pt : Part} (hbil : pt ≠ .bil) (hsto : pt ≠ .sto) (k t : Nat) (m : BoundaryMode) (d : Dev) :
    (Dev.runBoundaries k t m d).part pt = d.part pt := by
  induction k generalizing d with
  | zero => rfl
  | succ k ih =>
    unfold Dev.runBoundaries
    split
    · rfl
    · rw [ih, Dev.boundariesAt_part hbil hsto]

theorem Dev.copyWritten_part {pt : Part} (hsto : pt ≠ .sto) (d : Dev) (k : Nat) :
    (Dev.copyWritten d k).part pt = d.part pt := by
  unfold Dev.copyWritten; dsimp only; simp only [↓Dev.part_mk_sto hsto]

theorem Dev.commitBilling_part {pt : Part} (hbil : pt ≠ .bil) (hsto : pt ≠ .sto) (d : Dev) :
    (Dev.commitBilling d).part pt = d.part pt := by
  unfold Dev.commitBilling; dsimp only; (repeat' split) <;> simp only [Dev.copyWritten_part hsto, ↓Dev.part_mk_bil hbil]

theorem Dev.writeLswCfg_part {pt : Part} (d : Dev) (c : Fin 16) (data : Word) :
    (Dev.writeLswCfg d c data).2.part pt = d.part pt := by
  unfold Dev.writeLswCfg; dsimp only; (repeat' split) <;> simp only [Dev.setReg_part]

theorem Dev.writeLswRetry_part {pt : Part} (d : Dev) (c : Fin 16) (data : Word) :
    (Dev.writeLswRetry d c data).2.part pt = d.part pt := by
  unfold Dev.writeLswRetry; (repeat' split) <;> simp only [Dev.setReg_part]

theorem Dev.writeLswInput_part {pt : Part} (hlsw : pt ≠ .lsw) (d : Dev) (c : Fin 16) (data : Word) :
    (Dev.writeLswInput d c data).2.part pt = d.part pt := by
  unfold Dev.writeLswInput; dsimp only; (repeat' split) <;> simp only [Dev.followLimp_part hlsw, Dev.setReg_part]

theorem Dev.kaoReceive_part {pt : Part} (hkao : pt ≠ .kao) (d : Dev) (im : Image) :
    (Dev.kaoReceive d im).part pt = d.part pt := by
  unfold Dev.kaoReceive; dsimp only; (repeat' split) <;> simp only [Dev.modKao_part hkao, Dev.raiseKao_part]

theorem Dev.kaoParams_part {pt : Part} (hkao : pt ≠ .kao) (d : Dev) (im : Image) (ns : List (Fin 8)) :
    (Dev.kaoParams d im ns).part pt = d.part pt := by
  unfold Dev.kaoParams; dsimp only; (repeat' split) <;> simp only [Dev.modKao_part hkao, Dev.updKao_part hkao, foldl_part,
    implies_true]

theorem Dev.kaoUnconfirm_part {pt : Part} (hkao : pt ≠ .kao) (d : Dev) (n : Fin 8) :
    (Dev.kaoUnconfirm d n).part pt = d.part pt := by
  unfold Dev.kaoUnconfirm; (repeat' split) <;> simp only [Dev.kenRelease_part hkao, Dev.updKao_part hkao]

theorem Dev.kaoReload_part {pt : Part} (hque : pt ≠ .que) (hkao : pt ≠ .kao) (d : Dev) (n : Fin 8) :
    (Dev.kaoReload d n).part pt = d.part pt := by
  unfold Dev.kaoReload; (repeat' split) <;> simp only [Dev.endTripTest_part, Dev.kaoUnconfirm_part hkao,
    Dev.sendKaoState_part hque hkao]

theorem Dev.personaDefaults_part {pt : Part} (d : Dev) :
    (Dev.personaDefaults d).part pt = d.part pt := by
  unfold Dev.personaDefaults; simp only [Dev.setRfld_part]

theorem Dev.defaultSettings_part {pt : Part} (d : Dev) (g u : Nat) :
    (Dev.defaultSettings d g u).part pt = d.part pt := by
  unfold Dev.defaultSettings; dsimp only; simp only [Dev.dropStaged_part, ↓Dev.part_mk]

theorem Dev.kindReading_part {pt : Part} (hbil : pt ≠ .bil) (d : Dev) (n : Fin 8) (old new : Nat) :
    (Dev.kindReading d n old new).part pt = d.part pt := by
  unfold Dev.kindReading; simp only [Dev.logEvent_part, Dev.reading_part hbil, Dev.tamper_part hbil]

theorem Dev.clearUnused_part {pt : Part} (d : Dev) :
    (Dev.clearUnused d).part pt = d.part pt := by
  unfold Dev.clearUnused; simp only [Dev.setReg_part, foldl_part, implies_true]

theorem Dev.kindDefaults_part {pt : Part} (hmtr : pt ≠ .mtr) (hbil : pt ≠ .bil) (hevc : pt ≠ .evc) (hplc : pt ≠ .plc)
    (htag : pt ≠ .tag) (hpnl : pt ≠ .pnl) (htim : pt ≠ .tim) (d : Dev) (n : Fin 8) :
    (Dev.kindDefaults d n).part pt = d.part pt := by
  unfold Dev.kindDefaults; dsimp only; (repeat' split) <;> simp only [Dev.defaultSettings_part,
    Dev.setFunc_part hmtr hevc hplc htag hpnl htim, Dev.setRfld_part, Dev.updBil_part hbil, Dev.updEng_part hmtr,
      Dev.updEvc_part hevc, foldl_part, implies_true]

theorem Dev.swapQueues_part {pt : Part} (hque : pt ≠ .que) (d : Dev) (im : Image) :
    (Dev.swapQueues d im).part pt = d.part pt := by
  unfold Dev.swapQueues; dsimp only; simp only [Dev.setReg_part, Dev.updQ_part hque, Dev.part_ite, ite_self, foldl_part,
    implies_true]

theorem Dev.dropInterfaces_part {pt : Part} (hmtr : pt ≠ .mtr) (hevc : pt ≠ .evc) (hplc : pt ≠ .plc) (htag : pt ≠ .tag)
    (hpnl : pt ≠ .pnl) (htim : pt ≠ .tim) (d : Dev) :
    (Dev.dropInterfaces d).part pt = d.part pt := by
  unfold Dev.dropInterfaces; dsimp only; (repeat' split) <;> simp only [Dev.setFunc_part hmtr hevc hplc htag hpnl htim]

theorem Dev.panelRegeometry_part {pt : Part} (hpnl : pt ≠ .pnl) (d : Dev) :
    (Dev.panelRegeometry d).part pt = d.part pt := by
  unfold Dev.panelRegeometry; dsimp only; simp only [↓Dev.part_mk_pnl hpnl]

theorem Dev.swapPersona_part {pt : Part} (hpnl : pt ≠ .pnl) (d : Dev) (old new : Image) :
    (Dev.swapPersona d old new).part pt = d.part pt := by
  unfold Dev.swapPersona; dsimp only; (repeat' split) <;> simp only [Dev.panelRegeometry_part hpnl, Dev.setRfld_part,
    Dev.watchLegal_part]

theorem Dev.swapKinds_part {pt : Part} (himg : pt ≠ .img) (hmtr : pt ≠ .mtr) (hbil : pt ≠ .bil) (hevc : pt ≠ .evc)
    (hplc : pt ≠ .plc) (htag : pt ≠ .tag) (hpnl : pt ≠ .pnl) (hsto : pt ≠ .sto) (htim : pt ≠ .tim) (d : Dev)
      (old im : Image) (slot : Nat) :
    (Dev.swapKinds d old im slot).part pt = d.part pt := by
  unfold Dev.swapKinds; dsimp only; simp only [Dev.bootCommit_part himg hsto,
    Dev.kindDefaults_part hmtr hbil hevc hplc htag hpnl htim, Dev.kindReading_part hbil, ↓Dev.part_mk_img himg, foldl_part,
      implies_true]

theorem Dev.swapShared_part {pt : Part} (hque : pt ≠ .que) (hpnl : pt ≠ .pnl) (d : Dev) (first : Bool) (old im : Image) :
    (Dev.swapShared d first old im).part pt = d.part pt := by
  unfold Dev.swapShared; (repeat' split) <;> simp only [Dev.loadQueues_part hque, Dev.personaDefaults_part,
    Dev.swapPersona_part hpnl, Dev.swapQueues_part hque]

theorem Dev.swapKaolin_part {pt : Part} (hque : pt ≠ .que) (hkao : pt ≠ .kao) (d : Dev) (im : Image) (ns : List (Fin 8)) :
    (Dev.swapKaolin d im ns).part pt = d.part pt := by
  unfold Dev.swapKaolin; simp only [Dev.kaoParams_part hkao, Dev.kaoReceive_part hkao, Dev.kaoReload_part hque hkao,
    foldl_part, implies_true]

theorem Dev.rebindLsw_part {pt : Part} (hlsw : pt ≠ .lsw) (d : Dev) (c : Fin 16) :
    (Dev.rebindLsw d c).part pt = d.part pt := by
  unfold Dev.rebindLsw; dsimp only; (repeat' split) <;> simp only [Dev.lswOff_part hlsw, Dev.lswSettle_part hlsw,
    Dev.updLsw_part hlsw]

theorem Dev.swapImage_part {pt : Part} (himg : pt ≠ .img) (hque : pt ≠ .que) (hmtr : pt ≠ .mtr) (hbil : pt ≠ .bil)
    (hevc : pt ≠ .evc) (hkao : pt ≠ .kao) (hlsw : pt ≠ .lsw) (hplc : pt ≠ .plc) (htag : pt ≠ .tag) (hpnl : pt ≠ .pnl)
      (hsto : pt ≠ .sto) (htim : pt ≠ .tim) (d : Dev) (im : Image) (slot : Nat) :
    (Dev.swapImage d im slot).part pt = d.part pt := by
  unfold Dev.swapImage; dsimp only; (repeat' split) <;> simp only [Dev.clearUnused_part,
    Dev.dropInterfaces_part hmtr hevc hplc htag hpnl htim, Dev.followAll_part hlsw, Dev.followLimp_part hlsw,
      Dev.logEvent_part, Dev.rebindLsw_part hlsw, Dev.swapKaolin_part hque hkao,
        Dev.swapKinds_part himg hmtr hbil hevc hplc htag hpnl hsto htim, Dev.swapShared_part hque hpnl,
          Dev.tamper_part hbil, foldl_part, implies_true]

theorem Dev.clearFlags_part {pt : Part} (d : Dev) (who : Option Agent) (addr : Nat) (data : Word) :
    (Dev.clearFlags d who addr data).2.part pt = d.part pt := by
  unfold Dev.clearFlags; dsimp only; (repeat' split) <;> simp only [Dev.putFlag_part]

theorem Dev.writeSetting_part {pt : Part} (d : Dev) (g u : Nat) (row : RegDef) (addr : Nat) (data : Word) :
    (Dev.writeSetting d g u row addr data).2.part pt = d.part pt := by
  unfold Dev.writeSetting; dsimp only; (repeat' split) <;> simp only [Dev.writeFields_part]

theorem Dev.writePlcSetting_part {pt : Part} (hplc : pt ≠ .plc) (d : Dev) (row : RegDef) (addr : Nat) (data : Word) :
    (Dev.writePlcSetting d row addr data).2.part pt = d.part pt := by
  unfold Dev.writePlcSetting
  split
  · have h1 := part_of_eq ‹_› (Dev.writeSetting_part (pt := pt) d 8 0 row addr data)
    dsimp only
    split
    · exact h1
    · exact (Dev.part_mk_plc hplc).trans h1
  · exact Dev.writeSetting_part ..

theorem Dev.writeView_part {pt : Part} (d : Dev) (who : Option Agent) (row : RegDef) (addr : Nat) (data : Word) :
    (Dev.writeView d who row addr data).2.part pt = d.part pt := by
  unfold Dev.writeView; (repeat' split) <;> simp only [Dev.setView_part]

theorem onIdx_part {pt : Part} {n : Nat} (d : Dev) (i : Nat) (h : Fin n → CmdSt × Dev) (hk : ∀ u,
    (h u).2.part pt = d.part pt) :
    (onIdx d i h).2.part pt = d.part pt := by
  unfold onIdx
  split
  · exact hk _
  · rfl

/-- A write that the configuration load makes (R473). -/
theorem Dev.writeReg_none_part {pt : Part} (hmtr : pt ≠ .mtr) (hbil : pt ≠ .bil) (hlsw : pt ≠ .lsw) (hplc : pt ≠ .plc)
    (hpnl : pt ≠ .pnl) (hpwr : pt ≠ .pwr) (htim : pt ≠ .tim) (d : Dev) (g u : Nat) (r : RegAt) (addr : Nat) (data : Word) :
    (Dev.writeReg d none g u r addr data).2.part pt = d.part pt := by
  unfold Dev.writeReg; (repeat' split) <;> first | rfl | contradiction | simp only [Dev.gainWrite_part hmtr,
    Dev.writeAlmHi_part htim, Dev.writeBilCfg_part hbil, Dev.writeCmpCtrl_part htim, Dev.writeCmpTarget_part hpwr htim,
      Dev.writeLswCfg_part, Dev.writeLswInput_part hlsw, Dev.writeLswRetry_part, Dev.writeMem_part hpnl,
        Dev.writeMeter_part hbil, Dev.writeOffset_part htim, Dev.writePlcSetting_part hplc, Dev.writeQueEnds_part,
          Dev.writeSetting_part, Dev.writeWindow_part hpnl, onIdx_part, implies_true]

theorem Dev.startGrid_part {pt : Part} (hbil : pt ≠ .bil) (d : Dev) (n : Fin 8) (t : Nat) :
    (Dev.startGrid d n t).part pt = d.part pt := by
  unfold Dev.startGrid; (repeat' split) <;> simp only [Dev.updBil_part hbil]

theorem Dev.startIslands_part {pt : Part} (d : Dev) :
    (Dev.startIslands d).part pt = d.part pt := by
  unfold Dev.startIslands; dsimp only; (repeat' split) <;> simp only [Dev.setRun_part, Dev.part_ite, ite_self, foldl_part,
    implies_true]

theorem Dev.recordWrite_part {pt : Part} (hmtr : pt ≠ .mtr) (hbil : pt ≠ .bil) (hlsw : pt ≠ .lsw) (hplc : pt ≠ .plc)
    (hpnl : pt ≠ .pnl) (hpwr : pt ≠ .pwr) (htim : pt ≠ .tim) (d : Dev) (addr : Nat) (v : Word) :
    (Dev.recordWrite d addr v).2.part pt = d.part pt := by
  unfold Dev.recordWrite; dsimp only; (repeat' split) <;> simp only [Dev.swapUnit_part,
    Dev.writeReg_none_part hmtr hbil hlsw hplc hpnl hpwr htim]

theorem Dev.rejectRecord_part {pt : Part} (himg : pt ≠ .img) (d : Dev) (addr : Nat) :
    (Dev.rejectRecord d addr).part pt = d.part pt := by
  unfold Dev.rejectRecord; dsimp only; simp only [Dev.logEvent_part, Dev.raiseImg_part, ↓Dev.part_mk_img himg]

theorem Dev.applyRecord_part {pt : Part} (himg : pt ≠ .img) (hmtr : pt ≠ .mtr) (hbil : pt ≠ .bil) (hlsw : pt ≠ .lsw)
    (hplc : pt ≠ .plc)
    (hpnl : pt ≠ .pnl) (hpwr : pt ≠ .pwr) (htim : pt ≠ .tim) (d : Dev) (addr : Nat) (v : Word) :
    (Dev.applyRecord d addr v).part pt = d.part pt := by
  unfold Dev.applyRecord
  split
  · exact part_of_eq ‹_› (Dev.recordWrite_part hmtr hbil hlsw hplc hpnl hpwr htim d addr v)
  · exact Dev.rejectRecord_part himg d addr

theorem Dev.applyRecords_part {pt : Part} (himg : pt ≠ .img) (hmtr : pt ≠ .mtr) (hbil : pt ≠ .bil) (hlsw : pt ≠ .lsw)
    (hplc : pt ≠ .plc)
    (hpnl : pt ≠ .pnl) (hpwr : pt ≠ .pwr) (htim : pt ≠ .tim) (n a : Nat) (d : Dev) :
    (Dev.applyRecords n a d).part pt = d.part pt := by
  induction n generalizing a d with
  | zero => rfl
  | succ n ih =>
    unfold Dev.applyRecords
    rw [ih]
    split
    · exact Dev.rejectRecord_part himg d 0
    · exact Dev.applyRecord_part himg hmtr hbil hlsw hplc hpnl hpwr htim d _ _

theorem Dev.configLoad_part {pt : Part} (himg : pt ≠ .img) (hmtr : pt ≠ .mtr) (hbil : pt ≠ .bil) (hlsw : pt ≠ .lsw)
    (hplc : pt ≠ .plc)
    (hpnl : pt ≠ .pnl) (hpwr : pt ≠ .pwr) (htim : pt ≠ .tim) (d : Dev) :
    (Dev.configLoad d).part pt = d.part pt := by
  unfold Dev.configLoad; dsimp only; rw [Dev.part_mk_img himg]; split <;>
    simp only [Dev.applyRecords_part himg hmtr hbil hlsw hplc hpnl hpwr htim, ↓Dev.part_mk_img himg]

theorem Dev.signSaved_part {pt : Part} (hque : pt ≠ .que) (hbil : pt ≠ .bil) (hkey : pt ≠ .key) (d : Dev) (j : SignJob) :
    (Dev.signSaved d j).part pt = d.part pt := by
  unfold Dev.signSaved; dsimp only; simp only [Dev.deliverBlock_part hque hbil, Dev.signBytes_part hkey]

theorem Dev.writeSaved_part {pt : Part} (hque : pt ≠ .que) (hbil : pt ≠ .bil) (hkey : pt ≠ .key) (hsto : pt ≠ .sto)
    (d : Dev) (s : Snapshot) :
    (Dev.writeSaved d s).part pt = d.part pt := by
  unfold Dev.writeSaved; dsimp only; (repeat' split) <;> simp only [Dev.raiseSto_part, Dev.signSaved_part hque hbil hkey,
    Dev.storeBlock_part hbil hsto, ↓Dev.part_mk_sto hsto, foldl_part, implies_true]

theorem Dev.resumeIntervals_part {pt : Part} (hbil : pt ≠ .bil) (d : Dev) (n : Fin 8) :
    (Dev.resumeIntervals d n).part pt = d.part pt := by
  unfold Dev.resumeIntervals; dsimp only; (repeat' split) <;> simp only [Dev.openDemand_part hbil, Dev.openLp_part hbil,
    Dev.startGrid_part hbil, Dev.updBil_part hbil]

theorem Dev.runMissed_part {pt : Part} (hbil : pt ≠ .bil) (hsto : pt ≠ .sto) (d : Dev) :
    (Dev.runMissed d).part pt = d.part pt := by
  unfold Dev.runMissed; (repeat' split) <;> simp only [Dev.runBoundaries_part hbil hsto]

theorem Dev.countDark_part {pt : Part} (hbil : pt ≠ .bil) (k : Nat) (d : Dev) : (Dev.countDark k d).part pt = d.part pt := by
  induction k generalizing d with
  | zero => rfl
  | succ k ih => unfold Dev.countDark; rw [ih, Dev.tamper_part hbil]

theorem Dev.addDark_part {pt : Part} (hbil : pt ≠ .bil) (hpwr : pt ≠ .pwr) (d : Dev) :
    (Dev.addDark d).part pt = d.part pt := by
  unfold Dev.addDark
  dsimp only
  split
  · rfl
  · refine Eq.trans ?_ (Dev.countDark_part hbil d.pwr.darkCount d)
    cases pt <;> first | rfl | contradiction

theorem Dev.restoreBilling_part {pt : Part} (himg : pt ≠ .img) (hque : pt ≠ .que) (hbil : pt ≠ .bil) (hkey : pt ≠ .key)
    (hsto : pt ≠ .sto) (hpwr : pt ≠ .pwr) (d : Dev) (silt failed : Bool) (tEnd : Nat) :
    (Dev.restoreBilling d silt failed tEnd).part pt = d.part pt := by
  unfold Dev.restoreBilling
  extract_lets d1 d2 d3 d4 d5 d5' d6 d7
  have h1 : d1.part pt = d.part pt := by
    simp only [d1]
    split
    · exact Dev.writeSaved_part hque hbil hkey hsto ..
    · rfl
  have h7 : d7.part pt = d1.part pt := by
    simp only [d7, d6, d5', d5, d4, d3, d2, Dev.addDark_part hbil hpwr, Dev.buildKarurn_part hbil,
      Dev.commitBilling_part hbil hsto,
      Dev.reading_part hbil, Dev.resumeIntervals_part hbil, Dev.runMissed_part hbil hsto, Dev.setTariff_part hbil,
      Dev.tamper_part hbil, Dev.part_ite, ite_self, foldl_part, implies_true]
  clear_value d7
  refine Eq.trans ?_ (h7.trans h1)
  cases pt <;> first | rfl | contradiction

theorem Dev.slicePresent_part {pt : Part} (hbil : pt ≠ .bil) (d : Dev) (n : Fin 8) :
    (Dev.slicePresent d n).part pt = d.part pt := by
  unfold Dev.slicePresent; simp only [Dev.openDemand_part hbil, Dev.openLp_part hbil, Dev.setTariff_part hbil,
    Dev.startGrid_part hbil]

theorem Dev.firstImage_part {pt : Part} (himg : pt ≠ .img) (hque : pt ≠ .que) (hmtr : pt ≠ .mtr) (hbil : pt ≠ .bil)
    (hlsw : pt ≠ .lsw) (hplc : pt ≠ .plc) (hkey : pt ≠ .key) (hpnl : pt ≠ .pnl) (hsto : pt ≠ .sto) (hpwr : pt ≠ .pwr)
      (htim : pt ≠ .tim) (d : Dev) :
    (Dev.firstImage d).part pt = d.part pt := by
  unfold Dev.firstImage; dsimp only; (repeat' split) <;>
    simp only [Dev.configLoad_part himg hmtr hbil hlsw hplc hpnl hpwr htim,
      Dev.restoreBilling_part himg hque hbil hkey hsto hpwr, Dev.startIslands_part, ↓Dev.part_mk_img himg]

theorem Dev.newSlices_part {pt : Part} (hbil : pt ≠ .bil) (d before : Dev) :
    (Dev.newSlices d before).part pt = d.part pt := by
  unfold Dev.newSlices; simp only [Dev.slicePresent_part hbil, foldl_part, implies_true]

end Sys2Proof.Machine
end

section
/-! SUPPORT. SI_VERIFY, SI_RELOAD and the swap of the prepared image (R68 to R70). -/

namespace Sys2Proof.Machine

/-- The status is the low byte of <GRP>_CMDST (R97). -/
theorem Dev.cmdst_status (d : Dev) (ag : Agent) (g op : Nat) (st : CmdSt) :
    fld ((d.noteCommand ag g op st).view ag (cmdstAddr g)) 7 0 = st.code % 256 := by
  rw [Dev.view_noteCommand_self]
  generalize fld (d.view ag (cmdstAddr g)) 23 8 + 1 = q
  simp only [packW, pack, List.foldl, fld, bits, BitVec.toNat_ofNat]
  omega

/-- What SI_VERIFY records of an image that passes (R69). -/
def ImgState.passed (i : ImgState) (slot sections slices : Nat) : ImgState :=
  { i with reason := 0, rule := 0, diffSlot := slot, diffSections := sections, diffSlices := slices
           verified := if i.verified.contains slot then i.verified else slot :: i.verified }

/-- What SI_VERIFY records of an image that fails (R69). -/
def ImgState.failed (i : ImgState) (slot reason rule : Nat) : ImgState :=
  { i with reason := reason, rule := rule, diffSlot := slot, diffSections := 0, diffSlices := 0
           verified := i.verified.filter fun (x : Nat) => x ≠ slot }

theorem ImgState.mem_passed (i : ImgState) (slot sections slices : Nat) : slot ∈ (i.passed slot sections slices).verified := by
  unfold ImgState.passed
  dsimp only
  split
  · next hv => exact List.contains_iff_mem.1 hv
  · exact List.mem_cons_self

theorem ImgState.not_mem_failed (i : ImgState) (slot reason rule : Nat) : slot ∉ (i.failed slot reason rule).verified := by
  simp [ImgState.failed]

section
variable {arg : BitVec 24} {d : Dev} (hslot : argUnit arg ≤ 1) (hp : d.img.prepared = none)
include hslot hp

theorem siVerifyCmd_pass {im : Image} {d1 : Dev} (ha : argBits arg 15 0 = 0) (hc : d.checkSlot (argUnit arg) = (.inl im, d1)) :
    siVerifyCmd arg d = (.ok, { d1 with img := (d1.img.passed (argUnit arg) (d.differing im)
      ((d.affectedSlices im).map fun (n : Fin 8) => 2 ^ n.val).sum) }) := by
  have hno : ¬(1 < argUnit arg ∨ argBits arg 15 0 ≠ 0) := by simp [hslot, ha]
  unfold siVerifyCmd
  simp only [hp, Option.isSome_none, Bool.false_eq_true, if_false, if_neg hno, hc, ImgState.passed]

theorem siVerifyCmd_fail {r k : Nat} {d1 : Dev} (ha : argBits arg 15 0 = 0) (hc : d.checkSlot (argUnit arg) = (.inr (r, k), d1)) :
    siVerifyCmd arg d = (if r = 7 then .auth else .arg, { d1 with img := d1.img.failed (argUnit arg) r k }) := by
  have hno : ¬(1 < argUnit arg ∨ argBits arg 15 0 ≠ 0) := by simp [hslot, ha]
  unfold siVerifyCmd
  simp only [hp, Option.isSome_none, Bool.false_eq_true, if_false, if_neg hno, hc, ImgState.failed]

theorem siReloadCmd_ok (ha : argBits arg 15 8 = 0) (hv : argUnit arg ∈ d.img.verified)
    (hm : argBits arg 7 0 = d.differing (d.rawImage (argUnit arg)).decode)
    (hr : d.reloadState (d.rawImage (argUnit arg)).decode = true) :
    siReloadCmd arg d = (.ok, { d with img := { d.img with
      prepared := some ((d.rawImage (argUnit arg)).decode, argUnit arg, argBits arg 7 0), load := .reloading
      lastMask := argBits arg 7 0 } }) := by
  have hno : ¬(1 < argUnit arg ∨ argBits arg 15 8 ≠ 0) := by simp [hslot, ha]
  have hc : d.img.verified.contains (argUnit arg) = true := List.contains_iff_mem.2 hv
  unfold siReloadCmd
  simp [hp, if_neg hno, hv, ← hm, hr]

end

/-! The image in use, and what keeps it. -/

/-- What names the image in use: the loaded image, its slot, the prepared one and the state of the load. -/
structure ImageUse where
  loaded : Option Image
  activeSlot : Nat
  prepared : Option (Image × Nat × Nat)
  load : LoadState

def Dev.imageUse (d : Dev) : ImageUse := ⟨d.img.loaded, d.img.activeSlot, d.img.prepared, d.img.load⟩

/-- The use of an image once it is swapped in (R70). -/
def ImageUse.of (im : Image) (slot : Nat) : ImageUse := ⟨some im, slot, none, .loaded⟩

theorem imageUse_of_img {d e : Dev} (h : d.img = e.img) : d.imageUse = e.imageUse := by
  unfold Dev.imageUse
  rw [h]

theorem Dev.bootCommit_imageUse (d : Dev) : d.bootCommit.imageUse = d.imageUse := by
  unfold Dev.bootCommit
  dsimp only
  split <;> rfl

theorem Dev.swapKinds_imageUse (d : Dev) (old im : Image) (slot : Nat) : (d.swapKinds old im slot).imageUse = .of im slot := by
  unfold Dev.swapKinds
  extract_lets ks d1
  refine (imageUse_of_img (foldl_part (pt := .img) _ _ _ fun a n => ?_)).trans ((Dev.bootCommit_imageUse _).trans rfl)
  exact Dev.kindDefaults_part (by decide) (by decide) (by decide) (by decide) (by decide) (by decide) (by decide) a n

/-- The parts of the swap after the kinds leave the image's state (R70). -/
theorem Dev.swapImage_imageUse (d : Dev) (im : Image) (slot : Nat) : (d.swapImage im slot).imageUse = .of im slot := by
  unfold Dev.swapImage
  extract_lets old d1 d2 d3 d4
  refine (imageUse_of_img ?_).trans (d.swapKinds_imageUse old im slot)
  show (Dev.logEvent ..).part .img = Dev.part _ .img
  simp only [d4, d3, d2, d1, Dev.logEvent_part, Dev.tamper_part, Dev.dropInterfaces_part, Dev.clearUnused_part, Dev.part_ite,
    Dev.followAll_part, foldl_part, Dev.followLimp_part, Dev.rebindLsw_part, Dev.swapKaolin_part, Dev.swapShared_part, ite_self,
    implies_true, ne_eq, reduceCtorEq, not_false_eq_true]

theorem Dev.rejectRecord_imageUse (d : Dev) (addr : Nat) : (d.rejectRecord addr).imageUse = d.imageUse :=
  (imageUse_of_img ((Dev.logEvent_img ..).trans (Dev.raise_img ..))).trans rfl

theorem Dev.applyRecord_imageUse (d : Dev) (addr : Nat) (v : Word) : (d.applyRecord addr v).imageUse = d.imageUse := by
  unfold Dev.applyRecord
  split
  · next h =>
    refine imageUse_of_img (part_of_eq (pt := .img) h ?_)
    exact Dev.recordWrite_part (by decide) (by decide) (by decide) (by decide) (by decide) (by decide) (by decide) d addr v
  · exact d.rejectRecord_imageUse addr

theorem Dev.applyRecords_imageUse (n a : Nat) (d : Dev) : (Dev.applyRecords n a d).imageUse = d.imageUse := by
  induction n generalizing a d with
  | zero => rfl
  | succ n ih =>
    unfold Dev.applyRecords
    rw [ih]
    split
    · exact d.rejectRecord_imageUse 0
    · exact d.applyRecord_imageUse _ _

theorem imageUse_cfgRejected (d : Dev) (k : Nat) :
    ({ d with img := { d.img with cfgRejected := k } } : Dev).imageUse = d.imageUse := rfl

theorem Dev.configLoad_imageUse (d : Dev) : d.configLoad.imageUse = d.imageUse := by
  unfold Dev.configLoad
  extract_lets d1
  have h1 : d1.imageUse = d.imageUse := by
    simp only [d1]
    split
    · rw [imageUse_cfgRejected, Dev.applyRecords_imageUse]
    · rfl
  exact h1

theorem Dev.restoreBilling_imageUse (d : Dev) (silt failed : Bool) (tEnd : Nat) :
    (d.restoreBilling silt failed tEnd).imageUse = d.imageUse := by
  unfold Dev.restoreBilling
  extract_lets d1 d2 d3 d4 d5 d5' d6 d7
  have h1 : d1.part .img = d.part .img := by
    simp only [d1]
    split
    · exact Dev.writeSaved_part (by decide) (by decide) (by decide) (by decide) ..
    · rfl
  have h7 : d7.part .img = d1.part .img := by
    simp only [d7, d6, d5', d5, d4, d3, d2, Dev.addDark_part, Dev.buildKarurn_part, Dev.commitBilling_part,
      Dev.reading_part, Dev.resumeIntervals_part, Dev.runMissed_part, Dev.setTariff_part, Dev.tamper_part, Dev.part_ite, ite_self,
      foldl_part, implies_true, ne_eq, reduceCtorEq, not_false_eq_true]
  show d7.imageUse = d.imageUse
  exact imageUse_of_img (h7.trans h1)

theorem Dev.firstImage_imageUse (d : Dev) : d.firstImage.imageUse = d.imageUse := by
  unfold Dev.firstImage
  extract_lets d1 d2
  have h1 : d1.imageUse = d.imageUse :=
    (Dev.configLoad_imageUse _).trans (imageUse_of_img (Dev.startIslands_part (pt := .img) d))
  have h2 : d2.imageUse = d1.imageUse := by
    simp only [d2]
    split
    · rfl
    · exact Dev.restoreBilling_imageUse ..
  clear_value d2 d1
  exact h2.trans h1

/-- After the swap the prepared image is in use and nothing is prepared (R70). -/
theorem Dev.reloadSwap_imageUse {d : Dev} {im : Image} {slot mask : Nat} (h : d.img.prepared = some (im, slot, mask)) :
    d.reloadSwap.imageUse = .of im slot := by
  unfold Dev.reloadSwap
  rw [h]
  dsimp only
  split
  · exact (Dev.firstImage_imageUse _).trans (d.swapImage_imageUse im slot)
  · exact (imageUse_of_img (Dev.newSlices_part (pt := .img) (by decide) _ d)).trans (d.swapImage_imageUse im slot)

theorem siVerify_img (d : Dev) (ag : Agent) (st : CmdSt) (i : ImgState) :
    ((({ d with img := i } : Dev).noteCommand ag 14 0x20 st).answer ag st).img = i :=
  (Dev.answer_img ..).trans (Dev.noteCommand_img ..)

theorem Dev.answer_view (d : Dev) (ag other : Agent) (st : CmdSt) (a : Nat) : (d.answer ag st).view other a = d.view other a := rfl

theorem siVerify_status (d : Dev) (ag : Agent) (st : CmdSt) (i : ImgState) :
    fld (((({ d with img := i } : Dev).noteCommand ag 14 0x20 st).answer ag st).view ag (cmdstAddr 14)) 7 0 = st.code % 256 := by
  rw [Dev.answer_view, Dev.cmdst_status]

section
variable {ag : Agent} {arg : BitVec 24} {s : State} (hready : s.dev.ready ag 14 0xFF) (hslot : argUnit arg ≤ 1)
  (hp : s.dev.img.prepared = none) (ha : argBits arg 15 0 = 0)
include hready hslot hp ha

theorem siVerify_pass_next {im : Image} {d1 : Dev} (hc : s.dev.checkSlot (argUnit arg) = (.inl im, d1)) :
    ∃ t, exec (.siVerify ag arg) s = .next t ∧ t.dev.img.reason = 0 ∧ t.dev.img.diffSlot = argUnit arg ∧
      t.dev.img.diffSections = s.dev.differing im ∧
      t.dev.img.diffSlices = ((s.dev.affectedSlices im).map fun (n : Fin 8) => 2 ^ n.val).sum ∧
      argUnit arg ∈ t.dev.img.verified ∧ t.dev.img.loaded = d1.img.loaded ∧ fld (t.dev.view ag (cmdstAddr 14)) 7 0 = 0 := by
  have hrun := issueCommand_ok (op := 0x20) (arg := arg) hready (siVerifyCmd_pass hslot hp ha hc)
  set i := d1.img.passed (argUnit arg) (s.dev.differing im) ((s.dev.affectedSlices im).map fun (n : Fin 8) => 2 ^ n.val).sum with hi
  have himg := siVerify_img d1 ag .ok i
  have hst := siVerify_status d1 ag .ok i
  rw [Dev.completed] at hrun
  generalize ((({ d1 with img := i } : Dev).noteCommand ag 14 0x20 .ok).answer ag .ok) = D at hrun himg hst
  refine ⟨s.put D, next_put hrun, ?_⟩
  rw [show (s.put D).dev = D from rfl, himg, hst]
  exact ⟨rfl, rfl, rfl, rfl, ImgState.mem_passed .., rfl, rfl⟩

theorem siVerify_fail_next {r k : Nat} {d1 : Dev} (hc : s.dev.checkSlot (argUnit arg) = (.inr (r, k), d1)) :
    ∃ t, exec (.siVerify ag arg) s = .next t ∧ t.dev.img.reason = r ∧ t.dev.img.rule = k ∧ argUnit arg ∉ t.dev.img.verified ∧
      t.dev.img.loaded = d1.img.loaded ∧ t.dev.reply.status = (if r = 7 then 5 else 4) := by
  obtain ⟨st, hst, hcode, hrun⟩ : ∃ st : CmdSt, st = (if r = 7 then .auth else .arg) ∧
      BitVec.ofNat 8 st.code = (if r = 7 then 5 else 4) ∧
      issueCommand ag 14 0x20 arg 0xFF (siVerifyCmd arg) s.dev =
        (({ d1 with img := d1.img.failed (argUnit arg) r k } : Dev).noteCommand ag 14 0x20 st).answer ag st := by
    have hcmd := siVerifyCmd_fail hslot hp ha hc
    by_cases h7 : r = 7
    · rw [if_pos h7] at hcmd
      exact ⟨.auth, by rw [if_pos h7], by rw [if_pos h7]; rfl, issueCommand_auth hready hcmd⟩
    · rw [if_neg h7] at hcmd
      exact ⟨.arg, by rw [if_neg h7], by rw [if_neg h7]; rfl, issueCommand_arg hready hcmd⟩
  set i := d1.img.failed (argUnit arg) r k with hi
  have himg := siVerify_img d1 ag st i
  have hreply : (((({ d1 with img := i } : Dev).noteCommand ag 14 0x20 st).answer ag st)).reply.status = BitVec.ofNat 8 st.code := rfl
  generalize ((({ d1 with img := i } : Dev).noteCommand ag 14 0x20 st).answer ag st) = D at hrun himg hreply
  refine ⟨s.put D, next_put hrun, ?_⟩
  rw [show (s.put D).dev = D from rfl, himg, hreply, hcode]
  exact ⟨rfl, rfl, ImgState.not_mem_failed _ _ _ _, rfl, rfl⟩
end

/-- Settles O8. -/
theorem imageReload : Obligations.ImageReload := by
  refine ⟨fun ag arg s hready hslot hp => ⟨fun im d1 ha hc => ?_, fun r k d1 ha hc => ?_, fun ha hv hm hr => ?_⟩,
    fun s im slot mask h => ?_⟩
  · exact siVerify_pass_next hready hslot hp ha hc
  · exact siVerify_fail_next hready hslot hp ha hc
  · exact next_put (issueCommand_ok hready (siReloadCmd_ok hslot hp ha hv hm hr))
  · have hu := Dev.reloadSwap_imageUse h
    exact ⟨_, rfl, congrArg ImageUse.loaded hu, congrArg ImageUse.activeSlot hu, congrArg ImageUse.prepared hu,
      congrArg ImageUse.load hu⟩

end Sys2Proof.Machine
end

section
/-! SUPPORT. What the operations of Kaolin do to the machine of a slice (R281 to R332): one rule per operation, over the
machine without the message it keeps for its queue. -/

namespace Sys2Proof.Machine

/-- The machine of a slice, but for the message it keeps for want of room (R330). -/
def Dev.machine (d : Dev) (k : Fin 8) : KaoSlice := { d.kao.m[k] with kept := none }

theorem machine_of_kao {d e : Dev} (h : d.kao = e.kao) (k : Fin 8) : d.machine k = e.machine k := by
  unfold Dev.machine
  rw [h]

theorem machine_of_m {d e : Dev} (h : d.kao.m = e.kao.m) (k : Fin 8) : d.machine k = e.machine k := by
  unfold Dev.machine
  rw [h]

theorem Dev.updKao_machine (d : Dev) (n k : Fin 8) (f : KaoSlice → KaoSlice)
    (hf : ∀ x, { f x with kept := none } = f { x with kept := none }) :
    (d.updKao n f).machine k = if k = n then f (d.machine n) else d.machine k := by
  have h : (d.updKao n f).kao.m[k] = if k = n then f d.kao.m[n] else d.kao.m[k] := Dev.updKao_at ..
  unfold Dev.machine
  rw [h]
  split
  · exact hf _
  · rfl

theorem Dev.updKao_kept (d : Dev) (n k : Fin 8) (v : Option (List QData)) :
    (d.updKao n fun x => { x with kept := v }).machine k = d.machine k := by
  have h : (d.updKao n fun x => { x with kept := v }).kao.m[k] = if k = n then { d.kao.m[n] with kept := v } else d.kao.m[k] :=
    Dev.updKao_at ..
  unfold Dev.machine
  rw [h]
  split
  · next hk => rw [hk]
  · rfl

/-- A write of the confirmation cell takes the older copy, which is then the newest (R312). -/
theorem Dev.writeCell_cell (d : Dev) (f : KaoCell → KaoCell) :
    (d.writeCell f).cell = { f d.cell with seq := d.cell.seq + 1, valid := true } := by
  unfold Dev.writeCell Dev.cell Dev.modKao KaoState.putOlder KaoState.cellIsB
  cases hA : d.kao.cellA.valid <;> cases hB : d.kao.cellB.valid <;> by_cases hs : d.kao.cellA.seq < d.kao.cellB.seq <;>
    simp [hA, hB, hs]

/-- What Kaolin holds beside the slice machines and the confirmation cell. -/
def Dev.kaoShared (d : Dev) : KaoState := { d.kao with m := Vector.replicate 8 {}, cellA := {}, cellB := {} }

theorem kaoShared_of_kao {d e : Dev} (h : d.kao = e.kao) : d.kaoShared = e.kaoShared := by
  unfold Dev.kaoShared
  rw [h]

theorem cell_of_kao {d e : Dev} (h : d.kao = e.kao) : d.cell = e.cell := by
  unfold Dev.cell
  rw [h]

theorem Dev.kaoCommon_of_shared {d e : Dev} (h : d.kaoShared = e.kaoShared) (i : Nat) : d.kaoCommon i = e.kaoCommon i := by
  show d.kaoShared.common.getD i 0 = e.kaoShared.common.getD i 0
  rw [h]

theorem Dev.kaoByte_of_block {d e : Dev} {n : Fin 8} (h : (d.machine n).block = (e.machine n).block) (i : Nat) :
    d.kaoByte n i = e.kaoByte n i := by
  show (d.machine n).block.getD i 0 = (e.machine n).block.getD i 0
  rw [h]

theorem Dev.kaoAction_of_block {d e : Dev} {n : Fin 8} (h : (d.machine n).block = (e.machine n).block) (i : Nat) :
    d.kaoAction n i = e.kaoAction n i := Dev.kaoByte_of_block h _

theorem Dev.updKao_cell (d : Dev) (n : Fin 8) (f : KaoSlice → KaoSlice) : (d.updKao n f).cell = d.cell := rfl

theorem Dev.updKao_shared (d : Dev) (n : Fin 8) (f : KaoSlice → KaoSlice) : (d.updKao n f).kaoShared = d.kaoShared := rfl

theorem Dev.writeCell_machine (d : Dev) (f : KaoCell → KaoCell) (k : Fin 8) : (d.writeCell f).machine k = d.machine k :=
  machine_of_m (writeCell_m d f) k

theorem Dev.writeCell_shared (d : Dev) (f : KaoCell → KaoCell) : (d.writeCell f).kaoShared = d.kaoShared := by
  unfold Dev.writeCell Dev.modKao KaoState.putOlder
  dsimp only
  split <;> split <;> rfl

/-- A message of a slice goes into its queue, is kept, or is dropped: nothing else of Kaolin changes. -/
theorem Dev.kaoSend_machine (d : Dev) (n k : Fin 8) (ws : List QData) : (d.kaoSend n ws).machine k = d.machine k := by
  unfold Dev.kaoSend
  split
  · rfl
  split
  · rfl
  split
  · exact machine_of_kao (Dev_commit_kao ..) k
  · exact (Dev.updKao_kept _ n k _).trans rfl

theorem Dev.kaoSend_cell (d : Dev) (n : Fin 8) (ws : List QData) : (d.kaoSend n ws).cell = d.cell := by
  unfold Dev.kaoSend
  split
  · rfl
  split
  · rfl
  split
  · exact cell_of_kao (Dev_commit_kao ..)
  · rfl

theorem Dev.kaoSend_shared (d : Dev) (n : Fin 8) (ws : List QData) : (d.kaoSend n ws).kaoShared = d.kaoShared := by
  unfold Dev.kaoSend
  split
  · rfl
  split
  · rfl
  split
  · exact kaoShared_of_kao (Dev_commit_kao ..)
  · rfl

/-- A machine whose contactor driver opens (R296). -/
def KaoSlice.released (x : KaoSlice) (el : Nat) : KaoSlice :=
  if x.ken then { x with ken := false, window := if x.reqAt = some el then x.window else some el } else x

theorem KaoSlice.released_ken (x : KaoSlice) (el : Nat) : (x.released el).ken = false := by
  unfold KaoSlice.released
  split
  · rfl
  · next h => exact eq_false_of_ne_true h

theorem Dev.kenRelease_machine (d : Dev) (n k : Fin 8) :
    (d.kenRelease n).machine k = if k = n then (d.machine n).released d.el else d.machine k := by
  unfold Dev.kenRelease KaoSlice.released
  split
  · next h =>
    rw [if_pos (show (d.machine n).ken = true from h)]
    exact Dev.updKao_machine d n k _ fun _ => rfl
  · next h =>
    rw [if_neg (show ¬(d.machine n).ken = true from h)]
    split
    · next hk => rw [hk]
    · rfl

/-- A machine that leaves ARMED by a trip or goes to LOCKOUT from TRIPPED (R301, R314). -/
def KaoSlice.tripBy (x : KaoSlice) (el s act detail : Nat) (test toLockout : Bool) : KaoSlice :=
  { x.released el with
    tripSource := s, tripAction := act, tripDetail := detail, tripTest := test, tripAt := some el
    refuse := if (x.released el).req ∧ (x.released el).reqAt = some el then 2 else (x.released el).refuse
    st := if toLockout then .lockout else .tripped }

theorem Dev.enterLockout_machine (d : Dev) (n k : Fin 8) (up : Bool) :
    (d.enterLockout n up).machine k = if k = n then { d.machine n with st := .lockout } else d.machine k := by
  unfold Dev.enterLockout
  refine (machine_of_kao (Dev.raise_kao ..) k).trans ?_
  rw [Dev.writeCell_machine]
  exact Dev.updKao_machine d n k _ fun _ => rfl

theorem Dev.enterLockout_shared (d : Dev) (n : Fin 8) (up : Bool) : (d.enterLockout n up).kaoShared = d.kaoShared := by
  unfold Dev.enterLockout
  refine (kaoShared_of_kao (Dev.raise_kao ..)).trans ?_
  rw [Dev.writeCell_shared]
  rfl

theorem Dev.enterLockout_cell (d : Dev) (n : Fin 8) (up : Bool) :
    (d.enterLockout n up).cell = { d.cell with
      lockout := orMask d.cell.lockout (2 ^ n.val), upstream := if up then orMask d.cell.upstream (2 ^ n.val) else d.cell.upstream
      seq := d.cell.seq + 1, valid := true } := by
  unfold Dev.enterLockout
  refine (cell_of_kao (Dev.raise_kao ..)).trans ?_
  rw [Dev.writeCell_cell]
  rfl

theorem Dev.endTripTest_kao (d : Dev) (n : Fin 8) : (d.endTripTest n).kao = d.kao := by
  unfold Dev.endTripTest
  split
  · exact Dev_endCommand_kao ..
  · rfl

theorem Dev.countTrip_machine (d : Dev) (n k : Fin 8) : (d.countTrip n).machine k = d.machine k := Dev.writeCell_machine d _ k

/-- The trip of a slice (R301, R314): its own machine trips, the others stay. -/
theorem Dev.trip_machine (d : Dev) (n k : Fin 8) (s act detail : Nat) (test toLockout : Bool) :
    (d.trip n s act detail test toLockout).machine k =
      if k = n then (d.machine n).tripBy d.el s act detail test toLockout else d.machine k := by
  unfold Dev.trip
  extract_lets wasArmed d1 d2 d3
  have h1 : ∀ j, d1.machine j = if j = n then { (d.machine n).released d.el with
      tripSource := s, tripAction := act, tripDetail := detail, tripTest := test, tripAt := some d.el
      refuse := if ((d.machine n).released d.el).req ∧ ((d.machine n).released d.el).reqAt = some d.el then 2
        else ((d.machine n).released d.el).refuse } else d.machine j := by
    intro j
    refine (Dev.updKao_machine _ n j _ fun _ => rfl).trans ?_
    rw [Dev.countTrip_machine, Dev.countTrip_machine, Dev.kenRelease_machine, Dev.kenRelease_machine, if_pos rfl]
    split <;> rfl
  have h2 : ∀ j, d2.machine j = if j = n then { d1.machine n with st := if toLockout then .lockout else .tripped } else d1.machine j := by
    intro j
    simp only [d2]
    cases toLockout
    · exact Dev.updKao_machine d1 n j _ fun _ => rfl
    · exact Dev.enterLockout_machine d1 n j _
  have h3 : d3.kao = d2.kao := by
    simp only [d3]
    split
    · exact (Dev.endTripTest_kao _ n).trans (Dev.raise_kao ..)
    · rfl
  rw [Dev.kaoSend_machine]
  refine (machine_of_kao (e := d2) (Eq.trans (by rfl) h3) k).trans ?_
  rw [h2, h1, h1, if_pos rfl]
  split <;> rfl

theorem Dev.escalate_machine (d : Dev) (n k : Fin 8) :
    (d.escalate n).machine k = if k = n then { d.machine n with
      escCount := min ((d.machine n).escCount + 1) 255
      escSince := if (d.machine n).escCount = 0 then d.el else (d.machine n).escSince } else d.machine k :=
  Dev.updKao_machine d n k _ fun _ => rfl

theorem Dev.updKao_self (d : Dev) (n : Fin 8) (f : KaoSlice → KaoSlice)
    (hf : ∀ x, { f x with kept := none } = f { x with kept := none }) : (d.updKao n f).machine n = f (d.machine n) :=
  (d.updKao_machine n n f hf).trans (if_pos rfl)

theorem Dev.escalate_other (d : Dev) {n k : Fin 8} (h : k ≠ n) : (d.escalate n).machine k = d.machine k :=
  (d.escalate_machine n k).trans (if_neg h)

theorem Dev.trip_other (d : Dev) {n k : Fin 8} (h : k ≠ n) (s act detail : Nat) (test toLockout : Bool) :
    (d.trip n s act detail test toLockout).machine k = d.machine k :=
  (d.trip_machine n k s act detail test toLockout).trans (if_neg h)

theorem Dev.enterLockout_other (d : Dev) {n k : Fin 8} (h : k ≠ n) (up : Bool) : (d.enterLockout n up).machine k = d.machine k :=
  (d.enterLockout_machine n k up).trans (if_neg h)

theorem Dev.updKao_other (d : Dev) {n k : Fin 8} (h : k ≠ n) (f : KaoSlice → KaoSlice) : (d.updKao n f).machine k = d.machine k := by
  have hk : (d.updKao n f).kao.m[k] = d.kao.m[k] := (Dev.updKao_at ..).trans (if_neg h)
  unfold Dev.machine
  rw [hk]

/-- The source halves of a machine: which sources are active, and which are latched (R300). -/
def KaoSlice.sources (x : KaoSlice) : BitVec 16 × BitVec 16 := (x.active, x.latched)

theorem KaoSlice.released_sources (x : KaoSlice) (el : Nat) : (x.released el).sources = x.sources := by
  unfold KaoSlice.released
  split <;> rfl

theorem KaoSlice.tripBy_sources (x : KaoSlice) (el s act detail : Nat) (test toLockout : Bool) :
    (x.tripBy el s act detail test toLockout).sources = x.sources := x.released_sources el

theorem Dev.trip_sources (d : Dev) (n : Fin 8) (s act detail : Nat) (test toLockout : Bool) :
    ((d.trip n s act detail test toLockout).machine n).sources = (d.machine n).sources := by
  rw [Dev.trip_machine, if_pos rfl, KaoSlice.tripBy_sources]

/-- A trip that joins one of the same instant (R301) changes its own slice's record only. -/
theorem Dev.joinTrip_other (d : Dev) {n k : Fin 8} (h : k ≠ n) (s act detail : Nat) :
    (d.joinTrip n s act detail).machine k = d.machine k := by
  unfold Dev.joinTrip
  extract_lets x counted d1
  have h1 : d1.machine k = d.machine k := Dev.updKao_other d h _
  split
  · rfl
  split
  · exact h1
  split
  · exact (Dev.enterLockout_other d1 h _).trans h1
  split
  · exact (Dev.writeCell_machine d1 _ k).trans h1
  · exact h1

theorem Dev.joinTrip_sources (d : Dev) (n : Fin 8) (s act detail : Nat) :
    ((d.joinTrip n s act detail).machine n).sources = (d.machine n).sources := by
  unfold Dev.joinTrip
  extract_lets x counted d1
  have h1 : (d1.machine n).sources = (d.machine n).sources :=
    (congrArg KaoSlice.sources (d.updKao_self n _ fun _ => rfl)).trans rfl
  split
  · rfl
  split
  · exact h1
  split
  · exact (congrArg KaoSlice.sources ((Dev.enterLockout_machine d1 n n _).trans (if_pos rfl))).trans h1
  split
  · exact (congrArg KaoSlice.sources (Dev.writeCell_machine d1 _ n)).trans h1
  · exact h1

/-- The action of a source concerns its own slice (R301). -/
theorem Dev.sourceAction_other (d : Dev) {n k : Fin 8} (h : k ≠ n) (s detail : Nat) :
    (d.sourceAction n s detail).machine k = d.machine k := by
  unfold Dev.sourceAction
  dsimp only
  split
  · exact d.joinTrip_other h s _ detail
  split
  · rfl
  · split
    · rfl
    split
    · split
      · exact d.trip_other h ..
      · exact ((d.escalate n).trip_other h ..).trans (d.escalate_other h)
    · exact d.trip_other h ..
  · split
    · exact d.trip_other h ..
    · rfl
  · split
    · exact Dev.writeCell_machine d _ k
    · rfl

/-- No action of a source changes the source halves (R300). -/
theorem Dev.sourceAction_sources (d : Dev) (n : Fin 8) (s detail : Nat) :
    ((d.sourceAction n s detail).machine n).sources = (d.machine n).sources := by
  unfold Dev.sourceAction
  dsimp only
  split
  · exact d.joinTrip_sources n s _ detail
  split
  · rfl
  · split
    · rfl
    split
    · split
      · exact d.trip_sources n ..
      · refine ((d.escalate n).trip_sources n ..).trans ?_
        exact (congrArg KaoSlice.sources (d.updKao_self n _ fun _ => rfl)).trans rfl
    · exact d.trip_sources n ..
  · split
    · exact d.trip_sources n ..
    · rfl
  · split
    · exact congrArg KaoSlice.sources (Dev.writeCell_machine d _ n)
    · rfl

theorem Dev.tripsNow_armed {d : Dev} {n : Fin 8} (h : (d.machine n).st = .armed ∨ (d.machine n).st = .unconfirmed) :
    d.tripsNow n = false := by
  have h' : (d.kao.m[n]).st = .armed ∨ (d.kao.m[n]).st = .unconfirmed := h
  simp only [Fin.getElem_fin] at h'
  rcases h' with h | h <;> simp [Dev.tripsNow, h]

section
variable {d : Dev} {n : Fin 8} {s : Nat}

theorem Dev.sourceAction_unconfirmed (h : (d.machine n).st = .unconfirmed) (detail : Nat) : d.sourceAction n s detail = d := by
  have h' : (d.kao.m[n]).st = .unconfirmed := h
  unfold Dev.sourceAction
  simp only [Dev.tripsNow_armed (.inr h), h', Bool.false_eq_true, and_false, if_false]

/-- What the action of a source does to an ARMED machine (R301). -/
theorem Dev.sourceAction_armed (h : (d.machine n).st = .armed) (detail : Nat) :
    d.sourceAction n s detail =
      if d.kaoAction n s = 0 then d
      else if d.kaoAction n s = 1 then
        (if d.kaoCommon 1 = 0 ∨ ((d.machine n).force.map (·.1)) = some s then
            d.trip n s 1 detail (((d.machine n).force.map (·.1)) = some s) false
          else (d.escalate n).trip n s 1 detail (((d.machine n).force.map (·.1)) = some s)
            (decide (d.kaoCommon 1 ≤ (((d.escalate n).machine n).escCount))))
      else d.trip n s (d.kaoAction n s) detail (((d.machine n).force.map (·.1)) = some s) true := by
  have h' : (d.kao.m[n]).st = .armed := h
  unfold Dev.sourceAction
  simp only [Dev.tripsNow_armed (.inl h), h', Bool.false_eq_true, and_false, if_false]
  refine if_congr Iff.rfl rfl ?_
  by_cases h1 : d.kaoAction n s = 1
  · rw [if_pos h1, if_pos h1, h1]
    rfl
  · rw [if_neg h1, if_neg h1]
    rfl
end

/-! A source becomes active (R299 to R301). -/

theorem Dev.watchSafe_kao_eq (d : Dev) (f : Dev → Dev) : (d.watchSafe f).kao = (f d).kao := by
  unfold Dev.watchSafe
  rw [Dev_oneEvent_kao]
  dsimp only
  split <;> rfl

/-- A watch over SAFE_OK sets at most its own flag. -/
theorem Dev.watchSafe_flag {d : Dev} {f : Dev → Dev} {g u off b : Nat} (hb : b < 16) (h : (f d).flagBit g u off b = true) :
    (d.watchSafe f).flagBit g u off b = true := by
  unfold Dev.watchSafe
  rw [Dev.flagBit_oneEvent]
  dsimp only
  split
  · exact Dev.flagBit_raise_mono _ _ _ _ _ _ _ _ _ hb h
  · exact h

theorem Dev.commit_flag {d : Dev} {q : Fin 64} {ws : List QData} {g u off b : Nat} (hb : b < 16)
    (h : d.flagBit g u off b = true) : (d.commit q ws).flagBit g u off b = true := by
  have hn : (((d.enqueue q ws).notice q)).flagBit g u off b = true := by
    unfold Dev.notice
    dsimp only
    split <;> exact Dev.flagBit_raise_mono _ _ _ _ _ _ _ _ _ hb h
  rcases d.commit_cases q ws with hc | hc <;> rw [hc]
  · exact h
  · exact hn

theorem Dev.kaoSend_flag {d : Dev} {n : Fin 8} {ws : List QData} {g u off b : Nat} (hb : b < 16)
    (h : d.flagBit g u off b = true) : (d.kaoSend n ws).flagBit g u off b = true := by
  unfold Dev.kaoSend
  split
  · exact h
  split
  · exact Dev.flagBit_raise_mono _ _ _ _ _ _ _ _ _ hb h
  split
  · exact Dev.commit_flag hb h
  · exact Dev.flagBit_raise_mono _ _ _ _ _ _ _ _ _ hb h

theorem Dev.endCommand_flags (d : Dev) (g : Nat) (st : CmdSt) : (d.endCommand g st).flags = d.flags := by
  unfold Dev.endCommand
  split
  · rfl
  · dsimp only
    split <;> rfl

theorem Dev.endTripTest_flags (d : Dev) (n : Fin 8) : (d.endTripTest n).flags = d.flags := by
  unfold Dev.endTripTest
  split
  · exact Dev.endCommand_flags ..
  · rfl

/-- A trip out of ARMED sets KAO_FLAGS.trip (R301). -/
theorem Dev.trip_flag {d : Dev} {n : Fin 8} (h : (d.machine n).st = .armed) (s act detail : Nat) (test toLockout : Bool) :
    (d.trip n s act detail test toLockout).flagBit 6 8 0x18 0 = true := by
  unfold Dev.trip
  extract_lets wasArmed d1 d2 d3
  have h3 : d3.flagBit 6 8 0x18 0 = true := by
    simp only [d3]
    rw [if_pos (show wasArmed from h)]
    exact (Dev.flagBit_congr (Dev.endTripTest_flags _ n) _ _ _ _).trans
      (Dev.flagBit_raise_self d2 6 8 0x18 (2 ^ 0) 0 (by decide) (by decide))
  exact Dev.kaoSend_flag (by decide) h3

/-- The session of a slice sees its trip (R301). -/
theorem Dev.trip_seen (d : Dev) (n : Fin 8) (s act detail : Nat) (test toLockout : Bool) :
    ((d.trip n s act detail test toLockout).evc.s[n]).tripSeen = true := by
  unfold Dev.trip
  extract_lets wasArmed d1 d2 d3
  rw [show (Dev.kaoSend (d3.markTrip n) n _).evc = (d3.markTrip n).evc from
    Dev.kaoSend_part (pt := .evc) (by decide) (by decide) ..]
  exact (congrArg EvcSlice.tripSeen (Dev.updEvc_at ..)).trans (by rw [if_pos rfl])

/-- A trip to LOCKOUT commits the slice's bits in the confirmation cell (R312, R314). -/
theorem Dev.trip_cell (d : Dev) (n : Fin 8) (s act detail : Nat) (test : Bool) :
    (d.trip n s act detail test true).cell.lockout.getLsbD n.val = true ∧
    (act = 3 → (d.trip n s act detail test true).cell.upstream.getLsbD n.val = true) := by
  unfold Dev.trip
  extract_lets wasArmed d1 d2 d3
  have h3 : d3.cell = d2.cell := by
    simp only [d3]
    split
    · exact cell_of_kao ((Dev.endTripTest_kao _ n).trans (Dev.raise_kao ..))
    · rfl
  have h2 := d1.enterLockout_cell n (act = 3)
  have hbit : ∀ m : Byte, (orMask m (2 ^ n.val)).getLsbD n.val = true := by
    intro m
    unfold orMask
    rw [BitVec.getLsbD_or, BitVec.getLsbD_ofNat, Nat.testBit_two_pow_self]
    simp
  rw [Dev.kaoSend_cell, show (d3.markTrip n).cell = d3.cell from rfl, h3, show d2 = d1.enterLockout n (act = 3) from rfl, h2]
  refine ⟨hbit _, fun h => ?_⟩
  rw [show decide (act = 3) = true from decide_eq_true h]
  exact hbit _

theorem Dev.rearmTrack_machine (d : Dev) (n k : Fin 8) :
    (d.rearmTrack n).machine k = if k = n then { d.machine n with
      rearmSince := if d.rearmOk n then ((d.machine n).rearmSince).orElse fun _ => some d.el else none } else d.machine k :=
  Dev.updKao_machine d n k _ fun _ => rfl

theorem Dev.rearmTrack_cell (d : Dev) (n : Fin 8) : (d.rearmTrack n).cell = d.cell := rfl

theorem Dev.rearmTrack_flagBit (d : Dev) (n : Fin 8) (g u off b : Nat) :
    (d.rearmTrack n).flagBit g u off b = d.flagBit g u off b := rfl

theorem Dev.rearmTrack_evc (d : Dev) (n : Fin 8) : (d.rearmTrack n).evc = d.evc := rfl

theorem Dev.watchSafe_evc (d : Dev) (f : Dev → Dev) : (d.watchSafe f).evc = (f d).evc := by
  unfold Dev.watchSafe
  rw [Dev.oneEvent_evc]
  dsimp only
  split <;> rfl

/-- The bit of a source in the halves of KAO_ACTIVE. -/
def sourceBit (s : Fin 16) : BitVec 16 := BitVec.ofNat 16 (2 ^ s.val)

theorem sourceBit_get (s k : Fin 16) : (sourceBit s).getLsbD k.val = decide (k = s) := by
  unfold sourceBit
  rw [BitVec.getLsbD_ofNat, Nat.testBit_two_pow]
  simp [Fin.ext_iff, eq_comm]

/-- The device with a source marked active and latched (R300). -/
def Dev.markSource (d : Dev) (n : Fin 8) (s : Fin 16) : Dev :=
  let d1 := d.updKao n fun x => { x with active := x.active ||| sourceBit s, latched := x.latched ||| sourceBit s }
  if s.val = 12 then d1.raiseKao 6 else d1

theorem Dev.markSource_machine (d : Dev) (n k : Fin 8) (s : Fin 16) :
    (d.markSource n s).machine k = if k = n then { d.machine n with
      active := (d.machine n).active ||| sourceBit s, latched := (d.machine n).latched ||| sourceBit s } else d.machine k := by
  unfold Dev.markSource
  dsimp only
  split <;> exact Dev.updKao_machine d n k _ fun _ => rfl

theorem Dev.markSource_self (d : Dev) (n : Fin 8) (s : Fin 16) : (d.markSource n s).machine n = { d.machine n with
    active := (d.machine n).active ||| sourceBit s, latched := (d.machine n).latched ||| sourceBit s } :=
  (d.markSource_machine n n s).trans (if_pos rfl)

theorem Dev.markSource_common (d : Dev) (n : Fin 8) (s : Fin 16) (i : Nat) : (d.markSource n s).kaoCommon i = d.kaoCommon i := by
  unfold Dev.markSource
  dsimp only
  split <;> rfl

theorem Dev.markSource_el (d : Dev) (n : Fin 8) (s : Fin 16) : (d.markSource n s).el = d.el := by
  unfold Dev.markSource
  dsimp only
  split <;> rfl

theorem Dev.markSource_action (d : Dev) (n : Fin 8) (s : Fin 16) (i : Nat) : (d.markSource n s).kaoAction n i = d.kaoAction n i :=
  Dev.kaoAction_of_block (by rw [Dev.markSource_self]) i

theorem Dev.sourceActive_other (d : Dev) {n k : Fin 8} (h : k ≠ n) (s : Fin 16) (detail : Nat) :
    (d.sourceActive n s detail).machine k = d.machine k := by
  unfold Dev.sourceActive
  split
  · rfl
  · refine (machine_of_kao (Dev.watchSafe_kao_eq ..) k).trans ?_
    refine (Dev.updKao_other _ h _).trans ?_
    refine (Dev.sourceAction_other _ h _ _).trans ?_
    exact (d.markSource_machine n k s).trans (if_neg h)

section
variable {d : Dev} {n : Fin 8} {s : Fin 16} (hp : d.present n.val = true) (h15 : s.val ≠ 15)
  (ha : (d.machine n).active.getLsbD s.val = false) (detail : Nat)
include hp h15 ha

/-- A source that becomes active is marked and acts (R300, R301). -/
theorem Dev.sourceActive_eq : d.sourceActive n s detail =
    d.watchSafe fun d => ((d.markSource n s).sourceAction n s.val detail).rearmTrack n := by
  unfold Dev.sourceActive
  refine if_neg ?_
  rintro (h | h | h)
  · rw [hp] at h
    exact absurd h (by decide)
  · exact h15 h
  · exact Bool.noConfusion (ha.symm.trans h)

theorem Dev.sourceActive_kao : (d.sourceActive n s detail).kao = (((d.markSource n s).sourceAction n s.val detail).rearmTrack n).kao := by
  rw [Dev.sourceActive_eq hp h15 ha]
  exact Dev.watchSafe_kao_eq ..

/-- The machine after a source became active: that of its action, but for the time of the rearm conditions. -/
theorem Dev.sourceActive_machine : ∃ t, (d.sourceActive n s detail).machine n =
    { ((d.markSource n s).sourceAction n s.val detail).machine n with rearmSince := t } :=
  ⟨_, (machine_of_kao (Dev.sourceActive_kao hp h15 ha detail) n).trans (Dev.updKao_self _ n _ fun _ => rfl)⟩

theorem Dev.sourceActive_sources :
    ((d.sourceActive n s detail).machine n).sources = ((d.machine n).active ||| sourceBit s, (d.machine n).latched ||| sourceBit s) := by
  obtain ⟨t, ht⟩ := Dev.sourceActive_machine hp h15 ha detail
  rw [ht]
  refine (Dev.sourceAction_sources _ n s.val detail).trans ?_
  rw [Dev.markSource_self]
  rfl

theorem Dev.sourceActive_unconfirmed (h : (d.machine n).st = .unconfirmed) :
    ((d.sourceActive n s detail).machine n).st = .unconfirmed := by
  obtain ⟨t, ht⟩ := Dev.sourceActive_machine hp h15 ha detail
  have hu : ((d.markSource n s).machine n).st = .unconfirmed := by rw [Dev.markSource_self]; exact h
  rw [ht, Dev.sourceAction_unconfirmed hu]
  exact hu

/-- A source whose action is NONE leaves an ARMED machine as it is (R301). -/
theorem Dev.sourceActive_none (h : (d.machine n).st = .armed) (h0 : d.kaoAction n s.val = 0) :
    ((d.sourceActive n s detail).machine n).st = .armed ∧ ((d.sourceActive n s detail).machine n).ken = (d.machine n).ken := by
  obtain ⟨t, ht⟩ := Dev.sourceActive_machine hp h15 ha detail
  have hu : ((d.markSource n s).machine n).st = .armed := by rw [Dev.markSource_self]; exact h
  rw [ht, Dev.sourceAction_armed hu, if_pos ((d.markSource_action n s s.val).trans h0), Dev.markSource_self]
  exact ⟨h, rfl⟩

/-- The sourceAction of a marked source that trips an ARMED machine, written as one trip. -/
theorem Dev.sourceActive_trips (h : (d.machine n).st = .armed) {act : Nat} {test lock : Bool}
    (hact : (d.markSource n s).sourceAction n s.val detail = (d.markSource n s).trip n s.val act detail test lock) :
    (∃ t, (d.sourceActive n s detail).machine n =
      { ((d.markSource n s).machine n).tripBy d.el s.val act detail test lock with rearmSince := t }) ∧
    (d.sourceActive n s detail).flagBit 6 8 0x18 0 = true ∧ ((d.sourceActive n s detail).evc.s[n]).tripSeen = true ∧
    (d.sourceActive n s detail).cell = ((d.markSource n s).trip n s.val act detail test lock).cell := by
  have hu : ((d.markSource n s).machine n).st = .armed := by rw [Dev.markSource_self]; exact h
  refine ⟨?_, ?_, ?_, ?_⟩
  · obtain ⟨t, ht⟩ := Dev.sourceActive_machine hp h15 ha detail
    rw [hact, Dev.trip_machine, if_pos rfl, Dev.markSource_el] at ht
    exact ⟨t, ht⟩
  · rw [Dev.sourceActive_eq hp h15 ha]
    refine Dev.watchSafe_flag (by decide) ?_
    rw [hact, Dev.rearmTrack_flagBit]
    exact Dev.trip_flag hu ..
  · rw [Dev.sourceActive_eq hp h15 ha]
    rw [Dev.watchSafe_evc, hact, Dev.rearmTrack_evc]
    exact Dev.trip_seen ..
  · refine (cell_of_kao (Dev.sourceActive_kao hp h15 ha detail)).trans ?_
    rw [hact, Dev.rearmTrack_cell]

end

end Sys2Proof.Machine
end

section
/-! SUPPORT. The trip sources of a slice (R299 to R301, R314, R331). -/

namespace Sys2Proof.Machine

/-- A machine without what its filters hold. -/
def KaoSlice.unfiltered (x : KaoSlice) : KaoSlice :=
  { x with raw := 0, charge := Vector.replicate 16 0, chargeAt := Vector.replicate 16 0, imdFault := false }

/-- What the filter of a source keeps of a device: the machine of its slice, the common part, time and the image. -/
def Dev.SameSource (d e : Dev) (n : Fin 8) : Prop :=
  (d.machine n).unfiltered = (e.machine n).unfiltered ∧ (∀ i, d.kaoCommon i = e.kaoCommon i) ∧ d.tim = e.tim ∧ d.img = e.img

theorem Dev.SameSource.trans {d e f : Dev} {n : Fin 8} (h1 : d.SameSource e n) (h2 : e.SameSource f n) : d.SameSource f n :=
  ⟨h1.1.trans h2.1, fun i => (h1.2.1 i).trans (h2.2.1 i), h1.2.2.1.trans h2.2.2.1, h1.2.2.2.trans h2.2.2.2⟩

theorem Dev.updKao_unfiltered (d : Dev) (n : Fin 8) (f : KaoSlice → KaoSlice) (hf : ∀ x, (f x).unfiltered = x.unfiltered) :
    ((d.updKao n f).machine n).unfiltered = (d.machine n).unfiltered := by
  have h : (d.updKao n f).kao.m[n] = f d.kao.m[n] := (Dev.updKao_at ..).trans (if_pos rfl)
  show { (d.updKao n f).kao.m[n].unfiltered with kept := none } = { (d.kao.m[n]).unfiltered with kept := none }
  rw [h, hf]

theorem Dev.setRaw_same (d : Dev) (n : Fin 8) (s : Fin 16) (on : Bool) : (d.setRaw n s on).SameSource d n :=
  ⟨d.updKao_unfiltered n _ fun _ => rfl, fun _ => rfl, rfl, rfl⟩

theorem Dev.setCharge_same (d : Dev) (n : Fin 8) (s : Fin 16) (k : Nat) : (d.setCharge n s k).SameSource d n :=
  ⟨d.updKao_unfiltered n _ fun _ => rfl, fun _ => rfl, rfl, rfl⟩

/-- What a source shows without its filter is none of what the filter reads (R300). -/
theorem Dev.showSource_machine (d : Dev) (n : Fin 8) (s : Fin 16) (on : Bool) :
    (d.showSource n s on).machine n = { d.machine n with
      imdFault := if s.val = 7 then on && d.rawPossible n 7 else (d.machine n).imdFault } := by
  unfold Dev.showSource
  by_cases h10 : s.val = 10
  · rw [if_pos h10, if_neg (by omega)]
    rfl
  · rw [if_neg h10]
    by_cases h7 : s.val = 7
    · rw [if_pos h7, if_pos h7]
      exact d.updKao_self n _ fun _ => rfl
    · rw [if_neg h7, if_neg h7]

theorem Dev.showSource_same (d : Dev) (n : Fin 8) (s : Fin 16) (on : Bool) : (d.showSource n s on).SameSource d n := by
  refine ⟨(congrArg KaoSlice.unfiltered (d.showSource_machine n s on)).trans rfl, fun i => ?_, Dev.showSource_part (pt := .tim) (by decide) ..,
    Dev.showSource_part (pt := .img) (by decide) ..⟩
  unfold Dev.showSource
  split
  · rfl
  split <;> rfl

theorem Dev.sourceInactive_other (d : Dev) {n k : Fin 8} (h : k ≠ n) (s : Fin 16) : (d.sourceInactive n s).machine k = d.machine k :=
  (Dev.updKao_other _ h _).trans (Dev.updKao_other _ h _)

theorem Dev.setRaw_other (d : Dev) {n k : Fin 8} (h : k ≠ n) (s : Fin 16) (on : Bool) : (d.setRaw n s on).machine k = d.machine k :=
  Dev.updKao_other _ h _

theorem Dev.rawChange_other (d : Dev) {n k : Fin 8} (h : k ≠ n) (s : Fin 16) (on : Bool) :
    (d.rawChange n s on).machine k = d.machine k := by
  have h1 := d.setRaw_other h s on
  unfold Dev.rawChange
  dsimp only
  split
  · exact h1
  split
  · exact (Dev.sourceActive_other _ h s 0).trans h1
  · exact (Dev.sourceInactive_other _ h s).trans h1

/-! What Kaolin holds beside the slices is left by what a source does. -/

theorem Dev.endTripTest_shared (d : Dev) (n : Fin 8) : (d.endTripTest n).kaoShared = d.kaoShared :=
  kaoShared_of_kao (d.endTripTest_kao n)

theorem Dev.kenRelease_shared (d : Dev) (n : Fin 8) : (d.kenRelease n).kaoShared = d.kaoShared := by
  unfold Dev.kenRelease
  split <;> rfl

theorem Dev.trip_shared (d : Dev) (n : Fin 8) (s act detail : Nat) (test toLockout : Bool) :
    (d.trip n s act detail test toLockout).kaoShared = d.kaoShared := by
  unfold Dev.trip
  extract_lets wasArmed d1 d2 d3
  have h1 : d1.kaoShared = d.kaoShared := ((d.kenRelease n).writeCell_shared _).trans (d.kenRelease_shared n)
  have h2 : d2.kaoShared = d1.kaoShared := by
    simp only [d2]
    split
    · exact d1.enterLockout_shared n _
    · rfl
  have h3 : d3.kaoShared = d2.kaoShared := by
    simp only [d3]
    split
    · exact (d2.raiseKao 0).endTripTest_shared n
    · rfl
  rw [Dev.kaoSend_shared]
  exact h3.trans (h2.trans h1)

theorem Dev.joinTrip_shared (d : Dev) (n : Fin 8) (s act detail : Nat) : (d.joinTrip n s act detail).kaoShared = d.kaoShared := by
  unfold Dev.joinTrip
  extract_lets x counted d1
  split
  · rfl
  split
  · rfl
  split
  · exact d1.enterLockout_shared n _
  split
  · exact d1.writeCell_shared _
  · rfl

theorem Dev.sourceAction_shared (d : Dev) (n : Fin 8) (s detail : Nat) : (d.sourceAction n s detail).kaoShared = d.kaoShared := by
  unfold Dev.sourceAction
  dsimp only
  split
  · exact d.joinTrip_shared n s _ detail
  split
  · rfl
  · split
    · rfl
    split
    · split
      · exact d.trip_shared n ..
      · exact (d.escalate n).trip_shared n ..
    · exact d.trip_shared n ..
  · split
    · exact d.trip_shared n ..
    · rfl
  · split
    · exact d.writeCell_shared _
    · rfl

theorem Dev.markSource_shared (d : Dev) (n : Fin 8) (s : Fin 16) : (d.markSource n s).kaoShared = d.kaoShared := by
  unfold Dev.markSource
  dsimp only
  split <;> rfl

theorem Dev.sourceActive_shared (d : Dev) (n : Fin 8) (s : Fin 16) (detail : Nat) :
    (d.sourceActive n s detail).kaoShared = d.kaoShared := by
  unfold Dev.sourceActive
  split
  · rfl
  · refine (kaoShared_of_kao (Dev.watchSafe_kao_eq ..)).trans ?_
    exact ((d.markSource n s).sourceAction_shared n _ detail).trans (d.markSource_shared n s)

theorem Dev.rawChange_shared (d : Dev) (n : Fin 8) (s : Fin 16) (on : Bool) : (d.rawChange n s on).kaoShared = d.kaoShared := by
  unfold Dev.rawChange
  dsimp only
  split
  · rfl
  split
  · exact (d.setRaw n s on).sourceActive_shared n s 0
  · rfl

/-- A fold whose steps keep a relation to the start. -/
theorem foldl_rel {α : Type} (l : List α) (g : Dev → α → Dev) (R : Dev → Dev → Prop) (d : Dev) (h0 : R d d)
    (h : ∀ a x, R a d → R (g a x) d) : R (l.foldl g d) d := by
  suffices hs : ∀ a, R a d → R (l.foldl g a) d from hs d h0
  induction l with
  | nil => exact fun a ha => ha
  | cons x xs ih => exact fun a ha => ih (g a x) (h a x ha)

/-- ESTOP of the other slices (R300) leaves this one. -/
theorem Dev.estopOthers_self (d : Dev) (n : Fin 8) (on : Bool) :
    (d.estopOthers n on).machine n = d.machine n ∧ (d.estopOthers n on).kaoShared = d.kaoShared := by
  unfold Dev.estopOthers
  refine foldl_rel slices _ (fun a d => a.machine n = d.machine n ∧ a.kaoShared = d.kaoShared) d ⟨rfl, rfl⟩ fun a m ha => ?_
  split
  · next h => exact ⟨(a.rawChange_other h.1.symm 10 on).trans ha.1, (a.rawChange_shared m 10 on).trans ha.2⟩
  · exact ha

theorem Dev.estopOthers_same (d : Dev) (n : Fin 8) (on : Bool) : (d.estopOthers n on).SameSource d n := by
  obtain ⟨hm, hs⟩ := d.estopOthers_self n on
  exact ⟨congrArg KaoSlice.unfiltered hm, fun i => Dev.kaoCommon_of_shared hs i,
    Dev.estopOthers_part (pt := .tim) (by decide) (by decide) (by decide) .., Dev.estopOthers_part (pt := .img) (by decide) (by decide) (by decide) ..⟩

/-- The filter of a source reads its own slice's machine and time (R299). -/
theorem Dev.chargeNow_congr {d e : Dev} {n : Fin 8} (s : Fin 16) (hm : (d.machine n).raw = (e.machine n).raw ∧
    (d.machine n).charge = (e.machine n).charge ∧ (d.machine n).chargeAt = (e.machine n).chargeAt ∧
    (d.machine n).block = (e.machine n).block) (ht : d.tim = e.tim) :
    d.chargeNow n s = e.chargeNow n s ∧ d.kaoFilter n s.val = e.kaoFilter n s.val := by
  obtain ⟨hr, hc, ha, hb⟩ := hm
  have hf : d.kaoFilter n s.val = e.kaoFilter n s.val := congrArg (· * 200000) (Dev.kaoByte_of_block hb _)
  refine ⟨?_, hf⟩
  have hr' : (d.kao.m[n]).raw = (e.kao.m[n]).raw := hr
  have hc' : (d.kao.m[n]).charge = (e.kao.m[n]).charge := hc
  have ha' : (d.kao.m[n]).chargeAt = (e.kao.m[n]).chargeAt := ha
  have hel : d.el = e.el := congrArg TimState.elapsed ht
  unfold Dev.chargeNow
  simp only [hr', hc', ha', hel, hf]

/-- What a source shows first, and, for ESTOP, what the other slices then do. -/
def Dev.shownSource (d : Dev) (n : Fin 8) (s : Fin 16) (on : Bool) : Dev :=
  if s.val = 10 ∧ d.present n.val then (d.showSource n s on).estopOthers n on else d.showSource n s on

theorem Dev.shownSource_same (d : Dev) (n : Fin 8) (s : Fin 16) (on : Bool) : (d.shownSource n s on).SameSource d n := by
  unfold Dev.shownSource
  split
  · exact ((d.showSource n s on).estopOthers_same n on).trans (d.showSource_same n s on)
  · exact d.showSource_same n s on

theorem Dev.shownSource_machine (d : Dev) (n : Fin 8) (s : Fin 16) (on : Bool) :
    (d.shownSource n s on).machine n = (d.showSource n s on).machine n := by
  unfold Dev.shownSource
  split
  · exact ((d.showSource n s on).estopOthers_self n on).1
  · rfl

theorem Dev.shownSource_charge (d : Dev) (n : Fin 8) (s : Fin 16) (on : Bool) :
    (d.shownSource n s on).chargeNow n s = d.chargeNow n s ∧ (d.shownSource n s on).kaoFilter n s.val = d.kaoFilter n s.val := by
  refine Dev.chargeNow_congr s ?_ (d.shownSource_same n s on).2.2.1
  rw [Dev.shownSource_machine, Dev.showSource_machine]
  exact ⟨rfl, rfl, rfl, rfl⟩

theorem Dev.shownSource_raw (d : Dev) (n : Fin 8) (s : Fin 16) (on : Bool) :
    ((d.shownSource n s on).kao.m[n]).raw = (d.kao.m[n]).raw := by
  show ((d.shownSource n s on).machine n).raw = (d.machine n).raw
  rw [Dev.shownSource_machine, Dev.showSource_machine]

theorem Dev.kaolinActive_eq (d : Dev) (n : Fin 8) (s : Fin 16) : d.kaolinActive n s =
    match d.kao.m[n].force with
    | some (f, t) =>
      if f = s.val then (if d.after t (d.kaoFilter n s.val * 9 / 10) then (d.shownSource n s true).filterRises n s else d.shownSource n s true)
      else if d.rawPossible n s.val then (d.shownSource n s true).filterFull n s else d.shownSource n s true
    | none => if d.rawPossible n s.val then (d.shownSource n s true).filterFull n s else d.shownSource n s true := rfl

theorem Dev.filterRises_active (d : Dev) (n : Fin 8) (s : Fin 16) :
    ∃ e : Dev, d.filterRises n s = e.sourceActive n s 0 ∧ e.SameSource d n :=
  ⟨_, rfl, ((d.setRaw n s true).setCharge_same n s _).trans (d.setRaw_same n s true)⟩

/-- A source whose filter is full becomes active on a device that differs from the given one in the filters only (R299). -/
theorem Dev.kaolinActive_full {d : Dev} {n : Fin 8} {s : Fin 16} (hf : (d.kao.m[n]).force = none)
    (hr : d.rawPossible n s.val = true) (hc : (d.kao.m[n]).raw.getLsbD s.val = true → d.charged n s = true) :
    ∃ e : Dev, d.kaolinActive n s = e.sourceActive n s 0 ∧ e.SameSource d n := by
  rw [Dev.kaolinActive_eq, hf]
  dsimp only
  rw [if_pos hr]
  unfold Dev.filterFull
  rw [Dev.shownSource_raw]
  by_cases hraw : (d.kao.m[n]).raw.getLsbD s.val = true
  · have hch : (d.shownSource n s true).charged n s = true := by
      unfold Dev.charged
      rw [(d.shownSource_charge n s true).1, (d.shownSource_charge n s true).2]
      exact hc hraw
    rw [if_pos hraw, if_pos hch]
    exact ⟨_, rfl, d.shownSource_same n s true⟩
  · rw [if_neg hraw]
    obtain ⟨e, he, hs⟩ := (d.shownSource n s true).filterRises_active n s
    exact ⟨e, he, hs.trans (d.shownSource_same n s true)⟩

/-- A source that TRIP_TEST forces becomes active after its filter time (R331). -/
theorem Dev.kaolinActive_forced {d : Dev} {n : Fin 8} {s : Fin 16} {t0 : Nat} (hf : (d.kao.m[n]).force = some (s.val, t0))
    (ht : t0 + d.kaoFilter n s.val * 9 / 10 ≤ d.tim.elapsed) :
    ∃ e : Dev, d.kaolinActive n s = e.sourceActive n s 0 ∧ e.SameSource d n := by
  rw [Dev.kaolinActive_eq, hf]
  dsimp only
  rw [if_pos rfl, if_pos ((d.after_iff _ _).2 ht)]
  obtain ⟨e, he, hs⟩ := (d.shownSource n s true).filterRises_active n s
  exact ⟨e, he, hs.trans (d.shownSource_same n s true)⟩

section
variable {d e : Dev} {n : Fin 8} (h : e.SameSource d n)
include h

theorem Dev.SameSource.present : e.present n.val = d.present n.val := by
  unfold Dev.present Dev.kind
  rw [h.2.2.2]

theorem Dev.SameSource.action (i : Nat) : e.kaoAction n i = d.kaoAction n i :=
  Dev.kaoAction_of_block ((congrArg KaoSlice.block h.1).trans rfl : (e.machine n).block = (d.machine n).block) i

theorem Dev.SameSource.st : (e.machine n).st = (d.kao.m[n]).st := (congrArg KaoSlice.st h.1).trans rfl
theorem Dev.SameSource.ken : (e.machine n).ken = (d.kao.m[n]).ken := (congrArg KaoSlice.ken h.1).trans rfl
theorem Dev.SameSource.active : (e.machine n).active = (d.kao.m[n]).active := (congrArg KaoSlice.active h.1).trans rfl
theorem Dev.SameSource.force : (e.machine n).force = (d.kao.m[n]).force := (congrArg KaoSlice.force h.1).trans rfl
end

/-- An ARMED machine that trips on a source without escalation (R301, R331). -/
theorem Dev.sourceAction_trip {e : Dev} {n : Fin 8} {s : Fin 16} (hst : (e.machine n).st = .armed) (h1 : e.kaoAction n s.val = 1)
    (hlim : e.kaoCommon 1 = 0 ∨ ((e.machine n).force.map (·.1)) = some s.val) :
    (e.markSource n s).sourceAction n s.val 0 =
      (e.markSource n s).trip n s.val 1 0 (((e.machine n).force.map (·.1)) = some s.val) false := by
  have hu : ((e.markSource n s).machine n).st = .armed := by rw [Dev.markSource_self]; exact hst
  have hforce : ((e.markSource n s).machine n).force = (e.machine n).force := by rw [Dev.markSource_self]
  rw [Dev.sourceAction_armed hu, Dev.markSource_action, h1, if_neg (by decide), if_pos rfl, Dev.markSource_common, hforce, if_pos hlim]

/-- An ARMED machine goes to LOCKOUT on a source whose action is LOCK or UPSTREAM (R301, R314). -/
theorem Dev.sourceAction_lock {e : Dev} {n : Fin 8} {s : Fin 16} (hst : (e.machine n).st = .armed) (h2 : 2 ≤ e.kaoAction n s.val) :
    (e.markSource n s).sourceAction n s.val 0 =
      (e.markSource n s).trip n s.val (e.kaoAction n s.val) 0 (((e.machine n).force.map (·.1)) = some s.val) true := by
  have hu : ((e.markSource n s).machine n).st = .armed := by rw [Dev.markSource_self]; exact hst
  have hforce : ((e.markSource n s).machine n).force = (e.machine n).force := by rw [Dev.markSource_self]
  rw [Dev.sourceAction_armed hu, Dev.markSource_action, if_neg (by omega), if_neg (by omega), hforce]

/-! A source becomes inactive (R300). -/

/-- Only Kaolin changes, and in no slice the machine's state or the latched half. -/
def Dev.Quiet (e d : Dev) : Prop :=
  e = { d with kao := e.kao } ∧ ∀ k : Fin 8, (e.kao.m[k]).st = (d.kao.m[k]).st ∧ (e.kao.m[k]).latched = (d.kao.m[k]).latched

theorem Dev.Quiet.trans {e d f : Dev} (h1 : e.Quiet d) (h2 : d.Quiet f) : e.Quiet f :=
  ⟨by rw [h1.1, h2.1], fun k => ⟨(h1.2 k).1.trans (h2.2 k).1, (h1.2 k).2.trans (h2.2 k).2⟩⟩

theorem Dev.updKao_quiet (d : Dev) (n : Fin 8) (f : KaoSlice → KaoSlice) (hf : ∀ x, (f x).st = x.st ∧ (f x).latched = x.latched) :
    (d.updKao n f).Quiet d := by
  refine ⟨rfl, fun k => ?_⟩
  have h : (d.updKao n f).kao.m[k] = if k = n then f d.kao.m[n] else d.kao.m[k] := Dev.updKao_at ..
  rw [h]
  split
  · next hk => rw [hk]; exact hf _
  · exact ⟨rfl, rfl⟩

/-- The device with a source no longer active. -/
def Dev.clearActive (d : Dev) (n : Fin 8) (s : Fin 16) : Dev := d.updKao n fun x => { x with active := x.active &&& ~~~(sourceBit s) }

theorem Dev.sourceInactive_eq (d : Dev) (n : Fin 8) (s : Fin 16) : d.sourceInactive n s = (d.clearActive n s).rearmTrack n := rfl

theorem Dev.rearmTrack_quiet (d : Dev) (n : Fin 8) : (d.rearmTrack n).Quiet d := d.updKao_quiet n _ fun _ => ⟨rfl, rfl⟩

theorem Dev.sourceInactive_quiet (d : Dev) (n : Fin 8) (s : Fin 16) : (d.sourceInactive n s).Quiet d :=
  ((d.clearActive n s).rearmTrack_quiet n).trans (d.updKao_quiet n _ fun _ => ⟨rfl, rfl⟩)

theorem Dev.setRaw_quiet (d : Dev) (n : Fin 8) (s : Fin 16) (on : Bool) : (d.setRaw n s on).Quiet d :=
  d.updKao_quiet n _ fun _ => ⟨rfl, rfl⟩

theorem Dev.setCharge_quiet (d : Dev) (n : Fin 8) (s : Fin 16) (k : Nat) : (d.setCharge n s k).Quiet d :=
  d.updKao_quiet n _ fun _ => ⟨rfl, rfl⟩

theorem Dev.rawChange_quiet (d : Dev) (n : Fin 8) (s : Fin 16) : (d.rawChange n s false).Quiet d := by
  have h1 := d.setRaw_quiet n s false
  unfold Dev.rawChange
  dsimp only
  split
  · exact h1
  · exact ((d.setRaw n s false).sourceInactive_quiet n s).trans h1

theorem Dev.showSource_quiet (d : Dev) (n : Fin 8) (s : Fin 16) (on : Bool) : (d.showSource n s on).Quiet d := by
  unfold Dev.showSource
  split
  · exact ⟨rfl, fun k => ⟨rfl, rfl⟩⟩
  split
  · exact d.updKao_quiet n _ fun _ => ⟨rfl, rfl⟩
  · exact ⟨rfl, fun k => ⟨rfl, rfl⟩⟩

theorem Dev.shownSource_quiet (d : Dev) (n : Fin 8) (s : Fin 16) : (d.shownSource n s false).Quiet d := by
  have h1 := d.showSource_quiet n s false
  unfold Dev.shownSource
  split
  · refine Dev.Quiet.trans ?_ h1
    refine foldl_rel slices _ Dev.Quiet _ ⟨rfl, fun k => ⟨rfl, rfl⟩⟩ fun a m ha => ?_
    split
    · exact (a.rawChange_quiet m 10).trans ha
    · exact ha
  · exact h1

theorem Dev.updKao_slice_other (d : Dev) {n k : Fin 8} (h : k ≠ n) (f : KaoSlice → KaoSlice) : (d.updKao n f).kao.m[k] = d.kao.m[k] :=
  (Dev.updKao_at ..).trans (if_neg h)

theorem Dev.setRaw_slice_other (d : Dev) {n k : Fin 8} (h : k ≠ n) (s : Fin 16) (on : Bool) : (d.setRaw n s on).kao.m[k] = d.kao.m[k] :=
  d.updKao_slice_other h _

theorem Dev.setCharge_slice_other (d : Dev) {n k : Fin 8} (h : k ≠ n) (s : Fin 16) (c : Nat) :
    (d.setCharge n s c).kao.m[k] = d.kao.m[k] := d.updKao_slice_other h _

theorem Dev.sourceInactive_slice_other (d : Dev) {n k : Fin 8} (h : k ≠ n) (s : Fin 16) :
    (d.sourceInactive n s).kao.m[k] = d.kao.m[k] :=
  ((d.clearActive n s).updKao_slice_other h _).trans (d.updKao_slice_other h _)

theorem Dev.shownSource_slice_other (d : Dev) {n k : Fin 8} (h : k ≠ n) {s : Fin 16} (hs : s.val ≠ 10) (on : Bool) :
    (d.shownSource n s on).kao.m[k] = d.kao.m[k] := by
  unfold Dev.shownSource
  rw [if_neg fun hc => hs hc.1]
  unfold Dev.showSource
  rw [if_neg hs]
  split
  · exact d.updKao_slice_other h _
  · rfl

theorem Dev.sourceInactive_active (d : Dev) (n : Fin 8) (s : Fin 16) :
    ((d.sourceInactive n s).kao.m[n]).active.getLsbD s.val = false := by
  have h : ((d.sourceInactive n s).machine n).active = (d.machine n).active &&& ~~~(sourceBit s) := by
    rw [Dev.sourceInactive_eq, Dev.rearmTrack_machine, if_pos rfl, Dev.clearActive, Dev.updKao_self d n _ fun _ => rfl]
  have hbit : (sourceBit s).getLsbD s.val = true := by rw [sourceBit_get]; simp
  show ((d.sourceInactive n s).machine n).active.getLsbD s.val = false
  rw [h]
  simp [hbit]

/-- A source whose filter is empty becomes inactive on a device that differs from the given one in Kaolin only (R300). -/
theorem Dev.kaolinInactive_empty {d : Dev} {n : Fin 8} {s : Fin 16} (hr : d.endsByRule n s.val = false)
    (hd : (d.kao.m[n]).raw.getLsbD s.val = true ∨ d.discharged n s = true) :
    ∃ e : Dev, d.kaolinInactive n s = e.sourceInactive n s ∧ e.Quiet d ∧
      ∀ k : Fin 8, k ≠ n → s.val ≠ 10 → e.kao.m[k] = d.kao.m[k] := by
  have heq : d.kaolinInactive n s = (d.shownSource n s false).filterEmpty n s := if_neg (by rw [hr]; decide)
  have hq := d.shownSource_quiet n s
  rw [heq]
  unfold Dev.filterEmpty
  rw [Dev.shownSource_raw]
  by_cases hraw : (d.kao.m[n]).raw.getLsbD s.val = true
  · rw [if_pos hraw]
    refine ⟨_, rfl, ?_, fun k hk h10 => ?_⟩
    · exact ((Dev.setCharge_quiet _ n s 0).trans (Dev.setRaw_quiet _ n s false)).trans hq
    · exact (Dev.setCharge_slice_other _ hk s 0).trans ((Dev.setRaw_slice_other _ hk s false).trans (d.shownSource_slice_other hk h10 false))
  · have hdis : (d.shownSource n s false).discharged n s = true := by
      unfold Dev.discharged
      rw [(d.shownSource_charge n s false).1, (d.shownSource_charge n s false).2]
      exact hd.resolve_left hraw
    rw [if_neg hraw, if_pos hdis]
    exact ⟨_, rfl, hq, fun k hk h10 => d.shownSource_slice_other hk h10 false⟩

section
variable {s : State} {n : Fin 8} {src : Fin 16} (hp : s.dev.present n.val = true)
include hp

/-- A forced source trips its ARMED slice, and the trip is marked as a test (R331). -/
theorem kaolinSourceActive_forced {t0 : Nat} (hf : (s.dev.kao.m[n]).force = some (src.val, t0))
    (ht : t0 + s.dev.kaoFilter n src.val * 9 / 10 ≤ s.dev.tim.elapsed) (h15 : src.val ≠ 15)
    (hact : (s.dev.kao.m[n]).isActive src.val = false) (hst : (s.dev.kao.m[n]).st = .armed) (h1 : s.dev.kaoAction n src.val = 1) :
    ∃ t, exec (.kaolinSourceActive n src) s = .next t ∧ (t.dev.kao.m[n]).active.getLsbD src.val = true ∧
      (t.dev.kao.m[n]).st = .tripped ∧ (t.dev.kao.m[n]).ken = false ∧ (t.dev.kao.m[n]).tripTest = true ∧
      (t.dev.kao.m[n]).tripSource = src.val := by
  obtain ⟨e, he, hsame⟩ := Dev.kaolinActive_forced hf ht
  have hep := hsame.present.trans hp
  have hea : (e.machine n).active.getLsbD src.val = false := by rw [hsame.active]; exact hact
  have hest := hsame.st.trans hst
  have hforce : ((e.machine n).force.map (·.1)) = some src.val := by rw [hsame.force, hf]; rfl
  obtain ⟨⟨t, hm⟩, -, -, -⟩ := Dev.sourceActive_trips hep h15 hea 0 hest
    (Dev.sourceAction_trip hest ((hsame.action _).trans h1) (.inr hforce))
  have hsrc := Dev.sourceActive_sources hep h15 hea 0
  refine ⟨s.put (e.sourceActive n src 0), next_put he, ?_, congrArg KaoSlice.st hm, ?_, ?_, congrArg KaoSlice.tripSource hm⟩
  · refine (congrArg (fun x : BitVec 16 × BitVec 16 => x.1.getLsbD src.val) hsrc).trans ?_
    simp [sourceBit_get]
  · exact (congrArg KaoSlice.ken hm).trans (KaoSlice.released_ken _ _)
  · exact (congrArg KaoSlice.tripTest hm).trans (decide_eq_true hforce)

/-- What a source whose filter is full does to its slice (R299 to R301, R314). -/
theorem kaolinSourceActive_full (hf : (s.dev.kao.m[n]).force = none) (hr : s.dev.rawPossible n src.val = true)
    (hact : (s.dev.kao.m[n]).isActive src.val = false)
    (hc : (s.dev.kao.m[n]).raw.getLsbD src.val = true → s.dev.charged n src = true) :
    ∃ t, exec (.kaolinSourceActive n src) s = .next t ∧ (t.dev.kao.m[n]).active.getLsbD src.val = true ∧
      (t.dev.kao.m[n]).latched.getLsbD src.val = true ∧
      (∀ k : Fin 16, k ≠ src → (t.dev.kao.m[n]).active.getLsbD k.val = (s.dev.kao.m[n]).active.getLsbD k.val) ∧
      ((s.dev.kao.m[n]).st = .armed →
        (s.dev.kaoAction n src.val = 0 → (t.dev.kao.m[n]).st = .armed ∧ (t.dev.kao.m[n]).ken = (s.dev.kao.m[n]).ken) ∧
        (s.dev.kaoAction n src.val = 1 → s.dev.kaoCommon 1 = 0 →
          (t.dev.kao.m[n]).st = .tripped ∧ (t.dev.kao.m[n]).ken = false ∧ (t.dev.kao.m[n]).tripSource = src.val ∧
          t.dev.flagBit 6 8 0x18 0 = true ∧ (t.dev.evc.s[n]).tripSeen = true) ∧
        (2 ≤ s.dev.kaoAction n src.val →
          (t.dev.kao.m[n]).st = .lockout ∧ (t.dev.kao.m[n]).ken = false ∧ t.dev.cell.lockout.getLsbD n.val = true ∧
          (s.dev.kaoAction n src.val = 3 → t.dev.cell.upstream.getLsbD n.val = true))) ∧
      ((s.dev.kao.m[n]).st = .unconfirmed → (t.dev.kao.m[n]).st = .unconfirmed) := by
  obtain ⟨e, he, hsame⟩ := Dev.kaolinActive_full hf hr hc
  have h15 : src.val ≠ 15 := by
    intro h
    rw [h] at hr
    exact absurd hr (by simp [Dev.rawPossible])
  have hep := hsame.present.trans hp
  have hea : (e.machine n).active.getLsbD src.val = false := by rw [hsame.active]; exact hact
  have hsrc := Dev.sourceActive_sources hep h15 hea 0
  rw [hsame.active] at hsrc
  refine ⟨s.put (e.sourceActive n src 0), next_put he, ?_, ?_, fun k hk => ?_, fun hst => ⟨fun h0 => ?_, fun h1 hlim => ?_, fun h2 => ?_⟩,
    fun hu => ?_⟩
  · refine (congrArg (fun x : BitVec 16 × BitVec 16 => x.1.getLsbD src.val) hsrc).trans ?_
    simp [sourceBit_get]
  · refine (congrArg (fun x : BitVec 16 × BitVec 16 => x.2.getLsbD src.val) hsrc).trans ?_
    simp [sourceBit_get]
  · refine (congrArg (fun x : BitVec 16 × BitVec 16 => x.1.getLsbD k.val) hsrc).trans ?_
    rw [BitVec.getLsbD_or, sourceBit_get, decide_eq_false hk, Bool.or_false]
  · obtain ⟨h3, h4⟩ := Dev.sourceActive_none hep h15 hea 0 (hsame.st.trans hst) ((hsame.action _).trans h0)
    exact ⟨h3, h4.trans hsame.ken⟩
  · have hest := hsame.st.trans hst
    obtain ⟨⟨t, hm⟩, hflag, hseen, -⟩ := Dev.sourceActive_trips hep h15 hea 0 hest
      (Dev.sourceAction_trip hest ((hsame.action _).trans h1) (.inl ((hsame.2.1 1).trans hlim)))
    exact ⟨congrArg KaoSlice.st hm, (congrArg KaoSlice.ken hm).trans (KaoSlice.released_ken _ _), congrArg KaoSlice.tripSource hm,
      hflag, hseen⟩
  · have hest := hsame.st.trans hst
    have hact2 := hsame.action src.val
    obtain ⟨⟨t, hm⟩, -, -, hcell⟩ := Dev.sourceActive_trips hep h15 hea 0 hest (Dev.sourceAction_lock hest (hact2 ▸ h2))
    obtain ⟨hl, hup⟩ := (e.markSource n src).trip_cell n src.val (e.kaoAction n src.val) 0
      (((e.machine n).force.map (·.1)) = some src.val)
    rw [← hcell] at hl hup
    exact ⟨congrArg KaoSlice.st hm, (congrArg KaoSlice.ken hm).trans (KaoSlice.released_ken _ _), hl, fun h3 => hup (hact2.trans h3)⟩
  · exact Dev.sourceActive_unconfirmed hep h15 hea 0 (hsame.st.trans hu)

end

theorem kaolinSourceInactive_empty {s : State} {n : Fin 8} {src : Fin 16} (hf : (s.dev.kao.m[n]).force = none)
    (h5 : src.val ≠ 5) (h11 : src.val ≠ 11) (h12 : src.val ≠ 12) (h2 : src.val = 2 → (s.dev.kao.m[n]).resFail = false)
    (hd : (s.dev.kao.m[n]).raw.getLsbD src.val = true ∨ s.dev.discharged n src = true) :
    ∃ t, exec (.kaolinSourceInactive n src) s = .next t ∧ (t.dev.kao.m[n]).active.getLsbD src.val = false ∧
      (t.dev.kao.m[n]).latched = (s.dev.kao.m[n]).latched ∧ (t.dev.kao.m[n]).st = (s.dev.kao.m[n]).st ∧
      t.dev = { s.dev with kao := t.dev.kao } ∧
      ∀ k : Fin 8, k ≠ n → (t.dev.kao.m[k]).st = (s.dev.kao.m[k]).st ∧ (t.dev.kao.m[k]).latched = (s.dev.kao.m[k]).latched ∧
        (src.val ≠ 10 → t.dev.kao.m[k] = s.dev.kao.m[k]) := by
  have hrule : s.dev.endsByRule n src.val = false := by
    have hres : (src.val = 2 && (s.dev.kao.m[n]).resFail) = false := by
      by_cases h : src.val = 2
      · rw [h2 h, Bool.and_false]
      · simp [h]
    have hnone : ((s.dev.kao.m[n]).force.map (·.1)) ≠ some src.val := by rw [hf]; exact nofun
    unfold Dev.endsByRule
    rw [hres, decide_eq_false h5, decide_eq_false h11, decide_eq_false h12, decide_eq_false hnone]
    rfl
  obtain ⟨e, he, hq, hother⟩ := Dev.kaolinInactive_empty hrule hd
  have hq2 := (e.sourceInactive_quiet n src).trans hq
  refine ⟨s.put (e.sourceInactive n src), next_put he, e.sourceInactive_active n src, (hq2.2 n).2, (hq2.2 n).1, hq2.1, fun k hk =>
    ⟨(hq2.2 k).1, (hq2.2 k).2, fun h10 => (e.sourceInactive_slice_other hk src).trans (hother k hk h10)⟩⟩

/-- Settles O37. -/
theorem kaolinSources : Obligations.KaolinSources := by
  intro n src s hp
  exact ⟨fun t0 hf ht h15 hact hst h1 => kaolinSourceActive_forced hp hf ht h15 hact hst h1,
    fun hf hr hact hc => kaolinSourceActive_full hp hf hr hact hc,
    fun hf h5 h11 h12 h2 hd => kaolinSourceInactive_empty hf h5 h11 h12 h2 hd⟩

end Sys2Proof.Machine
end

section
/-! SUPPORT. What the operations of connector control do to their own session (R252 to R268): one rule per operation,
over the session without its pilot output, which follows the state (R252). The other slices keep theirs (`_session`). -/

namespace Sys2Proof.Machine

/-- A session without its pilot output. -/
def EvcSlice.undriven (x : EvcSlice) : EvcSlice := { x with drive := 0, duty := 0, pwmOn := false }

/-- The session of a slice without its pilot output. -/
def Dev.seat (d : Dev) (n : Fin 8) : EvcSlice := d.evc.s[n].undriven

/-- A session that has entered a state. -/
def EvcSlice.entering (x : EvcSlice) (st : Sess) : EvcSlice :=
  { x with
    st := st, young := true, refuse := if st = .plugged then x.refuse else 0
    sid := if st = .idle ∨ st = .plugged then 0 else x.sid }

/-- A session whose contactor switches off (R268 step 2), with its coil on or not. -/
def EvcSlice.cut (x : EvcSlice) (coilOn : Bool) (el : Nat) : EvcSlice :=
  { x with asking := false, waiting := false, close := .none, tOpen := if coilOn ∨ x.tOpen.isNone then some el else x.tOpen }

variable (d : Dev) (n : Fin 8)

theorem seat_of_part {d e : Dev} {n : Fin 8} (h : e.part .evc = d.part .evc) : e.seat n = d.seat n :=
  congrArg EvcSlice.undriven (session_of_part h)

/-- A field of a session beside its pilot output is that of its seat. -/
theorem Dev.seat_get {α : Type} {d : Dev} {n : Fin 8} {x : EvcSlice} (g : EvcSlice → α) (hg : ∀ y : EvcSlice,
    g y.undriven = g y)
    (h : d.seat n = x) : g d.evc.s[n] = g x := (hg _).symm.trans (congrArg g h)

theorem Dev.updEvc_self (f : EvcSlice → EvcSlice) : (d.updEvc n f).evc.s[n] = f d.evc.s[n] :=
  (Dev.updEvc_at d n n f).trans (if_pos rfl)

theorem Dev.updEvc_seat (f : EvcSlice → EvcSlice) (hf : ∀ x,
    { f x with drive := 0, duty := 0, pwmOn := false } = f { x with drive := 0, duty := 0, pwmOn := false }) :
    (d.updEvc n f).seat n = f (d.seat n) := (congrArg EvcSlice.undriven (d.updEvc_self n f)).trans (hf _)

theorem Dev.drivePilot_seat : (d.drivePilot n).seat n = d.seat n :=
  (congrArg EvcSlice.undriven (d.updEvc_self n _)).trans rfl

theorem Dev.levelPilot_seat : (d.levelPilot n).seat n = d.seat n := by
  unfold Dev.levelPilot
  split
  · rfl
  · exact d.drivePilot_seat n

theorem Dev.raiseEvc_seat (m b : Nat) : (d.raiseEvc m b).seat n = d.seat n := seat_of_part (Dev.raiseEvc_part ..)

theorem Dev.goSess_seat (st : Sess) : (d.goSess n st).seat n = (d.seat n).entering st := by
  unfold Dev.goSess
  dsimp only
  rw [Dev.levelPilot_seat, seat_of_part (Dev.sessionEvent_part (by decide) ..), seat_of_part (Dev.raise_part ..)]
  exact d.updEvc_seat n _ fun _ => rfl

theorem Dev.evcDemand_seat (c : Fin 16) (on : Bool) : (d.evcDemand c on).seat n = d.seat n :=
  seat_of_part (Dev.evcDemand_part (by decide) ..)

theorem Dev.setLock_seat (on : Bool) : (d.setLock n on).seat n =
    { d.seat n with lockOn := on && !(d.lockChannels n.val).isEmpty, lockOk := (d.seat n).lockOk && on } := by
  unfold Dev.setLock
  extract_lets d1
  refine (d1.updEvc_seat n _ fun _ => rfl).trans ?_
  have h1 : d1.seat n = d.seat n := seat_of_part (foldl_part _ _ _ fun x c => Dev.evcDemand_part (by decide) x c on)
  rw [h1]

theorem Dev.setLock_of_seat {d : Dev} {n : Fin 8} {x : EvcSlice} (h : d.seat n = x) (on : Bool) :
    ∃ lo lk, (d.setLock n on).seat n = { x with lockOn := lo, lockOk := lk } := by
  rw [Dev.setLock_seat, h]
  exact ⟨_, _, rfl⟩

theorem Dev.cutContactor_seat : (d.cutContactor n).seat n = (d.seat n).cut (d.coilOn n) d.el := by
  unfold Dev.cutContactor
  refine (Dev.updEvc_seat _ n _ fun _ => rfl).trans ?_
  rw [Dev.evcDemand_seat]
  rfl

theorem Dev.takeEnd_seat : (d.takeEnd n).seat n = { d.seat n with endDue := false } := by
  unfold Dev.takeEnd
  refine (Dev.updEvc_seat _ n _ fun _ => rfl).trans ?_
  rw [seat_of_part (Dev.sessionEnd_part (by decide) (by decide) ..)]

/-- The opening of the contactor begins with a wait or at once: no more than its own fields change (R268). -/
theorem Dev.beginOpen_seat (wait : Nat) : ∃ a w c t e, (d.beginOpen n wait).seat n =
    { d.seat n with asking := a, waiting := w, close := c, tOpen := t, waitEnd := e } := by
  unfold Dev.beginOpen
  split
  · exact ⟨_, _, _, _, _, d.cutContactor_seat n⟩
  · exact ⟨_, _, _, _, _, d.updEvc_seat n _ fun _ => rfl⟩

theorem Dev.beginOpen_zero : d.beginOpen n 0 = d.cutContactor n := if_pos (.inl rfl)

theorem Dev.goIdle_seat : (d.goIdle n).seat n =
    { (d.seat n).entering .idle with
      startTaken := false, endDue := false, fellBack := false, tOpen := none, waiting := false, close := .none,
        susp := .lifted, overRun := 0 } := by
  refine (Dev.updEvc_seat _ n _ fun _ => rfl).trans ?_
  rw [Dev.goSess_seat]

theorem Dev.goFinished_seat (reason : Nat) : ∃ lo lk, (d.goFinished n reason).seat n =
    { EvcSlice.entering { d.seat n with reason := reason, preauth := none } .finished with lockOn := lo, lockOk := lk } := by
  have hgo : ((d.updEvc n fun x => { x with reason := reason, preauth := none }).goSess n .finished).seat n =
      EvcSlice.entering { d.seat n with reason := reason, preauth := none } .finished := by
    rw [Dev.goSess_seat, d.updEvc_seat n _ fun _ => rfl]
  exact Dev.setLock_of_seat hgo false

theorem Dev.goFinished_st (reason : Nat) : ((d.goFinished n reason).evc.s[n]).st = .finished := by
  obtain ⟨lo, lk, h⟩ := d.goFinished_seat n reason
  exact Dev.seat_get EvcSlice.st (fun _ => rfl) h

theorem Dev.goFinished_reason (reason : Nat) : ((d.goFinished n reason).evc.s[n]).reason = reason := by
  obtain ⟨lo, lk, h⟩ := d.goFinished_seat n reason
  exact Dev.seat_get EvcSlice.reason (fun _ => rfl) h

theorem Dev.goFault_stays (reason : Nat) (h : (d.evc.s[n]).st = .fault) : d.goFault n reason = d := if_pos h

theorem Dev.goFault_seat (reason : Nat) (h : (d.evc.s[n]).st ≠ .fault) : ∃ lo lk, (d.goFault n reason).seat n =
    { EvcSlice.entering { (d.seat n).cut (d.coilOn n) d.el with reason := reason, preauth := none } .fault with
      lockOn := lo, lockOk := lk } := by
  have hgo : (((d.cutContactor n).updEvc n fun x => { x with reason := reason, preauth := none }).goSess n .fault).seat n =
      EvcSlice.entering { (d.seat n).cut (d.coilOn n) d.el with reason := reason, preauth := none } .fault := by
    rw [Dev.goSess_seat, Dev.updEvc_seat _ n _ fun _ => rfl, Dev.cutContactor_seat]
  unfold Dev.goFault
  rw [if_neg h]
  dsimp only
  split
  · exact ⟨_, _, hgo⟩
  · exact Dev.setLock_of_seat hgo false

/-- After a fault the session is in FAULT; a session that was there keeps its reason. -/
theorem Dev.goFault_st (reason : Nat) : ((d.goFault n reason).seat n).st = .fault := by
  by_cases h : (d.evc.s[n]).st = .fault
  · rw [Dev.goFault_stays d n reason h]
    exact h
  · obtain ⟨lo, lk, hs⟩ := d.goFault_seat n reason h
    exact congrArg EvcSlice.st hs

theorem Dev.goFault_reason {d : Dev} {n : Fin 8} (reason : Nat) (h : (d.evc.s[n]).st ≠ .fault) :
    ((d.goFault n reason).evc.s[n]).reason = reason := by
  obtain ⟨lo, lk, hs⟩ := d.goFault_seat n reason h
  exact Dev.seat_get EvcSlice.reason (fun _ => rfl) hs

theorem Dev.goStopping_seat (reason wait : Nat) : ∃ a w c t e, (d.goStopping n reason wait).seat n =
    { EvcSlice.entering { d.seat n with reason := reason, susp := .lifted, toSusp := false } .stopping with
      asking := a, waiting := w, close := c, tOpen := t, waitEnd := e } := by
  unfold Dev.goStopping
  obtain ⟨a, w, c, t, e, h⟩ := Dev.beginOpen_seat
    ((d.updEvc n fun x => { x with reason := reason, susp := .lifted, toSusp := false }).goSess n .stopping) n wait
  refine ⟨a, w, c, t, e, h.trans ?_⟩
  rw [Dev.goSess_seat, d.updEvc_seat n _ fun _ => rfl]

theorem Dev.goStopping_st (reason wait : Nat) : ((d.goStopping n reason wait).evc.s[n]).st = .stopping := by
  obtain ⟨a, w, c, t, e, h⟩ := d.goStopping_seat n reason wait
  exact Dev.seat_get EvcSlice.st (fun _ => rfl) h

theorem Dev.goStopping_reason (reason wait : Nat) : ((d.goStopping n reason wait).evc.s[n]).reason = reason := by
  obtain ⟨a, w, c, t, e, h⟩ := d.goStopping_seat n reason wait
  exact Dev.seat_get EvcSlice.reason (fun _ => rfl) h

/-- A stop without a wait withdraws the close request at once. -/
theorem Dev.goStopping_asking (reason : Nat) : ((d.goStopping n reason 0).evc.s[n]).asking = false := by
  unfold Dev.goStopping
  rw [Dev.beginOpen_zero]
  exact Dev.seat_get EvcSlice.asking (fun _ => rfl) (Dev.cutContactor_seat ..)

theorem Dev.goSuspended_seat (b : Susp) : ∃ a w c t e, (d.goSuspended n b).seat n =
    { EvcSlice.entering { d.seat n with susp := b, toSusp := true, overRun := 0 } .suspended with
      asking := a, waiting := w, close := c, tOpen := t, waitEnd := e } := by
  unfold Dev.goSuspended
  obtain ⟨a, w, c, t, e, h⟩ := Dev.beginOpen_seat
    ((d.updEvc n fun x => { x with susp := b, toSusp := true, overRun := 0 }).goSess n .suspended) n
    (if b = .vehicle then 0 else d.evWait n)
  refine ⟨a, w, c, t, e, h.trans ?_⟩
  rw [Dev.goSess_seat, d.updEvc_seat n _ fun _ => rfl]

theorem Dev.goSuspended_asking : ((d.goSuspended n .vehicle).evc.s[n]).asking = false := by
  unfold Dev.goSuspended
  rw [if_pos rfl, Dev.beginOpen_zero]
  exact Dev.seat_get EvcSlice.asking (fun _ => rfl) (Dev.cutContactor_seat ..)

theorem Dev.goAuthorized_seat (method : Nat) (r : List Word) : (d.goAuthorized n method r).seat n =
    EvcSlice.entering { d.seat n with method := method, ref := r, preauth := none } .authorized := by
  unfold Dev.goAuthorized
  rw [Dev.goSess_seat, d.updEvc_seat n _ fun _ => rfl]

theorem Dev.goEnergizing_seat : ∃ c lo lk, (d.goEnergizing n).seat n =
    { EvcSlice.entering { d.seat n with tEnergize := d.el, tClose := d.el, endDue := true, toSusp := false, tOpen := none,
                                        waiting := false, close := c } .energizing with lockOn := lo, lockOk := lk } := by
  unfold Dev.goEnergizing
  extract_lets useLock d1
  have h1 : d1.seat n = EvcSlice.entering { d.seat n with
      tEnergize := d.el, tClose := d.el, endDue := true, toSusp := false, tOpen := none, waiting := false
      close := if useLock then .lock else .locked } .energizing := by
    unfold d1
    rw [Dev.goSess_seat, d.updEvc_seat n _ fun _ => rfl]
  split
  · exact ⟨_, Dev.setLock_of_seat h1 true⟩
  · exact ⟨_, _, _, h1⟩

/-! What a stop cause does, by the state it finds (R262, R266, R267). -/

section
variable {d n} (reason wait : Nat)

theorem Dev.stopCause_finishes (h : (d.evc.s[n]).st = .authorizing ∨ (d.evc.s[n]).st = .authorized) :
    d.stopCause n reason wait = d.goFinished n reason := by
  unfold Dev.stopCause
  rcases h with h | h <;> rw [h]

theorem Dev.stopCause_stops (h : (d.evc.s[n]).st = .energizing ∨ (d.evc.s[n]).st = .charging ∨ (d.evc.s[n]).st = .suspended) :
    d.stopCause n reason wait = d.goStopping n reason wait := by
  unfold Dev.stopCause
  rcases h with h | h | h <;> rw [h]

theorem Dev.stopCause_stopping (h : (d.evc.s[n]).st = .stopping) :
    d.stopCause n reason wait = d.overtakeStop n reason wait := by
  unfold Dev.stopCause
  rw [h]

theorem Dev.stopCause_none
    (h : (d.evc.s[n]).st = .idle ∨ (d.evc.s[n]).st = .plugged ∨ (d.evc.s[n]).st = .finished ∨ (d.evc.s[n]).st = .fault) :
    d.stopCause n reason wait = d := by
  unfold Dev.stopCause
  rcases h with h | h | h | h <;> rw [h]
end

end Sys2Proof.Machine
end

section
/-! SUPPORT. The transitions of a session at a control cycle (O35): the branch of each state, and what its operation does
to the session. -/

namespace Sys2Proof.Machine

section
variable {d : Dev} {n : Fin 8}

/-- Only a pilot in D can count as another state (R261). -/
theorem Dev.pilotOf_eq (h : (d.evc.s[n]).pilot ≠ .D) : d.pilotOf n = (d.evc.s[n]).pilot := if_neg fun hc => h hc.1

theorem Dev.pilotOf_A (h : (d.evc.s[n]).pilot = .A) : d.pilotOf n = .A := (Dev.pilotOf_eq (by rw [h]; decide)).trans h
theorem Dev.pilotOf_B (h : (d.evc.s[n]).pilot = .B) : d.pilotOf n = .B := (Dev.pilotOf_eq (by rw [h]; decide)).trans h
theorem Dev.pilotOf_C (h : (d.evc.s[n]).pilot = .C) : d.pilotOf n = .C := (Dev.pilotOf_eq (by rw [h]; decide)).trans h

theorem Dev.pilotOf_ne_A (h : (d.evc.s[n]).pilot ≠ .A) : d.pilotOf n ≠ .A := by
  unfold Dev.pilotOf
  dsimp only
  split
  · exact nofun
  · exact h

/-! A trip, a pilot fault, and a state that is new (R262). -/

theorem Dev.sessionStep_trip (ht : (d.evc.s[n]).tripSeen = true) :
    d.sessionStep n = (d.updEvc n fun x => { x with tripSeen := false }).goFault n 11 := if_pos ht

theorem Dev.sessionStep_pilotFault (ht : (d.evc.s[n]).tripSeen = false) (hr : (d.evc.s[n]).fn.isRunning = true)
    (hp : d.pilotFault n = true) : d.sessionStep n = d.goFault n 13 := by
  unfold Dev.sessionStep
  rw [if_neg (ne_true_of_eq_false ht), if_neg (by rw [hr]; decide), if_pos hp]

theorem Dev.sessionStep_turn (ht : (d.evc.s[n]).tripSeen = false) (hr : (d.evc.s[n]).fn.isRunning = true)
    (hp : d.pilotFault n = false) : d.sessionStep n = d.sessionTurn n := by
  unfold Dev.sessionStep
  rw [if_neg (ne_true_of_eq_false ht), if_neg (by rw [hr]; decide), if_neg (ne_true_of_eq_false hp)]

theorem Dev.pilotFault_st (hp : d.pilotFault n = true) : (d.evc.s[n]).st ≠ .fault := by
  intro h
  unfold Dev.pilotFault at hp
  dsimp only at hp
  rw [h] at hp
  exact absurd hp nofun

theorem Dev.openCycle_stays (hw : (d.evc.s[n]).waiting = false) (hs : (d.evc.s[n]).st ≠ .suspended) : d.openCycle n = d := by
  unfold Dev.openCycle
  dsimp only
  rw [if_neg fun h => ne_true_of_eq_false hw h.1, if_neg fun h => hs h.1]

/-! The transition of each state (R260 to R262). -/

theorem Dev.sessionCycle_plug (hst : (d.evc.s[n]).st = .idle)
    (hp : (d.evc.s[n]).pilot = .B ∨ (d.evc.s[n]).pilot = .C ∨ (d.evc.s[n]).pilot = .D) :
    d.sessionCycle n = (d.updEvc n fun x => { x with tPlug := d.el, refuse := 0, matchedInTime := false }).goSess n .plugged := by
  unfold Dev.sessionCycle
  extract_lets x p
  rw [show x.st = _ from hst]
  exact if_pos hp

theorem Dev.sessionCycle_idle (hst : (d.evc.s[n]).st = .idle) (hp : (d.evc.s[n]).pilot = .A) : d.sessionCycle n = d := by
  unfold Dev.sessionCycle
  extract_lets x p
  rw [show x.st = _ from hst]
  exact if_neg (by rw [hp]; decide)

theorem Dev.sessionCycle_unplug (hst : (d.evc.s[n]).st = .plugged ∨ (d.evc.s[n]).st = .finished)
    (hp : (d.evc.s[n]).pilot = .A) :
    d.sessionCycle n = d.goIdle n := by
  unfold Dev.sessionCycle
  extract_lets x p
  rcases hst with hst | hst <;> rw [show x.st = _ from hst] <;> exact if_pos (Dev.pilotOf_A hp)

theorem Dev.sessionCycle_refused (hst : (d.evc.s[n]).st = .plugged) (hp : (d.evc.s[n]).pilot ≠ .A)
    (hr : d.startRefuse n ≠ 0) :
    d.sessionCycle n = d.noteRefuse n (d.startRefuse n) := by
  unfold Dev.sessionCycle
  extract_lets x p
  rw [show x.st = _ from hst]
  exact (if_neg (Dev.pilotOf_ne_A hp)).trans (if_pos hr)

theorem Dev.noteRefuse_seat (r : Nat) : (d.noteRefuse n r).seat n = { d.seat n with refuse := r } := by
  have h1 : (d.updEvc n fun x => { x with refuse := r }).seat n = { d.seat n with refuse := r } := d.updEvc_seat n _ fun _ => rfl
  unfold Dev.noteRefuse
  dsimp only
  split
  · exact (Dev.raiseEvc_seat ..).trans h1
  · exact h1

theorem Dev.sessionCycle_leave (hst : (d.evc.s[n]).st = .authorizing ∨ (d.evc.s[n]).st = .authorized)
    (hp : (d.evc.s[n]).pilot = .A) :
    d.sessionCycle n = d.goFinished n 1 := by
  unfold Dev.sessionCycle
  extract_lets x p
  rcases hst with hst | hst <;> rw [show x.st = _ from hst] <;> exact if_pos (Dev.pilotOf_A hp)

theorem Dev.sessionCycle_close (hst : (d.evc.s[n]).st = .authorized) (hp : (d.evc.s[n]).pilot ≠ .A)
    (hc : d.closeConditions n = true) :
    d.sessionCycle n = d.goEnergizing n := by
  unfold Dev.sessionCycle
  extract_lets x p
  rw [show x.st = _ from hst]
  exact (if_neg (Dev.pilotOf_ne_A hp)).trans (if_pos hc)

theorem Dev.sessionCycle_closed (hst : (d.evc.s[n]).st = .energizing) (hp : (d.evc.s[n]).pilot ≠ .A)
    (hm : d.mtrFault n = false)
    (hc : (d.evc.s[n]).close = .energized) (hfb : (d.kao.m[n]).fb = true) :
    d.sessionCycle n = (d.updEvc n fun x => { x with close := .none, overRun := 0 }).goSess n .charging := by
  have hcycle : d.closeCycle n = (d.updEvc n fun x => { x with close := .none, overRun := 0 }).goSess n .charging := by
    unfold Dev.closeCycle
    extract_lets x
    rw [show x.close = _ from hc]
    exact if_pos hfb
  unfold Dev.sessionCycle
  extract_lets x p
  rw [show x.st = _ from hst]
  exact ((if_neg (Dev.pilotOf_ne_A hp)).trans (if_neg (ne_true_of_eq_false hm))).trans hcycle

theorem Dev.sessionCycle_unplugged (hst : (d.evc.s[n]).st = .charging) (hp : (d.evc.s[n]).pilot = .A) :
    d.sessionCycle n = d.goStopping n 1 0 := by
  unfold Dev.sessionCycle
  extract_lets x p
  rw [show x.st = _ from hst]
  exact if_pos (Dev.pilotOf_A hp)

theorem Dev.sessionCycle_mtrFault (hst : (d.evc.s[n]).st = .charging) (hp : (d.evc.s[n]).pilot ≠ .A)
    (hm : d.mtrFault n = true) :
    d.sessionCycle n = d.goStopping n 12 0 := by
  unfold Dev.sessionCycle
  extract_lets x p
  rw [show x.st = _ from hst]
  exact (if_neg (Dev.pilotOf_ne_A hp)).trans (if_pos hm)

theorem Dev.sessionCycle_suspend (hst : (d.evc.s[n]).st = .charging) (hp : (d.evc.s[n]).pilot = .B)
    (hm : d.mtrFault n = false) :
    d.sessionCycle n = d.goSuspended n .vehicle := by
  unfold Dev.sessionCycle
  extract_lets x p
  rw [show x.st = _ from hst]
  have hA : (d.evc.s[n]).pilot ≠ .A := by rw [hp]; decide
  exact ((if_neg (Dev.pilotOf_ne_A hA)).trans (if_neg (ne_true_of_eq_false hm))).trans (if_pos (Dev.pilotOf_B hp))

theorem Dev.sessionCycle_finish (hst : (d.evc.s[n]).st = .stopping) (hm : d.mtrFault n = false)
    (ho : (d.evc.s[n]).tOpen.isSome = true)
    (he : (d.evc.s[n]).endDue = false) : d.sessionCycle n = d.goFinished n (d.evc.s[n]).reason := by
  unfold Dev.sessionCycle
  extract_lets x p _ d1
  have h1 : d1 = d := if_neg (ne_true_of_eq_false hm)
  rw [show x.st = _ from hst, h1]
  exact if_pos ⟨ho, by rw [he]; rfl⟩

end

/-- Settles O35. -/
theorem sessionTransitions : Obligations.SessionTransitions := by
  intro d n
  refine ⟨fun ht hst => ?_, fun ht hr hp => ⟨fun hy => ?_, fun hy => ?_⟩, Dev.openCycle_stays, fun ht hr hp => ?_,
    fun hst hp => ?_,
    Dev.sessionCycle_idle, fun hst hp => ?_, fun hst hp hr => ?_, fun hst hp => ?_, fun hst hp hc => ?_,
      fun hst hp hm hc hfb => ?_,
    fun hst hp => ?_, fun hst hp hm => ?_, fun hst hp hm => ?_, fun hst hm ho he => ?_, fun hst hp => ?_⟩
  · have hst' : ((d.updEvc n fun x => { x with tripSeen := false }).evc.s[n]).st ≠ .fault := by rw [d.updEvc_self]; exact hst
    rw [Dev.sessionStep_trip ht]
    exact ⟨Dev.goFault_st .., Dev.goFault_reason 11 hst'⟩
  · rw [Dev.sessionStep_turn ht hr hp]; exact if_pos hy
  · rw [Dev.sessionStep_turn ht hr hp]; exact if_neg (ne_true_of_eq_false hy)
  · rw [Dev.sessionStep_pilotFault ht hr hp]
    exact ⟨Dev.goFault_st .., Dev.goFault_reason 13 (Dev.pilotFault_st hp)⟩
  · have hs := Dev.goSess_seat (d.updEvc n fun x => { x with tPlug := d.el, refuse := 0, matchedInTime := false }) n .plugged
    rw [d.updEvc_seat n _ fun _ => rfl] at hs
    rw [Dev.sessionCycle_plug hst hp]
    exact ⟨Dev.seat_get EvcSlice.st (fun _ => rfl) hs, Dev.seat_get EvcSlice.tPlug (fun _ => rfl) hs⟩
  · rw [Dev.sessionCycle_unplug (.inl hst) hp]
    exact Dev.seat_get EvcSlice.st (fun _ => rfl) (d.goIdle_seat n)
  · rw [Dev.sessionCycle_refused hst (by rcases hp with hp | hp <;> rw [hp] <;> decide) hr]
    exact ⟨(Dev.seat_get EvcSlice.st (fun _ => rfl) (Dev.noteRefuse_seat _)).trans hst,
      Dev.seat_get EvcSlice.refuse (fun _ => rfl) (Dev.noteRefuse_seat _)⟩
  · rw [Dev.sessionCycle_leave hst hp]
    exact ⟨d.goFinished_st n 1, d.goFinished_reason n 1⟩
  · obtain ⟨c, lo, lk, hs⟩ := d.goEnergizing_seat n
    rw [Dev.sessionCycle_close hst hp hc]
    exact Dev.seat_get EvcSlice.st (fun _ => rfl) hs
  · rw [Dev.sessionCycle_closed hst (by rw [hp]; decide) hm hc hfb]
    exact Dev.seat_get EvcSlice.st (fun _ => rfl) (Dev.goSess_seat _ n .charging)
  · rw [Dev.sessionCycle_unplugged hst hp]
    exact ⟨d.goStopping_st n 1 0, d.goStopping_reason n 1 0⟩
  · obtain ⟨a, w, c, t, e, hs⟩ := d.goSuspended_seat n .vehicle
    rw [Dev.sessionCycle_suspend hst hp hm]
    exact ⟨Dev.seat_get EvcSlice.st (fun _ => rfl) hs, Dev.seat_get EvcSlice.susp (fun _ => rfl) hs, d.goSuspended_asking n⟩
  · rw [Dev.sessionCycle_mtrFault hst (by rw [hp]; decide) hm]
    exact ⟨d.goStopping_st n 12 0, d.goStopping_reason n 12 0⟩
  · rw [Dev.sessionCycle_finish hst hm ho he]
    exact ⟨d.goFinished_st n _, d.goFinished_reason n _⟩
  · rw [Dev.sessionCycle_unplug (.inr hst) hp]
    exact Dev.seat_get EvcSlice.st (fun _ => rfl) (d.goIdle_seat n)

end Sys2Proof.Machine
end

section
/-! SUPPORT. The close request of a slice, its withdrawal, the feedback, the release window and the rearming of the machine
(O38). -/

namespace Sys2Proof.Machine

/-- A field of a slice beside the message it keeps is that of its machine. -/
theorem Dev.machine_get {α : Type} {d : Dev} {n : Fin 8} {x : KaoSlice} (g : KaoSlice → α)
    (hg : ∀ y : KaoSlice, g { y with kept := none } = g y) (h : d.machine n = x) : g d.kao.m[n] = g x := (hg _).symm.trans (congrArg g h)

/-! No source closes a contactor driver. -/

theorem Dev.trip_ken (d : Dev) (n : Fin 8) (s act detail : Nat) (test toLockout : Bool) :
    ((d.trip n s act detail test toLockout).machine n).ken = false :=
  (congrArg KaoSlice.ken ((d.trip_machine n n s act detail test toLockout).trans (if_pos rfl))).trans (KaoSlice.released_ken _ _)

section
variable {d : Dev} {n : Fin 8} (h : (d.machine n).ken = false)
include h

theorem Dev.joinTrip_ken (s act detail : Nat) : ((d.joinTrip n s act detail).machine n).ken = false := by
  unfold Dev.joinTrip
  extract_lets x counted d1
  have h1 : (d1.machine n).ken = false := (congrArg KaoSlice.ken (d.updKao_self n _ fun _ => rfl)).trans h
  split
  · exact h
  split
  · exact h1
  split
  · exact (congrArg KaoSlice.ken ((Dev.enterLockout_machine d1 n n _).trans (if_pos rfl))).trans h1
  split
  · exact (congrArg KaoSlice.ken (Dev.writeCell_machine d1 _ n)).trans h1
  · exact h1

theorem Dev.sourceAction_ken (s detail : Nat) : ((d.sourceAction n s detail).machine n).ken = false := by
  unfold Dev.sourceAction
  dsimp only
  split
  · exact Dev.joinTrip_ken h ..
  split
  · exact h
  · split
    · exact h
    split
    · split <;> exact Dev.trip_ken ..
    · exact Dev.trip_ken ..
  · split
    · exact Dev.trip_ken ..
    · exact h
  · split
    · exact (congrArg KaoSlice.ken (Dev.writeCell_machine d _ n)).trans h
    · exact h

theorem Dev.sourceActive_ken (s : Fin 16) (detail : Nat) : ((d.sourceActive n s detail).machine n).ken = false := by
  by_cases hs : d.present n.val = true ∧ s.val ≠ 15 ∧ (d.machine n).active.getLsbD s.val = false
  · obtain ⟨hp, h15, ha⟩ := hs
    obtain ⟨t, ht⟩ := Dev.sourceActive_machine hp h15 ha detail
    rw [ht]
    exact Dev.sourceAction_ken ((congrArg KaoSlice.ken (d.markSource_self n s)).trans h) s.val detail
  · have hsame : d.sourceActive n s detail = d := by
      refine if_pos ?_
      by_cases hp : d.present n.val = true
      · by_cases h15 : s.val = 15
        · exact .inr (.inl h15)
        · exact .inr (.inr (Bool.of_not_eq_false fun ha => hs ⟨hp, h15, ha⟩))
      · exact .inl (by simp [hp])
    rw [hsame]
    exact h
end

/-- After a source became active, or was so already, it is active. -/
theorem Dev.sourceActive_isActive {d : Dev} {n : Fin 8} {s : Fin 16} (hp : d.present n.val = true) (h15 : s.val ≠ 15) (detail : Nat) :
    ((d.sourceActive n s detail).machine n).active.getLsbD s.val = true := by
  cases ha : (d.machine n).active.getLsbD s.val with
  | true =>
    have hsame : d.sourceActive n s detail = d := if_pos (.inr (.inr ha))
    rw [hsame]
    exact ha
  | false =>
    refine (congrArg (fun x : BitVec 16 × BitVec 16 => x.1.getLsbD s.val) (Dev.sourceActive_sources hp h15 ha detail)).trans ?_
    simp [sourceBit_get]

/-! ### The close request (R283, R316, R317) -/

/-- A machine but for its close request and its running test, which no close condition reads. -/
def KaoSlice.unasked (x : KaoSlice) : KaoSlice := { x with req := false, reqAt := none, resRunning := false }

/-- The refusal of a close depends on neither the request nor a running test (R316). -/
theorem Dev.closeRefusal_congr {d e : Dev} {n : Fin 8} (hm : (e.machine n).unasked = (d.machine n).unasked)
    (hs : e.kaoShared = d.kaoShared) (htim : e.tim = d.tim) (hevc : e.evc = d.evc) : e.closeRefusal n = d.closeRefusal n := by
  have hst : (e.kao.m[n]).st = (d.kao.m[n]).st := (congrArg KaoSlice.st hm :)
  have htrip : (e.kao.m[n]).tripAt = (d.kao.m[n]).tripAt := (congrArg KaoSlice.tripAt hm :)
  have hact : (e.kao.m[n]).active = (d.kao.m[n]).active := (congrArg KaoSlice.active hm :)
  have hfb : (e.kao.m[n]).fb = (d.kao.m[n]).fb := (congrArg KaoSlice.fb hm :)
  have hres : (e.kao.m[n]).resValid = (d.kao.m[n]).resValid := (congrArg KaoSlice.resValid hm :)
  have hlost : e.kao.hbLost = d.kao.hbLost := (congrArg KaoState.hbLost hs :)
  have hbyte : ∀ i, e.kaoByte n i = d.kaoByte n i := Dev.kaoByte_of_block (congrArg KaoSlice.block hm :)
  have haction : ∀ i, e.kaoAction n i = d.kaoAction n i := fun i => hbyte _
  have hnow : e.tripsNow n = d.tripsNow n := by
    unfold Dev.tripsNow Dev.el
    rw [htrip, hst, htim]
  have hnone : e.noActive n = d.noActive n := by
    unfold Dev.noActive KaoSlice.isActive
    rw [hact]
    simp only [haction]
  have hused : e.resUsed n = d.resUsed n := by
    unfold Dev.resUsed
    rw [haction, haction]
  have hband : e.pilotInBand n = d.pilotInBand n := by
    unfold Dev.pilotInBand
    rw [hbyte, hevc]
  unfold Dev.closeRefusal
  extract_lets x y
  rw [show x.st = y.st from hst, show x.fb = y.fb from hfb, show x.resValid = y.resValid from hres, hlost, hnow, hnone, hused, hband]

/-- The device with the close request of a slice noted. -/
def Dev.requested (d : Dev) (n : Fin 8) : Dev :=
  (d.updKao n fun x => { x with req := true, reqAt := some d.el, resRunning := false }).endResTest n

theorem Dev.endResTest_kao (d : Dev) (n : Fin 8) : (d.endResTest n).kao = d.kao := Dev.endResTest_part (pt := .kao) ..

theorem Dev.requested_machine (d : Dev) (n : Fin 8) : (d.requested n).machine n =
    { d.machine n with req := true, reqAt := some d.el, resRunning := false } :=
  (machine_of_kao (Dev.endResTest_kao _ n) n).trans (d.updKao_self n _ fun _ => rfl)

theorem Dev.requested_refusal (d : Dev) (n : Fin 8) : (d.requested n).closeRefusal n = d.closeRefusal n := by
  refine Dev.closeRefusal_congr ?_ ?_ ?_ ?_
  · rw [Dev.requested_machine]
    rfl
  · exact (kaoShared_of_kao (Dev.endResTest_kao _ n)).trans rfl
  · exact (Dev.endResTest_part (pt := .tim) ..).trans rfl
  · exact (Dev.endResTest_part (pt := .evc) ..).trans rfl

/-- A request that meets every condition closes KENn (R316). -/
theorem Dev.kaoRequest_closes {d : Dev} {n : Fin 8} (h : d.closeRefusal n = 0) (hu : d.pwr.uvlo = false) :
    d.kaoRequest n = (true, ((d.requested n).updKao n fun x => { x with ken := true, xBypOk := false }).rearmTrack n) :=
  if_pos ⟨(d.requested_refusal n).trans h, by rw [hu]; rfl⟩

/-- A refused request leaves KENn open and shows its reason (R316). -/
theorem Dev.kaoRequest_refused {d : Dev} {n : Fin 8} (h : d.closeRefusal n ≠ 0) (hk : (d.kao.m[n]).ken = false) :
    (d.kaoRequest n).1 = false ∧ ((d.kaoRequest n).2.kao.m[n]).ken = false ∧ ((d.kaoRequest n).2.kao.m[n]).refuse = d.closeRefusal n := by
  have hr : (d.requested n).closeRefusal n ≠ 0 := by rwa [Dev.requested_refusal]
  have hken : ((d.requested n).machine n).ken = false := (congrArg KaoSlice.ken (d.requested_machine n)).trans hk
  have heq : d.kaoRequest n = (false, (((if ((d.requested n).kao.m[n]).fb then (d.requested n).sourceActive n 5 0 else d.requested n).updKao n
      fun x => { x with refuse := if (d.requested n).closeRefusal n = 0 then x.refuse else (d.requested n).closeRefusal n }).rearmTrack n)) :=
    if_neg fun hc => hr hc.1
  rw [heq]
  generalize hd2 : (if ((d.requested n).kao.m[n]).fb then (d.requested n).sourceActive n 5 0 else d.requested n) = d2
  have hken2 : (d2.machine n).ken = false := by
    rw [← hd2]
    split
    · exact Dev.sourceActive_ken hken 5 0
    · exact hken
  have hm : ((d2.updKao n fun x => { x with
      refuse := if (d.requested n).closeRefusal n = 0 then x.refuse else (d.requested n).closeRefusal n }).rearmTrack n).machine n = _ :=
    (Dev.updKao_self _ n _ fun _ => rfl).trans (by rw [Dev.updKao_self d2 n _ fun _ => rfl])
  refine ⟨rfl, (Dev.machine_get KaoSlice.ken (fun _ => rfl) hm).trans hken2, (Dev.machine_get KaoSlice.refuse (fun _ => rfl) hm).trans ?_⟩
  exact (if_neg hr).trans (d.requested_refusal n)

theorem Dev.closeRefusal_armed {d : Dev} {n : Fin 8} (h : d.closeRefusal n = 0) : (d.kao.m[n]).st = .armed := by
  refine Decidable.byContradiction fun hst => ?_
  have hr : d.closeRefusal n = if d.tripsNow n then 2 else 1 := if_pos hst
  rw [hr] at h
  split at h <;> exact absurd h (by decide)

/-- The answer of Kaolin concerns the session only. -/
theorem Dev.closeAnswer_kao (d : Dev) (n : Fin 8) (r : Bool × Dev) : (d.closeAnswer n r).kao = r.2.kao := by
  unfold Dev.closeAnswer
  split
  · split
    · rfl
    · exact Dev.goStopping_part (pt := .kao) (by decide) (by decide) (by decide) ..
  · rfl

section
variable {s : State} {n : Fin 8} (ha : (s.dev.evc.s[n]).asking = true) (hr : (s.dev.kao.m[n]).req = false)
  (hp : s.dev.present n.val = true)
include ha hr hp

theorem closeRequest_exec : exec (.closeRequest n) s = .next (s.put (s.dev.closeAnswer n (s.dev.kaoRequest n))) :=
  next_put (if_pos ⟨ha, by rw [hr]; rfl, hp⟩)

theorem closeRequest_closes (h : s.dev.closeRefusal n = 0) (hu : s.dev.pwr.uvlo = false) :
    ∃ t, exec (.closeRequest n) s = .next t ∧ (t.dev.kao.m[n]).ken = true ∧ (t.dev.kao.m[n]).req = true ∧
      (t.dev.kao.m[n]).resRunning = false ∧ (t.dev.kao.m[n]).st = .armed ∧
      ((s.dev.evc.s[n]).st = .energizing → (s.dev.evc.s[n]).close = .requested → (t.dev.evc.s[n]).close = .ken) := by
  have heq := Dev.kaoRequest_closes h hu
  have hm : (((s.dev.requested n).updKao n fun x => { x with ken := true, xBypOk := false }).rearmTrack n).machine n = _ :=
    (Dev.updKao_self _ n _ fun _ => rfl).trans (by rw [Dev.updKao_self _ n _ fun _ => rfl, Dev.requested_machine])
  have hkao : ∀ k : Fin 8, (s.dev.closeAnswer n (s.dev.kaoRequest n)).machine k =
      (((s.dev.requested n).updKao n fun x => { x with ken := true, xBypOk := false }).rearmTrack n).machine k := by
    rw [heq]
    exact machine_of_kao (Dev.closeAnswer_kao ..)
  have hm2 := (hkao n).trans hm
  refine ⟨_, closeRequest_exec ha hr hp, Dev.machine_get KaoSlice.ken (fun _ => rfl) hm2, Dev.machine_get KaoSlice.req (fun _ => rfl) hm2,
    Dev.machine_get KaoSlice.resRunning (fun _ => rfl) hm2,
    (Dev.machine_get KaoSlice.st (fun _ => rfl) hm2).trans (Dev.closeRefusal_armed h), fun hst hc => ?_⟩
  have hans : s.dev.closeAnswer n (s.dev.kaoRequest n) = (s.dev.kaoRequest n).2.updEvc n fun x => { x with close := .ken } := by
    refine (if_pos ⟨hst, hc⟩).trans (if_pos ?_)
    rw [heq]
  refine (congrArg (fun d : Dev => (d.evc.s[n]).close) hans).trans ?_
  exact congrArg EvcSlice.close (Dev.updEvc_self ..)

theorem closeRequest_refused (h : s.dev.closeRefusal n ≠ 0) (hk : (s.dev.kao.m[n]).ken = false) :
    ∃ t, exec (.closeRequest n) s = .next t ∧ (t.dev.kao.m[n]).ken = false ∧ (t.dev.kao.m[n]).refuse = s.dev.closeRefusal n ∧
      ((s.dev.evc.s[n]).st = .energizing → (s.dev.evc.s[n]).close = .requested →
        (t.dev.evc.s[n]).st = .stopping ∧ (t.dev.evc.s[n]).reason = 20) := by
  obtain ⟨h1, h2, h3⟩ := Dev.kaoRequest_refused h hk
  have hkao := s.dev.closeAnswer_kao n (s.dev.kaoRequest n)
  refine ⟨_, closeRequest_exec ha hr hp, ?_, ?_, fun hst hc => ?_⟩
  · exact (congrArg (fun x : KaoState => (x.m[n]).ken) hkao).trans h2
  · exact (congrArg (fun x : KaoState => (x.m[n]).refuse) hkao).trans h3
  · have hans : s.dev.closeAnswer n (s.dev.kaoRequest n) = (s.dev.kaoRequest n).2.goStopping n 20 0 := by
      refine (if_pos ⟨hst, hc⟩).trans (if_neg ?_)
      rw [h1]
      decide
    exact ⟨(congrArg (fun d : Dev => (d.evc.s[n]).st) hans).trans (Dev.goStopping_st ..),
      (congrArg (fun d : Dev => (d.evc.s[n]).reason) hans).trans (Dev.goStopping_reason ..)⟩
end

/-! ### Withdrawal, feedback, release window and rearming (R284, R296, R315, R533) -/

theorem Dev.kenRelease_slice_other (d : Dev) {n k : Fin 8} (h : k ≠ n) : (d.kenRelease n).kao.m[k] = d.kao.m[k] := by
  unfold Dev.kenRelease
  split
  · exact d.updKao_slice_other h _
  · rfl

theorem Dev.kenRelease_only (d : Dev) (n : Fin 8) : d.kenRelease n = { d with kao := (d.kenRelease n).kao } := by
  unfold Dev.kenRelease
  split <;> rfl

theorem Dev.rearmTrack_only (d : Dev) (n : Fin 8) : d.rearmTrack n = { d with kao := (d.rearmTrack n).kao } := rfl

theorem Dev.onlyKao_trans {d e f : Dev} (h1 : e = { d with kao := e.kao }) (h2 : d = { f with kao := d.kao }) :
    e = { f with kao := e.kao } := by
  rw [h1, h2]

theorem closeWithdraw_req {s : State} {n : Fin 8} (hr : (s.dev.kao.m[n]).req = true) :
    ∃ t, exec (.closeWithdraw n) s = .next t ∧ (t.dev.kao.m[n]).req = false ∧ (t.dev.kao.m[n]).ken = false ∧
      (t.dev.kao.m[n]).window = (if (s.dev.kao.m[n]).ken = true ∧ (s.dev.kao.m[n]).reqAt ≠ some s.dev.tim.elapsed
        then some s.dev.tim.elapsed else (s.dev.kao.m[n]).window) ∧
      t.dev = { s.dev with kao := t.dev.kao } ∧ ∀ k : Fin 8, k ≠ n → t.dev.kao.m[k] = s.dev.kao.m[k] := by
  have hm : (s.dev.kaoWithdraw n).machine n = _ :=
    (Dev.updKao_self _ n _ fun _ => rfl).trans
      (by rw [Dev.kenRelease_machine, if_pos rfl, Dev.updKao_self s.dev n _ fun _ => rfl])
  have hwin : ∀ (x : KaoSlice) (el : Nat), (x.released el).window = if x.ken = true ∧ x.reqAt ≠ some el then some el else x.window := by
    intro x el
    unfold KaoSlice.released
    by_cases hk : x.ken = true <;> by_cases hq : x.reqAt = some el <;> simp [hk, hq]
  have hreq : ∀ (x : KaoSlice) (el : Nat), (x.released el).req = x.req := by
    intro x el
    unfold KaoSlice.released
    split <;> rfl
  refine ⟨s.put (s.dev.kaoWithdraw n), next_put (if_pos hr), (Dev.machine_get KaoSlice.req (fun _ => rfl) hm).trans (hreq _ _),
    (Dev.machine_get KaoSlice.ken (fun _ => rfl) hm).trans (KaoSlice.released_ken _ _),
    (Dev.machine_get KaoSlice.window (fun _ => rfl) hm).trans (hwin _ _), ?_, fun k hk => ?_⟩
  · exact Dev.onlyKao_trans (Dev.rearmTrack_only _ n) (Dev.onlyKao_trans (Dev.kenRelease_only _ n) rfl)
  · exact (Dev.updKao_slice_other _ hk _).trans ((Dev.kenRelease_slice_other _ hk).trans (s.dev.updKao_slice_other hk _))

/-- The feedback changes neither KENn nor the machine's state (R285, R533). -/
theorem Dev.kaoFeedback_shows (d : Dev) (n : Fin 8) (closed : Bool) :
    ((d.kaoFeedback n closed).kao.m[n]).fb = closed ∧ ((d.kaoFeedback n closed).kao.m[n]).ken = (d.kao.m[n]).ken ∧
    ((d.kaoFeedback n closed).kao.m[n]).st = (d.kao.m[n]).st ∧
    d.kaoFeedback n closed = { d with kao := (d.kaoFeedback n closed).kao } := by
  unfold Dev.kaoFeedback
  extract_lets d1
  have h1 : d1.machine n = { d.machine n with fb := closed, xBypOk := (d.machine n).xBypOk && !closed } :=
    d.updKao_self n _ fun _ => rfl
  have hshows : ∀ e : Dev, ((e.machine n).fb = closed ∧ (e.machine n).ken = (d.machine n).ken ∧ (e.machine n).st = (d.machine n).st) →
      e = { d with kao := e.kao } → ((e.rearmTrack n).kao.m[n]).fb = closed ∧ ((e.rearmTrack n).kao.m[n]).ken = (d.kao.m[n]).ken ∧
      ((e.rearmTrack n).kao.m[n]).st = (d.kao.m[n]).st ∧ e.rearmTrack n = { d with kao := (e.rearmTrack n).kao } := by
    intro e ⟨hfb, hken, hst⟩ he
    have hm : (e.rearmTrack n).machine n = _ := Dev.updKao_self e n _ fun _ => rfl
    refine ⟨(Dev.machine_get KaoSlice.fb (fun _ => rfl) hm).trans hfb, (Dev.machine_get KaoSlice.ken (fun _ => rfl) hm).trans hken,
      (Dev.machine_get KaoSlice.st (fun _ => rfl) hm).trans hst, ?_⟩
    rw [he]
    rfl
  have hd1 : (d1.machine n).fb = closed ∧ (d1.machine n).ken = (d.machine n).ken ∧ (d1.machine n).st = (d.machine n).st := by
    rw [h1]
    exact ⟨rfl, rfl, rfl⟩
  split
  · exact hshows d1 hd1 rfl
  split
  · refine hshows _ ?_ rfl
    have h2 : (d1.sourceInactive n 5).machine n = _ :=
      (Dev.updKao_self _ n _ fun _ => rfl).trans (by rw [Dev.updKao_self d1 n _ fun _ => rfl])
    rw [h2]
    exact hd1
  · exact hshows d1 hd1 rfl

theorem feedbackChange_shows (s : State) (n : Fin 8) (closed : Bool) :
    ∃ t, exec (.feedbackChange n closed) s = .next t ∧ (t.dev.kao.m[n]).fb = closed ∧
      (t.dev.kao.m[n]).ken = (s.dev.kao.m[n]).ken ∧ (t.dev.kao.m[n]).st = (s.dev.kao.m[n]).st ∧
      t.dev = { (if closed = true ∧ (s.dev.kao.m[n]).fb = false then
        s.dev.updEvc n fun x => { x with ops := min (x.ops + 1) 0xFFFFFF } else s.dev) with kao := t.dev.kao } := by
  have hcount : (if closed ∧ !(s.dev.kao.m[n]).fb then s.dev.updEvc n fun x => { x with ops := min (x.ops + 1) 0xFFFFFF } else s.dev) =
      if closed = true ∧ (s.dev.kao.m[n]).fb = false then
        s.dev.updEvc n fun x => { x with ops := min (x.ops + 1) 0xFFFFFF } else s.dev := by
    refine if_congr ?_ rfl rfl
    simp
  have hkao : (if closed = true ∧ (s.dev.kao.m[n]).fb = false then
      s.dev.updEvc n fun x => { x with ops := min (x.ops + 1) 0xFFFFFF } else s.dev).kao = s.dev.kao := by
    split <;> rfl
  refine ⟨_, next_put (congrArg (fun d : Dev => d.kaoFeedback n closed) hcount), ?_⟩
  generalize (if closed = true ∧ (s.dev.kao.m[n]).fb = false then
    s.dev.updEvc n fun x => { x with ops := min (x.ops + 1) 0xFFFFFF } else s.dev) = d1 at hkao ⊢
  rw [← hkao]
  exact d1.kaoFeedback_shows n closed

theorem releaseWindowEnd_due {s : State} {n : Fin 8} {t0 : Nat} (hw : (s.dev.kao.m[n]).window = some t0)
    (ht : t0 + 100400000 ≤ s.dev.tim.elapsed) :
    ∃ t, exec (.releaseWindowEnd n) s = .next t ∧
      ((s.dev.kao.m[n]).fb = false → (t.dev.kao.m[n]).window = none ∧ (t.dev.kao.m[n]).st = (s.dev.kao.m[n]).st) ∧
      ((s.dev.kao.m[n]).fb = true → s.dev.present n.val = true → (t.dev.kao.m[n]).active.getLsbD 5 = true) := by
  have h1 : (s.dev.updKao n fun x => { x with window := none }).machine n = { s.dev.machine n with window := none } :=
    s.dev.updKao_self n _ fun _ => rfl
  have heq : s.dev.windowEnd n = ((if ((s.dev.updKao n fun x => { x with window := none }).kao.m[n]).fb then
      (s.dev.updKao n fun x => { x with window := none }).sourceActive n 5 0
      else s.dev.updKao n fun x => { x with window := none }).rearmTrack n) := by
    unfold Dev.windowEnd
    rw [hw]
    exact if_pos ((Dev.after_iff ..).2 ht)
  generalize hd1 : (s.dev.updKao n fun x => { x with window := none }) = d1 at h1 heq
  have hfb : (d1.kao.m[n]).fb = (s.dev.kao.m[n]).fb := (Dev.machine_get KaoSlice.fb (fun _ => rfl) h1).trans rfl
  have hpres : d1.present n.val = s.dev.present n.val := by
    rw [← hd1]
    rfl
  refine ⟨_, next_put heq, fun hf => ?_, fun hf hp => ?_⟩
  · rw [if_neg (by rw [hfb, hf]; decide)]
    have hm : (d1.rearmTrack n).machine n = _ := (Dev.updKao_self d1 n _ fun _ => rfl).trans (by rw [h1])
    exact ⟨(Dev.machine_get KaoSlice.window (fun _ => rfl) hm).trans rfl, (Dev.machine_get KaoSlice.st (fun _ => rfl) hm).trans rfl⟩
  · rw [if_pos (by rw [hfb, hf])]
    have hm : ((d1.sourceActive n 5 0).rearmTrack n).machine n = _ := Dev.updKao_self _ n _ fun _ => rfl
    refine (congrArg (fun x : BitVec 16 => x.getLsbD 5) (Dev.machine_get KaoSlice.active (fun _ => rfl) hm)).trans ?_
    exact Dev.sourceActive_isActive (hpres.trans hp) (by decide) 0

theorem rearm_due {s : State} {n : Fin 8} {t0 : Nat} (h0 : (s.dev.kao.m[n]).rearmSince = some t0)
    (hst : (s.dev.kao.m[n]).st = .tripped) (hok : s.dev.rearmOk n = true)
    (ht : t0 + 90000000 * s.dev.kaoByte n 0x2D ≤ s.dev.tim.elapsed) :
    ∃ t, exec (.rearm n) s = .next t ∧ (t.dev.kao.m[n]).st = .armed ∧ (t.dev.kao.m[n]).ken = (s.dev.kao.m[n]).ken ∧
      (t.dev.kao.m[n]).latched = (s.dev.kao.m[n]).active ∧ t.dev.flagBit 6 8 0x18 2 = true := by
  have heq : s.dev.rearm n = (s.dev.enterArmed n).sendKaoState n .tripped .armed 2 := by
    unfold Dev.rearm
    rw [h0]
    exact if_pos ⟨hst, hok, (Dev.after_iff ..).2 ht⟩
  have hm : (s.dev.enterArmed n).machine n = { s.dev.machine n with st := .armed, latched := (s.dev.machine n).active } :=
    (machine_of_kao (Dev.raise_kao ..) n).trans (s.dev.updKao_self n _ fun _ => rfl)
  have hm2 : ((s.dev.enterArmed n).sendKaoState n .tripped .armed 2).machine n = _ := (Dev.kaoSend_machine ..).trans hm
  refine ⟨_, next_put heq, (Dev.machine_get KaoSlice.st (fun _ => rfl) hm2).trans rfl, (Dev.machine_get KaoSlice.ken (fun _ => rfl) hm2).trans rfl,
    (Dev.machine_get KaoSlice.latched (fun _ => rfl) hm2).trans rfl, ?_⟩
  exact Dev.kaoSend_flag (by decide) (Dev.flagBit_raise_self _ 6 8 0x18 (2 ^ 2) 2 (by decide) (by decide))

/-- Settles O38. -/
theorem kaolinClose : Obligations.KaolinClose := by
  intro n s
  exact ⟨fun ha hr hp => ⟨closeRequest_closes ha hr hp, closeRequest_refused ha hr hp⟩, closeWithdraw_req, feedbackChange_shows s n,
    fun _ => releaseWindowEnd_due, fun _ => rearm_due⟩

end Sys2Proof.Machine
end

section
/-! SUPPORT. The heartbeat of Kaolin, its loss, the grace time and the restoration (O39): folds over the slices, each of
whose steps concerns one machine. -/

namespace Sys2Proof.Machine

/-! Folds over the slices. -/

/-- A fold of slice steps leaves the machines of the slices it does not name. -/
theorem foldl_machine_other (g : Dev → Fin 8 → Dev) (hother : ∀ a n k, k ≠ n → (g a n).machine k = a.machine k) (l : List (Fin 8)) :
    ∀ (d : Dev) (k : Fin 8), k ∉ l → (l.foldl g d).machine k = d.machine k := by
  induction l with
  | nil => exact fun _ _ _ => rfl
  | cons x xs ih =>
    intro d k hk
    rw [List.mem_cons, not_or] at hk
    exact (ih (g d x) k hk.2).trans (hother d x k hk.1)

/-- What each slice step gives its own machine holds of every slice named when the fold is done. -/
theorem foldl_machine_each (g : Dev → Fin 8 → Dev) (I : Dev → Prop) (P : Fin 8 → KaoSlice → Prop) (hI : ∀ a n, I a → I (g a n))
    (hown : ∀ a n, I a → P n ((g a n).machine n)) (hother : ∀ a n k, k ≠ n → (g a n).machine k = a.machine k) (l : List (Fin 8)) :
    ∀ d : Dev, I d → ∀ n ∈ l, P n ((l.foldl g d).machine n) := by
  induction l with
  | nil => exact fun _ _ _ hn => absurd hn List.not_mem_nil
  | cons x xs ih =>
    intro d hd n hn
    by_cases hx : n ∈ xs
    · exact ih (g d x) (hI d x hd) n hx
    · obtain rfl : n = x := (List.mem_cons.1 hn).resolve_right hx
      rw [List.foldl_cons, foldl_machine_other g hother xs _ n hx]
      exact hown d n hd

theorem foldl_shared (g : Dev → Fin 8 → Dev) (hg : ∀ a n, (g a n).kaoShared = a.kaoShared) (l : List (Fin 8)) (d : Dev) :
    (l.foldl g d).kaoShared = d.kaoShared :=
  foldl_rel l g (fun a d => a.kaoShared = d.kaoShared) d rfl fun a n ha => (hg a n).trans ha

theorem mem_slices (n : Fin 8) : n ∈ slices := by
  revert n
  decide

theorem fld_lt (w : Word) (hi lo : Nat) : fld w hi lo < 2 ^ (hi + 1 - lo) := Nat.mod_lt _ (Nat.two_pow_pos _)

/-! The messages of a change of the heartbeat (R330). -/

theorem Dev.hbMessages_machine (d : Dev) (cause : Nat) (k : Fin 8) : (d.hbMessages cause).machine k = d.machine k :=
  foldl_rel _ _ (fun a d => a.machine k = d.machine k) d rfl fun a _ ha => (Dev.kaoSend_machine a ..).trans ha

theorem Dev.hbMessages_shared (d : Dev) (cause : Nat) : (d.hbMessages cause).kaoShared = d.kaoShared :=
  foldl_shared _ (fun a _ => Dev.kaoSend_shared a ..) _ d

theorem present_of_img {d e : Dev} (h : e.img = d.img) (n : Nat) : e.present n = d.present n := by
  unfold Dev.present Dev.kind
  rw [h]

theorem mem_kaoSlices {d : Dev} {n : Fin 8} (h : d.present n.val = true) : n ∈ d.kaoSlices :=
  List.mem_filter.2 ⟨mem_slices n, h⟩

/-! ### Beats (R320, R322) -/

theorem Dev.sourceInactive_shared (d : Dev) (n : Fin 8) (s : Fin 16) : (d.sourceInactive n s).kaoShared = d.kaoShared := rfl

theorem Dev.xcheckFollow_shared (d : Dev) (n : Fin 8) : (d.xcheckFollow n).kaoShared = d.kaoShared := by
  unfold Dev.xcheckFollow
  extract_lets c
  split
  · exact d.sourceActive_shared n 12 c
  split <;> rfl

theorem Dev.diagBeat_shared (d : Dev) (diag : Nat) (n : Fin 8) : (d.diagBeat diag n).kaoShared = d.kaoShared :=
  (Dev.xcheckFollow_shared _ n).trans rfl

theorem Dev.acceptBeat_shared (d : Dev) (w : Word) : (d.acceptBeat w).kaoShared =
    { d.kaoShared with hbCount := BitVec.ofNat 16 (fld w 31 16), hbDiag := BitVec.ofNat 8 (fld w 15 8), hbLast := d.el, hbRun := min d.beatRun 3 } :=
  rfl

/-- A field that all slices share is that of the shared part. -/
theorem Dev.shared_get {α : Type} {d : Dev} {x : KaoState} (g : KaoState → α)
    (hg : ∀ y : KaoState, g { y with m := Vector.replicate 8 {}, cellA := {}, cellB := {} } = g y) (h : d.kaoShared = x) : g d.kao = g x :=
  (hg _).symm.trans (congrArg g h)

/-- What an accepted beat leaves in Kaolin whatever follows: its time, count and diagnosis. -/
def KaoState.Beat (x : KaoState) (el : Nat) (w : Word) : Prop :=
  x.hbLast = el ∧ x.hbCount = BitVec.ofNat 16 (fld w 31 16) ∧ x.hbDiag = BitVec.ofNat 8 (fld w 15 8)

theorem beat_of_shared {d e : Dev} {el : Nat} {w : Word} (h : e.kaoShared = d.kaoShared) (hb : d.kao.Beat el w) : e.kao.Beat el w := by
  obtain ⟨h1, h2, h3⟩ := hb
  exact ⟨(congrArg KaoState.hbLast h :).trans h1, (congrArg KaoState.hbCount h :).trans h2, (congrArg KaoState.hbDiag h :).trans h3⟩

theorem Dev.acceptBeat_beat (d : Dev) (w : Word) : (d.acceptBeat w).kao.Beat d.el w := ⟨rfl, rfl, rfl⟩

/-- The restoration of the heartbeat (R322): it is there, no grace time runs, and HEARTBEAT is active on no slice. -/
theorem Dev.hbRestore_restores (d : Dev) : (d.hbRestore).kao.hbLost = false ∧ (d.hbRestore).kao.grace = none ∧
    ∀ n : Fin 8, ((d.hbRestore).kao.m[n]).active.getLsbD 11 = false := by
  unfold Dev.hbRestore
  extract_lets d1 d2
  have h2 : d2.kaoShared = d1.kaoShared := foldl_shared _ (fun a n => a.sourceInactive_shared n 11) _ d1
  have h3 : ((d2.raiseKao 4).hbMessages 6).kaoShared = d1.kaoShared :=
    (Dev.hbMessages_shared ..).trans ((kaoShared_of_kao (Dev.raise_kao ..)).trans h2)
  have hm : ∀ n : Fin 8, (d2.machine n).active.getLsbD 11 = false := by
    intro n
    exact foldl_machine_each _ (fun _ => True) (fun _ x => x.active.getLsbD 11 = false) (fun _ _ _ => trivial)
      (fun a m _ => a.sourceInactive_active m 11) (fun a m k hk => a.sourceInactive_other hk 11) slices d1 trivial n (mem_slices n)
  refine ⟨(Dev.shared_get KaoState.hbLost (fun _ => rfl) h3 :), (Dev.shared_get KaoState.grace (fun _ => rfl) h3 :), fun n => ?_⟩
  have hn : ((d2.raiseKao 4).hbMessages 6).machine n = d2.machine n :=
    (Dev.hbMessages_machine ..).trans (machine_of_kao (Dev.raise_kao ..) n)
  exact (congrArg (fun x : KaoSlice => x.active.getLsbD 11) hn :).trans (hm n)

theorem Dev.hbRestore_beat {d : Dev} {el : Nat} {w : Word} (hb : d.kao.Beat el w) : (d.hbRestore).kao.Beat el w := by
  unfold Dev.hbRestore
  extract_lets d1 d2
  have h2 : d2.kaoShared = d1.kaoShared := foldl_shared _ (fun a n => a.sourceInactive_shared n 11) _ d1
  have h1 : d1.kao.Beat el w := hb
  exact beat_of_shared ((Dev.hbMessages_shared ..).trans ((kaoShared_of_kao (Dev.raise_kao ..)).trans h2)) h1

theorem Dev.heartbeatPoll_accepts {d : Dev} (hc : hbCheckOk (d.reg 6 9 0) = true) (hn : fld (d.reg 6 9 0) 31 16 ≠ d.kao.hbCount.toNat) :
    d.heartbeatPoll = if d.kao.hbLost then
        (if 3 ≤ d.beatRun then (d.graceFirst.acceptBeat (d.reg 6 9 0)).hbRestore else d.acceptBeat (d.reg 6 9 0))
      else slices.foldl (fun (acc : Dev) n => acc.diagBeat (fld (d.reg 6 9 0) 15 8) n) (d.acceptBeat (d.reg 6 9 0)) :=
  if_pos ⟨hc, hn⟩

theorem heartbeatPoll_beat {s : State} (hc : hbCheckOk (s.dev.reg 6 9 0) = true)
    (hn : fld (s.dev.reg 6 9 0) 31 16 ≠ s.dev.kao.hbCount.toNat) :
    ∃ t, exec .heartbeatPoll s = .next t ∧ t.dev.kao.hbLast = s.dev.tim.elapsed ∧
      t.dev.kao.hbCount.toNat = fld (s.dev.reg 6 9 0) 31 16 ∧ t.dev.kao.hbDiag.toNat = fld (s.dev.reg 6 9 0) 15 8 ∧
      (s.dev.kao.hbLost = false → t.dev.kao.hbLost = false) ∧
      (s.dev.kao.hbLost = true → s.dev.beatRun < 3 → t.dev.kao.hbLost = true) ∧
      (s.dev.kao.hbLost = true → 3 ≤ s.dev.beatRun → t.dev.kao.hbLost = false ∧ t.dev.kao.grace = none ∧
        ∀ n : Fin 8, (t.dev.kao.m[n]).active.getLsbD 11 = false) := by
  have heq := Dev.heartbeatPoll_accepts hc hn
  generalize hw : s.dev.reg 6 9 0 = w at heq ⊢
  have hbeat : s.dev.heartbeatPoll.kao.Beat s.dev.el w ∧ (s.dev.kao.hbLost = false → s.dev.heartbeatPoll.kao.hbLost = false) ∧
      (s.dev.kao.hbLost = true → s.dev.beatRun < 3 → s.dev.heartbeatPoll.kao.hbLost = true) ∧
      (s.dev.kao.hbLost = true → 3 ≤ s.dev.beatRun → s.dev.heartbeatPoll.kao.hbLost = false ∧ s.dev.heartbeatPoll.kao.grace = none ∧
        ∀ n : Fin 8, (s.dev.heartbeatPoll.kao.m[n]).active.getLsbD 11 = false) := by
    rw [heq]
    cases hl : s.dev.kao.hbLost with
    | false =>
      have hfold : (slices.foldl (fun (acc : Dev) n => acc.diagBeat (fld w 15 8) n) (s.dev.acceptBeat w)).kaoShared =
          (s.dev.acceptBeat w).kaoShared := foldl_shared _ (fun a n => a.diagBeat_shared _ n) _ _
      have hlost := (Dev.shared_get KaoState.hbLost (fun _ => rfl) hfold).trans hl
      rw [if_neg Bool.false_ne_true]
      exact ⟨beat_of_shared hfold (s.dev.acceptBeat_beat w), fun _ => hlost, nofun, nofun⟩
    | true =>
      rw [if_pos rfl]
      by_cases h3 : 3 ≤ s.dev.beatRun
      · have hel : (s.dev.graceFirst).el = s.dev.el :=
          congrArg TimState.elapsed (Dev.graceFirst_part (pt := .tim) (by decide) (by decide) (by decide) s.dev)
        rw [if_pos h3]
        refine ⟨Dev.hbRestore_beat ?_, nofun, fun _ h => absurd h3 (Nat.not_le.2 h), fun _ _ => Dev.hbRestore_restores _⟩
        rw [← hel]
        exact Dev.acceptBeat_beat _ w
      · rw [if_neg h3]
        exact ⟨s.dev.acceptBeat_beat w, nofun, fun _ _ => hl, fun _ h => absurd h h3⟩
  obtain ⟨⟨h1, h2, h3⟩, hrest⟩ := hbeat
  refine ⟨s.put s.dev.heartbeatPoll, next_put rfl, h1, ?_, ?_, hrest⟩
  · exact (congrArg BitVec.toNat h2).trans ((BitVec.toNat_ofNat ..).trans (Nat.mod_eq_of_lt (fld_lt w 31 16)))
  · exact (congrArg BitVec.toNat h3).trans ((BitVec.toNat_ofNat ..).trans (Nat.mod_eq_of_lt (fld_lt w 15 8)))

/-! ### Loss and grace time (R321) -/

/-- A fold of slice steps that each make HEARTBEAT active makes it active on every present slice. -/
theorem foldl_heartbeat_active (g : Dev → Fin 8 → Dev) (hg : ∀ a n, (g a n).machine n = (a.sourceActive n 11 0).machine n)
    (hother : ∀ a n k, k ≠ n → (g a n).machine k = a.machine k) (himg : ∀ a n, (g a n).img = a.img) {d : Dev} {n : Fin 8}
    (hp : d.present n.val = true) : ((d.kaoSlices.foldl g d).kao.m[n]).active.getLsbD 11 = true := by
  refine foldl_machine_each g (fun a => a.img = d.img) (fun m x => d.present m.val = true → x.active.getLsbD 11 = true)
    (fun a m ha => (himg a m).trans ha) (fun a m ha hm => ?_) hother d.kaoSlices d rfl n (mem_kaoSlices hp) hp
  rw [hg]
  exact Dev.sourceActive_isActive (s := 11) ((present_of_img ha m.val).trans hm) (by decide) 0

theorem Dev.sourceActive_img (d : Dev) (n : Fin 8) (s : Fin 16) (detail : Nat) : (d.sourceActive n s detail).img = d.img :=
  Dev.sourceActive_part (pt := .img) (by decide) (by decide) (by decide) ..

/-- The device right after the heartbeat is lost, with its messages sent. -/
def Dev.beatGone (d : Dev) : Dev := (d.loseBeat.raiseKao 3).hbMessages 5

/-- A device with the diagnosis of every slice's beat cleared. -/
theorem foldl_xDiag (d : Dev) (n : Fin 8) :
    (slices.foldl (fun (acc : Dev) n => acc.updKao n fun x => { x with xDiag := 0 }) d).machine n = { d.machine n with xDiag := 0 } := by
  have hstep : ∀ (a : Dev) (m : Fin 8), (a.updKao m fun x => { x with xDiag := 0 }).machine m = { a.machine m with xDiag := 0 } :=
    fun a m => Dev.updKao_self a m _ fun _ => rfl
  refine foldl_machine_each _ (fun a => ∀ k, { a.machine k with xDiag := 0 } = { d.machine k with xDiag := 0 })
    (fun k x => x = { d.machine k with xDiag := 0 }) (fun a m ha k => ?_) (fun a m ha => (hstep a m).trans (ha m))
    (fun a m k hk => Dev.updKao_other a hk _) slices d (fun k => rfl) n (mem_slices n)
  by_cases hk : k = m
  · rw [hk, hstep]
    exact ha m
  · rw [Dev.updKao_other a hk]
    exact ha k

theorem Dev.loseBeat_machine (d : Dev) (n : Fin 8) : (d.loseBeat).machine n = { d.machine n with xDiag := 0 } := foldl_xDiag _ n

theorem Dev.beatGone_machine (d : Dev) (n : Fin 8) : d.beatGone.machine n = { d.machine n with xDiag := 0 } :=
  (Dev.hbMessages_machine ..).trans ((machine_of_kao (Dev.raise_kao ..) n).trans (d.loseBeat_machine n))

theorem Dev.beatGone_shared (d : Dev) : d.beatGone.kaoShared =
    { d.kaoShared with hbLost := true, hbRun := 0, hbLosses := min (d.kao.hbLosses + 1) 255
                       grace := if d.kaoCommon 0 = 1 then some d.el else none } := by
  refine (Dev.hbMessages_shared ..).trans ((kaoShared_of_kao (Dev.raise_kao ..)).trans ?_)
  exact (foldl_shared _ (fun a _ => Dev.updKao_shared a ..) slices _).trans rfl

theorem Dev.beatGone_img (d : Dev) : d.beatGone.img = d.img :=
  (Dev.hbMessages_part (pt := .img) (by decide) (by decide) ..).trans
    ((Dev.raiseKao_part (pt := .img) ..).trans (foldl_part (pt := .img) _ _ _ fun a m => Dev.updKao_part (by decide) a m _))

theorem heartbeatLost_due {s : State} (hl : s.dev.kao.hbLost = false) (ht : s.dev.kao.hbLast + 18000000 ≤ s.dev.tim.elapsed) :
    ∃ t, exec .heartbeatLost s = .next t ∧ t.dev.kao.hbLost = true ∧
      t.dev.kao.hbLosses = min (s.dev.kao.hbLosses + 1) 255 ∧
      (s.dev.kaoCommon 0 = 1 → t.dev.kao.grace = some s.dev.tim.elapsed ∧
        ∀ n : Fin 8, (t.dev.kao.m[n]).st = (s.dev.kao.m[n]).st ∧ (t.dev.kao.m[n]).ken = (s.dev.kao.m[n]).ken) ∧
      (s.dev.kaoCommon 0 ≠ 1 → ∀ n : Fin 8, s.dev.present n.val = true → (t.dev.kao.m[n]).active.getLsbD 11 = true) := by
  have heq : s.dev.heartbeatLost = if s.dev.kaoCommon 0 = 1 then s.dev.beatGone
      else s.dev.beatGone.kaoSlices.foldl (fun (acc : Dev) n => acc.sourceActive n 11 0) s.dev.beatGone := by
    refine if_pos ?_
    rw [hl, (Dev.after_iff ..).2 (show s.dev.kao.hbLast + ms 18 ≤ _ from ht)]
    rfl
  by_cases hg : s.dev.kaoCommon 0 = 1
  · rw [if_pos hg] at heq
    have hsh := s.dev.beatGone_shared
    refine ⟨_, next_put heq, (Dev.shared_get KaoState.hbLost (fun _ => rfl) hsh).trans rfl,
      (Dev.shared_get KaoState.hbLosses (fun _ => rfl) hsh).trans rfl,
      fun _ => ⟨(Dev.shared_get KaoState.grace (fun _ => rfl) hsh).trans (if_pos hg), fun n => ⟨?_, ?_⟩⟩, fun h => absurd hg h⟩
    · exact (Dev.machine_get KaoSlice.st (fun _ => rfl) (s.dev.beatGone_machine n)).trans rfl
    · exact (Dev.machine_get KaoSlice.ken (fun _ => rfl) (s.dev.beatGone_machine n)).trans rfl
  · rw [if_neg hg] at heq
    have hsh := (foldl_shared _ (fun a m => a.sourceActive_shared m 11 0) s.dev.beatGone.kaoSlices s.dev.beatGone).trans s.dev.beatGone_shared
    refine ⟨_, next_put heq, (Dev.shared_get KaoState.hbLost (fun _ => rfl) hsh).trans rfl,
      (Dev.shared_get KaoState.hbLosses (fun _ => rfl) hsh).trans rfl, fun h => absurd h hg, fun _ n hp => ?_⟩
    exact foldl_heartbeat_active _ (fun _ _ => rfl) (fun a m k hk => a.sourceActive_other hk 11 0) (fun a m => a.sourceActive_img m 11 0)
      ((present_of_img s.dev.beatGone_img n.val).trans hp)

theorem Dev.graceSlice_shared (d : Dev) (n : Fin 8) : (d.graceSlice n).kaoShared = d.kaoShared :=
  (Dev.kaoSend_shared ..).trans (d.sourceActive_shared n 11 0)

theorem Dev.graceSlice_machine (d : Dev) (n k : Fin 8) : (d.graceSlice n).machine k = (d.sourceActive n 11 0).machine k :=
  Dev.kaoSend_machine ..

theorem ms_900 : ms 900 = 900000000 := rfl

theorem graceEnd_due {s : State} {t0 : Nat} (hg : s.dev.kao.grace = some t0) (hl : s.dev.kao.hbLost = true)
    (ht : t0 + (s.dev.kaoCommon 2 + 256 * s.dev.kaoCommon 3) * 900000000 ≤ s.dev.tim.elapsed) :
    ∃ t, exec .graceEnd s = .next t ∧ t.dev.kao.grace = none ∧
      ∀ n : Fin 8, s.dev.present n.val = true → (t.dev.kao.m[n]).active.getLsbD 11 = true := by
  have heq : s.dev.graceEnd = (s.dev.modKao fun k => { k with grace := none }).kaoSlices.foldl (fun (acc : Dev) n => acc.graceSlice n)
      (s.dev.modKao fun k => { k with grace := none }) := by
    unfold Dev.graceEnd
    rw [hg]
    refine if_pos ?_
    rw [hl, (Dev.after_iff _ t0 _).2 (show t0 + (s.dev.kaoCommon 2 + 256 * s.dev.kaoCommon 3) * ms 900 ≤ _ by rw [ms_900]; exact ht)]
    rfl
  have hp1 : ∀ n, (s.dev.modKao fun k => { k with grace := none }).present n = s.dev.present n := fun _ => rfl
  have hg1 : (s.dev.modKao fun k => { k with grace := none }).kao.grace = none := rfl
  generalize (s.dev.modKao fun k => { k with grace := none }) = d1 at heq hp1 hg1
  have hsh := foldl_shared _ (fun a m => a.graceSlice_shared m) d1.kaoSlices d1
  refine ⟨_, next_put heq, (congrArg KaoState.grace hsh :).trans hg1, fun n hp => ?_⟩
  exact foldl_heartbeat_active _ (fun a m => a.graceSlice_machine m m)
    (fun a m k hk => (a.graceSlice_machine m k).trans (a.sourceActive_other hk 11 0))
    (fun a m => Dev.graceSlice_part (pt := .img) (by decide) (by decide) (by decide) a m) ((hp1 n.val).trans hp)

/-- Settles O39. -/
theorem kaolinHeartbeat : Obligations.KaolinHeartbeat := by
  intro s
  refine ⟨fun w hc => ?_, fun ag w hag hc => ?_, heartbeatPoll_beat, heartbeatLost_due, fun t0 => graceEnd_due⟩
  · exact next_put (writeAccess_run hc (if_pos rfl) nofun)
  · obtain ⟨h1, h2, h3⟩ := hc
    have hw : s.dev.writeHb ag w = (.perm, s.dev) := if_neg hag
    refine next_put ?_
    unfold writeAccess
    rw [if_neg (by simp [h1]), if_neg (by simp [h2]), h3]
    dsimp only
    rw [hw]

end Sys2Proof.Machine
end

section
/-! SUPPORT. The commands of Kaolin and the agents that may issue them (O41). -/

namespace Sys2Proof.Machine

/-- A fold of slice steps works on each slice it names once, on the machine that slice had. -/
theorem foldl_machine_once (g : Dev → Fin 8 → Dev) (I : Dev → Prop) (hI : ∀ a n, I a → I (g a n))
    (hother : ∀ a n k, k ≠ n → (g a n).machine k = a.machine k) (l : List (Fin 8)) (hnd : l.Nodup) :
    ∀ d : Dev, I d → ∀ n ∈ l, ∃ a, I a ∧ a.machine n = d.machine n ∧ (l.foldl g d).machine n = (g a n).machine n := by
  induction l with
  | nil => exact fun _ _ _ hn => absurd hn List.not_mem_nil
  | cons x xs ih =>
    intro d hd n hn
    obtain ⟨hx, hxs⟩ := List.nodup_cons.1 hnd
    by_cases hnx : n = x
    · rw [hnx]
      exact ⟨d, hd, rfl, foldl_machine_other g hother xs (g d x) x hx⟩
    · obtain ⟨a, ha, hm, hfold⟩ := ih hxs (g d x) (hI d x hd) n ((List.mem_cons.1 hn).resolve_left hnx)
      exact ⟨a, ha, hm.trans (hother d x n hnx), hfold⟩

theorem kaoSlices_nodup (d : Dev) : d.kaoSlices.Nodup := List.Nodup.filter _ (by decide)

/-! ### CONFIRM (R313) -/

theorem orMask_of_bit {m : Byte} {n : Fin 8} (h : m.getLsbD n.val = true) : orMask m (2 ^ n.val) = m := by
  unfold orMask
  refine BitVec.eq_of_getLsbD_eq fun i hi => ?_
  rw [BitVec.getLsbD_or, BitVec.getLsbD_ofNat, Nat.testBit_two_pow]
  by_cases hin : n.val = i
  · rw [← hin, h]
    rfl
  · simp [hin]

/-- The lock of a slice and the confirmed check, which arming the slices keeps. -/
def Dev.confirmedBy (d e : Dev) : Prop := d.cell.lockout = e.cell.lockout ∧ d.cell.check = e.cell.check ∧ d.kaoShared = e.kaoShared

theorem Dev.enterArmed_machine (d : Dev) (n k : Fin 8) : (d.enterArmed n).machine k =
    if k = n then { d.machine n with st := .armed, latched := (d.machine n).active } else d.machine k :=
  (machine_of_kao (Dev.raise_kao ..) k).trans (d.updKao_machine n k _ fun _ => rfl)

theorem Dev.enterArmed_cell (d : Dev) (n : Fin 8) : (d.enterArmed n).cell = d.cell := (cell_of_kao (Dev.raise_kao ..)).trans rfl

theorem Dev.enterArmed_shared (d : Dev) (n : Fin 8) : (d.enterArmed n).kaoShared = d.kaoShared := (kaoShared_of_kao (Dev.raise_kao ..)).trans rfl

theorem Dev.confirmSlice_confirmedBy (d : Dev) (n : Fin 8) : (d.confirmSlice n).confirmedBy d := by
  unfold Dev.confirmSlice
  split
  · split
    · next hlock =>
      have hcell : ((d.enterLockout n false).sendKaoState n .unconfirmed .lockout 1).cell = _ :=
        (Dev.kaoSend_cell ..).trans (d.enterLockout_cell n false)
      refine ⟨?_, (congrArg KaoCell.check hcell).trans rfl, (Dev.kaoSend_shared ..).trans (d.enterLockout_shared n false)⟩
      exact (congrArg KaoCell.lockout hcell).trans (orMask_of_bit hlock)
    · have hcell : ((d.enterArmed n).sendKaoState n .unconfirmed .armed 1).cell = d.cell :=
        (Dev.kaoSend_cell ..).trans (d.enterArmed_cell n)
      exact ⟨congrArg KaoCell.lockout hcell, congrArg KaoCell.check hcell, (Dev.kaoSend_shared ..).trans (d.enterArmed_shared n)⟩
  · exact ⟨rfl, rfl, rfl⟩

theorem Dev.confirmSlice_other (d : Dev) {n k : Fin 8} (h : k ≠ n) : (d.confirmSlice n).machine k = d.machine k := by
  unfold Dev.confirmSlice
  split
  · split
    · exact (Dev.kaoSend_machine ..).trans ((d.enterLockout_machine n k false).trans (if_neg h))
    · exact (Dev.kaoSend_machine ..).trans ((d.enterArmed_machine n k).trans (if_neg h))
  · rfl

/-- A confirmation takes an UNCONFIRMED slice to ARMED, or to LOCKOUT where it is locked out (R313, R314). -/
theorem Dev.confirmSlice_self {d : Dev} {n : Fin 8} (h : (d.machine n).st = .unconfirmed) :
    ((d.confirmSlice n).machine n).st = (if d.cell.lockout.getLsbD n.val = true then .lockout else .armed) ∧
    ((d.confirmSlice n).machine n).ken = (d.machine n).ken := by
  unfold Dev.confirmSlice
  rw [if_pos (show (d.kao.m[n]).st = .unconfirmed from h)]
  by_cases hlock : d.cell.lockout.getLsbD n.val = true
  · rw [if_pos (show nbit d.cell.lockout.toNat n.val = true from hlock), if_pos hlock]
    have hm : ((d.enterLockout n false).sendKaoState n .unconfirmed .lockout 1).machine n = _ :=
      (Dev.kaoSend_machine ..).trans ((d.enterLockout_machine n n false).trans (if_pos rfl))
    exact ⟨(congrArg KaoSlice.st hm).trans rfl, (congrArg KaoSlice.ken hm).trans rfl⟩
  · rw [if_neg (show ¬nbit d.cell.lockout.toNat n.val = true from hlock), if_neg hlock]
    have hm : ((d.enterArmed n).sendKaoState n .unconfirmed .armed 1).machine n = _ :=
      (Dev.kaoSend_machine ..).trans ((d.enterArmed_machine n n).trans (if_pos rfl))
    exact ⟨(congrArg KaoSlice.st hm).trans rfl, (congrArg KaoSlice.ken hm).trans rfl⟩

theorem Dev.confirmedBy.trans {d e f : Dev} (h1 : d.confirmedBy e) (h2 : e.confirmedBy f) : d.confirmedBy f :=
  ⟨h1.1.trans h2.1, h1.2.1.trans h2.2.1, h1.2.2.trans h2.2.2⟩

/-- The device with the check of the received section committed to the confirmation cell. -/
def Dev.cellConfirmed (d : Dev) : Dev :=
  d.writeCell fun c => { c with check := d.kao.check, confirmed := BitVec.ofNat 8 d.presentMask }

theorem Dev.cellConfirmed_cell (d : Dev) : d.cellConfirmed.cell =
    { d.cell with check := d.kao.check, confirmed := BitVec.ofNat 8 d.presentMask, seq := d.cell.seq + 1, valid := true } :=
  (d.writeCell_cell _).trans rfl

/-- The device with the received section confirmed and its slices armed. -/
def Dev.confirmed (d : Dev) : Dev :=
  d.cellConfirmed.oneEvent fun d =>
    (d.kaoSlices.foldl (fun (acc : Dev) n => acc.confirmSlice n) d).raiseKao 7

theorem confirmCmd_ok {ag : Agent} {d : Dev} (hr : d.kao.received = true) (hb : d.kao.bad = false) (hl : d.img.load ≠ .reloading)
    (hi : d.kao.internal = 0) (hu : ∃ n : Fin 8, d.present n.val = true ∧ (d.kao.m[n]).st = .unconfirmed)
    (hc : d.view ag (lattice 6 8 0xC) = d.kao.check) : confirmCmd ag d = (.ok, d.confirmed) := by
  have hany : (d.kaoSlices.any fun n => (d.kao.m[n]).st = .unconfirmed) = true := by
    obtain ⟨n, hp, hst⟩ := hu
    exact List.any_eq_true.2 ⟨n, mem_kaoSlices hp, decide_eq_true hst⟩
  unfold confirmCmd
  rw [if_neg (by rw [hr, hb, hany]; simp [hl, hi]), if_neg (fun h => h hc)]
  rfl

theorem Dev.confirmed_kao (d : Dev) : d.confirmed.kao =
    (d.cellConfirmed.kaoSlices.foldl
      (fun (acc : Dev) n => acc.confirmSlice n)
      d.cellConfirmed).kao :=
  (Dev_oneEvent_kao ..).trans (Dev.raise_kao ..)

theorem Dev.confirmed_slice {d : Dev} {n : Fin 8} (hp : d.present n.val = true) (hst : (d.kao.m[n]).st = .unconfirmed) :
    (d.confirmed.kao.m[n]).st = (if d.cell.lockout.getLsbD n.val = true then .lockout else .armed) ∧
    (d.confirmed.kao.m[n]).ken = (d.kao.m[n]).ken := by
  have hkao := d.confirmed_kao
  have hcell := d.cellConfirmed_cell
  have hm : d.cellConfirmed.machine n = d.machine n := d.writeCell_machine _ n
  have hp1 : d.cellConfirmed.present n.val = true := hp
  generalize d.cellConfirmed = d1 at hkao hcell hm hp1
  obtain ⟨a, ha, ham, hfold⟩ := foldl_machine_once (fun (acc : Dev) n => acc.confirmSlice n) (fun a => a.confirmedBy d1)
    (fun a m ha => (a.confirmSlice_confirmedBy m).trans ha) (fun a m k hk => a.confirmSlice_other hk) d1.kaoSlices (kaoSlices_nodup d1)
    d1 ⟨rfl, rfl, rfl⟩ n (mem_kaoSlices hp1)
  have hlock : a.cell.lockout = d.cell.lockout := ha.1.trans ((congrArg KaoCell.lockout hcell).trans rfl)
  have hma : a.machine n = d.machine n := ham.trans hm
  have hslice : d.confirmed.machine n = (a.confirmSlice n).machine n := (machine_of_kao hkao n).trans hfold
  obtain ⟨h1, h2⟩ := Dev.confirmSlice_self (d := a) (n := n) ((congrArg KaoSlice.st hma).trans hst)
  rw [hlock] at h1
  exact ⟨(Dev.machine_get KaoSlice.st (fun _ => rfl) hslice).trans h1,
    (Dev.machine_get KaoSlice.ken (fun _ => rfl) hslice).trans (h2.trans ((congrArg KaoSlice.ken hma :)))⟩

theorem Dev.confirmed_confirmed {d : Dev} (hr : d.kao.received = true) (hb : d.kao.bad = false) : d.confirmed.kaoConfirmed = true := by
  have hkao := d.confirmed_kao
  have hcell := d.cellConfirmed_cell
  have hsh : d.cellConfirmed.kaoShared = d.kaoShared := d.writeCell_shared _
  generalize d.cellConfirmed = d1 at hkao hcell hsh
  have hby : (d1.kaoSlices.foldl (fun (acc : Dev) n => acc.confirmSlice n) d1).confirmedBy d1 :=
    foldl_rel _ _ Dev.confirmedBy d1 ⟨rfl, rfl, rfl⟩ fun a m ha => (a.confirmSlice_confirmedBy m).trans ha
  obtain ⟨-, hcheck, hshared⟩ := hby
  have hs : d.confirmed.kaoShared = d.kaoShared := (kaoShared_of_kao hkao).trans (hshared.trans hsh)
  have hc : d.confirmed.cell.check = d.kao.check :=
    (congrArg KaoCell.check (cell_of_kao hkao)).trans (hcheck.trans ((congrArg KaoCell.check hcell).trans rfl))
  have hrec : d.confirmed.kao.received = true := (Dev.shared_get KaoState.received (fun _ => rfl) hs).trans hr
  have hbad : d.confirmed.kao.bad = false := (Dev.shared_get KaoState.bad (fun _ => rfl) hs).trans hb
  have hchk : d.confirmed.kao.check = d.kao.check := (Dev.shared_get KaoState.check (fun _ => rfl) hs).trans rfl
  unfold Dev.kaoConfirmed
  rw [hc, hrec, hbad, hchk]
  simp

theorem Dev.confirmed_flag (d : Dev) : d.confirmed.flagBit 6 8 0x18 7 = true :=
  (Dev.flagBit_oneEvent ..).trans (Dev.flagBit_raise_self _ 6 8 0x18 (2 ^ 7) 7 (by decide) (by decide))

theorem confirm_ok {ag : Agent} {arg : BitVec 24} {s : State} (hag : ag = .host ∨ ag = .service) (harg : arg = 0)
    (hready : s.dev.ready ag 6 0xFF) (hr : s.dev.kao.received = true) (hb : s.dev.kao.bad = false) (hl : s.dev.img.load ≠ .reloading)
    (hi : s.dev.kao.internal = 0) (hu : ∃ n : Fin 8, s.dev.present n.val = true ∧ (s.dev.kao.m[n]).st = .unconfirmed)
    (hc : s.dev.view ag (lattice 6 8 0xC) = s.dev.kao.check) :
    ∃ t, exec (.confirm ag arg) s = .next t ∧ t.dev.reply.status = 0 ∧ t.dev.kaoConfirmed = true ∧
      t.dev.flagBit 6 8 0x18 7 = true ∧
      ∀ n : Fin 8, s.dev.present n.val = true → (s.dev.kao.m[n]).st = .unconfirmed →
        (t.dev.kao.m[n]).st = (if s.dev.cell.lockout.getLsbD n.val = true then .lockout else .armed) ∧
        (t.dev.kao.m[n]).ken = (s.dev.kao.m[n]).ken := by
  have hcmd : noArg arg (confirmCmd ag) s.dev = (.ok, s.dev.confirmed) := (if_pos harg).trans (confirmCmd_ok hr hb hl hi hu hc)
  have hrun : kaoRestricted ag 0x10 arg 0xFF (noArg arg (confirmCmd ag)) s.dev = s.dev.confirmed.completed ag 6 0x10 :=
    (if_pos hag).trans (issueCommand_ok hready hcmd)
  have hconf := Dev.confirmed_confirmed (d := s.dev) hr hb
  have hflag := s.dev.confirmed_flag
  have hslice : ∀ n : Fin 8, s.dev.present n.val = true → (s.dev.kao.m[n]).st = .unconfirmed → _ := fun n hp hst =>
    Dev.confirmed_slice (d := s.dev) (n := n) hp hst
  generalize s.dev.confirmed = D at hrun hconf hflag hslice
  have hkao : (D.completed ag 6 0x10).kao = D.kao := Dev.completed_kao ..
  refine ⟨s.put (D.completed ag 6 0x10), next_put hrun, rfl, hconf, (Dev.answered_flagBit D ..).trans hflag, fun n hp hst => ?_⟩
  exact hslice n hp hst

/-! ### LOCK_RELEASE (R313) -/

theorem clearSlice_bit (m : Byte) (n : Fin 8) : (clearSlice m n.val).getLsbD n.val = false := by
  unfold clearSlice
  have hn := n.isLt
  rw [BitVec.getLsbD_and, BitVec.getLsbD_not, BitVec.getLsbD_ofNat, Nat.testBit_two_pow_self]
  simp [hn]

theorem lockRelease_ok {ag : Agent} {arg : BitVec 24} {s : State} {n : Fin 8} (hag : ag = .host ∨ ag = .service)
    (harg : argUnit arg = n.val) (hready : s.dev.ready ag 6 n.val) (hp : s.dev.present n.val = true)
    (hst : (s.dev.kao.m[n]).st = .lockout) (hok : s.dev.rearmOk n = true) :
    ∃ t, exec (.lockRelease ag arg) s = .next t ∧ t.dev.reply.status = 0 ∧ (t.dev.kao.m[n]).st = .armed ∧
      t.dev.cell.lockout.getLsbD n.val = false ∧ t.dev.cell.upstream.getLsbD n.val = false := by
  obtain ⟨n, hn⟩ := n
  obtain rfl : argUnit arg = n := harg
  have hcmd : kaoCommand arg lockReleaseCmd s.dev = (.ok,
      ((s.dev.writeCell fun c => { c with lockout := clearSlice c.lockout (argUnit arg), upstream := clearSlice c.upstream (argUnit arg) }).enterArmed
        ⟨argUnit arg, hn⟩).sendKaoState ⟨argUnit arg, hn⟩ .lockout .armed 3) :=
    (dif_pos hn).trans ((if_pos hp).trans (if_pos ⟨hst, hok⟩))
  have hcell := s.dev.writeCell_cell fun c =>
    { c with lockout := clearSlice c.lockout (argUnit arg), upstream := clearSlice c.upstream (argUnit arg) }
  generalize (s.dev.writeCell fun c =>
    { c with lockout := clearSlice c.lockout (argUnit arg), upstream := clearSlice c.upstream (argUnit arg) }) = d1 at hcmd hcell
  have hm : ((d1.enterArmed ⟨argUnit arg, hn⟩).sendKaoState ⟨argUnit arg, hn⟩ .lockout .armed 3).machine ⟨argUnit arg, hn⟩ = _ :=
    (Dev.kaoSend_machine ..).trans ((d1.enterArmed_machine _ _).trans (if_pos rfl))
  have hc2 : ((d1.enterArmed ⟨argUnit arg, hn⟩).sendKaoState ⟨argUnit arg, hn⟩ .lockout .armed 3).cell = _ :=
    (Dev.kaoSend_cell ..).trans ((d1.enterArmed_cell _).trans hcell)
  generalize ((d1.enterArmed ⟨argUnit arg, hn⟩).sendKaoState ⟨argUnit arg, hn⟩ .lockout .armed 3) = D at hcmd hm hc2
  have hrun : kaoRestricted ag 0x11 arg (argUnit arg) (kaoCommand arg lockReleaseCmd) s.dev = D.completed ag 6 0x11 :=
    (if_pos hag).trans (issueCommand_ok hready hcmd)
  refine ⟨s.put (D.completed ag 6 0x11), next_put hrun, rfl, (Dev.machine_get KaoSlice.st (fun _ => rfl) hm).trans rfl, ?_, ?_⟩
  · exact (congrArg (fun c : KaoCell => c.lockout.getLsbD (argUnit arg)) hc2).trans (clearSlice_bit _ ⟨argUnit arg, hn⟩)
  · exact (congrArg (fun c : KaoCell => c.upstream.getLsbD (argUnit arg)) hc2).trans (clearSlice_bit _ ⟨argUnit arg, hn⟩)

/-! ### TRIP_TEST, RES_TEST and the agents (R331, R332) -/

theorem tripTest_pending {ag : Agent} {arg : BitVec 24} {s : State} {n : Fin 8} (hag : ag = .host ∨ ag = .service)
    (harg : argUnit arg = n.val) (hready : s.dev.ready ag 6 n.val) (hp : s.dev.present n.val = true)
    (hsrc : tripSource (argBits arg 15 8) = true) (hact : s.dev.kaoAction n (argBits arg 15 8) ≠ 0) (hst : (s.dev.kao.m[n]).st = .armed) :
    exec (.tripTest ag arg) s = .next (s.put
      ((s.dev.updKao n fun x => { x with force := some (argBits arg 15 8, s.dev.tim.elapsed) }).accepted ag 6 0x13 arg)) := by
  obtain ⟨n, hn⟩ := n
  obtain rfl : argUnit arg = n := harg
  refine next_put ((if_pos hag).trans (issueCommand_pending hready ?_))
  refine (if_neg fun h => ?_).trans ((dif_pos hn).trans ((if_pos hp).trans ((if_neg hact).trans (if_pos hst))))
  rw [hsrc] at h
  exact absurd h.2 nofun

theorem resTest_pending {ag : Agent} {arg : BitVec 24} {s : State} {n : Fin 8} (harg : argUnit arg = n.val)
    (hready : s.dev.ready ag 6 n.val) (hp : s.dev.present n.val = true)
    (hst : (s.dev.kao.m[n]).st = .armed ∨ (s.dev.kao.m[n]).st = .tripped) (hk : (s.dev.kao.m[n]).ken = false)
    (hr : (s.dev.kao.m[n]).req = false) (hu : s.dev.resUsed n = true) (ho : s.dev.ownsIres n = true) :
    exec (.resTest ag arg) s = .next (s.put
      ((s.dev.updKao n fun x => { x with resRunning := true, resLast := s.dev.tim.elapsed }).accepted ag 6 0x12 arg)) := by
  obtain ⟨n, hn⟩ := n
  obtain rfl : argUnit arg = n := harg
  refine next_put (issueCommand_pending hready ?_)
  refine (dif_pos hn).trans ((if_pos hp).trans (if_pos ⟨hst, ?_, ?_, hu, ho⟩))
  · rw [hk]
    rfl
  · rw [hr]
    rfl

/-- Only A2 and A4 issue the restricted commands; another agent is answered PERM. -/
theorem kaoRestricted_perm {ag : Agent} (hh : ag ≠ .host) (hs : ag ≠ .service) {d : Dev} (hi : d.canIssue ag = true) (op : Nat)
    (arg : BitVec 24) (u : Nat) (h : Dev → CmdSt × Dev) : kaoRestricted ag op arg u h d =
      (if d.granted ag 6 u .command = true then d.noteCommand ag 6 op .perm else d).permReject ag 6 :=
  (if_neg fun ho => ho.elim hh hs).trans (if_neg (by rw [hi]; decide))

/-- Settles O41. -/
theorem kaolinCommands : Obligations.KaolinCommands := by
  intro ag arg s
  exact ⟨fun hag => ⟨confirm_ok hag, fun n harg hready hp => ⟨lockRelease_ok hag harg hready hp, tripTest_pending hag harg hready hp⟩⟩,
    fun hh hs hi => ⟨next_put (kaoRestricted_perm hh hs hi ..), next_put (kaoRestricted_perm hh hs hi ..),
      next_put (kaoRestricted_perm hh hs hi ..)⟩,
    fun n harg hready hp => resTest_pending harg hready hp⟩

end Sys2Proof.Machine
end

section
/-! SUPPORT. A control cycle (O34): what it measures is beside what the session's operations change. -/

namespace Sys2Proof.Machine

/-! The parts that a cycle of the session leaves. -/

theorem Dev.goFault_part {pt : Part} (hque : pt ≠ .que) (hevc : pt ≠ .evc) (hlsw : pt ≠ .lsw) (d : Dev) (n : Fin 8) (reason : Nat) :
    (Dev.goFault d n reason).part pt = d.part pt := by
  unfold Dev.goFault; dsimp only; (repeat' split) <;> simp only [Dev.cutContactor_part hevc hlsw, Dev.goSess_part hque hevc,
    Dev.setLock_part hevc hlsw, Dev.updEvc_part hevc]

theorem Dev.authorizeAtOnce_part {pt : Part} (hque : pt ≠ .que) (hevc : pt ≠ .evc) (d : Dev) (n : Fin 8) :
    (Dev.authorizeAtOnce d n).part pt = d.part pt := by
  unfold Dev.authorizeAtOnce; (repeat' split) <;> simp only [Dev.goAuthorized_part hque hevc]

theorem Dev.noteRefuse_part {pt : Part} (hevc : pt ≠ .evc) (d : Dev) (n : Fin 8) (r : Nat) :
    (Dev.noteRefuse d n r).part pt = d.part pt := by
  unfold Dev.noteRefuse; dsimp only; (repeat' split) <;> simp only [Dev.raiseEvc_part, Dev.updEvc_part hevc]

theorem Dev.tryStart_part {pt : Part} (hque : pt ≠ .que) (hevc : pt ≠ .evc) (d : Dev) (n : Fin 8) :
    (Dev.tryStart d n).part pt = d.part pt := by
  have hid : (d.issueId (spaceAt (n.val + 1))).2.part pt = d.part pt := Dev.issueId_part hque ..
  unfold Dev.tryStart
  extract_lets r
  split
  · exact Dev.noteRefuse_part hevc ..
  split
  · next w d1 he =>
    rw [he] at hid
    simp only [Dev.goSess_part hque hevc, Dev.updEvc_part hevc, hid]
  · next d1 he =>
    rw [he] at hid
    exact (Dev.noteRefuse_part hevc ..).trans hid

theorem Dev.goEnergizing_part {pt : Part} (hque : pt ≠ .que) (hevc : pt ≠ .evc) (hlsw : pt ≠ .lsw) (d : Dev) (n : Fin 8) :
    (Dev.goEnergizing d n).part pt = d.part pt := by
  unfold Dev.goEnergizing; dsimp only; (repeat' split) <;> simp only [Dev.goSess_part hque hevc, Dev.setLock_part hevc hlsw,
    Dev.updEvc_part hevc]

theorem Dev.closeCycle_part {pt : Part} (hque : pt ≠ .que) (hevc : pt ≠ .evc) (d : Dev) (n : Fin 8) :
    (Dev.closeCycle d n).part pt = d.part pt := by
  unfold Dev.closeCycle; dsimp only; (repeat' split) <;> simp only [Dev.goSess_part hque hevc, Dev.updEvc_part hevc]

theorem Dev.openCycle_part {pt : Part} (hevc : pt ≠ .evc) (hlsw : pt ≠ .lsw) (d : Dev) (n : Fin 8) :
    (Dev.openCycle d n).part pt = d.part pt := by
  unfold Dev.openCycle; dsimp only; (repeat' split) <;> simp only [Dev.cutContactor_part hevc hlsw, Dev.updEvc_part hevc]

theorem Dev.sessionCycle_part {pt : Part} (hque : pt ≠ .que) (hevc : pt ≠ .evc) (hlsw : pt ≠ .lsw) (d : Dev) (n : Fin 8) :
    (Dev.sessionCycle d n).part pt = d.part pt := by
  unfold Dev.sessionCycle; dsimp only; (repeat' split) <;> simp only [Dev.authorizeAtOnce_part hque hevc, Dev.closeCycle_part hque hevc,
    Dev.cutContactor_part hevc hlsw, Dev.goEnergizing_part hque hevc hlsw, Dev.goFinished_part hque hevc hlsw, Dev.goIdle_part hque hevc,
      Dev.goSess_part hque hevc, Dev.goStopping_part hque hevc hlsw, Dev.goSuspended_part hque hevc hlsw, Dev.overtakeStop_part hevc,
        Dev.tryStart_part hque hevc, Dev.updEvc_part hevc]

theorem Dev.sessionTurn_part {pt : Part} (hque : pt ≠ .que) (hevc : pt ≠ .evc) (hlsw : pt ≠ .lsw) (d : Dev) (n : Fin 8) :
    (Dev.sessionTurn d n).part pt = d.part pt := by
  unfold Dev.sessionTurn; dsimp only; (repeat' split) <;> simp only [Dev.openCycle_part hevc hlsw, Dev.sessionCycle_part hque hevc hlsw]

theorem Dev.sessionStep_part {pt : Part} (hque : pt ≠ .que) (hevc : pt ≠ .evc) (hlsw : pt ≠ .lsw) (d : Dev) (n : Fin 8) :
    (Dev.sessionStep d n).part pt = d.part pt := by
  unfold Dev.sessionStep; (repeat' split) <;> simp only [Dev.goFault_part hque hevc hlsw, Dev.sessionTurn_part hque hevc hlsw,
    Dev.updEvc_part hevc]

theorem Dev.sendSetpoint_part {pt : Part} (hevc : pt ≠ .evc) (d : Dev) (n : Fin 8) :
    (Dev.sendSetpoint d n).part pt = d.part pt := by
  unfold Dev.sendSetpoint; dsimp only; (repeat' split) <;> simp only [Dev.sendCan_part hevc, Dev.updEvc_part hevc]

theorem Dev.gpFollow_part {pt : Part} (hevc : pt ≠ .evc) (d : Dev) (n : Fin 8) :
    (Dev.gpFollow d n).part pt = d.part pt := by
  unfold Dev.gpFollow; dsimp only; (repeat' split) <;> simp only [Dev.updGp_part hevc]

/-! What a cycle measures. -/

/-- What a control cycle measures of a line: the pilot's levels, its accepted state, proximity and the grant (R251, R254, R255). -/
def EvcSlice.measures (x : EvcSlice) : (Int × Int × Bool × Pilot) × Nat × Nat × Nat :=
  ((x.highMv, x.lowMv, x.diode, x.pilot), x.ppCode, x.grant, x.limiter)

/-- What the last control cycle of a slice measured. -/
def Dev.measures (d : Dev) (n : Fin 8) : (Int × Int × Bool × Pilot) × Nat × Nat × Nat := d.evc.s[n].measures

section
variable (d : Dev) (n : Fin 8)

theorem measures_of_part {d e : Dev} {n : Fin 8} (h : e.part .evc = d.part .evc) : e.measures n = d.measures n :=
  congrArg EvcSlice.measures (session_of_part h)

/-- An operation on the seat that keeps its measured fields keeps what was measured. -/
theorem measures_of_seat {d e : Dev} {n : Fin 8} {x : EvcSlice} (h : e.seat n = x) (hx : x.measures = (d.seat n).measures) :
    e.measures n = d.measures n := (congrArg EvcSlice.measures h).trans hx

theorem Dev.updEvc_measures (f : EvcSlice → EvcSlice) (hf : ∀ x, (f x).measures = x.measures) :
    (d.updEvc n f).measures n = d.measures n := (congrArg EvcSlice.measures (d.updEvc_self n f)).trans (hf _)

theorem Dev.cutContactor_measures : (d.cutContactor n).measures n = d.measures n :=
  measures_of_seat (d.cutContactor_seat n) rfl

theorem Dev.goSess_measures (st : Sess) : (d.goSess n st).measures n = d.measures n :=
  measures_of_seat (d.goSess_seat n st) rfl

theorem Dev.setLock_measures (on : Bool) : (d.setLock n on).measures n = d.measures n :=
  measures_of_seat (d.setLock_seat n on) rfl

theorem Dev.beginOpen_measures (wait : Nat) : (d.beginOpen n wait).measures n = d.measures n := by
  obtain ⟨a, w, c, t, e, h⟩ := d.beginOpen_seat n wait
  exact measures_of_seat h rfl

theorem Dev.goIdle_measures : (d.goIdle n).measures n = d.measures n :=
  measures_of_seat (d.goIdle_seat n) rfl

theorem Dev.goFinished_measures (reason : Nat) : (d.goFinished n reason).measures n = d.measures n := by
  obtain ⟨lo, lk, h⟩ := d.goFinished_seat n reason
  exact measures_of_seat h rfl

theorem Dev.goFault_measures (reason : Nat) : (d.goFault n reason).measures n = d.measures n := by
  by_cases hf : (d.evc.s[n]).st = .fault
  · rw [Dev.goFault_stays d n reason hf]
  · obtain ⟨lo, lk, h⟩ := d.goFault_seat n reason hf
    exact measures_of_seat h rfl

theorem Dev.goStopping_measures (reason wait : Nat) : (d.goStopping n reason wait).measures n = d.measures n := by
  obtain ⟨a, w, c, t, e, h⟩ := d.goStopping_seat n reason wait
  exact measures_of_seat h rfl

theorem Dev.goSuspended_measures (b : Susp) : (d.goSuspended n b).measures n = d.measures n := by
  obtain ⟨a, w, c, t, e, h⟩ := d.goSuspended_seat n b
  exact measures_of_seat h rfl

theorem Dev.goAuthorized_measures (method : Nat) (r : List Word) : (d.goAuthorized n method r).measures n = d.measures n :=
  measures_of_seat (d.goAuthorized_seat n method r) rfl

theorem Dev.goEnergizing_measures : (d.goEnergizing n).measures n = d.measures n := by
  obtain ⟨c, lo, lk, h⟩ := d.goEnergizing_seat n
  exact measures_of_seat h rfl

theorem Dev.noteRefuse_measures (r : Nat) : (d.noteRefuse n r).measures n = d.measures n :=
  measures_of_seat (Dev.noteRefuse_seat r) rfl

theorem Dev.overtakeStop_measures (reason wait : Nat) : (d.overtakeStop n reason wait).measures n = d.measures n := by
  unfold Dev.overtakeStop
  split
  · exact d.updEvc_measures n _ fun _ => rfl
  · rfl

theorem Dev.issueId_measures (i : Fin 13) : (d.issueId i).2.measures n = d.measures n := rfl

theorem Dev.tryStart_measures : (d.tryStart n).measures n = d.measures n := by
  have hid := d.issueId_measures n (spaceAt (n.val + 1))
  unfold Dev.tryStart
  extract_lets r
  split
  · exact d.noteRefuse_measures n r
  split
  · next w d1 he =>
    rw [he] at hid
    exact (Dev.goSess_measures _ n _).trans ((d1.updEvc_measures n _ (by exact fun _ => rfl)).trans hid)
  · next d1 he =>
    rw [he] at hid
    exact (d1.noteRefuse_measures n 3).trans hid

theorem Dev.authorizeAtOnce_measures : (d.authorizeAtOnce n).measures n = d.measures n := by
  unfold Dev.authorizeAtOnce
  split
  · split
    · split
      · exact d.goAuthorized_measures ..
      · rfl
    · exact d.goAuthorized_measures ..
  · split
    · exact d.goAuthorized_measures ..
    · rfl

theorem Dev.closeCycle_measures : (d.closeCycle n).measures n = d.measures n := by
  unfold Dev.closeCycle
  extract_lets x
  split
  · split
    · exact d.updEvc_measures n _ fun _ => rfl
    · rfl
  · exact d.updEvc_measures n _ fun _ => rfl
  · split
    · exact (Dev.goSess_measures _ n _).trans (d.updEvc_measures n _ fun _ => rfl)
    · rfl
  · rfl

theorem Dev.openCycle_measures : (d.openCycle n).measures n = d.measures n := by
  unfold Dev.openCycle
  extract_lets x
  split
  · exact d.cutContactor_measures n
  split
  · exact d.updEvc_measures n _ fun _ => rfl
  · rfl

/-- The charging session's transitions (R262). -/
theorem Dev.sessionCycle_measures : (d.sessionCycle n).measures n = d.measures n := by
  unfold Dev.sessionCycle
  extract_lets x p d1 d2
  have h1 : d1.measures n = d.measures n := by
    unfold d1
    split
    · exact d.updEvc_measures n _ fun _ => rfl
    · rfl
  have h2 : d2.measures n = d.measures n := by
    unfold d2
    split
    · exact d.overtakeStop_measures ..
    · rfl
  split
  · split
    · exact (Dev.goSess_measures _ n _).trans (d.updEvc_measures n _ fun _ => rfl)
    · rfl
  · split
    · exact d.goIdle_measures n
    · exact d.tryStart_measures n
  · split
    · exact d.goFinished_measures n 1
    · exact d.authorizeAtOnce_measures n
  · split
    · exact d.goFinished_measures n 1
    split
    · exact d.goEnergizing_measures n
    · rfl
  · split
    · exact d.goStopping_measures ..
    split
    · exact d.goStopping_measures ..
    · exact d.closeCycle_measures n
  · split
    · exact d.goStopping_measures ..
    split
    · exact d.goStopping_measures ..
    split
    · exact d.goSuspended_measures ..
    split
    · exact d.goSuspended_measures ..
    split
    · exact d.cutContactor_measures n
    · rfl
  · split
    · exact d.goStopping_measures ..
    split
    · exact d.goStopping_measures ..
    split
    · exact (d1.goEnergizing_measures n).trans h1
    · exact h1
  · split
    · exact (d2.goFinished_measures ..).trans h2
    · exact h2
  · split
    · exact d.goIdle_measures n
    · rfl
  · rfl

theorem Dev.sessionStep_measures : (d.sessionStep n).measures n = d.measures n := by
  unfold Dev.sessionStep Dev.sessionTurn
  split
  · exact (Dev.goFault_measures _ n 11).trans (d.updEvc_measures n _ fun _ => rfl)
  split
  · rfl
  split
  · exact d.goFault_measures n 13
  dsimp only
  split
  · exact d.openCycle_measures n
  · exact (Dev.sessionCycle_measures _ n).trans (d.openCycle_measures n)
end

/-! ### Flags through a fault of a session -/

theorem Dev.releaseHeld_flags (g : Fin 4) (k : Nat) : ∀ d : Dev, (Dev.releaseHeld g k d).flags = d.flags := by
  induction k with
  | zero => exact fun _ => rfl
  | succ k ih =>
    intro d
    unfold Dev.releaseHeld
    split
    · rfl
    split
    · rfl
    · refine (ih _).trans ?_
      unfold Dev.lswResume
      (repeat' split) <;> rfl

theorem Dev.evcDemand_flags (d : Dev) (c : Fin 16) (on : Bool) : (d.evcDemand c on).flags = d.flags := by
  unfold Dev.evcDemand Dev.lswDemand
  dsimp only
  split
  · rfl
  split
  · rfl
  split
  · split <;> rfl
  split
  · exact Dev.releaseHeld_flags _ _ _
  split <;> rfl

section
variable {d : Dev} {n : Fin 8} {g u off b : Nat} (hb : b < 16) (h : d.flagBit g u off b = true)
include hb h

theorem Dev.produce_flag (q : Fin 64) (ws : List QData) : (d.produce q ws).flagBit g u off b = true := by
  unfold Dev.produce
  dsimp only
  split
  · exact h
  split
  · exact Dev.commit_flag hb h
  split <;> exact Dev.flagBit_raise_mono _ _ _ _ _ _ _ _ _ hb h

theorem Dev.sessionEvent_flag (old : Sess) : (d.sessionEvent n old).flagBit g u off b = true := by
  unfold Dev.sessionEvent
  split
  · exact h
  · exact Dev.produce_flag hb h _ _

omit hb in
theorem Dev.levelPilot_flag : (d.levelPilot n).flagBit g u off b = true := by
  unfold Dev.levelPilot
  split <;> exact h

theorem Dev.goSess_flag (st : Sess) : (d.goSess n st).flagBit g u off b = true := by
  unfold Dev.goSess
  extract_lets old d1
  have h1 : d1.flagBit g u off b = true := h
  clear_value d1
  exact Dev.levelPilot_flag (Dev.sessionEvent_flag hb (Dev.flagBit_raise_mono d1 5 n.val 0x30 (sessMask st) g u off b hb h1) old)

omit hb in
theorem Dev.cutContactor_flag : (d.cutContactor n).flagBit g u off b = true :=
  (Dev.flagBit_congr (d.evcDemand_flags (coil n) false) g u off b).trans h

omit hb in
theorem Dev.setLock_flag (on : Bool) : (d.setLock n on).flagBit g u off b = true :=
  foldl_rel _ _ (fun a d => d.flagBit g u off b = true → a.flagBit g u off b = true) d id
    (fun a c ha hd => (Dev.flagBit_congr (a.evcDemand_flags c on) g u off b).trans (ha hd)) h

theorem Dev.goFault_flag (reason : Nat) : (d.goFault n reason).flagBit g u off b = true := by
  have hcut : (d.cutContactor n).flagBit g u off b = true := Dev.cutContactor_flag h
  unfold Dev.goFault
  extract_lets d1 d2
  have h2 : d2.flagBit g u off b = true := Dev.goSess_flag hb (d := d1.updEvc n _) hcut .fault
  split
  · exact h
  split
  · exact h2
  · exact Dev.setLock_flag h2 false
end

/-! ### A fault of the EVC function (R262, R281) -/

/-- The device with the EVC function of a slice in FAULT. -/
def Dev.evcFailed (d : Dev) (n : Fin 8) (code : Byte) : Dev := d.updEvc n fun x => { x with fn := { st := .fault, code := code } }

theorem Dev.goFault_fn (d : Dev) (n : Fin 8) (reason : Nat) : ((d.goFault n reason).evc.s[n]).fn = (d.evc.s[n]).fn := by
  by_cases hf : (d.evc.s[n]).st = .fault
  · rw [Dev.goFault_stays d n reason hf]
  · obtain ⟨lo, lk, hs⟩ := d.goFault_seat n reason hf
    exact (Dev.seat_get EvcSlice.fn (fun _ => rfl) hs).trans rfl

theorem Dev.levelPilot_get {α : Type} (d : Dev) (n : Fin 8) (g : EvcSlice → α) (hg : ∀ y : EvcSlice, g y.undriven = g y) :
    g (d.levelPilot n).evc.s[n] = g d.evc.s[n] := (Dev.seat_get g hg (d.levelPilot_seat n)).trans (hg _)

section
variable {d : Dev} {n : Fin 8} (h : (d.evc.s[n]).fn.st = .running) (code : Byte)
include h

theorem Dev.evcFault_eq : d.evcFault n code = ((d.evcFailed n code).goFault n 13).levelPilot n :=
  if_pos (decide_eq_true h)

theorem Dev.evcFault_fn : ((d.evcFault n code).evc.s[n]).fn = { st := .fault, code := code } := by
  have hfn : ((d.evcFailed n code).evc.s[n]).fn = { st := .fault, code := code } := congrArg EvcSlice.fn (d.updEvc_self n _)
  rw [Dev.evcFault_eq h, Dev.levelPilot_get _ n EvcSlice.fn fun _ => rfl, Dev.goFault_fn]
  exact hfn

theorem Dev.evcFault_st : ((d.evcFault n code).evc.s[n]).st = .fault := by
  rw [Dev.evcFault_eq h, Dev.levelPilot_get _ n EvcSlice.st fun _ => rfl]
  exact Dev.goFault_st _ n 13

theorem Dev.evcFault_flag {g u off b : Nat} (hb : b < 16) (hf : d.flagBit g u off b = true) :
    (d.evcFault n code).flagBit g u off b = true := by
  rw [Dev.evcFault_eq h]
  exact Dev.levelPilot_flag (Dev.goFault_flag hb (d := d.evcFailed n code) hf 13)
end

/-! ### The measurements of one cycle (R251, R254, R255) -/

section
variable (d : Dev) (n : Fin 8) (m : CycleMeas)

/-- The pilot state that a cycle's debounce accepts. -/
def Dev.acceptedPilot (d : Dev) (n : Fin 8) (mv : Int) : Pilot :=
  if d.rfld 5 n.val 8 7 0 ≤ (if (d.evc.s[n]).pilotRead mv = (d.evc.s[n]).cand then (d.evc.s[n]).candN + 1 else 1)
  then (d.evc.s[n]).pilotRead mv else (d.evc.s[n]).pilot

theorem Dev.takePilot_at : ∃ h l c k, (d.takePilot n m).evc.s[n] = { d.evc.s[n] with
    highMv := m.highMv, holdSince := h, leftA := l, lowMv := m.lowMv, diode := (d.evc.s[n]).pwmOn && decide (-10500 < m.lowMv)
    cand := c, candN := k, pilot := d.acceptedPilot n m.highMv } := by
  unfold Dev.takePilot
  extract_lets x c k accept d1
  have h1 : d1.evc.s[n] = { d.evc.s[n] with
      highMv := m.highMv, holdSince := d.heldSince n m.highMv, leftA := d.leavesA n m.highMv, lowMv := m.lowMv
      diode := (d.evc.s[n]).pwmOn && decide (-10500 < m.lowMv), cand := c, candN := min k 20, pilot := if accept then c else (d.evc.s[n]).pilot } :=
    d.updEvc_self n _
  have hp : (if accept then c else (d.evc.s[n]).pilot) = d.acceptedPilot n m.highMv := if_congr decide_eq_true_iff rfl rfl
  rw [hp] at h1
  split
  · exact ⟨_, _, _, _, (congrArg (fun e : EvcState => e.s[n]) (Dev.raiseEvc_part (pt := .evc) d1 n.val 1)).trans h1⟩
  · exact ⟨_, _, _, _, h1⟩

/-- The device with the measurements of a cycle taken. -/
def Dev.measured (d : Dev) (n : Fin 8) (m : CycleMeas) : Dev := ((d.takePilot n m).takePp n m.ppOhm).takeGrant n

/-- The grant depends on the registers, the slice's kind and the load limit only (R255). -/
theorem Dev.grantOf_congr {d e : Dev} {n : Fin 8} (hr : e.regs = d.regs) (hi : e.img = d.img)
    (ha : (e.evc.s[n]).limActive = (d.evc.s[n]).limActive) (hl : (e.evc.s[n]).limDa = (d.evc.s[n]).limDa) (code : Nat) :
    e.grantOf n code = d.grantOf n code := by
  unfold Dev.grantOf Dev.rfld Dev.reg Dev.kind
  rw [hr, hi, ha, hl]

theorem Dev.takePilot_regs : (d.takePilot n m).regs = d.regs ∧ (d.takePilot n m).img = d.img ∧ (d.takePilot n m).tim = d.tim := by
  unfold Dev.takePilot
  extract_lets x c k accept d1
  split <;> exact ⟨rfl, rfl, rfl⟩

theorem Dev.measured_measures : (d.measured n m).measures n =
    ((m.highMv, m.lowMv, (d.evc.s[n]).pwmOn && decide (-10500 < m.lowMv), d.acceptedPilot n m.highMv), ppCodeOf m.ppOhm,
      d.grantOf n (ppCodeOf m.ppOhm)) := by
  obtain ⟨h, l, c, k, hp⟩ := d.takePilot_at n m
  obtain ⟨hregs, himg, -⟩ := d.takePilot_regs n m
  unfold Dev.measured
  generalize d.takePilot n m = e at hp hregs himg
  have hpp : (e.takePp n m.ppOhm).evc.s[n] = { e.evc.s[n] with ppOhm := min m.ppOhm 0xFFFF, ppCode := ppCodeOf m.ppOhm } :=
    e.updEvc_self n _
  have hg : (e.takePp n m.ppOhm).grantOf n ((e.takePp n m.ppOhm).evc.s[n]).ppCode = d.grantOf n (ppCodeOf m.ppOhm) := by
    rw [show ((e.takePp n m.ppOhm).evc.s[n]).ppCode = ppCodeOf m.ppOhm from (congrArg EvcSlice.ppCode hpp).trans rfl]
    refine Dev.grantOf_congr (e := e.takePp n m.ppOhm) hregs himg ?_ ?_ _
    · rw [hpp, hp]
    · rw [hpp, hp]
  have hgr : ((e.takePp n m.ppOhm).takeGrant n).evc.s[n] = { (e.takePp n m.ppOhm).evc.s[n] with
      grant := (d.grantOf n (ppCodeOf m.ppOhm)).1, limiter := (d.grantOf n (ppCodeOf m.ppOhm)).2 } := by
    unfold Dev.takeGrant
    rw [hg]
    exact Dev.updEvc_self ..
  refine (congrArg EvcSlice.measures hgr).trans ?_
  rw [hpp, hp]
  rfl
end

/-! ### The whole cycle -/

section
variable (d : Dev) (n : Fin 8)

theorem Dev.sendCan_session (port : Fin 2) (f : CanFrame) : (d.sendCan port f).evc.s = d.evc.s := rfl

theorem Dev.sendSetpoint_seat : ∃ a f, (d.sendSetpoint n).seat n = { d.seat n with txSeq := a, lastTx := f } := by
  unfold Dev.sendSetpoint
  split
  · exact ⟨_, _, Dev.updEvc_seat _ n _ (by exact fun _ => rfl)⟩
  · exact ⟨_, _, rfl⟩

theorem Dev.gpFollow_sessions : (d.gpFollow n).evc.s = d.evc.s := by
  unfold Dev.gpFollow
  dsimp only
  (repeat' split) <;> rfl

/-- What follows the session's step in a cycle: the pilot, the module frame and the modem (R144). -/
def Dev.cycleEnd (d : Dev) (n : Fin 8) : Dev :=
  let d3 := (d.updEvc n fun x => { x with young := false }).drivePilot n
  let d4 := if d3.evc.s[n].fn.isRunning then d3.sendSetpoint n else d3
  d4.gpFollow n

theorem Dev.cycleEnd_seat : ∃ a f, (d.cycleEnd n).seat n = { d.seat n with young := false, txSeq := a, lastTx := f } := by
  unfold Dev.cycleEnd
  extract_lets d3 d4
  have h3 : d3.seat n = { d.seat n with young := false } := (Dev.drivePilot_seat _ n).trans (d.updEvc_seat n _ fun _ => rfl)
  have h4 : ∃ a f, d4.seat n = { d.seat n with young := false, txSeq := a, lastTx := f } := by
    unfold d4
    split
    · obtain ⟨a, f, h⟩ := d3.sendSetpoint_seat n
      rw [h3] at h
      exact ⟨a, f, h⟩
    · exact ⟨_, _, h3⟩
  obtain ⟨a, f, h⟩ := h4
  refine ⟨a, f, Eq.trans ?_ h⟩
  exact congrArg (fun v : Vector EvcSlice 8 => (v[n]).undriven) (d4.gpFollow_sessions n)

theorem Dev.cycleEnd_tim : (d.cycleEnd n).tim = d.tim := by
  unfold Dev.cycleEnd
  extract_lets d3 d4
  have h4 : d4.tim = d3.tim := by
    unfold d4
    split
    · exact Dev.sendSetpoint_part (pt := .tim) (by decide) ..
    · rfl
  exact (Dev.gpFollow_part (pt := .tim) (by decide) ..).trans h4

end

section
variable {s : State} {n : Fin 8} {m : CycleMeas} (hdue : s.dev.due (keyCycle n.val) 1000000 = true) (hp : s.dev.present n.val = true)
include hdue hp

/-- The device when a cycle has come and the monitor is read. -/
def Dev.cycleBegun (d : Dev) (n : Fin 8) (m : CycleMeas) : Dev := (d.ran (keyCycle n.val)).takeLsw n m

omit hdue hp in
theorem Dev.cycleBegun_same (d : Dev) (n : Fin 8) (m : CycleMeas) : (d.cycleBegun n m).regs = d.regs ∧ (d.cycleBegun n m).img = d.img ∧
    (d.cycleBegun n m).evc = d.evc ∧ (d.cycleBegun n m).tim = (d.ran (keyCycle n.val)).tim := ⟨rfl, rfl, rfl, rfl⟩

theorem controlCycle_ok (hl : m.linkOk = true) : s.dev.controlCycle n m =
    (((s.dev.cycleBegun n m).measured n m).sessionStep n).cycleEnd n := by
  unfold Dev.controlCycle
  rw [if_neg (by rw [show s.dev.due (keyCycle n.val) (ms 1) = true from hdue]; decide)]
  extract_lets d1 d2 d3 d4
  have hp1 : d1.present n.val = true := hp
  rw [if_neg (by rw [hp1]; decide), if_neg (by rw [hl]; decide)]
  show (d2.sessionStep n).cycleEnd n = _
  rfl

theorem controlCycle_measures (hl : m.linkOk = true) :
    ∃ t, exec (.controlCycle n m) s = .next t ∧ (t.dev.evc.s[n]).highMv = m.highMv ∧ (t.dev.evc.s[n]).lowMv = m.lowMv ∧
      (t.dev.evc.s[n]).diode = ((s.dev.evc.s[n]).pwmOn && decide (-10500 < m.lowMv)) ∧
      (t.dev.evc.s[n]).ppCode = ppCodeOf m.ppOhm ∧
      ((t.dev.evc.s[n]).grant, (t.dev.evc.s[n]).limiter) = s.dev.grantOf n (ppCodeOf m.ppOhm) ∧
      (t.dev.evc.s[n]).pilot = s.dev.acceptedPilot n m.highMv ∧ (t.dev.evc.s[n]).young = false ∧
      t.dev.lastRun (keyCycle n.val) = some s.dev.tim.now ∧ t.dev.tim.now = s.dev.tim.now := by
  obtain ⟨hregs, himg, hevc, htim⟩ := s.dev.cycleBegun_same n m
  have hmeas := (s.dev.cycleBegun n m).measured_measures n m
  have hgrant : (s.dev.cycleBegun n m).grantOf n (ppCodeOf m.ppOhm) = s.dev.grantOf n (ppCodeOf m.ppOhm) :=
    Dev.grantOf_congr hregs himg (by rw [hevc]) (by rw [hevc]) _
  have hacc : (s.dev.cycleBegun n m).acceptedPilot n m.highMv = s.dev.acceptedPilot n m.highMv := by
    unfold Dev.acceptedPilot Dev.rfld Dev.reg
    rw [hregs, hevc]
  have htim2 : ((s.dev.cycleBegun n m).measured n m).tim = (s.dev.ran (keyCycle n.val)).tim :=
    ((s.dev.cycleBegun n m).takePilot_regs n m).2.2.trans htim
  have hstep := Dev.sessionStep_measures ((s.dev.cycleBegun n m).measured n m) n
  have htim3 : (((s.dev.cycleBegun n m).measured n m).sessionStep n).tim = (s.dev.ran (keyCycle n.val)).tim :=
    (Dev.sessionStep_part (pt := .tim) (by decide) (by decide) (by decide) ..).trans htim2
  rw [hmeas, hgrant, hacc, hevc] at hstep
  have hrun := controlCycle_ok hdue hp hl
  generalize ((s.dev.cycleBegun n m).measured n m).sessionStep n = d3 at hstep htim3 hrun
  obtain ⟨a, f, hs⟩ := d3.cycleEnd_seat n
  have htim4 := (d3.cycleEnd_tim n).trans htim3
  have hmeas4 : (d3.cycleEnd n).measures n = d3.measures n := measures_of_seat hs rfl
  rw [hstep] at hmeas4
  generalize d3.cycleEnd n = D at hs htim4 hmeas4 hrun
  refine ⟨s.put D, next_put hrun, congrArg (·.1.1) hmeas4, congrArg (·.1.2.1) hmeas4, congrArg (·.1.2.2.1) hmeas4,
    congrArg (·.2.1) hmeas4, congrArg (·.2.2) hmeas4, congrArg (·.1.2.2.2) hmeas4, Dev.seat_get EvcSlice.young (fun _ => rfl) hs, ?_,
    (congrArg TimState.now htim4).trans rfl⟩
  show D.lastRun _ = _
  unfold Dev.lastRun
  rw [htim4]
  simp [Dev.ran]

theorem controlCycle_linkFailed (hl : m.linkOk = false) (hf : (s.dev.evc.s[n]).fn.st = .running) :
    ∃ t, exec (.controlCycle n m) s = .next t ∧ (t.dev.evc.s[n]).fn.st = .fault ∧ (t.dev.evc.s[n]).fn.code = 1 ∧
      (t.dev.evc.s[n]).st = .fault ∧ t.dev.flagBit 0 0 0x10 3 = true := by
  have hrun : s.dev.controlCycle n m =
      (((s.dev.cycleBegun n m).raiseSys 3).logEvent .sys 21 [w32 lineDie, w32 lineDie] none n.val).evcFault n 1 := by
    unfold Dev.controlCycle
    rw [if_neg (by rw [show s.dev.due (keyCycle n.val) (ms 1) = true from hdue]; decide)]
    extract_lets d1 d2 d3 d4
    rw [if_neg (by rw [show d1.present n.val = true from hp]; decide), if_pos (by rw [hl]; rfl)]
    rfl
  have hflag : (((s.dev.cycleBegun n m).raiseSys 3).logEvent .sys 21 [w32 lineDie, w32 lineDie] none n.val).flagBit 0 0 0x10 3 = true :=
    Dev.flagBit_raise_self _ 0 0 0x10 (2 ^ 3) 3 (by decide) (by decide)
  have hfn : ((((s.dev.cycleBegun n m).raiseSys 3).logEvent .sys 21 [w32 lineDie, w32 lineDie] none n.val).evc.s[n]).fn.st = .running := hf
  generalize ((s.dev.cycleBegun n m).raiseSys 3).logEvent .sys 21 [w32 lineDie, w32 lineDie] none n.val = D at hrun hflag hfn
  exact ⟨s.put (D.evcFault n 1), next_put hrun, congrArg Func.st (Dev.evcFault_fn hfn 1), congrArg Func.code (Dev.evcFault_fn hfn 1),
    Dev.evcFault_st hfn 1, Dev.evcFault_flag hfn 1 (by decide) hflag⟩
end

/-- Settles O34. -/
theorem controlCycle : Obligations.ControlCycle := by
  intro n m s hdue hp
  exact ⟨controlCycle_measures hdue hp, controlCycle_linkFailed hdue hp⟩

end Sys2Proof.Machine
end

section
/-! SUPPORT. FUNC_STOP, FUNC_START and FUNC_RESTART (O6): the check they share, and the state of the function after each. -/

namespace Sys2Proof.Machine

/-! ### The checks (R104) -/

/-- The command of a function that its group has (R104). -/
theorem Dev.onFunc_some {d : Dev} {g : Group} {arg : BitVec 24} {f : Func} (h0 : argBits arg 15 0 = 0)
    (hf : d.func? g (argUnit arg) = some f) (h : Nat → Func → CmdSt × Dev) : d.onFunc g arg h = h (argUnit arg) f := by
  unfold Dev.onFunc
  rw [if_neg (fun hne => hne h0), hf]

theorem Func.idle_of_running {f : Func} (h : f.st = .running) : f.idle = false := by
  unfold Func.idle
  rw [h]
  rfl

section
variable {ag : Agent} {g : Group} {arg : BitVec 24} {s : State} {f : Func} (hready : s.dev.ready ag (groupNum g) (argUnit arg))
  (h0 : argBits arg 15 0 = 0) (hf : s.dev.func? g (argUnit arg) = some f)
include hready h0 hf

theorem funcStop_completes (hst : f.st = .running) (hr : s.dev.stopRefused g (argUnit arg) = false) :
    exec (.funcStop ag g arg) s = .next (s.put ((s.dev.stopFunc g (argUnit arg)).completed ag (groupNum g) 1)) := by
  refine next_put (issueCommand_ok hready ((Dev.onFunc_some h0 hf _).trans (if_neg ?_)))
  rw [Func.idle_of_running hst, hr]
  simp

theorem funcStart_completes (hi : f.idle = true) (hr : s.dev.startReady g (argUnit arg) = true) :
    exec (.funcStart ag g arg) s = .next (s.put ((s.dev.startFunc g (argUnit arg)).completed ag (groupNum g) 2)) :=
  next_put (issueCommand_ok hready ((Dev.onFunc_some h0 hf _).trans (if_pos ⟨hi, hr⟩)))

theorem funcRestart_completes (hst : f.st = .stopped ∨ f.st = .fault) :
    exec (.funcRestart ag g arg) s = .next (s.put ((s.dev.restartFunc g (argUnit arg)).completed ag (groupNum g) 3)) :=
  next_put (issueCommand_ok hready ((Dev.onFunc_some h0 hf _).trans (if_pos hst)))
end

/-! ### The function a group has -/

theorem Dev.func?_mtr (d : Dev) {u : Nat} (h : u < 9) : d.func? .mtr u = some (d.mtr.eng[u]).fn := by
  unfold Dev.func?
  dsimp only
  rw [Vector.getElem?_eq_getElem h]
  rfl

theorem Dev.func?_evc (d : Dev) {u : Nat} (h : u < 8) : d.func? .evc u = some (d.evc.s[u]).fn := by
  unfold Dev.func?
  dsimp only
  rw [Vector.getElem?_eq_getElem h]
  rfl

theorem Dev.func?_none (d : Dev) {u : Nat} (hm : ¬u < 9) : d.func? .mtr u = none := by
  unfold Dev.func?
  dsimp only
  rw [Vector.getElem?_eq_none (Nat.le_of_not_lt hm)]
  rfl

theorem Dev.func?_evc_none (d : Dev) {u : Nat} (hm : ¬u < 8) : d.func? .evc u = none := by
  unfold Dev.func?
  dsimp only
  rw [Vector.getElem?_eq_none (Nat.le_of_not_lt hm)]
  rfl

theorem Dev.updEng_fn (d : Dev) (u : Fin 9) (f : Engine → Engine) : ((d.updEng u f).mtr.eng[u.val]).fn = (f d.mtr.eng[u]).fn := by
  have h : (d.updEng u f).mtr.eng[u.val] = f d.mtr.eng[u] := (Dev.updEng_at d u u f).trans (if_pos rfl)
  rw [h]

/-! ### What the commands leave -/

theorem Dev.stopMeter_fn (d : Dev) (u : Fin 9) : ((d.stopMeter u).mtr.eng[u.val]).fn.st = .stopped := by
  unfold Dev.stopMeter
  extract_lets d1 d2
  have h2 : (d2.mtr.eng[u.val]).fn.st = .stopped := congrArg Func.st (Dev.updEng_fn _ u _)
  split
  · extract_lets n d3
    have h3 : d3.mtr = d2.mtr := by
      unfold d3
      split
      · exact Dev.cutContactor_part (pt := .mtr) (by decide) (by decide) ..
      · rfl
    have h4 : (d3.tamper 18 (some n)).mtr = d2.mtr := (Dev.tamper_part (pt := .mtr) (by decide) ..).trans h3
    exact (congrArg (fun m : MtrState => (m.eng[u.val]).fn.st) h4).trans h2
  · exact h2

theorem Dev.startMeter_fn (d : Dev) (u : Fin 9) : ((d.startMeter u).mtr.eng[u.val]).fn.st = .running := by
  unfold Dev.startMeter
  extract_lets d1
  have h1 : (d1.mtr.eng[u.val]).fn.st = .running := congrArg Func.st (Dev.updEng_fn _ u _)
  split
  · split
    · next h _ =>
      have h2 : (d1.setTariff ⟨u.val, h⟩ d1.now).mtr = d1.mtr := Dev.setTariff_part (pt := .mtr) (by decide) ..
      exact (congrArg (fun m : MtrState => (m.eng[u.val]).fn.st) h2).trans h1
    · exact h1
  · exact h1

theorem Dev.stopEvc_fn (d : Dev) (n : Fin 8) : ((d.stopEvc n).evc.s[n]).fn.st = .stopped := by
  unfold Dev.stopEvc
  rw [Dev.levelPilot_get _ n (fun x => x.fn.st) fun _ => rfl]
  exact congrArg (fun x : EvcSlice => x.fn.st) (Dev.updEvc_self ..)

theorem Dev.startEvc_fn (d : Dev) (n : Fin 8) : ((d.startEvc n).evc.s[n]).fn.st = .running := by
  unfold Dev.startEvc
  extract_lets d1
  have h1 : (d1.evc.s[n]).fn.st = .running := congrArg (fun x : EvcSlice => x.fn.st) (Dev.updEvc_self ..)
  clear_value d1
  split
  · exact (Dev.levelPilot_get d1 n (fun x => x.fn.st) fun _ => rfl).trans h1
  · have hseat := d1.goIdle_seat n
    generalize d1.goIdle n = e at hseat ⊢
    exact (Dev.seat_get (fun x => x.fn.st) (fun _ => rfl) hseat).trans h1

theorem Dev.restartEvc_fn (d : Dev) (n : Fin 8) : ((d.restartEvc n).evc.s[n]).fn.st = .stopped := by
  unfold Dev.restartEvc
  rw [Dev.levelPilot_get _ n (fun x => x.fn.st) fun _ => rfl]
  exact congrArg (fun x : EvcSlice => x.fn.st) (Dev.updEvc_self ..)

/-- A unit of a group with a function: which groups and units those are. -/
theorem Dev.func?_unit {d : Dev} {g : Group} {u : Nat} {f : Func} (h : d.func? g u = some f) :
    (g = .tim ∧ u = 1) ∨ (g = .mtr ∧ u < 9) ∨ (g = .evc ∧ u < 8) ∨ (g = .plc ∧ (u = 0 ∨ u = 1)) ∨ (g = .tag ∧ (u = 0 ∨ u = 1)) ∨
      (g = .pnl ∧ u = 0) := by
  cases g
  case mtr =>
    by_cases hu : u < 9
    · simp [hu]
    · rw [Dev.func?_none d hu] at h
      cases h
  case evc =>
    by_cases hu : u < 8
    · simp [hu]
    · rw [Dev.func?_evc_none d hu] at h
      cases h
  case tim | plc | tag | pnl =>
    simp only [Dev.func?] at h
    (repeat' split at h) <;> simp_all
  all_goals exact absurd h nofun

section
variable {d : Dev} {g : Group} {u : Nat} {f : Func} (h : d.func? g u = some f) (ht : ¬(g = .tag ∧ u = 1))
include h ht

theorem Dev.stopFunc_stopped : ((d.stopFunc g u).func? g u).map (·.st) = some .stopped := by
  rcases Dev.func?_unit h with ⟨rfl, rfl⟩ | ⟨rfl, hu⟩ | ⟨rfl, hu⟩ | ⟨rfl, rfl | rfl⟩ | ⟨rfl, rfl | rfl⟩ | ⟨rfl, rfl⟩
  · rfl
  · rw [show d.stopFunc .mtr u = d.stopMeter ⟨u, hu⟩ from dif_pos hu, Dev.func?_mtr _ hu]
    exact congrArg some (d.stopMeter_fn ⟨u, hu⟩)
  · rw [show d.stopFunc .evc u = d.stopEvc ⟨u, hu⟩ from dif_pos hu, Dev.func?_evc _ hu]
    exact congrArg some (d.stopEvc_fn ⟨u, hu⟩)
  · rfl
  · rfl
  · rfl
  · exact absurd ⟨rfl, rfl⟩ ht
  · rfl

theorem Dev.startFunc_running (hp : g ≠ .pnl) : ((d.startFunc g u).func? g u).map (·.st) = some .running := by
  rcases Dev.func?_unit h with ⟨rfl, rfl⟩ | ⟨rfl, hu⟩ | ⟨rfl, hu⟩ | ⟨rfl, rfl | rfl⟩ | ⟨rfl, rfl | rfl⟩ | ⟨rfl, rfl⟩
  · rfl
  · rw [show d.startFunc .mtr u = d.startMeter ⟨u, hu⟩ from dif_pos hu, Dev.func?_mtr _ hu]
    exact congrArg some (d.startMeter_fn ⟨u, hu⟩)
  · rw [show d.startFunc .evc u = d.startEvc ⟨u, hu⟩ from dif_pos hu, Dev.func?_evc _ hu]
    exact congrArg some (d.startEvc_fn ⟨u, hu⟩)
  · rfl
  · rfl
  · rfl
  · exact absurd ⟨rfl, rfl⟩ ht
  · exact absurd rfl hp

theorem Dev.restartFunc_stopped : ((d.restartFunc g u).func? g u).map (·.st) = some .stopped := by
  rcases Dev.func?_unit h with ⟨rfl, rfl⟩ | ⟨rfl, hu⟩ | ⟨rfl, hu⟩ | ⟨rfl, rfl | rfl⟩ | ⟨rfl, rfl | rfl⟩ | ⟨rfl, rfl⟩
  · rfl
  · rw [show d.restartFunc .mtr u = (d.clearWorking ⟨u, hu⟩).updEng ⟨u, hu⟩ fun e => { e with fn := { st := .stopped } } from
      (dif_pos hu).trans (dif_pos hu), Dev.func?_mtr _ hu]
    exact congrArg (fun x : Func => some x.st) (Dev.updEng_fn _ ⟨u, hu⟩ _)
  · rw [show d.restartFunc .evc u = d.restartEvc ⟨u, hu⟩ from dif_pos hu, Dev.func?_evc _ hu]
    exact congrArg some (d.restartEvc_fn ⟨u, hu⟩)
  · rfl
  · rfl
  · rfl
  · exact absurd ⟨rfl, rfl⟩ ht
  · rfl
end

/-- Settles O6. -/
theorem functionCommands : Obligations.FunctionCommands :=
  ⟨fun _ _ _ _ _ hready h0 hf => ⟨funcStop_completes hready h0 hf, funcStart_completes hready h0 hf, funcRestart_completes hready h0 hf⟩,
    fun _ _ _ _ hf ht => ⟨Dev.stopFunc_stopped hf ht, Dev.startFunc_running hf ht, Dev.restartFunc_stopped hf ht⟩⟩

end Sys2Proof.Machine
end

section
/-! SUPPORT. The resets of the dies and of the core (O11): what they keep and lose. -/

namespace Sys2Proof.Machine

/-- What the agents see of a device's command interface: whether A1 runs, the commands under way, the hung accesses, the answer and
the views. -/
def Dev.control (d : Dev) : Bool × List PendingCmd × List HungAccess × Reply × RegFile := (d.coreA1, d.busy, d.hung, d.reply, d.views)

section
variable {d : Dev} {regs staged : RegFile} {flags : List (Nat × FlagReg)} {replies : List Reply} {coreReply : Option Reply}
  {resume : List Request} {permLog cfgLog : List RateLimit} {log : List LogEntry} {logSeq : Nat} {islandRun clockLost : BitVec 16}
  {fresh : Nat} {img : ImgState} {que : QueState} {tim : TimState} {mtr : MtrState} {bil : BilState} {evc : EvcState} {kao : KaoState}
  {lsw : LswState} {plc : PlcState} {key : KeyState} {tag : TagState} {pnl : PnlState} {sto : StoState} {aul : AulState} {pwr : PwrState}

theorem Dev.control_mk :
    (⟨regs, staged, d.views, flags, d.coreA1, d.reply, replies, coreReply, d.busy, d.hung, resume, permLog, cfgLog, log, logSeq,
    islandRun, clockLost, img, que, tim, mtr, bil, evc, kao, lsw, plc, key, tag, pnl, sto, aul, pwr,
      fresh⟩ : Dev).control = d.control := rfl

theorem Dev.control_ite {c : Prop} [Decidable c] {e : Dev} : (if c then d else e).control = if c then d.control else e.control :=
  apply_ite Dev.control c d e
end

theorem foldl_control {α : Type} (f : Dev → α → Dev) (l : List α) (d : Dev) (h : ∀ x a, (f x a).control = x.control) :
    (l.foldl f d).control = d.control := foldl_rel l f (fun a d => a.control = d.control) d rfl fun a x ha => (h a x).trans ha

theorem Dev.bootCommit_control (d : Dev) :
    (Dev.bootCommit d).control = d.control := by
  unfold Dev.bootCommit; dsimp only; (repeat' split) <;> simp only [↓Dev.control_mk]

theorem Dev.takeBoot_control (d : Dev) (r : BootRec) :
    (Dev.takeBoot d r).control = d.control := by
  unfold Dev.takeBoot; dsimp only; simp only [↓Dev.control_mk]

theorem Dev.readBoot_control (d : Dev) :
    (Dev.readBoot d).control = d.control := by
  unfold Dev.readBoot; dsimp only; (repeat' split) <;> simp only [Dev.bootCommit_control, Dev.takeBoot_control, ↓Dev.control_mk]

theorem Dev.logEvent_control (d : Dev) (g : Group) (event : Nat) (data : List Word) (ag : Option Agent) (sl : Nat) :
    (Dev.logEvent d g event data ag sl).control = d.control := by
  unfold Dev.logEvent; simp only [↓Dev.control_mk]

theorem Dev.updBil_control (d : Dev) (n : Fin 8) (f : BilSlice → BilSlice) :
    (Dev.updBil d n f).control = d.control := by
  unfold Dev.updBil; dsimp only; simp only [↓Dev.control_mk]

theorem Dev.updKey_control (d : Dev) (k : Fin 64) (f : KeySlot → KeySlot) :
    (Dev.updKey d k f).control = d.control := by
  unfold Dev.updKey; dsimp only; simp only [↓Dev.control_mk]

theorem Dev.putFlag_control (d : Dev) (addr : Nat) (f : FlagReg) :
    (Dev.putFlag d addr f).control = d.control := by
  unfold Dev.putFlag; simp only [↓Dev.control_mk]

theorem Dev.raise_control (d : Dev) (g u off mask : Nat) :
    (Dev.raise d g u off mask).control = d.control := by
  unfold Dev.raise; simp only [Dev.putFlag_control]

theorem Dev.raiseKey_control (d : Dev) (b : Nat) :
    (Dev.raiseKey d b).control = d.control := by
  unfold Dev.raiseKey; simp only [Dev.raise_control]

theorem Dev.raiseImg_control (d : Dev) (b : Nat) :
    (Dev.raiseImg d b).control = d.control := by
  unfold Dev.raiseImg; simp only [Dev.raise_control]

theorem Dev.storeWrite_control (d : Dev) (addr : Nat) (bs : List Byte) :
    (Dev.storeWrite d addr bs).control = d.control := by
  unfold Dev.storeWrite; dsimp only; simp only [↓Dev.control_mk]

theorem Dev.tamper_control (d : Dev) (k : Fin 24) (sl : Option (Fin 8)) :
    (Dev.tamper d k sl).control = d.control := by
  unfold Dev.tamper; dsimp only; (repeat' split) <;> simp only [Dev.logEvent_control, Dev.updBil_control, ↓Dev.control_mk, foldl_control,
    implies_true]

theorem Dev.orphan_control (d : Dev) (k : Fin 64) :
    (Dev.orphan d k).control = d.control := by
  unfold Dev.orphan; (repeat' split) <;> simp only [Dev.raiseKey_control, Dev.updKey_control]

theorem Dev.exhaust_control (d : Dev) (k : Fin 64) :
    (Dev.exhaust d k).control = d.control := by
  unfold Dev.exhaust; dsimp only; (repeat' split) <;> simp only [Dev.raiseKey_control, Dev.updKey_control]

theorem Dev.useKey_control (d : Dev) (k : Fin 64) :
    (Dev.useKey d k).control = d.control := by
  unfold Dev.useKey; dsimp only; simp only [Dev.exhaust_control, Dev.updKey_control]

theorem Dev.expireKeys_control (d : Dev) :
    (Dev.expireKeys d).control = d.control := by
  unfold Dev.expireKeys; dsimp only; simp only [Dev.orphan_control, Dev.raiseKey_control, Dev.updKey_control, foldl_control, implies_true]

theorem Dev.putFw_control (d : Dev) (slot v : Nat) :
    (Dev.putFw d slot v).control = d.control := by
  unfold Dev.putFw; dsimp only; (repeat' split) <;> simp only [↓Dev.control_mk]

theorem Dev.setFw_control (d : Dev) (slot v : Nat) :
    (Dev.setFw d slot v).control = d.control := by
  unfold Dev.setFw; simp only [Dev.bootCommit_control, Dev.putFw_control]

theorem Dev.setArea_control (d : Dev) (area v : Nat) :
    (Dev.setArea d area v).control = d.control := by
  unfold Dev.setArea; dsimp only; (repeat' split) <;> simp only [↓Dev.control_mk]

theorem Dev.moveArea_control (d : Dev) (v w : Nat) :
    (Dev.moveArea d v w).control = d.control := by
  unfold Dev.moveArea; (repeat' split) <;> simp only [Dev.setArea_control]

theorem Dev.fallBack_control (d : Dev) (slot reason : Nat) :
    (Dev.fallBack d slot reason).control = d.control := by
  unfold Dev.fallBack; dsimp only; simp only [Dev.bootCommit_control, Dev.moveArea_control, Dev.putFw_control, Dev.raiseImg_control,
    Dev.tamper_control, ↓Dev.control_mk]

theorem Dev.storeCopy_control (d : Dev) (src dst n : Nat) :
    (Dev.storeCopy d src dst n).control = d.control := by
  unfold Dev.storeCopy; dsimp only; simp only [↓Dev.control_mk]

theorem Dev.areaHeader_control (d : Dev) (area : Nat) :
    (Dev.areaHeader d area).control = d.control := by
  unfold Dev.areaHeader; dsimp only; simp only [Dev.storeWrite_control, ↓Dev.control_mk]

theorem Dev.prepareArea_control (d : Dev) (slot : Nat) :
    (Dev.prepareArea d slot).control = d.control := by
  unfold Dev.prepareArea; dsimp only; (repeat' split) <;> simp only [Dev.areaHeader_control, Dev.setArea_control, Dev.storeCopy_control,
    ↓Dev.control_mk]

theorem Dev.romPrepare_control (d : Dev) :
    (Dev.romPrepare d).control = d.control := by
  unfold Dev.romPrepare; dsimp only; (repeat' split) <;> simp only [Dev.bootCommit_control, Dev.fallBack_control,
    Dev.prepareArea_control, Dev.putFw_control, Dev.raiseImg_control, Dev.readBoot_control, ↓Dev.control_mk]

/-! The parts that the selection of a firmware slot leaves (R478). -/

theorem Dev.takeBoot_part {pt : Part} (himg : pt ≠ .img) (d : Dev) (r : BootRec) :
    (Dev.takeBoot d r).part pt = d.part pt := by
  unfold Dev.takeBoot; dsimp only; simp only [↓Dev.part_mk_img himg]

theorem Dev.readBoot_part {pt : Part} (himg : pt ≠ .img) (hsto : pt ≠ .sto) (d : Dev) :
    (Dev.readBoot d).part pt = d.part pt := by
  unfold Dev.readBoot; dsimp only; (repeat' split) <;> simp only [Dev.bootCommit_part himg hsto, Dev.takeBoot_part himg, ↓Dev.part_mk]

theorem Dev.expireKeys_part {pt : Part} (hkey : pt ≠ .key) (d : Dev) :
    (Dev.expireKeys d).part pt = d.part pt := by
  unfold Dev.expireKeys; dsimp only; simp only [Dev.orphan_part hkey, Dev.raiseKey_part, Dev.updKey_part hkey, foldl_part, implies_true]

theorem Dev.putFw_part {pt : Part} (himg : pt ≠ .img) (d : Dev) (slot v : Nat) :
    (Dev.putFw d slot v).part pt = d.part pt := by
  unfold Dev.putFw; dsimp only; (repeat' split) <;> simp only [↓Dev.part_mk_img himg]

theorem Dev.setFw_part {pt : Part} (himg : pt ≠ .img) (hsto : pt ≠ .sto) (d : Dev) (slot v : Nat) :
    (Dev.setFw d slot v).part pt = d.part pt := by
  unfold Dev.setFw; simp only [Dev.bootCommit_part himg hsto, Dev.putFw_part himg]

theorem Dev.setArea_part {pt : Part} (himg : pt ≠ .img) (d : Dev) (area v : Nat) :
    (Dev.setArea d area v).part pt = d.part pt := by
  unfold Dev.setArea; dsimp only; (repeat' split) <;> simp only [↓Dev.part_mk_img himg]

theorem Dev.moveArea_part {pt : Part} (himg : pt ≠ .img) (d : Dev) (v w : Nat) :
    (Dev.moveArea d v w).part pt = d.part pt := by
  unfold Dev.moveArea; (repeat' split) <;> simp only [Dev.setArea_part himg]

theorem Dev.fallBack_part {pt : Part} (himg : pt ≠ .img) (hbil : pt ≠ .bil) (hsto : pt ≠ .sto) (d : Dev) (slot reason : Nat) :
    (Dev.fallBack d slot reason).part pt = d.part pt := by
  unfold Dev.fallBack; dsimp only; simp only [Dev.bootCommit_part himg hsto, Dev.moveArea_part himg, Dev.putFw_part himg,
    Dev.raiseImg_part, Dev.tamper_part hbil, ↓Dev.part_mk_img himg]

theorem Dev.storeCopy_part {pt : Part} (hsto : pt ≠ .sto) (d : Dev) (src dst n : Nat) :
    (Dev.storeCopy d src dst n).part pt = d.part pt := by
  unfold Dev.storeCopy; dsimp only; simp only [↓Dev.part_mk_sto hsto]

theorem Dev.areaHeader_part {pt : Part} (hsto : pt ≠ .sto) (d : Dev) (area : Nat) :
    (Dev.areaHeader d area).part pt = d.part pt := by
  unfold Dev.areaHeader; dsimp only; simp only [Dev.storeWrite_part hsto, ↓Dev.part_mk]

theorem Dev.prepareArea_part {pt : Part} (himg : pt ≠ .img) (hsto : pt ≠ .sto) (d : Dev) (slot : Nat) :
    (Dev.prepareArea d slot).part pt = d.part pt := by
  unfold Dev.prepareArea; dsimp only; (repeat' split) <;> simp only [Dev.areaHeader_part hsto, Dev.setArea_part himg,
    Dev.storeCopy_part hsto, ↓Dev.part_mk_img himg]

theorem Dev.romPrepare_part {pt : Part} (himg : pt ≠ .img) (hbil : pt ≠ .bil) (hsto : pt ≠ .sto) (d : Dev) :
    (Dev.romPrepare d).part pt = d.part pt := by
  unfold Dev.romPrepare; dsimp only; (repeat' split) <;> simp only [Dev.bootCommit_part himg hsto, Dev.fallBack_part himg hbil hsto,
    Dev.prepareArea_part himg hsto, Dev.putFw_part himg, Dev.raiseImg_part, Dev.readBoot_part himg hsto, ↓Dev.part_mk_img himg]

/-- What the steps of the selection leave, the selection leaves (R478). -/
theorem Dev.romSelect_keeps {α : Type} (f : Dev → α) (himg : ∀ (d : Dev) (i : ImgState), f { d with img := i } = f d)
    (hraise : ∀ d b, f (Dev.raiseImg d b) = f d) (huse : ∀ d, f (Dev.useKey d 4) = f d) (hset : ∀ d s v, f (Dev.setFw d s v) = f d)
    (hfall : ∀ d s r, f (Dev.fallBack d s r) = f d) (hboot : ∀ d, f (Dev.bootCommit d) = f d) (k : Nat) :
    ∀ d : Dev, f (Dev.romSelect k d) = f d := by
  induction k with
  | zero => exact fun _ => rfl
  | succ k ih =>
    intro d
    unfold Dev.romSelect
    split
    · exact (hraise _ 4).trans (himg d _)
    extract_lets d1 st d2
    have h1 : f d1 = f d := by
      unfold d1
      split
      · exact huse d
      · rfl
    have h2 : f d2 = f d := by
      unfold d2
      split
      · exact (hset ..).trans h1
      · exact h1
    split
    · exact (hboot _).trans ((himg d2 _).trans h2)
    split
    · exact (ih _).trans ((hfall ..).trans h1)
    · exact (ih _).trans ((hset ..).trans h1)

theorem Dev.romSelect_control (k : Nat) (d : Dev) : (Dev.romSelect k d).control = d.control :=
  Dev.romSelect_keeps Dev.control (fun _ _ => rfl) Dev.raiseImg_control (fun d => Dev.useKey_control d 4) Dev.setFw_control
    Dev.fallBack_control Dev.bootCommit_control k d

theorem Dev.romSelect_pwr (k : Nat) (d : Dev) : (Dev.romSelect k d).pwr = d.pwr :=
  Dev.romSelect_keeps Dev.pwr (fun _ _ => rfl) (fun _ _ => rfl) (fun d => Dev.useKey_part (pt := .pwr) (by decide) d 4)
    (fun d s v => Dev.setFw_part (pt := .pwr) (by decide) (by decide) d s v)
    (fun d s r => Dev.fallBack_part (pt := .pwr) (by decide) (by decide) (by decide) d s r)
    (fun d => Dev.bootCommit_part (pt := .pwr) (by decide) (by decide) d) k d

/-! ### The dies held (R515, R517) -/

/-- A reset of the dies opens every contactor driver and switches every load switch off. -/
theorem Dev.cleared_open (d : Dev) : (∀ n : Fin 8, (d.cleared.kao.m[n]).ken = false) ∧ ∀ c : Fin 16, (d.cleared.lsw.c[c]).st = .off := by
  refine ⟨fun n => ?_, fun c => ?_⟩
  · simp [Dev.cleared]
  · simp [Dev.cleared]

theorem Dev.endSession_tag (d : Dev) (cause : Nat) : (d.endSession cause).tag.sess = none ∧
    (d.endSession cause).tag.store = d.tag.store := by
  unfold Dev.endSession
  split
  · next h => exact ⟨h, rfl⟩
  · extract_lets src d1 d2
    have h2 : d2.tag = d1.tag := by
      unfold d2
      split
      · exact Dev.count_part (pt := .tag) ..
      · rfl
    have h3 : ((d2.svcEvent 3 cause).raiseTag 3).tag = d1.tag := (Dev.svcEvent_part (pt := .tag) (by decide) ..).trans h2
    exact ⟨congrArg TagState.sess h3, (congrArg TagState.store h3).trans rfl⟩

/-- What a Silt reset of held dies leaves (R510, R520). -/
theorem Dev.siltReset_held {d : Dev} (h : d.pwr.held = true) : d.siltReset.key.share = none ∧ d.siltReset.tim.rtcValid = false ∧
    d.siltReset.bil.siltPtr = none ∧ d.siltReset.tag.keyCopy = none ∧ d.siltReset.tag.sess = none ∧ d.siltReset.pwr.siltReset = true ∧
    d.siltReset.tag.store = d.tag.store := by
  have heq : d.siltReset = _ := if_pos h
  obtain ⟨hsess, hstore⟩ := d.expireKeys.endSession_tag 5
  have htag : d.expireKeys.tag = d.tag := Dev.expireKeys_part (pt := .tag) (by decide) ..
  rw [htag] at hstore
  rw [heq]
  exact ⟨rfl, rfl, rfl, rfl, hsess, rfl, hstore⟩

/-- A Silt reset leaves Kaolin, the load switches and the retained store, and the dies held since the same time. -/
theorem Dev.siltReset_keeps (d : Dev) : d.siltReset.kao = d.kao ∧ d.siltReset.lsw = d.lsw ∧ d.siltReset.sto = d.sto ∧
    d.siltReset.pwr.held = d.pwr.held ∧ d.siltReset.pwr.tOff = d.pwr.tOff := by
  unfold Dev.siltReset
  split
  · extract_lets d1
    have h1 : ∀ pt, pt ≠ .que → pt ≠ .key → pt ≠ .tag → d1.part pt = d.part pt := fun pt hq hk ht =>
      (Dev.endSession_part hq ht ..).trans (Dev.expireKeys_part hk ..)
    have hp : d1.pwr = d.pwr := h1 .pwr (by decide) (by decide) (by decide)
    exact ⟨h1 .kao (by decide) (by decide) (by decide), h1 .lsw (by decide) (by decide) (by decide),
      h1 .sto (by decide) (by decide) (by decide), (congrArg PwrState.held hp :), (congrArg PwrState.tOff hp :)⟩
  · exact ⟨rfl, rfl, rfl, rfl, rfl⟩

/-- The dies of a device held by the power-on reset, before a Silt reset. -/
def Dev.powerHeld (d : Dev) : Dev :=
  { d.cleared with
    pwr := { d.cleared.pwr with held := true, tOff := some d.el }
    tag := { d.cleared.tag with supply := if d.pwr.siltPresent then 1 else 2 } }

theorem powerOnReset_holds {s : State} (h : s.dev.pwr.held = false) :
    ∃ t, exec .powerOnReset s = .next t ∧ t.dev.pwr.held = true ∧ t.dev.pwr.tOff = some s.dev.tim.elapsed ∧
      (∀ n : Fin 8, (t.dev.kao.m[n]).ken = false) ∧ (∀ c : Fin 16, (t.dev.lsw.c[c]).st = .off) ∧
      t.dev.sto.mram = s.dev.sto.mram ∧ t.dev.kao.cellA = s.dev.kao.cellA ∧ t.dev.kao.cellB = s.dev.kao.cellB ∧
      t.dev.tag.store = s.dev.tag.store ∧
      (s.dev.pwr.siltGone = false → t.dev.tim.rtc = s.dev.tim.rtc ∧ t.dev.tim.rtcValid = s.dev.tim.rtcValid ∧
        t.dev.key.share = s.dev.key.share ∧ t.dev.log = s.dev.log) ∧
      (s.dev.pwr.siltGone = true → t.dev.tim.rtcValid = false ∧ t.dev.key.share = none ∧ t.dev.pwr.siltReset = true) := by
  have heq : s.dev.powerOnReset = if s.dev.pwr.siltGone then s.dev.powerHeld.siltReset else s.dev.powerHeld := if_neg (by rw [h]; decide)
  obtain ⟨hken, hoff⟩ := s.dev.cleared_open
  have hken2 : ∀ n : Fin 8, (s.dev.powerHeld.kao.m[n]).ken = false := hken
  have hoff2 : ∀ c : Fin 16, (s.dev.powerHeld.lsw.c[c]).st = .off := hoff
  cases hg : s.dev.pwr.siltGone with
  | false =>
    rw [hg] at heq
    exact ⟨s.put s.dev.powerHeld, next_put heq, rfl, rfl, hken2, hoff2, rfl, rfl, rfl, rfl, fun _ => ⟨rfl, rfl, rfl, rfl⟩, nofun⟩
  | true =>
    rw [hg, if_pos rfl] at heq
    obtain ⟨hkao, hlsw, hsto, hheld, htoff⟩ := s.dev.powerHeld.siltReset_keeps
    obtain ⟨hshare, hrtc, -, -, -, hsilt, hstore⟩ := Dev.siltReset_held (d := s.dev.powerHeld) rfl
    refine ⟨s.put s.dev.powerHeld.siltReset, next_put heq, hheld, htoff, ?_, ?_, (congrArg StoState.mram hsto :),
      (congrArg KaoState.cellA hkao :), (congrArg KaoState.cellB hkao :), hstore, nofun, fun _ => ⟨hrtc, hshare, hsilt⟩⟩
    · exact fun n => (congrArg (fun k : KaoState => (k.m[n]).ken) hkao).trans (hken2 n)
    · exact fun c => (congrArg (fun l : LswState => (l.c[c]).st) hlsw).trans (hoff2 c)

theorem brownoutReset_holds {s : State} (h : s.dev.brownoutDue = true) :
    ∃ t, exec .brownoutReset s = .next t ∧ t.dev.pwr.held = true ∧ t.dev.bil.tail = s.dev.updateTail.bil.tail ∧
      (∀ n : Fin 8, (t.dev.kao.m[n]).ken = false) ∧ (∀ c : Fin 16, (t.dev.lsw.c[c]).st = .off) ∧
      t.dev.sto.mram = s.dev.sto.mram ∧ t.dev.kao.cellA = s.dev.kao.cellA ∧ t.dev.kao.cellB = s.dev.kao.cellB := by
  have htail : s.dev.updateTail.sto = s.dev.sto ∧ s.dev.updateTail.kao = s.dev.kao := by
    unfold Dev.updateTail
    split <;> exact ⟨rfl, rfl⟩
  obtain ⟨hsto, hkao⟩ := htail
  obtain ⟨hken, hoff⟩ := s.dev.updateTail.cleared_open
  exact ⟨_, next_put (if_pos h), rfl, rfl, hken, hoff, (congrArg StoState.mram hsto :), (congrArg KaoState.cellA hkao :),
    (congrArg KaoState.cellB hkao :)⟩

theorem siltReset_loses {s : State} (h : s.dev.pwr.held = true) :
    ∃ t, exec .siltReset s = .next t ∧ t.dev.key.share = none ∧ t.dev.tim.rtcValid = false ∧ t.dev.bil.siltPtr = none ∧
      t.dev.tag.keyCopy = none ∧ t.dev.tag.sess = none ∧ t.dev.pwr.siltReset = true ∧
      t.dev.tag.store = s.dev.tag.store ∧ t.dev.sto.mram = s.dev.sto.mram := by
  obtain ⟨h1, h2, h3, h4, h5, h6, h7⟩ := Dev.siltReset_held h
  obtain ⟨-, -, hsto, -, -⟩ := s.dev.siltReset_keeps
  exact ⟨s.put s.dev.siltReset, next_put rfl, h1, h2, h3, h4, h5, h6, h7, (congrArg StoState.mram hsto :)⟩

/-! ### The warm reset (R113, R477, R520) -/

theorem Dev.stopReader_control (d : Dev) : d.stopReader.control = d.control := rfl

/-- The registers of the core's views, cleared by a warm reset. -/
theorem Dev.warmClear_control (d : Dev) : d.warmClear.coreA1 = false ∧ d.warmClear.reply = d.reply ∧
    d.warmClear.views = d.views.filter fun (e : Nat × Word) => 2 ≤ e.1 / 0x100000000 := by
  unfold Dev.warmClear
  extract_lets d1 d2
  have h2 : (if d2.tag.rdr.st = FuncState.off then d2 else d2.stopReader).control = d1.control := by
    split <;> rfl
  have h3 := (Dev.expireKeys_control (if d2.tag.rdr.st = FuncState.off then d2 else d2.stopReader)).trans h2
  exact ⟨congrArg (·.1) h3, congrArg (·.2.2.2.1) h3, congrArg (·.2.2.2.2) h3⟩

/-- What the selection of a slot after the clearing leaves of a warm reset (R477, R520). -/
theorem Dev.warmReset_leaves (d : Dev) (cause : Nat) : (d.warmReset cause).coreA1 = false ∧ (d.warmReset cause).reply = d.reply ∧
    (d.warmReset cause).views = (d.views.filter fun (e : Nat × Word) => 2 ≤ e.1 / 0x100000000) ∧
    (d.warmReset cause).pwr.warmKind = true ∧ (d.warmReset cause).pwr.warmCause = cause ∧ (d.warmReset cause).pwr.warmDue = none := by
  unfold Dev.warmReset
  extract_lets d1 pwr img d2
  obtain ⟨hA1, hreply, hviews⟩ := d.warmClear_control
  have hc : (Dev.romSelect 4 d2.romPrepare).control = d1.control := (Dev.romSelect_control 4 _).trans (Dev.romPrepare_control d2)
  have hp : (Dev.romSelect 4 d2.romPrepare).pwr = d2.pwr :=
    (Dev.romSelect_pwr 4 _).trans (Dev.romPrepare_part (pt := .pwr) (by decide) (by decide) (by decide) d2)
  exact ⟨(congrArg (·.1) hc).trans hA1, (congrArg (·.2.2.2.1) hc).trans hreply, (congrArg (·.2.2.2.2) hc).trans hviews,
    congrArg PwrState.warmKind hp, congrArg PwrState.warmCause hp, congrArg PwrState.warmDue hp⟩

theorem RegFile.find_none_of_keys {r : RegFile} {k : Nat} (h : ∀ e ∈ r, e.1 ≠ k) : r.find k = none := by
  induction r with
  | nil => rfl
  | cons e r ih =>
    have hne : e.1 ≠ k := h e List.mem_cons_self
    exact (if_neg hne).trans (ih fun x hx => h x (List.mem_cons_of_mem e hx))

/-- The views of the core's agents hold nothing once their words are gone. -/
theorem Dev.view_gone {d : Dev} {v : RegFile} (h : d.views = v.filter fun (e : Nat × Word) => 2 ≤ e.1 / 0x100000000) {ag : Agent}
    (hag : agentNum ag < 2) {a : Nat} (ha : a < 2 ^ 32) : d.view ag a = 0 := by
  unfold Dev.view viewKey
  rw [h, RegFile.find_none_of_keys fun e he hk => ?_]
  · rfl
  · have h2 : 2 ≤ e.1 / 0x100000000 := by simpa using (List.mem_filter.1 he).2
    omega

theorem warmReset_command {ag : Agent} {s : State} (hready : s.dev.ready ag 0 0xFF) :
    ∃ t, exec (.warmReset ag 0) s = .next t ∧ t = s.put (((s.dev.askReset 1).completed ag 0 0x18).warmReset 1) ∧
      t.dev.reply.status = 0 ∧ t.dev.coreA1 = false ∧ t.dev.pwr.warmKind = true ∧ t.dev.pwr.warmCause = 1 ∧
      t.dev.pwr.warmDue = none ∧ ∀ a, a < 2 ^ 32 → t.dev.view .boot a = 0 ∧ t.dev.view .core a = 0 := by
  have hrun : (issueCommand ag 0 0x18 0 0xFF (warmResetCmd 0) s.dev).settleReset = ((s.dev.askReset 1).completed ag 0 0x18).warmReset 1 := by
    rw [issueCommand_ok hready (if_pos rfl)]
    have hdue : ((s.dev.askReset 1).completed ag 0 0x18).pwr.warmDue = some 1 := congrArg PwrState.warmDue (Dev.completed_pwr ..)
    generalize (s.dev.askReset 1).completed ag 0 0x18 = e at hdue ⊢
    unfold Dev.settleReset
    rw [hdue]
  obtain ⟨hA1, hreply, hviews, hkind, hcause, hdue⟩ := Dev.warmReset_leaves ((s.dev.askReset 1).completed ag 0 0x18) 1
  generalize ((s.dev.askReset 1).completed ag 0 0x18).warmReset 1 = w at *
  refine ⟨_, next_put hrun, rfl, ?_, hA1, hkind, hcause, hdue, fun a ha =>
    ⟨Dev.view_gone hviews (by decide) ha, Dev.view_gone hviews (by decide) ha⟩⟩
  exact congrArg Reply.status hreply

/-- Settles O11. -/
theorem dieResets : Obligations.DieResets :=
  ⟨⟨fun _ => powerOnReset_holds, fun _ => brownoutReset_holds⟩, fun _ => siltReset_loses, fun _ _ => warmReset_command⟩

end Sys2Proof.Machine
end

section
/-! SUPPORT. The load-switch layer: what each operation does to a channel, and that it changes nothing but channels. -/

namespace Sys2Proof.Machine

/-! ### Channels -/

/-- Channel `c`. -/
def Dev.lswAt (d : Dev) (c : Fin 16) : LswChan := d.lsw.c[c]

theorem Dev.updLsw_lswAt (d : Dev) (c b : Fin 16) (f : LswChan → LswChan) :
    (d.updLsw c f).lswAt b = if b = c then f (d.lswAt c) else d.lswAt b := Dev.updLsw_at d c b f

@[simp] theorem Dev.updLsw_lswAt_self (d : Dev) (c : Fin 16) (f : LswChan → LswChan) :
    (d.updLsw c f).lswAt c = f (d.lswAt c) := (d.updLsw_lswAt c c f).trans (if_pos rfl)

theorem Dev.updLsw_lswAt_ne {d : Dev} {c b : Fin 16} {f : LswChan → LswChan} (h : b ≠ c) :
    (d.updLsw c f).lswAt b = d.lswAt b := (d.updLsw_lswAt c b f).trans (if_neg h)

theorem Dev.lswAt_of_lsw {d e : Dev} (h : e.lsw = d.lsw) (c : Fin 16) : e.lswAt c = d.lswAt c :=
  congrArg (fun x : LswState => x.c[c]) h

@[simp] theorem Dev.raise_lswAt (d : Dev) (g u off mask : Nat) (c : Fin 16) : (d.raise g u off mask).lswAt c = d.lswAt c :=
  Dev.lswAt_of_lsw (d.raise_lsw g u off mask) c

@[simp] theorem Dev.raiseLsw_lswAt (d : Dev) (b : Nat) (c : Fin 16) : (d.raiseLsw b).lswAt c = d.lswAt c := Dev.raise_lswAt ..

@[simp] theorem Dev.count_lswAt (d : Dev) (g u off hi lo k : Nat) (c : Fin 16) : (d.count g u off hi lo k).lswAt c = d.lswAt c :=
  Dev.lswAt_of_lsw (d.count_lsw g u off hi lo k) c

/-! ### Operations that change channels only -/

/-- From `d` to `e` nothing changed but channels. -/
def Dev.OnlyChans (d e : Dev) : Prop := e = { d with lsw := { d.lsw with c := e.lsw.c } }

theorem Dev.OnlyChans.rfl {d : Dev} : d.OnlyChans d := Eq.refl d

theorem Dev.OnlyChans.trans {d e f : Dev} (h : d.OnlyChans e) (k : e.OnlyChans f) : d.OnlyChans f := by
  unfold Dev.OnlyChans at h k ⊢
  rw [k, h]

theorem Dev.updLsw_only (d : Dev) (c : Fin 16) (f : LswChan → LswChan) : d.OnlyChans (d.updLsw c f) := Eq.refl _

theorem Dev.onlyChans_ite {p : Prop} [Decidable p] {d a b : Dev} (ha : d.OnlyChans a) (hb : d.OnlyChans b) :
    d.OnlyChans (if p then a else b) := by
  split
  · exact ha
  · exact hb

theorem Dev.lswInrush_only (d : Dev) (c : Fin 16) : d.OnlyChans (d.lswInrush c) := Dev.updLsw_only ..

theorem Dev.lswOff_only (d : Dev) (c : Fin 16) : d.OnlyChans (d.lswOff c) := Dev.updLsw_only ..

theorem Dev.lswResume_only (d : Dev) (c : Fin 16) : d.OnlyChans (d.lswResume c) :=
  Dev.onlyChans_ite (d.lswInrush_only c) (d.lswOff_only c)

theorem Dev.releaseHeld_only (g : Fin 4) (k : Nat) (d : Dev) : d.OnlyChans (Dev.releaseHeld g k d) := by
  induction k generalizing d with
  | zero => exact .rfl
  | succ k ih =>
    unfold Dev.releaseHeld
    refine Dev.onlyChans_ite .rfl ?_
    split
    · exact .rfl
    · exact (d.lswResume_only _).trans (ih _)

theorem Dev.lswSettle_only (d : Dev) (c : Fin 16) : d.OnlyChans (d.lswSettle c) := Dev.releaseHeld_only ..

theorem Dev.lswDemand_only (d : Dev) (c : Fin 16) (on : Bool) : d.OnlyChans (d.lswDemand c on) := by
  have h1 : d.OnlyChans (d.updLsw c fun y => { y with demand := on }) := Dev.updLsw_only ..
  unfold Dev.lswDemand
  exact Dev.onlyChans_ite .rfl (Dev.onlyChans_ite (Dev.onlyChans_ite (h1.trans (Dev.lswInrush_only ..)) h1)
    (Dev.onlyChans_ite ((h1.trans (Dev.lswOff_only ..)).trans (Dev.lswSettle_only ..))
      (Dev.onlyChans_ite (h1.trans (Dev.lswOff_only ..)) h1)))

theorem Dev.followLimp_only (d : Dev) (c : Fin 16) : d.OnlyChans (d.followLimp c) :=
  Dev.onlyChans_ite (d.lswDemand_only ..) .rfl

theorem Dev.foldl_onlyChans {α : Type} {f : Dev → α → Dev} (hf : ∀ (e : Dev) a, e.OnlyChans (f e a)) (l : List α) (d : Dev) :
    d.OnlyChans (l.foldl f d) := by
  induction l generalizing d with
  | nil => exact .rfl
  | cons a l ih => exact (hf d a).trans (ih _)

/-! ### A retry that is released (R342) -/

theorem Dev.firstHeld_mem {d : Dev} {g : Fin 4} {c : Fin 16} (h : d.firstHeld g = some c) :
    c ∈ (groupChannels g).filter fun c => d.lsw.c[c].hold := by
  have hfold : ∀ (l : List (Fin 16)) (a : Option (Fin 16)),
      l.foldl (fun acc c => match acc with
        | none => some c
        | some a => some (d.earlier a c)) a = some c → a = some c ∨ c ∈ l := by
    intro l
    induction l with
    | nil => exact fun a ha => .inl ha
    | cons b l ih =>
      intro a ha
      rcases ih _ ha with hb | hb
      · cases a with
        | none => exact .inr (by simp_all)
        | some a =>
          simp only [Option.some.injEq, Dev.earlier] at hb
          split at hb
          · exact .inr (by simp [hb])
          · exact .inl (by rw [hb])
      · exact .inr (List.mem_cons_of_mem _ hb)
  exact (hfold _ none h).resolve_left nofun

theorem Dev.firstHeld_hold {d : Dev} {g : Fin 4} {c : Fin 16} (h : d.firstHeld g = some c) : (d.lswAt c).hold = true :=
  (List.mem_filter.mp (Dev.firstHeld_mem h)).2

theorem mem_groupChannels {g : Fin 4} {c : Fin 16} : c ∈ groupChannels g ↔ lswGroup c = g := by
  simp [groupChannels, lswGroup, Fin.ext_iff]

theorem Dev.firstHeld_group {d : Dev} {g : Fin 4} {c : Fin 16} (h : d.firstHeld g = some c) : lswGroup c = g :=
  mem_groupChannels.mp (List.mem_filter.mp (Dev.firstHeld_mem h)).1

theorem Dev.lswInrush_lswAt_ne {d : Dev} {c b : Fin 16} (h : b ≠ c) : (d.lswInrush c).lswAt b = d.lswAt b := Dev.updLsw_lswAt_ne h

theorem Dev.lswOff_lswAt_ne {d : Dev} {c b : Fin 16} (h : b ≠ c) : (d.lswOff c).lswAt b = d.lswAt b := Dev.updLsw_lswAt_ne h

theorem Dev.lswResume_lswAt_ne {d : Dev} {c b : Fin 16} (h : b ≠ c) : (d.lswResume c).lswAt b = d.lswAt b := by
  unfold Dev.lswResume
  split
  · exact Dev.lswInrush_lswAt_ne h
  · exact Dev.lswOff_lswAt_ne h

/-- Only a retry that waits is released. -/
theorem Dev.releaseHeld_lswAt {g : Fin 4} {b : Fin 16} (k : Nat) (d : Dev) (h : (d.lswAt b).hold = false ∨ lswGroup b ≠ g) :
    (Dev.releaseHeld g k d).lswAt b = d.lswAt b := by
  induction k generalizing d with
  | zero => rfl
  | succ k ih =>
    unfold Dev.releaseHeld
    split
    · rfl
    · split
      · rfl
      case _ c hc =>
        have hne : b ≠ c := by
          rintro rfl
          rcases h with h | h
          · exact absurd (Dev.firstHeld_hold hc) (by rw [h]; decide)
          · exact h (Dev.firstHeld_group hc)
        have he : (d.lswResume c).lswAt b = d.lswAt b := Dev.lswResume_lswAt_ne hne
        exact (ih _ (he.symm ▸ h)).trans he

theorem Dev.lswSettle_lswAt {d : Dev} {c b : Fin 16} (h : (d.lswAt b).hold = false) : (d.lswSettle c).lswAt b = d.lswAt b :=
  Dev.releaseHeld_lswAt 4 d (.inl h)

theorem Dev.lswSettle_flags (d : Dev) (c : Fin 16) : (d.lswSettle c).flags = d.flags := by rw [d.lswSettle_only c]

/-! ### A channel that rests -/

/-- The channel is off, waits or is latched, and no released retry can move it: it keeps its state, reason and retries,
whatever its demand does. -/
def LswChan.rests (x y : LswChan) : Prop :=
  x.st.driven = false ∧ x.st ≠ .off ∧ x.hold = false ∧ y = { x with demand := y.demand }

/-- The demand of a channel moves no other one, but a retry of its group that waits. -/
theorem Dev.lswDemand_lswAt {d : Dev} {b c : Fin 16} (hb : c ≠ b) (hh : (d.lswAt c).hold = false ∨ lswGroup c ≠ lswGroup b)
    (on : Bool) : (d.lswDemand b on).lswAt c = d.lswAt c := by
  unfold Dev.lswDemand
  extract_lets x d1
  have h1 : d1.lswAt c = d.lswAt c := Dev.updLsw_lswAt_ne hb
  have h2 : (d1.lswOff b).lswAt c = d.lswAt c := (Dev.lswOff_lswAt_ne hb).trans h1
  split
  · rfl
  · split
    · split
      · exact (Dev.lswInrush_lswAt_ne hb).trans h1
      · exact h1
    · split
      · exact (Dev.releaseHeld_lswAt 4 _ (by rw [h2]; exact hh)).trans h2
      · split
        · exact h2
        · exact h1

theorem Dev.lswDemand_rests {d : Dev} {c : Fin 16} {x : LswChan} (h : x.rests (d.lswAt c)) (b : Fin 16) (on : Bool) :
    x.rests ((d.lswDemand b on).lswAt c) := by
  have hrests := h
  obtain ⟨hdr, hoff, hhold, hx⟩ := h
  have hst : d.lsw.c[c].st = x.st := (congrArg LswChan.st hx :)
  have hh : d.lsw.c[c].hold = false := (congrArg LswChan.hold hx :).trans hhold
  by_cases hb : c = b
  · subst hb
    have h1 : x.rests ((d.updLsw c fun y => { y with demand := on }).lswAt c) :=
      ⟨hdr, hoff, hhold, by rw [Dev.updLsw_lswAt_self, hx]⟩
    unfold Dev.lswDemand
    extract_lets y d1
    split
    · exact hrests
    · split
      · rw [if_neg (by rw [show y.st = x.st from hst]; exact hoff)]
        exact h1
      · rw [if_neg (by rw [show y.st = x.st from hst, hdr]; decide), if_neg (by rw [show y.hold = false from hh]; decide)]
        exact h1
  · rw [Dev.lswDemand_lswAt hb (.inl hh)]
    exact hrests

theorem Dev.evcDemand_rests {d : Dev} {c : Fin 16} {x : LswChan} (h : x.rests (d.lswAt c)) (b : Fin 16) (on : Bool) :
    x.rests ((d.evcDemand b on).lswAt c) := by
  unfold Dev.evcDemand
  split
  · exact h
  · exact Dev.lswDemand_rests h b on

theorem Dev.setLock_rests {d : Dev} {c : Fin 16} {x : LswChan} (h : x.rests (d.lswAt c)) (n : Fin 8) (on : Bool) :
    x.rests ((d.setLock n on).lswAt c) := by
  unfold Dev.setLock
  generalize d.lockChannels n.val = l
  show x.rests ((l.foldl (fun acc c => acc.evcDemand c on) d).lswAt c)
  induction l generalizing d with
  | nil => exact h
  | cons b l ih => exact ih (Dev.evcDemand_rests h b on)

theorem Dev.goFault_rests {d : Dev} {c : Fin 16} {x : LswChan} (h : x.rests (d.lswAt c)) (n : Fin 8) (reason : Nat) :
    x.rests ((d.goFault n reason).lswAt c) := by
  unfold Dev.goFault
  split
  · exact h
  · extract_lets d1 d2
    have h1 : x.rests (d1.lswAt c) := Dev.evcDemand_rests h (coil n) false
    have hsame : d2.lswAt c = d1.lswAt c :=
      Dev.lswAt_of_lsw (Dev.goSess_part (pt := .lsw) (by decide) (by decide) (d1.updEvc n _) n .fault) c
    have h2 : x.rests (d2.lswAt c) := by rw [hsame]; exact h1
    split
    · exact h2
    · exact Dev.setLock_rests h2 n false

end Sys2Proof.Machine
end

section
/-! SUPPORT. The life of a load-switch channel (O43). -/

namespace Sys2Proof.Machine

/-! ### A protective turn-off -/

theorem Dev.lswSettle_flag {d : Dev} {g u off b : Nat} (h : d.flagBit g u off b = true) (c : Fin 16) :
    (d.lswSettle c).flagBit g u off b = true := by
  unfold Dev.flagBit Dev.flagReg at h ⊢
  rw [d.lswSettle_flags c]
  exact h

theorem LswChan.rests_of_eq {x y : LswChan} (hy : y = x) (hdr : x.st.driven = false) (hoff : x.st ≠ .off) (hh : x.hold = false) :
    x.rests y := by
  subst hy
  exact ⟨hdr, hoff, hh, rfl⟩

theorem Dev.contactorFailed_rests {d d1 : Dev} {c : Fin 16} {x : LswChan} (h : x.rests (d1.lswAt c)) :
    x.rests ((d.contactorFailed d1 c).lswAt c) := by
  unfold Dev.contactorFailed
  split
  · split
    · exact Dev.goFault_rests h _ 18
    · exact h
  · exact h

theorem Dev.contactorFailed_flag {d d1 : Dev} {g u off b : Nat} (hb : b < 16) (h : d1.flagBit g u off b = true) (c : Fin 16) :
    (d.contactorFailed d1 c).flagBit g u off b = true := by
  unfold Dev.contactorFailed
  split
  · split
    · exact Dev.goFault_flag hb h 18
    · exact h
  · exact h

/-- A channel that was not driven fails no contactor. -/
theorem Dev.contactorFailed_of_off {d : Dev} {c : Fin 16} (h : (d.lswAt c).st.driven = false) (d1 : Dev) :
    d.contactorFailed d1 c = d1 := by
  unfold Dev.contactorFailed
  split
  · exact if_neg (by rw [show d.lsw.c[c].st.driven = false from h]; simp)
  · rfl

/-- What a protective turn-off leaves, its retries not used up (R341). -/
def Dev.backedOff (d : Dev) (c : Fin 16) (reason : Nat) : LswChan :=
  { d.lswAt c with
    st := .backoff, reason := reason, used := (d.lswAt c).used + 1, since := d.el
    backoffEnd := d.el + backoffNs (d.rfld 7 c.val 4 7 0) ((d.lswAt c).used + 1) }

theorem Dev.protectOff_backoff {d : Dev} {c : Fin 16} (h : (d.lswAt c).hold = false)
    (hu : (d.lswAt c).used < d.rfld 7 c.val 0 7 4) {reason : Nat} (hr : 0 < reason ∧ reason < 3) :
    (d.protectOff c reason).lswAt c = d.backedOff c reason ∧ (d.protectOff c reason).flagBit 7 0x10 8 (reason - 1) = true := by
  unfold Dev.protectOff
  extract_lets x d1 d2
  have hd2 : d2 = (d1.raiseLsw (reason - 1)).updLsw c fun x =>
      { x with
        st := .backoff, reason := reason, used := x.used + 1, since := d.el
        backoffEnd := d.el + backoffNs (d.rfld 7 c.val 4 7 0) (x.used + 1) } := if_pos hu
  have hc : d2.lswAt c = d.backedOff c reason := by
    rw [hd2, Dev.updLsw_lswAt_self, Dev.raiseLsw_lswAt, show d1.lswAt c = d.lswAt c from Dev.count_lswAt ..]
    rfl
  have hf : d2.flagBit 7 0x10 8 (reason - 1) = true := by
    rw [hd2]
    obtain rfl | rfl : reason = 1 ∨ reason = 2 := by omega
    · exact Dev.flagBit_raise_self d1 7 0x10 8 1 0 (by decide) (by decide)
    · exact Dev.flagBit_raise_self d1 7 0x10 8 2 1 (by decide) (by decide)
  exact ⟨(Dev.lswSettle_lswAt (by rw [hc]; exact h)).trans hc, Dev.lswSettle_flag hf c⟩

theorem Dev.protectOff_locked {d : Dev} {c : Fin 16} (h : (d.lswAt c).hold = false)
    (hu : d.rfld 7 c.val 0 7 4 ≤ (d.lswAt c).used) {reason : Nat} (hr : 0 < reason ∧ reason < 3) :
    (d.protectOff c reason).lswAt c = { d.lswAt c with st := .lockedOff, reason := reason, since := d.el } ∧
      (d.protectOff c reason).flagBit 7 0x10 8 (reason - 1) = true ∧ (d.protectOff c reason).flagBit 7 0x10 8 3 = true := by
  unfold Dev.protectOff
  extract_lets x d1 d2
  have hd2 : d2 = (d1.updLsw c fun x => { x with st := .lockedOff, reason := reason, since := d.el }).raise 7 0x10 8
      (2 ^ (reason - 1) + 8) := if_neg (Nat.not_lt.mpr hu)
  have hc : d2.lswAt c = { d.lswAt c with st := .lockedOff, reason := reason, since := d.el } := by
    rw [hd2, Dev.raise_lswAt, Dev.updLsw_lswAt_self, show d1.lswAt c = d.lswAt c from Dev.count_lswAt ..]
  have hf : d2.flagBit 7 0x10 8 (reason - 1) = true ∧ d2.flagBit 7 0x10 8 3 = true := by
    rw [hd2]
    obtain rfl | rfl : reason = 1 ∨ reason = 2 := by omega
    · exact ⟨Dev.flagBit_raise_self _ 7 0x10 8 9 0 (by decide) (by decide), Dev.flagBit_raise_self _ 7 0x10 8 9 3 (by decide) (by decide)⟩
    · exact ⟨Dev.flagBit_raise_self _ 7 0x10 8 10 1 (by decide) (by decide), Dev.flagBit_raise_self _ 7 0x10 8 10 3 (by decide) (by decide)⟩
  exact ⟨(Dev.lswSettle_lswAt (by rw [hc]; exact h)).trans hc, Dev.lswSettle_flag hf.1 c, Dev.lswSettle_flag hf.2 c⟩

theorem Dev.driven_of_lswOut {d : Dev} {c : Fin 16} (h : d.lswOut c = true) : (d.lswAt c).st.driven = true := by
  simp only [Dev.lswOut, Bool.and_eq_true] at h
  exact h.1.1.1.1

/-- A driven channel turned off with reason SHORT or OVERLOAD, and its session with it (R338, R339, R341). -/
theorem Dev.protected_channel {d : Dev} {c : Fin 16} (h : (d.lswAt c).hold = false) {reason : Nat} (hr : 0 < reason ∧ reason < 3) :
    ∃ e, d.contactorFailed (d.protectOff c reason) c = e ∧ (e.lswAt c).reason = reason ∧ e.flagBit 7 0x10 8 (reason - 1) = true ∧
      ((d.lswAt c).used < d.rfld 7 c.val 0 7 4 →
        (e.lswAt c).st = .backoff ∧ (e.lswAt c).used = (d.lswAt c).used + 1 ∧
        (e.lswAt c).backoffEnd = d.el + backoffNs (d.rfld 7 c.val 4 7 0) ((d.lswAt c).used + 1)) ∧
      (d.rfld 7 c.val 0 7 4 ≤ (d.lswAt c).used → (e.lswAt c).st = .lockedOff ∧ e.flagBit 7 0x10 8 3 = true) := by
  refine ⟨_, rfl, ?_⟩
  rcases Nat.lt_or_ge (d.lswAt c).used (d.rfld 7 c.val 0 7 4) with hu | hu
  · obtain ⟨hc, hf⟩ := Dev.protectOff_backoff h hu hr
    obtain ⟨-, -, -, hx⟩ := Dev.contactorFailed_rests (d := d) (LswChan.rests_of_eq hc rfl nofun h)
    have hflag := Dev.contactorFailed_flag (d := d) (by omega) hf c
    generalize d.contactorFailed (d.protectOff c reason) c = e at *
    exact ⟨(congrArg LswChan.reason hx :), hflag, fun _ => ⟨(congrArg LswChan.st hx :), (congrArg LswChan.used hx :),
      (congrArg LswChan.backoffEnd hx :)⟩, fun h' => absurd hu (Nat.not_lt.mpr h')⟩
  · obtain ⟨hc, hf, hf3⟩ := Dev.protectOff_locked h hu hr
    obtain ⟨-, -, -, hx⟩ := Dev.contactorFailed_rests (d := d) (LswChan.rests_of_eq hc rfl nofun h)
    have hflag := Dev.contactorFailed_flag (d := d) (by omega) hf c
    have hflag3 := Dev.contactorFailed_flag (d := d) (by decide) hf3 c
    generalize d.contactorFailed (d.protectOff c reason) c = e at *
    exact ⟨(congrArg LswChan.reason hx :), hflag, fun h' => absurd h' (Nat.not_lt.mpr hu),
      fun _ => ⟨(congrArg LswChan.st hx :), hflag3⟩⟩

/-- A channel that was latched at this instant with its budget used up is locked off by a short or an overload (R343). -/
theorem Dev.latchToLocked_locks {d : Dev} {c : Fin 16} (hst : (d.lswAt c).st = .latched) (ht : (d.lswAt c).since = d.el)
    (hu : d.rfld 7 c.val 0 7 4 ≤ (d.lswAt c).used) (reason : Nat) :
    ((d.latchToLocked c reason).lswAt c).st = .lockedOff ∧ ((d.latchToLocked c reason).lswAt c).reason = reason := by
  have hrun : d.latchToLocked c reason = ((d.count 7 c.val 0x18 31 16).updLsw c fun x =>
      { x with st := .lockedOff, reason := reason }).raise 7 0x10 8 (2 ^ (reason - 1) + 8) := if_pos ⟨hst, ht, hu⟩
  rw [hrun, Dev.raise_lswAt, Dev.updLsw_lswAt_self]
  exact ⟨rfl, rfl⟩

theorem Dev.not_lswOut {d : Dev} {c : Fin 16} (h : (d.lswAt c).st.driven = false) : d.lswOut c ≠ true :=
  fun ho => absurd (Dev.driven_of_lswOut ho) (by rw [h]; decide)

/-! ### The thermal latch -/

/-- What the thermal latch makes of a channel. -/
def LswChan.latched (x : LswChan) (t : Nat) : LswChan :=
  { x with st := .latched, reason := 3, since := t, restart := none, tj := max x.tj 170 }

theorem Dev.lswLatch_self (d : Dev) (c : Fin 16) : (d.lswLatch c).lswAt c = (d.lswAt c).latched d.el := by
  unfold Dev.lswLatch
  rw [Dev.raiseLsw_lswAt, Dev.updLsw_lswAt_self, Dev.count_lswAt]
  rfl

theorem Dev.lswLatch_flag (d : Dev) (c : Fin 16) : (d.lswLatch c).flagBit 7 0x10 8 2 = true :=
  Dev.flagBit_raise_self _ 7 0x10 8 (2 ^ 2) 2 (by decide) (by decide)

theorem Dev.thermalOff_driven {d : Dev} {c : Fin 16} (hh : (d.lswAt c).hold = false) (h : (d.lswAt c).st.driven = true) :
    (d.thermalOff c).lswAt c = (d.lswAt c).latched d.el ∧ (d.thermalOff c).flagBit 7 0x10 8 2 = true := by
  have hrun : d.thermalOff c = (d.lswLatch c).lswSettle c := if_pos h
  have hc := d.lswLatch_self c
  rw [hrun]
  exact ⟨(Dev.lswSettle_lswAt (by rw [hc]; exact hh)).trans hc, Dev.lswSettle_flag (d.lswLatch_flag c) c⟩

theorem Dev.thermalOff_backoff {d : Dev} {c : Fin 16} (h : (d.lswAt c).st = .backoff) (ht : (d.lswAt c).since = d.el) :
    (d.thermalOff c).lswAt c = LswChan.latched { d.lswAt c with used := (d.lswAt c).used - 1 } d.el := by
  have hrun : d.thermalOff c = (d.updLsw c fun x => { x with used := x.used - 1 }).lswLatch c :=
    (if_neg (by rw [show d.lsw.c[c].st = .backoff from h]; decide)).trans (if_pos ⟨h, ht⟩)
  rw [hrun, Dev.lswLatch_self, Dev.updLsw_lswAt_self]
  rfl

/-! ### The ends of the inrush window and of a backoff -/

section
variable {d : Dev} {c : Fin 16}

theorem Dev.inrushEnd_on (hh : (d.lswAt c).hold = false) (hst : (d.lswAt c).st = .inrush) (hr : (d.lswAt c).restart = none)
    (hu : d.lswUv c = false) (ht : (d.lswAt c).since + d.rfld 7 c.val 0 15 8 * 1000000 ≤ d.tim.elapsed) :
    ((d.inrushEnd c).lswAt c).st = .on ∧ ((d.inrushEnd c).lswAt c).since = d.tim.elapsed ∧ d.OnlyChans (d.inrushEnd c) := by
  have hrun : d.inrushEnd c = (d.updLsw c fun x => { x with st := .on, since := d.el }).lswSettle c :=
    if_pos ⟨hst, by rw [show d.lsw.c[c].restart = none from hr]; rfl, by rw [hu]; rfl, (Dev.after_iff ..).mpr ht⟩
  have hc : (d.inrushEnd c).lswAt c = { d.lswAt c with st := .on, since := d.el } := by
    rw [hrun, Dev.lswSettle_lswAt (by rw [Dev.updLsw_lswAt_self]; exact hh), Dev.updLsw_lswAt_self]
  rw [hc]
  exact ⟨rfl, rfl, hrun ▸ (d.updLsw_only c _).trans (Dev.lswSettle_only ..)⟩

theorem Dev.backoffEnd_effect (hst : (d.lswAt c).st = .backoff) (hu : d.lswUv c = false)
    (ht : (d.lswAt c).backoffEnd ≤ d.tim.elapsed) :
    ((d.backoffEnd c).lswAt c).st = (if (d.lswAt c).demand = false then .off
      else if (d.lswAt c).hold = true ∨ d.groupInrush (lswGroup c) = true then .backoff
      else if d.rfld 7 c.val 0 15 8 = 0 then .on else .inrush) ∧
    ((d.lswAt c).demand = true → (d.lswAt c).hold = true ∨ d.groupInrush (lswGroup c) = true →
      ((d.backoffEnd c).lswAt c).hold = true) ∧
    (∀ b : Fin 16, b ≠ c → (d.backoffEnd c).lswAt b = d.lswAt b) ∧ d.OnlyChans (d.backoffEnd c) := by
  have hrun : d.backoffEnd c = if !(d.lswAt c).demand then d.lswOff c
      else if (d.lswAt c).hold then d
      else if d.groupInrush (lswGroup c) then d.updLsw c fun x => { x with hold := true }
      else d.lswInrush c := if_pos ⟨hst, by rw [hu]; rfl, ht⟩
  rw [hrun]
  cases hd : (d.lswAt c).demand with
  | false =>
    refine ⟨?_, nofun, fun b hb => Dev.lswOff_lswAt_ne hb, d.lswOff_only c⟩
    exact congrArg LswChan.st (d.updLsw_lswAt_self c _)
  | true =>
    cases hh : (d.lswAt c).hold with
    | true => exact ⟨hst, fun _ _ => hh, fun _ _ => rfl, .rfl⟩
    | false =>
      cases hg : d.groupInrush (lswGroup c) with
      | true =>
        exact ⟨(congrArg LswChan.st (d.updLsw_lswAt_self c _)).trans hst,
          fun _ _ => congrArg LswChan.hold (d.updLsw_lswAt_self c _), fun b hb => Dev.updLsw_lswAt_ne hb, d.updLsw_only c _⟩
      | false =>
        exact ⟨congrArg LswChan.st (d.updLsw_lswAt_self c _), fun _ h => absurd h (by decide),
          fun b hb => Dev.lswInrush_lswAt_ne hb, d.lswInrush_only c⟩

end

theorem backoffNs_succ (base used : Nat) :
    backoffNs base (used + 1) = min (base * 10000000 * 2 ^ used) 1000000000 := rfl

/-- Settles O43: each event of a channel by its rule; the contactor's session, which goes to FAULT with it, moves no channel
that rests. -/
theorem switchProtection : Obligations.SwitchProtection := by
  unfold Obligations.SwitchProtection
  intro c s
  refine ⟨fun hh => ⟨fun hst hr hu ht => ?_, fun ho => ⟨?_, fun hon => ?_⟩, fun hdr => ?_⟩, fun hst ht hu => ?_,
    fun hst ht => ?_, fun tj hst hl ht => ?_, fun hst hu ht => ?_, fun hst hu ht => ?_⟩
  · exact ⟨_, rfl, Dev.inrushEnd_on hh hst hr hu ht⟩
  · obtain ⟨e, he, hr, hf, hb, hl⟩ := Dev.protected_channel (d := s.dev) (c := c) hh (reason := 1) (by decide)
    refine ⟨s.put e, next_put ?_, hr, hf, hb, hl⟩
    rw [show s.dev.shortOff c = s.dev.protectOff c 1 from if_pos ho, he]
  · obtain ⟨e, he, hr, hf, hb, hl⟩ := Dev.protected_channel (d := s.dev) (c := c) hh (reason := 2) (by decide)
    refine ⟨s.put e, next_put ?_, hr, hf, fun hu => ⟨(hb hu).1, (hb hu).2.1⟩, hl⟩
    rw [show s.dev.overloadOff c = s.dev.protectOff c 2 from if_pos ⟨hon, ho⟩, he]
  · obtain ⟨hc, hf⟩ := Dev.thermalOff_driven (d := s.dev) (c := c) hh hdr
    obtain ⟨-, -, -, hx⟩ := Dev.contactorFailed_rests (d := s.dev) (LswChan.rests_of_eq hc rfl nofun hh)
    have hflag := Dev.contactorFailed_flag (d := s.dev) (by decide) hf c
    refine ⟨s.put (s.dev.contactorFailed (s.dev.thermalOff c) c), rfl, ?_⟩
    generalize s.dev.contactorFailed (s.dev.thermalOff c) c = e at *
    exact ⟨(congrArg LswChan.st hx :), (congrArg LswChan.reason hx :), hflag⟩
  · have hdr : (s.dev.lswAt c).st.driven = false := congrArg LswSt.driven hst
    have hout := Dev.not_lswOut hdr
    have hlock := Dev.latchToLocked_locks (d := s.dev) hst ht hu
    refine ⟨⟨s.put (s.dev.latchToLocked c 1), next_put ?_, hlock 1⟩, ⟨s.put (s.dev.latchToLocked c 2), next_put ?_, hlock 2⟩⟩
    · rw [Dev.contactorFailed_of_off hdr]
      exact if_neg hout
    · rw [Dev.contactorFailed_of_off hdr]
      exact if_neg fun h => hout h.2
  · have hc := Dev.thermalOff_backoff (d := s.dev) hst ht
    refine ⟨s.put (s.dev.thermalOff c), next_put (Dev.contactorFailed_of_off (congrArg LswSt.driven hst) _), ?_⟩
    exact ⟨(congrArg LswChan.st hc :), (congrArg LswChan.reason hc :), (congrArg LswChan.used hc :)⟩
  · exact next_put (if_pos ⟨hst, hl, ht⟩)
  · exact ⟨_, rfl, Dev.backoffEnd_effect hst hu ht⟩
  · exact next_put (if_pos ⟨hst, by rw [hu]; rfl, (Dev.after_iff ..).mpr ht⟩)

end Sys2Proof.Machine
end

section
/-! SUPPORT. Supply groups, load shedding, the limp-home and the LIN inputs (O44). -/

namespace Sys2Proof.Machine

/-! ### Bits of a mask -/

/-- Clearing a bit by subtraction clears that bit and no other. -/
theorem ofNat_without {w : Nat} (v : BitVec w) (i : Nat) :
    BitVec.ofNat w (v.toNat - (v.toNat &&& 2 ^ i)) = v &&& ~~~BitVec.ofNat w (2 ^ i) := by
  let x := BitVec.ofNat w (2 ^ i)
  have hx : v.toNat &&& 2 ^ i = (v &&& x).toNat := by
    refine Nat.eq_of_testBit_eq fun j => ?_
    simp only [Nat.testBit_and, BitVec.toNat_and, BitVec.toNat_ofNat, Nat.testBit_mod_two_pow, x]
    by_cases hj : j < w
    · simp [hj]
    · rw [BitVec.testBit_toNat, BitVec.getLsbD_of_ge v j (by omega)]
      simp
  have hsum : (v &&& ~~~x) + (v &&& x) = v := by
    rw [BitVec.add_eq_or_of_and_eq_zero]
    · refine BitVec.eq_of_getLsbD_eq fun j hj => ?_
      simp only [BitVec.getLsbD_or, BitVec.getLsbD_and, BitVec.getLsbD_not, hj]
      cases v.getLsbD j <;> cases x.getLsbD j <;> rfl
    · refine BitVec.eq_of_getLsbD_eq fun j hj => ?_
      simp only [BitVec.getLsbD_and, BitVec.getLsbD_not, hj]
      cases v.getLsbD j <;> cases x.getLsbD j <;> simp
  have hle : (v &&& x).toNat ≤ v.toNat := by
    rw [BitVec.toNat_and]
    exact Nat.and_le_left
  refine BitVec.eq_of_toNat_eq ?_
  rw [BitVec.toNat_ofNat, hx, Nat.mod_eq_of_lt (by have := v.isLt; omega), ← BitVec.toNat_sub_of_le hle]
  rw [eq_sub_of_add_eq hsum]

theorem ofNat_setBit {w : Nat} (v : BitVec w) (i : Nat) (level : Bool) {j : Nat} (hj : j < w) :
    (BitVec.ofNat w (v.toNat - (v.toNat &&& 2 ^ i) + b1 level * 2 ^ i)).getLsbD j = if j = i then level else v.getLsbD j := by
  have hbit : (BitVec.ofNat w (2 ^ i)).getLsbD j = decide (i = j) := by
    rw [BitVec.getLsbD_ofNat, Nat.testBit_two_pow]
    simp [hj]
  rw [BitVec.ofNat_add, ofNat_without]
  cases level with
  | false =>
    rw [show b1 false * 2 ^ i = 0 from Nat.zero_mul _, BitVec.add_zero, BitVec.getLsbD_and,
      BitVec.getLsbD_not, hbit]
    by_cases h : j = i
    · simp [h]
    · simp [h, hj, Ne.symm h]
  | true =>
    rw [show b1 true * 2 ^ i = 2 ^ i from Nat.one_mul _, BitVec.add_eq_or_of_and_eq_zero]
    · rw [BitVec.getLsbD_or, BitVec.getLsbD_and, BitVec.getLsbD_not, hbit]
      by_cases h : j = i
      · simp [h]
      · simp [h, hj, Ne.symm h]
    · rw [BitVec.and_assoc]
      simp

theorem setBit_self {w : Nat} (v : BitVec w) {i : Nat} (hi : i < w) : (v ||| BitVec.ofNat w (2 ^ i)).getLsbD i = true := by
  rw [BitVec.getLsbD_or, BitVec.getLsbD_ofNat, Nat.testBit_two_pow_self]
  simp [hi]

theorem without_self {w : Nat} (v : BitVec w) (i : Nat) : (v &&& ~~~BitVec.ofNat w (2 ^ i)).getLsbD i = false := by
  rw [BitVec.getLsbD_and, BitVec.getLsbD_not, BitVec.getLsbD_ofNat, Nat.testBit_two_pow_self]
  by_cases h : i < w <;> simp [h]

/-! ### Folds over channels -/

theorem foldl_updLsw_lswAt (f : LswChan → LswChan) (hf : ∀ x, f (f x) = f x) (l : List (Fin 16)) (d : Dev) (b : Fin 16) :
    (l.foldl (fun (acc : Dev) c => acc.updLsw c f) d).lswAt b = if b ∈ l then f (d.lswAt b) else d.lswAt b := by
  induction l generalizing d with
  | nil => rfl
  | cons c l ih =>
    rw [List.foldl_cons, ih, Dev.updLsw_lswAt]
    by_cases hb : b = c
    · subst hb
      simp [hf]
    · simp [hb]

theorem foldl_updLsw_only (f : LswChan → LswChan) (l : List (Fin 16)) (d : Dev) :
    d.OnlyChans (l.foldl (fun (acc : Dev) c => acc.updLsw c f) d) := Dev.foldl_onlyChans (fun e c => e.updLsw_only c f) l d

/-- The `k`-th channel of a list is told its restart. -/
theorem foldl_restart_lswAt (t : Nat → Nat) (l : List (Fin 16)) (hl : l.Nodup) (i : Nat) (d : Dev) :
    (∀ b, b ∉ l → ((l.zipIdx i).foldl (fun (acc : Dev) x => acc.updLsw x.1 fun y => { y with restart := some (t x.2) }) d).lswAt b = d.lswAt b) ∧
    ∀ k b, l[k]? = some b →
      ((l.zipIdx i).foldl (fun (acc : Dev) x => acc.updLsw x.1 fun y => { y with restart := some (t x.2) }) d).lswAt b =
        { d.lswAt b with restart := some (t (i + k)) } := by
  induction l generalizing i d with
  | nil => exact ⟨fun _ _ => rfl, nofun⟩
  | cons c l ih =>
    obtain ⟨hc, hl⟩ := List.nodup_cons.mp hl
    obtain ⟨hout, hin⟩ := ih hl (i + 1) (d.updLsw c fun y => { y with restart := some (t i) })
    rw [List.zipIdx_cons, List.foldl_cons]
    refine ⟨fun b hb => ?_, fun k b hk => ?_⟩
    · obtain ⟨hne, hb⟩ := not_or.mp (mt List.mem_cons.mpr hb)
      exact (hout b hb).trans (Dev.updLsw_lswAt_ne hne)
    · cases k with
      | zero =>
        obtain rfl : c = b := Option.some.inj hk
        exact (hout c hc).trans (Dev.updLsw_lswAt_self ..)
      | succ k =>
        have hne : b ≠ c := by
          rintro rfl
          exact hc (List.mem_of_getElem? hk)
        rw [hin k b hk, Dev.updLsw_lswAt_ne hne, show i + 1 + k = i + (k + 1) by omega]

/-! ### A supply that falls (R352) -/

theorem Dev.lswUv_group (d : Dev) {c : Fin 16} {g : Fin 4} (h : lswGroup c = g) : d.lswUv c = d.lsw.uv.getLsbD g.val := by
  subst h
  rfl

/-- The supply of a group marked as fallen. -/
def Dev.uvMarked (d : Dev) (g : Fin 4) : Dev :=
  { d with lsw := { d.lsw with uv := d.lsw.uv ||| BitVec.ofNat 4 (2 ^ g.val), uvSince := d.lsw.uvSince.set g.val d.el g.isLt } }

theorem Dev.vlswFall_falls {d : Dev} {g : Fin 4} (h : d.lsw.uv.getLsbD g.val = false) :
    (d.vlswFall g).lsw.uv.getLsbD g.val = true ∧ (d.vlswFall g).flagBit 7 0x10 8 5 = true ∧
    ∀ c, (d.vlswFall g).lswAt c = if c ∈ groupChannels g then { d.lswAt c with restart := none } else d.lswAt c := by
  have hrun : d.vlswFall g =
      ((groupChannels g).foldl (fun (acc : Dev) c => acc.updLsw c fun x => { x with restart := none }) (d.uvMarked g)).raiseLsw 5 :=
    if_neg (by rw [h]; decide)
  have honly := foldl_updLsw_only (fun x => { x with restart := none }) (groupChannels g) (d.uvMarked g)
  have hat := foldl_updLsw_lswAt (fun x => { x with restart := none }) (fun _ => rfl) (groupChannels g) (d.uvMarked g)
  rw [hrun]
  generalize (groupChannels g).foldl (fun (acc : Dev) c => acc.updLsw c fun x => { x with restart := none }) (d.uvMarked g) = e at *
  refine ⟨?_, Dev.flagBit_raise_self _ 7 0x10 8 (2 ^ 5) 5 (by decide) (by decide), fun c => (Dev.raiseLsw_lswAt ..).trans (hat c)⟩
  rw [show (e.raiseLsw 5).lsw = e.lsw from Dev.raise_lsw .., honly]
  exact setBit_self _ g.isLt

theorem Dev.lswOut_of_uv {d : Dev} {c : Fin 16} (h : d.lswUv c = true) : d.lswOut c = false := by
  simp [Dev.lswOut, h]

/-! ### A supply that recovers (R352) -/

theorem Dev.restartOne_ne {d : Dev} {b c : Fin 16} (h : b ≠ c) : (d.restartOne c).lswAt b = d.lswAt b := by
  unfold Dev.restartOne
  split
  · split
    · exact (Dev.updLsw_lswAt_ne h).trans (Dev.lswInrush_lswAt_ne h)
    · rfl
  · rfl

theorem Dev.restartOne_only (d : Dev) (c : Fin 16) : d.OnlyChans (d.restartOne c) := by
  unfold Dev.restartOne
  split
  · exact Dev.onlyChans_ite ((d.lswInrush_only c).trans (Dev.updLsw_only ..)) .rfl
  · exact .rfl

theorem foldl_restartOne_ne (l : List (Fin 16)) (d : Dev) {b : Fin 16} (h : b ∉ l) :
    (l.foldl (fun (acc : Dev) c => acc.restartOne c) d).lswAt b = d.lswAt b := by
  induction l generalizing d with
  | nil => rfl
  | cons c l ih =>
    obtain ⟨hne, hb⟩ := not_or.mp (mt List.mem_cons.mpr h)
    exact (ih _ hb).trans (Dev.restartOne_ne hne)

/-- Each channel restarts by its own time alone. -/
theorem foldl_restartOne_self (l : List (Fin 16)) (hl : l.Nodup) (d : Dev) {b : Fin 16} (h : b ∈ l) :
    ∃ e, d.OnlyChans e ∧ e.lswAt b = d.lswAt b ∧
      (l.foldl (fun (acc : Dev) c => acc.restartOne c) d).lswAt b = (e.restartOne b).lswAt b := by
  induction l generalizing d with
  | nil => exact absurd h (List.not_mem_nil)
  | cons c l ih =>
    obtain ⟨hc, hl⟩ := List.nodup_cons.mp hl
    by_cases hb : b = c
    · subst hb
      exact ⟨d, .rfl, rfl, foldl_restartOne_ne l _ hc⟩
    · obtain ⟨e, ho, hat, hr⟩ := ih hl (d.restartOne c) (List.mem_of_ne_of_mem hb h)
      exact ⟨e, (d.restartOne_only c).trans ho, hat.trans (Dev.restartOne_ne hb), hr⟩

theorem Dev.rfld_of_only {d e : Dev} (h : d.OnlyChans e) (g u off hi lo : Nat) : e.rfld g u off hi lo = d.rfld g u off hi lo := by
  rw [h]
  rfl

theorem Dev.el_of_only {d e : Dev} (h : d.OnlyChans e) : e.el = d.el := by
  rw [h]
  rfl

/-- A channel whose restart is due restarts with a full window. -/
theorem Dev.restartDue_due {d : Dev} {c : Fin 16} {t : Nat} (h : (d.lswAt c).restart = some t) (ht : t ≤ d.el) :
    d.restartDue.lswAt c = { d.lswAt c with
      st := if d.rfld 7 c.val 0 15 8 = 0 then .on else .inrush, hold := false, since := t, onSince := t, restart := none } := by
  obtain ⟨e, ho, hat, hr⟩ := foldl_restartOne_self (List.finRange 16) (List.nodup_finRange 16) d (List.mem_finRange c)
  have hres : e.lsw.c[c].restart = some t := (congrArg LswChan.restart hat).trans h
  have hone : e.restartOne c = e.lswRestart c t := by
    unfold Dev.restartOne
    rw [hres]
    exact if_pos (by rw [Dev.el_of_only ho]; exact ht)
  rw [show d.restartDue.lswAt c = _ from hr, hone]
  unfold Dev.lswRestart Dev.lswInrush
  rw [Dev.updLsw_lswAt_self, Dev.updLsw_lswAt_self, hat, Dev.rfld_of_only ho]

/-- A channel with no restart due stays as it is. -/
theorem Dev.restartDue_later {d : Dev} {c : Fin 16} (h : ∀ t, (d.lswAt c).restart = some t → d.el < t) :
    d.restartDue.lswAt c = d.lswAt c := by
  obtain ⟨e, ho, hat, hr⟩ := foldl_restartOne_self (List.finRange 16) (List.nodup_finRange 16) d (List.mem_finRange c)
  have hone : e.restartOne c = e := by
    unfold Dev.restartOne
    split
    case _ t ht =>
      have ht' : (d.lswAt c).restart = some t := (congrArg LswChan.restart hat).symm.trans ht
      exact if_neg (by rw [Dev.el_of_only ho]; exact Nat.not_le.mpr (h t ht'))
    · rfl
  rw [show d.restartDue.lswAt c = _ from hr, hone, hat]

theorem Dev.restartDue_only (d : Dev) : d.OnlyChans d.restartDue := Dev.foldl_onlyChans (fun e c => e.restartOne_only c) _ d

/-- A backoff of the group goes on from where its timer stopped. -/
def Dev.backoffLater (gone : Nat) (d : Dev) (c : Fin 16) : Dev :=
  if d.lsw.c[c].st = .backoff then d.updLsw c fun x => { x with backoffEnd := x.backoffEnd + gone } else d

theorem Dev.backoffLater_only (gone : Nat) (d : Dev) (c : Fin 16) : d.OnlyChans (d.backoffLater gone c) :=
  Dev.onlyChans_ite (Dev.updLsw_only ..) .rfl

theorem Dev.backoffLater_lswAt {gone : Nat} {d : Dev} {b c : Fin 16} (h : b ≠ c ∨ (d.lswAt b).st ≠ .backoff) :
    (d.backoffLater gone c).lswAt b = d.lswAt b := by
  unfold Dev.backoffLater
  split
  case isTrue hst =>
    refine Dev.updLsw_lswAt_ne fun hb => ?_
    subst hb
    exact h.elim (fun hne => hne rfl) fun hne => hne hst
  case isFalse => rfl

theorem foldl_backoffLater_lswAt (gone : Nat) (l : List (Fin 16)) (d : Dev) {b : Fin 16} (h : b ∉ l ∨ (d.lswAt b).st ≠ .backoff) :
    (l.foldl (fun (acc : Dev) c => acc.backoffLater gone c) d).lswAt b = d.lswAt b := by
  induction l generalizing d with
  | nil => rfl
  | cons c l ih =>
    have hc : (d.backoffLater gone c).lswAt b = d.lswAt b :=
      Dev.backoffLater_lswAt (h.imp_left fun hb => (not_or.mp (mt List.mem_cons.mpr hb)).1)
    refine (ih _ ?_).trans hc
    rw [hc]
    exact h.imp_left fun hb => (not_or.mp (mt List.mem_cons.mpr hb)).2

theorem groupChannels_nodup (g : Fin 4) : (groupChannels g).Nodup := (List.nodup_finRange 16).filter _

/-- The channels of a group that its supply drove. -/
def Dev.upChannels (d : Dev) (g : Fin 4) : List (Fin 16) := (groupChannels g).filter fun c => d.lsw.c[c].st.driven

/-- The supply of a group marked as there again. -/
def Dev.uvCleared (d : Dev) (g : Fin 4) : Dev :=
  { d with lsw := { d.lsw with uv := BitVec.ofNat 4 (d.lsw.uv.toNat - (d.lsw.uv.toNat &&& 2 ^ g.val)) } }

/-- The device once a recovered group has its restarts set, none of them run yet. -/
def Dev.restartsSet (d : Dev) (g : Fin 4) : Dev :=
  (d.upChannels g).zipIdx.foldl (fun (acc : Dev) x => acc.updLsw x.1 fun y => { y with restart := some (d.el + ms (2 * x.2)) })
    ((groupChannels g).foldl (fun (acc : Dev) c => acc.backoffLater (d.el - d.lsw.uvSince[g]) c) (d.uvCleared g))

theorem Dev.vlswRise_run {d : Dev} {g : Fin 4} (h : d.lsw.uv.getLsbD g.val = true) :
    d.vlswRise g = Dev.releaseHeld g 4 (d.restartsSet g).restartDue := if_pos h

theorem Dev.restartsSet_only (d : Dev) (g : Fin 4) : (d.uvCleared g).OnlyChans (d.restartsSet g) :=
  (Dev.foldl_onlyChans (fun e c => e.backoffLater_only _ c) _ _).trans
    (Dev.foldl_onlyChans (fun (e : Dev) (x : Fin 16 × Nat) => e.updLsw_only x.1 _) _ _)

theorem Dev.restartsSet_up {d : Dev} {g : Fin 4} {k : Nat} {c : Fin 16} (h : (d.upChannels g)[k]? = some c) :
    (d.restartsSet g).lswAt c = { d.lswAt c with restart := some (d.el + ms (2 * k)) } := by
  have hdr : (d.lswAt c).st.driven = true := (List.mem_filter.mp (List.mem_of_getElem? h)).2
  have hst : ((d.uvCleared g).lswAt c).st ≠ .backoff := fun hb => absurd ((congrArg LswSt.driven hb).symm.trans hdr) (by decide)
  have hset := (foldl_restart_lswAt (fun k => d.el + ms (2 * k)) (d.upChannels g) ((groupChannels_nodup g).filter _) 0
    ((groupChannels g).foldl (fun (acc : Dev) c => acc.backoffLater (d.el - d.lsw.uvSince[g]) c) (d.uvCleared g))).2 k c h
  rw [foldl_backoffLater_lswAt _ _ _ (.inr hst), Nat.zero_add] at hset
  exact hset

theorem Dev.restartsSet_other {d : Dev} {g : Fin 4} {c : Fin 16} (h : lswGroup c ≠ g) : (d.restartsSet g).lswAt c = d.lswAt c := by
  have hg : c ∉ groupChannels g := fun hm => h (mem_groupChannels.mp hm)
  refine ((foldl_restart_lswAt (fun k => d.el + ms (2 * k)) (d.upChannels g) ((groupChannels_nodup g).filter _) 0 _).1 c
    fun hm => hg (List.mem_filter.mp hm).1).trans ?_
  exact foldl_backoffLater_lswAt _ _ _ (.inl hg)

section
variable {d : Dev} {g : Fin 4}

theorem Dev.vlswRise_uv (h : d.lsw.uv.getLsbD g.val = true) : (d.vlswRise g).lsw.uv.getLsbD g.val = false := by
  rw [Dev.vlswRise_run h, ((d.restartsSet_only g).trans (Dev.restartDue_only _)).trans (Dev.releaseHeld_only ..)]
  exact (congrArg (fun u : BitVec 4 => u.getLsbD g.val) (ofNat_without d.lsw.uv g.val)).trans (without_self ..)

/-- The first channel restarts at once, those after it 2 ms apart. -/
theorem Dev.vlswRise_up {k : Nat} {c : Fin 16} (h : d.lsw.uv.getLsbD g.val = true) (hh : (d.lswAt c).hold = false)
    (hk : (d.upChannels g)[k]? = some c) :
    (k = 0 → ((d.vlswRise g).lswAt c).restart = none ∧ ((d.vlswRise g).lswAt c).since = d.el ∧
      ((d.vlswRise g).lswAt c).st = (if d.rfld 7 c.val 0 15 8 = 0 then .on else .inrush)) ∧
    (k ≠ 0 → ((d.vlswRise g).lswAt c).restart = some (d.el + ms (2 * k)) ∧ ((d.vlswRise g).lswAt c).st = (d.lswAt c).st) := by
  have hset := Dev.restartsSet_up hk
  have hel : (d.restartsSet g).el = d.el := (Dev.el_of_only (d.restartsSet_only g)).trans rfl
  rw [Dev.vlswRise_run h]
  refine ⟨fun hz => ?_, fun hz => ?_⟩
  · subst hz
    have hdue := Dev.restartDue_due (d := d.restartsSet g) (c := c) (t := d.el + ms (2 * 0)) (congrArg LswChan.restart hset)
      (by rw [hel]; exact Nat.le_refl _)
    rw [Dev.releaseHeld_lswAt 4 _ (.inl (congrArg LswChan.hold hdue)), hdue, Dev.rfld_of_only (d.restartsSet_only g)]
    exact ⟨rfl, rfl, rfl⟩
  · have hlater : (d.restartsSet g).restartDue.lswAt c = (d.restartsSet g).lswAt c := by
      refine Dev.restartDue_later fun t ht => ?_
      obtain rfl : d.el + ms (2 * k) = t := Option.some.inj ((congrArg LswChan.restart hset).symm.trans ht)
      rw [hel]
      unfold ms
      omega
    have hc := hlater.trans hset
    rw [Dev.releaseHeld_lswAt 4 _ (.inl ((congrArg LswChan.hold hc).trans hh)), hc]
    exact ⟨rfl, rfl⟩

theorem Dev.vlswRise_other {c : Fin 16} (h : d.lsw.uv.getLsbD g.val = true) (hg : lswGroup c ≠ g)
    (hr : ∀ t, (d.lswAt c).restart = some t → d.el < t) : (d.vlswRise g).lswAt c = d.lswAt c := by
  have hel : (d.restartsSet g).el = d.el := (Dev.el_of_only (d.restartsSet_only g)).trans rfl
  have hset := Dev.restartsSet_other (d := d) hg
  rw [Dev.vlswRise_run h, Dev.releaseHeld_lswAt 4 _ (.inr hg), Dev.restartDue_later (by rw [hset, hel]; exact hr), hset]

end

/-! ### Shedding (R353) -/

theorem Dev.loadShed_sheds {d : Dev} {avg : Nat} {c : Fin 16} {cs : List (Fin 16)} (ha : 6000 < avg) (hb : avg < 65536)
    (hw : d.lsw.totalMa ≤ 6000 ∨ d.lsw.lastShed + 100000000 ≤ d.tim.elapsed) (ho : d.shedOrder = c :: cs) :
    (d.loadShed avg).lsw.totalMa = avg ∧ (d.loadShed avg).lsw.lastShed = d.tim.elapsed ∧
    (d.loadShed avg).flagBit 7 0x10 8 4 = true ∧ (d.lsw.totalMa ≤ 6000 → (d.loadShed avg).flagBit 7 0x10 8 6 = true) ∧
    (d.loadShed avg).lswAt c = { d.lswAt c with st := .off, reason := 4, demand := false, since := d.el, restart := none } ∧
    ∀ b, b ≠ c → (d.loadShed avg).lswAt b = d.lswAt b := by
  unfold Dev.loadShed
  extract_lets was _ d1 crossed d2
  have hord : d1.shedOrder = c :: cs := ho
  have hdue : was ≤ 6000 ∨ d.after d.lsw.lastShed (ms 100) = true := hw.imp_right (Dev.after_iff ..).mpr
  rw [if_neg (Nat.not_le.mpr ha), if_pos hdue, hord]
  dsimp only
  refine ⟨Nat.min_eq_left (by omega), rfl, ?_, fun hwas => ?_, d1.updLsw_lswAt_self c _, fun b hne => Dev.updLsw_lswAt_ne (d := d1) hne⟩
  · by_cases hwas : was ≤ 6000
    · rw [show crossed = 64 from if_pos hwas]
      exact Dev.flagBit_raise_self _ 7 0x10 8 80 4 (by decide) (by decide)
    · rw [show crossed = 0 from if_neg hwas]
      exact Dev.flagBit_raise_self _ 7 0x10 8 16 4 (by decide) (by decide)
  · rw [show crossed = 64 from if_pos hwas]
    exact Dev.flagBit_raise_self _ 7 0x10 8 80 6 (by decide) (by decide)

/-! ### The limp-home and the LIN inputs (R348, R349) -/

theorem Dev.limpChange_limp {d : Dev} {active : Bool} (h : d.lsw.limp ≠ active) :
    (d.limpChange active).lsw.limp = active ∧ (d.limpChange active).flagBit 7 0x10 8 7 = true ∧ (d.limpChange active).kao = d.kao := by
  unfold Dev.limpChange
  rw [if_neg h]
  have hflag : (({ d with lsw := { d.lsw with limp := active } }.raiseLsw 7).logEvent .lsw 349 [w32 (b1 active)]).flagBit 7 0x10 8 7 = true :=
    Dev.flagBit_raise_self _ 7 0x10 8 (2 ^ 7) 7 (by decide) (by decide)
  have honly := Dev.foldl_onlyChans (fun e c => e.followLimp_only c) (List.finRange 16)
    (({ d with lsw := { d.lsw with limp := active } }.raiseLsw 7).logEvent .lsw 349 [w32 (b1 active)])
  unfold Dev.followAll
  rw [honly]
  exact ⟨rfl, hflag, rfl⟩

theorem Dev.followInput_only (d : Dev) (i : Fin 8) : d.OnlyChans (d.followInput i) :=
  Dev.foldl_onlyChans (fun e c => Dev.onlyChans_ite (e.followLimp_only c) .rfl) _ d

theorem Dev.followInput_unmapped {d : Dev} (h : ∀ c : Fin 16, d.limpMapped c.val = false) (i : Fin 8) : d.followInput i = d := by
  unfold Dev.followInput
  generalize List.finRange 16 = l
  induction l with
  | nil => rfl
  | cons c l ih =>
    have hc : d.followLimp c = d := if_neg (by rw [h c]; decide)
    rw [List.foldl_cons, hc, ite_self]
    exact ih

theorem Dev.linChange_lin (d : Dev) (i : Fin 8) (level : Bool) :
    (∀ j : Fin 8, (d.linChange i level).lsw.lin.getLsbD j.val = if j = i then level else d.lsw.lin.getLsbD j.val) ∧
    ((∀ c : Fin 16, d.limpMapped c.val = false) →
      d.linChange i level = { d with lsw := { d.lsw with lin := (d.linChange i level).lsw.lin } }) := by
  unfold Dev.linChange
  extract_lets m
  split
  case isTrue hl =>
    refine ⟨fun j => ?_, fun _ => rfl⟩
    split
    · subst j
      exact hl
    · rfl
  case isFalse hl =>
    refine ⟨fun j => ?_, fun hmap => ?_⟩
    · rw [Dev.followInput_only]
      simpa [Fin.ext_iff] using ofNat_setBit d.lsw.lin i.val level j.isLt
    · have hsame : ∀ v, ({ d with lsw := { d.lsw with lin := v } } : Dev).followInput i = { d with lsw := { d.lsw with lin := v } } :=
        fun v => Dev.followInput_unmapped (by exact hmap) i
      rw [hsame]

/-- Settles O44: each event by its rule for the group's, the shed or every channel. -/
theorem switchSupplies : Obligations.SwitchSupplies := by
  unfold Obligations.SwitchSupplies
  intro s
  refine ⟨fun g hg => ?_, fun g hg => ?_, fun avg ha => ?_, fun avg c cs ha hb hw ho => ?_, fun active h => ?_, fun i level => ?_⟩
  · obtain ⟨huv, hf, hat⟩ := Dev.vlswFall_falls (d := s.dev) hg
    refine ⟨_, rfl, huv, hf, fun c hc => Dev.lswOut_of_uv ((Dev.lswUv_group _ hc).trans huv), fun c => ?_⟩
    have hc := hat c
    split at hc
    case isTrue hm =>
      exact ⟨(congrArg LswChan.st hc :), (congrArg LswChan.demand hc :), fun hne => absurd (mem_groupChannels.mp hm) hne⟩
    case isFalse => exact ⟨(congrArg LswChan.st hc :), (congrArg LswChan.demand hc :), fun _ => hc⟩
  · refine ⟨_, rfl, Dev.vlswRise_uv hg, fun k c hh hk => ?_, fun c hne hr => Dev.vlswRise_other hg hne hr⟩
    obtain ⟨hz, hnz⟩ := Dev.vlswRise_up (d := s.dev) hg hh hk
    exact ⟨hz, hnz⟩
  · exact next_put ((if_pos ha).trans (by rw [Nat.min_eq_left (show avg ≤ 0xFFFF by omega)]))
  · obtain ⟨htot, hlast, h4, h6, hc, hne⟩ := Dev.loadShed_sheds (d := s.dev) ha hb hw ho
    exact ⟨_, rfl, (congrArg LswChan.st hc :), (congrArg LswChan.reason hc :), (congrArg LswChan.demand hc :), htot, h4, hlast, h6, hne⟩
  · exact ⟨_, rfl, Dev.limpChange_limp h⟩
  · obtain ⟨hlin, hmap⟩ := s.dev.linChange_lin i level
    exact ⟨_, rfl, (hlin i).trans (if_pos rfl), fun j hj => (hlin j).trans (if_neg hj), hmap⟩

end Sys2Proof.Machine
end

section
/-! SUPPORT. SW_ON, SW_OFF and SW_RELEASE (O42). -/

namespace Sys2Proof.Machine

theorem lswCommand_on {arg : BitVec 24} {c : Fin 16} {d : Dev} (harg : argUnit arg = c.val) (h0 : argBits arg 15 0 = 0)
    (ho : d.lswOwned c.val = true) (h : Fin 16 → Dev → CmdSt × Dev) : lswCommand arg h d = h c d := by
  obtain ⟨c, hc⟩ := c
  obtain rfl : argUnit arg = c := harg
  exact (if_neg fun hne => hne h0).trans ((dif_pos hc).trans (if_pos ho))

/-! ### The demand of a channel (R345) -/

section
variable {d : Dev} {c : Fin 16}

theorem Dev.lswDemand_same {on : Bool} (h : (d.lswAt c).demand = on) : d.lswDemand c on = d := if_pos (.inl h)

theorem Dev.demand_changes {on : Bool} (ho : d.lswOwned c.val = true) (h : (d.lswAt c).demand ≠ on) :
    ¬(d.lsw.c[c].demand = on ∨ (!d.lswOwned c.val) = true) := by
  rintro (hs | hno)
  · exact h hs
  · rw [ho] at hno
    exact absurd hno (by decide)

theorem Dev.lswDemand_off_on (ho : d.lswOwned c.val = true) (hd : (d.lswAt c).demand = false) (hst : (d.lswAt c).st = .off) :
    d.lswDemand c true = (d.updLsw c fun y => { y with demand := true }).lswInrush c :=
  (if_neg (Dev.demand_changes ho (by rw [hd]; decide))).trans (if_pos hst)

theorem Dev.lswDemand_waits (ho : d.lswOwned c.val = true) (hd : (d.lswAt c).demand = false) (hst : (d.lswAt c).st ≠ .off) :
    d.lswDemand c true = d.updLsw c fun y => { y with demand := true } :=
  (if_neg (Dev.demand_changes ho (by rw [hd]; decide))).trans (if_neg hst)

theorem Dev.lswDemand_driven (ho : d.lswOwned c.val = true) (hd : (d.lswAt c).demand = true) (hst : (d.lswAt c).st.driven = true) :
    d.lswDemand c false = ((d.updLsw c fun y => { y with demand := false }).lswOff c).lswSettle c :=
  (if_neg (Dev.demand_changes ho (by rw [hd]; decide))).trans (if_pos hst)

/-- With the demand 0 a retry that waits is off, any other channel at rest keeps its state. -/
theorem Dev.lswDemand_rest_off (ho : d.lswOwned c.val = true) (hst : (d.lswAt c).st.driven = false) :
    ((d.lswDemand c false).lswAt c).demand = false ∧
    ((d.lswDemand c false).lswAt c).st =
      (if (d.lswAt c).hold = true ∧ (d.lswAt c).demand = true then .off else (d.lswAt c).st) ∧
    ∀ b, b ≠ c → (d.lswDemand c false).lswAt b = d.lswAt b := by
  cases hd : (d.lswAt c).demand with
  | false =>
    rw [Dev.lswDemand_same hd]
    exact ⟨hd, by simp, fun _ _ => rfl⟩
  | true =>
    have hrun : d.lswDemand c false = if (d.lswAt c).hold then (d.updLsw c fun y => { y with demand := false }).lswOff c
        else d.updLsw c fun y => { y with demand := false } :=
      (if_neg (Dev.demand_changes ho (by rw [hd]; decide))).trans
        (if_neg (show ¬(d.lswAt c).st.driven = true by rw [hst]; decide))
    rw [hrun]
    cases hh : (d.lswAt c).hold with
    | true =>
      have hc : ((d.updLsw c fun y => { y with demand := false }).lswOff c).lswAt c = _ := Dev.updLsw_lswAt_self ..
      rw [Dev.updLsw_lswAt_self] at hc
      refine ⟨(congrArg LswChan.demand hc :), (congrArg LswChan.st hc :), fun b hb => ?_⟩
      exact (Dev.lswOff_lswAt_ne hb).trans (Dev.updLsw_lswAt_ne hb)
    | false =>
      have hc : (d.updLsw c fun y => { y with demand := false }).lswAt c = _ := Dev.updLsw_lswAt_self ..
      exact ⟨(congrArg LswChan.demand hc :), (congrArg LswChan.st hc :), fun b hb => Dev.updLsw_lswAt_ne hb⟩

end

theorem Dev.completed_of_only {d e : Dev} (h : d.OnlyChans e) (ag : Agent) (g op : Nat) :
    e.completed ag g op = { d with
      lsw := { d.lsw with c := e.lsw.c }, views := (e.completed ag g op).views, reply := (e.completed ag g op).reply } := by
  rw [h]
  rfl

section
variable {ag : Agent} {arg : BitVec 24} {c : Fin 16} {s : State} (harg : argUnit arg = c.val) (h0 : argBits arg 15 0 = 0)
  (hready : s.dev.ready ag 7 c.val) (ho : s.dev.lswOwned c.val = true)
include harg h0 hready ho

theorem swOn_completes (hf : s.dev.lswFree c = true)
    (hst : (s.dev.lswAt c).st = .off ∨ (s.dev.lswAt c).st = .backoff ∨ (s.dev.lswAt c).st = .latched) :
    exec (.swOn ag arg) s = .next (s.put ((s.dev.lswDemand c true).completed ag 7 0x10)) :=
  next_put (issueCommand_ok (harg.symm ▸ hready) ((lswCommand_on harg h0 ho _).trans (if_pos ⟨hf, hst⟩)))

theorem swOff_completes (hf : s.dev.lswFree c = true) (hst : (s.dev.lswAt c).st ≠ .off) :
    exec (.swOff ag arg) s = .next (s.put ((s.dev.lswDemand c false).completed ag 7 0x11)) :=
  next_put (issueCommand_ok (harg.symm ▸ hready) ((lswCommand_on harg h0 ho _).trans (if_pos ⟨hf, hst⟩)))

theorem swOn_fromOff (hf : s.dev.lswFree c = true) (hst : (s.dev.lswAt c).st = .off) (hd : (s.dev.lswAt c).demand = false) :
    ∃ t, exec (.swOn ag arg) s = .next t ∧ (t.dev.lsw.c[c]).demand = true ∧ t.dev.reply.status = 0 ∧
      (t.dev.lsw.c[c]).st = (if s.dev.rfld 7 c.val 0 15 8 = 0 then .on else .inrush) ∧
      (∀ b : Fin 16, b ≠ c → t.dev.lsw.c[b] = s.dev.lsw.c[b]) ∧
      t.dev = { s.dev with lsw := { s.dev.lsw with c := t.dev.lsw.c }, views := t.dev.views, reply := t.dev.reply } := by
  have hexec := swOn_completes harg h0 hready ho hf (.inl hst)
  have hcomp := Dev.completed_of_only (s.dev.lswDemand_only c true) ag 7 0x10
  have hne : ∀ b, b ≠ c → (s.dev.lswDemand c true).lswAt b = s.dev.lswAt b := by
    rw [Dev.lswDemand_off_on ho hd hst]
    exact fun b hb => (Dev.lswInrush_lswAt_ne hb).trans (Dev.updLsw_lswAt_ne hb)
  have hc : (s.dev.lswDemand c true).lswAt c = _ :=
    (congrArg (fun e : Dev => e.lswAt c) (Dev.lswDemand_off_on ho hd hst)).trans (Dev.updLsw_lswAt_self ..)
  rw [Dev.updLsw_lswAt_self] at hc
  generalize s.dev.lswDemand c true = D at *
  exact ⟨_, hexec, (congrArg LswChan.demand hc :), rfl, (congrArg LswChan.st hc :), hne, hcomp⟩

theorem swOff_driven (hf : s.dev.lswFree c = true) (hst : (s.dev.lswAt c).st.driven = true) (hd : (s.dev.lswAt c).demand = true) :
    ∃ t, exec (.swOff ag arg) s = .next t ∧ (t.dev.lsw.c[c]).demand = false ∧ (t.dev.lsw.c[c]).st = .off ∧
      t.dev.reply.status = 0 ∧ ∀ b : Fin 16, lswGroup b ≠ lswGroup c → t.dev.lsw.c[b] = s.dev.lsw.c[b] := by
  have hexec := swOff_completes harg h0 hready ho hf (fun h => absurd ((congrArg LswSt.driven h).symm.trans hst) (by decide))
  have hne : ∀ b, lswGroup b ≠ lswGroup c → (s.dev.lswDemand c false).lswAt b = s.dev.lswAt b :=
    fun b hb => Dev.lswDemand_lswAt (fun h => hb (congrArg lswGroup h)) (.inr hb) false
  have hoff : ((s.dev.updLsw c fun y => { y with demand := false }).lswOff c).lswAt c = _ := Dev.updLsw_lswAt_self ..
  rw [Dev.updLsw_lswAt_self] at hoff
  have hc : (s.dev.lswDemand c false).lswAt c = _ :=
    (congrArg (fun e : Dev => e.lswAt c) (Dev.lswDemand_driven ho hd hst)).trans
      ((Dev.lswSettle_lswAt (congrArg LswChan.hold hoff)).trans hoff)
  generalize s.dev.lswDemand c false = D at *
  exact ⟨_, hexec, (congrArg LswChan.demand hc :), (congrArg LswChan.st hc :), rfl, hne⟩

theorem swOff_atRest (hf : s.dev.lswFree c = true) (hoff : (s.dev.lswAt c).st ≠ .off) (hst : (s.dev.lswAt c).st.driven = false) :
    ∃ t, exec (.swOff ag arg) s = .next t ∧ (t.dev.lsw.c[c]).demand = false ∧ t.dev.reply.status = 0 ∧
      (t.dev.lsw.c[c]).st = (if (s.dev.lsw.c[c]).hold = true ∧ (s.dev.lsw.c[c]).demand = true then .off else (s.dev.lsw.c[c]).st) ∧
      ∀ b : Fin 16, b ≠ c → t.dev.lsw.c[b] = s.dev.lsw.c[b] := by
  have hexec := swOff_completes harg h0 hready ho hf hoff
  obtain ⟨hd, hs, hne⟩ := Dev.lswDemand_rest_off ho hst
  generalize s.dev.lswDemand c false = D at *
  exact ⟨_, hexec, hd, rfl, hs, hne⟩

theorem swOnOff_refused (hf : s.dev.lswFree c = false) :
    ∃ t u, exec (.swOn ag arg) s = .next t ∧ exec (.swOff ag arg) s = .next u ∧ t.dev.reply.status = 2 ∧ u.dev.reply.status = 2 ∧
      t.dev.lsw = s.dev.lsw ∧ u.dev.lsw = s.dev.lsw := by
  have hno : ∀ p : Prop, ¬(s.dev.lswFree c = true ∧ p) := fun p h => absurd h.1 (by rw [hf]; decide)
  exact ⟨_, _, next_put (issueCommand_state (harg.symm ▸ hready) ((lswCommand_on harg h0 ho _).trans (if_neg (hno _)))),
    next_put (issueCommand_state (harg.symm ▸ hready) ((lswCommand_on harg h0 ho _).trans (if_neg (hno _)))), rfl, rfl, rfl, rfl⟩

/-! ### SW_RELEASE (R340, R345) -/

theorem swRelease_run {D : Dev} (h : swReleaseCmd c s.dev = (.ok, D)) :
    exec (.swRelease ag arg) s = .next (s.put (D.completed ag 7 0x12)) :=
  next_put (issueCommand_ok (harg.symm ▸ hready) ((lswCommand_on harg h0 ho _).trans h))

variable (hr : s.dev.releaseAllowed c = true)
include hr

omit harg h0 hready ho in
theorem releaseAllowed_not : ¬((!s.dev.releaseAllowed c) = true) := by
  rw [hr]
  decide

theorem swRelease_latched (hst : (s.dev.lswAt c).st = .latched) (ht : (s.dev.lswAt c).tj < 140) :
    exec (.swRelease ag arg) s = .next (s.put ((s.dev.lswResume c).completed ag 7 0x12)) :=
  swRelease_run harg h0 hready ho ((if_neg (releaseAllowed_not hr)).trans (if_pos ⟨hst, ht⟩))

theorem swRelease_lockedOff (hst : (s.dev.lswAt c).st = .lockedOff) (ht : (s.dev.lswAt c).tj < 140) :
    ∃ t, exec (.swRelease ag arg) s = .next t ∧ (t.dev.lsw.c[c]).used = 0 ∧ t.dev.reply.status = 0 ∧
      (t.dev.lsw.c[c]).st = (if (s.dev.lsw.c[c]).demand = false then .off
        else if s.dev.rfld 7 c.val 0 15 8 = 0 then .on else .inrush) := by
  have hno : ¬((s.dev.lswAt c).st = .latched ∧ (s.dev.lswAt c).tj < 140) := fun h => absurd (h.1.symm.trans hst) (by decide)
  have hrun := swRelease_run harg h0 hready ho
    ((if_neg (releaseAllowed_not hr)).trans ((if_neg hno).trans ((if_pos hst).trans (if_neg (Int.not_le.mpr ht)))))
  have hd1 := s.dev.updLsw_lswAt_self c fun x => { x with used := 0 }
  have hc : (((s.dev.updLsw c fun x => { x with used := 0 }).lswResume c).lswAt c).used = 0 ∧
      (((s.dev.updLsw c fun x => { x with used := 0 }).lswResume c).lswAt c).st = (if (s.dev.lswAt c).demand = false then .off
        else if s.dev.rfld 7 c.val 0 15 8 = 0 then .on else .inrush) := by
    have hdem : (s.dev.updLsw c fun x => { x with used := 0 }).lsw.c[c].demand = (s.dev.lswAt c).demand :=
      (congrArg LswChan.demand hd1 :)
    unfold Dev.lswResume
    rw [hdem]
    cases hd : (s.dev.lswAt c).demand with
    | true =>
      have hin : ((s.dev.updLsw c fun x => { x with used := 0 }).lswInrush c).lswAt c = _ := Dev.updLsw_lswAt_self ..
      rw [hd1] at hin
      exact ⟨(congrArg LswChan.used hin :), (congrArg LswChan.st hin :)⟩
    | false =>
      have hoff : ((s.dev.updLsw c fun x => { x with used := 0 }).lswOff c).lswAt c = _ := Dev.updLsw_lswAt_self ..
      rw [hd1] at hoff
      exact ⟨(congrArg LswChan.used hoff :), (congrArg LswChan.st hoff :)⟩
  generalize (s.dev.updLsw c fun x => { x with used := 0 }).lswResume c = D at *
  exact ⟨_, hrun, hc.1, rfl, hc.2⟩

theorem swRelease_hot (hst : (s.dev.lswAt c).st = .lockedOff) (ht : 140 ≤ (s.dev.lswAt c).tj) :
    ∃ t, exec (.swRelease ag arg) s = .next t ∧ (t.dev.lsw.c[c]).st = .latched ∧ (t.dev.lsw.c[c]).reason = 3 ∧
      t.dev.reply.status = 0 := by
  have hno : ¬((s.dev.lswAt c).st = .latched ∧ (s.dev.lswAt c).tj < 140) := fun h => absurd (h.1.symm.trans hst) (by decide)
  have hrun := swRelease_run harg h0 hready ho
    ((if_neg (releaseAllowed_not hr)).trans ((if_neg hno).trans ((if_pos hst).trans (if_pos ht))))
  have hc := ((s.dev.updLsw c fun x => { x with used := 0 }).updLsw c fun x =>
    { x with st := .latched, reason := 3, since := s.dev.el }).raiseLsw_lswAt 2 c
  rw [Dev.updLsw_lswAt_self] at hc
  generalize ((s.dev.updLsw c fun x => { x with used := 0 }).updLsw c fun x =>
    { x with st := .latched, reason := 3, since := s.dev.el }).raiseLsw 2 = D at *
  exact ⟨_, hrun, (congrArg LswChan.st hc :), (congrArg LswChan.reason hc :), rfl⟩

end

/-- Settles O42: each command by the state of its channel. -/
theorem switchCommands : Obligations.SwitchCommands := by
  unfold Obligations.SwitchCommands
  intro ag arg c s harg h0 hready ho
  refine ⟨fun hf => ⟨fun hst hd => swOn_fromOff harg h0 hready ho hf hst hd, fun hst hd => ?_, fun hst hd => ?_,
    fun hst hd => swOff_driven harg h0 hready ho hf hst hd, fun hst => ?_⟩, fun hf => swOnOff_refused harg h0 hready ho hf,
    fun hr => ⟨fun hst ht => swRelease_latched harg h0 hready ho hr hst ht,
      fun hst ht => swRelease_lockedOff harg h0 hready ho hr hst ht, fun hst ht => swRelease_hot harg h0 hready ho hr hst ht⟩⟩
  · rw [swOn_completes harg h0 hready ho hf hst, Dev.lswDemand_same hd]
  · have hoff : (s.dev.lswAt c).st ≠ .off := by
      rcases hst with h | h <;> exact fun hoff => absurd (h.symm.trans hoff) (by decide)
    rw [swOn_completes harg h0 hready ho hf (.inr hst), Dev.lswDemand_waits ho hd hoff]
  · have hrest : (s.dev.lswAt c).st ≠ .off ∧ (s.dev.lswAt c).st.driven = false := by
      rcases hst with h | h | h <;>
        exact ⟨fun hoff => absurd (h.symm.trans hoff) (by decide), congrArg LswSt.driven h⟩
    exact swOff_atRest harg h0 hready ho hf hrest.1 hrest.2

end Sys2Proof.Machine
end

section
/-! SUPPORT. The panel layer: buffers, regions, and what starting and ending an operation leaves. -/

namespace Sys2Proof.Machine

/-! ### Buffers (R443) -/

theorem findPix_putPix (m : List (Nat × BitVec 4)) (i : Nat) (v : BitVec 4) (p : Nat) :
    findPix (putPix m i v) p = if p = i then v else findPix m p := by
  induction m with
  | nil => simp [putPix, findPix, eq_comm]
  | cons x r ih =>
    obtain ⟨k, u⟩ := x
    unfold putPix
    split
    · simp only [findPix, eq_comm]
    · split
      case isTrue hik =>
        subst hik
        by_cases hp : p = i
        · simp [findPix, hp]
        · simp [findPix, hp, Ne.symm hp]
      case isFalse hik =>
        rw [findPix, findPix, ih]
        by_cases hk : k = p
        · subst hk
          rw [if_pos rfl, if_pos rfl, if_neg (Ne.symm hik)]
        · rw [if_neg hk, if_neg hk]

theorem findPix_filter (m : List (Nat × BitVec 4)) (i p : Nat) :
    findPix (m.filter fun e => e.1 ≠ i) p = if p = i then 0 else findPix m p := by
  induction m with
  | nil => simp [findPix]
  | cons x r ih =>
    obtain ⟨k, u⟩ := x
    by_cases hk : k = i
    · subst hk
      rw [List.filter_cons_of_neg (by simp), ih, findPix]
      by_cases hp : p = k
      · rw [if_pos hp, if_pos hp]
      · rw [if_neg hp, if_neg hp, if_neg (Ne.symm hp)]
    · rw [List.filter_cons_of_pos (by simpa using hk), findPix, findPix, ih]
      by_cases hp : k = p
      · subst hp
        rw [if_pos rfl, if_pos rfl, if_neg hk]
      · rw [if_neg hp, if_neg hp]

/-- A pixel that is set reads back, and no other changes. -/
theorem findPix_setPix (m : List (Nat × BitVec 4)) (i : Nat) (v : BitVec 4) (p : Nat) :
    findPix (setPix m i v) p = if p = i then v else findPix m p := by
  unfold setPix
  split
  case isTrue hv =>
    rw [findPix_filter, hv]
  case isFalse => exact findPix_putPix m i v p

/-- Pixels set one after another to values of their own. -/
theorem findPix_foldl (f : Nat → BitVec 4) (ps : List Nat) (m : List (Nat × BitVec 4)) (p : Nat) :
    findPix (ps.foldl (fun m q => setPix m q (f q)) m) p = if ps.contains p then f p else findPix m p := by
  induction ps generalizing m with
  | nil => rfl
  | cons q ps ih =>
    rw [List.foldl_cons, ih, findPix_setPix, List.contains_cons]
    by_cases hp : p = q
    · subst hp
      simp
    · simp [hp]

theorem pixBytes_congr {m k : List (Nat × BitVec 4)} (ps : List Nat) (h : ∀ p, p ∈ ps → findPix m p = findPix k p) :
    pixBytes m ps = pixBytes k ps := by
  induction ps using pixBytes.induct with
  | case1 a b r ih =>
    rw [pixBytes, pixBytes, h a (by simp), h b (by simp), ih fun p hp => h p (by simp [hp])]
  | case2 ps hps =>
    rw [pixBytes, pixBytes] <;> exact hps

/-! ### Regions -/

/-- Region `r`. -/
def Dev.region (d : Dev) (r : Fin 16) : Region := d.pnl.r[r]

theorem Dev.updRgn_region (d : Dev) (r q : Fin 16) (f : Region → Region) :
    (d.updRgn r f).region q = if q = r then f (d.region r) else d.region q := Dev.updRgn_at d r q f

@[simp] theorem Dev.updRgn_region_self (d : Dev) (r : Fin 16) (f : Region → Region) :
    (d.updRgn r f).region r = f (d.region r) := (d.updRgn_region r r f).trans (if_pos rfl)

theorem Dev.updRgn_region_ne {d : Dev} {r q : Fin 16} {f : Region → Region} (h : q ≠ r) :
    (d.updRgn r f).region q = d.region q := (d.updRgn_region r q f).trans (if_neg h)

theorem region_of_pnl {d e : Dev} (h : e.pnl = d.pnl) (r : Fin 16) : e.region r = d.region r :=
  congrArg (fun x : PnlState => x.r[r]) h

theorem Dev.raisePnl_pnl (d : Dev) (b : Nat) : (d.raisePnl b).pnl = d.pnl := Dev.raise_pnl ..

theorem Dev.raisePwrUp_region (d : Dev) (r : Fin 16) : d.raisePwrUp.region r = d.region r := by
  unfold Dev.raisePwrUp
  split
  · rfl
  · rfl

/-- What a region that starts an operation is (R449). -/
def Region.starting (x : Region) (st : RgnSt) (table : Nat) (exp : Word) : Region :=
  { x with st := st, table := table, exp := exp, frame := 0, started := false, pending := none }

theorem Dev.startRegion_region (d : Dev) (r q : Fin 16) (st : RgnSt) (table : Nat) (exp : Word) :
    (d.startRegion r st table exp).region q = if q = r then (d.region r).starting st table exp else d.region q :=
  (Dev.raisePwrUp_region ..).trans (d.updRgn_region r q _)

theorem Dev.startRegion_flags (d : Dev) (r : Fin 16) (st : RgnSt) (table : Nat) (exp : Word) :
    (d.startRegion r st table exp).flags = d.flags := by
  unfold Dev.startRegion Dev.raisePwrUp
  split <;> rfl

theorem Dev.rgnUsed_of_img {d e : Dev} (h : e.img = d.img) (r : Nat) : e.rgnUsed r = d.rgnUsed r := by
  unfold Dev.rgnUsed Dev.rgnW Dev.persona16 Dev.persona
  rw [h]

theorem Dev.rgnCrc_of_img {d e : Dev} (h : e.img = d.img) (m : List (Nat × BitVec 4)) (r : Nat) : e.rgnCrc m r = d.rgnCrc m r := by
  unfold Dev.rgnCrc Dev.rgnPixels Dev.rgnX Dev.rgnY Dev.rgnH Dev.rgnW Dev.persona16 Dev.persona
  rw [h]

/-! ### The watch over the legal regions (R451) -/

theorem Dev.watchLegal_pnl (d : Dev) (f : Dev → Dev) : (d.watchLegal f).pnl = (f d).pnl := by
  unfold Dev.watchLegal
  rw [Dev.oneEvent_pnl]
  dsimp only
  split
  · exact Dev.raisePnl_pnl ..
  · rfl

theorem Dev.watchLegal_lost {d : Dev} {f : Dev → Dev} {r : Fin 16} (hl : d.rgnLegal r.val = true) (hv : d.verified r = true)
    (hn : (f d).verified r = false) : (d.watchLegal f).flagBit 12 0 0x10 5 = true := by
  unfold Dev.watchLegal
  have hany : ((List.finRange 16).any fun r => d.rgnLegal r.val && d.verified r && !(f d).verified r) = true :=
    List.any_eq_true.mpr ⟨r, List.mem_finRange r, by rw [hl, hv, hn]; rfl⟩
  rw [Dev.flagBit_oneEvent, if_pos hany]
  exact Dev.flagBit_raise_self _ 12 0 0x10 (2 ^ 5) 5 (by decide) (by decide)

theorem Dev.verified_not_idle {d : Dev} {r : Fin 16} (h : (d.region r).st ≠ .idle) : d.verified r = false := by
  have hst : decide ((d.region r).st = .idle) = false := decide_eq_false h
  unfold Dev.verified Region.verified
  rw [show decide (d.pnl.r[r].st = .idle) = false from hst]
  simp

/-! ### Commands on a region (R458) -/

theorem Dev.onRegion_run {d : Dev} {arg : BitVec 24} {r : Fin 16} (harg : argUnit arg = r.val) (hu : d.rgnUsed r.val = true)
    (hf : d.pnl.fn.st = .running) (h : Fin 16 → CmdSt × Dev) : d.onRegion arg h = h r := by
  obtain ⟨r, hr⟩ := r
  obtain rfl : argUnit arg = r := harg
  have hrun : d.pnl.fn.isRunning = true := by
    unfold Func.isRunning
    rw [hf]
    rfl
  exact (dif_pos hr).trans ((if_neg (by rw [show d.rgnUsed (argUnit arg) = true from hu]; decide)).trans
    (if_neg (by rw [hrun]; decide)))

end Sys2Proof.Machine
end

section
/-! SUPPORT. UPDATE, ADOPT, CLEAR and their completion (O52). -/

namespace Sys2Proof.Machine

/-! ### The commands (R449, R450, R453) -/

section
variable {ag : Agent} {arg : BitVec 24} {r : Fin 16} {s : State} (harg : argUnit arg = r.val)
  (hready : s.dev.ready ag 12 (0x10 + r.val)) (hu : s.dev.rgnUsed r.val = true) (hf : s.dev.pnl.fn.st = .running)

/-- The CRC that an agent expects of a region. -/
def Dev.expected (d : Dev) (ag : Agent) (r : Fin 16) : Word := d.view ag (lattice 12 (0x10 + r.val) 0x10)

include harg hu hf in
theorem updateCmd_run (h1 : 1 ≤ argBits arg 15 8) (h3 : argBits arg 15 8 ≤ 3) : updateCmd ag arg s.dev =
    (let x := s.dev.pnl.r[r]
     let exp := s.dev.view ag (lattice 12 (0x10 + r.val) 0x10)
     if x.st = .idle then (.ok, s.dev.watchLegal fun d => d.startRegion r .running (argBits arg 15 8) exp)
     else if x.busy then
       let d1 := s.dev.updRgn r fun x => { x with pending := some (argBits arg 15 8, exp) }
       (.ok, if x.pending.isSome then d1.raisePnl 2 else d1)
     else (.state x.st.code, s.dev)) :=
  (if_neg (by omega)).trans (Dev.onRegion_run harg hu hf _)

include harg hready

theorem pnlUpdate_completes {D : Dev} (h : updateCmd ag arg s.dev = (.ok, D)) :
    exec (.pnlUpdate ag arg) s = .next (s.put (D.completed ag 12 0x10)) := next_put (issueCommand_ok (harg.symm ▸ hready) h)

theorem clear_completes {D : Dev} (h : clearCmd arg s.dev = (.ok, D)) :
    exec (.clear ag arg) s = .next (s.put (D.completed ag 12 0x12)) := next_put (issueCommand_ok (harg.symm ▸ hready) h)

include hu hf

theorem update_idle (h1 : 1 ≤ argBits arg 15 8) (h3 : argBits arg 15 8 ≤ 3) (hst : (s.dev.pnl.r[r]).st = .idle) :
    ∃ t, exec (.pnlUpdate ag arg) s = .next t ∧ t.dev.reply.status = 0 ∧ (t.dev.pnl.r[r]).st = .running ∧
      (t.dev.pnl.r[r]).table = argBits arg 15 8 ∧ (t.dev.pnl.r[r]).pending = none ∧
      (t.dev.pnl.r[r]).exp = s.dev.view ag (lattice 12 (0x10 + r.val) 0x10) ∧
      (s.dev.rgnLegal r.val = true → s.dev.verified r = true → t.dev.flagBit 12 0 0x10 5 = true) ∧
      ∀ q : Fin 16, q ≠ r → t.dev.pnl.r[q] = s.dev.pnl.r[q] := by
  have hcmd : updateCmd ag arg s.dev = (.ok, s.dev.watchLegal fun d => d.startRegion r .running (argBits arg 15 8) (s.dev.expected ag r)) :=
    (updateCmd_run harg hu hf h1 h3).trans (if_pos hst)
  have hexec := pnlUpdate_completes harg hready hcmd
  have hat : ∀ q, (s.dev.watchLegal fun d => d.startRegion r .running (argBits arg 15 8) (s.dev.expected ag r)).region q =
      if q = r then (s.dev.region r).starting .running (argBits arg 15 8) (s.dev.expected ag r) else s.dev.region q := fun q =>
    (region_of_pnl (Dev.watchLegal_pnl ..) q).trans (s.dev.startRegion_region r q ..)
  have hlost : s.dev.rgnLegal r.val = true → s.dev.verified r = true →
      (s.dev.watchLegal fun d => d.startRegion r .running (argBits arg 15 8) (s.dev.expected ag r)).flagBit 12 0 0x10 5 = true :=
    fun hl hv => Dev.watchLegal_lost hl hv (Dev.verified_not_idle (by
      rw [Dev.startRegion_region, if_pos rfl]
      exact nofun))
  generalize (s.dev.watchLegal fun d => d.startRegion r .running (argBits arg 15 8) (s.dev.expected ag r)) = D at *
  have hr := (hat r).trans (if_pos rfl)
  exact ⟨_, hexec, rfl, (congrArg Region.st hr :), (congrArg Region.table hr :), (congrArg Region.pending hr :),
    (congrArg Region.exp hr :), fun hl hv => (Dev.answered_flagBit ..).trans (hlost hl hv), fun q hq => (hat q).trans (if_neg hq)⟩

theorem update_waits (h1 : 1 ≤ argBits arg 15 8) (h3 : argBits arg 15 8 ≤ 3)
    (hst : (s.dev.pnl.r[r]).st = .running ∨ (s.dev.pnl.r[r]).st = .clearing) :
    ∃ t, exec (.pnlUpdate ag arg) s = .next t ∧ t.dev.reply.status = 0 ∧ (t.dev.pnl.r[r]).st = (s.dev.pnl.r[r]).st ∧
      (t.dev.pnl.r[r]).pending = some (argBits arg 15 8, s.dev.view ag (lattice 12 (0x10 + r.val) 0x10)) ∧
      ((s.dev.pnl.r[r]).pending ≠ none → t.dev.flagBit 12 0 0x10 2 = true) := by
  have hne : (s.dev.pnl.r[r]).st ≠ .idle := by
    rcases hst with h | h <;> exact fun hi => absurd (h.symm.trans hi) (by decide)
  have hbusy : (s.dev.pnl.r[r]).busy = true := by
    unfold Region.busy
    rcases hst with h | h <;> rw [h] <;> rfl
  let d1 := s.dev.updRgn r fun x => { x with pending := some (argBits arg 15 8, s.dev.expected ag r) }
  have hcmd : updateCmd ag arg s.dev = (.ok, if (s.dev.pnl.r[r]).pending.isSome then d1.raisePnl 2 else d1) :=
    (updateCmd_run harg hu hf h1 h3).trans ((if_neg hne).trans (if_pos hbusy))
  have hexec := pnlUpdate_completes harg hready hcmd
  have hr : (if (s.dev.pnl.r[r]).pending.isSome then d1.raisePnl 2 else d1).region r =
      { s.dev.region r with pending := some (argBits arg 15 8, s.dev.expected ag r) } := by
    have hd1 : d1.region r = { s.dev.region r with pending := some (argBits arg 15 8, s.dev.expected ag r) } := s.dev.updRgn_region_self r _
    split
    · exact (region_of_pnl (Dev.raisePnl_pnl ..) r).trans hd1
    · exact hd1
  have hflag : (s.dev.pnl.r[r]).pending ≠ none →
      (if (s.dev.pnl.r[r]).pending.isSome then d1.raisePnl 2 else d1).flagBit 12 0 0x10 2 = true := fun hp => by
    rw [if_pos (Option.isSome_iff_ne_none.mpr hp)]
    exact Dev.flagBit_raise_self _ 12 0 0x10 (2 ^ 2) 2 (by decide) (by decide)
  generalize (if (s.dev.pnl.r[r]).pending.isSome then d1.raisePnl 2 else d1) = D at *
  exact ⟨_, hexec, rfl, (congrArg Region.st hr :), (congrArg Region.pending hr :), fun hp => (Dev.answered_flagBit ..).trans (hflag hp)⟩

theorem update_refused (h1 : 1 ≤ argBits arg 15 8) (h3 : argBits arg 15 8 ≤ 3)
    (hst : (s.dev.pnl.r[r]).st = .unknown ∨ (s.dev.pnl.r[r]).st = .held) :
    ∃ t, exec (.pnlUpdate ag arg) s = .next t ∧ t.dev.reply.status = 2 ∧ t.dev.pnl = s.dev.pnl := by
  have hne : (s.dev.pnl.r[r]).st ≠ .idle := by
    rcases hst with h | h <;> exact fun hi => absurd (h.symm.trans hi) (by decide)
  have hbusy : ¬(s.dev.pnl.r[r]).busy = true := by
    unfold Region.busy
    rcases hst with h | h <;> rw [h] <;> decide
  exact ⟨_, next_put (issueCommand_state (harg.symm ▸ hready) ((updateCmd_run harg hu hf h1 h3).trans ((if_neg hne).trans (if_neg hbusy)))),
    rfl, rfl⟩

theorem adopt_held (hst : (s.dev.pnl.r[r]).st = .held) (hcrc : (s.dev.pnl.r[r]).jCrc = s.dev.rgnCrc s.dev.pnl.new r.val)
    (hup : (s.dev.pnl.r[r]).jUpdate = true) (hval : (s.dev.pnl.r[r]).jValid = true) (hp : (s.dev.pnl.r[r]).pending = none) :
    ∃ t, exec (.adopt ag arg) s = .next t ∧ t.dev.reply.status = 0 ∧ t.dev.verified r = true ∧
      (t.dev.pnl.r[r]).crc = s.dev.rgnCrc s.dev.pnl.new r.val := by
  let crc := s.dev.rgnCrc s.dev.pnl.new r.val
  let D := (s.dev.copyPixels (s.dev.rgnPixels r.val)).updRgn r fun x =>
    { x with st := .idle, crc := crc, exp := crc, lastUpdate := true, done := x.done + 1 }
  have hcmd : adoptCmd arg s.dev = (.ok, D) :=
    (Dev.onRegion_run harg hu hf _).trans ((if_neg (fun h => h hst)).trans (if_pos ⟨hcrc.symm, hup, hval⟩))
  have hr : D.region r = { s.dev.region r with
      st := .idle, crc := crc, exp := crc, lastUpdate := true, done := (s.dev.region r).done + 1 } := Dev.updRgn_region_self ..
  have himg : D.img = s.dev.img := rfl
  clear_value D
  refine ⟨s.put (D.completed ag 12 0x11), next_put (issueCommand_ok (harg.symm ▸ hready) hcmd), rfl, ?_, (congrArg Region.crc hr :)⟩
  have hused : (D.completed ag 12 0x11).rgnUsed r.val = true :=
    (Dev.rgnUsed_of_img ((Dev.completed_img D ag 12 0x11).trans himg) r.val).trans hu
  have hpend : (s.dev.region r).pending = none := hp
  have hreg : (D.completed ag 12 0x11).pnl.r[r] = _ := (region_of_pnl (Dev.completed_pnl D ag 12 0x11) r).trans hr
  show (_ && _) = true
  unfold Region.verified
  rw [show (s.put (D.completed ag 12 0x11)).dev = D.completed ag 12 0x11 from rfl, hused, hreg, hpend]
  simp

theorem clear_starts (hb : (s.dev.pnl.r[r]).busy = false) :
    ∃ t, exec (.clear ag arg) s = .next t ∧ t.dev.reply.status = 0 ∧ (t.dev.pnl.r[r]).st = .clearing ∧
      (t.dev.pnl.r[r]).table = 0 := by
  have hcmd : clearCmd arg s.dev = (.ok, s.dev.watchLegal fun d => d.startRegion r .clearing 0 0) :=
    (Dev.onRegion_run harg hu hf _).trans (if_neg (by rw [hb]; decide))
  have hexec := clear_completes harg hready hcmd
  have hr : (s.dev.watchLegal fun d => d.startRegion r .clearing 0 0).region r = (s.dev.region r).starting .clearing 0 0 :=
    (region_of_pnl (Dev.watchLegal_pnl ..) r).trans ((s.dev.startRegion_region r r ..).trans (if_pos rfl))
  generalize (s.dev.watchLegal fun d => d.startRegion r .clearing 0 0) = D at *
  exact ⟨_, hexec, rfl, (congrArg Region.st hr :), (congrArg Region.table hr :)⟩

end

/-! ### Completion (R449, R453) -/

section
variable {d : Dev} {r : Fin 16}

/-- What a region is whose operation completed, nothing waiting. -/
def Region.closed (x : Region) (crc : Word) (update : Bool) : Region :=
  { x with
    st := .idle, crc := crc, lastUpdate := update, frame := 0, started := false, done := x.done + 1
    jValid := true, jRunning := false, jCrc := crc, jUpdate := update }

theorem Dev.closeRegion_eq (hp : (d.region r).pending = none) (update : Bool) :
    (d.closeRegion r update).pnl = { (d.updRgn r fun x => x.closed (d.rgnCrc d.pnl.old r.val) update).pnl with tIdle := d.el } ∧
    (d.closeRegion r update).img = d.img := by
  have hpend : ((d.updRgn r fun x => x.closed (d.rgnCrc d.pnl.old r.val) update).pnl.r[r]).pending = none :=
    (congrArg Region.pending (d.updRgn_region_self r _)).trans hp
  have hrun : d.closeRegion r update = (d.updRgn r fun x => x.closed (d.rgnCrc d.pnl.old r.val) update).afterRegion r := rfl
  rw [hrun]
  unfold Dev.afterRegion
  rw [hpend]
  exact ⟨rfl, rfl⟩

theorem Dev.closeRegion_region (hp : (d.region r).pending = none) (update : Bool) (q : Fin 16) :
    (d.closeRegion r update).region q =
      if q = r then (d.region r).closed (d.rgnCrc d.pnl.old r.val) update else d.region q :=
  (congrArg (fun x : PnlState => x.r[q]) (Dev.closeRegion_eq hp update).1).trans (d.updRgn_region r q _)

theorem Dev.closeRegion_old (hp : (d.region r).pending = none) (update : Bool) : (d.closeRegion r update).pnl.old = d.pnl.old :=
  (congrArg PnlState.old (Dev.closeRegion_eq hp update).1).trans rfl

theorem Dev.rgnCrc_copied (d : Dev) (r : Fin 16) : (d.copyPixels (d.rgnPixels r.val)).rgnCrc
    (d.copyPixels (d.rgnPixels r.val)).pnl.old r.val = d.rgnCrc d.pnl.new r.val := by
  have hpix : ∀ p, p ∈ d.rgnPixels r.val → findPix (d.copyPixels (d.rgnPixels r.val)).pnl.old p = findPix d.pnl.new p := fun p hp =>
    (findPix_foldl (findPix d.pnl.new) (d.rgnPixels r.val) d.pnl.old p).trans (if_pos (List.contains_iff_mem.mpr hp))
  exact (Dev.rgnCrc_of_img (d := d) rfl ..).trans (congrArg (fun b => w32 (crc32ieee b)) (pixBytes_congr _ hpix))

end

theorem updateComplete_effect {r : Fin 16} {s : State} (hl : s.dev.lastFrame r = true) (hp : (s.dev.pnl.r[r]).pending = none)
    (hst : (s.dev.pnl.r[r]).st = .running) :
    ∃ t, exec (.panelUpdateComplete r) s = .next t ∧ (t.dev.pnl.r[r]).st = .idle ∧
      (t.dev.pnl.r[r]).crc = s.dev.rgnCrc s.dev.pnl.new r.val ∧ (t.dev.pnl.r[r]).lastUpdate = true ∧
      t.dev.flagBit 12 0 0x10 0 = true ∧
      (s.dev.rgnUsed r.val = true → (t.dev.verified r = true ↔ s.dev.rgnCrc s.dev.pnl.new r.val = (s.dev.pnl.r[r]).exp)) ∧
      (∀ p, findPix t.dev.pnl.old p =
        (if (s.dev.rgnPixels r.val).contains p then findPix s.dev.pnl.new p else findPix s.dev.pnl.old p)) ∧
      ∀ q : Fin 16, q ≠ r → t.dev.pnl.r[q] = s.dev.pnl.r[q] := by
  let e := s.dev.copyPixels (s.dev.rgnPixels r.val)
  have hpe : (e.region r).pending = none := hp
  have hat : ∀ q, ((e.closeRegion r true).raisePnl 0).region q =
      if q = r then (s.dev.region r).closed (s.dev.rgnCrc s.dev.pnl.new r.val) true else s.dev.region q := fun q => by
    rw [region_of_pnl (Dev.raisePnl_pnl ..), Dev.closeRegion_region hpe, s.dev.rgnCrc_copied r]
    rfl
  have hold : ((e.closeRegion r true).raisePnl 0).pnl.old = e.pnl.old :=
    (congrArg PnlState.old (Dev.raisePnl_pnl ..)).trans (Dev.closeRegion_old hpe true)
  have himg : ((e.closeRegion r true).raisePnl 0).img = s.dev.img := (Dev.raise_img ..).trans ((Dev.closeRegion_eq hpe true).2.trans rfl)
  have hflag : ((e.closeRegion r true).raisePnl 0).flagBit 12 0 0x10 0 = true :=
    Dev.flagBit_raise_self _ 12 0 0x10 (2 ^ 0) 0 (by decide) (by decide)
  have hexec : exec (.panelUpdateComplete r) s = .next (s.put ((e.closeRegion r true).raisePnl 0)) := next_put (if_pos ⟨hst, hl⟩)
  generalize (e.closeRegion r true).raisePnl 0 = D at *
  have hr := (hat r).trans (if_pos rfl)
  refine ⟨_, hexec, (congrArg Region.st hr :), (congrArg Region.crc hr :), (congrArg Region.lastUpdate hr :), hflag, fun hu => ?_,
    fun p => (congrArg (findPix · p) hold).trans (findPix_foldl (findPix s.dev.pnl.new) ..), fun q hq => (hat q).trans (if_neg hq)⟩
  have hused : D.rgnUsed r.val = true := (Dev.rgnUsed_of_img himg r.val).trans hu
  show (D.rgnUsed r.val && (D.region r).verified) = true ↔ _
  rw [hused, hr]
  unfold Region.verified Region.closed
  rw [show (s.dev.region r).pending = none from hp]
  exact decide_eq_true_iff

theorem clearComplete_effect {r : Fin 16} {s : State} (hl : s.dev.lastFrame r = true) (hp : (s.dev.pnl.r[r]).pending = none)
    (hst : (s.dev.pnl.r[r]).st = .clearing) :
    ∃ t, exec (.panelClearComplete r) s = .next t ∧ (t.dev.pnl.r[r]).st = .idle ∧ t.dev.verified r = false ∧
      (∀ p, findPix t.dev.pnl.old p = (if (s.dev.rgnPixels r.val).contains p then 15 else findPix s.dev.pnl.old p)) := by
  let e := s.dev.whitePixels (s.dev.rgnPixels r.val)
  have hpe : (e.region r).pending = none := hp
  have hr : (e.closeRegion r false).region r = (e.region r).closed (e.rgnCrc e.pnl.old r.val) false :=
    (Dev.closeRegion_region hpe false r).trans (if_pos rfl)
  have hold := Dev.closeRegion_old hpe false
  have hexec : exec (.panelClearComplete r) s = .next (s.put (e.closeRegion r false)) := next_put (if_pos ⟨hst, hl⟩)
  generalize e.closeRegion r false = D at *
  refine ⟨_, hexec, (congrArg Region.st hr :), ?_, fun p => (congrArg (findPix · p) hold).trans (findPix_foldl (fun _ => 15) ..)⟩
  show (D.rgnUsed r.val && (D.region r).verified) = false
  rw [hr]
  unfold Region.verified Region.closed
  simp

/-- Settles O52: each command by the state of its region, and each completion by what it closes. -/
theorem regionUpdates : Obligations.RegionUpdates := by
  unfold Obligations.RegionUpdates
  refine ⟨fun ag arg r s harg hready hu hf => ⟨fun h1 h3 => ⟨?_, ?_, ?_⟩, ?_, ?_⟩, fun r s hl hp => ⟨?_, ?_⟩⟩
  · exact update_idle harg hready hu hf h1 h3
  · exact update_waits harg hready hu hf h1 h3
  · exact update_refused harg hready hu hf h1 h3
  · exact adopt_held harg hready hu hf
  · exact clear_starts harg hready hu hf
  · exact updateComplete_effect hl hp
  · exact clearComplete_effect hl hp

end Sys2Proof.Machine
end

section
/-! SUPPORT. The frames of the panel controller, its supplies, faults and windows (O53). -/

namespace Sys2Proof.Machine

/-! ### Register fields -/

theorem fld_setFld (w : Word) {hi lo : Nat} (v : Nat) (hlo : lo ≤ hi) (hhi : hi < 32) :
    fld (setFld w hi lo v) hi lo = v % 2 ^ (hi + 1 - lo) := by
  unfold fld setFld bits
  obtain ⟨n, hn⟩ : ∃ n, hi + 1 - lo = n := ⟨_, rfl⟩
  rw [hn, BitVec.toNat_ofNat]
  let q := w.toNat / 2 ^ lo
  have hq : (w.toNat - q % 2 ^ n * 2 ^ lo + v % 2 ^ n * 2 ^ lo) / 2 ^ lo = q - q % 2 ^ n + v % 2 ^ n := by
    rw [Nat.add_mul_div_right _ _ (Nat.two_pow_pos lo), Nat.mul_comm (q % 2 ^ n), Nat.sub_mul_div]
  have hword : ∀ x : Nat, x % 2 ^ 32 / 2 ^ lo % 2 ^ n = x / 2 ^ lo % 2 ^ n := fun x => by
    refine Nat.eq_of_testBit_eq fun j => ?_
    simp only [Nat.testBit_mod_two_pow, Nat.testBit_div_two_pow]
    by_cases hj : j < n
    · simp [hj, show j + lo < 32 by omega]
    · simp [hj]
  rw [hword, hq]
  have hdiv : q - q % 2 ^ n = 2 ^ n * (q / 2 ^ n) := by
    have := Nat.div_add_mod q (2 ^ n)
    omega
  rw [hdiv, Nat.mul_add_mod, Nat.mod_mod]

theorem Dev.rfld_setRfld (d : Dev) (g u off : Nat) {hi lo : Nat} (v : Nat) (hlo : lo ≤ hi) (hhi : hi < 32) :
    (d.setRfld g u off hi lo v).rfld g u off hi lo = v % 2 ^ (hi + 1 - lo) := by
  unfold Dev.rfld Dev.setRfld
  rw [Dev.reg_setReg, if_pos rfl]
  exact fld_setFld _ v hlo hhi

/-! ### What the length of an operation and the right to drive depend on -/

/-- The parts of the device that fix an operation's length and, with the supplies, whether frames may be driven. -/
def Dev.driveBasis (d : Dev) : RegFile × ImgState × BitVec 16 × Func × List (List Nat) × RegFile × Bool × Bool :=
  (d.regs, d.img, d.islandRun, d.pnl.fn, d.pnl.lengths, d.pnl.stress, d.pnl.pwrGood, d.pnl.stopped)

/-- From `d` to `e` that basis stays and the supplies do not fall. -/
def Dev.drivesOn (d e : Dev) : Prop := e.driveBasis = d.driveBasis ∧ (d.pnl.pwrUp = true → e.pnl.pwrUp = true)

theorem Dev.drivesOn.rfl {d : Dev} : d.drivesOn d := ⟨Eq.refl _, id⟩

theorem Dev.drivesOn.trans {d e f : Dev} (h : d.drivesOn e) (k : e.drivesOn f) : d.drivesOn f :=
  ⟨k.1.trans h.1, fun hp => k.2 (h.2 hp)⟩

theorem Dev.lastFrame_congr {d e : Dev} {r : Fin 16} (h : d.drivesOn e) (hr : e.region r = d.region r) : e.lastFrame r = d.lastFrame r := by
  obtain ⟨hregs, himg, -, -, hlen, hstress, -, -⟩ : e.regs = d.regs ∧ e.img = d.img ∧ e.islandRun = d.islandRun ∧
      e.pnl.fn = d.pnl.fn ∧ e.pnl.lengths = d.pnl.lengths ∧ e.pnl.stress = d.pnl.stress ∧ e.pnl.pwrGood = d.pnl.pwrGood ∧
      e.pnl.stopped = d.pnl.stopped := by simpa [Dev.driveBasis] using h.1
  have hreg : e.pnl.r[r] = d.pnl.r[r] := hr
  unfold Dev.lastFrame Dev.opLength Dev.lengthOf Dev.bandEff Dev.rfld Dev.reg Dev.rgnPixels Dev.rgnX Dev.rgnY Dev.rgnW Dev.rgnH
    Dev.persona16 Dev.persona
  rw [hreg, hlen, hstress, hregs, himg]

theorem Dev.mayDrive_of_on {d e : Dev} (h : d.drivesOn e) (hm : d.mayDrive = true) : e.mayDrive = true := by
  obtain ⟨-, -, hrun, hfn, -, -, hgood, hstop⟩ : e.regs = d.regs ∧ e.img = d.img ∧ e.islandRun = d.islandRun ∧
      e.pnl.fn = d.pnl.fn ∧ e.pnl.lengths = d.pnl.lengths ∧ e.pnl.stress = d.pnl.stress ∧ e.pnl.pwrGood = d.pnl.pwrGood ∧
      e.pnl.stopped = d.pnl.stopped := by simpa [Dev.driveBasis] using h.1
  have hup : d.pnl.pwrUp = true := by
    simp only [Dev.mayDrive, Bool.and_eq_true] at hm
    exact hm.1.1.2
  unfold Dev.mayDrive Dev.runs at hm ⊢
  rw [hup] at hm
  rw [hfn, hrun, h.2 hup, hgood, hstop]
  exact hm

/-! ### Operations that end (R449, R453) -/

theorem Dev.raisePwrUp_drivesOn (d : Dev) : d.drivesOn d.raisePwrUp := by
  unfold Dev.raisePwrUp
  split
  · exact .rfl
  · exact ⟨rfl, fun _ => rfl⟩

theorem Dev.startRegion_drivesOn (d : Dev) (r : Fin 16) (st : RgnSt) (table : Nat) (exp : Word) :
    d.drivesOn (d.startRegion r st table exp) :=
  Dev.drivesOn.trans (e := d.updRgn r fun x => x.starting st table exp) ⟨rfl, id⟩ (Dev.raisePwrUp_drivesOn _)

theorem Dev.closeRegion_drivesOn (d : Dev) (r : Fin 16) (update : Bool) : d.drivesOn (d.closeRegion r update) := by
  have h1 : d.drivesOn (d.updRgn r fun x => x.closed (d.rgnCrc d.pnl.old r.val) update) := ⟨rfl, id⟩
  refine h1.trans ?_
  show Dev.drivesOn _ (Dev.afterRegion _ r)
  unfold Dev.afterRegion
  split
  · exact Dev.startRegion_drivesOn ..
  · exact ⟨rfl, id⟩

theorem Dev.closeRegion_ne {d : Dev} {r q : Fin 16} (h : q ≠ r) (update : Bool) : (d.closeRegion r update).region q = d.region q := by
  have h1 : (d.updRgn r fun x => x.closed (d.rgnCrc d.pnl.old r.val) update).region q = d.region q := Dev.updRgn_region_ne h
  refine Eq.trans ?_ h1
  show (Dev.afterRegion _ r).region q = _
  unfold Dev.afterRegion
  split
  · exact (Dev.startRegion_region ..).trans (if_neg h)
  · rfl

/-- A region that runs on keeps its state when operations complete: its own is not over, and another's is not its own. -/
theorem Dev.completes_keep {d : Dev} {r : Fin 16} (hl : d.lastFrame r = false) (q : Fin 16) :
    d.drivesOn ((d.updateComplete q).clearComplete q) ∧ ((d.updateComplete q).clearComplete q).region r = d.region r := by
  have hup : d.drivesOn (d.updateComplete q) ∧ (d.updateComplete q).region r = d.region r := by
    unfold Dev.updateComplete
    split
    case isTrue h =>
      have hq : r ≠ q := by
        rintro rfl
        exact absurd (hl.symm.trans h.2) (by decide)
      refine ⟨(Dev.drivesOn.trans (e := d.copyPixels (d.rgnPixels q.val)) ⟨rfl, id⟩ (Dev.closeRegion_drivesOn ..)).trans ⟨rfl, id⟩, ?_⟩
      exact (region_of_pnl (Dev.raisePnl_pnl ..) r).trans ((Dev.closeRegion_ne hq true).trans rfl)
    case isFalse => exact ⟨.rfl, rfl⟩
  have hl1 : (d.updateComplete q).lastFrame r = false := (Dev.lastFrame_congr hup.1 hup.2).trans hl
  generalize d.updateComplete q = e at hup hl1
  unfold Dev.clearComplete
  split
  case isTrue h =>
    have hq : r ≠ q := by
      rintro rfl
      exact absurd (hl1.symm.trans h.2) (by decide)
    exact ⟨hup.1.trans (Dev.drivesOn.trans (e := e.whitePixels (e.rgnPixels q.val)) ⟨rfl, id⟩ (Dev.closeRegion_drivesOn ..)),
      ((Dev.closeRegion_ne hq false).trans rfl).trans hup.2⟩
  case isFalse => exact hup

theorem Dev.stripEnd_keeps (d : Dev) (r : Fin 16) : d.drivesOn d.stripEnd ∧ d.stripEnd.region r = d.region r := by
  unfold Dev.stripEnd
  extract_lets ps
  split
  · split
    · exact ⟨⟨rfl, id⟩, rfl⟩
    · split
      · exact ⟨⟨rfl, id⟩, rfl⟩
      · exact ⟨.rfl, rfl⟩
  · exact ⟨.rfl, rfl⟩

theorem Dev.closeDone_keeps {d : Dev} {r : Fin 16} (hl : d.lastFrame r = false) :
    d.drivesOn d.closeDone ∧ d.closeDone.region r = d.region r := by
  have hfold : ∀ (l : List (Fin 16)) (e : Dev), d.drivesOn e → e.region r = d.region r →
      d.drivesOn (l.foldl (fun (acc : Dev) q => (acc.updateComplete q).clearComplete q) e) ∧
      (l.foldl (fun (acc : Dev) q => (acc.updateComplete q).clearComplete q) e).region r = d.region r := by
    intro l
    induction l with
    | nil => exact fun e he hr => ⟨he, hr⟩
    | cons q l ih =>
      intro e he hr
      obtain ⟨hon, hreg⟩ := Dev.completes_keep ((Dev.lastFrame_congr he hr).trans hl) q
      exact ih _ (he.trans hon) (hreg.trans hr)
  obtain ⟨hs, hr⟩ := d.stripEnd_keeps r
  exact hfold _ _ hs hr

/-! ### A frame (R444) -/

theorem Dev.readBand_region (d : Dev) (r : Fin 16) : d.readBand.region r = d.region r := by
  unfold Dev.readBand Dev.round
  split
  · dsimp only
    split
    · rfl
    · rfl
  · rfl

/-- One frame of a region moves its operation on. -/
def Region.driven (x y : Region) : Prop :=
  y.st = x.st ∧ y.table = x.table ∧ y.started = true ∧ y.frame = (if x.started = true then x.frame + 1 else 0)

theorem Dev.frameRegion_ne {d : Dev} {r q : Fin 16} (h : r ≠ q) : (d.frameRegion q).region r = d.region r := by
  unfold Dev.frameRegion
  dsimp only
  split
  · split
    · exact Dev.updRgn_region_ne h
    · exact (Dev.updRgn_region_ne h).trans (d.readBand_region r)
  · rfl

theorem Dev.frameRegion_self {d : Dev} {r : Fin 16} (hb : (d.region r).busy = true) : (d.region r).driven ((d.frameRegion r).region r) := by
  unfold Dev.frameRegion
  dsimp only
  rw [if_pos (show d.pnl.r[r].busy = true from hb)]
  split
  case isTrue hs =>
    rw [Dev.updRgn_region_self]
    exact ⟨rfl, rfl, hs, (if_pos hs).symm⟩
  case isFalse hs =>
    rw [Dev.updRgn_region_self, d.readBand_region]
    exact ⟨rfl, rfl, rfl, (if_neg hs).symm⟩

theorem foldl_frameRegion_ne (l : List (Fin 16)) (d : Dev) {r : Fin 16} (h : r ∉ l) :
    (l.foldl (fun (acc : Dev) q => acc.frameRegion q) d).region r = d.region r := by
  induction l generalizing d with
  | nil => rfl
  | cons q l ih =>
    obtain ⟨hne, hl⟩ := not_or.mp (mt List.mem_cons.mpr h)
    exact (ih _ hl).trans (Dev.frameRegion_ne hne)

theorem foldl_frameRegion_self (l : List (Fin 16)) (hl : l.Nodup) (d : Dev) {r : Fin 16} (h : r ∈ l) (hb : (d.region r).busy = true) :
    (d.region r).driven ((l.foldl (fun (acc : Dev) q => acc.frameRegion q) d).region r) := by
  induction l generalizing d with
  | nil => exact absurd h List.not_mem_nil
  | cons q l ih =>
    obtain ⟨hq, hl⟩ := List.nodup_cons.mp hl
    by_cases hr : r = q
    · subst hr
      rw [List.foldl_cons, foldl_frameRegion_ne l _ hq]
      exact Dev.frameRegion_self hb
    · have hsame := Dev.frameRegion_ne (d := d) hr
      have hstep := ih hl (d.frameRegion q) (List.mem_of_ne_of_mem hr h) (by rw [hsame]; exact hb)
      rw [hsame] at hstep
      exact hstep

theorem Dev.frameStrip_region (d : Dev) (r : Fin 16) : d.frameStrip.region r = d.region r := by
  unfold Dev.frameStrip
  split
  · split
    · rfl
    · exact d.readBand_region r
  · rfl

theorem Dev.driveFrame_region {d : Dev} {r : Fin 16} (hb : (d.region r).busy = true) : (d.region r).driven (d.driveFrame.region r) := by
  have h := foldl_frameRegion_self (List.finRange 16) (List.nodup_finRange 16) d (List.mem_finRange r) hb
  have hsame : d.driveFrame.region r = ((List.finRange 16).foldl (fun (acc : Dev) r => acc.frameRegion r) d).region r := by
    unfold Dev.driveFrame
    generalize (List.finRange 16).foldl (fun (acc : Dev) r => acc.frameRegion r) d = e
    refine Eq.trans ?_ (e.frameStrip_region r)
    generalize e.frameStrip = f
    rfl
  rw [hsame]
  exact h

/-- The journal takes a region's frame (R452). -/
theorem Dev.journalPanel_region (d : Dev) (r : Fin 16) : d.journalPanel.region r =
    { d.region r with
      jRunning := (d.region r).unsure, jValid := true, jTable := (d.region r).table, jFrame := (d.region r).frame } := by
  unfold Dev.journalPanel Dev.region
  simp

/-! ### The frame instant -/

/-- The device with the present frame instant noted. -/
def Dev.frameNoted (d : Dev) : Dev :=
  { d with tim := { d.tim with done := (keyFrame, frameNumber d.tim.now) :: d.tim.done.filter fun e => e.1 ≠ keyFrame } }

/-- The frame of a controller that runs. -/
def Dev.frameFrom (d : Dev) : Dev :=
  if d.pnl.fn.isRunning ∧ d.runs 12 ∧ !d.pnl.stopped then
    (if d.closeDone.mayDrive then d.closeDone.driveFrame else d.closeDone.idleFrame).journalPanel
  else d

theorem Dev.panelFrame_run {d : Dev} (hdue : d.frameDue = true) (hheld : d.pwr.held = false) (hauto : d.pnl.autoDone = true)
    (hm : d.mayDrive = true) : d.panelFrame =
      (if d.frameNoted.closeDone.mayDrive then d.frameNoted.closeDone.driveFrame else d.frameNoted.closeDone.idleFrame).journalPanel := by
  have hstart : d.frameNoted.panelAutoStart = d.frameNoted := by
    refine if_neg fun h => ?_
    rw [show d.frameNoted.pnl.autoDone = true from hauto] at h
    exact absurd h.2 (by decide)
  have hrun : d.pnl.fn.isRunning = true ∧ d.runs 12 = true ∧ (!d.pnl.stopped) = true := by
    simp only [Dev.mayDrive, Bool.and_eq_true] at hm
    exact ⟨hm.1.1.1.1, hm.1.1.1.2, hm.2⟩
  have hfrom : d.panelFrame = d.frameNoted.panelAutoStart.frameFrom := if_pos ⟨hdue, by rw [hheld]; rfl⟩
  rw [hfrom, hstart]
  exact if_pos hrun

theorem panelFrame_tim {d : Dev} (hdue : d.frameDue = true) (hheld : d.pwr.held = false) (hauto : d.pnl.autoDone = true)
    (hm : d.mayDrive = true) : d.panelFrame.tim = d.frameNoted.tim := by
  rw [Dev.panelFrame_run hdue hheld hauto hm]
  have hclose : d.frameNoted.closeDone.tim = d.frameNoted.tim := Dev.closeDone_part (pt := .tim) (by decide) _
  generalize d.frameNoted.closeDone = e at *
  have hdrive : (if e.mayDrive then e.driveFrame else e.idleFrame).tim = e.tim := by
    split
    · exact Dev.driveFrame_part (pt := .tim) (by decide) e
    · rfl
  exact ((Dev.journalPanel_part (pt := .tim) (by decide) _).trans hdrive).trans hclose

theorem panelFrame_frames {s : State} (hdue : s.dev.frameDue = true) (hheld : s.dev.pwr.held = false) (hauto : s.dev.pnl.autoDone = true)
    (hm : s.dev.mayDrive = true) :
    ∃ t, exec .panelFrameInstant s = .next t ∧ t.dev.frameDue = false ∧
      ∀ r : Fin 16, (s.dev.pnl.r[r]).busy = true → s.dev.lastFrame r = false →
        (t.dev.pnl.r[r]).st = (s.dev.pnl.r[r]).st ∧ (t.dev.pnl.r[r]).started = true ∧
        (t.dev.pnl.r[r]).frame = (if (s.dev.pnl.r[r]).started = true then (s.dev.pnl.r[r]).frame + 1 else 0) ∧
        (t.dev.pnl.r[r]).jRunning = true ∧ (t.dev.pnl.r[r]).jTable = (t.dev.pnl.r[r]).table ∧
        (t.dev.pnl.r[r]).jFrame = (t.dev.pnl.r[r]).frame := by
  have htim := panelFrame_tim hdue hheld hauto hm
  have hrun := Dev.panelFrame_run hdue hheld hauto hm
  refine ⟨s.put s.dev.panelFrame, rfl, ?_, fun r hb hl => ?_⟩
  · show s.dev.panelFrame.frameDue = false
    unfold Dev.frameDue Dev.lastRun
    rw [htim]
    simp [Dev.frameNoted]
  · obtain ⟨hon, hreg⟩ := Dev.closeDone_keeps (d := s.dev.frameNoted) (r := r) ((Dev.lastFrame_congr (d := s.dev) ⟨rfl, id⟩ rfl).trans hl)
    have hreg : s.dev.frameNoted.closeDone.region r = s.dev.region r := hreg
    have hm2 : s.dev.frameNoted.closeDone.mayDrive = true := Dev.mayDrive_of_on hon hm
    rw [if_pos hm2] at hrun
    generalize s.dev.frameNoted.closeDone = e at *
    have hdriven := Dev.driveFrame_region (d := e) (r := r) (by rw [hreg]; exact hb)
    rw [hreg] at hdriven
    obtain ⟨hst, -, hstarted, hframe⟩ := hdriven
    have hj : s.dev.panelFrame.region r = _ := (congrArg (fun x : Dev => x.region r) hrun).trans (e.driveFrame.journalPanel_region r)
    have hunsure : (e.driveFrame.region r).unsure = true := by
      unfold Region.unsure
      rw [show (e.driveFrame.region r).busy = true from (congrArg (fun st : RgnSt => decide (st = .running) || decide (st = .clearing)) hst).trans hb]
      rfl
    generalize e.driveFrame.region r = y at *
    show (s.dev.panelFrame.region r).st = _ ∧ (s.dev.panelFrame.region r).started = _ ∧ (s.dev.panelFrame.region r).frame = _ ∧
      (s.dev.panelFrame.region r).jRunning = _ ∧ (s.dev.panelFrame.region r).jTable = (s.dev.panelFrame.region r).table ∧
      (s.dev.panelFrame.region r).jFrame = (s.dev.panelFrame.region r).frame
    rw [hj]
    exact ⟨hst, hstarted, hframe, hunsure, rfl, rfl⟩

/-! ### The clear after a cold reset (R453) -/

theorem Dev.clearStrip_region (d : Dev) (r : Fin 16) : d.clearStrip.region r = d.region r ∧
    d.clearStrip.pnl.autoClear = d.pnl.autoClear := by
  unfold Dev.clearStrip
  split
  · exact ⟨rfl, rfl⟩
  · exact ⟨rfl, rfl⟩

/-- The CLEAR of one region, if it is UNKNOWN. -/
def Dev.clearOne (d : Dev) (r : Fin 16) : Dev :=
  if (d.pnl.r[r]).st = .unknown ∧ d.rgnUsed r.val then d.startRegion r .clearing 0 0 else d

theorem Dev.clearOne_img (d : Dev) (r : Fin 16) : (d.clearOne r).img = d.img := by
  unfold Dev.clearOne
  split
  · exact Dev.startRegion_part (pt := .img) (by decide) ..
  · rfl

theorem Dev.clearOne_ne {d : Dev} {r q : Fin 16} (h : r ≠ q) : (d.clearOne q).region r = d.region r := by
  unfold Dev.clearOne
  split
  · exact (Dev.startRegion_region ..).trans (if_neg h)
  · rfl

theorem foldl_clearOne (l : List (Fin 16)) (d : Dev) {r : Fin 16} (hu : d.rgnUsed r.val = true) :
    (r ∉ l → (l.foldl (fun (acc : Dev) q => acc.clearOne q) d).region r = d.region r) ∧
    (r ∈ l → l.Nodup → (d.region r).st = .unknown →
      (l.foldl (fun (acc : Dev) q => acc.clearOne q) d).region r = (d.region r).starting .clearing 0 0) := by
  induction l generalizing d with
  | nil => exact ⟨fun _ => rfl, fun h => absurd h List.not_mem_nil⟩
  | cons q l ih =>
    obtain ⟨hout, hin⟩ := ih (d.clearOne q) ((Dev.rgnUsed_of_img (d.clearOne_img q) r.val).trans hu)
    refine ⟨fun h => ?_, fun h hl hst => ?_⟩
    · obtain ⟨hne, hl⟩ := not_or.mp (mt List.mem_cons.mpr h)
      exact (hout hl).trans (Dev.clearOne_ne hne)
    · obtain ⟨hq, hl⟩ := List.nodup_cons.mp hl
      by_cases hr : r = q
      · subst hr
        have hone : d.clearOne r = d.startRegion r .clearing 0 0 := if_pos ⟨hst, hu⟩
        exact (hout hq).trans ((congrArg (fun e : Dev => e.region r) hone).trans ((d.startRegion_region r r ..).trans (if_pos rfl)))
      · have hsame := Dev.clearOne_ne (d := d) hr
        exact (hin (List.mem_of_ne_of_mem hr h) hl (by rw [hsame]; exact hst)).trans (congrArg (Region.starting · .clearing 0 0) hsame)

theorem panelAutoClear_clears {s : State} (ha : s.dev.pnl.autoClear = true) (hm : s.dev.mayDrive = true) :
    ∃ t, exec .panelAutoClear s = .next t ∧ t.dev.pnl.autoClear = false ∧
      ∀ r : Fin 16, (s.dev.pnl.r[r]).st = .unknown → s.dev.rgnUsed r.val = true →
        (t.dev.pnl.r[r]).st = .clearing ∧ (t.dev.pnl.r[r]).table = 0 := by
  have hrun : s.dev.panelAutoClear =
      ({ s.dev.clearUnknown with pnl := { s.dev.clearUnknown.pnl with autoClear := false } } : Dev).clearStrip :=
    (if_pos hm).trans (if_pos ha)
  have hreg : ∀ r, s.dev.rgnUsed r.val = true → (s.dev.region r).st = .unknown →
      s.dev.clearUnknown.region r = (s.dev.region r).starting .clearing 0 0 := fun r hu hst =>
    (foldl_clearOne (List.finRange 16) s.dev hu).2 (List.mem_finRange r) (List.nodup_finRange 16) hst
  generalize s.dev.clearUnknown = e at *
  refine ⟨_, next_put hrun, ?_, fun r hst hu => ?_⟩
  · exact (Dev.clearStrip_region _ 0).2
  · have hr := (Dev.clearStrip_region { e with pnl := { e.pnl with autoClear := false } } r).1.trans (hreg r hu hst)
    generalize ({ e with pnl := { e.pnl with autoClear := false } } : Dev).clearStrip = f at *
    exact ⟨(congrArg Region.st hr :), (congrArg Region.table hr :)⟩

/-! ### The strip, the supplies and a fault (R445, R454, R457) -/

theorem Dev.isRunning_of {f : Func} (h : f.st = .running) : f.isRunning = true := by
  unfold Func.isRunning
  rw [h]
  rfl

theorem stripUpdate_draws {s : State} (hf : s.dev.pnl.fn.st = .running) (hon : s.dev.stripOn = true) (hs : s.dev.pnl.stopped = false)
    (hready : s.dev.pnl.stripReady = true) (hidle : s.dev.pnl.strip = .idle) (hc : s.dev.stripCells ≠ s.dev.pnl.stripShown) :
    ∃ t, exec .stripUpdate s = .next t ∧ t.dev.pnl.strip = .running ∧ t.dev.pnl.stripShown = s.dev.stripCells ∧
      t.dev.pnl.pwrUp = true ∧ t.dev.pnl.old = s.dev.pnl.old := by
  have hrun : s.dev.stripUpdate =
      ({ s.dev.renderStrip s.dev.stripCells with pnl := { (s.dev.renderStrip s.dev.stripCells).pnl with
          strip := .running, stripFrame := 0, stripStarted := false } } : Dev).raisePwrUp :=
    if_pos ⟨Dev.isRunning_of hf, hon, by rw [hs]; rfl, hready, hidle, hc⟩
  have hup : ∀ e : Dev, e.pnl.stopped = false → e.raisePwrUp = { e with pnl := { e.pnl with pwrUp := true } } :=
    fun e he => if_neg (by rw [he]; decide)
  exact ⟨_, next_put (hrun.trans (hup _ hs)), rfl, rfl, rfl, rfl⟩

/-- A region whose operation a fault ends. -/
def Region.faulted (x : Region) : Region :=
  if x.busy then { x with st := .unknown, pending := none, started := false, frame := 0 } else x

/-- The panel after a fault. -/
def Dev.faultedPnl (d : Dev) (code : Byte) : PnlState :=
  { d.pnl with
    fn := { st := .fault, code := code }, r := d.pnl.r.map Region.faulted
    strip := if d.pnl.strip = RgnSt.idle then RgnSt.idle else RgnSt.unknown
    stripReady := (decide (d.pnl.strip = RgnSt.idle)) && d.pnl.stripReady
    codes := [], stripStarted := false, stripFrame := 0, tIdle := if d.pnlBusy then d.el else d.pnl.tIdle }

theorem Dev.watchLegal_flag {d : Dev} {f : Dev → Dev} {g u off b : Nat} (hb : b < 16) (h : (f d).flagBit g u off b = true) :
    (d.watchLegal f).flagBit g u off b = true := by
  unfold Dev.watchLegal
  rw [Dev.flagBit_oneEvent]
  dsimp only
  split
  · exact Dev.flagBit_raise_mono _ _ _ _ _ _ _ _ _ hb h
  · exact h

/-- The device after a fault of the panel. -/
def Dev.panelFaulted (code : Byte) (d : Dev) : Dev := ({ d with pnl := d.faultedPnl code } : Dev).raisePnl 3

theorem Dev.panelFaultWith_eq (d : Dev) (code : Byte) : d.panelFaultWith code = d.watchLegal (Dev.panelFaulted code) := rfl

theorem Dev.panelFaultWith_pnl (d : Dev) (code : Byte) : (d.panelFaultWith code).pnl = d.faultedPnl code := by
  rw [d.panelFaultWith_eq, Dev.watchLegal_pnl]
  exact Dev.raisePnl_pnl ..

theorem Dev.panelFaultWith_flag (d : Dev) (code : Byte) : (d.panelFaultWith code).flagBit 12 0 0x10 3 = true := by
  have h : (d.panelFaulted code).flagBit 12 0 0x10 3 = true :=
    Dev.flagBit_raise_self { d with pnl := d.faultedPnl code } 12 0 0x10 (2 ^ 3) 3 (by decide) (by decide)
  rw [d.panelFaultWith_eq]
  exact Dev.watchLegal_flag (by decide) h

theorem panelFault_faults {s : State} {cause : PanelFaultCause} (hf : s.dev.pnl.fn.st = .running) (hs : s.dev.pnl.stopped = false)
    (hc : cause = .pixelClockLost ∨ s.dev.pnlBusy = true) :
    ∃ t, exec (.panelFault cause) s = .next t ∧ t.dev.pnl.fn.st = .fault ∧ t.dev.pnl.fn.code = 1 ∧
      t.dev.flagBit 12 0 0x10 3 = true ∧
      ∀ r : Fin 16, (s.dev.pnl.r[r]).busy = true → (t.dev.pnl.r[r]).st = .unknown ∧ (t.dev.pnl.r[r]).pending = none := by
  have hrun : s.dev.panelFault cause = (if cause = .powerGoodFell then s.dev.powerBad else s.dev).panelFaultWith 1 :=
    if_pos ⟨Dev.isRunning_of hf, by rw [hs]; rfl, hc⟩
  have hr : (if cause = .powerGoodFell then s.dev.powerBad else s.dev).pnl.r = s.dev.pnl.r := by
    split
    · rfl
    · rfl
  generalize (if cause = .powerGoodFell then s.dev.powerBad else s.dev) = e at *
  have hpnl := e.panelFaultWith_pnl 1
  have hflag := e.panelFaultWith_flag 1
  generalize e.panelFaultWith 1 = f at *
  refine ⟨s.put f, next_put hrun, (congrArg (fun x : PnlState => x.fn.st) hpnl :), (congrArg (fun x : PnlState => x.fn.code) hpnl :),
    hflag, fun r hb => ?_⟩
  have hat : f.region r = (e.region r).faulted := by
    refine (congrArg (fun x : PnlState => x.r[r]) hpnl).trans ?_
    show (e.pnl.r.map Region.faulted)[r] = _
    rw [Fin.getElem_fin, Vector.getElem_map]
    rfl
  have hb1 : (e.region r).busy = true := (congrArg (fun v : Vector Region 16 => v[r].busy) hr).trans hb
  have hat := hat.trans (if_pos hb1)
  exact ⟨(congrArg Region.st hat :), (congrArg Region.pending hat :)⟩

/-! ### The window and the memories (R443, R446) -/

/-- Pixels set to the values of their places in a row. -/
theorem findPix_zip (v : Nat → BitVec 4) (ps : List Nat) (hn : ps.Nodup) (i : Nat) (m : List (Nat × BitVec 4)) (p : Nat) :
    findPix ((ps.zip (List.range' i ps.length)).foldl (fun m e => setPix m e.1 (v e.2)) m) p =
      ((ps.findIdx? fun x => x = p).map fun k => v (i + k)).getD (findPix m p) := by
  induction ps generalizing i m with
  | nil => rfl
  | cons q ps ih =>
    obtain ⟨hq, hn⟩ := List.nodup_cons.mp hn
    rw [List.length_cons, List.range'_succ, List.zip_cons_cons, List.foldl_cons, ih hn, findPix_setPix, List.findIdx?_cons]
    by_cases hp : p = q
    · subst hp
      have hnone : (ps.findIdx? fun x => x = p) = none := by
        rw [List.findIdx?_eq_none_iff]
        intro x hx
        exact decide_eq_false (fun h => hq (h ▸ hx))
      simp [hnone]
    · rw [if_neg hp, if_neg (by simpa using Ne.symm hp)]
      cases ps.findIdx? fun x => x = p with
      | none => rfl
      | some k =>
        show v (i + 1 + k) = v (i + (k + 1))
        rw [show i + 1 + k = i + (k + 1) by omega]

theorem Dev.winPixels_nodup (d : Dev) : d.winPixels.Nodup := by
  unfold Dev.winPixels
  refine List.Nodup.map (fun a b h => ?_) List.nodup_range
  omega

theorem Dev.winAdvance_pnl (d : Dev) : d.winAdvance.pnl = d.pnl := by
  unfold Dev.winAdvance
  dsimp only
  split
  · rfl
  · rfl

theorem windowWrite {ag : Agent} {s : State} (hw : s.dev.canWrite ag 12 0) (hin : s.dev.winInside = true) (hrun : s.dev.winRunning = false)
    (w : Word) : ∃ t, exec (.panelWindowAccess ag (some w)) s = .next t ∧ t.dev.reply.status = 0 ∧
      ∀ p, findPix t.dev.pnl.new p = (match s.dev.winPixels.findIdx? (fun x => x = p) with
        | some k => BitVec.ofNat 4 (bits w.toNat (4 * k + 3) (4 * k))
        | none => findPix s.dev.pnl.new p) := by
  let new := (s.dev.winPixels.zip (List.range 8)).foldl
    (fun m e => setPix m e.1 (BitVec.ofNat 4 (bits w.toNat (4 * e.2 + 3) (4 * e.2)))) s.dev.pnl.new
  have heff : s.dev.writeWindow w = (.ok, ({ s.dev with pnl := { s.dev.pnl with new := new } } : Dev).winAdvance) :=
    (if_neg (by rw [hin]; decide)).trans (if_neg (by rw [hrun]; decide))
  have hpnl : ({ s.dev with pnl := { s.dev.pnl with new := new } } : Dev).winAdvance.pnl.new = new :=
    congrArg PnlState.new (Dev.winAdvance_pnl _)
  have hnew : ∀ p, findPix new p = _ := fun p => findPix_zip (fun k => BitVec.ofNat 4 (bits w.toNat (4 * k + 3) (4 * k)))
    s.dev.winPixels s.dev.winPixels_nodup 0 s.dev.pnl.new p
  generalize ({ s.dev with pnl := { s.dev.pnl with new := new } } : Dev).winAdvance = D at *
  refine ⟨s.put (D.answer ag .ok), next_put (writeAccess_run hw heff nofun), rfl, fun p => ?_⟩
  refine (congrArg (findPix · p) hpnl).trans ((hnew p).trans ?_)
  cases s.dev.winPixels.findIdx? fun x => x = p with
  | none => rfl
  | some k =>
    show BitVec.ofNat 4 (bits w.toNat (4 * (0 + k) + 3) (4 * (0 + k))) = _
    rw [Nat.zero_add]

theorem memWord_setMemWord (f : RegFile) (a : Nat) (v : Word) : memWord (setMemWord f a v) a = v := by
  unfold memWord setMemWord
  split
  case isTrue hv =>
    rw [RegFile.find_del, if_pos rfl, hv]
    rfl
  case isFalse =>
    rw [RegFile.find_put, if_pos rfl]
    rfl

theorem Dev.memField_lt (d : Dev) : d.rfld 12 0 0x20 14 0 < 32768 := fld_lt _ 14 0

theorem Dev.writeMem_glyph {d : Dev} (hm : d.rfld 12 0 0x20 31 30 = 1) (ha : d.rfld 12 0 0x20 14 0 < 4096) (w : Word) :
    d.writeMem w = (.ok, ({ d with pnl := { d.pnl with
      glyph := setMemWord d.pnl.glyph (d.rfld 12 0 0x20 14 0) w } } : Dev).memAdvance) := by
  unfold Dev.writeMem Dev.memSel
  rw [hm]
  exact (if_neg (by simp; omega)).trans (if_neg (by decide))

theorem Dev.writeMem_wave {d : Dev} (hm : d.rfld 12 0 0x20 31 30 = 0) (w : Word) :
    d.writeMem w = if d.pnl.fn.idle ∨ (d.pnl.wave.find (d.rfld 12 0 0x20 14 0)).getD 0 = w then
        (.ok, ({ d with pnl := { d.pnl with wave := setMemWord d.pnl.wave (d.rfld 12 0 0x20 14 0) w } } : Dev).memAdvance)
      else (.state d.pnl.fn.st.code, d) := by
  have ha := d.memField_lt
  unfold Dev.writeMem Dev.memSel
  rw [hm]
  exact (if_neg (by simp; omega)).trans (if_pos rfl)

theorem Dev.readMem_wave {d : Dev} (hm : d.rfld 12 0 0x20 31 30 = 0) :
    d.readMem = (.ok, memWord d.pnl.wave (d.rfld 12 0 0x20 14 0), d.memAdvance) := by
  have ha := d.memField_lt
  unfold Dev.readMem Dev.memSel
  rw [hm]
  exact if_neg (by simp; omega)

theorem memoryWrite_glyph {ag : Agent} {s : State} (hw : s.dev.canWrite ag 12 0) (hm : s.dev.rfld 12 0 0x20 31 30 = 1)
    (ha : s.dev.rfld 12 0 0x20 14 0 < 4096) (w : Word) :
    ∃ t, exec (.panelMemoryAccess ag (some w)) s = .next t ∧ t.dev.reply.status = 0 ∧
      memWord t.dev.pnl.glyph (s.dev.rfld 12 0 0x20 14 0) = w ∧
      t.dev.rfld 12 0 0x20 14 0 = s.dev.rfld 12 0 0x20 14 0 + 1 := by
  refine ⟨_, next_put (writeAccess_run hw (Dev.writeMem_glyph hm ha w) nofun), rfl, memWord_setMemWord .., ?_⟩
  refine (Dev.rfld_setRfld _ 12 0 0x20 _ (by decide) (by decide)).trans (Nat.mod_eq_of_lt ?_)
  show s.dev.rfld 12 0 0x20 14 0 + 1 < 32768
  omega

/-- Settles O53: each event of the controller, and each access of its windows, by its own rule. -/
theorem panelController : Obligations.PanelController := by
  unfold Obligations.PanelController
  intro s
  refine ⟨fun hdue hheld hauto hm => panelFrame_frames hdue hheld hauto hm, fun ha hm => panelAutoClear_clears ha hm,
    fun hf hon hs hready hidle hc => stripUpdate_draws hf hon hs hready hidle hc,
    fun hup => ⟨next_put (if_pos hup), fun hb ha hd ht => ?_⟩, fun cause hf hs hc => panelFault_faults hf hs hc,
    fun ht => next_put (if_pos ((Dev.after_iff ..).mpr ht)), fun ag hw => ⟨fun hin hrun w => windowWrite hw hin hrun w,
      fun hm ha w => memoryWrite_glyph hw hm ha w, fun hm w => ⟨fun hi => ?_, fun hi hne => ?_⟩⟩, fun ag hi hg hs => ⟨fun hin => ?_,
        fun hm => ?_⟩⟩
  · refine next_put (if_pos ⟨hup, by rw [hb]; rfl, by rw [ha]; rfl, ?_, (Dev.after_iff ..).mpr ht⟩)
    rw [hd, Bool.and_false]
    rfl
  · exact ⟨_, next_put (writeAccess_run hw ((Dev.writeMem_wave hm w).trans (if_pos (.inl hi))) nofun), rfl, memWord_setMemWord ..⟩
  · have hno : ¬(s.dev.pnl.fn.idle = true ∨ (s.dev.pnl.wave.find (s.dev.rfld 12 0 0x20 14 0)).getD 0 = w) := by
      rintro (h | h)
      · exact absurd (hi.symm.trans h) (by decide)
      · exact hne h
    exact ⟨_, next_put (writeAccess_run hw ((Dev.writeMem_wave hm w).trans (if_neg hno)) nofun), rfl, rfl⟩
  · exact next_put (readAccess_run hi hg hs (h := fun d => d.readWindow) (if_neg (by rw [hin]; decide)) nofun)
  · exact next_put (readAccess_run hi hg hs (Dev.readMem_wave hm) nofun)

end Sys2Proof.Machine
end

section
/-! SUPPORT. The mesh receiver, its tables, the PLC commands and the head-end's requests (O46). -/

namespace Sys2Proof.Machine

/-! ### Routes (R369) -/

theorem Dev.raisePlc_plc (d : Dev) (b : Nat) : (d.raisePlc b).plc = d.plc := Dev.raise_plc ..

theorem mem_putRoute {rs : List MeshRoute} {r x : MeshRoute} (h : x ∈ putRoute rs r) : x ∈ rs ∨ x = r := by
  unfold putRoute at h
  rcases List.mem_append.mp h with hk | hr
  · left
    split at hk
    · exact hk
    · split at hk
      · exact List.mem_of_mem_eraseIdx hk
      · exact List.mem_of_mem_drop hk
  · exact .inr (List.mem_singleton.mp hr)

/-- A next hop that some route of `d` has. -/
def Dev.hop (d : Dev) (a : BitVec 16) : Prop := ∃ r ∈ d.plc.routes, r.next = a

/-- An offered path changes nothing of the mesh but routes, and brings no next hop but its own. -/
theorem Dev.offerRoute_plc (d : Dev) (dest next : BitVec 16) (cost hops : Nat) :
    ∃ rs, (d.offerRoute dest next cost hops).plc = { d.plc with routes := rs } ∧ ∀ r ∈ rs, r.next = next ∨ d.hop r.next := by
  have hkeep : ∀ r ∈ d.plc.routes, r.next = next ∨ d.hop r.next := fun r hr => .inr ⟨r, hr, rfl⟩
  unfold Dev.offerRoute
  extract_lets r
  split
  · exact ⟨_, rfl, hkeep⟩
  · split
    · refine ⟨_, Dev.raisePlc_plc .., fun x hx => ?_⟩
      rcases mem_putRoute hx with hx | rfl
      · exact hkeep x hx
      · exact .inl rfl
    case _ old hold =>
      have hmap : ∀ x ∈ d.plc.routes.map fun x => if x.dest = dest then { r with used := x.used } else x,
          x.next = next ∨ d.hop x.next := fun x hx => by
        obtain ⟨y, hy, rfl⟩ := List.mem_map.mp hx
        split
        · exact .inl rfl
        · exact hkeep y hy
      split
      · exact ⟨_, rfl, hmap⟩
      · split
        · exact ⟨_, Dev.raisePlc_plc .., hmap⟩
        · exact ⟨_, rfl, hkeep⟩

theorem Dev.bestHead_mem {d : Dev} {x : Neighbour} {c h : Nat} (hb : d.bestHead = some (x, c, h)) : x ∈ d.plc.nbrs := by
  have hfold : ∀ (l : List (Neighbour × Nat × Nat)) (a : Option (Neighbour × Nat × Nat)) (y : Neighbour × Nat × Nat),
      l.foldl (fun acc x =>
        if 255 ≤ x.1.cost ∨ d.maxHops < x.2.2 then acc
        else match acc with
          | none => some x
          | some y => some (if x.2.1 < y.2.1 then x else y)) a = some y → a = some y ∨ y ∈ l := by
    intro l
    induction l with
    | nil => exact fun a y h => .inl h
    | cons z l ih =>
      intro a y hy
      rcases ih _ y hy with h | h
      · beta_reduce at h
        split at h
        · exact .inl h
        · cases a with
          | none =>
            obtain rfl : z = y := Option.some.inj h
            exact .inr List.mem_cons_self
          | some b =>
            have h : (if z.2.1 < b.2.1 then z else b) = y := Option.some.inj h
            split at h
            · exact .inr (h ▸ List.mem_cons_self)
            · exact .inl (congrArg some h)
      · exact .inr (List.mem_cons_of_mem _ h)
  rcases hfold _ none _ hb with h | h
  · exact absurd h nofun
  · obtain ⟨y, hy, hm⟩ := List.mem_filterMap.mp h
    obtain ⟨a, -, ha⟩ := Option.map_eq_some_iff.mp hm
    obtain rfl : y = x := congrArg Prod.fst ha
    exact hy

/-- The present path to the head-end takes its present cost. -/
def Dev.headCosted (d : Dev) : Dev :=
  match d.route 1 with
  | some r =>
    match (d.nbr r.next).bind fun x => x.advertised.map fun (a : Nat × Nat) => (x.cost + a.1, a.2 + 1) with
    | some (c, h) => { d with plc := { d.plc with routes := d.plc.routes.map fun (x : MeshRoute) => if x.dest = 1 then { x with cost := min c 0xFFFF, hops := h } else x } }
    | none => d
  | none => d

theorem Dev.headCosted_plc (d : Dev) : ∃ rs, d.headCosted.plc = { d.plc with routes := rs } ∧ ∀ r ∈ rs, d.hop r.next := by
  have hkeep : ∀ r ∈ d.plc.routes, d.hop r.next := fun r hr => ⟨r, hr, rfl⟩
  unfold Dev.headCosted
  split
  · split
    · refine ⟨_, rfl, fun x hx => ?_⟩
      obtain ⟨y, hy, rfl⟩ := List.mem_map.mp hx
      split
      · exact hkeep y hy
      · exact hkeep y hy
    · exact ⟨_, rfl, hkeep⟩
  · exact ⟨_, rfl, hkeep⟩

/-- Choosing the head-end's route anew changes routes only, each by way of a neighbour or of a next hop of before. -/
theorem Dev.recomputeHead_plc (d : Dev) : ∃ rs, d.recomputeHead.plc = { d.plc with routes := rs } ∧
    ∀ r ∈ rs, d.hop r.next ∨ ∃ x ∈ d.plc.nbrs, x.addr = r.next := by
  have hrun : d.recomputeHead = (match d.headCosted.bestHead with
    | some (x, c, h) => d.headCosted.offerRoute 1 x.addr c h
    | none => d.headCosted) := rfl
  obtain ⟨rs, hplc, hrs⟩ := d.headCosted_plc
  rw [hrun]
  generalize d.headCosted = e at *
  have hhop : ∀ a, e.hop a → d.hop a := fun a ⟨r, hr, ha⟩ => ha ▸ hrs r (by rw [hplc] at hr; exact hr)
  split
  case _ x c h hb =>
    obtain ⟨qs, hq, hqs⟩ := e.offerRoute_plc 1 x.addr c h
    refine ⟨qs, by rw [hq, hplc], fun r hr => ?_⟩
    rcases hqs r hr with h' | h'
    · exact .inr ⟨x, by have := Dev.bestHead_mem hb; rw [hplc] at this; exact this, h'.symm⟩
    · exact .inl (hhop _ h')
  case _ => exact ⟨rs, hplc, fun r hr => .inl (hrs r hr)⟩

theorem Dev.relinked_plc (d before : Dev) : ∃ rs, (d.relinked before).plc = { d.plc with routes := rs } := by
  obtain ⟨rs, hplc, -⟩ := Dev.recomputeHead_plc { d with plc := { d.plc with routes := d.plc.routes.map fun (r : MeshRoute) =>
    if r.dest = 1 then r else { r with cost := min 0xFFFF (r.cost + d.linkCost r.next - before.linkCost r.next) } } }
  exact ⟨rs, hplc⟩

theorem Dev.hear_plc (d : Dev) (a : BitVec 16) (snr : Int) : ∃ ns, (d.hear a snr).plc = { d.plc with nbrs := ns } := by
  unfold Dev.hear
  split
  · exact ⟨_, rfl⟩
  · extract_lets s0 x d1
    split
    · exact ⟨_, rfl⟩
    · split
      · split
        · exact ⟨_, rfl⟩
        · exact ⟨_, rfl⟩
      · exact ⟨_, rfl⟩

theorem Dev.inCache_congr {d e : Dev} (hc : e.plc.cache = d.plc.cache) (ht : e.tim = d.tim) (f : MeshFrame) : e.inCache f = d.inCache f := by
  unfold Dev.inCache Dev.el
  rw [hc, ht]

/-- The device once a good frame of this cell is counted and heard. -/
def Dev.heard (d : Dev) (f : MeshFrame) (m : RxMeas) : Dev := ((d.count 8 0 0x1C 31 16).hear f.lsrc (min m.refLo m.refHi)).relinked d

theorem Dev.heard_inCache (d : Dev) (f : MeshFrame) (m : RxMeas) : (d.heard f m).inCache f = d.inCache f := by
  have ht : (d.heard f m).tim = d.tim :=
    (Dev.relinked_part (pt := .tim) (by decide) ..).trans (Dev.hear_part (pt := .tim) (by decide) ..)
  obtain ⟨ns, hn⟩ := (d.count 8 0 0x1C 31 16).hear_plc f.lsrc (min m.refLo m.refHi)
  have hplc : ∃ rs, (d.heard f m).plc = { ((d.count 8 0 0x1C 31 16).hear f.lsrc (min m.refLo m.refHi)).plc with routes := rs } := Dev.relinked_plc ..
  obtain ⟨rs, hr⟩ := hplc
  refine Dev.inCache_congr ?_ ht f
  rw [hr, hn]
  rfl

/-! ### Reception (R363, R364, R371 to R374) -/

section
variable {s : State} {f : MeshFrame} {m : RxMeas}

theorem meshRx_otherPair (h : m.pair ≠ s.dev.plcPair) : exec (.meshFrameRx f m) s = .next s := next_put (if_pos (.inr h))

variable (hrun : s.dev.meshRuns = true) (hp : m.pair = s.dev.plcPair)
include hrun hp

theorem meshRx_listens : ¬((!s.dev.meshRuns) = true ∨ m.pair ≠ s.dev.plcPair) := by
  rintro (h | h)
  · rw [hrun] at h
    exact absurd h (by decide)
  · exact h hp

theorem meshRx_abandoned {i : Nat} (hn : noiseStep m (s.dev.rfld 8 0 0xC 15 8) (rxWindows f m) 0 (false, false) = some i) :
    exec (.meshFrameRx f m) s = .next (s.put (s.dev.abandonFrame f (decide (22 ≤ i))).meshFrameEnd) := by
  refine next_put ((if_neg (meshRx_listens hrun hp)).trans ?_)
  rw [hn]
  rfl

/-- A good frame for this node, no acknowledgement and no Lattice request, by what the duplicate cache says. -/
theorem meshRx_good (hn : noiseStep m (s.dev.rfld 8 0 0xC 15 8) (rxWindows f m) 0 (false, false) = none) (hh : meshHeadOk f = true)
    (hc : meshCheckOk f = true) (hcell : f.cell = s.dev.meshCell) (hdst : f.ldst = s.dev.meshAddr) (hack : f.ftype ≠ 4)
    (hreq : s.dev.isLatticeRequest f = false) (hflag : f.flags.getLsbD 0 = false) (hmac : fromHeadEnd f = true → meshHasMac f = true) :
    exec (.meshFrameRx f m) s = .next (s.put (if 600 < f.age.toNat ∨ s.dev.inCache f = true then (s.dev.heard f m).meshStale
      else (s.dev.heard f m).takeFrame f).meshFrameEnd) := by
  have hlacks : ¬lacksMac f = true := by
    unfold lacksMac
    cases hf : fromHeadEnd f with
    | true =>
      rw [hmac hf]
      decide
    | false => exact Bool.false_ne_true
  have hgood : s.dev.goodFrame f (min m.refLo m.refHi) = (if 600 < f.age.toNat ∨ s.dev.inCache f = true then (s.dev.heard f m).meshStale
      else (s.dev.heard f m).takeFrame f) := by
    rw [← s.dev.heard_inCache f m]
    have hno : ¬(f.flags.getLsbD 0 = true ∧ f.ldst = s.dev.meshAddr) := fun h => absurd (hflag.symm.trans h.1) (by decide)
    unfold Dev.goodFrame
    extract_lets d1 d2
    rw [if_neg (fun h => h.1 hdst), if_neg hlacks, if_neg hack, if_neg (by rw [hreq]; decide)]
    rw [show d2 = d1 from if_neg hno]
    rfl
  refine next_put ((if_neg (meshRx_listens hrun hp)).trans ?_)
  rw [hn]
  dsimp only
  rw [if_pos ⟨hh, hc⟩, if_pos hcell, hgood]

end

/-! ### The tables (R367, R368) -/

theorem Dev.nbr_filter (d : Dev) (a b : BitVec 16) (rs : List MeshRoute) :
    ({ d with plc := { d.plc with nbrs := d.plc.nbrs.filter fun y => y.addr ≠ a, routes := rs } } : Dev).nbr b =
      if b = a then none else d.nbr b := by
  show (d.plc.nbrs.filter fun y => y.addr ≠ a).find? (fun x => x.addr = b) = if b = a then none else d.plc.nbrs.find? fun x => x.addr = b
  rw [List.find?_filter]
  split
  case isTrue h =>
    subst h
    exact List.find?_eq_none.mpr fun x _ => by simp
  case isFalse h =>
    refine congrArg (fun p => List.find? p d.plc.nbrs) (funext fun x => ?_)
    by_cases hx : x.addr = b
    · simp [hx, h]
    · simp [hx]

theorem nbrExpiry_removes {s : State} {a : BitVec 16} {x : Neighbour} (hx : s.dev.nbr a = some x)
    (ht : x.heard + 4 * s.dev.beaconNs ≤ s.dev.tim.elapsed) :
    ∃ t, exec (.neighbourExpiry a) s = .next t ∧ t.dev.nbr a = none ∧ (∀ r ∈ t.dev.plc.routes, r.next ≠ a) ∧
      ∀ b : BitVec 16, b ≠ a → t.dev.nbr b = s.dev.nbr b := by
  let e : Dev := { s.dev with plc := { s.dev.plc with
    nbrs := s.dev.plc.nbrs.filter fun y => y.addr ≠ a, routes := s.dev.plc.routes.filter fun r => r.next ≠ a } }
  have hrun : s.dev.nbrExpiry a = e.recomputeHead := by
    unfold Dev.nbrExpiry
    rw [hx]
    exact if_pos ((Dev.after_iff ..).mpr ht)
  obtain ⟨rs, hplc, hrs⟩ := e.recomputeHead_plc
  have hnbr : ∀ b, e.recomputeHead.nbr b = if b = a then none else s.dev.nbr b := fun b => by
    refine Eq.trans ?_ (s.dev.nbr_filter a b (s.dev.plc.routes.filter fun r => r.next ≠ a))
    exact congrArg (fun p : PlcState => p.nbrs.find? fun x => x.addr = b) hplc
  refine ⟨s.put e.recomputeHead, next_put hrun, (hnbr a).trans (if_pos rfl), fun r hr => ?_, fun b hb => (hnbr b).trans (if_neg hb)⟩
  have hr : r ∈ rs := by
    rw [show (s.put e.recomputeHead).dev.plc.routes = rs from congrArg PlcState.routes hplc] at hr
    exact hr
  rcases hrs r hr with ⟨q, hq, hn⟩ | ⟨y, hy, hn⟩
  · rw [← hn]
    simpa using (List.mem_filter.mp hq).2
  · rw [← hn]
    simpa using (List.mem_filter.mp hy).2

theorem penaltyDecay_halves {s : State} (ht : s.dev.plc.lastDecay + 60000000000 ≤ s.dev.tim.elapsed) :
    ∃ t, exec .penaltyDecay s = .next t ∧ t.dev.plc.lastDecay = s.dev.tim.elapsed ∧
      t.dev.plc.nbrs = s.dev.plc.nbrs.map (fun x => { x with penalty := x.penalty / 2 }) := by
  let e : Dev := { s.dev with plc := { s.dev.plc with
    lastDecay := s.dev.el, nbrs := s.dev.plc.nbrs.map fun (x : Neighbour) => { x with penalty := x.penalty / 2 } } }
  obtain ⟨rs, hplc⟩ := e.relinked_plc s.dev
  exact ⟨s.put (e.relinked s.dev), next_put (if_pos ((Dev.after_iff ..).mpr ht)), (congrArg PlcState.lastDecay hplc :),
    (congrArg PlcState.nbrs hplc :)⟩

theorem Neighbour.cost_bounds (x : Neighbour) : 1 ≤ x.cost ∧ x.cost ≤ 255 := by
  unfold Neighbour.cost
  omega

/-! ### Commands and requests (R375, R387) -/

theorem noArg_zero (h : Dev → CmdSt × Dev) (d : Dev) : noArg 0 h d = h d := if_pos rfl

theorem headend_refused {s : State} {f : MeshFrame} {d1 : Dev} (h : s.dev.hesAccept f = (false, d1)) :
    exec (.headendLatticeRequest f) s = .next (s.put d1) := by
  refine next_put ?_
  unfold Dev.headendRequest
  rw [h]

theorem headend_accepted {s : State} {f : MeshFrame} {d1 : Dev} (h : s.dev.hesAccept f = (true, d1)) :
    s.dev.headendRequest f = if bit (d1.reg 8 0 0x28) 0 then
        (d1.runRequest { agent := .headend, todo := decodeAccesses 8 f.payload.tail, key := (s.dev.keySlot 5).live.secret }).settleReleased
      else d1.hesAnswer ((decodeAccesses 8 f.payload.tail).map fun _ => (stState, 0)) (s.dev.keySlot 5).live.secret := by
  unfold Dev.headendRequest
  rw [h]

/-- Settles O46: reception by its checks, the tables by what recomputing the head-end's route leaves, commands and
requests by their conditions. -/
theorem meshReceiver : Obligations.MeshReceiver := by
  unfold Obligations.MeshReceiver
  intro s
  refine ⟨fun f m h => meshRx_otherPair h, fun f m hrun hp => ⟨fun i hn => meshRx_abandoned hrun hp hn,
    fun hn hh hc hcell hdst hack hreq hflag hmac => ⟨fun hold => ?_, fun hage hcache => ?_⟩⟩, fun a x hx ht => nbrExpiry_removes hx ht,
    fun ht => penaltyDecay_halves ht, Neighbour.cost_bounds, fun ag hready => ⟨?_, fun hr => ⟨?_, ?_⟩⟩,
    fun f d1 h => headend_refused h, fun f d1 h => ⟨fun hb => ?_, fun hb => ?_⟩⟩
  · rw [meshRx_good hrun hp hn hh hc hcell hdst hack hreq hflag hmac, if_pos hold]
    rfl
  · have hno : ¬(600 < f.age.toNat ∨ s.dev.inCache f = true) := by
      rintro (h | h)
      · omega
      · exact absurd (hcache.symm.trans h) (by decide)
    rw [meshRx_good hrun hp hn hh hc hcell hdst hack hreq hflag hmac, if_neg hno]
    rfl
  · exact next_put (issueCommand_ok hready (noArg_zero ..))
  · exact next_put (issueCommand_ok hready ((noArg_zero ..).trans (if_pos (Dev.isRunning_of hr))))
  · exact next_put (issueCommand_ok hready ((noArg_zero ..).trans (if_pos (Dev.isRunning_of hr))))
  · exact next_put ((headend_accepted h).trans (if_pos hb))
  · exact next_put ((headend_accepted h).trans (if_neg (by rw [hb]; decide)))

end Sys2Proof.Machine
end

section
/-! SUPPORT. The grid operator's commands on the sessions of their slices (O47). -/

namespace Sys2Proof.Machine

/-! ### Folds over slices -/

section
variable {g : Dev → Fin 8 → Dev} (hother : ∀ a n m, m ≠ n → (g a n).session m = a.session m)
include hother

theorem foldl_session_other (l : List (Fin 8)) (d : Dev) {m : Fin 8} (h : m ∉ l) : (l.foldl g d).session m = d.session m := by
  induction l generalizing d with
  | nil => rfl
  | cons x xs ih =>
    obtain ⟨hne, hxs⟩ := not_or.mp (mt List.mem_cons.mpr h)
    exact (ih _ hxs).trans (hother d x m hne)

/-- Each slice is worked on once, in the session it had. -/
theorem foldl_session_once (l : List (Fin 8)) (hnd : l.Nodup) (d : Dev) {n : Fin 8} (hn : n ∈ l) :
    ∃ a, a.session n = d.session n ∧ (l.foldl g d).session n = (g a n).session n := by
  induction l generalizing d with
  | nil => exact absurd hn List.not_mem_nil
  | cons x xs ih =>
    obtain ⟨hx, hxs⟩ := List.nodup_cons.mp hnd
    by_cases hnx : n = x
    · subst hnx
      exact ⟨d, rfl, foldl_session_other hother xs _ hx⟩
    · obtain ⟨a, ha, hfold⟩ := ih hxs (g d x) (List.mem_of_ne_of_mem hnx hn)
      exact ⟨a, ha.trans (hother d x n hnx), hfold⟩
end

/-- A flag that one step of a fold raises and every step keeps. -/
theorem foldl_flag {g : Dev → Fin 8 → Dev} {P : Dev → Prop} {n : Fin 8} (hset : ∀ a, P (g a n)) (hkeep : ∀ a m, P a → P (g a m))
    (l : List (Fin 8)) (d : Dev) (h : P d ∨ n ∈ l) : P (l.foldl g d) := by
  induction l generalizing d with
  | nil => exact h.resolve_right List.not_mem_nil
  | cons x xs ih =>
    refine ih _ ?_
    rcases h with h | h
    · exact .inl (hkeep d x h)
    · rcases List.mem_cons.mp h with rfl | h
      · exact .inl (hset d)
      · exact .inr h

theorem maskSlices_nodup (m : Nat) : (maskSlices m).Nodup := List.Nodup.filter _ (by decide)

theorem Dev.zxSlices_nodup (d : Dev) (mask : Nat) : (d.zxSlices mask).Nodup := (maskSlices_nodup mask).filter _

theorem Dev.mem_zxSlices {d : Dev} {mask : Byte} {n : Fin 8} :
    n ∈ d.zxSlices mask.toNat ↔ d.present n.val = true ∧ mask.getLsbD n.val = true := by
  unfold Dev.zxSlices maskSlices
  rw [List.mem_filter, List.mem_filter]
  exact ⟨fun h => ⟨h.2, h.1.2⟩, fun h => ⟨⟨mem_slices n, h.2⟩, h.1⟩⟩

theorem Dev.not_mem_zxSlices {d : Dev} {mask : Byte} {n : Fin 8} (h : d.present n.val = false ∨ mask.getLsbD n.val = false) :
    n ∉ d.zxSlices mask.toNat := by
  rw [Dev.mem_zxSlices]
  rintro ⟨hp, hm⟩
  rcases h with h | h
  · exact absurd (h.symm.trans hp) (by decide)
  · exact absurd (h.symm.trans hm) (by decide)

/-! ### Flags that a stop keeps -/

section
variable {d : Dev} {n : Fin 8} {g u off b : Nat} (hb : b < 16) (h : d.flagBit g u off b = true)
include hb h

omit hb in
theorem Dev.beginOpen_flag (wait : Nat) : (d.beginOpen n wait).flagBit g u off b = true := by
  unfold Dev.beginOpen
  split
  · exact Dev.cutContactor_flag h
  · exact h

theorem Dev.goStopping_flag (reason wait : Nat) : (d.goStopping n reason wait).flagBit g u off b = true :=
  Dev.beginOpen_flag (Dev.goSess_flag hb (d := d.updEvc n fun x => { x with reason := reason, susp := .lifted, toSusp := false }) h .stopping) wait

theorem Dev.goFinished_flag (reason : Nat) : (d.goFinished n reason).flagBit g u off b = true :=
  Dev.setLock_flag (Dev.goSess_flag hb (d := d.updEvc n fun x => { x with reason := reason, preauth := none }) h .finished) false

theorem Dev.stopCause_flag (reason wait : Nat) : (d.stopCause n reason wait).flagBit g u off b = true := by
  unfold Dev.stopCause
  split
  · exact Dev.goFinished_flag hb h reason
  · exact Dev.goFinished_flag hb h reason
  · exact Dev.goStopping_flag hb h reason wait
  · exact Dev.goStopping_flag hb h reason wait
  · exact Dev.goStopping_flag hb h reason wait
  · unfold Dev.overtakeStop
    split
    · exact h
    · exact h
  · exact h

end

/-! ### A stop by the grid operator (R272, R383) -/

theorem Dev.overtakeStop_disc (d : Dev) (n : Fin 8) (reason wait : Nat) :
    ((d.overtakeStop n reason wait).evc.s[n]).disc = (d.evc.s[n]).disc := by
  unfold Dev.overtakeStop
  split
  · exact (congrArg EvcSlice.disc (Dev.updEvc_self ..) :)
  · rfl

theorem Dev.stopCause_disc (d : Dev) (n : Fin 8) (reason wait : Nat) :
    ((d.stopCause n reason wait).evc.s[n]).disc = (d.evc.s[n]).disc := by
  have hfin : ((d.goFinished n reason).evc.s[n]).disc = (d.evc.s[n]).disc := by
    obtain ⟨lo, lk, hseat⟩ := d.goFinished_seat n reason
    generalize d.goFinished n reason = e at hseat ⊢
    exact (Dev.seat_get EvcSlice.disc (fun _ => rfl) hseat).trans rfl
  have hstop : ((d.goStopping n reason wait).evc.s[n]).disc = (d.evc.s[n]).disc := by
    obtain ⟨a, w, c, t, e, hseat⟩ := d.goStopping_seat n reason wait
    generalize d.goStopping n reason wait = f at hseat ⊢
    exact (Dev.seat_get EvcSlice.disc (fun _ => rfl) hseat).trans rfl
  unfold Dev.stopCause
  split
  · exact hfin
  · exact hfin
  · exact hstop
  · exact hstop
  · exact hstop
  · exact d.overtakeStop_disc n reason wait
  · rfl

/-- The device when the grid operator's stop has raised its event and, if a DISCONNECT, blocked the slice. -/
def Dev.gridMarked (d : Dev) (n : Fin 8) (reason : Nat) : Dev :=
  let d1 := if reason = 7 ∨ (d.evc.s[n].st).stoppable then d.raiseEvc n.val 7 else d
  if reason = 7 then d1.updEvc n fun x => { x with disc := true } else d1

theorem Dev.gridStop_evc (d : Dev) (n : Fin 8) (reason : Nat) :
    (d.gridStop n reason).evc = ((d.gridMarked n reason).stopCause n reason (d.gridWait n)).evc := Dev.oneEvent_evc ..

theorem Dev.gridMarked_evc (d : Dev) (n : Fin 8) (reason : Nat) : (d.gridMarked n reason).evc =
    if reason = 7 then (d.updEvc n fun x => { x with disc := true }).evc else d.evc := by
  unfold Dev.gridMarked
  extract_lets d1
  have h1 : d1.evc = d.evc := by
    unfold d1
    split
    · exact Dev.raiseEvc_part (pt := .evc) ..
    · rfl
  split
  · exact congrArg (fun x : EvcState => { x with s := vmod x.s n fun x => { x with disc := true } }) h1
  · exact h1

theorem Dev.gridMarked_other (d : Dev) {n m : Fin 8} (h : m ≠ n) (reason : Nat) : (d.gridMarked n reason).session m = d.session m := by
  have hevc := d.gridMarked_evc n reason
  split at hevc
  · exact (congrArg (fun x : EvcState => x.s[m]) hevc).trans (Dev.updEvc_session h ..)
  · exact congrArg (fun x : EvcState => x.s[m]) hevc

theorem Dev.gridStop_other (d : Dev) (reason : Nat) (n m : Fin 8) (h : m ≠ n) : (d.gridStop n reason).session m = d.session m :=
  (congrArg (fun x : EvcState => x.s[m]) (d.gridStop_evc n reason)).trans
    ((Dev.stopCause_session h ..).trans (d.gridMarked_other h reason))

theorem Dev.gridMarked_self (d : Dev) (n : Fin 8) (reason : Nat) : (d.gridMarked n reason).evc.s[n] =
    if reason = 7 then { d.evc.s[n] with disc := true } else d.evc.s[n] := by
  have hevc := d.gridMarked_evc n reason
  split
  case isTrue h =>
    rw [if_pos h] at hevc
    exact (congrArg (fun x : EvcState => x.s[n]) hevc).trans (Dev.updEvc_self ..)
  case isFalse h =>
    rw [if_neg h] at hevc
    exact congrArg (fun x : EvcState => x.s[n]) hevc

theorem Dev.gridStop_disc (d : Dev) (n : Fin 8) (reason : Nat) :
    ((d.gridStop n reason).evc.s[n]).disc = if reason = 7 then true else (d.evc.s[n]).disc := by
  have h := (congrArg (fun x : EvcState => x.s[n].disc) (d.gridStop_evc n reason)).trans (Dev.stopCause_disc ..)
  refine h.trans ((congrArg EvcSlice.disc (d.gridMarked_self n reason)).trans ?_)
  split
  · rfl
  · rfl

theorem Dev.gridStop_charging {d : Dev} {n : Fin 8} (reason : Nat) (h : (d.evc.s[n]).st = .charging) :
    ((d.gridStop n reason).evc.s[n]).st = .stopping ∧ ((d.gridStop n reason).evc.s[n]).reason = reason := by
  have hm : ((d.gridMarked n reason).evc.s[n]).st = .charging := by
    refine (congrArg EvcSlice.st (d.gridMarked_self n reason)).trans ?_
    split
    · exact h
    · exact h
  have hevc := d.gridStop_evc n reason
  rw [Dev.stopCause_stops _ _ (.inr (.inl hm))] at hevc
  exact ⟨(congrArg (fun x : EvcState => x.s[n].st) hevc).trans (Dev.goStopping_st ..),
    (congrArg (fun x : EvcState => x.s[n].reason) hevc).trans (Dev.goStopping_reason ..)⟩

theorem Dev.gridStop_keeps_flag {d : Dev} {g u off b : Nat} (hb : b < 16) (h : d.flagBit g u off b = true) (n : Fin 8) (reason : Nat) :
    (d.gridStop n reason).flagBit g u off b = true := by
  have hm : (d.gridMarked n reason).flagBit g u off b = true := by
    unfold Dev.gridMarked
    extract_lets d1
    have h1 : d1.flagBit g u off b = true := by
      unfold d1
      split
      · exact Dev.flagBit_raise_mono d 5 n.val 0x30 (2 ^ 7) g u off b hb h
      · exact h
    split
    · exact h1
    · exact h1
  exact (Dev.flagBit_oneEvent ..).trans (Dev.stopCause_flag hb hm reason (d.gridWait n))

theorem Dev.disconnect_flag (d : Dev) (n : Fin 8) : (d.gridStop n 7).flagBit 5 n.val 0x30 7 = true := by
  have hm : (d.gridMarked n 7).flagBit 5 n.val 0x30 7 = true := Dev.flagBit_raise_self d 5 n.val 0x30 (2 ^ 7) 7 (by decide) (by decide)
  exact (Dev.flagBit_oneEvent ..).trans (Dev.stopCause_flag (by decide) hm 7 (d.gridWait n))

/-! ### RECONNECT and LOAD_LIMIT -/

theorem Dev.gridReconnect_other (d : Dev) (n m : Fin 8) (h : m ≠ n) : (d.gridReconnect n).session m = d.session m :=
  (Dev.updEvc_session h ..).trans (session_of_part (Dev.raiseEvc_part ..))

theorem Dev.gridReconnect_self (d : Dev) (n : Fin 8) : (d.gridReconnect n).session n = { d.session n with disc := false } :=
  (Dev.updEvc_self ..).trans (congrArg (fun x : EvcSlice => { x with disc := false }) (session_of_part (Dev.raiseEvc_part ..)))

theorem Dev.gridLimit_other (d : Dev) (da : Option Nat) (n m : Fin 8) (h : m ≠ n) : (d.gridLimit n da).session m = d.session m :=
  (Dev.updEvc_session h ..).trans (session_of_part (Dev.raiseEvc_part ..))

theorem Dev.gridLimit_self (d : Dev) (n : Fin 8) (da : Option Nat) : (d.gridLimit n da).session n =
    { d.session n with limActive := da.isSome, limDa := da.getD 0xFFFF } := by
  refine (Dev.updEvc_self ..).trans ?_
  have h : (d.raiseEvc n.val 7).evc.s[n] = d.session n := session_of_part (Dev.raiseEvc_part ..)
  rw [h]
  cases da
  · rfl
  · rfl

/-! ### The commands over their slices (R383, R384) -/

section
variable {d : Dev} {mask : Byte} {n : Fin 8}

theorem Dev.zxStopBy_self (reason : Nat) (hn : n ∈ d.zxSlices mask.toNat) :
    let e := (d.zxSlices mask.toNat).foldl (fun (acc : Dev) n => acc.gridStop n reason) d
    (e.session n).disc = (if reason = 7 then true else (d.session n).disc) ∧
    ((d.session n).st = .charging → (e.session n).st = .stopping ∧ (e.session n).reason = reason) := by
  obtain ⟨a, ha, hfold⟩ := foldl_session_once (g := fun (acc : Dev) n => acc.gridStop n reason)
    (fun a k m h => a.gridStop_other reason k m h) (d.zxSlices mask.toNat) (d.zxSlices_nodup _) d hn
  intro e
  have he : e.session n = (a.gridStop n reason).session n := hfold
  clear_value e
  rw [he, ← ha]
  exact ⟨a.gridStop_disc n reason, Dev.gridStop_charging reason⟩

theorem Dev.zxDisconnect_flag (hn : n ∈ d.zxSlices mask.toNat) : (d.zxDisconnect mask.toNat).flagBit 5 n.val 0x30 7 = true :=
  foldl_flag (g := fun (acc : Dev) n => acc.gridStop n 7) (P := fun e => e.flagBit 5 n.val 0x30 7 = true)
    (fun a => a.disconnect_flag n) (fun _ m h => Dev.gridStop_keeps_flag (by decide) h m 7) _ d (.inr hn)

theorem Dev.zxReconnect_self (hn : n ∈ d.zxSlices mask.toNat) :
    (d.zxReconnect mask.toNat).session n = { d.session n with disc := false } := by
  obtain ⟨a, ha, hfold⟩ := foldl_session_once (g := fun (acc : Dev) n => acc.gridReconnect n)
    Dev.gridReconnect_other (d.zxSlices mask.toNat) (d.zxSlices_nodup _) d hn
  exact hfold.trans ((a.gridReconnect_self n).trans (congrArg (fun x : EvcSlice => { x with disc := false }) ha))

/-- The limit that LOAD_LIMIT sets, none where it lifts it. -/
def zxLimitOf (params : Word) : Option Nat := if fld params 31 16 = 0xFFFF then none else some (fld params 31 16)

theorem zxLimitOf_getD (params : Word) : (zxLimitOf params).getD 0xFFFF = fld params 31 16 := by
  unfold zxLimitOf
  split
  case isTrue h => exact h.symm
  case isFalse => rfl

theorem zxLimitOf_isSome (params : Word) : (zxLimitOf params).isSome = decide (fld params 31 16 ≠ 0xFFFF) := by
  unfold zxLimitOf
  split
  case isTrue h => simp [h]
  case isFalse h => simp [h]

theorem Dev.zxLimit_self (params : Word) (hn : n ∈ d.zxSlices mask.toNat) : (d.zxLimit mask.toNat params).session n =
    { d.session n with limActive := decide (fld params 31 16 ≠ 0xFFFF), limDa := fld params 31 16 } := by
  obtain ⟨a, ha, hfold⟩ := foldl_session_once (g := fun (acc : Dev) n => acc.gridLimit n (zxLimitOf params))
    (fun a k m h => a.gridLimit_other (zxLimitOf params) k m h) (d.zxSlices mask.toNat) (d.zxSlices_nodup _) d hn
  have hself := a.gridLimit_self n (zxLimitOf params)
  rw [zxLimitOf_getD, zxLimitOf_isSome, ha] at hself
  exact hfold.trans hself

theorem Dev.zxCommands_other (hn : n ∉ d.zxSlices mask.toNat) (params : Word) :
    (d.zxDisconnect mask.toNat).session n = d.session n ∧ (d.zxStop mask.toNat).session n = d.session n ∧
    (d.zxReconnect mask.toNat).session n = d.session n ∧ (d.zxLimit mask.toNat params).session n = d.session n :=
  ⟨foldl_session_other (g := fun (acc : Dev) n => acc.gridStop n 7) (fun a k m h => a.gridStop_other 7 k m h) _ d hn,
    foldl_session_other (g := fun (acc : Dev) n => acc.gridStop n 8) (fun a k m h => a.gridStop_other 8 k m h) _ d hn,
    foldl_session_other (g := fun (acc : Dev) n => acc.gridReconnect n) Dev.gridReconnect_other _ d hn,
    foldl_session_other (g := fun (acc : Dev) n => acc.gridLimit n (zxLimitOf params))
      (fun a k m h => a.gridLimit_other (zxLimitOf params) k m h) _ d hn⟩

end

end Sys2Proof.Machine
end

section
/-! SUPPORT. The zero-crossing receiver and the grid messages it takes (O47). -/

namespace Sys2Proof.Machine

/-! ### Bits of whole pairs of cycles (R379) -/

theorem zxBits_append (thr : Int) (k : Nat) (ds es : List Int) (h : ds.length = 2 * k) :
    zxBits thr (ds ++ es) = zxBits thr ds ++ zxBits thr es := by
  induction k generalizing ds with
  | zero =>
    obtain rfl : ds = [] := List.eq_nil_of_length_eq_zero (by omega)
    rfl
  | succ k ih =>
    match ds with
    | [] => exact absurd h (by simp)
    | [_] => exact absurd h (by simp; omega)
    | a :: b :: ds =>
      have hlen : ds.length = 2 * k := by simp only [List.length_cons] at h; omega
      simp only [List.cons_append, zxBits, ih ds hlen]

theorem zxBits_length (thr : Int) (k : Nat) (ds : List Int) (h : ds.length = 2 * k) : (zxBits thr ds).length = k := by
  induction k generalizing ds with
  | zero =>
    obtain rfl : ds = [] := List.eq_nil_of_length_eq_zero (by omega)
    rfl
  | succ k ih =>
    match ds with
    | [] => exact absurd h (by simp)
    | [_] => exact absurd h (by simp; omega)
    | a :: b :: ds =>
      have hlen : ds.length = 2 * k := by simp only [List.length_cons] at h; omega
      simp only [zxBits, List.length_cons, ih ds hlen]

/-! ### The receiver, cycle by cycle (R379) -/

/-- The receiver's window, its message so far and its count. -/
def Dev.zxAt (d : Dev) (win : List Int) (msg : Option (List ZxBit)) (count : Nat) : Dev :=
  { d with plc := { d.plc with zxWin := win, zxMsg := msg, zxCount := count } }

theorem Dev.zxAt_zxAt (d : Dev) (w w' : List Int) (m m' : Option (List ZxBit)) (c c' : Nat) :
    (d.zxAt w m c).zxAt w' m' c' = d.zxAt w' m' c' := rfl

theorem Dev.zxAt_zxThr (d : Dev) (w : List Int) (m : Option (List ZxBit)) (c : Nat) : (d.zxAt w m c).zxThr = d.zxThr := rfl

theorem Dev.zxAt_zxCount (d : Dev) (w : List Int) (m : Option (List ZxBit)) (c : Nat) : (d.zxAt w m c).plc.zxCount = c := rfl

section
variable {d : Dev} (ha : d.plc.zxAwait = none)
include ha

theorem zxAwait_not : ¬d.plc.zxAwait.isSome = true := by
  rw [ha]
  exact Bool.false_ne_true

theorem Dev.zxCycle_sync {x : Int} (hm : d.plc.zxMsg = none)
    (hs : zxBits d.zxThr ((d.plc.zxWin ++ [x]).drop (d.plc.zxWin.length + 1 - 32)) = zxSync) :
    d.zxCycle x = d.zxAt [] (some []) (d.plc.zxCount + 1) := by
  have hs' : zxBits d.zxThr ((d.plc.zxWin ++ [x]).drop ((d.plc.zxWin ++ [x]).length - 32)) = zxSync := by
    rw [List.length_append]
    exact hs
  refine (if_neg (zxAwait_not ha)).trans ?_
  dsimp only
  rw [hm]
  exact if_pos hs'

/-- The first cycle of a pair waits for the second. -/
theorem Dev.zxCycle_first {x : Int} {bs : List ZxBit} (hm : d.plc.zxMsg = some bs) (hw : d.plc.zxWin = []) :
    d.zxCycle x = d.zxAt [x] (some bs) (d.plc.zxCount + 1) := by
  refine (if_neg (zxAwait_not ha)).trans ?_
  dsimp only
  rw [hm, hw]
  rfl

/-- The second cycle of a pair gives a bit. -/
theorem Dev.zxCycle_second {a x : Int} {bs : List ZxBit} (hm : d.plc.zxMsg = some bs) (hw : d.plc.zxWin = [a]) :
    d.zxCycle x =
      if zxDecide d.zxThr (a - x) = .erasure then ((d.zxAt [] none (d.plc.zxCount + 1)).count 8 1 0x14 15 8).raisePlc 10
      else if bs.length = 95 then
        ({ d.zxAt [] none (d.plc.zxCount + 1) with plc := { (d.zxAt [] none (d.plc.zxCount + 1)).plc with
          zxBitAt := d.plc.zxCount + 1 } } : Dev).zxWhole (bs ++ [zxDecide d.zxThr (a - x)])
      else d.zxAt [] (some (bs ++ [zxDecide d.zxThr (a - x)])) (d.plc.zxCount + 1) := by
  refine (if_neg (zxAwait_not ha)).trans ?_
  dsimp only
  rw [hm, hw]
  rfl

/-- Pairs that do not complete the message add their bits to it. -/
theorem foldl_zxCycle (k : Nat) (ds : List Int) (bs : List ZxBit) (hm : d.plc.zxMsg = some bs) (hw : d.plc.zxWin = [])
    (hlen : ds.length = 2 * k) (hk : bs.length + k ≤ 95) (he : .erasure ∉ zxBits d.zxThr ds) :
    ds.foldl (fun (acc : Dev) x => acc.zxCycle x) d = d.zxAt [] (some (bs ++ zxBits d.zxThr ds)) (d.plc.zxCount + 2 * k) := by
  induction k generalizing d ds bs with
  | zero =>
    obtain rfl : ds = [] := List.eq_nil_of_length_eq_zero (by omega)
    show d = d.zxAt [] (some (bs ++ [])) d.plc.zxCount
    unfold Dev.zxAt
    rw [List.append_nil, ← hm, ← hw]
  | succ k ih =>
    match ds, hlen, he with
    | [], hlen, _ => exact absurd hlen (by simp)
    | [_], hlen, _ => exact absurd hlen (by simp; omega)
    | a :: x :: ds, hlen, he =>
      have hlen' : ds.length = 2 * k := by simp only [List.length_cons] at hlen; omega
      obtain ⟨hb, he'⟩ := not_or.mp (mt List.mem_cons.mpr he)
      have h1 := Dev.zxCycle_first (x := a) ha hm hw
      have h2 := (Dev.zxCycle_second (d := d.zxAt [a] (some bs) (d.plc.zxCount + 1)) (x := x) ha rfl rfl).trans
        ((if_neg (Ne.symm hb)).trans (if_neg (by omega)))
      have h3 := ih (d := (d.zxAt [a] (some bs) (d.plc.zxCount + 1)).zxAt [] (some (bs ++ [zxDecide d.zxThr (a - x)]))
        (d.plc.zxCount + 1 + 1))
        ha ds _ rfl rfl hlen' (by rw [List.length_append]; simp only [List.length_singleton]; omega) he'
      rw [List.foldl_cons, List.foldl_cons, h1]
      refine (congrArg (fun e => ds.foldl (fun (acc : Dev) x => acc.zxCycle x) e) h2).trans (h3.trans ?_)
      show d.zxAt [] (some ((bs ++ [zxDecide d.zxThr (a - x)]) ++ zxBits d.zxThr ds)) (d.plc.zxCount + 1 + 1 + 2 * k) =
        d.zxAt [] (some (bs ++ zxBits d.zxThr (a :: x :: ds))) (d.plc.zxCount + 2 * (k + 1))
      rw [List.append_assoc, show d.plc.zxCount + 1 + 1 + 2 * k = d.plc.zxCount + 2 * (k + 1) by omega]
      rfl

/-- The device that has received the last pair of a message, at a count of cycles. -/
def Dev.zxDone (d : Dev) (count : Nat) : Dev :=
  { d with plc := { d.plc with zxWin := [], zxMsg := none, zxCount := count, zxBitAt := count } }

theorem Dev.zxCycle_last {a b : Int} {bs : List ZxBit} (hm : d.plc.zxMsg = some bs) (hw : d.plc.zxWin = []) (hl : bs.length = 95)
    (hne : zxDecide d.zxThr (a - b) ≠ .erasure) :
    (d.zxCycle a).zxCycle b = (d.zxDone (d.plc.zxCount + 1 + 1)).zxWhole (bs ++ [zxDecide d.zxThr (a - b)]) := by
  have h2 := Dev.zxCycle_second (d := d.zxAt [a] (some bs) (d.plc.zxCount + 1)) (x := b) ha rfl rfl
  rw [Dev.zxAt_zxThr, if_neg hne, if_pos hl] at h2
  rw [Dev.zxCycle_first ha hm hw]
  exact h2

theorem foldl_zxCycle_whole {ds : List Int} (hm : d.plc.zxMsg = some []) (hw : d.plc.zxWin = []) (hlen : ds.length = 192)
    (he : .erasure ∉ zxBits d.zxThr ds) :
    ds.foldl (fun (acc : Dev) x => acc.zxCycle x) d = (d.zxDone (d.plc.zxCount + 192)).zxWhole (zxBits d.zxThr ds) := by
  have hl : (ds.drop 190).length = 2 := by rw [List.length_drop, hlen]
  obtain ⟨a, b, hab⟩ := List.length_eq_two.mp hl
  have hsplit : ds = ds.take 190 ++ [a, b] := by rw [← hab, List.take_append_drop]
  have htake : (ds.take 190).length = 2 * 95 := by rw [List.length_take, hlen]; rfl
  generalize ds.take 190 = es at hsplit htake
  subst hsplit
  have hbits : zxBits d.zxThr (es ++ [a, b]) = zxBits d.zxThr es ++ [zxDecide d.zxThr (a - b)] := zxBits_append _ 95 es [a, b] htake
  rw [hbits] at he ⊢
  obtain ⟨hes, hb⟩ := not_or.mp (mt List.mem_append.mpr he)
  have hne : zxDecide d.zxThr (a - b) ≠ .erasure := fun h => hb (h ▸ List.mem_singleton_self _)
  have h0 := foldl_zxCycle ha 95 es [] hm hw htake (by simp) hes
  rw [List.nil_append] at h0
  have hbl : (zxBits d.zxThr es).length = 95 := zxBits_length _ 95 es htake
  generalize zxBits d.zxThr es = bs at *
  have hlast := Dev.zxCycle_last (d := d.zxAt [] (some bs) (d.plc.zxCount + 2 * 95)) ha rfl rfl hbl hne
  rw [List.foldl_append, h0, List.foldl_cons, List.foldl_cons, List.foldl_nil, hlast, Dev.zxAt_zxCount]
  rfl
end

/-! ### The check of a message (R381, R382) -/

/-- A candidate sequence lies above the last one. -/
theorem zxCand_gt (last seq : Nat) : last < zxCand last seq := by
  unfold zxCand
  split
  · omega
  · omega

theorem Dev.zxSequence_gt {d : Dev} {msg : BitVec 64} {mac q : Nat} (h : d.zxSequence msg mac = some q) : d.plc.zxSeq.toNat < q := by
  have hmem := List.mem_of_find?_eq_some h
  obtain ⟨j, -, hj⟩ := List.mem_map.mp hmem
  have hc := zxCand_gt d.plc.zxSeq.toNat (bits msg.toNat 7 0)
  omega

theorem plc_of_part {d e : Dev} (h : e.part .plc = d.part .plc) : e.plc = d.plc := h

theorem evc_of_part {d e : Dev} (h : e.part .evc = d.part .evc) : e.evc = d.evc := h

theorem Dev.useKey_plc (d : Dev) (k : Fin 64) : (d.useKey k).plc = d.plc := plc_of_part (Dev.useKey_part (by decide) d k)

theorem Dev.useKey_evc (d : Dev) (k : Fin 64) : (d.useKey k).evc = d.evc := evc_of_part (Dev.useKey_part (by decide) d k)

theorem zxCheck_taken {d : Dev} {msg : BitVec 64} (hg : bits msg.toNat 59 48 = d.rfld 8 1 4 31 20) (hh : d.sto.holdup = false) :
    ¬(d.sto.holdup = true ∨ (bits msg.toNat 59 48 ≠ d.rfld 8 1 4 31 20 ∧ bits msg.toNat 59 48 ≠ 0xFFF)) := by
  rintro (h | h)
  · exact absurd (hh.symm.trans h) (by decide)
  · exact h.1 hg

section
variable {d : Dev} {msg : BitVec 64} {mac : Nat} (hg : bits msg.toNat 59 48 = d.rfld 8 1 4 31 20) (hk : d.keyValid 6 = true)
  (hh : d.sto.holdup = false)
include hg hk hh

theorem Dev.zxCheck_rejects (hs : d.zxSequence msg mac = none) : (d.zxCheck msg mac).plc = d.plc ∧
    (d.zxCheck msg mac).flagBit 8 0 0x14 9 = true := by
  have hu := d.useKey_plc 6
  unfold Dev.zxCheck
  dsimp only
  rw [if_neg (zxCheck_taken hg hh), if_pos hk, hs]
  generalize d.useKey 6 = e at *
  have hplc : (if d.zxReplay msg mac then e.count 8 1 0x14 23 16 else e.count 8 1 0x14 31 24).plc = d.plc := by
    split
    · exact (Dev.count_plc ..).trans hu
    · exact (Dev.count_plc ..).trans hu
  generalize (if d.zxReplay msg mac then e.count 8 1 0x14 23 16 else e.count 8 1 0x14 31 24) = f at *
  exact ⟨(Dev.raisePlc_plc ..).trans hplc, Dev.flagBit_raise_self f 8 0 0x14 (2 ^ 9) 9 (by decide) (by decide)⟩

theorem Dev.zxCheck_accepts {q : Nat} (hs : d.zxSequence msg mac = some q) :
    (d.zxCheck msg mac).plc.zxAwait = some (msg, w32 q, d.now) := by
  unfold Dev.zxCheck
  dsimp only
  rw [if_neg (zxCheck_taken hg hh), if_pos hk, hs]

end

/-! ### The execution of an authenticated message (R382 to R385) -/

theorem Dev.zxExecute_part {pt : Part} (hque : pt ≠ .que) (hevc : pt ≠ .evc) (hlsw : pt ≠ .lsw) (hbil : pt ≠ .bil) (d : Dev)
    (op mask : Nat) (params : Word) (t : Nat) : (d.zxExecute op mask params t).part pt = d.part pt := by
  unfold Dev.zxExecute
  (repeat' split) <;> simp only [Dev.zxDisconnect_part hque hevc hlsw, Dev.zxReconnect_part hevc, Dev.zxStop_part hque hevc hlsw,
    Dev.zxLimit_part hevc, Dev.zxTariff_part hbil]

theorem Dev.useKey_flag {d : Dev} {g u off b : Nat} (hb : b < 16) (h : d.flagBit g u off b = true) (k : Fin 64) :
    (d.useKey k).flagBit g u off b = true := by
  unfold Dev.useKey
  extract_lets el d1
  have h1 : d1.flagBit g u off b = true := h
  clear_value d1
  unfold Dev.exhaust
  dsimp only
  split
  · exact Dev.flagBit_raise_mono _ _ _ _ _ _ _ _ _ hb h1
  · exact h1

/-- The sequence and the message last taken, and the one that waits. -/
def Dev.zxLatest (d : Dev) : Option (BitVec 64 × Word × Nat) × Word × BitVec 64 := (d.plc.zxAwait, d.plc.zxSeq, d.plc.zxLast)

theorem zxLatest_of_plc {d e : Dev} (h : e.plc = d.plc) : e.zxLatest = d.zxLatest :=
  congrArg (fun p : PlcState => (p.zxAwait, p.zxSeq, p.zxLast)) h

theorem Dev.queueConf_latest (d : Dev) (body : Word) : (d.queueConf body).zxLatest = d.zxLatest ∧ (d.queueConf body).evc = d.evc ∧
    (d.queueConf body).flags = d.flags := by
  unfold Dev.queueConf
  dsimp only
  split
  · exact ⟨rfl, rfl, rfl⟩
  · exact ⟨rfl, rfl, rfl⟩

/-- The device when a message is committed, before it runs. -/
def Dev.zxCommitted (d : Dev) (msg : BitVec 64) (seq : Word) : Dev :=
  { d with plc := { d.plc with zxAwait := none, zxSeq := seq, zxLast := msg } }

/-- What follows the run of a message: its event, its flag and its confirmation. -/
theorem Dev.zxAuthenticated_runs {d : Dev} {msg : BitVec 64} {seq : Word} {t : Nat} (ha : d.plc.zxAwait = some (msg, seq, t))
    (hh : d.sto.holdup = false) :
    let e := (d.zxCommitted msg seq).zxExecute (bits msg.toNat 63 60) (bits msg.toNat 47 40) (w32 (bits msg.toNat 39 8)) t
    d.zxAuthenticated.zxLatest = e.zxLatest ∧ d.zxAuthenticated.evc = e.evc ∧ d.zxAuthenticated.flagBit 8 0 0x14 8 = true := by
  intro e
  have hrun : ∃ (ev : List QData) (body : Word), d.zxAuthenticated =
      (let d2 := e.count 8 1 0x14 7 0
       let d3 := match d2.findQueue fun x => x.cls = 0 && x.prod = 6 with
         | some q => d2.produce q ev
         | none => d2
       if bit (d.reg 8 1 4) 13 ∧ d.keyValid 6 then ((d3.raisePlc 8).useKey 6).queueConf body else d3.raisePlc 8) := by
    unfold Dev.zxAuthenticated
    rw [ha]
    exact ⟨_, _, if_neg (by rw [hh]; decide)⟩
  obtain ⟨ev, body, hrun⟩ := hrun
  rw [hrun]
  clear_value e
  extract_lets d2 d3
  have h3 : d3.plc = e.plc ∧ d3.evc = e.evc := by
    unfold d3
    split
    · exact ⟨Dev.produce_part (pt := .plc) (by decide) .., Dev.produce_part (pt := .evc) (by decide) ..⟩
    · exact ⟨rfl, rfl⟩
  have h4 : (d3.raisePlc 8).zxLatest = e.zxLatest ∧ (d3.raisePlc 8).evc = e.evc ∧ (d3.raisePlc 8).flagBit 8 0 0x14 8 = true :=
    ⟨zxLatest_of_plc ((Dev.raisePlc_plc ..).trans h3.1), (Dev.raise_evc ..).trans h3.2,
      Dev.flagBit_raise_self d3 8 0 0x14 (2 ^ 8) 8 (by decide) (by decide)⟩
  clear_value d3
  generalize d3.raisePlc 8 = d4 at h4
  obtain ⟨hl, he, hf⟩ := h4
  split
  · obtain ⟨hql, hqe, hqf⟩ := (d4.useKey 6).queueConf_latest body
    exact ⟨(hql.trans (zxLatest_of_plc (d4.useKey_plc 6))).trans hl,
      (hqe.trans (d4.useKey_evc 6)).trans he,
      (Dev.flagBit_congr hqf 8 0 0x14 8).trans (Dev.useKey_flag (by decide) hf 6)⟩
  · exact ⟨hl, he, hf⟩

/-- A DISCONNECT that is authenticated blocks its slices (R383). -/
theorem Dev.zxExecute_disconnect {d : Dev} {m : Nat} {n : Fin 8} (params : Word) (t : Nat) (hn : n ∈ d.zxSlices m) :
    (((d.zxExecute 1 m params t).session n)).disc = true := by
  obtain ⟨a, -, hfold⟩ := foldl_session_once (g := fun (acc : Dev) n => acc.gridStop n 7)
    (fun a k m h => a.gridStop_other 7 k m h) (d.zxSlices m) (d.zxSlices_nodup _) d hn
  exact (congrArg EvcSlice.disc hfold).trans (a.gridStop_disc n 7)

/-! ### Confirmations (R385) -/

theorem length_msbBits (n x : Nat) : (msbBits n x).length = n := by
  induction n with
  | zero => rfl
  | succ n ih => rw [msbBits, List.length_cons, ih]

theorem length_confPulses (body : Word) : (confPulses body).length = 160 := by
  unfold confPulses
  rw [List.length_flatMap, show (fun b => (confCycles b).length) = fun _ => 4 from rfl]
  simp [length_msbBits]

theorem zxMessage_step {s : State} (hr : s.dev.zxRuns = true) (ds : List Int) :
    exec (.zxMessage ds) s = .next (s.put (ds.foldl (fun (acc : Dev) x => acc.zxCycle x) s.dev)) := next_put (if_pos hr)

section
variable {s : State} (hr : s.dev.zxRuns = true) (ha : s.dev.plc.zxAwait = none)
include hr ha

/-- A whole message whose MAC no candidate gives is rejected; one that a candidate gives waits for its run. -/
theorem zxMessage_checked {ds : List Int} (hm : s.dev.plc.zxMsg = some []) (hw : s.dev.plc.zxWin = []) (hlen : ds.length = 192)
    (he : .erasure ∉ zxBits s.dev.zxThr ds) {msg : BitVec 64} {mac : Nat}
    (hmsg : BitVec.ofNat 64 (bitsToNat ((zxBits s.dev.zxThr ds).take 64)) = msg)
    (hmac : bitsToNat (((zxBits s.dev.zxThr ds).drop 64).take 32) = mac)
    (hg : bits msg.toNat 59 48 = s.dev.rfld 8 1 4 31 20) (hk : s.dev.keyValid 6 = true) (hh : s.dev.sto.holdup = false) :
    (s.dev.zxSequence msg mac = none →
      ∃ t, exec (.zxMessage ds) s = .next t ∧ t.dev.plc.zxAwait = none ∧ t.dev.plc.zxSeq = s.dev.plc.zxSeq ∧
        t.dev.flagBit 8 0 0x14 9 = true) ∧
    ∀ q, s.dev.zxSequence msg mac = some q → s.dev.plc.zxSeq.toNat < q ∧
      ∃ t, exec (.zxMessage ds) s = .next t ∧ t.dev.plc.zxAwait = some (msg, w32 q, s.dev.tim.now) := by
  have hrun := (zxMessage_step hr ds).trans (congrArg (fun e => Host.Outcome.next (s.put e)) (foldl_zxCycle_whole ha hm hw hlen he))
  unfold Dev.zxWhole at hrun
  rw [hmsg, hmac] at hrun
  refine ⟨fun hs => ?_, fun q hs => ⟨Dev.zxSequence_gt hs, ?_⟩⟩
  · obtain ⟨hplc, hf⟩ := Dev.zxCheck_rejects (d := s.dev.zxDone (s.dev.plc.zxCount + 192)) hg hk hh hs
    generalize (s.dev.zxDone (s.dev.plc.zxCount + 192)).zxCheck msg mac = e at *
    exact ⟨_, hrun, (congrArg PlcState.zxAwait hplc).trans ha, (congrArg PlcState.zxSeq hplc :), hf⟩
  · have hacc := Dev.zxCheck_accepts (d := s.dev.zxDone (s.dev.plc.zxCount + 192)) hg hk hh hs
    generalize (s.dev.zxDone (s.dev.plc.zxCount + 192)).zxCheck msg mac = e at *
    exact ⟨_, hrun, hacc⟩

end

theorem zxAuthenticated_effect {s : State} {msg : BitVec 64} {sq : Word} {t0 : Nat} (ha : s.dev.plc.zxAwait = some (msg, sq, t0))
    (hh : s.dev.sto.holdup = false) :
    ∃ t, exec .zxAuthenticated s = .next t ∧ t.dev.plc.zxAwait = none ∧ t.dev.plc.zxSeq = sq ∧ t.dev.plc.zxLast = msg ∧
      t.dev.flagBit 8 0 0x14 8 = true ∧
      (bits msg.toNat 63 60 = 1 → ∀ n : Fin 8, n ∈ s.dev.zxSlices (bits msg.toNat 47 40) → (t.dev.evc.s[n]).disc = true) := by
  obtain ⟨hl, hevc, hf⟩ := Dev.zxAuthenticated_runs ha hh
  have hlat := hl.trans (zxLatest_of_plc (plc_of_part (Dev.zxExecute_part (by decide) (by decide) (by decide) (by decide)
    (s.dev.zxCommitted msg sq) (bits msg.toNat 63 60) (bits msg.toNat 47 40) (w32 (bits msg.toNat 39 8)) t0)))
  have hdisc : bits msg.toNat 63 60 = 1 → ∀ n : Fin 8, n ∈ s.dev.zxSlices (bits msg.toNat 47 40) →
      (s.dev.zxAuthenticated.evc.s[n]).disc = true := fun hop n hn => by
    rw [hop] at hevc
    exact (congrArg (fun x : EvcState => x.s[n].disc) hevc).trans
      (Dev.zxExecute_disconnect (d := s.dev.zxCommitted msg sq) (w32 (bits msg.toNat 39 8)) t0 hn)
  refine ⟨s.put s.dev.zxAuthenticated, rfl, ?_⟩
  generalize s.dev.zxAuthenticated = e at *
  exact ⟨congrArg (fun x => x.1) hlat, congrArg (fun x => x.2.1) hlat, congrArg (fun x => x.2.2) hlat, hf, hdisc⟩

theorem gridCommands_mine {mask : Byte} {s : State} {n : Fin 8} (hp : s.dev.present n.val = true) (hm : mask.getLsbD n.val = true) :
    (∃ t, exec (.disconnect mask) s = .next t ∧ (t.dev.evc.s[n]).disc = true ∧ t.dev.flagBit 5 n.val 0x30 7 = true ∧
      ((s.dev.evc.s[n]).st = .charging → (t.dev.evc.s[n]).st = .stopping ∧ (t.dev.evc.s[n]).reason = 7)) ∧
    (∃ t, exec (.stopCharging mask) s = .next t ∧ (t.dev.evc.s[n]).disc = (s.dev.evc.s[n]).disc ∧
      ((s.dev.evc.s[n]).st = .charging → (t.dev.evc.s[n]).st = .stopping ∧ (t.dev.evc.s[n]).reason = 8)) ∧
    (∃ t, exec (.reconnect mask) s = .next t ∧ (t.dev.evc.s[n]).disc = false ∧ (t.dev.evc.s[n]).st = (s.dev.evc.s[n]).st) ∧
    (∀ params : Word, ∃ t, exec (.loadLimit mask params) s = .next t ∧
      (t.dev.evc.s[n]).limActive = decide (fld params 31 16 ≠ 0xFFFF) ∧ (t.dev.evc.s[n]).limDa = fld params 31 16 ∧
      (t.dev.evc.s[n]).st = (s.dev.evc.s[n]).st) := by
  have hn : n ∈ s.dev.zxSlices mask.toNat := Dev.mem_zxSlices.mpr ⟨hp, hm⟩
  refine ⟨?_, ?_, ?_, fun params => ?_⟩
  · obtain ⟨hdisc, hstop⟩ := Dev.zxStopBy_self 7 hn
    exact ⟨s.put (s.dev.zxDisconnect mask.toNat), rfl, hdisc, Dev.zxDisconnect_flag hn, hstop⟩
  · obtain ⟨hdisc, hstop⟩ := Dev.zxStopBy_self 8 hn
    exact ⟨s.put (s.dev.zxStop mask.toNat), rfl, hdisc, hstop⟩
  · have h := Dev.zxReconnect_self hn
    refine ⟨s.put (s.dev.zxReconnect mask.toNat), rfl, ?_⟩
    generalize s.dev.zxReconnect mask.toNat = e at *
    exact ⟨(congrArg EvcSlice.disc h :), (congrArg EvcSlice.st h :)⟩
  · have h := Dev.zxLimit_self params hn
    refine ⟨s.put (s.dev.zxLimit mask.toNat params), rfl, ?_⟩
    generalize s.dev.zxLimit mask.toNat params = e at *
    exact ⟨(congrArg EvcSlice.limActive h :), (congrArg EvcSlice.limDa h :), (congrArg EvcSlice.st h :)⟩

/-- Settles O47: the receiver by its cycles, the check of a message, its run, and the commands over their slices. -/
theorem gridMessages : Obligations.GridMessages := by
  unfold Obligations.GridMessages
  refine ⟨fun s => ⟨fun hr ha => ⟨fun x hm hs => ?_, fun bs a x hm hw he => ?_, fun ds hm hw hlen he => ⟨?_, fun hg hk hh => ?_⟩⟩,
    fun msg sq t0 ha hh => zxAuthenticated_effect ha hh, fun body due hc hr hs hd => ?_, length_confPulses,
    fun hs hd => next_put (if_pos ⟨hs, hd⟩)⟩, fun mask s => ⟨fun n hp hm => gridCommands_mine hp hm, fun n hn => ?_,
    fun params hp => next_put (if_pos hp), fun params hp => next_put (if_neg (by rw [hp]; decide)), rfl⟩⟩
  · exact (zxMessage_step hr [x]).trans (congrArg (fun e => Host.Outcome.next (s.put e)) (Dev.zxCycle_sync ha hm hs))
  · have h := (Dev.zxCycle_second ha hm hw).trans (if_pos he)
    exact (zxMessage_step hr [x]).trans (congrArg (fun e => Host.Outcome.next (s.put e)) h)
  · exact (zxMessage_step hr ds).trans (congrArg (fun e => Host.Outcome.next (s.put e)) (foldl_zxCycle_whole ha hm hw hlen he))
  · exact zxMessage_checked hr ha hm hw hlen he rfl rfl hg hk hh
  · refine next_put ?_
    unfold Dev.zxConfirm
    rw [hc]
    exact if_pos ⟨hr, by rw [hs]; rfl, hd⟩
  · obtain ⟨h1, h2, h3, h4⟩ := Dev.zxCommands_other (Dev.not_mem_zxSlices hn) 0
    exact ⟨_, _, _, _, rfl, rfl, rfl, rfl, h1, h2, h3, h4⟩

end Sys2Proof.Machine
end

section
/-! SUPPORT. A step with no command waiting (O2). -/

namespace Sys2Proof.Machine

/-- A part on trial whose two boot records are uncorrectable in the store: its trial timer is committed with the first step,
which writes the older record anew. -/
def trialOnBadStore : State :=
  { dev := { islandRun := 0x800, img := { fwA := 3 }, sto := { bad := [bootAddr 0, bootAddr 1] } } }

/-- The write of the older boot record clears its uncorrectable words. -/
theorem trialOnBadStore_tick : trialOnBadStore.dev.tick.sto.bad = [bootAddr 0] := by decide

/-- Refutes O2: with a slot on trial, the step with no command waiting also commits the boot record to the store, and so takes
the addresses of the older record off its uncorrectable words: more than time and the trial timer changes. -/
theorem not_idleStep : ¬Obligations.IdleStep := by
  unfold Obligations.IdleStep
  rintro ⟨hidle, -⟩
  obtain ⟨-, hpowered, -⟩ := hidle trialOnBadStore rfl
  obtain ⟨-, -, htick⟩ := hpowered rfl (by decide)
  have hbad : trialOnBadStore.dev.tick.sto.bad = trialOnBadStore.dev.sto.bad :=
    (congrArg (fun d : Dev => d.sto.bad) htick :)
  rw [trialOnBadStore_tick] at hbad
  exact absurd hbad (by decide)

end Sys2Proof.Machine
end

section
/-! SUPPORT. The power supply at a trip, the cut-offs below it and the housekeeping scan (R507 to R526). -/

namespace Sys2Proof.Machine

theorem Dev.commitUses_part {pt : Part} (hkey : pt ≠ .key) (d : Dev) : d.commitUses.part pt = d.part pt := by
  simp only [Dev.commitUses, foldl_part, Dev.updKey_part hkey, implies_true]

theorem Dev.part_mk_bil_pwr {pt : Part} (hbil : pt ≠ .bil) (hpwr : pt ≠ .pwr) (d : Dev) (f : Nat) (b : BilState) (p : PwrState) :
    ({ d with fresh := f, bil := b, pwr := p } : Dev).part pt = d.part pt := by
  cases pt with
  | bil => exact absurd rfl hbil
  | pwr => exact absurd rfl hpwr
  | _ => rfl

theorem Dev.commitSnapshot_part {pt : Part} (hbil : pt ≠ .bil) (hkey : pt ≠ .key) (hpwr : pt ≠ .pwr) (d : Dev) :
    d.commitSnapshot.part pt = d.part pt := by
  unfold Dev.commitSnapshot
  exact (Dev.part_mk_bil_pwr hbil hpwr _ _ _ _).trans (d.commitUses_part hkey)

theorem Dev.takeSnapshot_part {pt : Part} (hmtr : pt ≠ .mtr) (hbil : pt ≠ .bil) (hkey : pt ≠ .key) (hpwr : pt ≠ .pwr) (d : Dev) :
    d.takeSnapshot.part pt = d.part pt := by
  simp only [Dev.takeSnapshot, Dev.commitSnapshot_part hbil hkey hpwr, foldl_part, Dev.midPeriod_part hmtr hbil, implies_true]

theorem Dev.takeSnapshot_pwr (d : Dev) :
    d.takeSnapshot.pwr = { d.pwr with snapshot := true, tSnap := d.takeSnapshot.pwr.tSnap } := by
  have hf : (d.presentSlices.foldl (fun (acc : Dev) n => acc.midPeriod n) d).pwr = d.pwr :=
    foldl_part (pt := .pwr) _ _ d fun a n => Dev.midPeriod_part (pt := .pwr) nofun nofun a n
  have h (e : Dev) : e.commitSnapshot.pwr = { e.pwr with snapshot := true, tSnap := e.commitSnapshot.pwr.tSnap } := by
    have he : e.commitUses.pwr = e.pwr := Dev.commitUses_part (pt := .pwr) nofun e
    simp only [Dev.commitSnapshot, he]
  exact (h _).trans (by rw [hf]; rfl)

/-- The part of the supplies that a snapshot leaves alone: the trip, its instant and a reset that RESET_N asks for. -/
def Dev.tripState (d : Dev) : Bool × Nat × Bool := (d.pwr.pf, d.pwr.tTrip, d.pwr.resetReq)

theorem Dev.tripState_of_part {d e : Dev} (h : e.part .pwr = d.part .pwr) : e.tripState = d.tripState :=
  congrArg (fun p : PwrState => (p.pf, p.tTrip, p.resetReq)) (h : e.pwr = d.pwr)

theorem Dev.takeSnapshot_tripState (d : Dev) : d.takeSnapshot.tripState = d.tripState := by
  unfold Dev.tripState; rw [d.takeSnapshot_pwr]

/-- A trip counts an interruption and asks for the snapshot (R515), which it takes at once where no boundary is near. -/
def Dev.asksSnapshot (d : Dev) : Dev :=
  { d.tamper 2 none with pwr := { (d.tamper 2 none).pwr with takesSnap := true, snapshot := false } }

theorem Dev.tripSnapshot_eq (d : Dev) :
    d.tripSnapshot = if d.asksSnapshot.boundarySoon then d.asksSnapshot else d.asksSnapshot.takeSnapshot := rfl

theorem Dev.tripSnapshot_tripState (d : Dev) : d.tripSnapshot.tripState = d.tripState := by
  have ht : d.asksSnapshot.tripState = d.tripState := by
    have h := Dev.tripState_of_part (Dev.tamper_part (pt := .pwr) nofun d 2 none)
    unfold Dev.asksSnapshot
    generalize d.tamper 2 none = e at h ⊢
    exact h
  rw [Dev.tripSnapshot_eq]
  split
  · exact ht
  · exact (Dev.takeSnapshot_tripState _).trans ht

theorem Dev.tripSnapshot_part {pt : Part} (hmtr : pt ≠ .mtr) (hbil : pt ≠ .bil) (hkey : pt ≠ .key) (hpwr : pt ≠ .pwr) (d : Dev) :
    d.tripSnapshot.part pt = d.part pt := by
  have ht : d.asksSnapshot.part pt = d.part pt := by
    refine .trans ?_ (Dev.tamper_part hbil d 2 none)
    unfold Dev.asksSnapshot
    generalize d.tamper 2 none = e
    exact Dev.part_mk_pwr hpwr
  rw [Dev.tripSnapshot_eq]
  split
  · exact ht
  · exact (Dev.takeSnapshot_part hmtr hbil hkey hpwr _).trans ht

/-- What a trip stops at once (R515): the retained store, the mesh modem and the panel. -/
def Dev.holdupBegun (d : Dev) : Dev :=
  { d with
    sto := { d.sto with holdup := true }
    plc := { d.plc with stopped := true, cur := none, tx := .idle, awaitAck := none, deferCycles := 0, ack := none, txTones := [] }
    pnl := { d.pnl with stopped := true, pwrUp := false, pwrGood := false, codes := [] } }

theorem Dev.startHoldup_eq (d : Dev) :
    d.startHoldup = if d.img.restoreDone then d.holdupBegun.tripSnapshot else d.holdupBegun.noteDark := rfl

theorem Dev.startHoldup_tripState (d : Dev) : d.startHoldup.tripState = d.tripState := by
  rw [Dev.startHoldup_eq]
  split
  · exact Dev.tripSnapshot_tripState _
  · rfl

theorem Dev.startHoldup_stopped (d : Dev) :
    d.startHoldup.sto.holdup = true ∧ d.startHoldup.plc.stopped = true ∧ d.startHoldup.pnl.stopped = true := by
  rw [Dev.startHoldup_eq]
  split
  · have h {pt : Part} := Dev.tripSnapshot_part (pt := pt) (d := d.holdupBegun)
    have hsto : d.holdupBegun.tripSnapshot.sto = _ := h (pt := .sto) nofun nofun nofun nofun
    have hplc : d.holdupBegun.tripSnapshot.plc = _ := h (pt := .plc) nofun nofun nofun nofun
    have hpnl : d.holdupBegun.tripSnapshot.pnl = _ := h (pt := .pnl) nofun nofun nofun nofun
    rw [hsto, hplc, hpnl]; exact ⟨rfl, rfl, rfl⟩
  · exact ⟨rfl, rfl, rfl⟩

theorem Dev.pfNotice_part {pt : Part} (hque : pt ≠ .que) (d : Dev) (cause mv : Nat) : (d.pfNotice cause mv).part pt = d.part pt := by
  unfold Dev.pfNotice
  split <;> simp only [Dev.produce_part hque]

/-- The state of a power-fail trip (R515): its flag and its notice, before the hold-up begins. -/
def Dev.tripped (d : Dev) (cause mv : Nat) : Dev := ({ d with pwr := { d.pwr with pf := true, tTrip := d.el } }.raisePwr 0).pfNotice cause mv

theorem Dev.tripped_tripState (d : Dev) (cause mv : Nat) : (d.tripped cause mv).tripState = (true, d.el, d.pwr.resetReq) :=
  (Dev.tripState_of_part ((Dev.pfNotice_part (pt := .pwr) nofun _ _ _).trans (Dev.raisePwr_part (pt := .pwr) _ _)) :)

theorem Dev.powerTrip_of_held {d : Dev} (h : d.pwr.held = false) (cause mv : Nat) :
    d.powerTrip cause mv = if d.pwr.pf then d.tripped cause mv else (d.tripped cause mv).startHoldup :=
  if_neg (Bool.eq_false_iff.mp h)

theorem Dev.powerTrip_tripState {d : Dev} (h : d.pwr.held = false) (cause mv : Nat) :
    (d.powerTrip cause mv).tripState = (true, d.el, d.pwr.resetReq) := by
  rw [Dev.powerTrip_of_held h]
  split
  · exact d.tripped_tripState cause mv
  · exact (Dev.startHoldup_tripState _).trans (d.tripped_tripState cause mv)

theorem Dev.kenRelease_open (d : Dev) (n : Fin 8) : ((d.kenRelease n).machine n).ken = false := by
  rw [Dev.kenRelease_machine, if_pos rfl]
  unfold KaoSlice.released
  split
  next => rfl
  next h => exact Bool.eq_false_iff.mpr h

theorem Dev.kenRelease_machine_other (d : Dev) (n k : Fin 8) (h : k ≠ n) : (d.kenRelease n).machine k = d.machine k := by
  rw [Dev.kenRelease_machine, if_neg h]

/-- The supply undervoltage opens every contactor driver (R517). -/
theorem foldl_kenRelease_open (d : Dev) (n : Fin 8) :
    ((slices.foldl (fun (acc : Dev) (n : Fin 8) => acc.kenRelease n) d).kao.m[n]).ken = false := by
  have h := foldl_machine_each (fun acc n => acc.kenRelease n) (fun _ => True) (fun _ x => x.ken = false) (fun _ _ _ => trivial)
    (fun a n _ => a.kenRelease_open n) Dev.kenRelease_machine_other slices d trivial n (mem_slices n)
  generalize slices.foldl (fun (acc : Dev) (n : Fin 8) => acc.kenRelease n) d = e at h ⊢
  exact h

theorem Dev.kenRelease_pwr (d : Dev) (n : Fin 8) : (d.kenRelease n).pwr = d.pwr := by
  unfold Dev.kenRelease
  split <;> rfl

theorem foldl_kenRelease_pwr (l : List (Fin 8)) (d : Dev) :
    (l.foldl (fun (acc : Dev) (n : Fin 8) => acc.kenRelease n) d).pwr = d.pwr :=
  foldl_rel l _ (fun a d => a.pwr = d.pwr) d rfl fun a n ha => (a.kenRelease_pwr n).trans ha

/-! Conversion of a temperature (R526): a bisection whose lower end stays at or below the reading. -/

theorem tempFloor_bounds (type v k : Nat) (lo : Int) (h : notColder type v lo = true) :
    lo ≤ tempFloor type v k lo ∧ notColder type v (tempFloor type v k lo) = true := by
  induction k generalizing lo with
  | zero => exact ⟨Int.le_refl lo, h⟩
  | succ k ih =>
    unfold tempFloor
    split
    next hup =>
      obtain ⟨hle, hcold⟩ := ih _ hup
      exact ⟨le_trans (Int.le_add_of_nonneg_right (Int.pow_nonneg (by decide))) hle, hcold⟩
    next => exact ih lo h

theorem hkConvert_bounds {type v : Nat} {up : Bool} {t : Int} (h : hkConvert type v up = some t) :
    -400 ≤ t ∧ t ≤ 1250 ∧ (type = 2 ∨ type = 3) ∧ (notColder type v t = true ∨ notColder type v (t - 1) = true) := by
  unfold hkConvert at h
  split at h
  case isFalse => cases h
  case isTrue hvalid =>
    obtain ⟨htype, hcold⟩ := hvalid
    obtain ⟨hlo, hfloor⟩ := tempFloor_bounds type v 11 (-400) hcold
    generalize tempFloor type v 11 (-400) = f at h hlo hfloor
    dsimp only at h
    split at h
    next hex => cases h; exact ⟨hlo, hex.2, htype, .inl hfloor⟩
    next =>
      split at h
      case isFalse => cases h
      case isTrue hlt =>
        cases h
        split
        · exact ⟨by omega, by omega, htype, .inr (by rwa [Int.add_sub_cancel])⟩
        · exact ⟨hlo, by omega, htype, .inl hfloor⟩

theorem Dev.hkMessage_pwr (d : Dev) (r : HkReadings) : (d.hkMessage r).pwr = d.pwr := by
  unfold Dev.hkMessage
  split
  · exact (Dev.produce_part (pt := .pwr) nofun d _ _ :)
  · rfl

/-- What a housekeeping scan shows (R507, R525, R526). -/
def PwrState.scanned (p : PwrState) (d : Dev) (r : HkReadings) : Prop :=
  p.vmainMv = r.vmain ∧ p.vsiltMv = r.vsilt ∧ p.vposMv = r.vpos ∧ p.vnegMv = r.vneg ∧ p.vsiltLow = decide (r.vsilt < 2200) ∧
    ∀ x : Fin 16, p.hkMv[x] = r.hk.getD x.val 0 ∧
      ∀ v, p.hkTemp[x] = some v → -400 ≤ v ∧ v ≤ 1250 ∧ (d.hkType x.val = 2 ∨ d.hkType x.val = 3) ∧
        (notColder (d.hkType x.val) (r.hk.getD x.val 0) v = true ∨ notColder (d.hkType x.val) (r.hk.getD x.val 0) (v - 1) = true)

/-- The supplies after a scan, whatever flags it raises. -/
def Dev.scanPwr (d : Dev) (r : HkReadings) : PwrState :=
  { d.pwr with
    vmainMv := r.vmain, vsiltMv := r.vsilt, vposMv := r.vpos, vnegMv := r.vneg
    hkMv := Vector.ofFn fun x : Fin 16 => r.hk.getD x.val 0
    hkTemp := Vector.ofFn fun x : Fin 16 => hkConvert (d.hkType x.val) (r.hk.getD x.val 0) (Config.freeBit (d.fresh + x.val))
    vposOk := pilotSupplyOk true r.vpos, vnegOk := pilotSupplyOk false r.vneg, vsiltLow := decide (r.vsilt < 2200)
    siltPresent := decide (2000 ≤ r.vsilt), siltGone := decide (r.vsilt < 1600) }

theorem Dev.takeScan_pwr (d : Dev) (r : HkReadings) : (d.takeScan r).pwr = d.scanPwr r := by
  unfold Dev.takeScan
  extract_lets posOk negOk low _ d1 mask
  split
  · rfl
  · exact (Dev.raise_part (pt := .pwr) d1 0 1 8 mask :)

theorem Dev.scanPwr_scanned (d : Dev) (r : HkReadings) : (d.scanPwr r).scanned d r := by
  refine ⟨rfl, rfl, rfl, rfl, rfl, fun x => ⟨(Vector.getElem_ofFn x.isLt).trans rfl, fun v hv => ?_⟩⟩
  exact hkConvert_bounds ((Vector.getElem_ofFn x.isLt).symm.trans hv)

theorem Dev.hkScan_scanned {d : Dev} {r : HkReadings} (hheld : d.pwr.held = false)
    (hdue : d.pwr.hkReq = true ∨ d.due keyHk 10000000 = true) :
    (d.hkScan r).pwr.scanned d r ∧ (d.hkScan r).pwr.hkReq = false := by
  unfold Dev.hkScan
  rw [if_neg (Bool.eq_false_iff.mp hheld)]
  split
  next =>
    rw [Dev.hkMessage_pwr]
    dsimp only
    rw [Dev.takeScan_pwr]
    exact ⟨d.scanPwr_scanned r, rfl⟩
  next hreq =>
    have hms : d.due keyHk (ms 10) = true := hdue.resolve_left hreq
    rw [if_pos hms, Dev.takeScan_pwr]
    exact ⟨d.scanPwr_scanned r, Bool.eq_false_iff.mpr hreq⟩

/-! The flags of the supplies. -/

theorem Dev.raise_only (d : Dev) (g u off mask : Nat) : d.raise g u off mask = { d with flags := (d.raise g u off mask).flags } := by
  unfold Dev.raise Dev.putFlag
  rfl

/-- Settles O10: a trip changes the supplies' trip state alone and begins the hold-up; the scan converts by bisection. -/
theorem powerSupply : Obligations.PowerSupply := by
  unfold Obligations.PowerSupply
  refine ⟨⟨fun mv s hheld hpf => ?_, fun mv s hheld hpf => ?_, fun mv s hheld => ?_, fun s hpf => ⟨?_, ?_, ?_⟩⟩,
    fun s hheld => ⟨?_, fun positive mv hok => ?_, fun r hdue => ?_⟩⟩
  · have hd : s.dev.powerTrip 0 mv = (s.dev.tripped 0 mv).startHoldup := by
      rw [Dev.powerTrip_of_held hheld, if_neg (Bool.eq_false_iff.mp hpf)]
    have ht : (s.dev.tripped 0 mv).startHoldup.tripState = _ := hd ▸ Dev.powerTrip_tripState hheld 0 mv
    obtain ⟨hsto, hplc, hpnl⟩ := (s.dev.tripped 0 mv).startHoldup_stopped
    exact ⟨s.put _, congrArg (fun e => Host.Outcome.next (s.put e)) hd, congrArg Prod.fst ht,
      congrArg (·.2.1) ht, hsto, hplc, hpnl, rfl⟩
  · refine congrArg (fun e => Host.Outcome.next { s with dev := e })
      ((Dev.powerTrip_of_held hheld 0 mv).trans ((if_pos hpf).trans ?_))
    unfold Dev.tripped
    rw [← hpf]
  · have hd : s.dev.resetNLow mv = ({ s.dev with pwr := { s.dev.pwr with resetReq := true } } : Dev).powerTrip 1 mv :=
      if_neg (Bool.eq_false_iff.mp hheld)
    have ht := Dev.powerTrip_tripState (d := { s.dev with pwr := { s.dev.pwr with resetReq := true } }) hheld 1 mv
    exact ⟨s.put _, congrArg (fun e => Host.Outcome.next (s.put e)) hd, congrArg (·.2.2) ht, congrArg (·.1) ht⟩
  · have hd : s.dev.switchUndervoltage = slices.foldl (fun (acc : Dev) (n : Fin 8) => acc.kenRelease n)
        { s.dev with pwr := { s.dev.pwr with uvlo := true } } := if_pos hpf
    have hopen := foldl_kenRelease_open { s.dev with pwr := { s.dev.pwr with uvlo := true } }
    have hpwr := foldl_kenRelease_pwr slices { s.dev with pwr := { s.dev.pwr with uvlo := true } }
    rw [← hd] at hopen hpwr
    exact ⟨s.put s.dev.switchUndervoltage, rfl, congrArg PwrState.uvlo hpwr, hopen⟩
  · exact ⟨s.put _, congrArg (fun e => Host.Outcome.next (s.put e)) (if_pos hpf), rfl, rfl⟩
  · exact congrArg (fun e => Host.Outcome.next { s with dev := e }) (if_pos hpf)
  · exact ⟨s.put _, congrArg (fun e => Host.Outcome.next (s.put e)) (if_neg (Bool.eq_false_iff.mp hheld)), rfl,
      Dev.flagBit_raise_self _ 0 1 8 (2 ^ 1) 1 (by decide) (by decide), rfl⟩
  · have hd : s.dev.vpilotFault positive mv = ({ s.dev with pwr := { s.dev.pwr with
        vposOk := s.dev.pwr.vposOk && !positive, vnegOk := s.dev.pwr.vnegOk && positive } } : Dev).raisePwr 2 := by
      unfold Dev.vpilotFault
      rw [if_neg (by rw [hok, hheld]; decide)]
    refine ⟨s.put _, congrArg (fun e => Host.Outcome.next (s.put e)) hd,
      Dev.flagBit_raise_self _ 0 1 8 (2 ^ 2) 2 (by decide) (by decide), ?_, rfl⟩
    cases positive
    · exact Bool.and_false _
    · exact Bool.and_false _
  · obtain ⟨⟨hmain, hsilt, hpos, hneg, hlow, hchans⟩, hreq⟩ := Dev.hkScan_scanned hheld hdue
    exact ⟨_, rfl, hmain, hsilt, hreq, hpos, hneg, hlow, hchans⟩

end Sys2Proof.Machine
end

section
/-! SUPPORT. Wide reads and settings (R34, R89). -/

namespace Sys2Proof.Machine

/-- A merge of two words by a mask of 32 bits is a word. -/
theorem mergeMask_toNat (a b m : BitVec 32) : mergeMask a.toNat b.toNat m.toNat = ((a &&& ~~~m) ||| (b &&& m)).toNat := by
  have hle : a &&& m ≤ a := by
    rw [BitVec.le_def, BitVec.toNat_and]
    exact Nat.and_le_left
  have hdisj : (a - (a &&& m)) &&& (b &&& m) = 0#32 := by
    have hsub : a - (a &&& m) = a &&& ~~~m := by
      have h := bitVec_merge_eq a 0#32 m
      rwa [BitVec.zero_and, BitVec.add_zero, BitVec.or_zero] at h
    rw [hsub]
    ext i hi
    simp
    grind
  rw [← bitVec_merge_eq, BitVec.toNat_add_of_and_eq_zero hdisj, BitVec.toNat_sub_of_le hle, BitVec.toNat_and, BitVec.toNat_and]
  rfl

theorem Dev.writeFields_value (d : Dev) (row : RegDef) (a : Nat) (data : Word) :
    (d.writeFields row a 0 data).regs.value a = w32 (mergeMask (d.regs.value a).toNat data.toNat row.rw) := by
  unfold Dev.writeFields
  simp only [Nat.and_zero, Nat.sub_zero]
  split
  · rw [RegFile.value_set, if_pos rfl]
  split <;> rw [RegFile.value_set, if_pos rfl]

theorem Dev.writeFields_staged (d : Dev) (row : RegDef) (a hold : Nat) (data : Word) (h : row.rws = 0) :
    (d.writeFields row a hold data).staged = d.staged := by
  unfold Dev.writeFields
  rw [if_pos h]

theorem Dev.writeFields_only (d : Dev) (row : RegDef) (a hold : Nat) (data : Word) :
    (d.writeFields row a hold data).resume = d.resume := by
  unfold Dev.writeFields
  dsimp only
  (repeat' split) <;> rfl

/-- A write stages the masked fields of the word written (R89), whatever live fields it changes at once. -/
theorem Dev.writeFields_stages (d : Dev) (row : RegDef) (a : Nat) (data : Word) (hrw : row.rw < 2 ^ 32) (hrws : row.rws < 2 ^ 32) :
    (((d.writeFields row a 0 data).staged.find a).getD ((d.writeFields row a 0 data).regs.value a)).toNat &&& row.rws =
      data.toNat &&& row.rws := by
  obtain ⟨mw, hmw⟩ : ∃ m : BitVec 32, row.rw = m.toNat := ⟨⟨⟨row.rw, hrw⟩⟩, rfl⟩
  obtain ⟨ms, hms⟩ : ∃ m : BitVec 32, row.rws = m.toNat := ⟨⟨⟨row.rws, hrws⟩⟩, rfl⟩
  have hstg : mergeMask (((d.staged.find a).getD (d.regs.value a)).toNat &&& ms.toNat) data.toNat ms.toNat &&& ms.toNat =
      (data &&& ms).toNat := (mergeMask_and ..).trans (BitVec.toNat_and ..).symm
  have hw32 (x : Word) : w32 x.toNat = x := by rw [w32, BitVec.ofNat_toNat, BitVec.setWidth_eq]
  by_cases h0 : row.rws = 0
  · rw [h0, Nat.and_zero, Nat.and_zero]
  unfold Dev.writeFields
  simp only [hmw, hms, Nat.and_zero, Nat.sub_zero, hstg, mergeMask_toNat, hw32, if_neg (hms ▸ h0)]
  split
  · next heq =>
    simp only [RegFile.find_del, if_pos, Option.getD_none]
    rw [RegFile.value_set, if_pos rfl, ← heq, BitVec.toNat_and]
  · simp only [RegFile.find_put, if_pos, Option.getD_some]
    rw [← BitVec.toNat_and, merge_and_mask, BitVec.and_assoc, BitVec.and_self, BitVec.toNat_and]

/-! A read, by what its register is. -/

section
variable {d : Dev} {ag : Agent} {g u a : Nat} {st : Bool} {r : RegAt}

theorem Dev.readReg_wide {v : Nat} (h : d.wideValue r = some v) :
    d.readReg ag g u r a st = (.ok, w32 v, d.setView ag (a + 4) (hi32 v)) := by
  unfold Dev.readReg
  rw [h]
  rfl

theorem Dev.readReg_settingLow (h : d.wideValue r = none) (hf : r.row.id.isFlags = false) (hp : r.row.id.perAgent = false)
    (hh : r.row.id.isHigh = false) (hl : r.row.id.settingLow = true) :
    d.readReg ag g u r a st = (.ok, d.regs.value a, (d.setView ag a 1).setView ag (a + 4) (d.regs.value (a + 4))) := by
  unfold Dev.readReg
  rw [h]
  dsimp only
  rw [if_neg (by simp [hf]), if_neg (by simp [hp, hh]), if_pos hl]
  rfl

theorem Dev.readReg_high (h : d.wideValue r = none) (hf : r.row.id.isFlags = false) (hh : r.row.id.isHigh = true) :
    d.readReg ag g u r a st = (.ok, d.view ag a, d) := by
  unfold Dev.readReg
  rw [h]
  dsimp only
  rw [if_neg (by simp [hf]), if_pos (.inr hh)]

end

theorem exec_wideReadCapture (ag : Agent) (addr : Word) (s : State) :
    exec (.wideReadCapture ag addr) s = .next (s.put (s.dev.latticeRead ag addr.toNat)) := rfl

theorem exec_latticeWrite (ag : Agent) (addr data : Word) (s : State) :
    exec (.latticeWrite ag addr data) s = .next (s.put (s.dev.latticeWrite ag addr.toNat data).settleReleased) := rfl

/-- Settles O5: a read by the kind of its register; a setting's write merges the live and the staged word by its masks. -/
theorem wideReadsAndSettings : Obligations.WideReadsAndSettings := by
  unfold Obligations.WideReadsAndSettings
  refine ⟨fun ag addr s r hi hm hk hs hg => ?_, fun ag addr data s r hw hm hc hres => ?_⟩
  · have hrun {w : Word} {d1 : Dev} (h : s.dev.readReg ag (addrGroup addr.toNat) (addrUnit addr.toNat) r
        (lattice (addrGroup addr.toNat) (addrUnit addr.toNat) (addrOff addr.toNat)) (addrStaged addr.toNat) = (.ok, w, d1)) :
        exec (.wideReadCapture ag addr) s = .next (s.put (d1.answer ag .ok w)) := by
      rw [exec_wideReadCapture, Dev.latticeRead_mapped hi hg hm hk]
      exact congrArg (fun e => Host.Outcome.next (s.put e)) (readAccess_run hi hg hs h nofun)
    exact ⟨fun v hv => hrun (Dev.readReg_wide hv), fun hv hf hp hh hl => hrun (Dev.readReg_settingLow hv hf hp hh hl),
      fun hv hf _ hh => ⟨_, hrun (Dev.readReg_high hv hf hh), rfl, rfl⟩⟩
  · intro a hset hok hstop
    have hd : s.dev.latticeWrite ag addr.toNat data = (s.dev.writeFields r.row a 0 data).answer ag .ok := by
      rw [Dev.latticeWrite_mapped data hc hw.1 hw.2.1 hm]
      refine writeAccess_run hw (hset.trans ?_) nofun
      unfold Dev.writeSetting
      dsimp only
      rw [if_neg (by simp [hok]), if_neg (by simp [hstop])]
    have hnil : ((s.dev.writeFields r.row a 0 data).answer ag .ok).resume = [] := (Dev.writeFields_only ..).trans hres
    refine ⟨s.put ((s.dev.writeFields r.row a 0 data).answer ag .ok), ?_, rfl, rfl, Dev.writeFields_value ..,
      Dev.writeFields_staged _ _ _ _ _,
      fun _ => Dev.writeFields_stages _ _ _ _⟩
    rw [exec_latticeWrite, hd, Dev.settleReleased_of_resume_nil hnil]

end Sys2Proof.Machine
end

section
/-! SUPPORT. Islands: their commands, the loss of a clock and the stall monitor (R28, R109 to R113). -/

namespace Sys2Proof.Machine

/-! One bit of a mask of 16. -/

theorem ofNat_or_bit (v : BitVec 16) (i j : Nat) (hj : j ≤ 15) :
    (BitVec.ofNat 16 (v.toNat ||| 2 ^ i)).getLsbD j = (decide (j = i) || v.getLsbD j) := by
  rw [BitVec.getLsbD_ofNat, Nat.testBit_or, Nat.testBit_two_pow, ← BitVec.testBit_toNat]
  simp [show j < 16 by omega, Bool.or_comm, eq_comm]

theorem ofNat_without_bit (v : BitVec 16) (i j : Nat) (hj : j ≤ 15) :
    (BitVec.ofNat 16 (v.toNat - (v.toNat &&& 2 ^ i))).getLsbD j = (!decide (j = i) && v.getLsbD j) := by
  rw [ofNat_without, BitVec.getLsbD_and, BitVec.getLsbD_not, BitVec.getLsbD_ofNat, Nat.testBit_two_pow]
  simp [show j < 16 by omega, Bool.and_comm, eq_comm]

theorem Dev.setRun_runs (d : Dev) (i j : Nat) (on : Bool) (hj : j ≤ 15) :
    (d.setRun i on).runs j = if j = i then on else d.runs j := by
  cases on with
  | true =>
    refine (ofNat_or_bit d.islandRun i j hj).trans ?_
    by_cases h : j = i <;> simp [h, Dev.runs]
  | false =>
    refine (ofNat_without_bit d.islandRun i j hj).trans ?_
    by_cases h : j = i <;> simp [h, Dev.runs]

/-! The commands. -/

theorem islandStopCmd_ok {d : Dev} {arg : BitVec 24} (hi : argUnit arg ≤ 15) (hr : d.runs (argUnit arg) = true)
    (ha : alwaysRun (argUnit arg) = false) (hf : d.islandFree (argUnit arg) = true) :
    islandStopCmd arg d = (.ok, d.setRun (argUnit arg) false) :=
  (if_neg (Nat.not_lt.mpr hi)).trans (if_pos ⟨hr, by rw [ha]; rfl, hf⟩)

theorem islandStopCmd_always {d : Dev} {arg : BitVec 24} (hi : argUnit arg ≤ 15) (ha : alwaysRun (argUnit arg) = true) :
    islandStopCmd arg d = (.state (b1 (d.runs (argUnit arg))), d) :=
  (if_neg (Nat.not_lt.mpr hi)).trans (if_neg fun h => by simp [ha] at h)

theorem islandResetCmd_always {d : Dev} {arg : BitVec 24} (hi : argUnit arg ≤ 15) (ha : alwaysRun (argUnit arg) = true) :
    islandResetCmd arg d = (.state (b1 (d.runs (argUnit arg))), d) :=
  (if_neg (Nat.not_lt.mpr hi)).trans (if_pos ha)

theorem islandResetCmd_ok {d : Dev} {arg : BitVec 24} (hi : argUnit arg ≤ 15) (ha : alwaysRun (argUnit arg) = false) :
    islandResetCmd arg d = (.ok, ((d.abortHung (argUnit arg)).resetIsland (argUnit arg)).setRun (argUnit arg) false) :=
  (if_neg (Nat.not_lt.mpr hi)).trans (if_neg (Bool.eq_false_iff.mp ha))

/-- The device in which an island has been started (R109): it runs, and its clock is no longer lost. -/
def Dev.started (d : Dev) (i : Nat) : Dev :=
  { d.setRun i true with clockLost := BitVec.ofNat 16 (d.clockLost.toNat - (d.clockLost.toNat &&& 2 ^ i)) }

theorem islandStartCmd_ok {d d1 : Dev} {arg : BitVec 24} (hi : argUnit arg ≤ 15) (hr : d.runs (argUnit arg) = false)
    (hc : d.clockPresent (argUnit arg) = (true, d1)) : islandStartCmd arg d = (.ok, d1.started (argUnit arg)) := by
  unfold islandStartCmd
  dsimp only
  rw [if_neg (Nat.not_lt.mpr hi), hc]
  exact if_pos ⟨by rw [hr]; rfl, rfl⟩

/-- Looking for a clock only draws a free bit. -/
theorem Dev.clockPresent_only {d d1 : Dev} {i : Nat} {b : Bool} (h : d.clockPresent i = (b, d1)) : d1 = { d with fresh := d1.fresh } := by
  unfold Dev.clockPresent at h
  (repeat' split at h) <;> cases h <;> rfl

/-! A reset ends what hangs and returns the island to its power-on state (R113). -/

theorem Dev.abortHung_hung (d : Dev) (i : Nat) : (d.abortHung i).hung = d.hung.filter fun (h : HungAccess) => h.island ≠ i :=
  foldl_rel _ _ (fun (a _ : Dev) => a.hung = d.hung.filter fun (h : HungAccess) => h.island ≠ i) _ rfl fun _ _ ha => ha

theorem Dev.resetUnit_evc (d : Dev) (g u : Nat) : (d.resetUnit g u).evc = d.evc := rfl

theorem Dev.resetIsland_modem (d : Dev) (n : Fin 8) (hp : nbit (d.persona 7) n.val = true) :
    d.resetIsland (2 + n.val) = ((d.evcFault n 0xFF).updGp n fun _ => {}).resetUnit 5 (0x10 + n.val) := by
  have hn : 2 ≤ 2 + n.val ∧ 2 + n.val ≤ 9 := by omega
  unfold Dev.resetIsland
  rw [dif_pos hn]
  simp only [Nat.add_sub_cancel_left, hp, if_true]

/-! The clock of an island and the stall monitor (R110, R28). -/

theorem Dev.islandClockLoss_running {d : Dev} {i : Fin 16} (h : d.runs i.val = true) :
    d.islandClockLoss i =
      { (d.setRun i.val false).raiseSys 4 with clockLost := BitVec.ofNat 16 (d.clockLost.toNat ||| 2 ^ i.val) } := if_pos h

/-- Settles O7: each island command by its branch; a run mask changes in one bit. -/
theorem islands : Obligations.Islands := by
  unfold Obligations.Islands
  refine ⟨fun ag arg s hr hi => ⟨fun hrun ha hf => ?_, fun d1 hrun hc => ?_, fun ha => ⟨?_, ?_⟩, fun ha => ?_⟩,
    ⟨fun d i j on hi hj => ⟨?_, fun hne => ?_, rfl⟩, fun d i h hh => ?_, fun d n hp hst => ?_, fun d => ⟨rfl, rfl, fun i h13 h14 hl => ?_⟩⟩,
    fun i s hrun => ?_, fun i s hrun => ?_, fun ag addr data s r isl hi hg hm hc hres hs => ?_, fun s h hm hn hw => ?_⟩
  · exact next_put (issueCommand_ok hr (islandStopCmd_ok hi hrun ha hf))
  · have hd := Dev.clockPresent_only hc
    have hex : exec (.islandStart ag arg) s = .next (s.put ((d1.started (argUnit arg)).completed ag 0 0x11)) :=
      next_put (issueCommand_ok hr (islandStartCmd_ok hi hrun hc))
    refine ⟨_, hex, (Dev.setRun_runs d1 _ _ true hi).trans (if_pos rfl), rfl, ?_, fun j hj hne => ?_, ?_⟩
    · exact (ofNat_without_bit d1.clockLost _ _ hi).trans (by simp)
    · refine ((Dev.setRun_runs d1 _ j true hj).trans (if_neg hne)).trans ?_
      rw [hd]; rfl
    · rw [hd]; rfl
  · exact next_put (issueCommand_state hr (islandStopCmd_always hi ha))
  · exact next_put (congrArg Dev.settleReleased (issueCommand_state hr (islandResetCmd_always hi ha)))
  · exact next_put (congrArg Dev.settleReleased (issueCommand_ok hr (islandResetCmd_ok hi ha)))
  · exact (d.setRun_runs i i on hi).trans (if_pos rfl)
  · exact (d.setRun_runs i j on hj).trans (if_neg hne)
  · rw [Dev.abortHung_hung] at hh
    simpa using (List.mem_filter.1 hh).2
  · rw [Dev.resetIsland_modem d n hp]
    exact Dev.evcFault_fn hst 0xFF
  · unfold Dev.clockPresent
    rw [if_neg h13, if_neg h14, if_neg (Bool.eq_false_iff.mp hl)]
  · have hj := i.isLt
    refine ⟨s.put _, next_put (Dev.islandClockLoss_running hrun), (Dev.setRun_runs s.dev _ _ false (by omega)).trans (if_pos rfl), ?_,
      Dev.flagBit_raise_self _ 0 0 0x10 (2 ^ 4) 4 (by decide) (by decide),
      fun j hj hne => (Dev.setRun_runs s.dev _ j false hj).trans (if_neg hne), rfl⟩
    exact (ofNat_or_bit s.dev.clockLost _ _ (by omega)).trans (by simp)
  · exact next_put (if_neg (Bool.eq_false_iff.mp hrun))
  · have hd : s.dev.latticeWrite ag addr.toNat data = s.dev.hang ag isl addr.toNat := by
      rw [Dev.latticeWrite_mapped data hc hi hg hm]
      unfold writeAccess
      rw [if_neg (by simp [hi]), if_neg (by simp [hg]), hs]
    rw [exec_latticeWrite, hd]
    exact next_put (Dev.settleReleased_of_resume_nil hres)
  · have hlate : (!h.noted && s.dev.after h.since 100000) = true := by
      rw [hn, Bool.not_false, Bool.true_and, Dev.after_iff]
      exact hw
    refine ⟨s.put _, next_put (if_pos (List.any_eq_true.2 ⟨h, hm, hlate⟩)), List.mem_map.2 ⟨h, hm, if_pos hlate⟩,
      Dev.flagBit_raise_self _ 0 0 0x10 (2 ^ 0) 0 (by decide) (by decide), rfl⟩

end Sys2Proof.Machine
end

section
/-! SUPPORT. Firmware slots, the trial and the recovery input (R463, R477 to R481). -/

namespace Sys2Proof.Machine

/-! The slots of the firmware in the boot record. -/

/-- The states of the two slots and the slot that runs. -/
def Dev.slots (d : Dev) : Nat × Nat × Nat × Nat × Nat := (d.img.fwA, d.img.fwB, d.img.running, d.img.boots, d.img.trialSec)

theorem Dev.bootCommit_slots (d : Dev) : d.bootCommit.slots = d.slots := by
  unfold Dev.bootCommit
  dsimp only
  split <;> rfl

theorem Dev.moveArea_slots (d : Dev) (v w : Nat) : (d.moveArea v w).slots = d.slots := by
  unfold Dev.moveArea Dev.setArea
  split <;> rfl

theorem Dev.slots_of_img {d e : Dev} (h : d.img = e.img) : d.slots = e.slots := by
  unfold Dev.slots
  rw [h]

theorem Dev.putFw_fwState (d : Dev) (slot v k : Nat) (h : slot < 2) (hk : k < 2) :
    (d.putFw slot v).fwState k = if k = slot then v else d.fwState k := by
  unfold Dev.putFw Dev.fwState
  dsimp only
  split <;> split <;> split <;> first | rfl | omega

/-- The record that a commit writes goes to the older copy (R463). -/
theorem Dev.bootCommit_copies {d : Dev} (h : d.img.bootRecord d.img.bootNewest.seq ≠ d.img.bootNewest) :
    d.bootCommit.img.bootNewest = d.img.bootRecord (d.img.bootNewest.seq + 1) ∧
      (d.img.bootNewerB = true → d.bootCommit.img.bootB = d.img.bootB) ∧
      (d.img.bootNewerB = false → d.bootCommit.img.bootA = d.img.bootA) := by
  unfold Dev.bootCommit
  dsimp only
  rw [if_neg h]
  cases hb : d.img.bootNewerB with
  | true =>
    refine ⟨?_, fun _ => rfl, nofun⟩
    have hn : d.img.bootNewest = d.img.bootB := if_pos hb
    rw [hn]
    exact if_neg fun hlt => absurd (of_decide_eq_true hlt) (Nat.not_lt.mpr (Nat.le_succ _))
  | false =>
    refine ⟨?_, nofun, fun _ => rfl⟩
    have hn : d.img.bootNewest = d.img.bootA := if_neg (Bool.eq_false_iff.mp hb)
    rw [hn]
    exact if_pos (decide_eq_true (Nat.lt_succ_self _))

/-- The slots and areas of a confirmed trial (R479): the old firmware is superseded, the running one confirmed. -/
def Dev.fwAreas (d : Dev) : Dev :=
  (((match d.fwIn 4 with
    | some s => d.putFw s 6
    | none => d).putFw d.img.running 4).moveArea 1 3).moveArea 2 1

def Dev.fwConfirmed (d : Dev) : Dev := { d.fwAreas with img := { d.fwAreas.img with boots := 0, trialSec := 0 } }.bootCommit

theorem fwConfirmCmd_trial {d : Dev} {arg : BitVec 24} (ha : fwArgOk arg = true) (hr : d.img.running < 2)
    (hs : d.fwState d.img.running = 3) : fwConfirmCmd .core arg d = (.ok, (d.fwConfirmed.tamper 16 none).raiseImg 2) := by
  unfold fwConfirmCmd
  rw [if_neg (by decide), if_neg (by rw [ha]; decide), if_pos ⟨hs, hr⟩]
  rfl

theorem Dev.fwState_of_slots {d e : Dev} (h : d.slots = e.slots) (k : Nat) : d.fwState k = e.fwState k :=
  (congrArg (fun x => if k = 0 then x.1 else x.2.1) h :)

theorem Dev.fwAreas_fwState (d : Dev) (hr : d.img.running < 2) : d.fwAreas.fwState d.img.running = 4 := by
  refine (Dev.fwState_of_slots ((Dev.moveArea_slots _ 2 1).trans (Dev.moveArea_slots _ 1 3)) _).trans ?_
  rw [Dev.putFw_fwState _ _ _ _ hr hr, if_pos rfl]

theorem Dev.fwConfirmed_slots (d : Dev) (hr : d.img.running < 2) :
    d.fwConfirmed.fwState d.img.running = 4 ∧ d.fwConfirmed.img.boots = 0 ∧ d.fwConfirmed.img.trialSec = 0 := by
  have h := Dev.bootCommit_slots { d.fwAreas with img := { d.fwAreas.img with boots := 0, trialSec := 0 } }
  exact ⟨(Dev.fwState_of_slots h _).trans (d.fwAreas_fwState hr), congrArg (·.2.2.2.1) h, congrArg (·.2.2.2.2) h⟩

theorem Dev.fwConfirmed_bil (d : Dev) : d.fwConfirmed.bil = d.bil := by
  have ha : d.fwAreas.bil = d.bil := by
    refine (Dev.moveArea_part (pt := .bil) nofun _ 2 1).trans ((Dev.moveArea_part (pt := .bil) nofun _ 1 3).trans ?_)
    cases d.fwIn 4 <;> rfl
  exact (Dev.bootCommit_part (pt := .bil) nofun nofun _).trans ha

/-- A count of no slice's own goes up by 1 (R246). -/
theorem Dev.tamper_count_all (d : Dev) (k : Fin 24) :
    ((d.tamper k none).bil.tamper[k]).count = satAdd 32 (d.bil.tamper[k]).count 1 := by
  unfold Dev.tamper
  extract_lets t t1 _ d1 d2
  have h : d2.bil.tamper = d1.bil.tamper :=
    foldl_rel slices _ (fun a e => a.bil.tamper = e.bil.tamper) d1 rfl fun _ _ ha => ha
  show (d2.bil.tamper[k]).count = _
  rw [h]
  simp [d1, t1, t]

theorem Dev.countedFlag_img (d : Dev) (k : Fin 24) (b : Nat) : ((d.tamper k none).raiseImg b).img = d.img :=
  ((Dev.raise_part (pt := .img) _ 14 0 0x18 (2 ^ b)).trans (Dev.tamper_part (pt := .img) nofun d k none) :)

theorem Dev.countedFlag_count (d : Dev) (k : Fin 24) (b : Nat) :
    (((d.tamper k none).raiseImg b).bil.tamper[k]).count = satAdd 32 (d.bil.tamper[k]).count 1 := d.tamper_count_all k

/-- The confirmation counts firmware updates and raises its flag. -/
theorem Dev.fwConfirmed_counted (d : Dev) (k : Fin 24) (b : Nat) (hr : d.img.running < 2) (hb : b < 16) :
    let t := (d.fwConfirmed.tamper k none).raiseImg b
    t.fwState d.img.running = 4 ∧ t.img.trialSec = 0 ∧ t.img.boots = 0 ∧
      (t.bil.tamper[k]).count = satAdd 32 (d.bil.tamper[k]).count 1 ∧ t.flagBit 14 0 0x18 b = true := by
  obtain ⟨hfw, hboots, hsec⟩ := d.fwConfirmed_slots hr
  have himg := d.fwConfirmed.countedFlag_img k b
  have hcount := d.fwConfirmed.countedFlag_count k b
  rw [Dev.fwConfirmed_bil] at hcount
  exact ⟨(Dev.fwState_of_slots (Dev.slots_of_img himg) _).trans hfw, (congrArg ImgState.trialSec himg).trans hsec,
    (congrArg ImgState.boots himg).trans hboots, hcount,
    Dev.flagBit_raise_self _ 14 0 0x18 (2 ^ b) b hb (by simp)⟩

/-! The recovery input (R481). -/

theorem Dev.rcvWrite_open {d : Dev} {ws : List QData} (hok : rcvBlockOk ws = true) (hs : d.fwState (bits (ws.getD 1 0).toNat 63 56) = 1)
    (hh : d.sto.holdup = false) :
    d.rcvWrite ws = (0, d.storeWrite (fwAddr (bits (ws.getD 1 0).toNat 63 56) + bits (ws.getD 1 0).toNat 55 32)
      ((unpackWords (ws.drop 2)).take (bits (ws.getD 1 0).toNat 31 16))) := by
  unfold Dev.rcvWrite
  dsimp only
  rw [if_neg (by rw [hok]; decide), if_pos hs]
  dsimp only
  rw [if_neg (fun h => h rfl), if_neg (Bool.eq_false_iff.mp hh)]

/-- A block in front of the recovery input whose turn it is is taken. -/
theorem Dev.rcvBlock_turn {d d1 : Dev} {q : Fin 64} {cs : List WordCheck} {m : QMsg} {ms : List QMsg} {ws : List QData}
    (hin : d.inRecovery = true) (hturn : d.rcvTurn q = true) (hm : (d.freshFront q).que.q[q].msgs = m :: ms)
    (htake : (d.freshFront q).rcvTake q cs = (some ws, d1)) (hty : hdrType (msgHead m.words) ≠ 0x71) :
    d.rcvBlock q cs = if hdrType (msgHead ws) = 0x70 then
      (d1.rcvWrite ws).2.rcvAck d.que.q[q].entry.prod (bits (ws.getD 1 0).toNat 63 56) (bits (ws.getD 1 0).toNat 55 32) (d1.rcvWrite ws).1
      else d1 := by
  unfold Dev.rcvBlock
  rw [if_neg (by simp [hin, hturn])]
  dsimp only
  rw [hm]
  dsimp only
  rw [if_neg hty, htake]
  rfl

theorem Dev.rcvDone_turn {d d1 : Dev} {q : Fin 64} {cs : List WordCheck} {m : QMsg} {ms : List QMsg} {ws : List QData}
    (hin : d.inRecovery = true) (hturn : d.rcvTurn q = true) (hm : (d.freshFront q).que.q[q].msgs = m :: ms)
    (htake : (d.freshFront q).rcvTake q cs = (some ws, d1)) (hty : hdrType (msgHead m.words) = 0x71) :
    d.rcvDone q cs = if isPoison ws then d1 else d1.rcvPend d.que.q[q].entry.prod (bits (m.words.getD 1 0).toNat 63 56) := by
  unfold Dev.rcvDone
  rw [if_neg (by simp [hin, hturn])]
  dsimp only
  rw [hm]
  dsimp only
  rw [if_neg (fun h => h hty), htake]
  rfl

/-- Settles O12: each firmware command by its branch; a commit of the boot record fills the older copy. -/
theorem firmware : Obligations.Firmware := by
  unfold Obligations.Firmware
  refine ⟨fun ag arg s hr ha => ⟨fun hst ht => ?_, fun hst h2 h3 h0 => ?_, fun hst h2 h3 h0 => ?_, fun hag hrun hst => ?_,
    fun slot h3 h2 => ?_⟩, ⟨fun s slot hsel hc hh hb => ?_, fun s ht hsec hh => ?_⟩, fun d h => Dev.bootCommit_copies h,
    fun q cs s m ms ws d1 hin hturn hmsgs htake => ⟨fun hty => ⟨fun hw hok hst hh => ?_, fun hw => ?_⟩,
      fun hty => ⟨fun hp => ?_, fun hp hst k d3 hrom => ?_⟩⟩⟩
  · refine next_put (issueCommand_ok hr ?_)
    unfold fwOpenCmd
    dsimp only
    rw [if_neg (by rw [ha]; decide), if_pos ⟨hst, by rw [ht]; rfl⟩]
  · refine next_put (issueCommand_ok hr ?_)
    unfold fwPendingCmd
    dsimp only
    rw [if_neg (by rw [ha]; decide), if_pos ⟨hst, h2, h3⟩, if_pos h0]
  · refine next_put (issueCommand_arg hr ?_)
    unfold fwPendingCmd
    dsimp only
    rw [if_neg (by rw [ha]; decide), if_pos ⟨hst, h2, h3⟩, if_neg h0]
  · subst hag
    have h := s.dev.fwConfirmed_counted 16 2 hrun (by decide)
    have hex : exec (.fwConfirm .core arg) s = .next (s.put (((s.dev.fwConfirmed.tamper 16 none).raiseImg 2).completed .core 14 0x12)) :=
      next_put (issueCommand_ok hr (fwConfirmCmd_trial ha hrun hst))
    generalize (s.dev.fwConfirmed.tamper 16 none).raiseImg 2 = D at h hex
    exact ⟨_, hex, h⟩
  · refine next_put (congrArg Dev.settleReset (issueCommand_ok hr ?_))
    unfold fwRevertCmd
    rw [if_neg (by rw [ha]; decide), h3, h2]
  · refine next_put ?_
    unfold Dev.firmwareStart
    rw [hsel]
    exact if_neg (by simp [hc, hh, hb])
  · exact next_put (if_pos ⟨ht, hsec, by rw [hh]; rfl⟩)
  · refine next_put ((Dev.rcvBlock_turn hin hturn hmsgs htake hty).trans ((if_pos hw).trans ?_))
    rw [Dev.rcvWrite_open hok hst hh]
  · exact next_put ((Dev.rcvBlock_turn hin hturn hmsgs htake hty).trans (if_neg hw))
  · exact next_put ((Dev.rcvDone_turn hin hturn hmsgs htake hty).trans (if_pos hp))
  · refine next_put ((Dev.rcvDone_turn hin hturn hmsgs htake hty).trans ((if_neg (Bool.eq_false_iff.mp hp)).trans ?_))
    have hopen : d1.rcvOpen (bits (m.words.getD 1 0).toNat 63 56) = d1 := if_neg (by rw [hst]; omega)
    unfold Dev.rcvPend
    rw [hopen, hrom]
    dsimp only
    split
    · next hk => rw [hk]
    · rfl

end Sys2Proof.Machine
end

section
/-! SUPPORT. The retained store: its window, its scrub passes and its writer (R459 to R472). -/

namespace Sys2Proof.Machine

theorem Dev.stoRead_ok {d : Dev} {ag : Agent} (h : stoArea (d.stoAddr ag) ≠ .keyRecords) :
    d.stoRead ag = (.ok, (d.stoWord (d.stoAddr ag)).1, (d.stoWord (d.stoAddr ag)).2.stoAdvance ag) := if_neg h

theorem Dev.storeWindow_read {d : Dev} {ag : Agent} (hi : d.canIssue ag = true) (hg : d.granted ag 13 0 .read = true)
    (h : stoArea (d.stoAddr ag) ≠ .keyRecords) : d.storeWindow ag none =
      ((d.stoWord (d.stoAddr ag)).2.stoAdvance ag).answer ag .ok (d.stoWord (d.stoAddr ag)).1 :=
  readAccess_run (a := lattice 13 0 4) (h := fun x => x.stoRead ag) hi hg rfl (Dev.stoRead_ok h) nofun

theorem Dev.stoWrite_ok {d : Dev} {ag : Agent} (v : Word) (h : (stoArea (d.stoAddr ag)).writeRefused ag = none)
    (hh : d.sto.holdup = false) (hw : d.stoWritable (stoArea (d.stoAddr ag)) = true) :
    d.stoWrite ag v =
      (.ok, ((d.storeWrite (d.stoAddr ag) (leBytes 4 v.toNat)).stoNote ag (d.stoAddr ag) (stoArea (d.stoAddr ag))).stoAdvance ag) := by
  unfold Dev.stoWrite
  dsimp only
  rw [h]
  dsimp only
  rw [if_neg (Bool.eq_false_iff.mp hh), if_neg (by decide), if_pos hw]

theorem Dev.storeWindow_write {d : Dev} {ag : Agent} {v : Word} (hi : d.canIssue ag = true) (hg : d.granted ag 13 0 .write = true)
    (hr : (stoArea (d.stoAddr ag)).writeRefused ag = none) (hh : d.sto.holdup = false)
    (hw : d.stoWritable (stoArea (d.stoAddr ag)) = true) : d.storeWindow ag (some v) =
      (((d.storeWrite (d.stoAddr ag) (leBytes 4 v.toNat)).stoNote ag (d.stoAddr ag) (stoArea (d.stoAddr ag))).stoAdvance ag).answer
        ag .ok :=
  writeAccess_run (a := lattice 13 0 4) (h := fun x => x.stoWrite ag v) ⟨hi, hg, rfl⟩ (Dev.stoWrite_ok v hr hh hw) nofun

/-- A message that carries no poison is committed to the store (R131, R467). -/
theorem Dev.storeMessage_clean {d d1 : Dev} {q : Fin 64} {cs : List WordCheck} {m : QMsg} {ms : List QMsg}
    (hcons : d.que.q[q].entry.cons = 3) (hh : d.sto.holdup = false) (hserves : (d.freshFront q).serves q = true)
    (hm : (d.freshFront q).que.q[q].msgs = m :: ms) (hp : poisonSpan m ms cs = 0)
    (ht : (d.freshFront q).takeMsg q cs = (some m.words, d1)) : d.storeMessage q cs = d1.storeBlock m.words := by
  unfold Dev.storeMessage
  dsimp only
  rw [if_neg (not_or.2 ⟨fun h => h hcons, Bool.eq_false_iff.mp hh⟩), if_neg (by simp [hserves]), hm]
  dsimp only
  rw [ht]
  exact if_pos hp

theorem Dev.storeBlock_reading (d : Dev) {ws : List QData} (h : hdrType (msgHead ws) = 0x20) :
    (d.storeBlock ws).sto.mram =
      (d.storeWrite (readingAddr d.bil.rdCount) ((unpackWords ws.tail).take 448 ++ List.replicate 64 0)).sto.mram := by
  unfold Dev.storeBlock
  dsimp only
  rw [if_pos h]

theorem Dev.storeBlock_karurn (d : Dev) {ws : List QData} (h : hdrType (msgHead ws) = 0x21) :
    (d.storeBlock ws).sto.mram = (d.storeWrite (karurnAddr d.bil.karCount) ((unpackWords ws.tail).take 256)).sto.mram := by
  unfold Dev.storeBlock
  dsimp only
  rw [if_neg (by rw [h]; decide), if_pos h]

theorem Dev.scrubComplete_running {d : Dev} (k : Nat) (h : d.sto.scrubRunning = true) :
    (d.scrubComplete k []).sto = { d.sto with scrubRunning := false, scrubAt := d.el, eccFixed := satAdd 16 d.sto.eccFixed k } ∧
      (d.scrubComplete k []).flagBit 13 0 0x18 4 = true := by
  unfold Dev.scrubComplete
  rw [if_pos h]
  refine ⟨?_, Dev.flagBit_raise_self _ 13 0 0x18 (2 ^ 4) 4 (by decide) (by decide)⟩
  dsimp only [List.foldl_nil]
  refine (Dev.raise_part (pt := .sto) _ 13 0 0x18 (2 ^ 4)).trans ?_
  split
  · rfl
  · exact Dev.raise_part (pt := .sto) _ 13 0 0x18 (2 ^ 0)

/-- Settles O13: the window by the accesses of its register, the writer by the message in front. -/
theorem retainedStore : Obligations.RetainedStore := by
  unfold Obligations.RetainedStore
  refine ⟨fun ag s hi => ⟨fun hg ha => ?_, fun v hg hr hh hw => ?_⟩,
    ⟨fun ag arg s hr => ⟨?_, ?_⟩, fun s hrun hh hat => ?_, fun k s hrun => ?_⟩,
    fun q cs s m ms hcons hh hserves hm hp d1 ht => ⟨?_, ?_, ?_⟩⟩
  · exact next_put (Dev.storeWindow_read hi hg ha)
  · exact next_put (Dev.storeWindow_write hi hg hr hh hw)
  · exact next_put (issueCommand_ok hr rfl)
  · exact next_put (issueCommand_ok hr rfl)
  · exact next_put (if_pos ⟨by rw [hrun]; rfl, by rw [hh]; rfl, (Dev.after_iff ..).2 hat⟩)
  · obtain ⟨hsto, hflag⟩ := Dev.scrubComplete_running k hrun
    exact ⟨s.put (s.dev.scrubComplete k []), rfl, congrArg StoState.scrubRunning hsto, congrArg StoState.scrubAt hsto,
      congrArg StoState.eccFixed hsto,
      (congrArg StoState.mram hsto :), hflag⟩
  · exact next_put (Dev.storeMessage_clean hcons hh hserves hm hp ht)
  · exact d1.storeBlock_reading
  · exact d1.storeBlock_karurn

end Sys2Proof.Machine
end

section
/-! SUPPORT. Reads of the core's queue port (O14). -/

namespace Sys2Proof.Machine

/-- The message that the core has begun to read, with one word left. -/
def begunMsg : QMsg := { words := [0, 0], time := 0, since := 0, notified := false, taken := 1 }

/-- A queue to the core with an expired message, none of whose words is taken, before one that the core has begun to read. -/
def staleThenBegun : Queue where
  entry := { cls := 2, depth := 8, prod := 2, cons := 1, thresh := 0 }
  msgs := [{ words := [0], time := 0, since := 0, notified := false, taken := 0 }, begunMsg]

def staleBeforeBegun : State where
  dev := { tim := { now := 10000000001 }, que := { q := Vector.replicate 64 staleThenBegun } }

theorem staleBeforeBegun_front : (staleBeforeBegun.dev.freshFront 0).que.q[(0 : Fin 64)].msgs = [begunMsg] := by decide

/-- Reading discards the expired message and counts it. -/
theorem staleBeforeBegun_read : (staleBeforeBegun.dev.portRead 0 []).regs ≠ staleBeforeBegun.dev.regs := by decide

/-- Refutes O14: where an expired message stands before the begun one, a read of the begun message discards the expired one,
which the queue's counter register shows: more than the queues changes. -/
theorem not_queuePort : ¬Obligations.QueuePort := by
  unfold Obligations.QueuePort
  rintro ⟨-, hport⟩
  obtain ⟨-, -, -, hread⟩ := hport 0 0 staleBeforeBegun (by decide)
  obtain ⟨-, hfront⟩ := hread (by decide)
  obtain ⟨hgood, -⟩ := hfront begunMsg [] [] staleBeforeBegun_front
  obtain ⟨t, hex, -, -, -, honly⟩ := hgood (by decide)
  have ht : t = staleBeforeBegun.put (staleBeforeBegun.dev.portRead 0 []) := (Host.Outcome.next.inj hex).symm
  subst ht
  exact staleBeforeBegun_read (congrArg Dev.regs (honly (by decide) rfl) :)

end Sys2Proof.Machine
end

section
/-! SUPPORT. The services of site time: its commands, the leap, whole seconds and the servo's intervals (R143 to R157). -/

namespace Sys2Proof.Machine

/-! The commands. -/

theorem Dev.disarmAlm_bit (d : Dev) (a b : Fin 8) :
    (d.disarmAlm a.val).tim.almArmed.getLsbD b.val = (if b = a then false else d.tim.almArmed.getLsbD b.val) := by
  have h := ofNat_setBit d.tim.almArmed a.val false b.isLt
  rw [show b1 false * 2 ^ a.val = 0 from Nat.zero_mul _, Nat.add_zero] at h
  refine h.trans ?_
  simp only [Fin.ext_iff]

/-! The leap (R143). -/

theorem bits_leapWord {x : Nat} (hx : x < 256) :
    fld (packW [(16, 0), (8, x), (8, x)]) 7 0 = x ∧ fld (packW [(16, 0), (8, x), (8, x)]) 16 16 = 0 := by
  have hp : pack [(16, 0), (8, x), (8, x)] = 257 * x := by
    simp only [pack, List.foldl_cons, List.foldl_nil]
    omega
  unfold fld bits packW
  rw [BitVec.toNat_ofNat, hp, Nat.mod_eq_of_lt (show 257 * x < 2 ^ 32 by omega)]
  refine ⟨?_, ?_⟩
  · show 257 * x / 1 % 256 = x
    omega
  · show 257 * x / 65536 % 2 = 0
    rw [Nat.div_eq_of_lt (by omega)]

theorem Dev.leapApply_now {d : Dev} (h : bit (d.reg 1 0 0x24) 16 = true) (hn : d.nextMonthStart d.tim.now = d.tim.now) :
    d.leapApply = d.applyLeap := if_pos (by rw [h, hn]; simp)

theorem Dev.applyLeap_rfld (d : Dev) :
    d.applyLeap.rfld 1 0 0x24 7 0 = d.rfld 1 0 0x24 15 8 ∧ d.applyLeap.rfld 1 0 0x24 16 16 = 0 := by
  have hreg : d.applyLeap.reg 1 0 0x24 = packW [(16, 0), (8, fld (d.reg 1 0 0x24) 15 8), (8, fld (d.reg 1 0 0x24) 15 8)] :=
    (Dev.reg_setReg ..).trans (if_pos rfl)
  unfold Dev.rfld
  rw [hreg]
  exact bits_leapWord (fld_lt _ 15 8)

/-! The servo (R147 to R152). -/

theorem Dev.servoIntegral_now (d d4 : Dev) (off : Rat) : (d.servoIntegral d4 off).tim.now = d4.tim.now := by
  unfold Dev.servoIntegral
  split
  · have h5 := d4.round_tim ((d.tim.trim : Rat) + off * 1000000000 / d.syncInterval / ((2 ^ d.rfld 1 1 4 19 16 : Nat) : Rat))
    dsimp only
    split <;> exact (congrArg TimState.now h5 :)
  · rfl

theorem Dev.servoLock_now (d : Dev) (offs : List Int) : (d.servoLock offs).tim.now = d.tim.now := by
  rw [Dev.servoLock_eq, Dev.oneEvent_tim, Dev.servoIntegral_now, Dev.servoProportional_tim]

theorem Dev.servoEnd_now (d : Dev) : d.servoEnd.tim.now = d.tim.now := by
  have hold (e : Dev) : e.holdover.tim.now = e.tim.now := by
    unfold Dev.holdover
    split <;> rfl
  unfold Dev.servoEnd
  extract_lets offs d1
  (repeat' split)
  · rfl
  · exact (congrArg TimState.now (Dev.raiseTim_tim _ 3)).trans (hold _)
  · rfl
  · exact d.servoLock_now offs

theorem Dev.ran_lastRun (d : Dev) (key : Nat) : (d.ran key).lastRun key = some d.tim.now := by
  unfold Dev.lastRun Dev.ran
  simp

/-- Settles O18: each service by its branch; no end of an interval moves site time. -/
theorem timeServices : Obligations.TimeServices := by
  unfold Obligations.TimeServices
  refine ⟨fun ag arg s => ⟨fun hr hv => ?_, fun hr h0 h1 => ?_, fun a ha hr => ?_⟩,
    fun s => ⟨fun hl hn => ?_, fun hdue hh => ?_, fun ag w hw => ⟨fun hsel hrun => ?_, fun hsel => ?_⟩, fun hrun hdue => ?_,
      fun hrun hdue => ?_⟩⟩
  · exact next_put (issueCommand_pending hr (if_pos hv))
  · exact next_put (issueCommand_pending hr (if_pos ⟨h0, h1⟩))
  · rw [← ha] at hr
    have hcmd : alarmCancelCmd arg s.dev = (.ok, s.dev.disarmAlm a.val) := by
      unfold alarmCancelCmd
      rw [if_pos (by rw [ha]; exact a.isLt), ha]
    exact ⟨_, next_put (issueCommand_ok hr hcmd), (s.dev.disarmAlm_bit a a).trans (if_pos rfl),
      fun b hb => (s.dev.disarmAlm_bit a b).trans (if_neg hb), rfl, rfl⟩
  · obtain ⟨hnow, hnext⟩ := s.dev.applyLeap_rfld
    exact ⟨_, next_put (Dev.leapApply_now hl hn), Dev.flagBit_raise_self _ 1 0 0x10 (2 ^ 5) 5 (by decide) (by decide), hnow, hnext, rfl⟩
  · exact ⟨s.put (s.dev.ran keySecond).saveRtc, next_put (if_pos ⟨hdue, by rw [hh]; rfl⟩), rfl, rfl, rfl, rfl⟩
  · refine next_put (writeAccess_run hw ?_ nofun)
    refine (if_pos hsel).trans ?_
    unfold Dev.servoOffset
    rw [if_pos hrun]
    rfl
  · refine ⟨_, next_put (writeAccess_run hw (if_neg ?_) nofun), rfl, rfl⟩
    omega
  · have hnow : (s.dev.servoEnd.swapUnit 1 1).tim.now = s.dev.tim.now :=
      (congrArg TimState.now (Dev.swapUnit_part (pt := .tim) s.dev.servoEnd 1 1) :).trans s.dev.servoEnd_now
    refine ⟨s.put _, next_put (if_pos (by rw [hrun, hdue]; rfl)), rfl, rfl, rfl, rfl, ?_⟩
    exact (Dev.ran_lastRun (s.dev.servoEnd.swapUnit 1 1) keySync).trans (congrArg some hnow)
  · exact ⟨s.put _, next_put ((if_neg (by rw [hrun]; simp)).trans (if_pos hdue)), rfl, s.dev.ran_lastRun keySync, rfl⟩

end Sys2Proof.Machine
end

section
/-! SUPPORT. Compare units, alarms and capture units (R160 to R163). -/

namespace Sys2Proof.Machine

/-! One compare unit. -/

theorem Dev.updCmp_self (d : Dev) (c : Fin 16) (f : Cmp → Cmp) : (d.updCmp c f).tim.cmp[c] = f d.tim.cmp[c] := by
  simp [Dev.updCmp, vmod]

theorem Dev.updCmp_other (d : Dev) {c b : Fin 16} (h : b ≠ c) (f : Cmp → Cmp) : (d.updCmp c f).tim.cmp[b] = d.tim.cmp[b] :=
  Vector.getElem_set_ne c.isLt b.isLt fun he => h (Fin.ext he.symm)

theorem Dev.writeCmpTarget_disabled {d : Dev} {c : Fin 16} {w : Word} (h : bit (d.reg 1 (0x10 + c.val) 0) 0 = false) :
    d.writeCmpTarget c w = d.updCmp c fun x => { x with target := w } := if_neg (Bool.eq_false_iff.mp h)

theorem Dev.writeCmpTarget_enabled {d : Dev} {c : Fin 16} {w : Word} (h : bit (d.reg 1 (0x10 + c.val) 0) 0 = true) :
    d.writeCmpTarget c w = if cmpDelta w d.tim.now ≤ 0 then
      (d.updCmp c fun _ => { armed := true, target := w }).fireCmp c false true
      else d.updCmp c fun _ => { armed := true, target := w } := if_pos h

theorem Dev.writeCmpCtrl_only (d : Dev) (c : Fin 16) (w : Word) :
    d.writeCmpCtrl c w = { d with tim := (d.writeCmpCtrl c w).tim, regs := (d.writeCmpCtrl c w).regs } := by
  unfold Dev.writeCmpCtrl
  dsimp only
  split <;> rfl

theorem Dev.writeCmpCtrl_cmp (d : Dev) (c b : Fin 16) (w : Word) :
    (d.writeCmpCtrl c w).tim.cmp[b] =
      if b = c then { d.tim.cmp[c] with armed := bit w 0 && (d.tim.cmp[c]).armed } else d.tim.cmp[b] := by
  unfold Dev.writeCmpCtrl
  dsimp only
  by_cases hb : b = c
  · subst hb
    rw [if_pos rfl]
    cases bit w 0 with
    | true => rfl
    | false => exact Dev.updCmp_self _ b _
  · rw [if_neg hb]
    split
    · rfl
    · exact Dev.updCmp_other _ hb _

theorem Dev.writeCmpCtrl_reg (d : Dev) (c : Fin 16) (w : Word) :
    (d.writeCmpCtrl c w).reg 1 (0x10 + c.val) 0 = w32 (bits w.toNat 1 0) := by
  unfold Dev.writeCmpCtrl
  dsimp only
  split <;> exact (Dev.reg_setReg ..).trans (if_pos rfl)

/-! A unit that fires (R161). -/

/-- The unit that has fired: without a period it is done, with one its target is the next that lies ahead. -/
def Cmp.fired (x : Cmp) (now period : Nat) (step late : Bool) : Cmp :=
  if period = 0 then { x with armed := false, stepFire := step, late := late }
  else { x with
    stepFire := step, late := late || 1 < (-(cmpDelta x.target now)).toNat / period + 1
    target := x.target + BitVec.ofNat 32 (((-(cmpDelta x.target now)).toNat / period + 1) * period) }

/-- The part after the fire's flag, with its scan asked for. -/
def Dev.fireNoted (d : Dev) (c : Fin 16) : Dev :=
  if bit (d.reg 1 (0x10 + c.val) 0) 1 then
    { d.raise 1 0 0x14 (2 ^ c.val) with pwr := { (d.raise 1 0 0x14 (2 ^ c.val)).pwr with hkReq := true } }
  else d.raise 1 0 0x14 (2 ^ c.val)

theorem Dev.fireNoted_only (d : Dev) (c : Fin 16) : d.fireNoted c = { d with flags := (d.fireNoted c).flags, pwr := (d.fireNoted c).pwr } := by
  unfold Dev.fireNoted
  split <;> rfl

theorem Dev.fireNoted_flag (d : Dev) (c : Fin 16) : (d.fireNoted c).flagBit 1 0 0x14 c.val = true := by
  have h : (d.raise 1 0 0x14 (2 ^ c.val)).flagBit 1 0 0x14 c.val = true :=
    Dev.flagBit_raise_self _ 1 0 0x14 (2 ^ c.val) c.val c.isLt (by simp)
  unfold Dev.fireNoted
  split <;> exact h

theorem Dev.fireNoted_tim (d : Dev) (c : Fin 16) : (d.fireNoted c).tim = d.tim := by rw [Dev.fireNoted_only]

theorem Dev.fireCmp_eq (d : Dev) (c : Fin 16) (step late : Bool) :
    d.fireCmp c step late = (d.fireNoted c).updCmp c fun x =>
      if (d.reg 1 (0x10 + c.val) 8).toNat = 0 then { x with armed := false, stepFire := step, late := late }
      else { x with
        stepFire := step
        late := late || 1 < (-(cmpDelta (d.tim.cmp[c]).target d.tim.now)).toNat / (d.reg 1 (0x10 + c.val) 8).toNat + 1
        target := x.target + BitVec.ofNat 32
          (((-(cmpDelta (d.tim.cmp[c]).target d.tim.now)).toNat / (d.reg 1 (0x10 + c.val) 8).toNat + 1) *
            (d.reg 1 (0x10 + c.val) 8).toNat) } := rfl

theorem Dev.fireCmp_self (d : Dev) (c : Fin 16) (step late : Bool) :
    (d.fireCmp c step late).tim.cmp[c] = (d.tim.cmp[c]).fired d.tim.now (d.reg 1 (0x10 + c.val) 8).toNat step late := by
  rw [Dev.fireCmp_eq, Dev.updCmp_self, Dev.fireNoted_tim]
  rfl

theorem Dev.fireCmp_other (d : Dev) {c b : Fin 16} (h : b ≠ c) (step late : Bool) :
    (d.fireCmp c step late).tim.cmp[b] = d.tim.cmp[b] := by
  rw [Dev.fireCmp_eq, Dev.updCmp_other _ h, Dev.fireNoted_tim]

theorem Dev.fireCmp_only (d : Dev) (c : Fin 16) (step late : Bool) :
    d.fireCmp c step late = { d with
      tim := { d.tim with cmp := (d.fireCmp c step late).tim.cmp }, pwr := (d.fireCmp c step late).pwr
      flags := (d.fireCmp c step late).flags } := by
  rw [Dev.fireCmp_eq]
  unfold Dev.updCmp
  rw [Dev.fireNoted_only]

theorem Dev.fireNoted_scan {d : Dev} {c : Fin 16} (h : bit (d.reg 1 (0x10 + c.val) 0) 1 = true) : (d.fireNoted c).pwr.hkReq = true := by
  unfold Dev.fireNoted
  rw [if_pos h]

/-! Alarms and captures (R162, R163). -/

theorem Dev.writeAlmHi_target (d : Dev) (a : Fin 8) (w : Word) :
    (d.writeAlmHi a w).almTarget a.val = w.toNat * 2 ^ 32 + (d.reg 1 (0x20 + a.val) 0).toNat := by
  have hhi : (d.writeAlmHi a w).reg 1 (0x20 + a.val) 4 = w := (Dev.reg_setReg ..).trans (if_pos rfl)
  have hlo : (d.writeAlmHi a w).reg 1 (0x20 + a.val) 0 = d.reg 1 (0x20 + a.val) 0 :=
    (Dev.reg_setReg ..).trans (if_neg (by unfold lattice; omega))
  unfold Dev.almTarget
  rw [hhi, hlo]

theorem Dev.writeAlmHi_armed (d : Dev) (a : Fin 8) (w : Word) : (d.writeAlmHi a w).tim.almArmed.getLsbD a.val = true := by
  show (BitVec.ofNat 8 (d.tim.almArmed.toNat ||| 2 ^ a.val)).getLsbD a.val = true
  rw [BitVec.getLsbD_ofNat, Nat.testBit_or, Nat.testBit_two_pow_self, Bool.or_true]
  simp

/-- One capture unit at an edge. -/
def Dev.captures (d : Dev) (src : CapSource) (rising : Bool) (acc : Dev) (k : Fin 8) : Dev :=
  if d.capTakes k.val src rising then
    { acc.countMod 1 (0x30 + k.val) 0 31 16 with
      tim := { (acc.countMod 1 (0x30 + k.val) 0 31 16).tim with
        cap := (acc.countMod 1 (0x30 + k.val) 0 31 16).tim.cap.set k.val (BitVec.ofNat 64 d.tim.now) k.isLt } }
  else acc

theorem Dev.captureEdge_eq (d : Dev) (src : CapSource) (rising : Bool) :
    d.captureEdge src rising = (List.finRange 8).foldl (d.captures src rising) d := rfl

theorem Dev.captures_cap (d : Dev) (src : CapSource) (rising : Bool) (acc : Dev) (k j : Fin 8) :
    (d.captures src rising acc k).tim.cap[j] =
      if j = k ∧ d.capTakes k.val src rising = true then BitVec.ofNat 64 d.tim.now else acc.tim.cap[j] := by
  unfold Dev.captures
  split
  next h =>
    show (acc.tim.cap.set k.val (BitVec.ofNat 64 d.tim.now) k.isLt)[j.val] = _
    rw [Vector.getElem_set]
    simp [h, Fin.ext_iff, eq_comm]
  next h => exact (if_neg fun hc : j = k ∧ d.capTakes k.val src rising = true => h hc.2).symm

theorem Dev.captures_only (d : Dev) (src : CapSource) (rising : Bool) (acc : Dev) (k : Fin 8) :
    d.captures src rising acc k =
      { acc with tim := { acc.tim with cap := (d.captures src rising acc k).tim.cap }, regs := (d.captures src rising acc k).regs } := by
  unfold Dev.captures
  split <;> rfl

theorem foldl_captures_cap (d : Dev) (src : CapSource) (rising : Bool) (l : List (Fin 8)) (e : Dev) (j : Fin 8) :
    (l.foldl (d.captures src rising) e).tim.cap[j] =
      if j ∈ l ∧ d.capTakes j.val src rising = true then BitVec.ofNat 64 d.tim.now else e.tim.cap[j] := by
  induction l generalizing e with
  | nil => simp
  | cons k ks ih =>
    rw [List.foldl_cons, ih, Dev.captures_cap]
    by_cases hj : j = k
    · subst hj
      by_cases ht : d.capTakes j.val src rising = true <;> simp [ht]
    · simp [hj]

theorem Dev.captureEdge_cap (d : Dev) (src : CapSource) (rising : Bool) (k : Fin 8) :
    (d.captureEdge src rising).tim.cap[k] = if d.capTakes k.val src rising = true then BitVec.ofNat 64 d.tim.now else d.tim.cap[k] := by
  rw [Dev.captureEdge_eq, foldl_captures_cap]
  simp

theorem Dev.captureEdge_only (d : Dev) (src : CapSource) (rising : Bool) :
    d.captureEdge src rising =
      { d with tim := { d.tim with cap := (d.captureEdge src rising).tim.cap }, regs := (d.captureEdge src rising).regs } := by
  rw [Dev.captureEdge_eq]
  refine foldl_rel _ _ (fun (a e : Dev) => a = { e with tim := { e.tim with cap := a.tim.cap }, regs := a.regs }) d rfl fun a k ha => ?_
  refine (d.captures_only src rising a k).trans ?_
  rw [ha]

/-- Settles O20: a compare unit by its cases; an alarm and a capture unit each in one place. -/
theorem compareAlarmCapture : Obligations.CompareAlarmCapture := by
  unfold Obligations.CompareAlarmCapture
  refine ⟨fun ag c w s => ⟨fun hw he hd => ?_, fun hw he hd => ?_, fun hw he => ?_, fun hw => ?_, fun ha hd => ?_⟩,
    fun ag a w s hw => ?_, fun a s ha hat => ?_, fun src rising s => ?_⟩
  · refine next_put (writeAccess_run hw (congrArg (Prod.mk _) ?_) nofun)
    rw [Dev.writeCmpTarget_enabled he, if_neg (by omega)]
  · refine next_put (writeAccess_run hw (congrArg (Prod.mk _) ?_) nofun)
    rw [Dev.writeCmpTarget_enabled he, if_pos hd]
  · exact next_put (writeAccess_run hw (congrArg (Prod.mk _) (Dev.writeCmpTarget_disabled he)) nofun)
  · refine ⟨_, next_put (writeAccess_run hw rfl nofun), rfl, s.dev.writeCmpCtrl_reg c w, ?_, ?_, fun b hb => ?_, ?_⟩
    · exact (congrArg Cmp.armed (s.dev.writeCmpCtrl_cmp c c w)).trans (by rw [if_pos rfl])
    · exact (congrArg Cmp.target (s.dev.writeCmpCtrl_cmp c c w)).trans (by rw [if_pos rfl])
    · exact (s.dev.writeCmpCtrl_cmp c b w).trans (if_neg hb)
    · exact congrArg (fun e => e.answer ag .ok) (s.dev.writeCmpCtrl_only c w)
  · have hself := s.dev.fireCmp_self c false false
    refine ⟨s.put _, next_put (if_pos (by rw [ha, decide_eq_true hd]; rfl)), s.dev.fireNoted_flag c, fun h => Dev.fireNoted_scan h,
      fun hp => ?_, fun hp => ?_, fun b hb => s.dev.fireCmp_other hb false false, s.dev.fireCmp_only c false false⟩
    · refine (congrArg Cmp.armed hself).trans ?_
      unfold Cmp.fired
      rw [hp]
      rfl
    · have hp' : (s.dev.reg 1 (0x10 + c.val) 8).toNat ≠ 0 := fun h => hp (BitVec.eq_of_toNat_eq h)
      have hf := hself.trans (if_neg hp')
      exact ⟨(congrArg Cmp.armed hf).trans ha, congrArg Cmp.target hf⟩
  · exact ⟨_, next_put (writeAccess_run hw rfl nofun), s.dev.writeAlmHi_armed a w, s.dev.writeAlmHi_target a w⟩
  · refine ⟨s.put _, next_put (if_pos (by rw [ha, decide_eq_true hat]; rfl)), (Dev.disarmAlm_bit _ a a).trans (if_pos rfl),
      Dev.flagBit_raise_self _ 1 0 0x10 (2 ^ (8 + a.val)) (8 + a.val) (by omega) (by simp), rfl⟩
  · exact ⟨s.put (s.dev.captureEdge src rising), rfl, fun k hk => (s.dev.captureEdge_cap src rising k).trans (if_pos hk),
      fun k hk => (s.dev.captureEdge_cap src rising k).trans (if_neg (Bool.eq_false_iff.mp hk)), s.dev.captureEdge_only src rising⟩

end Sys2Proof.Machine
end

section
/-! SUPPORT. Sample transfers and the faults of metrology (R21, R108, R169, R173, R189). -/

namespace Sys2Proof.Machine

theorem Dev.sampleTransfer_due {d : Dev} {dieB : Bool} (f : SampleFrame) (h : d.sampleDue dieB = true) :
    d.sampleTransfer dieB f =
      if f.overrun then ((d.ran (keySample dieB)).raise 0 0 0xC (2 ^ b1 dieB)).dieFault dieB 2
      else if !f.firstOk ∧ !f.retryOk then
        (((d.ran (keySample dieB)).raiseSys 3).logEvent .sys 21 [w32 (b1 dieB), w32 (b1 dieB)]).dieFault dieB 1
      else ((d.ran (keySample dieB)).takeSamples dieB f.codes).updateTail := if_neg (by rw [h]; decide)

theorem Dev.sampleTransfer_early {d : Dev} {dieB : Bool} (f : SampleFrame) (h : d.sampleDue dieB = false) :
    d.sampleTransfer dieB f = d := if_pos (by rw [h]; rfl)

theorem Dev.meterFault_fn {d : Dev} {u : Fin 9} (h : d.mtrRuns u.val = true) (code : Byte) :
    ((d.meterFault u code).mtr.eng[u]).fn = { st := .fault, code := code } := by
  unfold Dev.meterFault
  rw [if_pos h]
  extract_lets d1
  have hfn : (d1.mtr.eng[u]).fn = { st := .fault, code := code } := Dev.updEng_fn _ u _
  have hmtr (k : Fin 24) (sl : Option (Fin 8)) : ((d1.tamper k sl).mtr.eng[u]).fn = (d1.mtr.eng[u]).fn :=
    congrArg (fun m : MtrState => (m.eng[u]).fn) (Dev.tamper_part (pt := .mtr) nofun d1 k sl)
  split
  · exact (hmtr 19 _).trans hfn
  · exact (hmtr 19 none).trans hfn

theorem Dev.meterFault_idle {d : Dev} {u : Fin 9} (h : d.mtrRuns u.val = false) (code : Byte) : d.meterFault u code = d :=
  if_neg (Bool.eq_false_iff.mp h)

/-- Settles O22: a frame at its instant by what its transfer met, and a fault of metrology by whether the function runs. -/
theorem sampleEvents : Obligations.SampleEvents := by
  unfold Obligations.SampleEvents
  refine ⟨fun dieB f s => ⟨fun hdue => ⟨fun ho hok => ?_, fun ho => ?_, fun ho h1 h2 => ?_⟩, fun hdue => ?_, fun ch u hp hd hu => ?_, rfl⟩,
    fun d u code => ⟨fun h => Dev.meterFault_fn h code, fun h => Dev.meterFault_idle h code⟩⟩
  · refine next_put ((Dev.sampleTransfer_due f hdue).trans ((if_neg (Bool.eq_false_iff.mp ho)).trans (if_neg ?_)))
    rcases hok with h | h <;> simp [h]
  · exact next_put ((Dev.sampleTransfer_due f hdue).trans (if_pos ho))
  · exact next_put ((Dev.sampleTransfer_due f hdue).trans ((if_neg (Bool.eq_false_iff.mp ho)).trans (if_pos (by simp [h1, h2]))))
  · exact next_put (Dev.sampleTransfer_early f hdue)
  · refine next_put ((if_pos ⟨hp, hd⟩).trans ?_)
    rw [hu]
    exact dif_pos u.isLt

end Sys2Proof.Machine
end

section
/-! SUPPORT. Period boundaries, harmonic windows and voltage refreshes (R186, R191, R192, R224). -/

namespace Sys2Proof.Machine

/-! What the voltage monitor keeps: the phases of every unit and the wave of every channel. -/

def Dev.quality (d : Dev) : (Fin 9 → Vector PqPhase 3) × (Fin 64 → Wave) :=
  (fun u => (d.mtr.eng[u]).phases, fun c => (d.mtr.ch[c]).wave)

theorem Dev.quality_of_mtr {d e : Dev} (h : d.part .mtr = e.part .mtr) : d.quality = e.quality :=
  congrArg (fun m : MtrState => ((fun u : Fin 9 => (m.eng[u]).phases, fun c : Fin 64 => (m.ch[c]).wave) :
    (Fin 9 → Vector PqPhase 3) × (Fin 64 → Wave))) (h : d.mtr = e.mtr)

theorem Dev.updEng_quality (d : Dev) (u : Fin 9) (f : Engine → Engine) (hf : ∀ e, (f e).phases = e.phases) :
    (d.updEng u f).quality = d.quality := by
  refine Prod.ext (funext fun v => ?_) rfl
  refine (congrArg Engine.phases (Dev.updEng_at d u v f)).trans ?_
  by_cases hv : v = u
  · subst hv
    rw [if_pos rfl]
    exact hf _
  · rw [if_neg hv]
    rfl

theorem Dev.updCh_quality (d : Dev) (c : Fin 64) (f : Chan → Chan) (hf : ∀ x, (f x).wave = x.wave) :
    (d.updCh c f).quality = d.quality := by
  refine Prod.ext rfl (funext fun k => ?_)
  refine (congrArg Chan.wave (Dev.updCh_at d c k f)).trans ?_
  by_cases hk : k = c
  · subst hk
    rw [if_pos rfl]
    exact hf _
  · rw [if_neg hk]
    rfl

theorem Dev.raiseMtr_quality (d : Dev) (u b : Nat) : (d.raiseMtr u b).quality = d.quality :=
  Dev.quality_of_mtr (Dev.raiseMtr_part d u b)

theorem Dev.mtrSend_quality (d : Dev) (n : Fin 8) (ws : List QData) : (d.mtrSend n ws).quality = d.quality := by
  unfold Dev.mtrSend
  split
  · rfl
  next q _ =>
    extract_lets u same waiting d1 d2
    have h2 : d2.quality = d.quality := by
      have h1 : d1.quality = d.quality := Dev.quality_of_mtr (Dev.raiseQue_part d q.val 1)
      unfold d2
      split
      · exact (Dev.raiseMtr_quality _ _ _).trans h1
      · exact h1
    split
    · exact Dev.quality_of_mtr (Dev.commit_part (pt := .mtr) nofun d q ws)
    · refine (Dev.updEng_quality d2 u _ ?_).trans h2
      exact fun _ => rfl

theorem Dev.startCapture_quality (d : Dev) (n : Fin 8) : (d.startCapture n).quality = d.quality := by
  unfold Dev.startCapture
  extract_lets d1
  refine (Dev.updEng_quality d1 _ _ ?_).trans ?_
  · exact fun _ => rfl
  refine foldl_rel _ _ (fun a e => a.quality = e.quality) d rfl fun a c ha => (a.updCh_quality c _ ?_).trans ha
  exact fun _ => rfl

theorem Dev.sendPq_quality (d : Dev) (u : Fin 9) (ph : Nat) (st : PqState) (ending : Bool) (refreshes ext : Nat) :
    (d.sendPq u ph st ending refreshes ext).quality = d.quality := by
  unfold Dev.sendPq
  split
  · exact d.mtrSend_quality _ _
  · rfl

theorem Dev.pqCapture_quality (d : Dev) (u : Fin 9) : (d.pqCapture u).quality = d.quality := by
  unfold Dev.pqCapture
  (repeat' split)
  · exact d.startCapture_quality _
  · rfl
  · rfl

theorem Dev.pqEnd_quality (d : Dev) (u : Fin 9) (ph : Fin 3) (x : PqPhase) : (d.pqEnd u ph x).quality = d.quality := by
  unfold Dev.pqEnd
  rw [Dev.pqCapture_quality, Dev.sendPq_quality, Dev.raiseMtr_quality]

theorem Dev.pqStart_quality (d : Dev) (u : Fin 9) (ph : Fin 3) (st : PqState) (uv : Nat) :
    (d.pqStart u ph st uv).quality = d.quality := by
  unfold Dev.pqStart
  dsimp only
  rw [Dev.pqCapture_quality, Dev.sendPq_quality]
  exact (Dev.quality_of_mtr (Dev.count_part _ _ _ _ _ _ _)).trans (d.raiseMtr_quality u.val 1)

/-- Setting one phase of a unit. -/
theorem Dev.setPhase_phases (d : Dev) (u : Fin 9) (ph p : Fin 3) (x : PqPhase) :
    (((d.updEng u fun e => { e with phases := e.phases.set ph.val x ph.isLt }).quality.1 u)[p]) =
      if p = ph then x else (d.quality.1 u)[p] := by
  have h : (d.updEng u fun e => { e with phases := e.phases.set ph.val x ph.isLt }).quality.1 u =
      (d.quality.1 u).set ph.val x ph.isLt := congrArg Engine.phases ((Dev.updEng_at d u u _).trans (if_pos rfl))
  rw [h]
  refine (Vector.getElem_set ..).trans ?_
  simp only [Fin.ext_iff, eq_comm]
  rfl

/-- A refresh gives its phase the state that the thresholds decide, and leaves the others and every wave (R192). -/
theorem Dev.pqRefresh_quality (d : Dev) (u : Fin 9) (ph : Fin 3) (uv : Nat) :
    (d.pqRefresh u ph uv).quality.2 = d.quality.2 ∧
      ((d.pqRefresh u ph uv).quality.1 u)[ph].st = pqTarget ((d.quality.1 u)[ph]).st uv (d.pqThreshold u.val 31 24)
        (d.pqThreshold u.val 23 16) (d.pqThreshold u.val 15 8) (d.pqThreshold u.val 7 0) ∧
      ∀ p : Fin 3, p ≠ ph → ((d.pqRefresh u ph uv).quality.1 u)[p] = (d.quality.1 u)[p] := by
  unfold Dev.pqRefresh
  extract_lets x t ext d1 d2
  split
  next ht =>
    refine ⟨rfl, ?_, fun p hp => (d.setPhase_phases u ph p _).trans (if_neg hp)⟩
    exact (congrArg PqPhase.st ((d.setPhase_phases u ph ph _).trans (if_pos rfl))).trans ht.symm
  next ht =>
    have h1 : d1.quality = d.quality := by
      unfold d1
      split
      · rfl
      · exact d.pqEnd_quality u ph _
    have h2 : d2.quality = d.quality := by
      unfold d2
      split
      · exact h1
      · exact (Dev.pqStart_quality ..).trans h1
    refine ⟨(congrArg Prod.snd h2 :), congrArg PqPhase.st ((d2.setPhase_phases u ph ph _).trans (if_pos rfl)), fun p hp => ?_⟩
    rw [Dev.setPhase_phases, if_neg hp, h2]

theorem Dev.missingEpisode_quality (d : Dev) (n : Fin 8) : (d.missingEpisode n).quality = d.quality := by
  unfold Dev.missingEpisode
  extract_lets since held none_ d1
  split
  · exact (Dev.quality_of_mtr (Dev.tamper_part (pt := .mtr) nofun d1 21 (some n))).trans rfl
  · rfl

/-! A harmonic window (R186). -/

theorem Dev.roundSqrt_only (d : Dev) (q : Rat) : (d.roundSqrt q).2 = { d with fresh := (d.roundSqrt q).2.fresh } := by
  unfold Dev.roundSqrt
  dsimp only
  split <;> rfl

theorem Dev.thd_only (d : Dev) (xs : List Nat) : (d.thd xs).2 = { d with fresh := (d.thd xs).2.fresh } := by
  unfold Dev.thd
  dsimp only
  have h := d.roundSqrt_only ((((xs.drop 1).map fun x => x * x).sum * 10000000000 : Nat) / (xs.headD 0 * xs.headD 0 : Nat))
  split
  · rw [h]
  · exact h

theorem Dev.withThd_only (rs : List (Nat × List Nat)) (d : Dev) :
    (Dev.withThd rs d).2 = { d with fresh := (Dev.withThd rs d).2.fresh } := by
  induction rs generalizing d with
  | nil => rfl
  | cons r rs ih =>
    exact (ih (d.thd r.2).2).trans (congrArg (fun e : Dev => { e with fresh := (Dev.withThd rs (d.thd r.2).2).2.fresh }) (d.thd_only r.2))

theorem Dev.withThd_tails (rs : List (Nat × List Nat)) (d : Dev) : ((Dev.withThd rs d).1.map fun r => (r.1, r.2.tail)) = rs := by
  induction rs generalizing d with
  | nil => rfl
  | cons r rs ih => exact congrArg (List.cons r) (ih (d.thd r.2).2)

theorem Dev.harmonicEnd_window {d : Dev} {u : Fin 9} {k : Nat} (rs : List (Nat × List Nat)) (hr : d.mtrRuns u.val = true)
    (hk : u.val = 8 ∨ (d.kind u.val).isAc = true) (hc : bit (d.reg 3 u.val 0x20) 6 = false) :
    d.harmonicEnd u k rs = if k = d.windowCycles u.val then
      (Dev.withThd (rs.filter fun r => d.chanUnit r.1 = some u.val) d).2.updEng u fun e =>
        { e with harmWait := e.harmWait ++ [(d.tim.now, (Dev.withThd (rs.filter fun r => d.chanUnit r.1 = some u.val) d).1)] }
      else d := by
  unfold Dev.harmonicEnd
  by_cases h : k = d.windowCycles u.val
  · rw [if_pos h]
    exact if_pos ⟨hr, hk, by rw [hc]; rfl, h⟩
  · rw [if_neg h]
    exact if_neg fun ⟨_, _, _, h'⟩ => h h'

/-- The wave of a channel after its refresh. -/
def Dev.waveRefreshed (d : Dev) (c : Fin 64) : Dev := d.updCh c fun x => { x with wave := x.wave.refreshed }

theorem Dev.waveRefreshed_wave (d : Dev) (c : Fin 64) : (d.waveRefreshed c).quality.2 c = (d.quality.2 c).refreshed :=
  congrArg Chan.wave ((Dev.updCh_at d c c _).trans (if_pos rfl))

theorem Dev.urmsRefresh_quality {d : Dev} {u : Fin 9} {ph : Fin 3} {ms : Rat} {uv : Nat} (hpq : d.pqWatches u ph = true)
    (hms : (d.mtr.ch[urmsChan u ph]).wave.refreshWith (d.nominalHz u.val) = some ms) (hroot : nearRoot ms uv = true) :
    (d.urmsRefresh u ph uv).quality = ((d.waveRefreshed (urmsChan u ph)).pqRefresh u ph uv).quality := by
  have hdue : d.urmsDue u ph = some ms := (if_pos hpq).trans hms
  unfold Dev.urmsRefresh
  rw [hdue]
  refine (congrArg Dev.quality (if_pos hroot)).trans ?_
  dsimp only
  split
  · exact Dev.missingEpisode_quality _ _
  · rfl

/-- Settles O24: the boundary and the readings by their conditions, a window by its cycles, a refresh by what it keeps. -/
theorem periodEvents : Obligations.PeriodEvents := by
  unfold Obligations.PeriodEvents
  refine ⟨fun cycles s hdue hs hh => ?_, fun cycles s hlast => ?_, fun n s hr => ?_, fun u k rs s hr hk hc => ⟨fun hw => ?_, fun hw => ?_⟩,
    fun u ph ms uv s hpq hms hroot => ?_⟩
  · exact next_put (if_pos ⟨hdue, by rw [hs]; rfl, by rw [hh]; rfl⟩)
  · refine next_put (if_neg fun ⟨hdue, _⟩ => ?_)
    unfold Dev.due at hdue
    simp [hlast] at hdue
  · exact next_put (if_pos hr)
  · generalize hD : Dev.withThd (rs.filter fun r => s.dev.chanUnit r.1 = some u.val) s.dev = D
    have honly : D.2 = { s.dev with fresh := D.2.fresh } := hD ▸ Dev.withThd_only _ s.dev
    have htails : (D.1.map fun r => (r.1, r.2.tail)) = rs.filter fun r => s.dev.chanUnit r.1 = some u.val :=
      hD ▸ Dev.withThd_tails _ s.dev
    have hd : s.dev.harmonicEnd u k rs = D.2.updEng u fun e => { e with harmWait := e.harmWait ++ [(s.dev.tim.now, D.1)] } := by
      have hw' : k = s.dev.windowCycles u.val := hw
      rw [Dev.harmonicEnd_window rs hr hk hc, if_pos hw', hD]
    refine ⟨_, next_put hd, D.1, ?_, htails, ?_⟩
    · refine (congrArg Engine.harmWait ((Dev.updEng_at D.2 u u _).trans (if_pos rfl))).trans ?_
      rw [honly]
      rfl
    · rw [honly]
      rfl
  · exact next_put ((Dev.harmonicEnd_window rs hr hk hc).trans (if_neg hw))
  · have hq := Dev.urmsRefresh_quality hpq hms hroot
    obtain ⟨hwave, hph, hother⟩ := (s.dev.waveRefreshed (urmsChan u ph)).pqRefresh_quality u ph uv
    rw [← hq] at hwave hph hother
    exact ⟨s.put (s.dev.urmsRefresh u ph uv), rfl, (congrFun hwave _).trans (s.dev.waveRefreshed_wave _), hph, hother⟩

end Sys2Proof.Machine
end

section
/-! SUPPORT. Billing commands, maxima, tamper counts and readings (R215 to R248). -/

namespace Sys2Proof.Machine

/-! A tamper count (R246): whatever slices it marks, one count changes and the log grows by its entry. -/

/-- The marks that a tamper count sets in the records of its slices. -/
def Dev.tamperMarks (d : Dev) (k : Fin 24) (sl : Option (Fin 8)) : Dev :=
  match sl with
  | some n => d.updBil n fun b => b.markTamper k.val
  | none => slices.foldl (fun (acc : Dev) n => acc.updBil n fun b => b.markTamper k.val) d

/-- The billing state but for the slices' own. -/
def BilState.unsliced (b : BilState) (s : Vector BilSlice 8) : BilState := { b with s := s }

theorem Dev.tamperMarks_only (d : Dev) (k : Fin 24) (sl : Option (Fin 8)) :
    d.tamperMarks k sl = { d with bil := d.bil.unsliced (d.tamperMarks k sl).bil.s } := by
  cases sl with
  | some n => rfl
  | none =>
    unfold Dev.tamperMarks
    refine foldl_rel slices (fun (acc : Dev) n => acc.updBil n fun b => b.markTamper k.val)
      (fun a e => a = { e with bil := e.bil.unsliced a.bil.s }) d rfl fun a n ha => ?_
    rw [ha]
    rfl

/-- The count of a tamper type after one more occurrence. -/
def Dev.tamperNext (d : Dev) (k : Fin 24) : Tamper :=
  { count := satAdd 32 (d.bil.tamper[k]).count 1
    first := if (d.bil.tamper[k]).count = 0 then d.now else (d.bil.tamper[k]).first, last := d.now }

def Dev.tamperCounted (d : Dev) (k : Fin 24) : Dev :=
  { d with bil := { d.bil with tamper := d.bil.tamper.set k.val (d.tamperNext k) k.isLt } }

theorem Dev.tamper_eq (d : Dev) (k : Fin 24) (sl : Option (Fin 8)) :
    d.tamper k sl = ((d.tamperCounted k).tamperMarks k sl).logEvent .bil 246 [w32 k.val, w32 (d.tamperNext k).count] none
      ((sl.map (·.val)).getD 0xFF) := by
  cases sl <;> rfl

theorem Dev.tamper_bil (d : Dev) (k : Fin 24) (sl : Option (Fin 8)) :
    (d.tamper k sl).bil = (d.tamperCounted k).bil.unsliced ((d.tamperCounted k).tamperMarks k sl).bil.s := by
  rw [Dev.tamper_eq]
  exact congrArg Dev.bil (Dev.tamperMarks_only _ k sl)

theorem Dev.tamper_tamper (d : Dev) (k j : Fin 24) (sl : Option (Fin 8)) :
    (d.tamper k sl).bil.tamper[j] = if j = k then d.tamperNext k else d.bil.tamper[j] := by
  rw [Dev.tamper_bil]
  show (d.bil.tamper.set k.val (d.tamperNext k) k.isLt)[j.val] = _
  rw [Vector.getElem_set]
  simp [Fin.ext_iff, eq_comm]

theorem Dev.tamper_only (d : Dev) (k : Fin 24) (sl : Option (Fin 8)) :
    d.tamper k sl = { d with bil := (d.tamper k sl).bil, log := (d.tamper k sl).log, logSeq := d.logSeq + 1 } := by
  rw [Dev.tamper_eq, Dev.tamperMarks_only]
  rfl

theorem Dev.tamper_slice (d : Dev) (k : Fin 24) (n : Fin 8) :
    (d.tamper k (some n)).bil.s[n] = (d.bil.s[n]).markTamper k.val := by
  rw [Dev.tamper_bil]
  exact (Dev.updBil_at (d.tamperCounted k) n n _).trans (if_pos rfl)

/-- The slice with its maxima cleared, before the count. -/
def Dev.mdCleared (d : Dev) (n : Fin 8) : Dev :=
  d.updBil n fun b => { b with md := Vector.replicate 32 0, mdt := Vector.replicate 32 0 }

/-- The maxima of the slice are cleared, and its own energy stays (R221). -/
theorem Dev.resetMd_slice (d : Dev) (n : Fin 8) :
    ((d.resetMd n).bil.s[n]).md = Vector.replicate 32 0 ∧ ((d.resetMd n).bil.s[n]).mdt = Vector.replicate 32 0 ∧
      ((d.resetMd n).bil.s[n]).e = (d.bil.s[n]).e ∧ ((d.resetMd n).bil.tamper[12]).count = satAdd 32 (d.bil.tamper[12]).count 1 := by
  have hclear : (d.mdCleared n).bil.s[n] = _ := (Dev.updBil_at d n n _).trans (if_pos rfl)
  have hmark : (d.resetMd n).bil.s[n] = ((d.mdCleared n).bil.s[n]).markTamper 12 := (d.mdCleared n).tamper_slice 12 n
  have hcount : (d.resetMd n).bil.tamper[12] = (d.mdCleared n).tamperNext 12 := ((d.mdCleared n).tamper_tamper 12 12 (some n)).trans (if_pos rfl)
  rw [hmark, hclear, hcount]
  exact ⟨rfl, rfl, rfl, rfl⟩

/-- A reading takes the next number of its slice and waits as the last job of the signer (R239). -/
theorem Dev.addReading_slice (d : Dev) (n : Fin 8) (kind t : Nat) (ag : Agent) (nonce : List Byte) :
    ((d.addReading n kind t ag nonce).bil.s[n]).rdSeq = (d.bil.s[n]).rdSeq + 1 :=
  congrArg BilSlice.rdSeq ((Dev.updBil_at d n n _).trans (if_pos rfl))

/-! The commands. -/

section
variable {d : Dev} {ag : Agent} {arg : BitVec 24}

theorem readSignedCmd_ok {n : Fin 8} (ha : argUnit arg = n.val) (hp : d.present n.val = true) (hq : (d.signQueue ag).isSome = true)
    (hw : d.waitingRequests < 4) : readSignedCmd ag arg d =
      (.ok, (d.midPeriod n).addReading n 0 d.tim.now ag (d.viewBytes ag (lattice 4 8 0x20) 2)) := by
  unfold readSignedCmd
  rw [dif_pos (by rw [ha]; exact n.isLt)]
  simp only [ha, Fin.eta]
  rw [if_neg, if_neg (Nat.not_le.2 hw)]
  · rfl
  · rw [hp, Option.isNone_eq_false_iff.2 hq]
    decide

theorem mdResetCmd_slice {n : Fin 8} (ha : argUnit arg = n.val) (hp : d.present n.val = true) :
    mdResetCmd arg d = (.ok, d.resetMd n) := by
  unfold mdResetCmd
  rw [if_neg (by omega), dif_pos (by rw [ha]; exact n.isLt)]
  simp only [ha, Fin.eta, hp, if_true]

/-- The calendar that CALENDAR_ARM takes (R217). -/
def Dev.calendarArmed (d : Dev) : Dev :=
  { d with bil := { d.bil with armed := some (decodeCalendar d.passiveBlock), armedBytes := d.passiveBlock } }

theorem calArmCmd_ok (hr : calendarReason d.passiveBlock = 0) (hq : d.tim.quality ≠ .notValid ∨ d.bil.armed.isSome = true) :
    calArmCmd d = (.ok, d.calendarArmed.tamper 10 none) := by
  refine (if_neg ?_).trans (if_pos hr)
  rintro ⟨hv, hn⟩
  rcases hq with h | h
  · exact h hv
  · rw [Option.isNone_iff_eq_none.1 hn] at h
    exact absurd h (by decide)

end

/-- Settles O27: each command by its accepting branch; a tamper count changes one count and the marks of its slices. -/
theorem billingCommands : Obligations.BillingCommands := by
  unfold Obligations.BillingCommands
  refine ⟨fun ag arg s => ⟨fun n ha hr hp => ⟨fun hq hw => ?_, ?_⟩, fun ha hr => ?_, fun ha hr => ⟨fun hcal hq => ?_, fun harm => ?_,
    fun ht hm hmin => ?_⟩⟩,
    Dev.resetMd_slice, fun d k sl => ⟨?_, fun h => ?_, fun j hj => ?_, d.tamper_only k sl⟩,
    fun d n kind t ag nonce => ⟨d.addReading_slice n kind t ag nonce, _, rfl, rfl, rfl, rfl⟩⟩
  · rw [← ha] at hr
    exact next_put (issueCommand_ok hr (readSignedCmd_ok ha hp hq hw))
  · rw [← ha] at hr
    exact next_put (issueCommand_ok hr (mdResetCmd_slice ha hp))
  · rw [← ha] at hr
    exact next_put (issueCommand_ok hr (if_pos ha))
  · subst ha
    have hex : exec (.calArm ag 0) s = .next (s.put ((s.dev.calendarArmed.tamper 10 none).completed ag 4 0x12)) :=
      next_put (issueCommand_ok hr ((noArg_zero ..).trans (calArmCmd_ok hcal hq)))
    have hbil := s.dev.calendarArmed.tamper_bil 10 none
    have hcount := s.dev.calendarArmed.tamper_tamper 10 10 none
    generalize s.dev.calendarArmed.tamper 10 none = D at hex hbil hcount
    exact ⟨_, hex, congrArg BilState.armed hbil, congrArg BilState.armedBytes hbil, (congrArg BilState.calReason hbil :), rfl,
      congrArg Tamper.count hcount⟩
  · subst ha
    exact next_put (issueCommand_ok hr ((noArg_zero ..).trans (if_pos harm)))
  · subst ha
    exact next_put (issueCommand_ok hr ((noArg_zero ..).trans (if_pos ⟨ht, hm, hmin⟩)))
  · exact congrArg Tamper.last ((d.tamper_tamper k k sl).trans (if_pos rfl))
  · exact (congrArg Tamper.first ((d.tamper_tamper k k sl).trans (if_pos rfl))).trans (if_neg h)
  · exact (d.tamper_tamper k j sl).trans (if_neg hj)

end Sys2Proof.Machine
end

section
/-! SUPPORT. Staging and generating keys (R402 to R406). -/

namespace Sys2Proof.Machine

/-! A use of a key counts; it touches no copy and no key material. -/

/-- The parts of a slot that a use leaves. -/
def KeySlot.material (x : KeySlot) : StagedSt × KeyCopy × KeyCopy := (x.staged, x.copy, x.live)

def Dev.material (d : Dev) (k : Fin 64) : StagedSt × KeyCopy × KeyCopy := (d.key.slots[k]).material

theorem Dev.updKey_material (d : Dev) (k j : Fin 64) (f : KeySlot → KeySlot) (hf : ∀ x, (f x).material = x.material) :
    (d.updKey k f).material j = d.material j := by
  refine (congrArg KeySlot.material (Dev.updKey_at d k j f)).trans ?_
  by_cases h : j = k
  · subst h
    rw [if_pos rfl]
    exact hf _
  · rw [if_neg h]
    rfl

theorem Dev.useKey_material (d : Dev) (k j : Fin 64) : (d.useKey k).material j = d.material j := by
  have hexhaust (e : Dev) : (e.exhaust k).material j = e.material j := by
    unfold Dev.exhaust
    dsimp only
    split
    · refine .trans ?_ (e.updKey_material k j (fun s => { s with st := .exhausted }) fun _ => rfl)
      exact congrArg (fun x : KeyState => (x.slots[j]).material) (Dev.raiseKey_part (pt := .key) _ 4)
    · rfl
  unfold Dev.useKey
  refine (hexhaust _).trans (d.updKey_material k j _ ?_)
  exact fun _ => rfl

/-! KEY_STAGE, by what wraps the key. -/

section
variable {d : Dev} {ag : Agent} {arg : BitVec 24} {k : Fin 64} {blob : List Byte}
  (hk : keyTarget arg = some k) (hb : blob = d.viewBytes ag (lattice 10 0x40 0x100) 64) (ha : argBits arg 15 0 = 0)
  (hbad : d.keyArgBad k.val (byteAt blob 0) (byteAt blob 1) (byteAt blob 2) = false)
  (hst : (d.key.slots[k]).staged ≠ .verified) (hp : d.parentReady (byteAt blob 1) = true)
include hk hb ha hbad hst hp

theorem keyStageCmd_cert (hw : byteAt blob 3 = 2) (ht : byteAt blob 0 = 2) : keyStageCmd ag arg d = d.stageCert k blob := by
  subst hb
  unfold keyStageCmd
  rw [hk]
  refine (if_neg ?_).trans ((if_neg ?_).trans (if_pos hw))
  · rw [hbad, ha, hw, ht]
    simp
  · rw [hp]
    exact not_or.2 ⟨hst, by decide⟩

theorem keyStageCmd_k2 (hw : byteAt blob 3 = 0) (h1 : byteAt blob 0 ≠ 1) (h2 : byteAt blob 0 ≠ 2) (h6 : byteAt blob 0 ≠ 6)
    (hv : d.keyValid 2 = true) :
    keyStageCmd ag arg d = d.stageSecret k blob (Config.ecdh (d.keySlot 2).live.secret (pairOf (slice blob 0x10 64))) 2 := by
  subst hb
  unfold keyStageCmd
  rw [hk]
  refine (if_neg ?_).trans ((if_neg ?_).trans ((if_neg ?_).trans ((if_pos hw).trans (if_pos hv))))
  · rw [hw, ha, hbad]
    simp [h1, h2, h6]
  · rw [hp]
    exact not_or.2 ⟨hst, by decide⟩
  · rw [hw]
    decide

theorem keyStageCmd_wrap (hw : byteAt blob 3 = 1) (h1 : byteAt blob 0 ≠ 1) (h2 : byteAt blob 0 ≠ 2) (h6 : byteAt blob 0 ≠ 6)
    (hv : d.isWrap (byteAt blob 4) = true) :
    ∃ h : byteAt blob 4 < 64,
      keyStageCmd ag arg d = d.stageSecret k blob (d.keySlot (byteAt blob 4)).live.secret ⟨byteAt blob 4, h⟩ := by
  subst hb
  have hlt : byteAt (d.viewBytes ag (lattice 10 0x40 0x100) 64) 4 < 64 := by
    unfold Dev.isWrap at hv
    simp only [Bool.and_eq_true, decide_eq_true_eq] at hv
    exact hv.1.1
  refine ⟨hlt, ?_⟩
  unfold keyStageCmd
  rw [hk]
  refine (if_neg ?_).trans ((if_neg ?_).trans ((if_neg ?_).trans ((if_neg ?_).trans ((dif_pos hlt).trans (if_pos hv)))))
  · rw [hw, ha, hbad]
    simp [h1, h2, h6]
    omega
  · rw [hp]
    exact not_or.2 ⟨hst, by decide⟩
  · rw [hw]
    decide
  · rw [hw]
    decide

end

/-! What staging a secret leaves, by the tag and the serial of its blob. -/

theorem Dev.stage_slot (d : Dev) (k : Fin 64) (c : KeyCopy) (msg exp : BitVec 256) (generated : Bool) :
    (d.stage k c msg exp generated).key.slots[k] =
      { d.key.slots[k] with staged := .staged, copy := c, katMsg := msg, katExp := exp, generated := generated } :=
  (Dev.updKey_at d k k _).trans (if_pos rfl)

section
variable {d : Dev} {k user : Fin 64} {blob plain : List Byte} {z : BitVec 256}

theorem Dev.stageSecret_unopened (h : openSecret (importKey z k.val blob) blob = none) :
    d.stageSecret k blob z user = (.auth, d.useKey user) := by
  unfold Dev.stageSecret
  dsimp only
  rw [h]

theorem Dev.stageSecret_stale (h : openSecret (importKey z k.val blob) blob = some plain)
    (hs : leAt blob 0xC 4 ≤ (d.key.slots[k]).impser.toNat) : d.stageSecret k blob z user = (.arg, d.useKey user) := by
  unfold Dev.stageSecret
  dsimp only
  rw [h]
  exact if_pos hs

/-- The copy that a staged secret fills (R403). -/
def secretCopy (blob plain : List Byte) : KeyCopy :=
  { blobCopy blob (byteAt blob 0) (byteAt blob 1) with serial := w32 (leAt blob 0xC 4), secret := wideOf plain }

theorem Dev.stageSecret_ok (h : openSecret (importKey z k.val blob) blob = some plain)
    (hs : (d.key.slots[k]).impser.toNat < leAt blob 0xC 4) :
    d.stageSecret k blob z user = (.ok, (d.useKey user).stage k (secretCopy blob plain) (wideOf (slice blob 0x80 32))
      (wideOf (slice blob 0xA0 32)) false) := by
  unfold Dev.stageSecret
  dsimp only
  rw [h]
  exact if_neg (Nat.not_le.2 hs)

end

/-- What KEY_STAGE of a secret leaves, when the blob's tag verifies or not. -/
theorem keyStage_secret {s : State} {ag : Agent} {arg : BitVec 24} {k user : Fin 64} {blob : List Byte} {z : BitVec 256}
    (hr : s.dev.ready ag 10 (argUnit arg)) (hcmd : keyStageCmd ag arg s.dev = s.dev.stageSecret k blob z user) :
    (openSecret (importKey z k.val blob) blob = none →
      ∃ t, exec (.keyStage ag arg) s = .next t ∧ t.dev.reply.status = 5 ∧ (t.dev.key.slots[k]).staged = (s.dev.key.slots[k]).staged ∧
        (t.dev.key.slots[k]).copy = (s.dev.key.slots[k]).copy) ∧
    ∀ plain, openSecret (importKey z k.val blob) blob = some plain →
      (leAt blob 0xC 4 ≤ (s.dev.key.slots[k]).impser.toNat →
        ∃ t, exec (.keyStage ag arg) s = .next t ∧ t.dev.reply.status = 4 ∧
          (t.dev.key.slots[k]).staged = (s.dev.key.slots[k]).staged ∧ (t.dev.key.slots[k]).copy = (s.dev.key.slots[k]).copy) ∧
      ((s.dev.key.slots[k]).impser.toNat < leAt blob 0xC 4 →
        ∃ t, exec (.keyStage ag arg) s = .next t ∧ t.dev.reply.status = 0 ∧ (t.dev.key.slots[k]).staged = .staged ∧
          (t.dev.key.slots[k]).copy.secret = wideOf plain ∧ (t.dev.key.slots[k]).copy.ktype = byteAt blob 0 ∧
          (t.dev.key.slots[k]).live = (s.dev.key.slots[k]).live) := by
  have hmat := s.dev.useKey_material user k
  refine ⟨fun h => ?_, fun plain h => ⟨fun hs => ?_, fun hs => ?_⟩⟩
  · exact ⟨_, next_put (issueCommand_auth hr (hcmd.trans (Dev.stageSecret_unopened h))), rfl, congrArg (·.1) hmat, congrArg (·.2.1) hmat⟩
  · exact ⟨_, next_put (issueCommand_arg hr (hcmd.trans (Dev.stageSecret_stale h hs))), rfl, congrArg (·.1) hmat, congrArg (·.2.1) hmat⟩
  · have hslot := (s.dev.useKey user).stage_slot k (secretCopy blob plain) (wideOf (slice blob 0x80 32)) (wideOf (slice blob 0xA0 32)) false
    exact ⟨_, next_put (issueCommand_ok hr (hcmd.trans (Dev.stageSecret_ok h hs))), rfl, congrArg KeySlot.staged hslot,
      congrArg (fun x : KeySlot => x.copy.secret) hslot, congrArg (fun x : KeySlot => x.copy.ktype) hslot,
      (congrArg KeySlot.live hslot).trans (congrArg (·.2.2) hmat)⟩

/-! KEY_GEN (R404, R405). -/

/-- The copy of a generated key: the drawn value, or the part of it that the type keeps. -/
def generatedCopy (blob : List Byte) (ty parent : Nat) (v : BitVec 256) : KeyCopy :=
  { blobCopy blob ty parent with
    secret := if ty = 4 then BitVec.ofNat 256 (v.toNat / 2 ^ 128 * 2 ^ 128) else v
    pub := if ty = 1 ∨ ty = 6 then Config.publicKey v else 0 }

theorem keyGenCmd_ok {d : Dev} {ag : Agent} {arg : BitVec 24} {k : Fin 64} (hk : keyTarget arg = some k)
    (hfix : ¬(argBits arg 15 8 = 2 ∧ fixedType k.val = some 2))
    (hbad : d.keyArgBad k.val (argBits arg 15 8) (argBits arg 7 0) (byteAt (d.viewBytes ag (lattice 10 0x40 0x100) 64) 2) = false)
    (hst : (d.key.slots[k]).staged ≠ .verified) (hroot : d.rootPresent = true) (hp : d.parentReady (argBits arg 7 0) = true) :
    keyGenCmd ag arg d = (.ok, ({ d with fresh := d.fresh + 1 } : Dev).stage k
      (generatedCopy (d.viewBytes ag (lattice 10 0x40 0x100) 64) (argBits arg 15 8) (argBits arg 7 0)
        (Config.freeWide d.fresh)) 0 0 true) := by
  unfold keyGenCmd
  rw [hk]
  refine (if_neg hfix).trans ((if_neg (Bool.eq_false_iff.mp hbad)).trans (if_neg ?_))
  rw [hroot, hp]
  exact not_or.2 ⟨hst, by decide⟩

/-- Settles O30: KEY_STAGE by what wraps the key and how its blob verifies; KEY_GEN stages what it draws. -/
theorem keyStaging : Obligations.KeyStaging := by
  unfold Obligations.KeyStaging
  intro ag arg k s blob hk hb hr hst
  refine ⟨fun ha hbad hp => ⟨fun hw ht hsig hmatch => ?_, fun hw ht hsig => ?_, fun z h1 h2 h6 hz => ?_⟩, fun hfix hbad hroot hp => ?_⟩
  · refine next_put (issueCommand_ok hr ((keyStageCmd_cert hk hb ha hbad hst hp hw ht).trans ?_))
    unfold Dev.stageCert
    dsimp only
    rw [if_neg (by rw [hsig]; decide), if_neg (by rw [hmatch]; decide)]
  · have hcmd : keyStageCmd ag arg s.dev = (.auth, s.dev.raiseKey 8) := by
      rw [keyStageCmd_cert hk hb ha hbad hst hp hw ht]
      exact if_pos (by rw [hsig]; decide)
    exact ⟨_, next_put (issueCommand_auth hr hcmd), rfl, rfl,
      (Dev.answered_flagBit ..).trans (Dev.flagBit_raise_self _ 10 0x40 0x14 (2 ^ 8) 8 (by decide) (by decide))⟩
  · obtain ⟨hw, hv, rfl⟩ | ⟨hw, hv, rfl⟩ := hz
    · exact keyStage_secret hr (keyStageCmd_k2 hk hb ha hbad hst hp hw h1 h2 h6 hv)
    · obtain ⟨hlt, hcmd⟩ := keyStageCmd_wrap hk hb ha hbad hst hp hw h1 h2 h6 hv
      exact keyStage_secret hr hcmd
  · subst hb
    have hslot := ({ s.dev with fresh := s.dev.fresh + 1 } : Dev).stage_slot k (generatedCopy (s.dev.viewBytes ag (lattice 10 0x40 0x100) 64)
      (argBits arg 15 8) (argBits arg 7 0) (Config.freeWide s.dev.fresh)) 0 0 true
    refine ⟨_, next_put (issueCommand_ok hr (keyGenCmd_ok hk hfix hbad hst hroot hp)), rfl, congrArg KeySlot.staged hslot,
      congrArg KeySlot.generated hslot, (congrArg KeySlot.live hslot :), fun hty => ?_, fun x hx => ?_⟩
    · refine (congrArg (fun x : KeySlot => x.copy.secret) hslot).trans (if_neg ?_)
      omega
    · exact (Dev.updKey_at _ k x _).trans (if_neg hx)

end Sys2Proof.Machine
end

section
/-! SUPPORT. The bytes of an agent's view, as the key store writes and reads them (R406, R414). -/

namespace Sys2Proof.Machine

theorem leBytes_length (n v : Nat) : (leBytes n v).length = n := by
  induction n generalizing v with
  | zero => rfl
  | succ n ih => exact congrArg Nat.succ (ih _)

/-- Writing bytes as a number and reading it back. -/
theorem leBytes_fromLE (bs : List Byte) : leBytes bs.length (fromLE bs) = bs := by
  induction bs with
  | nil => rfl
  | cons b bs ih =>
    have hb := b.isLt
    show BitVec.ofNat 8 (b.toNat + 256 * fromLE bs) :: leBytes bs.length ((b.toNat + 256 * fromLE bs) / 256) = _
    rw [show (b.toNat + 256 * fromLE bs) / 256 = fromLE bs by omega, ih]
    congr 1
    apply BitVec.eq_of_toNat_eq
    rw [BitVec.toNat_ofNat]
    omega

theorem fromLE_lt (bs : List Byte) : fromLE bs < 256 ^ bs.length := by
  induction bs with
  | nil => exact Nat.one_pos
  | cons b bs ih =>
    have hb := b.isLt
    show b.toNat + 256 * fromLE bs < 256 ^ (bs.length + 1)
    rw [pow_succ]
    omega

theorem leBytes_word {bs : List Byte} (h : bs.length = 4) : leBytes 4 (w32 (fromLE bs)).toNat = bs := by
  have hlt := fromLE_lt bs
  rw [h] at hlt
  rw [w32, BitVec.toNat_ofNat, Nat.mod_eq_of_lt (show _ < 2 ^ 32 from hlt)]
  conv_lhs => rw [← h]
  exact leBytes_fromLE bs

theorem viewKey_self_inj (ag : Agent) {a b : Nat} : viewKey ag a = viewKey ag b ↔ a = b := Nat.add_left_cancel_iff

/-- A word of an agent's view after bytes are written behind it. -/
theorem Dev.view_setViewBytes_before (d : Dev) (ag : Agent) (n addr a : Nat) (bs : List Byte) (ha : a < addr) :
    (Dev.setViewBytes d ag addr n bs).view ag a = d.view ag a := by
  induction n generalizing d addr bs with
  | zero => rfl
  | succ n ih =>
    unfold Dev.setViewBytes
    rw [ih _ _ _ (by omega), Dev.view_setView, if_neg]
    rw [viewKey_self_inj]
    omega

/-- The bytes of a view, word by word. -/
theorem Dev.viewBytes_succ (d : Dev) (ag : Agent) (addr n : Nat) :
    d.viewBytes ag addr (n + 1) = leBytes 4 (d.view ag addr).toNat ++ d.viewBytes ag (addr + 4) n := by
  unfold Dev.viewBytes
  rw [List.range_succ_eq_map, List.flatMap_cons, List.flatMap_map]
  congr 2
  funext i
  rw [show addr + 4 * (i + 1) = addr + 4 + 4 * i by omega]

/-- What is written into a view is what it reads. -/
theorem Dev.viewBytes_setViewBytes (d : Dev) (ag : Agent) (n addr : Nat) (bs : List Byte) (h : bs.length = 4 * n) :
    (Dev.setViewBytes d ag addr n bs).viewBytes ag addr n = bs := by
  induction n generalizing d addr bs with
  | zero =>
    rw [List.length_eq_zero_iff.1 h]
    rfl
  | succ n ih =>
    rw [Dev.viewBytes_succ]
    unfold Dev.setViewBytes
    rw [Dev.view_setViewBytes_before _ _ _ _ _ _ (by omega), ih _ _ _ (by rw [List.length_drop]; omega), Dev.view_setView, if_pos rfl,
      leBytes_word (by rw [List.length_take]; omega), List.take_append_drop]

/-- The bytes of a view depend on its words alone. -/
theorem Dev.viewBytes_congr {d e : Dev} {ag : Agent} {addr n : Nat} (h : ∀ i < n, e.view ag (addr + 4 * i) = d.view ag (addr + 4 * i)) :
    e.viewBytes ag addr n = d.viewBytes ag addr n := by
  unfold Dev.viewBytes
  refine List.flatMap_congr fun i hi => ?_
  rw [h i (List.mem_range.1 hi)]

/-- The answer to a command changes its group's status view alone. -/
theorem Dev.viewBytes_answered (d : Dev) (ag : Agent) (g op : Nat) (st : CmdSt) (addr n : Nat) (h : addr + 4 * n ≤ cmdstAddr g) :
    ((d.noteCommand ag g op st).answer ag st).viewBytes ag addr n = d.viewBytes ag addr n := by
  refine Dev.viewBytes_congr fun i hi => ?_
  refine (Dev.view_setView ..).trans (if_neg ?_)
  rw [viewKey_self_inj]
  omega

theorem Dev.viewBytes_zero {d : Dev} {ag : Agent} {addr n : Nat} (h : ∀ i < n, d.view ag (addr + 4 * i) = 0) :
    d.viewBytes ag addr n = List.replicate (4 * n) 0 := by
  induction n generalizing addr with
  | zero => rfl
  | succ n ih =>
    rw [Dev.viewBytes_succ, show d.view ag addr = 0 from h 0 (by omega), ih fun i hi => by
      rw [show addr + 4 + 4 * i = addr + 4 * (i + 1) by omega]
      exact h (i + 1) (by omega)]
    rw [show 4 * (n + 1) = 4 + 4 * n by omega, List.replicate_add]
    rfl

end Sys2Proof.Machine
end

section
/-! SUPPORT. The answers of the key store, its mask and its tamper response (R390, R391, R400, R406, R411, R414). -/

namespace Sys2Proof.Machine

/-! The tamper response: KROOT goes, and with it every slot and copy that hangs from it. -/

theorem Dev.keySlot_of_key {d e : Dev} (h : e.key = d.key) (k : Nat) : e.keySlot k = d.keySlot k := by
  unfold Dev.keySlot
  rw [h]

theorem Dev.chainUp_of_key {d e : Dev} (h : e.key = d.key) (fuel p : Nat) : e.chainUp fuel p = d.chainUp fuel p := by
  induction fuel generalizing p with
  | zero => rfl
  | succ fuel ih =>
    unfold Dev.chainUp
    rw [Dev.keySlot_of_key h, ih]

theorem Dev.rooted_of_key {d e : Dev} (h : e.key = d.key) (p : Nat) : e.rooted p = d.rooted p := by
  unfold Dev.rooted
  simp only [Dev.chainUp_of_key h, Dev.keySlot_of_key h]

theorem Dev.chainsToRoot_of_key {d e : Dev} (h : e.key = d.key) (k : Nat) : e.chainsToRoot k = d.chainsToRoot k := by
  unfold Dev.chainsToRoot
  rw [Dev.rooted_of_key h, Dev.keySlot_of_key h]

/-- One slot when KROOT is lost: it is orphaned where its chain leads to KROOT, and loses a copy whose chain does. -/
def Dev.unrooted (d : Dev) (acc : Dev) (k : Fin 64) : Dev :=
  let a := if d.chainsToRoot k.val then acc.orphan k else acc
  if d.rooted d.key.slots[k].copy.parent then a.discardCopy k else a

def Dev.unrootedSlot (d : Dev) (k : Fin 64) (x : KeySlot) : KeySlot :=
  let y := if d.chainsToRoot k.val then x.orphaned else x
  if d.rooted d.key.slots[k].copy.parent then { y with staged := .none, copy := {} } else y

theorem Dev.unrooted_at (d acc : Dev) (k x : Fin 64) :
    (d.unrooted acc k).key.slots[x] = if x = k then d.unrootedSlot k acc.key.slots[k] else acc.key.slots[x] := by
  have ha (y : Fin 64) : (if d.chainsToRoot k.val then acc.orphan k else acc).key.slots[y] =
      if y = k then (if d.chainsToRoot k.val then (acc.key.slots[k]).orphaned else acc.key.slots[k]) else acc.key.slots[y] := by
    split
    · exact Dev.orphan_at ..
    · split
      · next h => rw [h]
      · rfl
  unfold Dev.unrooted Dev.unrootedSlot
  dsimp only
  generalize (if d.chainsToRoot k.val then acc.orphan k else acc) = a at ha ⊢
  by_cases hr : d.rooted d.key.slots[k].copy.parent = true
  · rw [if_pos hr, if_pos hr]
    refine (Dev.updKey_at a k x _).trans ?_
    by_cases hx : x = k
    · rw [if_pos hx, if_pos hx]
      exact congrArg (fun y : KeySlot => { y with staged := .none, copy := {} }) ((ha k).trans (if_pos rfl))
    · rw [if_neg hx, if_neg hx]
      exact (ha x).trans (if_neg hx)
  · rw [if_neg hr, if_neg hr]
    exact ha x

/-- A fold of steps that each change one slot changes every slot it names once. -/
theorem foldl_slot_once (g : Dev → Fin 64 → Dev) (F : Fin 64 → KeySlot → KeySlot)
    (hg : ∀ a k x, (g a k).key.slots[x] = if x = k then F k a.key.slots[k] else a.key.slots[x]) (l : List (Fin 64)) (hl : l.Nodup)
    (d : Dev) (x : Fin 64) : (l.foldl g d).key.slots[x] = if x ∈ l then F x d.key.slots[x] else d.key.slots[x] := by
  induction l generalizing d with
  | nil => rfl
  | cons k l ih =>
    obtain ⟨hk, hl⟩ := List.nodup_cons.1 hl
    rw [List.foldl_cons, ih hl, hg]
    by_cases hx : x = k
    · subst hx
      simp [hk]
    · simp [hx]

theorem Dev.loseRoot_slot (d : Dev) (x : Fin 64) : d.loseRoot.key.slots[x] = d.unrootedSlot x d.key.slots[x] := by
  have h := foldl_slot_once d.unrooted d.unrootedSlot (fun a k x => d.unrooted_at a k x) (List.finRange 64) (List.nodup_finRange 64) d x
  rw [if_pos (List.mem_finRange x)] at h
  exact h

/-- Tampering ends the key store's command, loses KROOT, and ends the service session. -/
def Dev.rootLost (d : Dev) : Dev := (((d.endCommand 10 .aborted).loseRoot).endSession 6).clearKeyViews

theorem Dev.endCommand_key (d : Dev) (g : Nat) (st : CmdSt) : (d.endCommand g st).key = d.key := Dev.endCommand_part (pt := .key) d g st

theorem Dev.rootLost_key (d : Dev) : d.rootLost.key = (d.endCommand 10 .aborted).loseRoot.key :=
  Dev.endSession_part (pt := .key) nofun nofun (d.endCommand 10 .aborted).loseRoot 6

theorem Dev.rootLost_bil (d : Dev) : d.rootLost.bil = d.bil :=
  ((Dev.endSession_part (pt := .bil) nofun nofun (d.endCommand 10 .aborted).loseRoot 6).trans
    ((Dev.loseRoot_part (pt := .bil) nofun (d.endCommand 10 .aborted)).trans (Dev.endCommand_part (pt := .bil) d 10 .aborted)) :)

theorem Dev.rootLost_slot (d : Dev) (x : Fin 64) : d.rootLost.key.slots[x] = d.unrootedSlot x d.key.slots[x] := by
  have hk := d.endCommand_key 10 .aborted
  have h := (d.endCommand 10 .aborted).loseRoot_slot x
  unfold Dev.unrootedSlot at h ⊢
  simp only [Dev.chainsToRoot_of_key hk, Dev.rooted_of_key hk, hk] at h
  exact (congrArg (fun s : KeyState => s.slots[x]) d.rootLost_key).trans h

theorem Dev.rootLost_chal (d : Dev) (ag : Agent) : d.rootLost.chal ag = List.replicate 32 0 := by
  refine Dev.viewBytes_zero fun i hi => ?_
  unfold Dev.view viewKey
  rw [RegFile.find_none_of_keys fun e he hk => ?_]
  · rfl
  · have h := (List.mem_filter.1 he).2
    unfold lattice at h hk
    simp at h
    omega

/-- The device that has answered a tampering, before its event is flagged and counted. -/
def Dev.tamperLocked (d : Dev) : Dev :=
  { d.rootLost with key := { d.rootLost.key with tamper := true }, tag := { d.rootLost.tag with keyCopy := none } }

def Dev.tamperFlagged (d : Dev) : Dev := d.oneEvent fun _ => if d.rootPresent then d.tamperLocked.raiseKey 0 else d.tamperLocked

theorem Dev.tamperEvent_eq {d : Dev} (ht : d.key.tamper = false) (hh : d.pwr.held = false ∨ d.pwr.siltGone = false) :
    d.tamperEvent = d.tamperFlagged.tamper 0 none := by
  refine if_neg ?_
  rintro (h | ⟨h1, h2⟩)
  · rw [ht] at h
    exact absurd h (by decide)
  · rcases hh with h | h <;> simp_all

theorem Dev.tamperFlagged_part {pt : Part} (d : Dev) : d.tamperFlagged.part pt = d.tamperLocked.part pt := by
  unfold Dev.tamperFlagged
  rw [Dev.oneEvent_part]
  split
  · exact Dev.raiseKey_part _ 0
  · rfl

theorem Dev.tamperFlagged_views (d : Dev) : d.tamperFlagged.views = d.rootLost.views := by
  unfold Dev.tamperFlagged
  rw [Dev.oneEvent_views]
  split <;> rfl

/-- What the tamper response leaves (R391, R414). -/
theorem Dev.tamperResponse (d : Dev) (k : Fin 24) :
    let t := d.tamperFlagged.tamper k none
    t.key = { d.rootLost.key with tamper := true } ∧ t.tag = { d.rootLost.tag with keyCopy := none } ∧
      t.views = d.rootLost.views ∧ (t.bil.tamper[k]).count = satAdd 32 (d.bil.tamper[k]).count 1 := by
  have hbil : d.tamperFlagged.bil = d.bil := (Dev.tamperFlagged_part (pt := .bil) d).trans d.rootLost_bil
  refine ⟨(Dev.tamper_part (pt := .key) nofun _ k none).trans (Dev.tamperFlagged_part (pt := .key) d),
    (Dev.tamper_part (pt := .tag) nofun _ k none).trans (Dev.tamperFlagged_part (pt := .tag) d), ?_, ?_⟩
  · exact (congrArg Dev.views (Dev.tamper_only d.tamperFlagged k none)).trans d.tamperFlagged_views
  · rw [Dev.tamper_count_all, hbil]

/-! The answers (R406, R411). -/

/-- The statement that K0 signs of a slot (R411). -/
def Dev.attested (d : Dev) (k : Fin 64) : List Byte :=
  deviceId ++ [BitVec.ofNat 8 k.val, BitVec.ofNat 8 (d.key.slots[k]).live.ktype, (d.key.slots[k]).gen, 0] ++
    leBytes 4 (d.key.slots[k]).uses ++ pairBytes (d.key.slots[k]).live.pub ++ List.replicate 8 0

section
variable {d : Dev} {ag : Agent} {arg : BitVec 24} {k : Fin 64} (hk : keyTarget arg = some k) (ha : argBits arg 15 0 = 0)
include hk ha

theorem keyRespondCmd_ok (hs : d.agentSlot k = true) :
    keyRespondCmd ag arg d = (.ok, (d.setViewBytes ag (lattice 10 0x40 0x220) 8 (wideBytes (d.response ag k))).useKey k) := by
  unfold keyRespondCmd
  rw [hk]
  exact if_neg (by rw [ha, hs]; decide)

/-- KEY_CHECK of a challenge that stands: it is cleared whatever the comparison says. -/
theorem keyCheckCmd_run (hs : d.agentSlot k = true) (hc : d.chal ag ≠ List.replicate 32 0) :
    keyCheckCmd ag arg d =
      (if wideOf (d.viewBytes ag (lattice 10 0x40 0x220) 8) = d.response ag k then .ok else .auth,
        (d.useKey k).setViewBytes ag (lattice 10 0x40 0x200) 8 (List.replicate 32 0)) := by
  unfold keyCheckCmd
  rw [hk]
  exact (if_neg (by rw [ha, hs]; decide)).trans (if_neg hc)

theorem keyAttestCmd_ok (hv : (d.key.slots[k]).st = .valid)
    (ht : (d.key.slots[k]).live.ktype = 1 ∨ (d.key.slots[k]).live.ktype = 6) (h0 : d.keyValid 0 = true) :
    keyAttestCmd ag arg d = (.ok, (({ d with fresh := d.fresh + 1 } : Dev).useKey 0).setViewBytes ag (lattice 10 0x40 0x100) 40
      (d.attested k ++ pairBytes (Config.ecdsaSign (d.keySlot 0).live.secret (d.attested k) d.fresh))) := by
  have hno : ¬((d.key.slots[k]).st ≠ .valid ∨ ((d.key.slots[k]).live.ktype ≠ 1 ∧ (d.key.slots[k]).live.ktype ≠ 6) ∨
      (!d.keyValid 0) = true) := by
    rw [h0]
    rintro (h | ⟨h1, h6⟩ | h)
    · exact h hv
    · exact ht.elim h1 h6
    · exact absurd h (by decide)
  unfold keyAttestCmd
  rw [hk]
  exact (if_neg (not_not.2 ha)).trans (if_neg hno)

end

theorem deviceId_length : deviceId.length = 16 := by
  unfold deviceId
  simp [leBytes_length, List.range_succ]

theorem Dev.attested_length (d : Dev) (k : Fin 64) (sig : BitVec 512) : (d.attested k ++ pairBytes sig).length = 4 * 40 := by
  have hpair (v : BitVec 512) : (pairBytes v).length = 64 := by
    unfold pairBytes beBytes
    rw [List.length_reverse, leBytes_length]
  simp only [Dev.attested, List.length_append, deviceId_length, leBytes_length, hpair, List.length_replicate, List.length_cons,
    List.length_nil]

theorem cmdstAddr_above (off n : Nat) (h : off + 4 * n ≤ 0x80000) : lattice 10 0x40 off + 4 * n ≤ cmdstAddr 10 := by
  unfold cmdstAddr lattice
  omega

/-- The mask share is replaced, and the XOR of the shares stays (R390). -/
theorem Dev.remask_due {d : Dev} {m o : BitVec 256} (hs : d.key.share = some (m, o)) (ht : d.key.tMask + 1000000000 ≤ d.tim.elapsed) :
    d.remask.key.share = some (Config.freeWide d.fresh, m ^^^ o ^^^ Config.freeWide d.fresh) ∧ d.remask.key.tMask = d.tim.elapsed ∧
      d.remask.key.slots = d.key.slots := by
  have hdue : d.after d.key.tMask (sec 1) = true := (Dev.after_iff ..).2 ht
  unfold Dev.remask
  rw [hs]
  dsimp only
  rw [if_pos hdue]
  exact ⟨rfl, rfl, rfl⟩

/-- Settles O31: each answer through the bytes of its view; the tamper response slot by slot. -/
theorem keyAnswers : Obligations.KeyAnswers := by
  unfold Obligations.KeyAnswers
  refine ⟨fun ag arg s => ⟨fun k hk ha hr => ⟨fun hs => ⟨?_, fun hc => ⟨fun hsame => ?_, fun hne => ?_⟩⟩, fun hv ht h0 => ?_⟩,
    fun ha hr hrng => ?_⟩,
    fun s => ⟨fun m o hsh hat => ?_, fun k hlim huse hat => ?_, fun _ hh hg => ?_, fun ht hh => ?_, rfl⟩⟩
  · exact next_put (issueCommand_ok hr (keyRespondCmd_ok hk ha hs))
  · exact next_put (issueCommand_ok hr ((keyCheckCmd_run hk ha hs hc).trans (by rw [if_pos hsame])))
  · have hcmd := (keyCheckCmd_run hk ha hs hc).trans (by rw [if_neg hne])
    refine ⟨_, next_put (issueCommand_auth hr hcmd), rfl, ?_⟩
    exact (Dev.viewBytes_answered _ ag 10 0x18 .auth _ 8 (cmdstAddr_above 0x200 8 (by decide))).trans
      (Dev.viewBytes_setViewBytes _ ag 8 _ _ rfl)
  · refine ⟨_, next_put (issueCommand_ok hr (keyAttestCmd_ok hk ha hv ht h0)), rfl, ?_⟩
    exact (Dev.viewBytes_answered _ ag 10 0x19 .ok _ 40 (cmdstAddr_above 0x100 40 (by decide))).trans
      (Dev.viewBytes_setViewBytes _ ag 40 _ _ (s.dev.attested_length k _))
  · refine next_put (issueCommand_ok hr ?_)
    exact (if_neg (not_not.2 ha)).trans (if_neg (by rw [hrng]; decide))
  · obtain ⟨hshare, hmask, hslots⟩ := Dev.remask_due hsh hat
    refine ⟨s.put s.dev.remask, _, _, rfl, hshare, ?_, rfl, hmask, hslots⟩
    rw [BitVec.xor_comm, BitVec.xor_assoc, BitVec.xor_self, BitVec.xor_zero]
  · refine next_put (if_pos ⟨by rw [hlim]; rfl, huse, (Dev.after_iff ..).2 hat⟩)
  · exact next_put (if_pos (.inr ⟨hh, hg⟩))
  · obtain ⟨hkey, htag, hviews, hcount⟩ := s.dev.tamperResponse 0
    have hex : exec .tamperEvent s = .next (s.put (s.dev.tamperFlagged.tamper 0 none)) := next_put (Dev.tamperEvent_eq ht hh)
    generalize s.dev.tamperFlagged.tamper 0 none = t at hkey htag hviews hcount hex
    have hslot (x : Fin 64) : t.key.slots[x] = s.dev.unrootedSlot x s.dev.key.slots[x] := by
      rw [hkey]
      exact s.dev.rootLost_slot x
    refine ⟨s.put t, hex, ?_, congrArg KeyState.tamper hkey, congrArg TagState.keyCopy htag, ?_, hcount, fun k hc hh => ?_,
      fun k hc => ?_, fun ag => ?_⟩
    · refine (congrArg KeyState.share hkey).trans ?_
      exact congrArg KeyState.share s.dev.rootLost_key
    · exact (congrArg TagState.sess htag).trans (Dev.endSession_tag _ 6).1
    · have h := hslot k
      unfold Dev.unrootedSlot KeySlot.orphaned at h
      rw [if_pos hc, if_pos hh] at h
      show (t.key.slots[k]).st = _ ∧ (t.key.slots[k]).live.secret = 0 ∧ (t.key.slots[k]).staged = _
      rw [h]
      dsimp only
      split <;> exact ⟨rfl, rfl, rfl⟩
    · have h := hslot k
      unfold Dev.unrootedSlot at h
      dsimp only at h
      rw [if_pos hc] at h
      exact congrArg KeySlot.staged h
    · refine (Dev.viewBytes_congr fun i _ => ?_).trans (s.dev.rootLost_chal ag)
      unfold Dev.view
      rw [show (s.put t).dev.views = s.dev.rootLost.views from hviews]

end Sys2Proof.Machine
end

section
/-! SUPPORT. The commands of a session (R262 to R268, R280). -/

namespace Sys2Proof.Machine

section
variable {d : Dev} {ag : Agent} {arg : BitVec 24} {n : Fin 8}

theorem evcCommand_present {ok : Bool} {h : Fin 8 → Dev → CmdSt × Dev} (ha : argUnit arg = n.val) (hp : d.present n.val = true)
    (hok : ok = true) : evcCommand arg ok h d = h n d := by
  unfold evcCommand
  rw [dif_pos (by rw [ha]; exact n.isLt)]
  simp only [ha, Fin.eta, hp, hok, if_true]
  rfl

/-- A stop command ends what the session's state has begun (R262, R266, R267). -/
theorem Dev.stopBy_unstarted (reason wait : Nat) (h : (d.evc.s[n]).st = .idle ∨ (d.evc.s[n]).st = .plugged) :
    d.stopBy n reason wait = (.ok, d.updEvc n fun x => { x with preauth := none }) := by
  unfold Dev.stopBy
  rcases h with h | h <;> rw [h]

theorem Dev.stopBy_waiting (reason wait : Nat) (h : (d.evc.s[n]).st = .authorizing ∨ (d.evc.s[n]).st = .authorized) :
    d.stopBy n reason wait = (.ok, d.goFinished n reason) := by
  rw [← Dev.stopCause_finishes reason wait h]
  unfold Dev.stopBy
  rcases h with h | h <;> rw [h]

theorem Dev.stopBy_energized (reason wait : Nat)
    (h : (d.evc.s[n]).st = .energizing ∨ (d.evc.s[n]).st = .charging ∨ (d.evc.s[n]).st = .suspended) :
    d.stopBy n reason wait = (.ok, d.goStopping n reason wait) := by
  rw [← Dev.stopCause_stops reason wait h]
  unfold Dev.stopBy
  rcases h with h | h | h <;> rw [h]

theorem stopCmd_plain (h : ag ≠ .core ∨ bit (d.reg 5 n.val 0x10) 0 = false) :
    stopCmd ag n d = d.stopBy n (stopReason ag) (d.evWait n) :=
  if_neg fun ⟨hc, hb⟩ => h.elim (fun h => h hc) fun h => by rw [h] at hb; exact absurd hb (by decide)

/-- A1's hint that the vehicle has stopped makes its STOP an EV_STOP, at once, and is used up (R280). -/
theorem stopCmd_hint {d1 : Dev} (hb : bit (d.reg 5 n.val 0x10) 0 = true) (h : d.stopBy n 2 0 = (.ok, d1)) :
    stopCmd .core n d = (.ok, d1.setReg 5 n.val 0x10 0) := by
  unfold stopCmd
  rw [if_pos ⟨rfl, hb⟩, h]

end

section
variable {ag : Agent} {arg : BitVec 24} {n : Fin 8} {s : State} (ha : argUnit arg = n.val) (hr : s.dev.ready ag 5 (argUnit arg))
  (hp : s.dev.present n.val = true)
include ha hr hp

/-- A command that its session accepts leaves the session that it makes. -/
theorem sessionCommand_ok {op : Nat} {ok : Bool} {h : Fin 8 → Dev → CmdSt × Dev} {D : Dev} (hok : ok = true) (hD : h n s.dev = (.ok, D)) :
    issueCommand ag 5 op arg (argUnit arg) (evcCommand arg ok h) s.dev = D.completed ag 5 op :=
  issueCommand_ok hr ((evcCommand_present ha hp hok).trans hD)

/-- What an accepted session command leaves where its effect leaves `D`. -/
theorem sessionCommand_leaves {op : Nat} {ok : Bool} {h : Fin 8 → Dev → CmdSt × Dev} {D : Dev} (hok : ok = true)
    (hD : h n s.dev = (.ok, D)) :
    ∃ t : State, (.next (s.put (issueCommand ag 5 op arg (argUnit arg) (evcCommand arg ok h) s.dev)) :
      Host.Outcome State Fault Refusal) = .next t ∧ t.dev.evc = D.evc ∧
      t.dev.regs = D.regs ∧ t.dev.reply.status = 0 :=
  ⟨s.put (D.completed ag 5 op), next_put (sessionCommand_ok ha hr hp hok hD), rfl, rfl, rfl⟩

/-- A command that finishes a session gives it its reason. -/
theorem sessionCommand_finishes {op : Nat} {ok : Bool} {h : Fin 8 → Dev → CmdSt × Dev} {reason : Nat} (hok : ok = true)
    (hD : h n s.dev = (.ok, s.dev.goFinished n reason)) :
    ∃ t : State, (.next (s.put (issueCommand ag 5 op arg (argUnit arg) (evcCommand arg ok h) s.dev)) :
      Host.Outcome State Fault Refusal) = .next t ∧
      (t.dev.evc.s[n]).st = .finished ∧ (t.dev.evc.s[n]).reason = reason ∧ t.dev.regs = (s.dev.goFinished n reason).regs ∧
      t.dev.reply.status = 0 := by
  have hst := s.dev.goFinished_st n reason
  have hreason := s.dev.goFinished_reason n reason
  generalize s.dev.goFinished n reason = D at hD hst hreason
  obtain ⟨t, hex, hevc, hregs, hdone⟩ := sessionCommand_leaves ha hr hp hok hD
  exact ⟨t, hex, hevc ▸ hst, hevc ▸ hreason, hregs, hdone⟩

/-- A command that stops a session gives it its reason. -/
theorem sessionCommand_stops {op : Nat} {ok : Bool} {h : Fin 8 → Dev → CmdSt × Dev} {reason wait : Nat} (hok : ok = true)
    (hD : h n s.dev = (.ok, s.dev.goStopping n reason wait)) :
    ∃ t : State, (.next (s.put (issueCommand ag 5 op arg (argUnit arg) (evcCommand arg ok h) s.dev)) :
      Host.Outcome State Fault Refusal) = .next t ∧
      (t.dev.evc.s[n]).st = .stopping ∧ (t.dev.evc.s[n]).reason = reason ∧ t.dev.regs = (s.dev.goStopping n reason wait).regs ∧
      t.dev.reply.status = 0 := by
  have hst := s.dev.goStopping_st n reason wait
  have hreason := s.dev.goStopping_reason n reason wait
  generalize s.dev.goStopping n reason wait = D at hD hst hreason
  obtain ⟨t, hex, hevc, hregs, hdone⟩ := sessionCommand_leaves ha hr hp hok hD
  exact ⟨t, hex, hevc ▸ hst, hevc ▸ hreason, hregs, hdone⟩

end

theorem Dev.reg_setReg_self (d : Dev) (g u off : Nat) (v : BitVec 32) : (d.setReg g u off v).reg g u off = v :=
  (Dev.reg_setReg ..).trans (if_pos rfl)

theorem Dev.reg_of_regs {d e : Dev} (h : d.regs = e.regs) (g u off : Nat) : d.reg g u off = e.reg g u off := by
  unfold Dev.reg
  rw [h]

/-- EVC_STOP by A1 with the hint ends the session at once and uses the hint up. -/
theorem evcStop_hint {arg : BitVec 24} {n : Fin 8} {s : State} (ha : argUnit arg = n.val) (hr : s.dev.ready .core 5 (argUnit arg))
    (hp : s.dev.present n.val = true) (h0 : argBits arg 15 8 = 0) (hb : bit (s.dev.reg 5 n.val 0x10) 0 = true) {D : Dev}
    (hD : s.dev.stopBy n 2 0 = (.ok, D)) :
    ∃ t, exec (.evcStop .core arg) s = .next t ∧ t.dev.evc = D.evc ∧ t.dev.reg 5 n.val 0x10 = 0 ∧ t.dev.reply.status = 0 := by
  obtain ⟨t, hex, hevc, hregs, hok⟩ := sessionCommand_leaves ha hr hp (decide_eq_true h0) (stopCmd_hint hb hD)
  exact ⟨t, hex, hevc.trans (D.setReg_evc ..), (Dev.reg_of_regs hregs 5 n.val 0x10).trans (D.reg_setReg_self 5 n.val 0x10 0), hok⟩

section
variable {ag : Agent} {arg : BitVec 24} {n : Fin 8} {s : State} (ha : argUnit arg = n.val) (hr : s.dev.ready ag 5 (argUnit arg))
  (hp : s.dev.present n.val = true)
include ha hr hp

theorem authorize_before (hm : methodAllowed ag (argBits arg 15 8) = true)
    (hst : (s.dev.evc.s[n]).st = .idle ∨ (s.dev.evc.s[n]).st = .plugged) :
    exec (.authorize ag arg) s = .next (s.put ((s.dev.updEvc n fun x => { x with
      preauth := some { method := argBits arg 15 8, ref := s.dev.authRef ag n, since := s.dev.tim.elapsed } }).completed ag 5 0x10)) := by
  refine next_put (sessionCommand_ok ha hr hp hm ?_)
  unfold authorizeCmd
  dsimp only
  rcases hst with h | h <;> rw [h] <;> rfl

theorem authorize_authorizing (hm : methodAllowed ag (argBits arg 15 8) = true) (hst : (s.dev.evc.s[n]).st = .authorizing) :
    ∃ t, exec (.authorize ag arg) s = .next t ∧ (t.dev.evc.s[n]).st = .authorized ∧
      (t.dev.evc.s[n]).method = argBits arg 15 8 ∧ (t.dev.evc.s[n]).ref = s.dev.authRef ag n ∧
      (t.dev.evc.s[n]).preauth = none ∧ t.dev.reply.status = 0 := by
  have hcmd : authorizeCmd ag (argBits arg 15 8) n s.dev = (.ok, s.dev.goAuthorized n (argBits arg 15 8) (s.dev.authRef ag n)) := by
    unfold authorizeCmd
    dsimp only
    rw [hst]
  have hseat := s.dev.goAuthorized_seat n (argBits arg 15 8) (s.dev.authRef ag n)
  generalize s.dev.goAuthorized n (argBits arg 15 8) (s.dev.authRef ag n) = D at hcmd hseat
  exact ⟨s.put (D.completed ag 5 0x10), next_put (sessionCommand_ok ha hr hp hm hcmd),
    Dev.seat_get EvcSlice.st (fun _ => rfl) hseat, Dev.seat_get EvcSlice.method (fun _ => rfl) hseat,
    Dev.seat_get EvcSlice.ref (fun _ => rfl) hseat, Dev.seat_get EvcSlice.preauth (fun _ => rfl) hseat, rfl⟩

variable (h0 : argBits arg 15 8 = 0)
include h0

theorem deny_authorizing (hst : (s.dev.evc.s[n]).st = .authorizing) :
    ∃ t, exec (.deny ag arg) s = .next t ∧ (t.dev.evc.s[n]).st = .finished ∧ (t.dev.evc.s[n]).reason = 9 ∧ t.dev.reply.status = 0 := by
  obtain ⟨t, hex, hfin, hreason, -, hdone⟩ :=
    sessionCommand_finishes (op := 0x11) (h := denyCmd) (reason := 9) ha hr hp (decide_eq_true h0) (if_pos hst)
  exact ⟨t, hex, hfin, hreason, hdone⟩

theorem suspend_charging (hst : (s.dev.evc.s[n]).st = .charging) :
    ∃ t, exec (.suspend ag arg) s = .next t ∧ (t.dev.evc.s[n]).st = .suspended ∧ (t.dev.evc.s[n]).susp = .command ∧
      t.dev.reply.status = 0 := by
  obtain ⟨_, _, _, _, _, hseat⟩ := s.dev.goSuspended_seat n .command
  have hcmd : suspendCmd n s.dev = (.ok, s.dev.goSuspended n .command) := if_pos hst
  generalize s.dev.goSuspended n .command = D at hcmd hseat
  have hsusp : (D.evc.s[n]).st = .suspended ∧ (D.evc.s[n]).susp = .command :=
    ⟨Dev.seat_get EvcSlice.st (fun _ => rfl) hseat, Dev.seat_get EvcSlice.susp (fun _ => rfl) hseat⟩
  obtain ⟨t, hex, hevc, -, hdone⟩ := sessionCommand_leaves (op := 0x13) ha hr hp (decide_eq_true h0) hcmd
  rw [← hevc] at hsusp
  exact ⟨t, hex, hsusp.1, hsusp.2, hdone⟩

theorem faultClear_safe (hst : (s.dev.evc.s[n]).st = .fault) (hpil : (s.dev.evc.s[n]).pilot = .A) (hk : (s.dev.kao.m[n]).st = .armed) :
    ∃ t, exec (.faultClear ag arg) s = .next t ∧ (t.dev.evc.s[n]).st = .idle ∧ t.dev.reply.status = 0 := by
  have hcmd : faultClearCmd n s.dev = (.ok, (s.dev.settleEnd n).goIdle n) := if_pos ⟨hst, hpil, hk⟩
  have hseat := (s.dev.settleEnd n).goIdle_seat n
  generalize (s.dev.settleEnd n).goIdle n = D at hcmd hseat
  have hidle : (D.evc.s[n]).st = .idle := Dev.seat_get EvcSlice.st (fun _ => rfl) hseat
  obtain ⟨t, hex, hevc, -, hdone⟩ := sessionCommand_leaves (op := 0x15) ha hr hp (decide_eq_true h0) hcmd
  exact ⟨t, hex, hevc ▸ hidle, hdone⟩

/-- EVC_STOP that ends a session whose contactor has not closed (R266). -/
theorem evcStop_waiting (hplain : ag ≠ .core ∨ bit (s.dev.reg 5 n.val 0x10) 0 = false)
    (hst : (s.dev.evc.s[n]).st = .authorizing ∨ (s.dev.evc.s[n]).st = .authorized) :
    ∃ t, exec (.evcStop ag arg) s = .next t ∧ (t.dev.evc.s[n]).st = .finished ∧ (t.dev.evc.s[n]).reason = stopReason ag ∧
      t.dev.reply.status = 0 := by
  obtain ⟨t, hex, hfin, hreason, -, hdone⟩ :=
    sessionCommand_finishes (op := 0x12) ha hr hp (decide_eq_true h0) ((stopCmd_plain hplain).trans (Dev.stopBy_waiting _ _ hst))
  exact ⟨t, hex, hfin, hreason, hdone⟩

/-- EVC_STOP that stops a session under way (R267). -/
theorem evcStop_energized (hplain : ag ≠ .core ∨ bit (s.dev.reg 5 n.val 0x10) 0 = false)
    (hst : (s.dev.evc.s[n]).st = .energizing ∨ (s.dev.evc.s[n]).st = .charging ∨ (s.dev.evc.s[n]).st = .suspended) :
    ∃ t, exec (.evcStop ag arg) s = .next t ∧ (t.dev.evc.s[n]).st = .stopping ∧ (t.dev.evc.s[n]).reason = stopReason ag ∧
      t.dev.reply.status = 0 := by
  obtain ⟨t, hex, hstop, hreason, -, hdone⟩ :=
    sessionCommand_stops (op := 0x12) ha hr hp (decide_eq_true h0) ((stopCmd_plain hplain).trans (Dev.stopBy_energized _ _ hst))
  exact ⟨t, hex, hstop, hreason, hdone⟩

end

section
variable {arg : BitVec 24} {n : Fin 8} {s : State} (ha : argUnit arg = n.val) (hr : s.dev.ready .core 5 (argUnit arg))
  (hp : s.dev.present n.val = true) (h0 : argBits arg 15 8 = 0) (hb : bit (s.dev.reg 5 n.val 0x10) 0 = true)
include ha hr hp h0 hb


theorem evcStop_hint_energized
    (hst : (s.dev.evc.s[n]).st = .energizing ∨ (s.dev.evc.s[n]).st = .charging ∨ (s.dev.evc.s[n]).st = .suspended) :
    ∃ t, exec (.evcStop .core arg) s = .next t ∧ (t.dev.evc.s[n]).st = .stopping ∧ (t.dev.evc.s[n]).reason = 2 ∧
      (t.dev.evc.s[n]).asking = false ∧ t.dev.reg 5 n.val 0x10 = 0 ∧ t.dev.reply.status = 0 := by
  have hcmd := Dev.stopBy_energized 2 0 hst
  have h1 := s.dev.goStopping_st n 2 0
  have h2 := s.dev.goStopping_reason n 2 0
  have h3 := s.dev.goStopping_asking n 2
  generalize s.dev.goStopping n 2 0 = D at hcmd h1 h2 h3
  obtain ⟨t, hex, hevc, hreg, hok⟩ := evcStop_hint ha hr hp h0 hb hcmd
  exact ⟨t, hex, hevc ▸ h1, hevc ▸ h2, hevc ▸ h3, hreg, hok⟩

theorem evcStop_hint_waiting (hst : (s.dev.evc.s[n]).st = .authorizing ∨ (s.dev.evc.s[n]).st = .authorized) :
    ∃ t, exec (.evcStop .core arg) s = .next t ∧ (t.dev.evc.s[n]).st = .finished ∧ (t.dev.evc.s[n]).reason = 2 ∧
      t.dev.reg 5 n.val 0x10 = 0 ∧ t.dev.reply.status = 0 := by
  have hcmd := Dev.stopBy_waiting 2 0 hst
  have h1 := s.dev.goFinished_st n 2
  have h2 := s.dev.goFinished_reason n 2
  generalize s.dev.goFinished n 2 = D at hcmd h1 h2
  obtain ⟨t, hex, hevc, hreg, hok⟩ := evcStop_hint ha hr hp h0 hb hcmd
  exact ⟨t, hex, hevc ▸ h1, hevc ▸ h2, hreg, hok⟩

theorem evcStop_hint_unstarted (hst : (s.dev.evc.s[n]).st = .idle ∨ (s.dev.evc.s[n]).st = .plugged) :
    ∃ t, exec (.evcStop .core arg) s = .next t ∧ (t.dev.evc.s[n]).preauth = none ∧ (t.dev.evc.s[n]).st = (s.dev.evc.s[n]).st ∧
      t.dev.reg 5 n.val 0x10 = 0 ∧ t.dev.reply.status = 0 := by
  have hcmd := Dev.stopBy_unstarted 2 0 hst
  have hself := s.dev.updEvc_self n fun x => { x with preauth := none }
  generalize s.dev.updEvc n (fun x => { x with preauth := none }) = D at hcmd hself
  obtain ⟨t, hex, hevc, hreg, hok⟩ := evcStop_hint ha hr hp h0 hb hcmd
  exact ⟨t, hex, (congrArg (fun e => (e.s[n]).preauth) hevc).trans (congrArg EvcSlice.preauth hself),
    (congrArg (fun e => (e.s[n]).st) hevc).trans (congrArg EvcSlice.st hself), hreg, hok⟩

end

/-- Settles O32: each command by the state it finds, on the session of its slice. -/
theorem sessionCommands : Obligations.SessionCommands := by
  unfold Obligations.SessionCommands
  intro ag arg n s ha hr hp
  rw [← ha] at hr
  refine ⟨fun hm => ⟨authorize_before ha hr hp hm, authorize_authorizing ha hr hp hm⟩, fun h0 => ⟨deny_authorizing ha hr hp h0,
    fun hplain => ⟨fun hst => ?_, evcStop_waiting ha hr hp h0 hplain, evcStop_energized ha hr hp h0 hplain⟩,
    fun hag hb => ?_, suspend_charging ha hr hp h0, fun hst hsu => ?_, faultClear_safe ha hr hp h0⟩⟩
  · exact next_put (sessionCommand_ok ha hr hp (decide_eq_true h0) ((stopCmd_plain hplain).trans (Dev.stopBy_unstarted _ _ hst)))
  · subst hag
    exact ⟨evcStop_hint_energized ha hr hp h0 hb, evcStop_hint_waiting ha hr hp h0 hb, evcStop_hint_unstarted ha hr hp h0 hb⟩
  · exact next_put (sessionCommand_ok ha hr hp (decide_eq_true h0) (if_pos ⟨hst, hsu⟩))

end Sys2Proof.Machine
end

section
/-! SUPPORT. What ends the waits of a session (R253, R257, R262 to R268, R275, R281). -/

namespace Sys2Proof.Machine

section
variable {d : Dev} {n : Fin 8}

/-- A field of a session that an operation keeps. -/
theorem Dev.seat_keeps {α : Type} {e : Dev} {x : EvcSlice} (g : EvcSlice → α) (hg : ∀ y : EvcSlice, g y.undriven = g y)
    (h : e.seat n = x) (hx : g x = g (d.seat n)) : g e.evc.s[n] = g d.evc.s[n] := (Dev.seat_get g hg h).trans (hx.trans (hg _))

/-! ### The close sequence (R264) -/

/-- The device whose coil is on, before the session's start reading. -/
def Dev.coilClosed (d : Dev) (n : Fin 8) : Dev :=
  ((d.evcDemand (coil n) true).updEvc n fun x => { x with close := .energized, tLsw := d.el, startTaken := true }).raiseEvc n.val 3

theorem Dev.coilClosed_seat (d : Dev) (n : Fin 8) :
    (d.coilClosed n).seat n = { d.seat n with close := .energized, tLsw := d.el, startTaken := true } := by
  unfold Dev.coilClosed
  rw [Dev.raiseEvc_seat, Dev.updEvc_seat _ n _ fun _ => rfl, Dev.evcDemand_seat]

/-- KENn's closing switches the coil on and takes the start reading once. -/
theorem Dev.energize_seat (hst : (d.evc.s[n]).st = .energizing) (hc : (d.evc.s[n]).close = .ken) (hk : (d.kao.m[n]).ken = true)
    (hm : d.mtrRuns n.val = true) (ht : d.tim.now % 62500 = 0) :
    (d.energize n).seat n = { d.seat n with close := .energized, tLsw := d.el, startTaken := true } := by
  have hgo : d.energize n = if (d.evc.s[n]).startTaken then d.coilClosed n
      else (d.coilClosed n).sessionStart n (d.evc.s[n]).sid (d.evc.s[n]).method (d.evc.s[n]).ref := if_pos ⟨hst, hc, hk, hm, ht⟩
  rw [hgo]
  split
  · exact d.coilClosed_seat n
  · exact (seat_of_part (Dev.sessionStart_part (by decide) (by decide) ..)).trans (d.coilClosed_seat n)

/-- A fault withdraws the close request. -/
theorem Dev.goFault_asking (reason : Nat) (h : (d.evc.s[n]).st ≠ .fault) : ((d.goFault n reason).evc.s[n]).asking = false := by
  obtain ⟨lo, lk, hs⟩ := d.goFault_seat n reason h
  exact Dev.seat_get EvcSlice.asking (fun _ => rfl) hs

theorem Dev.goFault_endDue (reason : Nat) : ((d.goFault n reason).evc.s[n]).endDue = (d.evc.s[n]).endDue := by
  by_cases h : (d.evc.s[n]).st = .fault
  · rw [Dev.goFault_stays d n reason h]
  · obtain ⟨lo, lk, hs⟩ := d.goFault_seat n reason h
    exact Dev.seat_keeps EvcSlice.endDue (fun _ => rfl) hs rfl

/-! ### The wait before the opening (R268) -/

theorem Dev.evcDemand_only (d : Dev) (c : Fin 16) (on : Bool) : d.OnlyChans (d.evcDemand c on) :=
  Dev.onlyChans_ite .rfl (d.lswDemand_only ..)

theorem Dev.cutContactor_only (d : Dev) (n : Fin 8) :
    d.cutContactor n = { d with evc := (d.cutContactor n).evc, lsw := (d.cutContactor n).lsw } := by
  have h := d.evcDemand_only (coil n) false
  unfold Dev.OnlyChans at h
  unfold Dev.cutContactor
  generalize d.evcDemand (coil n) false = e at h
  rw [h]
  rfl

/-- A demand that is taken back leaves no channel driven. -/
theorem Dev.lswDemand_off_driven {c : Fin 16} (ho : d.lswOwned c.val = true) (hd : (d.lswAt c).demand = true) :
    ((d.lswDemand c false).lswAt c).st.driven = false := by
  cases hdr : (d.lswAt c).st.driven with
  | true =>
    have hoff : ((d.updLsw c fun y => { y with demand := false }).lswOff c).lswAt c = _ := Dev.updLsw_lswAt_self ..
    rw [Dev.lswDemand_driven ho hd hdr, Dev.lswSettle_lswAt (congrArg LswChan.hold hoff :)]
    exact congrArg (LswSt.driven ∘ LswChan.st) hoff
  | false =>
    rw [(Dev.lswDemand_rest_off ho hdr).2.1]
    split
    · rfl
    · exact hdr

theorem Dev.cutContactor_coil (hl : d.limpMapped n.val = false) (ho : d.lswOwned n.val = true)
    (hd : (d.lsw.c[coil n]).demand = true) : (d.cutContactor n).coilOn n = false := by
  have hgo : d.evcDemand (coil n) false = d.lswDemand (coil n) false := if_neg (ne_true_of_eq_false hl)
  unfold Dev.cutContactor
  rw [hgo]
  exact Dev.lswDemand_off_driven (c := coil n) ho hd

/-! ### The end of the opening (R264, R265, R268) -/

/-- The session of a contactor that has not opened. -/
def Dev.openFailed (d : Dev) (n : Fin 8) (reason : Nat) : Dev := (d.updEvc n fun x => { x with reason := reason }).takeEnd n

theorem Dev.openFailed_seat (d : Dev) (n : Fin 8) (reason : Nat) :
    (d.openFailed n reason).seat n = { d.seat n with reason := reason, endDue := false } := by
  unfold Dev.openFailed
  rw [Dev.takeEnd_seat, d.updEvc_seat n _ fun _ => rfl]

section
variable {t0 : Nat} (hd : (d.evc.s[n]).endDue = true) (ht : (d.evc.s[n]).tOpen = some t0)
  (ha : t0 + 100000000 ≤ d.tim.elapsed) (hf : (d.kao.m[n]).fb = true)
include hd ht ha hf

theorem Dev.openTimeout_faults (hst : (d.evc.s[n]).st = .stopping ∨ (d.evc.s[n]).st = .suspended) :
    d.openTimeout n = (d.openFailed n 16).goFault n 16 := by
  have hne : (d.evc.s[n]).st ≠ .fault := by rcases hst with h | h <;> rw [h] <;> decide
  unfold Dev.openTimeout
  extract_lets x
  rw [show x.tOpen = _ from ht]
  dsimp only
  rw [if_pos ⟨decide_eq_true ha, hf, hd, hst.elim .inl fun h => .inr (.inl h)⟩, if_neg hne]
  exact congrArg (fun r => (d.openFailed n r).goFault n 16) (if_neg hne)

theorem Dev.openTimeout_inFault (hst : (d.evc.s[n]).st = .fault) :
    d.openTimeout n = (d.openFailed n (d.evc.s[n]).reason).setLock n false := by
  unfold Dev.openTimeout
  extract_lets x
  rw [show x.tOpen = _ from ht]
  dsimp only
  rw [if_pos ⟨decide_eq_true ha, hf, hd, .inr (.inr hst)⟩, if_pos hst]
  exact congrArg (fun r => (d.openFailed n r).setLock n false) (if_pos hst)
end

theorem Dev.openFailed_goFault (reason k : Nat) (hst : (d.evc.s[n]).st ≠ .fault) :
    (((d.openFailed n reason).goFault n k).evc.s[n]).st = .fault ∧ (((d.openFailed n reason).goFault n k).evc.s[n]).reason = k ∧
      (((d.openFailed n reason).goFault n k).evc.s[n]).endDue = false := by
  have hseat := d.openFailed_seat n reason
  generalize d.openFailed n reason = e at hseat
  have hne : (e.evc.s[n]).st ≠ .fault := by
    rw [show (e.evc.s[n]).st = (d.evc.s[n]).st from Dev.seat_keeps EvcSlice.st (fun _ => rfl) hseat rfl]
    exact hst
  exact ⟨Dev.goFault_st e n k, Dev.goFault_reason k hne,
    (Dev.goFault_endDue k).trans (Dev.seat_get EvcSlice.endDue (fun _ => rfl) hseat)⟩

theorem Dev.openFailed_unlocked (reason : Nat) :
    (((d.openFailed n reason).setLock n false).evc.s[n]).st = (d.evc.s[n]).st ∧
      (((d.openFailed n reason).setLock n false).evc.s[n]).reason = reason ∧
      (((d.openFailed n reason).setLock n false).evc.s[n]).endDue = false := by
  obtain ⟨lo, lk, hs⟩ := Dev.setLock_of_seat (d.openFailed_seat n reason) false
  exact ⟨Dev.seat_keeps EvcSlice.st (fun _ => rfl) hs rfl, Dev.seat_get EvcSlice.reason (fun _ => rfl) hs,
    Dev.seat_get EvcSlice.endDue (fun _ => rfl) hs⟩

/-! ### Faults of the vehicle and of the pilot driver (R257, R275, R281) -/

theorem Dev.goStopping_fresh (reason wait : Nat) : ((d.goStopping n reason wait).evc.s[n]).fresh = (d.evc.s[n]).fresh := by
  obtain ⟨a, w, c, t, e, h⟩ := d.goStopping_seat n reason wait
  exact Dev.seat_keeps EvcSlice.fresh (fun _ => rfl) h rfl

/-- The pilot of a function in FAULT is at its idle level. -/
theorem Dev.levelPilot_fault (h : (d.evc.s[n]).fn.st = .fault) : ((d.levelPilot n).evc.s[n]).drive = 1 := by
  have hp : d.pilotDrive n = (1, 0) := (if_neg (by rw [h]; decide)).trans (if_pos (.inl (by rw [h]; decide)))
  unfold Dev.levelPilot
  rw [if_neg (by rw [hp]; decide)]
  unfold Dev.drivePilot
  rw [hp]
  exact congrArg EvcSlice.drive (d.updEvc_self n _)

theorem Dev.evcFault_drive (h : (d.evc.s[n]).fn.st = .running) (code : Byte) : ((d.evcFault n code).evc.s[n]).drive = 1 := by
  rw [Dev.evcFault_eq h]
  refine Dev.levelPilot_fault ?_
  rw [Dev.goFault_fn]
  exact congrArg (fun x => x.fn.st) (d.updEvc_self n _)

theorem Dev.evcFault_reason (h : (d.evc.s[n]).fn.st = .running) (code : Byte) (hst : (d.evc.s[n]).st ≠ .fault) :
    ((d.evcFault n code).evc.s[n]).reason = 13 := by
  have hne : ((d.evcFailed n code).evc.s[n]).st ≠ .fault := by
    rw [show ((d.evcFailed n code).evc.s[n]).st = (d.evc.s[n]).st from
      (congrArg EvcSlice.st (d.updEvc_self n _)).trans rfl]
    exact hst
  rw [Dev.evcFault_eq h, Dev.levelPilot_get _ n EvcSlice.reason fun _ => rfl]
  exact Dev.goFault_reason 13 hne

end

/-! ### The clauses -/

section
variable {s : State} {n : Fin 8}

/-- An event that stops the session, with what the session receives meanwhile. -/
theorem Dev.oneEvent_stops (d : Dev) {f : Dev → Dev} {e : Dev} {reason wait : Nat} (h : f d = e.goStopping n reason wait) :
    ((d.oneEvent f).evc.s[n]).st = .stopping ∧ ((d.oneEvent f).evc.s[n]).reason = reason ∧
      ((d.oneEvent f).evc.s[n]).fresh = (e.evc.s[n]).fresh := by
  rw [Dev.oneEvent_evc, h]
  exact ⟨e.goStopping_st n reason wait, e.goStopping_reason n reason wait, Dev.goStopping_fresh reason wait⟩

/-- Authorisation that does not come (R262). -/
theorem authTimeout_finishes (hst : (s.dev.evc.s[n]).st = .authorizing) (hw : s.dev.rfld 5 n.val 4 31 24 ≠ 0)
    (ht : (s.dev.evc.s[n]).tAuth + s.dev.rfld 5 n.val 4 31 24 * 10000000000 ≤ s.dev.tim.elapsed) :
    s.dev.authTimeout n = s.dev.goFinished n 10 := if_pos ⟨hst, hw, decide_eq_true ht⟩

/-- The fall back to PWM (R253). -/
theorem pwmFallback_falls (hc : s.dev.evcComm n = 2) (hf : (s.dev.evc.s[n]).fellBack = false)
    (hst : (s.dev.evc.s[n]).st.connected = true) (ht : (s.dev.evc.s[n]).tPlug + 20000000000 ≤ s.dev.tim.elapsed)
    (hm : (s.dev.evc.s[n]).matchedInTime = false) :
    s.dev.pwmFallback n = s.dev.updEvc n fun x => { x with fellBack := true } :=
  if_pos ⟨hc, (congrArg not hf :), hst, decide_eq_true ht, (congrArg not hm :)⟩

/-- Settles O33: each wait is an `if` whose condition the clause states; what its operation leaves on the session is that of
`seat`. -/
theorem sessionTimers : Obligations.SessionTimers := by
  unfold Obligations.SessionTimers
  refine fun n s => ⟨fun hst hw ht => ?_, fun p hp ht => ?_, fun hc hf hst ht hm => ?_,
    fun hst => ⟨fun hc ht hl => ?_, fun hc hk hm ht => ?_, fun hc hf ht => ?_, fun ht => ?_⟩, fun hw ht => ?_,
    fun hd => ⟨fun t0 ho ht hf => ⟨fun hst => ?_, fun hst => ?_⟩, fun ho hf ht => ⟨fun hst => ?_, fun hst => ?_⟩⟩,
    fun hst hr => ?_, fun hst hdc ht => ?_, fun hrun => ?_⟩
  · exact ⟨_, next_put (authTimeout_finishes hst hw ht), s.dev.goFinished_st n 10, s.dev.goFinished_reason n 10⟩
  · refine next_put ?_
    unfold Dev.preauthExpiry
    rw [hp]
    exact if_pos (decide_eq_true ht)
  · have hself := s.dev.updEvc_self n fun x => { x with fellBack := true }
    exact ⟨_, next_put (pwmFallback_falls hc hf hst ht hm), congrArg EvcSlice.fellBack hself,
      (congrArg EvcSlice.st hself).trans rfl, rfl⟩
  · have hgo : s.dev.lockTimeout n = s.dev.goStopping n 14 0 := if_pos ⟨hst, hc, decide_eq_true ht, (congrArg not hl :)⟩
    exact ⟨_, next_put hgo, s.dev.goStopping_st n 14 0, s.dev.goStopping_reason n 14 0⟩
  · have hseat := Dev.energize_seat hst hc hk hm ht
    exact ⟨s.put (s.dev.energize n), rfl, Dev.seat_get EvcSlice.close (fun _ => rfl) hseat,
      Dev.seat_get EvcSlice.startTaken (fun _ => rfl) hseat, Dev.seat_get EvcSlice.tLsw (fun _ => rfl) hseat,
      (Dev.seat_keeps EvcSlice.st (fun _ => rfl) hseat rfl).trans hst⟩
  · have hne : (s.dev.evc.s[n]).st ≠ .fault := by rw [hst]; decide
    have hgo : s.dev.closeTimeout n = s.dev.goFault n 18 := if_pos ⟨hst, hc, (congrArg not hf :), decide_eq_true ht⟩
    exact ⟨_, next_put hgo, s.dev.goFault_st n 18, Dev.goFault_reason 18 hne, Dev.goFault_asking 18 hne⟩
  · have hgo : s.dev.energizeTimeout n = s.dev.goStopping n 21 0 := if_pos ⟨hst, decide_eq_true ht⟩
    exact ⟨_, next_put hgo, s.dev.goStopping_st n 21 0, s.dev.goStopping_reason n 21 0⟩
  · have hgo : s.dev.stopWaitEnd n = s.dev.cutContactor n := if_pos ⟨hw, ht⟩
    have hseat := s.dev.cutContactor_seat n
    refine ⟨_, next_put hgo, Dev.seat_get EvcSlice.waiting (fun _ => rfl) hseat, Dev.seat_get EvcSlice.asking (fun _ => rfl) hseat,
      (Dev.seat_get EvcSlice.tOpen (fun _ => rfl) hseat).trans ?_, fun hl ho hd => Dev.cutContactor_coil hl ho hd,
      Dev.seat_keeps EvcSlice.st (fun _ => rfl) hseat rfl, s.dev.cutContactor_only n⟩
    exact if_congr (or_congr Iff.rfl Option.isNone_iff_eq_none) rfl rfl
  · have hne : (s.dev.evc.s[n]).st ≠ .fault := by rcases hst with h | h <;> rw [h] <;> decide
    exact ⟨_, next_put (Dev.openTimeout_faults hd ho ht hf hst), Dev.openFailed_goFault 16 16 hne⟩
  · obtain ⟨hk, hr, he⟩ := Dev.openFailed_unlocked (d := s.dev) (n := n) (s.dev.evc.s[n]).reason
    exact ⟨_, next_put (Dev.openTimeout_inFault hd ho ht hf hst), hk.trans hst, hr, he⟩
  · refine next_put ((if_pos ⟨hd, ho, .inl hst, (congrArg not hf :), ht⟩).trans (if_neg ?_))
    rw [hst]
    decide
  · exact next_put ((if_pos ⟨hd, ho, .inr hst, (congrArg not hf :), ht⟩).trans (if_pos hst))
  · have hgo : s.dev.evOvercurrent n = s.dev.oneEvent fun d => (d.raiseEvc n.val 11).goStopping n 19 0 := if_pos ⟨hst, hr⟩
    obtain ⟨hk, hreason, -⟩ := s.dev.oneEvent_stops (f := fun d => (d.raiseEvc n.val 11).goStopping n 19 0) rfl
    exact ⟨_, next_put hgo, hk, hreason⟩
  · have hgo : s.dev.moduleLost n = s.dev.oneEvent fun d =>
        ((d.updEvc n fun x => { x with fresh := false }).raiseEvc n.val 10).goStopping n 15 0 :=
      if_pos ⟨hdc, hst, decide_eq_true ht⟩
    obtain ⟨hk, hreason, hfresh⟩ := s.dev.oneEvent_stops
      (f := fun d => ((d.updEvc n fun x => { x with fresh := false }).raiseEvc n.val 10).goStopping n 15 0) rfl
    exact ⟨_, next_put hgo, hk, hreason, hfresh.trans (congrArg EvcSlice.fresh (s.dev.updEvc_self n _))⟩
  · have hfn := Dev.evcFault_fn hrun 2
    exact ⟨s.put (s.dev.evcFault n 2), rfl, congrArg Func.st hfn, congrArg Func.code hfn, Dev.evcFault_st hrun 2,
      Dev.evcFault_drive hrun 2, Dev.evcFault_reason hrun 2⟩

end

end Sys2Proof.Machine
end

section
/-! SUPPORT. CAN and Green PHY frames and authorisation messages (R273 to R278, R118). -/

namespace Sys2Proof.Machine

/-! ### CAN (R274, R275) -/

section
variable {d : Dev} {port : Fin 2} {f : CanFrame} {n : Fin 8} {q : Fin 64} {cs : List WordCheck} {ws : List QData} {d1 : Dev}

theorem Dev.takeStatus_self (d : Dev) (n : Fin 8) (f : CanFrame) : (d.takeStatus n f).evc.s[n] =
    { d.evc.s[n] with
      rxSeq := f.data.headD 0, rxStatus := (f.data.drop 1).headD 0, outDv := BitVec.ofNat 16 (leAt f.data 2 2)
      outDa := BitVec.ofNat 16 (leAt f.data 4 2), fresh := true, tRx := d.el } := d.updEvc_self n _

theorem Dev.takeStatus_other {m : Fin 8} (h : m ≠ n) : (d.takeStatus n f).evc.s[m] = d.evc.s[m] :=
  (d.updEvc_at n m _).trans (if_neg h)

theorem Dev.canRx_status (h : d.statusSlice port f = some n) : d.canRx port f = d.takeStatus n f := by
  unfold Dev.canRx
  rw [h]

theorem Dev.canRx_other (h : d.statusSlice port f = none) : d.canRx port f = d.passCan port f := by
  unfold Dev.canRx
  rw [h]

/-- A status frame reaches its slice. -/
def Dev.statusRx (d : Dev) (port : Fin 2) (f : CanFrame) : Dev :=
  match d.statusSlice port f with
  | some n => d.takeStatus n f
  | none => d

theorem exec_dcStatusFrame (s : State) : exec (.dcStatusFrame port f) s = .next (s.put (s.dev.statusRx port f)) := rfl

theorem Dev.statusRx_status (h : d.statusSlice port f = some n) : d.statusRx port f = d.takeStatus n f := by
  unfold Dev.statusRx
  rw [h]

theorem Dev.statusRx_other (h : d.statusSlice port f = none) : d.statusRx port f = d := by
  unfold Dev.statusRx
  rw [h]

theorem Dev.canSend_sends (hc : d.que.q[q].entry.cons = 0x0B + port.val) (hs : d.serves q = true)
    (ht : d.takeMsg q cs = (some ws, d1)) (hp : isPoison ws = false) :
    d.canSend port q cs = d1.sendCan port
      { ext := (Config.canFrame (ws.drop 1)).1, id := (Config.canFrame (ws.drop 1)).2.1, data := (Config.canFrame (ws.drop 1)).2.2 } := by
  unfold Dev.canSend
  rw [if_pos ⟨hc, hs⟩, ht]
  exact if_neg (ne_true_of_eq_false hp)

/-! ### Authorisation messages (R278) -/

/-- The reference that an authorisation message carries. -/
def msgRef (ws : List QData) : List Word := ((ws.drop 2).flatMap fun w => [w32 w.toNat, hi32 w.toNat]) ++ [0, 0]

section
variable (hc : d.que.q[q].entry.cons = 0x20 + n.val) (hp : d.present n.val = true) (hs : d.serves q = true)
  (ht : d.takeMsg q cs = (some ws, d1)) (hl : ws.length = 5) (hty : hdrType (msgHead ws) = 0x31)
include hc hp hs ht hl hty

theorem Dev.authMessage_stale (hst : (d1.evc.s[n]).st ≠ .authorizing) : d.authMessage n q cs = d1.raiseEvc n.val 12 := by
  unfold Dev.authMessage
  rw [if_pos ⟨hc, hp, hs⟩, ht]
  refine (if_neg ?_).trans (if_neg fun h => hst h.2.1)
  rw [hl, hty]
  decide

section
variable {ag : Agent} (hag : authAgent d.que.q[q].entry.prod = some ag) (hm : methodAllowed ag (bits (ws.getD 1 0).toNat 63 56) = true)
  (hst : (d1.evc.s[n]).st = .authorizing) (hid : hdrIdent (msgHead ws) = (d1.evc.s[n]).sid.toNat)
include hag hm hst hid

theorem Dev.authMessage_grants (hr : bits (ws.getD 1 0).toNat 55 48 = 0) :
    d.authMessage n q cs = d1.goAuthorized n (bits (ws.getD 1 0).toNat 63 56) (msgRef ws) := by
  unfold Dev.authMessage
  rw [if_pos ⟨hc, hp, hs⟩, ht]
  refine (if_neg ?_).trans ((if_pos ⟨?_, hst, hid, hr.trans_le (Nat.zero_le 1)⟩).trans (if_pos hr))
  · rw [hl, hty]
    decide
  · rw [hag]
    exact hm

theorem Dev.authMessage_denies (hr : bits (ws.getD 1 0).toNat 55 48 = 1) :
    d.authMessage n q cs = d1.goFinished n 9 := by
  unfold Dev.authMessage
  rw [if_pos ⟨hc, hp, hs⟩, ht]
  refine (if_neg ?_).trans ((if_pos ⟨?_, hst, hid, hr.le⟩).trans (if_neg (hr.trans_ne Nat.one_ne_zero)))
  · rw [hl, hty]
    decide
  · rw [hag]
    exact hm
end
end
end

/-! ### The modem of a slice (R276, R277) -/

section
variable {d : Dev} {n : Fin 8}

theorem Dev.updGp_self (f : Modem → Modem) : (d.updGp n f).evc.gp[n] = f d.evc.gp[n] := (d.updGp_at n n f).trans (if_pos rfl)

/-- From `d` to `e` nothing changed but modems. -/
def Dev.OnlyModems (d e : Dev) : Prop := e = { d with evc := { d.evc with gp := e.evc.gp } }

theorem Dev.updGp_only (d : Dev) (n : Fin 8) (f : Modem → Modem) : d.OnlyModems (d.updGp n f) := Eq.refl _

theorem Dev.OnlyModems.trans {d e f : Dev} (h : d.OnlyModems e) (k : e.OnlyModems f) : d.OnlyModems f := by
  unfold Dev.OnlyModems at h k ⊢
  rw [k, h]

/-- A sounding puts the modem into SLAC with the vehicle's attenuation, and tells the modems that hear the same vehicle. -/
theorem Dev.slacParm_sounds {mac : BitVec 48} {atten : Nat} (ho : d.gpOpen n = true)
    (hst : (d.evc.gp[n]).st = .wait ∨ (d.evc.gp[n]).st = .slac ∨ (d.evc.gp[n]).st = .lost) :
    ((d.slacParm n mac atten).evc.gp[n]).st = .slac ∧ ((d.slacParm n mac atten).evc.gp[n]).slacMac = mac ∧
      ((d.slacParm n mac atten).evc.gp[n]).atten = min atten 255 ∧ d.OnlyModems (d.slacParm n mac atten) := by
  unfold Dev.slacParm
  dsimp only
  rw [if_pos ⟨ho, hst⟩]
  have hself := fun (e : Dev) (f : Modem → Modem) => e.updGp_self (n := n) f
  refine ⟨congrArg Modem.st (hself ..), congrArg Modem.slacMac (hself ..), congrArg Modem.atten (hself ..), ?_⟩
  refine Dev.OnlyModems.trans (foldl_rel _ _ (fun a b : Dev => b.OnlyModems a) d rfl fun a m h => ?_) (Dev.updGp_only ..)
  split
  · exact h.trans (a.updGp_only m _)
  · exact h

theorem Dev.slacMatch_waits (hst : (d.evc.gp[n]).st = .slac) (hq : d.slacQualifies n = false) :
    d.slacMatch n = d.updGp n fun g => { g with st := .wait } :=
  (if_neg fun h => ne_true_of_eq_false hq h.2.2.2).trans (if_pos hst)

/-- The nearest modem matches the vehicle (R277). -/
theorem Dev.slacMatch_matches (ho : d.gpOpen n = true) (hst : (d.evc.gp[n]).st = .slac)
    (ha : (d.evc.gp[n]).atten ≤ d.rfld 5 (0x10 + n.val) 0 31 24) (hq : d.slacQualifies n = true) :
    ((d.slacMatch n).evc.gp[n]).st = .matched ∧ ((d.slacMatch n).evc.gp[n]).mac = (d.evc.gp[n]).slacMac ∧
      (d.slacMatch n).flagBit 5 n.val 0x30 8 = true := by
  unfold Dev.slacMatch
  dsimp only
  rw [if_pos ⟨ho, hst, ha, hq⟩]
  have hself := d.updGp_self (n := n)
    fun g => { g with st := .matched, mac := g.slacMac, nmk := (Config.freeWide d.fresh).setWidth 128, tRx := d.el }
  exact ⟨congrArg Modem.st hself, congrArg Modem.mac hself, Dev.flagBit_raise_self _ 5 n.val 0x30 _ 8 (by decide) (by decide)⟩

theorem Dev.slacLost_lost (hst : (d.evc.gp[n]).st = .matched) (ht : (d.evc.gp[n]).tRx + 1000000000 ≤ d.tim.elapsed) :
    ((d.slacLost n).evc.gp[n]).st = .lost ∧ (d.slacLost n).flagBit 5 n.val 0x30 9 = true := by
  unfold Dev.slacLost
  rw [if_pos ⟨hst, decide_eq_true ht⟩]
  exact ⟨congrArg Modem.st (d.updGp_self (n := n) fun g => { g with st := .lost }),
    Dev.flagBit_raise_self _ 5 n.val 0x30 _ 9 (by decide) (by decide)⟩

/-- A frame of the vehicle keeps the match. -/
theorem Dev.gpRx_hears (hst : (d.evc.gp[n]).st = .matched) (hr : d.runs (2 + n.val) = true) (bytes : List Byte) :
    (d.gpRx n bytes).evc.gp[n] = { d.evc.gp[n] with tRx := d.el } := by
  have hself := d.updGp_self (n := n) fun g => { g with tRx := d.el }
  unfold Dev.gpRx
  rw [if_pos ⟨hst, hr⟩]
  dsimp only
  split
  · exact (congrArg (fun e => e.gp[n]) (evc_of_part (Dev.produce_part (by decide) ..))).trans hself
  · exact hself

theorem Dev.gpTx_sends {q : Fin 64} {cs : List WordCheck} {ws : List QData} {d1 : Dev} (hst : (d.evc.gp[n]).st = .matched)
    (hr : d.runs (2 + n.val) = true) (hc : d.que.q[q].entry.cons = 0x28 + n.val) (hs : d.serves q = true)
    (ht : d.takeMsg q cs = (some ws, d1)) (hp : isPoison ws = false) :
    d.gpTx n q cs = d1.updGp n fun g => { g with lastTx := Config.gpFrame (ws.drop 1) } := by
  unfold Dev.gpTx
  rw [if_pos ⟨hst, hr, hc, hs⟩, ht]
  exact if_neg (ne_true_of_eq_false hp)

end

/-- Settles O36: each frame by the lemma of its unit. -/
theorem linkFrames : Obligations.LinkFrames := by
  unfold Obligations.LinkFrames
  refine ⟨fun port f n s h => ?_, fun port f s h => ?_, fun port q cs s hc hs ws d1 ht hp => next_put (Dev.canSend_sends hc hs ht hp),
    fun n q cs s ws d1 hc hp hs ht hl hty => ⟨fun ag hag hm hst hid => ⟨fun hr => ?_, fun hr => ?_⟩, fun hst =>
      next_put (Dev.authMessage_stale hc hp hs ht hl hty hst)⟩,
    fun n s => ⟨fun mac atten ho hst ha => ?_, fun ho hst ha hq => ?_, fun _ hst hq => next_put (Dev.slacMatch_waits hst hq),
      fun hst => ⟨fun ht => ?_, fun hr => ⟨fun bytes => ?_, fun q cs ws d1 hc hs ht hp =>
        next_put (Dev.gpTx_sends hst hr hc hs ht hp)⟩⟩⟩⟩
  · have hself := s.dev.takeStatus_self n f
    refine ⟨s.put (s.dev.takeStatus n f), (exec_dcStatusFrame s).trans (next_put (Dev.statusRx_status h)),
      next_put (Dev.canRx_status h), congrArg EvcSlice.rxSeq hself, congrArg EvcSlice.fresh hself, congrArg EvcSlice.tRx hself,
      congrArg EvcSlice.outDv hself, congrArg EvcSlice.outDa hself, rfl, fun m hm => Dev.takeStatus_other hm⟩
  · exact ⟨next_put (Dev.canRx_other h),
      (exec_dcStatusFrame s).trans (next_put (Dev.statusRx_other h))⟩
  · have hseat := d1.goAuthorized_seat n (bits (ws.getD 1 0).toNat 63 56) (msgRef ws)
    exact ⟨_, next_put (Dev.authMessage_grants hc hp hs ht hl hty hag hm hst hid hr),
      Dev.seat_get EvcSlice.st (fun _ => rfl) hseat, Dev.seat_get EvcSlice.method (fun _ => rfl) hseat⟩
  · exact ⟨_, next_put (Dev.authMessage_denies hc hp hs ht hl hty hag hm hst hid hr), d1.goFinished_st n 9,
      d1.goFinished_reason n 9⟩
  · obtain ⟨hslac, hmac, hatt, honly⟩ := Dev.slacParm_sounds (mac := mac) (atten := atten) ho hst
    exact ⟨s.put (s.dev.slacParm n mac atten), rfl, hslac, hmac, hatt.trans (Nat.min_eq_left ha), honly⟩
  · exact ⟨s.put (s.dev.slacMatch n), rfl, Dev.slacMatch_matches ho hst ha hq⟩
  · exact ⟨s.put (s.dev.slacLost n), rfl, Dev.slacLost_lost hst ht⟩
  · have hgp := Dev.gpRx_hears hst hr bytes
    exact ⟨s.put (s.dev.gpRx n bytes), rfl, congrArg Modem.tRx hgp, (congrArg Modem.st hgp).trans hst⟩

end Sys2Proof.Machine
end

section
/-! SUPPORT. What a source leaves of the tests' results, and which flags stay (R285, R286, R293 to R295, R301). -/

namespace Sys2Proof.Machine

/-! ### The findings of a slice's tests -/

/-- What the residual test, the insulation monitor and TRIP_TEST have left in a machine: no source acts on it. -/
def KaoSlice.findings (x : KaoSlice) : KaoSlice :=
  { ({} : KaoSlice) with
    resRunning := x.resRunning, resValid := x.resValid, resFail := x.resFail, resSince := x.resSince, force := x.force
    imdAlarm := x.imdAlarm, imdWarn := x.imdWarn, imdFault := x.imdFault, imdValid := x.imdValid, imdKohm := x.imdKohm }

def Dev.findings (d : Dev) (n : Fin 8) : KaoSlice := (d.machine n).findings

theorem Dev.findings_of_machine {d e : Dev} {n : Fin 8} {x : KaoSlice} (h : e.machine n = x) (hx : x.findings = d.findings n) :
    e.findings n = d.findings n := (congrArg KaoSlice.findings h).trans hx

/-- A finding of a slice is that of its machine. -/
theorem Dev.findings_get {α : Type} {d : Dev} {n : Fin 8} {x : KaoSlice} (g : KaoSlice → α)
    (hg : ∀ y : KaoSlice, g { y with kept := none }.findings = g y) (h : d.findings n = x) : g d.kao.m[n] = g x :=
  (hg _).symm.trans (congrArg g h)

section
variable (d : Dev) (n : Fin 8)

theorem Dev.updKao_findings (f : KaoSlice → KaoSlice) (hf : ∀ x, (f x).findings = x.findings) :
    (d.updKao n f).findings n = d.findings n := by
  have h : (d.updKao n f).kao.m[n] = f d.kao.m[n] := (Dev.updKao_at ..).trans (if_pos rfl)
  show (d.updKao n f).kao.m[n].findings = (d.kao.m[n]).findings
  rw [h, hf]

theorem KaoSlice.tripBy_findings (x : KaoSlice) (el s act detail : Nat) (test toLockout : Bool) :
    (x.tripBy el s act detail test toLockout).findings = x.findings := by
  have h : (x.released el).findings = x.findings := by
    unfold KaoSlice.released
    split <;> rfl
  exact h

theorem Dev.trip_findings (s act detail : Nat) (test toLockout : Bool) :
    (d.trip n s act detail test toLockout).findings n = d.findings n :=
  Dev.findings_of_machine ((d.trip_machine ..).trans (if_pos rfl)) (KaoSlice.tripBy_findings ..)

theorem Dev.enterLockout_findings (up : Bool) : (d.enterLockout n up).findings n = d.findings n :=
  Dev.findings_of_machine ((d.enterLockout_machine ..).trans (if_pos rfl)) rfl

theorem Dev.joinTrip_findings (s act detail : Nat) : (d.joinTrip n s act detail).findings n = d.findings n := by
  unfold Dev.joinTrip
  extract_lets x counted d1
  have h1 : d1.findings n = d.findings n := d.updKao_findings n _ fun _ => rfl
  split
  · rfl
  split
  · exact h1
  split
  · exact (d1.enterLockout_findings n _).trans h1
  split
  · exact (Dev.findings_of_machine (d1.writeCell_machine _ n) rfl).trans h1
  · exact h1

theorem Dev.sourceAction_findings (s detail : Nat) : (d.sourceAction n s detail).findings n = d.findings n := by
  unfold Dev.sourceAction
  dsimp only
  split
  · exact d.joinTrip_findings n ..
  split
  · rfl
  · split
    · rfl
    split
    · split
      · exact d.trip_findings n ..
      · exact ((d.escalate n).trip_findings n ..).trans (d.updKao_findings n _ fun _ => rfl)
    · exact d.trip_findings n ..
  · split
    · exact d.trip_findings n ..
    · rfl
  · split
    · exact Dev.findings_of_machine (d.writeCell_machine _ n) rfl
    · rfl

theorem Dev.markSource_findings (s : Fin 16) : (d.markSource n s).findings n = d.findings n :=
  Dev.findings_of_machine (d.markSource_self n s) rfl

theorem Dev.rearmTrack_findings : (d.rearmTrack n).findings n = d.findings n := d.updKao_findings n _ fun _ => rfl

theorem Dev.sourceActive_findings (s : Fin 16) (detail : Nat) : (d.sourceActive n s detail).findings n = d.findings n := by
  unfold Dev.sourceActive
  split
  · rfl
  · refine (Dev.findings_of_machine (machine_of_kao (Dev.watchSafe_kao_eq ..) n) ?_ : _ = d.findings n)
    exact (Dev.rearmTrack_findings _ n).trans ((Dev.sourceAction_findings _ n ..).trans (d.markSource_findings n s))

theorem Dev.setRaw_findings (s : Fin 16) (on : Bool) : (d.setRaw n s on).findings n = d.findings n :=
  d.updKao_findings n _ fun _ => rfl

theorem Dev.sourceInactive_findings (s : Fin 16) : (d.sourceInactive n s).findings n = d.findings n :=
  ((d.clearActive n s).rearmTrack_findings n).trans (d.updKao_findings n _ fun _ => rfl)

theorem Dev.rawChange_findings (s : Fin 16) (on : Bool) : (d.rawChange n s on).findings n = d.findings n := by
  have h1 := d.setRaw_findings n s on
  unfold Dev.rawChange
  dsimp only
  generalize d.setRaw n s on = e at h1
  split
  · exact h1
  split
  · exact (e.sourceActive_findings n s 0).trans h1
  · exact (e.sourceInactive_findings n s).trans h1
end

/-! ### Flags that stay -/

section
variable {d : Dev} {n : Fin 8} {g u off b : Nat} (hb : b < 16) (h : d.flagBit g u off b = true)
include h

theorem Dev.flag_of_flags {e : Dev} (he : e.flags = d.flags) : e.flagBit g u off b = true := (Dev.flagBit_congr he ..).trans h

theorem Dev.kenRelease_flag : (d.kenRelease n).flagBit g u off b = true := by
  refine Dev.flag_of_flags h ?_
  unfold Dev.kenRelease
  split <;> rfl

theorem Dev.writeCell_flag (f : KaoCell → KaoCell) : (d.writeCell f).flagBit g u off b = true := h

theorem Dev.rearmTrack_flag : (d.rearmTrack n).flagBit g u off b = true := h

theorem Dev.endTripTest_flag : (d.endTripTest n).flagBit g u off b = true :=
  (Dev.flagBit_congr (d.endTripTest_flags n) ..).trans h

include hb

theorem Dev.raiseKao_flag (k : Nat) : (d.raiseKao k).flagBit g u off b = true := Dev.flagBit_raise_mono _ _ _ _ _ _ _ _ _ hb h

theorem Dev.enterLockout_flag (up : Bool) : (d.enterLockout n up).flagBit g u off b = true :=
  Dev.raiseKao_flag hb (d := (d.updKao n fun x => { x with st := .lockout }).writeCell _) h 1

theorem Dev.trip_keeps_flag (s act detail : Nat) (test toLockout : Bool) :
    (d.trip n s act detail test toLockout).flagBit g u off b = true := by
  unfold Dev.trip
  extract_lets wasArmed d1 d2 d3
  have h1 : d1.flagBit g u off b = true := by
    have hk : (d.kenRelease n).flagBit g u off b = true := Dev.kenRelease_flag h
    unfold d1
    generalize d.kenRelease n = e at hk
    exact hk
  clear_value d1
  have h2 : d2.flagBit g u off b = true := by
    unfold d2
    split
    · exact Dev.enterLockout_flag hb h1 _
    · exact h1
  have h3 : d3.flagBit g u off b = true := by
    unfold d3
    split
    · exact Dev.endTripTest_flag (Dev.raiseKao_flag hb h2 0)
    · exact h2
  exact Dev.kaoSend_flag hb h3

theorem Dev.joinTrip_keeps_flag (s act detail : Nat) : (d.joinTrip n s act detail).flagBit g u off b = true := by
  unfold Dev.joinTrip
  extract_lets x counted d1
  have h1 : d1.flagBit g u off b = true := h
  split
  · exact h
  split
  · exact h1
  split
  · exact Dev.enterLockout_flag hb h1 _
  split <;> exact h1

theorem Dev.sourceAction_keeps_flag (s detail : Nat) : (d.sourceAction n s detail).flagBit g u off b = true := by
  unfold Dev.sourceAction
  dsimp only
  split
  · exact Dev.joinTrip_keeps_flag hb h ..
  split
  · exact h
  · split
    · exact h
    split
    · split
      · exact Dev.trip_keeps_flag hb h ..
      · exact Dev.trip_keeps_flag hb (d := d.escalate n) h ..
    · exact Dev.trip_keeps_flag hb h ..
  · split
    · exact Dev.trip_keeps_flag hb h ..
    · exact h
  · split <;> exact h

theorem Dev.markSource_flag (s : Fin 16) : (d.markSource n s).flagBit g u off b = true := by
  unfold Dev.markSource
  dsimp only
  split
  · exact Dev.raiseKao_flag hb (d := d.updKao n _) h 6
  · exact h

theorem Dev.sourceActive_keeps_flag (s : Fin 16) (detail : Nat) : (d.sourceActive n s detail).flagBit g u off b = true := by
  unfold Dev.sourceActive
  split
  · exact h
  · exact Dev.watchSafe_flag hb (Dev.rearmTrack_flag (Dev.sourceAction_keeps_flag hb (Dev.markSource_flag hb h s) s.val detail))

theorem Dev.rawChange_keeps_flag (s : Fin 16) (on : Bool) : (d.rawChange n s on).flagBit g u off b = true := by
  have h1 : (d.setRaw n s on).flagBit g u off b = true := h
  unfold Dev.rawChange
  dsimp only
  split
  · exact h1
  split
  · exact Dev.sourceActive_keeps_flag hb h1 s 0
  · exact h1

/-- An internal fault of Kaolin in one slice keeps every flag. -/
theorem Dev.internalSlice_flag : (d.internalSlice n).flagBit g u off b = true := by
  unfold Dev.internalSlice
  extract_lets old d1 d2 d3
  have h1 : d1.flagBit g u off b = true := Dev.kenRelease_flag h
  have h2 : d2.flagBit g u off b = true := Dev.flag_of_flags (Dev.enterLockout_flag hb h1 (n := n) false) rfl
  have h3 : d3.flagBit g u off b = true := by
    unfold d3
    split
    · exact Dev.endTripTest_flag h2
    · exact h2
  split
  · exact h1
  · exact Dev.rearmTrack_flag (Dev.kaoSend_flag hb h3)
end

/-! ### An internal fault of Kaolin (R293, R294) -/

section
variable (d : Dev) (n : Fin 8)

theorem Dev.kenRelease_opens : ((d.kenRelease n).machine n).ken = false :=
  (congrArg KaoSlice.ken ((d.kenRelease_machine n n).trans (if_pos rfl))).trans (KaoSlice.released_ken ..)

theorem Dev.internalSlice_other {k : Fin 8} (h : k ≠ n) : (d.internalSlice n).machine k = d.machine k := by
  unfold Dev.internalSlice
  extract_lets old d1 d2 d3
  have h1 : d1.machine k = d.machine k := (d.kenRelease_machine n k).trans (if_neg h)
  have h2 : d2.machine k = d.machine k := ((d1.enterLockout_other h false).trans h1 :)
  have h3 : d3.machine k = d.machine k := by
    unfold d3
    split
    · exact (machine_of_kao (d2.endTripTest_kao n) k).trans h2
    · exact h2
  split
  · exact ((d1.rearmTrack_machine n k).trans (if_neg h)).trans h1
  · exact ((Dev.rearmTrack_machine _ n k).trans (if_neg h)).trans ((d3.kaoSend_machine n k _).trans h3)

/-- The slice of an internal fault is in LOCKOUT with KENn open. -/
theorem Dev.internalSlice_locks : ((d.internalSlice n).machine n).st = .lockout ∧ ((d.internalSlice n).machine n).ken = false := by
  unfold Dev.internalSlice
  extract_lets old d1 d2 d3
  have hk : (d1.machine n).ken = false := d.kenRelease_opens n
  have hst : (d1.machine n).st = old := by
    have hm : d1.machine n = (d.machine n).released d.el := (d.kenRelease_machine n n).trans (if_pos rfl)
    rw [hm]
    unfold KaoSlice.released
    split <;> rfl
  have h2 : d2.machine n = { d1.machine n with st := .lockout } := ((d1.enterLockout_machine n n false).trans (if_pos rfl) :)
  have h3 : d3.machine n = { d1.machine n with st := .lockout } := by
    unfold d3
    split
    · exact (machine_of_kao (d2.endTripTest_kao n) n).trans h2
    · exact h2
  split
  · next hl =>
    have hr : (d1.rearmTrack n).machine n = _ := (d1.rearmTrack_machine n n).trans (if_pos rfl)
    exact ⟨(congrArg KaoSlice.st hr).trans (hst.trans hl), (congrArg KaoSlice.ken hr).trans hk⟩
  · have hr : ((d3.sendKaoState n old .lockout 8).rearmTrack n).machine n = _ := (Dev.rearmTrack_machine _ n n).trans (if_pos rfl)
    have hs : (d3.sendKaoState n old .lockout 8).machine n = { d1.machine n with st := .lockout } :=
      (d3.kaoSend_machine n n _).trans h3
    exact ⟨(congrArg KaoSlice.st hr).trans (congrArg KaoSlice.st hs),
      (congrArg KaoSlice.ken hr).trans ((congrArg KaoSlice.ken hs).trans hk)⟩

theorem Dev.internalSlice_shared : (d.internalSlice n).kaoShared = d.kaoShared := by
  unfold Dev.internalSlice
  extract_lets old d1 d2 d3
  have h1 : d1.kaoShared = d.kaoShared := d.kenRelease_shared n
  have h2 : d2.kaoShared = d.kaoShared := ((d1.enterLockout_shared n false).trans h1 :)
  have h3 : d3.kaoShared = d.kaoShared := by
    unfold d3
    split
    · exact (d2.endTripTest_shared n).trans h2
    · exact h2
  split
  · exact (d1.updKao_shared n _).trans h1
  · exact (Dev.updKao_shared _ n _).trans ((d3.kaoSend_shared n _).trans h3)
end

/-- The device of an internal fault, before SAFE_OK is looked at. -/
def Dev.internalFailed (d : Dev) (c : KaoInternal) : Dev := (d.modKao fun k => { k with internal := internalCode c }).raiseKao 9

theorem internalCode_ne_zero (c : KaoInternal) : internalCode c ≠ 0 := by cases c <;> exact nofun

/-- Every present slice in LOCKOUT with KENn open. -/
def Dev.internalLocks (e : Dev) : Dev := e.kaoSlices.foldl (fun (acc : Dev) n => acc.internalSlice n) e

theorem Dev.internalLocks_shared (e : Dev) : e.internalLocks.kaoShared = e.kaoShared :=
  foldl_shared _ (fun a n => a.internalSlice_shared n) _ e

theorem Dev.internalLocks_flag {e : Dev} {g u off b : Nat} (hb : b < 16) (h : e.flagBit g u off b = true) :
    e.internalLocks.flagBit g u off b = true :=
  foldl_rel e.kaoSlices _ (fun a _ => a.flagBit g u off b = true) e h fun _ _ ha => Dev.internalSlice_flag hb ha

theorem Dev.internalLocks_machine {e : Dev} {n : Fin 8} (hp : e.present n.val = true) :
    (e.internalLocks.machine n).st = .lockout ∧ (e.internalLocks.machine n).ken = false :=
  foldl_machine_each _ (fun _ => True) (fun _ x => x.st = .lockout ∧ x.ken = false) (fun _ _ _ => trivial)
    (fun a m _ => a.internalSlice_locks m) (fun a m _ hk => a.internalSlice_other m hk) _ e trivial n (mem_kaoSlices hp)

theorem Dev.internalFault_eq (d : Dev) (c : KaoInternal) :
    d.internalFault c = d.watchSafe fun d => (d.internalFailed c).internalLocks := rfl

theorem Dev.internalFault_kao (d : Dev) (c : KaoInternal) : (d.internalFault c).kao = (d.internalFailed c).internalLocks.kao :=
  Dev.watchSafe_kao_eq ..

theorem Dev.internalFault_code (d : Dev) (c : KaoInternal) : (d.internalFault c).kao.internal = internalCode c := by
  rw [Dev.internalFault_kao, Dev.shared_get KaoState.internal (fun _ => rfl) (Dev.internalLocks_shared _)]
  rfl

theorem Dev.internalFault_flag (d : Dev) (c : KaoInternal) : (d.internalFault c).flagBit 6 8 0x18 9 = true := by
  rw [Dev.internalFault_eq]
  exact Dev.watchSafe_flag (by decide) (Dev.internalLocks_flag (by decide) (Dev.flagBit_raise_self _ 6 8 0x18 _ 9 (by decide) (by decide)))

/-- With an internal fault every present slice is in LOCKOUT with KENn open. -/
theorem Dev.internalFault_locks {d : Dev} {n : Fin 8} (hp : d.present n.val = true) (c : KaoInternal) :
    ((d.internalFault c).machine n).st = .lockout ∧ ((d.internalFault c).machine n).ken = false := by
  rw [machine_of_kao (d.internalFault_kao c)]
  exact Dev.internalLocks_machine (e := d.internalFailed c) hp

theorem Dev.internalFault_unsafe (d : Dev) (c : KaoInternal) : (d.internalFault c).safeOk = false := by
  unfold Dev.safeOk
  rw [Dev.internalFault_code, decide_eq_false (internalCode_ne_zero c)]
  rfl

/-! ### The clauses -/

section
variable {d : Dev} {n : Fin 8}

theorem Dev.endResTest_findings (d : Dev) (n : Fin 8) : (d.endResTest n).findings n = d.findings n :=
  congrArg KaoSlice.findings (machine_of_kao (d.endResTest_kao n) n)

theorem Dev.noteResTest_findings (d : Dev) (n : Fin 8) (pass : Bool) : (d.noteResTest n pass).findings n = { d.findings n with
    resRunning := false, resFail := !pass, resValid := (d.findings n).resValid || pass
    resSince := if pass then d.el else (d.findings n).resSince } :=
  (congrArg KaoSlice.findings (d.updKao_self n _ fun _ => rfl)).trans rfl

/-- The result of a residual self-test (R286): the findings it leaves, and its flag where it fails. -/
theorem Dev.testComplete_findings (hr : (d.kao.m[n]).resRunning = true) (pass : Bool) :
    (d.testComplete n pass).findings n = (d.noteResTest n pass).findings n := by
  unfold Dev.testComplete
  rw [if_pos hr, Dev.endResTest_findings, Dev.rawChange_findings]
  cases pass
  · exact congrArg KaoSlice.findings (machine_of_kao (Dev.raise_kao ..) n)
  · rfl

theorem Dev.endResTest_flags (d : Dev) (n : Fin 8) : (d.endResTest n).flags = d.flags := by
  unfold Dev.endResTest
  split
  · exact Dev.endCommand_flags ..
  · rfl

theorem Dev.testComplete_flag (hr : (d.kao.m[n]).resRunning = true) : (d.testComplete n false).flagBit 6 8 0x18 12 = true := by
  have hraise : ((d.noteResTest n false).raiseKao 12).flagBit 6 8 0x18 12 = true :=
    Dev.flagBit_raise_self _ 6 8 0x18 _ 12 (by decide) (by decide)
  have hgo : d.testComplete n false = (((d.noteResTest n false).raiseKao 12).rawChange n 2 true).endResTest n := if_pos hr
  rw [hgo]
  generalize (d.noteResTest n false).raiseKao 12 = e at hraise
  exact Dev.flag_of_flags (Dev.rawChange_keeps_flag (by decide) hraise 2 true) (Dev.endResTest_flags ..)

theorem Dev.imdResult_findings (d : Dev) (n : Fin 8) (kohm : Nat) : (d.imdResult n kohm).findings n = { d.findings n with
    imdAlarm := decide (kohm < d.kao16 n 6), imdWarn := decide (kohm < d.kao16 n 8), imdFault := false
    imdValid := true, imdKohm := min kohm 0xFFFFFF } :=
  (congrArg KaoSlice.findings (d.updKao_self n _ fun _ => rfl)).trans rfl

/-- The device with the result of a settled insulation measurement, before its sources are looked at. -/
def Dev.imdSettled (d : Dev) (n : Fin 8) (kohm : Nat) : Dev :=
  if kohm < d.kao16 n 8 then (d.imdResult n kohm).raiseKao 5 else d.imdResult n kohm

theorem Dev.imdSettled_findings (d : Dev) (n : Fin 8) (kohm : Nat) :
    (d.imdSettled n kohm).findings n = (d.imdResult n kohm).findings n := by
  unfold Dev.imdSettled
  split
  · exact congrArg KaoSlice.findings (machine_of_kao (Dev.raise_kao ..) n)
  · rfl

theorem Dev.imdMeasure_eq {i : Fin 4} {kohm : Nat} (hi : d.imdSlice i = some n) : d.imdMeasure i kohm true =
    ((d.imdSettled n kohm).rawChange n 6 (decide (kohm < d.kao16 n 6))).rawChange n 7 false := by
  unfold Dev.imdMeasure
  rw [hi]
  exact if_pos rfl

/-- A settled insulation measurement (R293). -/
theorem Dev.imdMeasure_settled {i : Fin 4} {kohm : Nat} (hi : d.imdSlice i = some n) :
    (d.imdMeasure i kohm true).findings n = (d.imdResult n kohm).findings n := by
  rw [Dev.imdMeasure_eq hi, Dev.rawChange_findings, Dev.rawChange_findings, Dev.imdSettled_findings]

theorem Dev.imdMeasure_unsettled {i : Fin 4} {kohm : Nat} (hi : d.imdSlice i = some n) :
    (d.imdMeasure i kohm false).findings n = { d.findings n with imdFault := true } := by
  unfold Dev.imdMeasure
  rw [hi]
  exact (Dev.rawChange_findings _ n 7 true).trans (congrArg KaoSlice.findings (d.updKao_self n _ fun _ => rfl))

/-- The end of a forced trip (R331). -/
theorem Dev.forceEnd_ends {src : Fin 16} {t0 : Nat} (hf : (d.kao.m[n]).force = some (src.val, t0))
    (ht : t0 + (d.kaoFilter n src.val * 11 / 10 + 10000000) ≤ d.tim.elapsed) :
    d.forceEnd n = (d.unforce n).rawChange n src (decide (src.val = 6) && (d.kao.m[n]).imdAlarm) := by
  unfold Dev.forceEnd
  rw [hf]
  exact (if_pos (decide_eq_true ht)).trans (dif_pos src.isLt)

theorem Dev.unforce_findings (d : Dev) (n : Fin 8) : (d.unforce n).findings n = { d.findings n with force := none } :=
  (congrArg KaoSlice.findings (d.updKao_self n _ fun _ => rfl)).trans rfl

end

/-- Settles O40: the tests by the findings that no source acts on, the internal fault by its fold over the slices. -/
theorem kaolinMonitors : Obligations.KaolinMonitors := by
  unfold Obligations.KaolinMonitors
  refine fun n s => ⟨fun hp => next_put (if_pos hp), fun hp ho hk hr hrun hdue =>
      next_put (if_pos ⟨hp, ho, (congrArg not hk :), (congrArg not hr :), (congrArg not hrun :), hdue⟩), ?_, fun pass hrun => ?_,
    fun hv ht => next_put (if_pos ⟨hv, decide_eq_true ht⟩), fun hc ht => next_put (if_pos ⟨hc, decide_eq_true ht⟩),
    fun i kohm hi hlt => ?_, fun i kohm hi => ?_, fun cause => ?_, ⟨_, rfl, rfl, rfl⟩, fun src t0 hf ht => ?_⟩
  · unfold Dev.selftestDue
    rw [Bool.or_eq_true, Dev.after_iff]
    exact Iff.rfl
  · have hfind := (Dev.testComplete_findings hrun pass).trans (s.dev.noteResTest_findings n pass)
    refine ⟨s.put (s.dev.testComplete n pass), rfl, Dev.findings_get KaoSlice.resRunning (fun _ => rfl) hfind,
      Dev.findings_get KaoSlice.resValid (fun _ => rfl) hfind, Dev.findings_get KaoSlice.resFail (fun _ => rfl) hfind,
      fun hpass => ?_, fun hpass => ?_⟩
    · exact (Dev.findings_get KaoSlice.resSince (fun _ => rfl) hfind).trans (if_pos hpass)
    · subst hpass
      exact Dev.testComplete_flag hrun
  · have hfind := (Dev.imdMeasure_settled (kohm := kohm) hi).trans (s.dev.imdResult_findings n kohm)
    exact ⟨s.put (s.dev.imdMeasure i kohm true), rfl, Dev.findings_get KaoSlice.imdValid (fun _ => rfl) hfind,
      (Dev.findings_get KaoSlice.imdKohm (fun _ => rfl) hfind).trans (Nat.min_eq_left (Nat.le_sub_one_of_lt hlt)),
      Dev.findings_get KaoSlice.imdAlarm (fun _ => rfl) hfind, Dev.findings_get KaoSlice.imdWarn (fun _ => rfl) hfind,
      Dev.findings_get KaoSlice.imdFault (fun _ => rfl) hfind⟩
  · have hfind := Dev.imdMeasure_unsettled (kohm := kohm) hi
    exact ⟨s.put (s.dev.imdMeasure i kohm false), rfl, Dev.findings_get KaoSlice.imdFault (fun _ => rfl) hfind,
      (Dev.findings_get KaoSlice.imdKohm (fun _ => rfl) hfind).trans rfl,
      (Dev.findings_get KaoSlice.imdValid (fun _ => rfl) hfind).trans rfl⟩
  · exact ⟨s.put (s.dev.internalFault cause), rfl, s.dev.internalFault_code cause, s.dev.internalFault_flag cause,
      s.dev.internalFault_unsafe cause, fun hp => Dev.internalFault_locks hp cause⟩
  · have hend := Dev.forceEnd_ends hf ht
    have hfind : (s.dev.forceEnd n).findings n = _ :=
      (congrArg (fun d => d.findings n) hend).trans ((Dev.rawChange_findings ..).trans (s.dev.unforce_findings n))
    refine ⟨s.put (s.dev.forceEnd n), rfl, Dev.findings_get KaoSlice.force (fun _ => rfl) hfind, fun hoff => ?_⟩
    have hno : (decide (src.val = 6) && (s.dev.kao.m[n]).imdAlarm) = false := by
      rcases hoff with h | h
      · rw [decide_eq_false h]
        rfl
      · rw [h]
        exact Bool.and_false _
    have hst : ((s.dev.unforce n).kao.m[n]).st = (s.dev.kao.m[n]).st :=
      (s.dev.updKao_quiet n (fun x => { x with force := none }) fun _ => ⟨rfl, rfl⟩).2 n |>.1
    show ((s.dev.forceEnd n).kao.m[n]).st = _
    rw [hend, hno, ((s.dev.unforce n).rawChange_quiet n src).2 n |>.1]
    exact hst

end Sys2Proof.Machine
end

section
/-! SUPPORT. The mesh transmitter (R359 to R362, R365, R370, R371, R377, R378). -/

namespace Sys2Proof.Machine

/-! ### Frames on the line (R359, R365) -/

theorem length_bytesBits (bs : List Byte) : (bytesBits bs).length = 8 * bs.length := by
  unfold bytesBits
  rw [List.length_flatMap, List.map_congr_left fun b _ => length_msbBits 8 b.toNat]
  simp [mul_comm]

theorem length_beBytes (n v : Nat) : (beBytes n v).length = n := List.length_reverse.trans (leBytes_length n v)

theorem length_meshHead (f : MeshFrame) : (meshHead f).length = 20 := by
  simp [meshHead, length_beBytes]

theorem length_frameBits (f : MeshFrame) :
    (frameBits f).length = 248 + 8 * f.payload.length + (if meshHasMac f then 64 else 0) := by
  simp only [frameBits, meshBody, List.length_append, length_msbBits, length_bytesBits, length_meshHead, length_beBytes]
  split
  · rw [length_beBytes]
    omega
  · rw [List.length_nil]
    omega

/-! ### The start of a frame (R360, R361) -/

section
variable {d : Dev} {lo hi zx cycles : Nat} {cs : List WordCheck} (hm : d.meshRuns = true) (hz : d.startInstant zx = true)

theorem Dev.senseTones_quiet {j : MeshJob} (hc : d.plc.cur = some j) (hl : lo ≤ 4000) (hh : hi ≤ 4000) : d.senseTones lo hi =
    ({ d with plc := { d.plc with cur := some (d.onAir j), deferCycles := 0 } }).putOnLine (d.onAir j).frame := by
  unfold Dev.senseTones
  rw [hc]
  exact if_neg (by omega)

theorem Dev.senseTones_loud {j : MeshJob} (hc : d.plc.cur = some j) (hl : 4000 < lo ∨ 4000 < hi) :
    (d.senseTones lo hi).plc = { d.plc with
      cur := some { j with k := min (j.k + 1) 5 }, tx := .defer, deferCycles := 1 + Config.freeNat d.fresh % 2 ^ min (j.k + 1) 5 } := by
  unfold Dev.senseTones
  rw [hc]
  exact congrArg Dev.plc (if_pos hl)

include hm hz

theorem Dev.meshTransmit_ack {j : MeshJob} {d1 : Dev} (ha : d.readyFrames.nextAck = some (j, d1)) :
    d.meshTransmit lo hi zx cs = d1.sendAck j := by
  unfold Dev.meshTransmit
  rw [if_pos ⟨hm, hz⟩]
  dsimp only
  rw [ha]

theorem Dev.meshTransmit_senses {j : MeshJob} (ha : d.readyFrames.nextAck = none) (hc : d.readyFrames.plc.cur = some j)
    (ht : d.readyFrames.plc.tx = .idle) (hw : d.readyFrames.plc.awaitAck = none) :
    d.meshTransmit lo hi zx cs = d.readyFrames.senseTones lo hi := by
  unfold Dev.meshTransmit
  rw [if_pos ⟨hm, hz⟩]
  dsimp only
  generalize d.readyFrames = e at ha hc ht hw ⊢
  rw [ha]
  refine (if_pos ⟨ht, congrArg Option.isNone hw⟩).trans ?_
  rw [if_pos (by rw [hc]; rfl)]

theorem Dev.meshDeferEnd_senses (hd : d.plc.tx = .defer) (hk : d.plc.deferCycles ≤ cycles) (ha : d.readyFrames.nextAck = none)
    (ht : d.readyFrames.plc.tx = .defer) : d.meshDeferEnd lo hi zx cycles = d.readyFrames.senseTones lo hi := by
  unfold Dev.meshDeferEnd
  rw [if_pos ⟨hm, hz, hd, hk⟩]
  dsimp only
  generalize d.readyFrames = e at ha ht ⊢
  rw [ha]
  exact if_pos ht
end

/-! ### The end of a frame, and the driver's limit (R361, R362, R370) -/

section
variable {d : Dev} {j : MeshJob}

theorem foldl_lineBit_quiet (k : Nat) : (List.replicate k false).foldl lineBit (.sending, 0) = (.sending, 0) := by
  induction k with
  | zero => rfl
  | succ k ih => exact ih

/-- A frame that runs on without reaching the driver's limit. -/
theorem Dev.lineBits_quiet {k : Nat} (ht : d.plc.tx = .sending) (hl : d.plc.limRun = 0) (hb : d.plc.txBit + k = d.plc.txTones.length) :
    d.lineBits (List.replicate k false) = { d with plc := { d.plc with txBit := d.plc.txTones.length } } := by
  have htake : (List.replicate k false).take (d.plc.txTones.length - d.plc.txBit) = List.replicate k false :=
    List.take_of_length_le (by rw [List.length_replicate]; omega)
  unfold Dev.lineBits
  rw [htake, ht, hl, foldl_lineBit_quiet, List.length_replicate, hb, Nat.min_self]
  dsimp only
  rw [if_neg (by decide), ← ht, ← hl]

/-- The first bit at the driver's limit halves the amplitude, once. -/
theorem Dev.lineBits_limit (ht : d.plc.tx = .sending) (hl : d.plc.limRun = 0) (hb : d.plc.txBit + 1 < d.plc.txTones.length) :
    d.lineBits [true] = { d with plc := { d.plc with tx := .reduced, txBit := d.plc.txBit + 1, txMv := d.plc.txMv / 2 } } := by
  have htake : [true].take (d.plc.txTones.length - d.plc.txBit) = [true] := List.take_of_length_le (by simp; omega)
  unfold Dev.lineBits
  rw [htake, ht, hl, List.length_singleton, Nat.min_eq_right hb.le]
  dsimp only [List.foldl, lineBit]
  rw [if_neg (by decide), if_pos rfl, if_pos (by decide), ← hl]

theorem Dev.lineBits_eighth (ht : d.plc.tx = .reduced) (hl : d.plc.limRun = 7) (hb : d.plc.txBit < d.plc.txTones.length) :
    d.lineBits [true] = { d with plc := { d.plc with limRun := 8, txBit := d.plc.txBit + 1 } } := by
  have htake : [true].take (d.plc.txTones.length - d.plc.txBit) = [true] := List.take_of_length_le (by simp; omega)
  unfold Dev.lineBits
  rw [htake, ht, hl, List.length_singleton, Nat.min_eq_right hb]
  dsimp only [List.foldl, lineBit]
  rw [if_pos rfl, if_neg (by decide), if_pos rfl, if_neg (by decide), ← ht]

/-- What follows the last bit of a frame. -/
def Dev.lineOver (d : Dev) (fault : Bool) : Dev := (d.oneEvent fun d => d.meshLineEnd fault).meshFrameEnd

/-- The end of a frame empties the line; a change of the tone pair that waited takes effect. -/
theorem Dev.meshFrameEnd_plc (d : Dev) : ∃ t, d.meshFrameEnd.plc = { d.plc with stagedAt := t } := by
  unfold Dev.meshFrameEnd
  split
  · exact ⟨_, rfl⟩
  · exact ⟨none, congrArg (fun p : PlcState => { p with stagedAt := none }) (plc_of_part (d.swapUnit_part 8 0))⟩

theorem Dev.meshFrameEnd_flags (d : Dev) : d.meshFrameEnd.flags = d.flags := by
  unfold Dev.meshFrameEnd
  split <;> rfl

theorem Dev.lineOver_plc (d : Dev) (fault : Bool) : ∃ t, (d.lineOver fault).plc = { (d.meshLineEnd fault).plc with stagedAt := t } :=
  Dev.meshFrameEnd_plc _

theorem Dev.meshTxComplete_over {bits : List Bool} {fault : Bool} (ho : d.onLine = true)
    (hf : decide (8 ≤ (d.lineBits bits).plc.limRun) = fault)
    (hb : fault = true ∨ (d.lineBits bits).plc.txTones.length ≤ (d.lineBits bits).plc.txBit) :
    d.meshTxComplete bits = (d.lineBits bits).lineOver fault := by
  subst hf
  exact (if_pos ho).trans (if_pos hb)

theorem Dev.meshTxComplete_on {bits : List Bool} (ho : d.onLine = true) (hf : (d.lineBits bits).plc.limRun < 8)
    (hb : (d.lineBits bits).plc.txBit < (d.lineBits bits).plc.txTones.length) : d.meshTxComplete bits = d.lineBits bits := by
  refine (if_pos ho).trans (if_neg ?_)
  simp only [decide_eq_true_eq]
  omega

theorem Dev.onLine_sending (h : d.plc.tx = .sending) : d.onLine = true := by
  unfold Dev.onLine
  rw [h]
  rfl

theorem Dev.onLine_reduced (h : d.plc.tx = .reduced) : d.onLine = true := by
  unfold Dev.onLine
  rw [h]
  rfl

/-- A frame that asks for an acknowledgement is waited for when it has been sent (R370). -/
theorem Dev.meshLineEnd_waits (ha : d.plc.ack = none) (hc : d.plc.cur = some j) (ht : d.plc.tx = .sending)
    (hflag : j.frame.flags.getLsbD 0 = true) (hd : j.frame.ldst ≠ 0xFFFF) :
    (d.meshLineEnd false).plc = { d.plc with
      txTones := [], tx := .idle, awaitAck := some d.el, cur := some { j with attempts := j.attempts + 1, degraded := false } } := by
  unfold Dev.meshLineEnd
  rw [ha, hc]
  have hdeg : decide (d.plc.tx = .reduced) = false := decide_eq_false (by rw [ht]; decide)
  dsimp only
  rw [if_neg (by decide), hdeg]
  unfold Dev.sentFrame
  rw [if_pos ⟨hflag, hd⟩]
  unfold Dev.countSent
  rw [if_neg (by decide)]
  rfl

/-- The driver's fault ends the frame in hand (R362). -/
theorem Dev.finishJob_plain (hc : d.plc.cur = some j) (hf : j.frag = false) (ho : j.own = false) (status : Nat) :
    d.finishJob status = { d with plc := { d.plc with cur := none, awaitAck := none, tx := .idle } } := by
  unfold Dev.finishJob
  rw [hc]
  dsimp only
  rw [if_neg (by rw [hf]; decide), if_neg (by rw [ho]; decide)]

theorem Dev.meshLineEnd_fault (ha : d.plc.ack = none) (hc : d.plc.cur = some j) (ho : j.own = false) (hf : j.frag = false) :
    (d.meshLineEnd true).plc = { d.plc with cur := none, awaitAck := none, tx := .idle, txTones := [] } ∧
      (d.meshLineEnd true).flagBit 8 0 0x14 4 = true := by
  unfold Dev.meshLineEnd
  rw [ha, hc]
  dsimp only
  rw [if_pos rfl]
  refine ⟨?_, Dev.flagBit_raise_self _ 8 0 0x14 24 4 (by decide) (by decide)⟩
  rw [Dev.raise_plc, Dev.finishJob_plain (j := { j with attempts := j.attempts + 1, degraded := decide (d.plc.tx = .reduced) }) rfl hf ho]
  rfl

/-! ### No acknowledgement (R370) -/

/-- What an origination leaves: the frame in hand and the neighbours. -/
def Dev.inHand (d : Dev) : Option MeshJob × Option Nat × List Neighbour := (d.plc.cur, d.plc.awaitAck, d.plc.nbrs)

theorem Dev.inHand_of_plc {d e : Dev} {p : PlcState} (h : e.plc = p) (hp : (p.cur, p.awaitAck, p.nbrs) = d.inHand) : e.inHand = d.inHand :=
  (congrArg (fun p : PlcState => (p.cur, p.awaitAck, p.nbrs)) h).trans hp

theorem Dev.meshId_inHand (d : Dev) : d.meshId.2.inHand = d.inHand := by
  have hid : (d.issueId 11).2.inHand = d.inHand := Dev.inHand_of_plc (plc_of_part (Dev.issueId_part (by decide) d 11)) rfl
  unfold Dev.meshId
  split
  case _ w e he =>
    rw [he] at hid
    exact hid
  case _ e he =>
    rw [he] at hid
    split <;> exact hid

theorem Dev.holdOrig_inHand (d : Dev) (o : MeshOrig) : (d.holdOrig o).inHand = d.inHand := by
  unfold Dev.holdOrig
  split <;> rfl

theorem Dev.originate_inHand (d : Dev) (ty : Nat) (ldst dest : BitVec 16) (cost hops : Nat) :
    (d.originate ty ldst dest cost hops).inHand = d.inHand := by
  have hid := d.meshId_inHand
  unfold Dev.originate Dev.originateNow
  dsimp only
  split
  case _ e he =>
    rw [he] at hid
    exact (e.holdOrig_inHand _).trans hid
  case _ w e he =>
    rw [he] at hid
    exact hid

theorem Dev.plcSend_plc (d : Dev) (ws : List QData) (flag : Nat) : (d.plcSend ws flag).plc = d.plc :=
  plc_of_part (Dev.plcSend_part (by decide) ..)

/-- A frame that ends leaves nothing in hand. -/
theorem Dev.finishJob_inHand (hc : d.plc.cur = some j) (hf : j.frag = false) (status : Nat) :
    (d.finishJob status).inHand = (none, none, d.plc.nbrs) := by
  unfold Dev.finishJob
  rw [hc]
  dsimp only
  rw [if_neg (by rw [hf]; decide)]
  split
  · exact congrArg (fun p : PlcState => (p.cur, p.awaitAck, p.nbrs)) (Dev.plcSend_plc _ _ _)
  · rfl

/-- The neighbours after a link was tried. -/
def triedNbrs (ns : List Neighbour) (a : BitVec 16) (v : Rat) : List Neighbour :=
  ns.map fun x => if x.addr = a then { x with fail := x.fail + (v - x.fail) / 8 } else x

theorem Dev.linkTried_plc (d : Dev) (a : BitVec 16) (v : Rat) :
    ∃ rs, (d.linkTried a v).plc = { d.plc with nbrs := triedNbrs d.plc.nbrs a v, routes := rs } := Dev.relinked_plc _ d

theorem find_triedNbrs (ns : List Neighbour) (a : BitVec 16) (v : Rat) {x : Neighbour} (h : (ns.find? fun x => x.addr = a) = some x) :
    ((triedNbrs ns a v).find? fun x => x.addr = a) = some { x with fail := x.fail + (v - x.fail) / 8 } := by
  induction ns with
  | nil => exact absurd h nofun
  | cons y ys ih =>
    unfold triedNbrs
    rw [List.map_cons]
    by_cases hy : y.addr = a
    · rw [List.find?_cons_of_pos (by simpa using hy)] at h
      obtain rfl := Option.some.inj h
      rw [if_pos hy]
      exact List.find?_cons_of_pos (by simpa using hy)
    · rw [List.find?_cons_of_neg (by simpa using hy)] at h
      rw [if_neg hy]
      exact (List.find?_cons_of_neg (by simpa using hy)).trans (ih h)

/-- The last attempt of a frame lifts its link's failure estimate and gives the frame up. -/
theorem Dev.ackTimeout_gives_up {t0 : Nat} (hc : d.plc.cur = some j) (hw : d.plc.awaitAck = some t0)
    (ht : t0 + 50000000 ≤ d.tim.elapsed) (hj : 4 ≤ j.attempts) (hf : j.frag = false) :
    d.ackTimeout.inHand = (none, none, triedNbrs d.plc.nbrs j.frame.ldst 1) := by
  obtain ⟨rs, hplc⟩ := d.linkTried_plc j.frame.ldst 1
  have hin : ((d.linkTried j.frame.ldst 1).finishJob 2).inHand = (none, none, triedNbrs d.plc.nbrs j.frame.ldst 1) := by
    rw [Dev.finishJob_inHand (j := j) (by rw [hplc]; exact hc) hf, hplc]
  have hev : (d.oneEvent fun d => (d.linkTried j.frame.ldst 1).finishJob 2).inHand = _ := hin
  unfold Dev.ackTimeout
  rw [hc, hw]
  dsimp only
  rw [if_pos ((d.after_iff t0 (ms 50)).2 ht), if_neg (by omega)]
  generalize (d.oneEvent fun d => (d.linkTried j.frame.ldst 1).finishJob 2) = e at hev ⊢
  split
  · exact hev
  · split
    · exact (e.originate_inHand ..).trans hev
    · exact hev

end

/-- Settles O45: each event by the lemma of its operation. -/
theorem meshTransmitter : Obligations.MeshTransmitter := by
  unfold Obligations.MeshTransmitter
  refine ⟨fun d f => ⟨rfl, rfl, rfl, fun hl => ?_⟩, fun s => ⟨fun lo hi zx cs hm hz => ⟨fun a d1 ha => ?_, fun j ha hc =>
      ⟨fun ht hw => ⟨fun hl hh => ?_, fun hl => ?_⟩, fun cycles hd hk ht hl hh => ?_⟩⟩,
    fun j hc ha => ⟨fun k ht hl hb hflag hldst => ?_, fun ht hl hb => ?_, fun ht hl hb ho hf => ?_⟩,
    fun j t0 hc hw ht => ⟨fun hj => ?_, fun hj hf => ?_⟩, fun hm ht => ?_, fun t0 hm hst ht => ?_,
    fun q cs m ms ws d2 hm hbl hcons hmsg hty hs htake hp => ?_⟩⟩
  · rw [length_frameBits]
    split <;> omega
  · exact next_put (Dev.meshTransmit_ack hm hz ha)
  · exact next_put ((Dev.meshTransmit_senses hm hz ha hc ht hw).trans (Dev.senseTones_quiet hc hl hh))
  · have hplc := Dev.senseTones_loud hc hl
    refine ⟨_, next_put (Dev.meshTransmit_senses hm hz ha hc ht hw), congrArg PlcState.tx hplc,
      (congrArg PlcState.deferCycles hplc).symm ▸ Nat.le_add_right 1 _, ?_, congrArg PlcState.cur hplc⟩
    have hlt := Nat.mod_lt (Config.freeNat s.dev.readyFrames.fresh) (Nat.two_pow_pos (min (j.k + 1) 5))
    exact (congrArg PlcState.deferCycles hplc).trans_le ((Nat.add_comm ..).trans_le hlt)
  · exact next_put ((Dev.meshDeferEnd_senses hm hz hd hk ha ht).trans (Dev.senseTones_quiet hc hl hh))
  · have hbits := Dev.lineBits_quiet ht hl hb
    have hover : s.dev.meshTxComplete (List.replicate k false) = (s.dev.lineBits (List.replicate k false)).lineOver false :=
      Dev.meshTxComplete_over (Dev.onLine_sending ht) (by rw [hbits]; exact decide_eq_false (by rw [hl]; decide))
        (.inr (by rw [hbits]))
    obtain ⟨st, hplc⟩ := (s.dev.lineBits (List.replicate k false)).lineOver_plc false
    have hend := Dev.meshLineEnd_waits (d := s.dev.lineBits (List.replicate k false)) (by rw [hbits]; exact ha) (by rw [hbits]; exact hc)
      (by rw [hbits]; exact ht) hflag hldst
    rw [hend] at hplc
    refine ⟨_, next_put hover, (congrArg PlcState.awaitAck hplc).trans ?_, congrArg PlcState.tx hplc, congrArg PlcState.cur hplc⟩
    rw [hbits]
    rfl
  · have hbits := Dev.lineBits_limit ht hl hb
    have hon : s.dev.meshTxComplete [true] = s.dev.lineBits [true] := by
      refine Dev.meshTxComplete_on (Dev.onLine_sending ht) ?_ ?_ <;> rw [hbits]
      · exact hl.trans_lt (by decide)
      · exact hb
    exact next_put (hon.trans hbits)
  · have hbits := Dev.lineBits_eighth ht hl hb
    have hover : s.dev.meshTxComplete [true] = (s.dev.lineBits [true]).lineOver true :=
      Dev.meshTxComplete_over (Dev.onLine_reduced ht) (by rw [hbits]; rfl) (.inl rfl)
    obtain ⟨st, hplc⟩ := (s.dev.lineBits [true]).lineOver_plc true
    obtain ⟨hend, hflag⟩ := Dev.meshLineEnd_fault (d := s.dev.lineBits [true]) (by rw [hbits]; exact ha) (by rw [hbits]; exact hc) ho hf
    rw [hend] at hplc
    refine ⟨_, next_put hover, congrArg PlcState.cur hplc, congrArg PlcState.tx hplc, congrArg PlcState.txTones hplc, ?_⟩
    refine (Dev.flagBit_congr (Dev.meshFrameEnd_flags _) ..).trans ?_
    rw [Dev.flagBit_oneEvent]
    exact hflag
  · refine next_put ?_
    unfold Dev.ackTimeout
    rw [hc, hw]
    exact (if_pos (decide_eq_true ht)).trans (if_pos hj)
  · have hin := Dev.ackTimeout_gives_up hc hw ht hj hf
    refine ⟨s.put s.dev.ackTimeout, rfl, congrArg (·.1) hin, congrArg (·.2.1) hin, fun x hx => ?_⟩
    have hnbrs : s.dev.ackTimeout.plc.nbrs = triedNbrs s.dev.plc.nbrs j.frame.ldst 1 := congrArg (·.2.2) hin
    show (s.dev.ackTimeout.nbr j.frame.ldst).map (·.fail) = _
    unfold Dev.nbr
    rw [hnbrs, find_triedNbrs _ _ _ hx]
    rfl
  · exact next_put (if_pos ⟨hm, decide_eq_true ht⟩)
  · refine next_put ?_
    unfold Dev.pairBeacon
    rw [hst]
    exact if_pos ⟨hm, decide_eq_true ht⟩
  · refine next_put ?_
    unfold Dev.meshReading
    rw [if_pos ⟨hm, congrArg Option.isNone hbl, hcons⟩]
    dsimp only
    rw [hmsg]
    refine (if_pos ⟨hty, hs⟩).trans ?_
    rw [htake]
    exact if_neg (ne_true_of_eq_false hp)

end Sys2Proof.Machine
end

section
/-! SUPPORT. Card polls and exchanges (R417, R418, R441). -/

namespace Sys2Proof.Machine

theorem tag_of_part {d e : Dev} (h : e.part .tag = d.part .tag) : e.tag = d.tag := h

/-! ### Polls (R417) -/

section
variable {d : Dev} (hrun : d.tag.rdr.st = .running) (hst : d.tag.rdrSt = .idle)
  (hdue : d.tag.pollDue = true ∨ d.tag.lastPoll + 10 * d.rfld 11 0 4 31 24 * 1000000 ≤ d.tim.elapsed)

/-- The device once a poll has begun. -/
def Dev.polled (d : Dev) : Dev := { d with tag := { d.tag with lastPoll := d.el, pollDue := false } }

theorem Dev.cardSeen_tag (d : Dev) (c : Card) : (d.cardSeen c).tag = d.tag := tag_of_part (Dev.cardSeen_part (by decide) d c)

/-- A card that no earlier poll has seen is reported and held. -/
theorem Dev.pollFound_new {c : Card} (h : ∀ e ∈ d.tag.seen, e.1 ≠ c.uid) :
    (d.pollFound c).tag = { d.tag with
      rdrSt := .exchange, card := some c, seen := answeredCards d.tag.seen c.uid, tRdr := d.el, rfField := true } ∧
    (d.pollFound c).flagBit 11 3 0 0 = true := by
  have hnew : (d.tag.seen.any fun (e : List Byte × Nat) => e.1 = c.uid) = false := by
    rw [List.any_eq_false]
    exact fun e he => by simpa using h e he
  unfold Dev.pollFound
  dsimp only
  rw [if_neg (ne_true_of_eq_false hnew)]
  refine ⟨?_, Dev.flagBit_raise_self _ 11 3 0 _ 0 (by decide) (by decide)⟩
  exact congrArg (fun t : TagState => { t with
    rdrSt := .exchange, card := some c, seen := answeredCards d.tag.seen c.uid, tRdr := d.el, rfField := true }) (d.cardSeen_tag c)

include hrun hst hdue

theorem Dev.readerPoll_runs (card : Option Card) : d.readerPoll card = if d.polled.tag.field then d.polled.raiseTag 8 else
    match card with
    | some c => if d.polled.cardEnabled c then d.polled.pollFound c else d.polled.pollMissed
    | none => d.polled.pollMissed :=
  if_pos ⟨decide_eq_true hrun, hst, hdue.imp_right fun h => decide_eq_true h⟩

theorem Dev.readerPoll_finds {c : Card} (hf : d.tag.field = false) (hc : d.cardEnabled c = true) :
    d.readerPoll (some c) = d.polled.pollFound c :=
  (Dev.readerPoll_runs hrun hst hdue _).trans ((if_neg (ne_true_of_eq_false hf)).trans (if_pos hc))

theorem Dev.readerPoll_misses (hf : d.tag.field = false) : d.readerPoll none = d.polled.pollMissed :=
  (Dev.readerPoll_runs hrun hst hdue _).trans (if_neg (ne_true_of_eq_false hf))

theorem Dev.readerPoll_heldOff (hf : d.tag.field = true) (card : Option Card) : d.readerPoll card = d.polled.raiseTag 8 :=
  (Dev.readerPoll_runs hrun hst hdue _).trans (if_pos hf)
end

/-! ### Exchanges (R418, R441) -/

section
variable {d d1 : Dev} {q : Fin 64} {cs : List WordCheck} {ws : List QData} (hst : d.tag.rdrSt = .exchange)
  (hcons : d.que.q[q].entry.cons = 7) (hs : d.serves q = true) (ht : d.takeMsg q cs = (some ws, d1)) (hty : hdrType (msgHead ws) = 0x62)
include hst hcons hs ht hty

theorem Dev.readerExchange_ends (hl : bits (ws.getD 1 0).toNat 63 48 = 0) (answer : CardAnswer) :
    d.readerExchange q cs answer = d1.rdrFieldOff := by
  unfold Dev.readerExchange
  rw [if_pos ⟨hst, hcons, hs⟩, ht]
  exact (if_neg fun h => h hty).trans (if_pos hl)

theorem Dev.readerExchange_answers (hl : bits (ws.getD 1 0).toNat 63 48 ≠ 0) (answer : CardAnswer) :
    d.readerExchange q cs answer = match answer with
      | .bytes b => { d1.rdrRx 0 b with tag := { (d1.rdrRx 0 b).tag with tRdr := d.el } }
      | .error => d1.exchangeFail 2
      | .lost => d1.exchangeFail 3
      | .silent => { d1 with tag := { d1.tag with rdrSt := .awaiting, tRdr := d.el } } := by
  unfold Dev.readerExchange
  rw [if_pos ⟨hst, hcons, hs⟩, ht]
  exact (if_neg fun h => h hty).trans ((if_neg hl).trans (by rfl))
end

theorem Dev.rdrRx_tag (d : Dev) (k : Nat) (bs : List Byte) : (d.rdrRx k bs).tag = d.tag := tag_of_part (Dev.rdrRx_part (by decide) d k bs)

theorem Dev.takeMsg_tag {d d1 : Dev} {q : Fin 64} {cs : List WordCheck} {o : Option (List QData)} (h : d.takeMsg q cs = (o, d1)) :
    d1.tag = d.tag := tag_of_part (part_of_eq h (Dev.takeMsg_part (by decide) ..))

/-- Settles O48: each event by the branch that its conditions name. -/
theorem cardReader : Obligations.CardReader := by
  unfold Obligations.CardReader
  refine fun s => ⟨fun hrun hst hdue => ⟨fun c hf hc hnew => ?_, fun hf => ?_, fun card hf => ?_⟩, fun ag hr hrun hf => ?_,
    fun hst => ⟨fun q cs ws d1 hcons hs ht hty => ⟨fun hl answer => next_put (Dev.readerExchange_ends hst hcons hs ht hty hl answer),
      fun hl => ⟨fun bs => ?_, next_put (Dev.readerExchange_answers hst hcons hs ht hty hl .error),
        next_put (Dev.readerExchange_answers hst hcons hs ht hty hl .lost), ?_⟩⟩, fun ht => ?_⟩, fun hst ht => ?_⟩
  · obtain ⟨htag, hflag⟩ := Dev.pollFound_new (d := s.dev.polled) (c := c) hnew
    refine ⟨_, next_put (Dev.readerPoll_finds hrun hst hdue hf hc), congrArg TagState.rdrSt htag, congrArg TagState.card htag, ?_,
      congrArg TagState.rfField htag, congrArg TagState.lastPoll htag, hflag⟩
    exact congrArg (fun t : TagState => t.seen.head?) htag
  · exact ⟨_, next_put (Dev.readerPoll_misses hrun hst hdue hf), rfl, rfl, rfl⟩
  · exact ⟨_, next_put (Dev.readerPoll_heldOff hrun hst hdue hf card), Dev.flagBit_raise_self _ 11 3 0 _ 8 (by decide) (by decide), hst,
      rfl⟩
  · refine next_put (issueCommand_ok hr ?_)
    have hstate : s.dev.rdrState ≠ 3 := by
      unfold Dev.rdrState
      rw [hf]
      split
      · decide
      · rw [if_neg fun h => nomatch h.2]
        decide
    exact (if_neg (not_not_intro rfl)).trans (if_pos ⟨decide_eq_true hrun, hstate⟩)
  · have htag := (Dev.rdrRx_tag d1 0 bs).trans (Dev.takeMsg_tag ht)
    exact ⟨_, next_put (Dev.readerExchange_answers hst hcons hs ht hty hl (.bytes bs)), rfl, (congrArg TagState.rdrSt htag).trans hst⟩
  · exact ⟨_, next_put (Dev.readerExchange_answers hst hcons hs ht hty hl .silent), rfl, rfl⟩
  · refine next_put ?_
    unfold Dev.readerTimeout
    rw [hst]
    exact if_pos (decide_eq_true ht)
  · refine next_put ?_
    unfold Dev.readerTimeout
    rw [hst]
    exact if_pos (decide_eq_true ht)

end Sys2Proof.Machine
end

section
/-! SUPPORT. The service field and session (R419, R424 to R430). -/

namespace Sys2Proof.Machine

section
variable (d : Dev)

theorem Dev.svcEvent_tag (ev cause : Nat) : (d.svcEvent ev cause).tag = d.tag := tag_of_part (Dev.svcEvent_part (by decide) d ev cause)

theorem Dev.useKey_tag (k : Fin 64) : (d.useKey k).tag = d.tag := tag_of_part (Dev.useKey_part (by decide) d k)

/-! ### What runs, and what a message leaves of it -/

theorem Dev.runs_of_islandRun {d e : Dev} (h : e.islandRun = d.islandRun) (i : Nat) : e.runs i = d.runs i :=
  congrArg (fun r : BitVec 16 => r.getLsbD i) h

theorem Dev.commit_islandRun (q : Fin 64) (ws : List QData) : (d.commit q ws).islandRun = d.islandRun := by
  have hn : ((d.enqueue q ws).notice q).islandRun = d.islandRun := by
    unfold Dev.notice
    dsimp only
    split <;> rfl
  rcases d.commit_cases q ws with h | h <;> rw [h]
  · rfl
  · exact hn

theorem Dev.produce_islandRun (q : Fin 64) (ws : List QData) : (d.produce q ws).islandRun = d.islandRun := by
  unfold Dev.produce
  dsimp only
  split
  · rfl
  split
  · exact d.commit_islandRun q ws
  split <;> rfl

theorem Dev.svcEvent_islandRun (ev cause : Nat) : (d.svcEvent ev cause).islandRun = d.islandRun := by
  unfold Dev.svcEvent Dev.svcSend
  split
  · exact d.produce_islandRun ..
  · rfl

/-! ### The field (R419) -/

/-- A supply that comes back recovers the store, and nothing else of the tag that a field shows. -/
theorem Dev.tagSupplyUp_islandRun : d.tagSupplyUp.islandRun = d.islandRun := by
  unfold Dev.tagSupplyUp Dev.tagRecovery
  split
  · split
    · rfl
    · split
      · rfl
      · dsimp only
        split <;> rfl
  · rfl

/-- The tag of a field that has come. -/
def Dev.fieldShown (d : Dev) : Dev :=
  ({ d with tag := { d.tag with
      field := true, fdet := false, authFails := 0, active := false
      locked := d.tag.locked && !d.after d.tag.tFieldLost (sec 1) } }).setRun 14 true

theorem Dev.fieldOn_eq (h : d.tag.field = false) : d.fieldOn = (d.tagSupplyUp.fieldShown.svcEvent 0 0).raiseTag 1 :=
  if_neg (ne_true_of_eq_false h)

theorem Dev.fieldShown_event (ev cause : Nat) : (d.fieldShown.svcEvent ev cause).tag.field = true ∧
    (d.fieldShown.svcEvent ev cause).tag.fdet = false ∧ (d.fieldShown.svcEvent ev cause).runs 14 = true := by
  have htag := d.fieldShown.svcEvent_tag ev cause
  refine ⟨congrArg TagState.field htag, congrArg TagState.fdet htag, ?_⟩
  exact (Dev.runs_of_islandRun (d.fieldShown.svcEvent_islandRun ev cause) 14).trans
    ((Dev.setRun_runs _ 14 14 true (by decide)).trans (if_pos rfl))

theorem Dev.fieldOff_eq (h : d.tag.field = true) :
    d.fieldOff = ({ (d.endSession 1) with tag := { (d.endSession 1).tag with
      field := false, active := false, authFails := 0, pendAuth := none, tFieldLost := d.el } }.setRun 14 false).svcEvent 1 0 := if_pos h

/-- The loss of the field ends the session and stops the island; the store stays. -/
theorem Dev.fieldOff_gone (h : d.tag.field = true) :
    d.fieldOff.tag.field = false ∧ d.fieldOff.tag.sess = none ∧ d.fieldOff.runs 14 = false ∧ d.fieldOff.tag.tFieldLost = d.el ∧
      d.fieldOff.tag.store = d.tag.store := by
  obtain ⟨hsess, hstore⟩ := d.endSession_tag 1
  rw [Dev.fieldOff_eq d h]
  generalize d.endSession 1 = e at hsess hstore
  have htag := Dev.svcEvent_tag ({ e with tag := { e.tag with
    field := false, active := false, authFails := 0, pendAuth := none, tFieldLost := d.el } }.setRun 14 false) 1 0
  refine ⟨congrArg TagState.field htag, (congrArg TagState.sess htag).trans hsess, ?_, congrArg TagState.tFieldLost htag,
    (congrArg TagState.store htag).trans hstore⟩
  exact (Dev.runs_of_islandRun (Dev.svcEvent_islandRun _ 1 0) 14).trans
    ((Dev.setRun_runs _ 14 14 false (by decide)).trans (if_pos rfl))
end

/-! ### Authentication (R426 to R428) -/

section
variable {d : Dev} (ho : d.tagOn = true) (hs : d.tag.sess = none) (hsup : d.tag.supply ≠ 2) (hm : d.mutualAes = true)
include ho hs hsup hm

theorem Dev.auth1_answers {k rH : BitVec 128} (hk : d.tagKey = some k) (hl : d.tag.locked = false) :
    ∃ rD, (d.auth1 rH).tag.pendAuth = some (rH, rD) ∧
      (d.auth1 rH).tag.reply = 0 :: (beBytes 16 rD.toNat ++ beBytes 16 (Config.aes k (beBytes 16 rH.toNat)).toNat) := by
  have htag : (d.drawWide.2).tag = d.tag := tag_of_part (Dev.drawWide_part d)
  have hgo : d.auth1 rH = (({ d.drawWide.2 with
      tag := { d.drawWide.2.tag with pendAuth := some (rH, aesOf d.drawWide.1) } }).useKey 8).tagReply
        (stOk :: (beBytes 16 (aesOf d.drawWide.1).toNat ++ beBytes 16 (Config.aes k (beBytes 16 rH.toNat)).toNat)) := by
    unfold Dev.auth1
    rw [if_neg (by rw [ho]; decide), hs, if_neg (by decide), if_neg (by rw [hm]; exact fun h => h.elim hsup nofun), hk]
    exact if_neg (ne_true_of_eq_false hl)
  have hkey := Dev.useKey_tag { d.drawWide.2 with tag := { d.drawWide.2.tag with pendAuth := some (rH, aesOf d.drawWide.1) } } 8
  rw [hgo]
  exact ⟨aesOf d.drawWide.1, congrArg TagState.pendAuth hkey, rfl⟩

/-- The session that AUTH2 opens. -/
def Dev.openedSession (d : Dev) (k rH rD : BitVec 128) : SvcSession :=
  { rH := rH, rD := rD, ks := Config.aes k ((beBytes 16 rH.toNat).take 8 ++ (beBytes 16 rD.toNat).take 8), rxCtr := 0, txCtr := 0
    frames := 0, tLast := d.el }

/-- The device with its session just opened. -/
def Dev.opened (d : Dev) (x : SvcSession) : Dev :=
  { (d.tagReply [stOk]) with tag := { (d.tagReply [stOk]).tag with pendAuth := none, sess := some x, sharedMap := d.sharedNow } }

theorem Dev.auth2_opens {k rH rD : BitVec 128} (hk : d.tagKey = some k) (hp : d.tag.pendAuth = some (rH, rD)) :
    d.auth2 (Config.aes k (beBytes 16 rD.toNat)) =
      ((((d.opened (d.openedSession k rH rD)).useKey 8).useKey 8).svcEvent 2 0).raiseTag 2 := by
  unfold Dev.auth2
  rw [if_neg (by rw [ho]; decide), hs, if_neg (by decide), if_neg (by rw [hm]; exact fun h => h.elim hsup nofun), hk, hp]
  exact if_pos rfl

theorem Dev.auth2_fails {k rH rD a : BitVec 128} (hk : d.tagKey = some k) (hp : d.tag.pendAuth = some (rH, rD))
    (ha : a ≠ Config.aes k (beBytes 16 rD.toNat)) : d.auth2 a = (d.useKey 8).auth2Failed := by
  unfold Dev.auth2
  rw [if_neg (by rw [ho]; decide), hs, if_neg (by decide), if_neg (by rw [hm]; exact fun h => h.elim hsup nofun), hk, hp]
  exact if_neg ha.symm
end

section
variable {d : Dev}

theorem Dev.opened_events (x : SvcSession) : ((((d.opened x).useKey 8).useKey 8).svcEvent 2 0).tag = (d.opened x).tag :=
  (Dev.svcEvent_tag ..).trans ((Dev.useKey_tag ..).trans (Dev.useKey_tag ..))

/-- An authentication that fails is counted; the third one locks the tag. -/
theorem Dev.auth2Failed_tag (hs : d.tag.sess = none) : d.auth2Failed.tag.sess = none ∧ d.auth2Failed.tag.reply = [5] ∧
    d.auth2Failed.flagBit 11 3 0 4 = true ∧ (2 ≤ d.tag.authFails → d.auth2Failed.tag.locked = true) := by
  refine ⟨(Option.map_eq_none_iff (f := fun x : SvcSession => ({ x with txCtr := x.txCtr + 1 } : SvcSession))).2 hs, rfl,
    Dev.flagBit_raise_self _ 11 3 0 _ 4 (by decide) (by decide), fun h => ?_⟩
  have hn : 3 ≤ satAdd 8 d.tag.authFails 1 := by
    unfold satAdd
    omega
  show (d.tag.locked || decide (3 ≤ satAdd 8 d.tag.authFails 1)) = true
  rw [decide_eq_true hn, Bool.or_true]

/-- A session frame whose counter or tag is wrong is dropped (R430). -/
theorem Dev.fieldCommand_dropped {x : SvcSession} {p : SvcProt} {msg : List Byte} (ho : d.tagOn = true) (hs : d.tag.sess = some x)
    (ha : x.accepts p msg = false) (h : Bool → Dev → Dev) : d.fieldCommand p msg h = d.count 11 1 8 31 16 := by
  have hf : d.sessionFrame x p msg = none := if_neg (ne_true_of_eq_false ha)
  unfold Dev.fieldCommand
  rw [if_neg (by rw [ho]; decide), hs]
  dsimp only
  rw [hf]
  rfl
end

/-- Settles O49: each event by the branch that its conditions name. -/
theorem serviceSession : Obligations.ServiceSession := by
  unfold Obligations.ServiceSession
  refine fun s => ⟨fun hf => ?_, fun hf => ⟨s.put s.dev.fieldOff, rfl, s.dev.fieldOff_gone hf⟩, fun hf hd ht => next_put
      (if_pos ⟨(congrArg not hf :), (congrArg not hd :), decide_eq_true ht⟩),
    fun ho => ⟨next_put (if_pos ho), fun hs hsup hm => ⟨fun k rH hk hl => ?_, fun k rH rD hk hp => ⟨?_, fun a ha => ?_⟩⟩,
      fun x blk p hs ha => next_put (Dev.fieldCommand_dropped ho hs ha _)⟩,
    fun x hs ht => ?_, fun ag hr hs => ?_, fun cause => (s.dev.endSession_tag cause).1⟩
  · obtain ⟨hfield, hfdet, hruns⟩ := s.dev.tagSupplyUp.fieldShown_event 0 0
    exact ⟨_, next_put (s.dev.fieldOn_eq hf), hfield, hfdet, hruns, Dev.flagBit_raise_self _ 11 3 0 _ 1 (by decide) (by decide)⟩
  · obtain ⟨rD, hpend, hreply⟩ := Dev.auth1_answers (rH := rH) ho hs hsup hm hk hl
    exact ⟨s.put (s.dev.auth1 rH), rD, rfl, hpend, hreply⟩
  · have htag := Dev.opened_events (d := s.dev) (s.dev.openedSession k rH rD)
    exact ⟨_, s.dev.openedSession k rH rD, next_put (Dev.auth2_opens ho hs hsup hm hk hp), congrArg TagState.sess htag, rfl, rfl,
      congrArg TagState.pendAuth htag, congrArg TagState.reply htag, Dev.flagBit_raise_self _ 11 3 0 _ 2 (by decide) (by decide)⟩
  · have hkey := s.dev.useKey_tag 8
    obtain ⟨hsess, hreply, hflag, hlock⟩ := Dev.auth2Failed_tag (d := s.dev.useKey 8) ((congrArg TagState.sess hkey).trans hs)
    exact ⟨_, next_put (Dev.auth2_fails ho hs hsup hm hk hp ha), hsess, hreply, hflag,
      fun h => hlock (h.trans_eq (congrArg TagState.authFails hkey).symm)⟩
  · refine next_put ?_
    unfold Dev.sessionIdle
    rw [hs]
    exact if_pos (decide_eq_true ht)
  · exact next_put (issueCommand_ok hr ((if_neg (not_not_intro rfl)).trans (if_pos hs)))

end Sys2Proof.Machine
end

section
/-! SUPPORT. The commands of an open service session (R430, R431, R433, R437 to R440), and blocks of the tag store. -/

namespace Sys2Proof.Machine

/-! ### Blocks of the store (R431) -/

theorem findBlk_cons (a b : Nat) (u : BitVec 256) (m : List (Nat × BitVec 256)) :
    findBlk ((a, u) :: m) b = if b = a then u else findBlk m b := if_congr eq_comm rfl rfl

theorem findBlk_putBlk (m : List (Nat × BitVec 256)) (k b : Nat) (v : BitVec 256) :
    findBlk (putBlk m k v) b = if b = k then v else findBlk m b := by
  induction m with
  | nil => exact findBlk_cons k b v []
  | cons e m ih =>
    obtain ⟨a, u⟩ := e
    unfold putBlk
    split
    · exact findBlk_cons k b v _
    split
    case _ _ hk =>
      subst hk
      rw [findBlk_cons, findBlk_cons]
      split <;> rfl
    case _ _ hne =>
      rw [findBlk_cons, findBlk_cons, ih]
      by_cases ha : b = a
      · rw [if_pos ha, if_pos ha, if_neg fun h => hne (h.symm.trans ha)]
      · rw [if_neg ha, if_neg ha]

theorem findBlk_filter_ne (m : List (Nat × BitVec 256)) (k b : Nat) :
    findBlk (m.filter fun e => e.1 ≠ k) b = if b = k then 0 else findBlk m b := by
  induction m with
  | nil => exact (ite_self _).symm
  | cons e m ih =>
    obtain ⟨a, u⟩ := e
    rw [List.filter_cons, findBlk_cons]
    by_cases ha : a = k
    · rw [if_neg (by simp [ha]), ih, ha]
      split <;> rfl
    · rw [if_pos (by simpa using ha), findBlk_cons, ih]
      by_cases hb : b = a
      · rw [if_pos hb, if_pos hb, if_neg fun h => ha (hb.symm.trans h)]
      · rw [if_neg hb, if_neg hb]

/-- A block that is set reads its value, every other one what it did. -/
theorem findBlk_setBlk (m : List (Nat × BitVec 256)) (k b : Nat) (v : BitVec 256) :
    findBlk (setBlk m k v) b = if b = k then v else findBlk m b := by
  unfold setBlk
  split
  case _ hv =>
    rw [findBlk_filter_ne, hv]
  case _ => exact findBlk_putBlk m k b v

section
variable {d : Dev}

/-- A device whose journal holds no unfinished write shows the primary blocks. -/
theorem Dev.tagBlk_done {j : TagJournal} (hj : d.tag.journal = some j) (h : j.done = true) (b : Nat) : d.tagBlk b = d.primaryBlk b := by
  unfold Dev.tagBlk
  rw [hj]
  exact if_neg fun hc => by rw [h] at hc; exact nomatch hc.2.1

theorem Dev.primaryBlk_data {b : Nat} (hb : 3 ≤ b) : d.primaryBlk b = findBlk d.tag.store b :=
  (if_neg (by omega)).trans ((if_neg (by omega)).trans (if_neg (by omega)))

theorem Dev.tagCommit_blk {b : Nat} (hb : 3 ≤ b) (v : BitVec 256) : (d.tagCommit b v).tagBlk b = v := by
  rw [Dev.tagBlk_done (d := d.tagCommit b v) rfl rfl, Dev.primaryBlk_data hb]
  exact (findBlk_setBlk d.tag.store b b v).trans (if_pos rfl)

/-! ### An accepted frame (R430) -/

section
variable {x : SvcSession} {p : SvcProt} {msg : List Byte} {d1 : Dev} (hx : d.tag.sess = some x)
  (hf : d.sessionFrame x p msg = some d1)
include hf

/-- An accepted frame changes the counters and the time of its session alone. -/
theorem Dev.sessionFrame_only : ∃ y, d1 = { d with tag := { d.tag with sess := some y } } := by
  unfold Dev.sessionFrame at hf
  split at hf
  · exact ⟨_, (Option.some.inj hf).symm⟩
  · exact nomatch hf

theorem Dev.sessionFrame_tagBlk (b : Nat) : d1.tagBlk b = d.tagBlk b := by
  obtain ⟨y, rfl⟩ := Dev.sessionFrame_only hf
  rfl

theorem Dev.sessionFrame_supply : d1.tag.supply = d.tag.supply := by
  obtain ⟨y, rfl⟩ := Dev.sessionFrame_only hf
  rfl

theorem Dev.sessionFrame_store : d1.tag.store = d.tag.store := by
  obtain ⟨y, rfl⟩ := Dev.sessionFrame_only hf
  rfl

theorem Dev.sessionFrame_field : d1.tag.field = d.tag.field := by
  obtain ⟨y, rfl⟩ := Dev.sessionFrame_only hf
  rfl

include hx

theorem Dev.fieldCommand_accepted (ho : d.tagOn = true) (h : Bool → Dev → Dev) : d.fieldCommand p msg h = h true d1 := by
  unfold Dev.fieldCommand
  rw [if_neg (by rw [ho]; decide), hx]
  dsimp only
  rw [hf]
end

theorem Dev.tagMain_of (h : d.tag.supply = 0) : d.tagMain = true := decide_eq_true h

theorem Dev.gate_main (h : d.tag.supply = 0) (energy : Bool) : ¬(!d.gate energy) = true := by
  unfold Dev.gate
  rw [Dev.tagMain_of h]
  exact nofun

theorem Dev.fieldSequence_commits (h : d.tag.supply = 0) (b : Nat) (v : BitVec 256) (energy : Bool) :
    d.fieldSequence b v energy .none = (d.tagCommit b v).tagReply [stOk] := if_neg (Dev.gate_main h energy)

/-- A field that collapses before the marker leaves the store and ends the session. -/
theorem Dev.fieldSequence_collapses (h : d.tag.supply = 0) (hf : d.tag.field = true) (b : Nat) (v : BitVec 256) (energy : Bool) :
    (d.fieldSequence b v energy .inStep1).tag.store = d.tag.store ∧ (d.fieldSequence b v energy .inStep1).tag.sess = none := by
  have hgo : d.fieldSequence b v energy .inStep1 =
      ({ d.tagAbandon b v with tag := { (d.tagAbandon b v).tag with reply := [] } }).fieldOff := if_neg (Dev.gate_main h energy)
  obtain ⟨-, hsess, -, -, hstore⟩ := Dev.fieldOff_gone { d.tagAbandon b v with tag := { (d.tagAbandon b v).tag with reply := [] } } hf
  rw [hgo]
  exact ⟨hstore, hsess⟩

theorem Dev.endSession_reply (cause : Nat) : (d.endSession cause).tag.reply = d.tag.reply := by
  unfold Dev.endSession
  split
  · rfl
  · extract_lets src d1 d2
    have h2 : d2.tag = d1.tag := by
      unfold d2
      split
      · exact Dev.count_part (pt := .tag) ..
      · rfl
    exact (congrArg TagState.reply ((d2.svcEvent_tag 3 cause).trans h2) :)
end

/-- Settles O50: each command by the branch of an accepted frame. -/
theorem serviceCommands : Obligations.ServiceCommands := by
  unfold Obligations.ServiceCommands
  intro s x p d1 ho hx hsup
  refine ⟨fun blk hb hr hf => next_put ((Dev.fieldCommand_accepted hx hf ho _).trans ?_), fun blk v energy hlo hhi hf => ?_,
    fun ctr amount hc ha hf => next_put ((Dev.fieldCommand_accepted hx hf ho _).trans ?_),
    fun bytes cs hl hf => next_put ((Dev.fieldCommand_accepted hx hf ho _).trans ?_), fun hf => ?_,
    fun a hf => next_put ?_⟩
  all_goals have hs1 : d1.tag.supply = 0 := (Dev.sessionFrame_supply hf).trans hsup
  · refine (if_neg (by omega)).trans ((if_neg (by rw [hr]; exact nofun)).trans ((if_neg fun h => ?_).trans ?_))
    · exact absurd (hs1.symm.trans h.1) (by decide)
    · rw [Dev.sessionFrame_tagBlk hf]
      rfl
  · have hbranch : ∀ c, s.dev.fieldWrite blk v p energy c = d1.fieldSequence blk.toNat v energy c := fun c =>
      (Dev.fieldCommand_accepted hx hf ho _).trans
        ((if_neg (by rw [hs1]; decide)).trans ((if_neg (by omega)).trans (if_neg (by simp; omega))))
    have hfield : d1.tag.field = true := (Dev.sessionFrame_field hf).trans (Bool.and_eq_true_iff.1 ho).1
    obtain ⟨hstore, hsess⟩ := Dev.fieldSequence_collapses hs1 hfield blk.toNat v energy
    exact ⟨next_put ((hbranch .none).trans (Dev.fieldSequence_commits hs1 ..)), Dev.tagCommit_blk (by omega) v, _,
      next_put (hbranch .inStep1), hstore.trans (Dev.sessionFrame_store hf), hsess⟩
  · exact (if_neg (by rw [hs1]; decide)).trans ((if_neg (not_or.2 ⟨by omega, ha⟩)).trans
      ((if_neg (by decide)).trans (Dev.fieldSequence_commits hs1 ..)))
  · exact (if_neg (by rw [Dev.tagMain_of hs1]; decide)).trans (if_neg (by omega))
  · have hgo : s.dev.fieldEnd p = (d1.tagReply [stOk]).endSession 2 :=
      (Dev.fieldCommand_accepted hx hf ho _).trans (if_pos ⟨rfl, by rw [hs1]; decide⟩)
    exact ⟨_, next_put hgo, (Dev.endSession_tag _ 2).1, Dev.endSession_reply 2⟩
  · have hgo : s.dev.fieldRequest [a] p = (d1.runRequest { agent := .service, todo := [some a] }).settleReleased := by
      unfold Dev.fieldRequest
      extract_lets op
      rw [List.flatMap_singleton]
      exact (Dev.fieldCommand_accepted hx hf ho _).trans
        ((if_neg (by decide)).trans ((if_neg (by rw [Dev.tagMain_of hs1]; decide)).trans (if_neg (by simp))))
    exact hgo

end Sys2Proof.Machine
end

section
/-! SUPPORT. The device's side of the tag store (R431, R433, R435, R436, R438, R440). -/

namespace Sys2Proof.Machine

section
variable {d : Dev} {ag : Agent} {arg : BitVec 24}

/-! ### Commands (R433, R435) -/

theorem tagReadCmd_ok (hb : arg.toNat ≤ 1023) (hr : ¬(4 ≤ arg.toNat ∧ arg.toNat ≤ 7)) :
    tagReadCmd ag arg d = (.ok, d.setViewBytes ag (lattice 11 2 0) 8 (blkBytes (d.tagBlk arg.toNat))) :=
  if_neg (not_or.2 ⟨by omega, hr⟩)

theorem tagWriteCmd_ok (hlo : 12 ≤ arg.toNat) (hhi : arg.toNat ≤ 1023) (hs : d.tag.sess = none) :
    tagWriteCmd ag arg d = (.ok, d.tagCommit arg.toNat (d.tagView ag)) :=
  (if_neg (by omega)).trans (if_neg fun h => by rw [hs] at h; exact nomatch h.1)

/-- The device whose write of a field-shared block waits. -/
def Dev.tagDeferred (d : Dev) (ag : Agent) (b : Nat) : Dev :=
  ({ d with tag := { d.tag with defer := some (ag, b, d.tagView ag, d.el) } }).raiseTag 6

theorem tagWriteCmd_defers (hlo : 12 ≤ arg.toNat) (hhi : arg.toNat ≤ 1023) (hs : d.tag.sess.isSome = true)
    (hsh : sharedIn d.tag.sharedMap arg.toNat = true) : tagWriteCmd ag arg d = (.pending, d.tagDeferred ag arg.toNat) :=
  (if_neg (by omega)).trans (if_pos ⟨hs, hsh⟩)

theorem tagIncCmd_ok (hc : argUnit arg ≤ 31) (ha : argBits arg 15 0 ≠ 0) : tagIncCmd arg d =
    (.ok, d.tagCommit (ctrBlk (argUnit arg)) (incBlk (d.tagBlk (ctrBlk (argUnit arg))) (argUnit arg) (argBits arg 15 0))) :=
  if_neg (not_or.2 ⟨by omega, ha⟩)

theorem Dev.accepted_tag (d : Dev) (ag : Agent) (g op : Nat) (arg : BitVec 24) : (d.accepted ag g op arg).tag = d.tag := rfl

theorem Dev.accepted_status (d : Dev) (ag : Agent) (g op : Nat) (arg : BitVec 24) : (d.accepted ag g op arg).reply.status = 0xFF := rfl

theorem Dev.accepted_flagBit (d : Dev) (ag : Agent) (g op : Nat) (arg : BitVec 24) (g' u off b : Nat) :
    (d.accepted ag g op arg).flagBit g' u off b = d.flagBit g' u off b := Dev.answered_flagBit d ag g op .pending g' u off b

/-- A write that waits is PENDING, with the store as it was. -/
theorem Dev.tagDeferred_accepted (d : Dev) (ag : Agent) (b op : Nat) (arg : BitVec 24) :
    ((d.tagDeferred ag b).accepted ag 11 op arg).tag.defer = some (ag, b, d.tagView ag, d.tim.elapsed) ∧
      ((d.tagDeferred ag b).accepted ag 11 op arg).tag.store = d.tag.store ∧
      ((d.tagDeferred ag b).accepted ag 11 op arg).flagBit 11 3 0 6 = true := by
  rw [Dev.accepted_tag, Dev.accepted_flagBit]
  exact ⟨rfl, rfl, Dev.flagBit_raise_self _ 11 3 0 _ 6 (by decide) (by decide)⟩

/-! ### Recovery (R431) -/

theorem Dev.tagRecovery_abandoned {j : TagJournal} (hj : d.tag.journal = some j) (hd : j.done = false) (hm : j.marker = false) :
    d.tagRecovery = { d with tag := { d.tag with
      lastStep := 1, recoveries := satAdd 16 d.tag.recoveries 1, journal := none, dead := false } } := by
  unfold Dev.tagRecovery
  rw [hj]
  exact (if_neg (by rw [hd]; decide)).trans (if_pos (by rw [hm]; rfl))

/-- The device whose journalled write has been carried out. -/
def Dev.tagRecovered (d : Dev) (j : TagJournal) : Dev :=
  { d with tag := { d.tag with
      lastStep := if j.primary then 3 else 2, recoveries := satAdd 16 d.tag.recoveries 1, store := setBlk d.tag.store j.blk j.data
      dead := false, journal := some { j with primary := true, done := true } } }

theorem Dev.tagRecovery_carries {j : TagJournal} (hj : d.tag.journal = some j) (hd : j.done = false) (hm : j.marker = true) :
    d.tagRecovery = (d.tagRecovered j).raiseTag 5 := by
  unfold Dev.tagRecovery
  rw [hj]
  exact (if_neg (by rw [hd]; decide)).trans (if_neg (by rw [hm]; decide))

theorem Dev.primaryBlk_congr {e : Dev} (hm : e.mutualAes = d.mutualAes) {b : Nat} (hs : findBlk e.tag.store b = findBlk d.tag.store b) :
    e.primaryBlk b = d.primaryBlk b := by
  unfold Dev.primaryBlk
  rw [hm, hs]

/-- A recovered write shows the block that the journal showed. -/
theorem Dev.tagRecovered_tagBlk {j : TagJournal} (hj : d.tag.journal = some j) (hd : j.done = false) (hm : j.marker = true)
    (hb : 3 ≤ j.blk) (b : Nat) : (d.tagRecovered j).tagBlk b = d.tagBlk b := by
  rw [Dev.tagBlk_done (d := d.tagRecovered j) rfl rfl]
  have hset : findBlk (d.tagRecovered j).tag.store b = if b = j.blk then j.data else findBlk d.tag.store b :=
    findBlk_setBlk d.tag.store j.blk b j.data
  unfold Dev.tagBlk
  rw [hj]
  by_cases h : j.blk = b
  · refine Eq.trans ?_ (if_pos ⟨hm, congrArg not hd, h⟩).symm
    rw [Dev.primaryBlk_data (d := d.tagRecovered j) (h ▸ hb), hset, if_pos h.symm]
  · refine Eq.trans ?_ (if_neg fun hc => h hc.2.2).symm
    exact Dev.primaryBlk_congr (d := d) (e := d.tagRecovered j) rfl (hset.trans (if_neg (Ne.symm h)))

theorem Dev.deferredWrite_carries {b : Nat} {v : BitVec 256} {t0 : Nat} (hd : d.tag.defer = some (ag, b, v, t0))
    (ht : d.tag.sess = none ∨ t0 + 200000000 ≤ d.tim.elapsed) : d.deferredWrite =
      ({ d.tagCommit b v with tag := { (d.tagCommit b v).tag with defer := none } }).endCommand 11 .ok := by
  unfold Dev.deferredWrite
  rw [hd]
  exact if_pos (ht.imp (fun h => by rw [h]; rfl) fun h => decide_eq_true h)

theorem Dev.endCommand_tag (d : Dev) (g : Nat) (st : CmdSt) : (d.endCommand g st).tag = d.tag := tag_of_part (Dev.endCommand_part ..)

/-! ### Signed readings (R440) -/

theorem Dev.svcReading_takes {q : Fin 64} {cs : List WordCheck} {m : QMsg} {ms : List QMsg} {ws : List QData} {d2 : Dev}
    (hc : d.que.q[q].entry.cons = 8) (hb : d.tag.block = none) (hm : (d.freshFront q).que.q[q].msgs = m :: ms)
    (hty : hdrType (msgHead m.words) = 0x20) (hs : (d.freshFront q).serves q = true)
    (ht : (d.freshFront q).takeMsg q cs = (some ws, d2)) (hp : isPoison ws = false) : d.svcReading q cs =
      if d.tag.sess.isSome then { d2 with tag := { d2.tag with block := some (unpackWords (ws.drop 1), 0) } }
      else d2.count 11 1 8 31 16 := by
  unfold Dev.svcReading
  rw [if_pos ⟨hc, congrArg Option.isNone hb⟩]
  dsimp only
  rw [hm]
  refine (if_pos ⟨hty, hs⟩).trans ?_
  rw [ht]
  exact if_neg (ne_true_of_eq_false hp)
end

/-- Settles O51: each event by the branch that its conditions name. -/
theorem tagStore : Obligations.TagStore := by
  unfold Obligations.TagStore
  refine fun s => ⟨fun ag arg hr => ⟨fun hb hsec => next_put (issueCommand_ok hr (tagReadCmd_ok hb hsec)),
      fun hlo hhi => ⟨fun hs => next_put (issueCommand_ok hr (tagWriteCmd_ok hlo hhi hs)), fun hs hsh => ?_⟩,
      fun hc ha => next_put (issueCommand_ok hr (tagIncCmd_ok hc ha))⟩,
    fun ag b v t0 hd ht => ?_, fun j hj hd => ⟨fun hm => ?_, fun hm => ?_⟩, fun q cs m ms ws d2 hc hb hm hty hs ht hp =>
      ⟨fun hsess => ?_, fun hsess => ?_⟩⟩
  · obtain ⟨hdefer, hstore, hflag⟩ := s.dev.tagDeferred_accepted ag arg.toNat 0x11 arg
    exact ⟨_, next_put (issueCommand_pending hr (tagWriteCmd_defers hlo hhi hs hsh)), Dev.accepted_status .., hdefer, hstore, hflag⟩
  · have htag := Dev.endCommand_tag { s.dev.tagCommit b v with tag := { (s.dev.tagCommit b v).tag with defer := none } } 11 .ok
    exact ⟨_, next_put (Dev.deferredWrite_carries hd ht), congrArg TagState.defer htag, congrArg TagState.store htag⟩
  · exact ⟨_, next_put (Dev.tagRecovery_abandoned hj hd hm), rfl, rfl, rfl⟩
  · exact ⟨_, next_put (Dev.tagRecovery_carries hj hd hm), rfl, Dev.flagBit_raise_self _ 11 3 0 _ 5 (by decide) (by decide),
      fun hb b => Dev.tagRecovered_tagBlk hj hd hm hb b⟩
  · exact next_put ((Dev.svcReading_takes hc hb hm hty hs ht hp).trans (if_pos hsess))
  · exact next_put ((Dev.svcReading_takes hc hb hm hty hs ht hp).trans (if_neg (by rw [hsess]; decide)))

end Sys2Proof.Machine
end

section
/-! SUPPORT. Frames of queues and requests on the ring (R488 to R495, R505). -/

namespace Sys2Proof.Machine

/-! ### Frames that arrive (R491 to R494) -/

section
variable {d : Dev} {portB : Bool} {f : RingFrame} (hup : d.portIsUp portB = true) (hst : d.aul.stopped = false) (he : f.eofBad = false)
include hup hst

theorem Dev.receive_on (take : Dev → Dev) : d.receive portB f take =
    if f.crcOk ∧ !f.eofBad then take d
    else if f.dest = 0xFF ∨ !d.forMe f then d.forwardFrame portB f
    else if f.eofBad then d
    else d.countCrc := if_neg (by rw [hup, hst]; decide)

include he

theorem Dev.receive_good (hc : f.crcOk = true) (take : Dev → Dev) : d.receive portB f take = take d :=
  (Dev.receive_on hup hst take).trans (if_pos ⟨hc, congrArg not he⟩)

theorem Dev.receive_damaged (hc : f.crcOk = false) (hd : f.dest ≠ 0xFF) (hm : d.forMe f = true) (take : Dev → Dev) :
    d.receive portB f take = d.countCrc :=
  (Dev.receive_on hup hst take).trans ((if_neg (by rw [hc]; exact nofun)).trans
    ((if_neg (by rw [hm]; exact fun h => h.elim hd nofun)).trans (if_neg (ne_true_of_eq_false he))))

/-- A DATA frame for this module alone is taken. -/
theorem Dev.dataFrame_takes (ht : f.ftype = 0) (hd : f.dest ≠ 0xFF) (hm : d.forMe f = true) (hc : f.crcOk = true) :
    d.dataFrame portB f = d.takeData portB f :=
  (if_pos ⟨ht, hm⟩).trans ((Dev.receive_good hup hst he hc _).trans (if_neg hd))

theorem Dev.ringLreq_takes (ht : f.ftype = 1) (hd : f.dest ≠ 0xFF) (hm : d.forMe f = true) (hc : f.crcOk = true) :
    d.ringLreq portB f = d.takeLreq f :=
  (if_pos ⟨ht, hm⟩).trans ((Dev.receive_good hup hst he hc _).trans (if_neg hd))

omit he in
theorem Dev.frameForward_forwards (hm : d.forMe f = false) (h4 : f.ftype ≠ 4) (h5 : f.ftype ≠ 5) (hc : f.crcOk = true) :
    d.frameForward portB f =
      if f.cls ≠ 0 ∧ (!d.canForward portB f.cls ∨ d.aul.rxHeld.any (behind portB f)) then d.holdFrame portB f else d.passOn portB f := by
  have hgo : d.frameForward portB f = d.forwardFrame portB f := if_neg (by
    rw [hm, hup, hst]
    exact fun h => h.elim nofun fun h => h.elim h4 fun h => h.elim h5 fun h => h.elim nofun nofun)
  rw [hgo]
  unfold Dev.forwardFrame
  dsimp only
  rw [if_pos hc, show (if (!f.crcOk) = true ∧ (!f.eofBad) = true then d.countCrc else d) = d from if_neg (by simp [hc])]
end

section
variable {d : Dev} {portB : Bool} {f : RingFrame}

theorem Dev.takeData_queues {q : Fin 64} (hq : d.dataQueue f = some q) (hr : (d.que.q[q]).room f.payload.length = true)
    (hh : d.aul.rxHeld.any (behind portB f) = false) : d.takeData portB f = d.produce q f.payload := by
  unfold Dev.takeData
  rw [hq]
  exact if_pos (.inr ⟨hr, congrArg not hh⟩)

theorem Dev.takeData_misroutes (hq : d.dataQueue f = none) : d.takeData portB f = d.misroute := by
  unfold Dev.takeData
  rw [hq]

theorem Dev.takeLreq_runs (hu : d.sto.holdup = false) {w1 : QData} {ws : List QData} {ok : Bool} {d1 : Dev} (hp : f.payload = w1 :: ws)
    (hn : ws.length = bits w1.toNat 31 24) (h1 : 1 ≤ ws.length) (h8 : ws.length ≤ 8)
    (ht : d.takeTransaction (bits w1.toNat 63 32) = (ok, d1)) :
    d.takeLreq f = if ok = true then
      (d1.runRequest { agent := .host, cls := f.cls, word := w1, todo := ws.map lreqAccess }).settleReleased else d1 := by
  unfold Dev.takeLreq
  rw [hp]
  dsimp only
  refine (if_neg ?_).trans ?_
  · rw [hu, ← hn]
    exact fun h => h.elim nofun (by omega)
  · rw [ht]
    cases ok <;> rfl

theorem Dev.flow_rxHeld (d : Dev) : d.flow.aul.rxHeld = d.aul.rxHeld := rfl

theorem Dev.flow_sent (d : Dev) (portB : Bool) : (d.flow.port portB).sent = (d.port portB).sent := by cases portB <;> rfl

theorem Dev.passOn_sends (hu : d.portUsed (!portB) = true) (hp : d.portIsUp (!portB) = true) :
    d.passOn portB f = d.sendRing (!portB) { f with hops := f.hops + 1 } := if_pos ⟨hu, hp⟩
end

/-! ### The line of a port (R489, R490) -/

/-- One step of the choice of the least: the class `c` is taken where it waits and has less than the best so far. -/
def leastStep {α : Type} (w : α → Bool) (k : α → Nat) (best : Option α) (c : α) : Option α :=
  if w c then
    match best with
    | some b => if k c < k b then some c else best
    | none => some c
  else best

section
variable {α : Type} {w : α → Bool} {k : α → Nat}

theorem leastStep_mem (best : Option α) (a : α) : leastStep w k best a = best ∨ leastStep w k best a = some a ∧ w a = true := by
  unfold leastStep
  split
  case isTrue hw =>
    cases best with
    | none => exact .inr ⟨rfl, hw⟩
    | some b =>
      dsimp only
      split
      · exact .inr ⟨rfl, hw⟩
      · exact .inl rfl
  case isFalse => exact .inl rfl

theorem leastStep_le_new (best : Option α) {a : α} (hw : w a = true) : ∃ b, leastStep w k best a = some b ∧ k b ≤ k a := by
  unfold leastStep
  rw [if_pos hw]
  cases best with
  | none => exact ⟨a, rfl, le_rfl⟩
  | some b =>
    dsimp only
    split
    · exact ⟨a, rfl, le_rfl⟩
    · exact ⟨b, rfl, by omega⟩

theorem leastStep_le_old (b a : α) : ∃ b', leastStep w k (some b) a = some b' ∧ k b' ≤ k b := by
  unfold leastStep
  split
  · dsimp only
    split
    · exact ⟨a, rfl, by omega⟩
    · exact ⟨b, rfl, le_rfl⟩
  · exact ⟨b, rfl, le_rfl⟩

/-- The choice of the least: it waits, and none that waits has less. -/
theorem foldl_least (l : List α) : ∀ (best : Option α) {c : α}, l.foldl (leastStep w k) best = some c →
    (some c = best ∨ c ∈ l ∧ w c = true) ∧ (∀ e ∈ l, w e = true → k c ≤ k e) ∧ ∀ b, best = some b → k c ≤ k b := by
  induction l with
  | nil => exact fun best c h => ⟨.inl h.symm, fun _ he => absurd he List.not_mem_nil, fun b hb => by
      obtain rfl := Option.some.inj (hb.symm.trans h)
      exact le_rfl⟩
  | cons a l ih =>
    intro best c h
    obtain ⟨hmem, hle, hbest⟩ := ih _ h
    refine ⟨?_, fun e he hw => ?_, fun b hb => ?_⟩
    · rcases hmem with hmem | hmem
      · rcases leastStep_mem (w := w) (k := k) best a with hs | ⟨hs, hw⟩
        · exact .inl (hmem.trans hs)
        · obtain rfl := Option.some.inj (hmem.trans hs)
          exact .inr ⟨List.mem_cons_self, hw⟩
      · exact .inr ⟨List.mem_cons_of_mem _ hmem.1, hmem.2⟩
    · rcases List.mem_cons.1 he with rfl | he
      · obtain ⟨b, hb, hk⟩ := leastStep_le_new (k := k) best hw
        exact (hbest b hb).trans hk
      · exact hle e he hw
    · subst hb
      obtain ⟨b', hb', hk⟩ := leastStep_le_old (w := w) (k := k) b a
      exact (hbest b' hb').trans hk
end

section
variable {p : Port} {c : Fin 4}

theorem Port.classWaits_iff : p.classWaits c = true ↔ c ≠ 0 ∧ p.paused.getLsbD c.val = false ∧ ∃ y ∈ p.waiting, y.2.cls = c := by
  unfold Port.classWaits
  simp [and_assoc]

theorem Port.nextClass_eq (p : Port) : p.nextClass = ([1, 2,
    3] : List (Fin 4)).foldl (leastStep p.classWaits fun c => p.shares[c]) none := by
  unfold Port.nextClass
  refine congrArg (fun f => List.foldl f none [1, 2, 3]) (funext fun best => funext fun c => ?_)
  unfold leastStep
  cases best <;> rfl

theorem ne_zero_mem : ∀ {e : Fin 4}, e ≠ 0 → e ∈ ([1, 2, 3] : List (Fin 4)) := by decide

/-- The class that goes next waits, and no waiting class has had less of its share. -/
theorem Port.nextClass_least (h : p.nextClass = some c) :
    p.classWaits c = true ∧ ∀ e : Fin 4, p.classWaits e = true → p.shares[c] ≤ p.shares[e] := by
  obtain ⟨hmem, hle, -⟩ := foldl_least [1, 2, 3] none (p.nextClass_eq.symm.trans h)
  exact ⟨(hmem.resolve_left nofun).2, fun e he => hle e (ne_zero_mem (Port.classWaits_iff.1 he).1) he⟩

/-- The frame that a class sends next is one of its own or forwarded frames, in turns. -/
theorem Port.nextOf_turns (h : ∃ y ∈ p.waiting, y.2.cls = c) : ∃ x, p.nextOf c = some x ∧ x ∈ p.waiting ∧ x.2.cls = c ∧
    ((∃ y ∈ p.waiting, y.2.cls = c ∧ y.1 ≠ p.ownLast.getLsbD c.val) → x.1 ≠ p.ownLast.getLsbD c.val) := by
  unfold Port.nextOf
  cases hf : p.waiting.find? fun (x : Bool × RingFrame) => x.2.cls = c && x.1 ≠ p.ownLast.getLsbD c.val with
  | some x =>
    have hp := List.find?_some hf
    simp only [Bool.and_eq_true, decide_eq_true_eq] at hp
    exact ⟨x, rfl, List.mem_of_find?_eq_some hf, hp.1, fun _ => hp.2⟩
  | none =>
    cases hg : p.waiting.find? fun (x : Bool × RingFrame) => x.2.cls = c with
    | none =>
      obtain ⟨y, hy, hc⟩ := h
      exact absurd (decide_eq_true hc) (List.find?_eq_none.1 hg y hy)
    | some x =>
      refine ⟨x, rfl, List.mem_of_find?_eq_some hg, by simpa using List.find?_some hg, fun ⟨y, hy, hc, ho⟩ => ?_⟩
      exact absurd (by simpa [hc] using ho) (List.find?_eq_none.1 hf y hy)

theorem Port.start_shares (x : Bool × RingFrame) : (p.start c x).shares[c] = p.shares[c] + ringBlocks x.2 * 2 ^ (c.val - 1) :=
  (vmod_at p.shares c c _).trans (if_pos rfl)

theorem interrupt_cuts {f g : RingFrame} {a b dt : Nat} (rest : List WireItem) (hg : g.cls ≠ 0)
    (hb : a + 8 * ((dt - 20 * b1 (a = 0)) / 160 + 1) < b) : interrupt f dt (.bytes g a b :: rest) =
      .bytes g a (a + 8 * ((dt - 20 * b1 (a = 0)) / 160 + 1)) :: .pre :: wholeFrame f :: .res ::
        .bytes g (a + 8 * ((dt - 20 * b1 (a = 0)) / 160 + 1)) b :: rest := if_neg fun h => h.elim hg fun h => by omega

theorem Port.run_sent (k : Nat) : ∀ (p : Port) (el : Nat), (Port.run k p el).sent = p.sent := by
  induction k with
  | zero => exact fun _ _ => rfl
  | succ k ih =>
    intro p el
    unfold Port.run
    extract_lets x q
    split
    · exact (ih _ el).trans rfl
    · rfl
    · rfl

theorem Port.now_sent (p : Port) (el : Nat) : (p.now el).sent = p.sent := Port.run_sent ..

theorem Port.transmit_sent (p : Port) (own : Bool) (f : RingFrame) (el : Nat) : (p.transmit own f el).sent = f :: p.sent := by
  have hs := p.now_sent el
  unfold Port.transmit
  extract_lets q r
  have hr : r.sent = f :: p.sent := congrArg (f :: ·) hs
  split
  · exact hr
  · exact (Port.now_sent _ el).trans hr
end

theorem Dev.sendRing_sent (d : Dev) (portB : Bool) (f : RingFrame) (own : Bool) :
    ((d.sendRing portB f own).port portB).sent = f :: (d.port portB).sent := by
  unfold Dev.sendRing
  rw [Dev.flow_sent, Dev.updPort_port, if_pos rfl]
  exact Port.transmit_sent ..

theorem Dev.updPort_sent (d : Dev) (p q : Bool) {f : Port → Port} (hf : ∀ x, (f x).sent = x.sent) :
    ((d.updPort p f).port q).sent = (d.port q).sent := by
  rw [Dev.updPort_port]
  split
  case isTrue h => rw [hf, h]
  case isFalse => rfl

theorem Dev.startC0_sent (d : Dev) (portB : Bool) (f : RingFrame) : ((d.startC0 portB f).port portB).sent = f :: (d.port portB).sent := by
  have h := d.sendRing_sent portB f true
  unfold Dev.startC0
  generalize d.sendRing portB f true = e at h ⊢
  have hu := e.updPort_sent portB portB (f := fun p => { p with c0Starts := (d.el :: p.c0Starts).take 2 }) fun _ => rfl
  generalize (e.updPort portB fun p => { p with c0Starts := (d.el :: p.c0Starts).take 2 }) = u at hu ⊢
  cases portB <;> exact hu.trans h

/-! ### The bridge (R488, R495) -/

theorem que_of_part {d e : Dev} (h : e.part .que = d.part .que) : e.que = d.que := h

theorem aul_of_part {d e : Dev} (h : e.part .aul = d.part .aul) : e.aul = d.aul := h

/-- Reading out a queue again finds nothing more to discard. -/
theorem Dev.dropStale_again (q : Fin 64) : ∀ (ms : List QMsg) (d : Dev), d.que.q[q].msgs = ms →
    Dev.dropStale q ((Dev.dropStale q ms d).que.q[q].msgs) (Dev.dropStale q ms d) = Dev.dropStale q ms d := by
  intro ms
  induction ms with
  | nil =>
    intro d h
    show Dev.dropStale q d.que.q[q].msgs d = d
    rw [h]
    rfl
  | cons m ms ih =>
    intro d h
    have hdrop : (d.updQ q fun x => { x with msgs := ms }).que.q[q].msgs = ms := by
      rw [show (d.updQ q fun x => { x with msgs := ms }).que.q[q] = _ from (Dev.updQ_at ..).trans (if_pos rfl)]
    by_cases ht : m.taken ≠ 0
    · have hstop : Dev.dropStale q (m :: ms) d = d := if_pos ht
      rw [hstop, h, hstop]
    by_cases hx : m.expired d.que.q[q].entry.cons d.tim.now = true
    · have hgo : Dev.dropStale q (m :: ms) d =
          Dev.dropStale q ms (((d.updQ q fun x => { x with msgs := ms }).count 2 q.val 0x18 15 0).raiseQue q.val 5) :=
        (if_neg ht).trans (if_pos hx)
      rw [hgo]
      exact ih _ hdrop
    by_cases hb : d.epochBad q.val (hdrIdent (msgHead m.words)) = true
    · have hgo : Dev.dropStale q (m :: ms) d =
          Dev.dropStale q ms (((d.updQ q fun x => { x with msgs := ms }).count 2 (0x80 + d.idSpace q.val) 8 31 0).raiseQue q.val 6) :=
        (if_neg ht).trans ((if_neg hx).trans (if_pos hb))
      rw [hgo]
      exact ih _ hdrop
    · have hstop : Dev.dropStale q (m :: ms) d = d := (if_neg ht).trans ((if_neg hx).trans (if_neg hb))
      rw [hstop, h, hstop]

theorem Dev.freshFront_again (d : Dev) (q : Fin 64) : (d.freshFront q).freshFront q = d.freshFront q := Dev.dropStale_again q _ d rfl

section
variable {d : Dev} {q : Fin 64} {cs : List WordCheck} {m : QMsg} {ms : List QMsg}

/-- The device whose front message has been read out whole. -/
def Dev.frontTaken (d : Dev) (q : Fin 64) (cs : List WordCheck) (m : QMsg) (ms : List QMsg) : Dev :=
  (((d.updQ q fun x => { x with msgs := ms }).countSingles q.val (cs.take m.left)).adoptEpoch q.val (hdrIdent (msgHead m.words))).noteTurn q

theorem Dev.takeMsg_good (hf : d.freshFront q = d) (hm : d.que.q[q].msgs = m :: ms) (hp : poisonSpan m ms cs = 0) :
    d.takeMsg q cs = (some m.words, d.frontTaken q cs m ms) := by
  unfold Dev.takeMsg
  rw [hf]
  dsimp only
  rw [hm]
  exact if_pos hp

theorem Dev.countSingles_que (d : Dev) (q : Nat) (cs : List WordCheck) : (d.countSingles q cs).que = d.que :=
  que_of_part (Dev.countSingles_part d q cs)

theorem Dev.adoptEpoch_queues (d : Dev) (q ident : Nat) : (d.adoptEpoch q ident).que.q = d.que.q := by
  unfold Dev.adoptEpoch
  dsimp only
  split <;> rfl

theorem Dev.frontTaken_msgs (d : Dev) (q : Fin 64) (cs : List WordCheck) (m : QMsg) (ms : List QMsg) :
    (d.frontTaken q cs m ms).que.q[q].msgs = ms := by
  have hq : (d.frontTaken q cs m ms).que.q = (d.updQ q fun x => { x with msgs := ms }).que.q :=
    (Dev.adoptEpoch_queues ..).trans (congrArg QueState.q (Dev.countSingles_que ..))
  rw [hq, show (d.updQ q fun x => { x with msgs := ms }).que.q[q] = _ from (Dev.updQ_at ..).trans (if_pos rfl)]

theorem Dev.frontTaken_aul (d : Dev) (q : Fin 64) (cs : List WordCheck) (m : QMsg) (ms : List QMsg) :
    (d.frontTaken q cs m ms).aul = d.aul :=
  (Dev.adoptEpoch_part (pt := .aul) (by decide) ..).trans (Dev.countSingles_part (pt := .aul) ..)

/-- The frame goes out on the host port: one of class 0 at once, between the blocks of a frame under way. -/
def Dev.sendOwn (e : Dev) (cls : Fin 4) (f : RingFrame) : Dev :=
  if cls = 0 then e.startC0 e.aul.hostB f else e.sendRing e.aul.hostB f true

/-- The queue waits for no room in class 0. -/
def Dev.c0Served (d : Dev) (q : Fin 64) : Dev :=
  { d with aul := { d.aul with c0Wait := d.aul.c0Wait.filter fun (x : Nat) => x ≠ q.val } }

/-- What the bridge sends for a message that it has read. -/
def Dev.bridgeSends (d : Dev) (q : Fin 64) (cls : Fin 4) (f : RingFrame) : Dev := (d.c0Served q).sendOwn cls f

theorem Dev.bridgeTake_front (cls : Fin 4) (hm : (d.freshFront q).que.q[q].msgs = m :: ms) (hp : poisonSpan m ms cs = 0)
    (hi : d.idSpace q.val ≠ 9 ∨ hdrIdent (msgHead m.words) ≠ 0) : d.bridgeTake q cls cs =
      ((d.freshFront q).frontTaken q cs m ms).bridgeSends q cls
        (((d.freshFront q).frontTaken q cs m ms).ownFrame cls 0 q.val (withIdent m.words (w32 (hdrIdent (msgHead m.words))))) := by
  have htake := Dev.takeMsg_good (d.freshFront_again q) hm hp
  have hneed : (decide (d.idSpace q.val = 9) && decide (hdrIdent (msgHead m.words) = 0) && !decide (poisonSpan m ms cs ≠ 0)) = false := by
    rcases hi with h | h <;> simp [h]
  unfold Dev.bridgeTake
  rw [hm]
  dsimp only
  rw [hneed]
  rw [if_neg (by decide)]
  dsimp only
  rw [htake, if_neg (not_not_intro hp)]
  rfl

theorem withIdent_tail (ws : List QData) (w : Word) : (withIdent ws w).drop 1 = ws.drop 1 := by
  cases ws with
  | nil => rfl
  | cons x xs => exact List.drop_one

theorem Dev.sendRing_que (d : Dev) (portB : Bool) (f : RingFrame) (own : Bool) : (d.sendRing portB f own).que = d.que :=
  que_of_part (Dev.sendRing_part (by decide) ..)

theorem Dev.c0Served_sent (d : Dev) (q : Fin 64) (portB : Bool) : ((d.c0Served q).port portB).sent = (d.port portB).sent := by
  cases portB <;> rfl

theorem Dev.sendOwn_que (e : Dev) (cls : Fin 4) (f : RingFrame) : (e.sendOwn cls f).que = e.que := by
  unfold Dev.sendOwn
  split
  · exact que_of_part (Dev.startC0_part (by decide) ..)
  · exact e.sendRing_que ..

theorem Dev.sendOwn_sent (e : Dev) (cls : Fin 4) (f : RingFrame) :
    ((e.sendOwn cls f).port e.aul.hostB).sent = f :: (e.port e.aul.hostB).sent := by
  unfold Dev.sendOwn
  split
  · exact e.startC0_sent e.aul.hostB f
  · exact e.sendRing_sent e.aul.hostB f true

theorem Dev.bridgeSends_que (d : Dev) (q : Fin 64) (cls : Fin 4) (f : RingFrame) : (d.bridgeSends q cls f).que = d.que :=
  (Dev.sendOwn_que ..).trans rfl

/-- The frame of the bridge is the newest that the host port has sent. -/
theorem Dev.bridgeSends_sent (d : Dev) (q : Fin 64) (cls : Fin 4) (f : RingFrame) :
    ((d.bridgeSends q cls f).port d.aul.hostB).sent = f :: (d.port d.aul.hostB).sent :=
  (Dev.sendOwn_sent (d.c0Served q) cls f).trans (congrArg (f :: ·) (d.c0Served_sent q d.aul.hostB))

theorem Dev.c0Release_due (hw : d.aul.c0Wait.contains q.val = true) (hf : d.c0Free d.aul.hostB = true) :
    d.c0Release q cs = d.bridgeSend q cs := if_pos ⟨hw, hf⟩

section
variable (h : d.que.q[q].entry.cls < 4) (hc : d.que.q[q].entry.cons = 2) (hd : d.que.q[q].entry.depth ≠ 0)
  (hmay : d.bridgeMay ⟨d.que.q[q].entry.cls, h⟩ = true) (hid : ¬(d.aul.idWait = true ∧ d.idSpace q.val = 9))
include hc hd hmay hid

theorem Dev.bridgeSend_on : d.bridgeSend q cs =
    if (⟨d.que.q[q].entry.cls, h⟩ : Fin 4) = 0 ∧ !d.c0Free d.aul.hostB then
      if d.que.q[q].msgs = [] ∨ d.aul.c0Wait.contains q.val then d
      else { d with aul := { d.aul with held := satAdd 16 d.aul.held 1, c0Wait := q.val :: d.aul.c0Wait } }
    else if d.serves q d.bridgeCan then d.bridgeTake q ⟨d.que.q[q].entry.cls, h⟩ cs
    else d := by
  unfold Dev.bridgeSend
  dsimp only
  rw [dif_pos h]
  exact if_neg fun hn => hn.elim (fun hn => hn hc) fun hn => hn.elim hd fun hn => hn.elim (by rw [hmay]; exact nofun) hid

theorem Dev.bridgeSend_serves (hcls : d.que.q[q].entry.cls ≠ 0 ∨ d.c0Free d.aul.hostB = true) (hs : d.serves q d.bridgeCan = true) :
    d.bridgeSend q cs = d.bridgeTake q ⟨d.que.q[q].entry.cls, h⟩ cs := by
  rw [Dev.bridgeSend_on h hc hd hmay hid, if_neg, if_pos hs]
  rintro ⟨h0, hf⟩
  rcases hcls with hne | hfree
  · exact hne (congrArg Fin.val h0)
  · rw [hfree] at hf
    exact nomatch hf

theorem Dev.bridgeSend_waits (hcls : d.que.q[q].entry.cls = 0) (hf : d.c0Free d.aul.hostB = false) (hm : d.que.q[q].msgs ≠ [])
    (hw : d.aul.c0Wait.contains q.val = false) : d.bridgeSend q cs =
      { d with aul := { d.aul with held := satAdd 16 d.aul.held 1, c0Wait := q.val :: d.aul.c0Wait } } := by
  rw [Dev.bridgeSend_on h hc hd hmay hid, if_pos ⟨Fin.ext hcls, congrArg not hf⟩]
  exact if_neg fun hn => hn.elim hm (ne_true_of_eq_false hw)
end
end

/-! ### The commands -/

theorem Dev.ownFrame_source (d : Dev) (cls : Fin 4) (ty queue : Nat) (ws : List QData) :
    (d.ownFrame cls ty queue ws).source = BitVec.ofNat 8 d.aul.number := rfl

theorem Dev.dataFrame_receives {d : Dev} {f : RingFrame} (portB : Bool) (ht : f.ftype = 0) (hm : d.forMe f = true) :
    d.dataFrame portB f = d.receive portB f fun d1 =>
      if f.dest = 0xFF then (d1.takeData portB f).forwardFrame portB f else d1.takeData portB f := if_pos ⟨ht, hm⟩

/-- A DATA frame for this module alone (R491, R493). -/
theorem dataFrame_received (s : State) {portB : Bool} {f : RingFrame} (hup : s.dev.portIsUp portB = true)
    (hst : s.dev.aul.stopped = false) (he : f.eofBad = false) (ht : f.ftype = 0) (hd : f.dest ≠ 0xFF) (hm : s.dev.forMe f = true) :
    (∀ q, f.crcOk = true → s.dev.dataQueue f = some q → (s.dev.que.q[q]).room f.payload.length = true →
      (s.dev.aul.rxHeld.any (behind portB f)) = false →
      exec (.dataFrame portB f) s = .next (s.put (s.dev.produce q f.payload))) ∧
    (f.crcOk = true → s.dev.dataQueue f = none →
      ∃ t, exec (.dataFrame portB f) s = .next t ∧ t.dev.aul.misrouted = satAdd 16 s.dev.aul.misrouted 1 ∧
        t.dev.que = s.dev.que ∧ t.dev.flagBit 9 0 0xC 6 = true) ∧
    (f.crcOk = false →
      ∃ t, exec (.dataFrame portB f) s = .next t ∧ t.dev.aul.crc = satAdd 16 s.dev.aul.crc 1 ∧ t.dev.que = s.dev.que ∧
        t.dev.flagBit 9 0 0xC 5 = true) := by
  refine ⟨fun q hc hq hr hh => ?_, fun hc hq => ⟨s.put s.dev.misroute, ?_, rfl, rfl, ?_⟩,
    fun hc => ⟨s.put s.dev.countCrc, ?_, rfl, rfl, ?_⟩⟩
  · exact next_put ((Dev.dataFrame_takes hup hst he ht hd hm hc).trans (Dev.takeData_queues hq hr hh))
  · exact next_put ((Dev.dataFrame_takes hup hst he ht hd hm hc).trans (Dev.takeData_misroutes hq))
  · exact Dev.flagBit_raise_self _ 9 0 0xC _ 6 (by decide) (by decide)
  · exact next_put ((Dev.dataFrame_receives portB ht hm).trans (Dev.receive_damaged hup hst he hc hd hm _))
  · exact Dev.flagBit_raise_self _ 9 0 0xC _ 5 (by decide) (by decide)

/-- A frame for another module is sent on, or held until there is room (R491, R492). -/
theorem frameForward_received (s : State) {portB : Bool} {f : RingFrame} (hup : s.dev.portIsUp portB = true)
    (hst : s.dev.aul.stopped = false) (hm : s.dev.forMe f = false) (h4 : f.ftype ≠ 4) (h5 : f.ftype ≠ 5) (hc : f.crcOk = true) :
    (f.cls = 0 ∨ s.dev.canForward portB f.cls = true ∧ (s.dev.aul.rxHeld.any (behind portB f)) = false →
      s.dev.portUsed (!portB) = true → s.dev.portIsUp (!portB) = true →
      exec (.frameForward portB f) s = .next (s.put (s.dev.sendRing (!portB) { f with hops := f.hops + 1 }))) ∧
    (f.cls ≠ 0 → s.dev.canForward portB f.cls = false ∨ (s.dev.aul.rxHeld.any (behind portB f)) = true →
      ∃ t, exec (.frameForward portB f) s = .next t ∧ t.dev.aul.rxHeld = s.dev.aul.rxHeld ++ [(portB, f)]) := by
  have hgo := Dev.frameForward_forwards hup hst hm h4 h5 hc
  refine ⟨fun h hu hp => ?_, fun h0 h => ⟨s.put (s.dev.holdFrame portB f), ?_, ?_⟩⟩
  · refine next_put (hgo.trans ((if_neg ?_).trans (Dev.passOn_sends hu hp)))
    rintro ⟨h0, hn⟩
    obtain ⟨hcan, hheld⟩ := h.resolve_left h0
    rw [hcan, hheld] at hn
    exact hn.elim nofun nofun
  · exact next_put (hgo.trans (if_pos ⟨h0, h.imp (congrArg not) id⟩))
  · exact Dev.flow_rxHeld _

/-- A message whose words are all correctable leaves its queue and is the newest frame of the host port (R126, R495). -/
theorem bridgeTake_sends (d : Dev) (q : Fin 64) (cs : List WordCheck) (cls : Fin 4) {m : QMsg} {ms : List QMsg}
    (hm : (d.freshFront q).que.q[q].msgs = m :: ms) (hp : poisonSpan m ms cs = 0)
    (hi : d.idSpace q.val ≠ 9 ∨ hdrIdent (msgHead m.words) ≠ 0) :
    ∃ f, (d.bridgeTake q cls cs).que.q[q].msgs = ms ∧
      ((d.bridgeTake q cls cs).port d.aul.hostB).sent = f :: (d.port d.aul.hostB).sent ∧ f.cls = cls ∧
      f.queue = BitVec.ofNat 8 q.val ∧ f.source = BitVec.ofNat 8 d.aul.number ∧ f.payload.drop 1 = m.words.drop 1 := by
  have haul : ((d.freshFront q).frontTaken q cs m ms).aul = d.aul :=
    (Dev.frontTaken_aul ..).trans (aul_of_part (Dev.freshFront_part (by decide) ..))
  have hmsgs := Dev.frontTaken_msgs (d.freshFront q) q cs m ms
  rw [Dev.bridgeTake_front cls hm hp hi]
  generalize (d.freshFront q).frontTaken q cs m ms = e at haul hmsgs ⊢
  refine ⟨e.ownFrame cls 0 q.val (withIdent m.words (w32 (hdrIdent (msgHead m.words)))), ?_, ?_, rfl, rfl, ?_, withIdent_tail _ _⟩
  · rw [Dev.bridgeSends_que]
    exact hmsgs
  · have hport : (e.port d.aul.hostB).sent = (d.port d.aul.hostB).sent := by
      unfold Dev.port
      rw [haul]
    rw [← hport, ← haul]
    exact Dev.bridgeSends_sent ..
  · rw [Dev.ownFrame_source, haul]

/-- Settles O54: each command by the lemma about what receives, forwards or sends its frame; the arbitration of a port by the
choice of the least over the classes. -/
theorem ringTraffic : Obligations.RingTraffic := by
  unfold Obligations.RingTraffic
  intro s
  refine ⟨fun portB f hup hst he => ⟨dataFrame_received s hup hst he, ?_, ?_⟩, ?_, ?_, ?_, ?_⟩
  · intro ht hd hm hc hu w1 ws ok d1 hp hn h1 h8 htr
    exact next_put ((Dev.ringLreq_takes hup hst he ht hd hm hc).trans (Dev.takeLreq_runs hu hp hn h1 h8 htr))
  · exact fun hm h4 h5 hc => frameForward_received s hup hst hm h4 h5 hc
  · intro p c h
    obtain ⟨hw, hle⟩ := Port.nextClass_least h
    obtain ⟨h0, -, hy⟩ := Port.classWaits_iff.1 hw
    obtain ⟨x, hx, hmem, hc, hturn⟩ := Port.nextOf_turns hy
    exact ⟨h0, hw, hle, x, hx, hmem, hc, hturn, Port.start_shares x⟩
  · exact fun f g a b dt rest hg hb => interrupt_cuts rest hg hb
  · intro q cs h hc hd hmay hid
    refine ⟨fun hcls hs => ?_, fun hcls hf hm hw => next_put (Dev.bridgeSend_waits h hc hd hmay hid hcls hf hm hw)⟩
    have htake := next_put (s := s) (Dev.bridgeSend_serves (cs := cs) h hc hd hmay hid hcls hs)
    refine ⟨htake, fun m ms hm hp hi => ?_⟩
    obtain ⟨f, hmsgs, hsent, hfc, hrest⟩ := bridgeTake_sends s.dev q cs ⟨s.dev.que.q[q].entry.cls, h⟩ hm hp hi
    exact ⟨_, f, htake, hmsgs, hsent, congrArg Fin.val hfc, hrest⟩
  · exact fun q cs hw hf => ⟨next_put (Dev.c0Release_due hw hf), _, rfl⟩

end Sys2Proof.Machine
end

section
/-! SUPPORT. The ring link and its ports (R484, R491, R498 to R503, R506). -/

namespace Sys2Proof.Machine

/-! ### What traffic leaves of a port and of the link -/

/-- A port without the traffic on its line. -/
def Port.still (p : Port) : Port :=
  { p with pausing := 0, c0Starts := [], sent := [], line := [], lineAt := 0, waiting := [], shares := Vector.replicate 4 0, shareNow := 0, ownLast := 0 }

section
variable {p q : Port} (h : p.still = q.still)
include h

theorem Port.st_of_still : p.st = q.st := (congrArg Port.st h :)

theorem Port.paused_of_still : p.paused = q.paused := (congrArg Port.paused h :)
end

/-- The link without traffic: what numbering, routing and the ports' states have set. -/
def Dev.link (d : Dev) : AulState :=
  { d.aul with a := d.aul.a.still, b := d.aul.b.still, crc := 0, misrouted := 0, held := 0, sentC0 := 0, rxHeld := [], repHeld := [], c0Wait := [] }

theorem Port.run_still (k : Nat) : ∀ (p : Port) (el : Nat), (Port.run k p el).still = p.still := by
  induction k with
  | zero => exact fun _ _ => rfl
  | succ k ih =>
    intro p el
    unfold Port.run
    extract_lets x q
    split
    · exact (ih _ el).trans rfl
    · rfl
    · rfl

theorem Port.now_still (p : Port) (el : Nat) : (p.now el).still = p.still := Port.run_still ..

theorem Port.transmit_still (p : Port) (own : Bool) (f : RingFrame) (el : Nat) : (p.transmit own f el).still = p.still := by
  have hs := p.now_still el
  unfold Port.transmit
  extract_lets q r
  have hr : r.still = p.still := hs
  split
  · exact hr
  · exact (Port.now_still _ el).trans hr

section
variable {d e : Dev}

theorem Dev.link_of_part (h : e.part .aul = d.part .aul) : e.link = d.link := by
  unfold Dev.link
  rw [aul_of_part h]

theorem Dev.port_of_aul (h : e.aul = d.aul) (portB : Bool) : e.port portB = d.port portB := by
  unfold Dev.port
  rw [h]

theorem Dev.port_still (h : e.link = d.link) (portB : Bool) : (e.port portB).still = (d.port portB).still := by
  cases portB
  · exact congrArg AulState.a h
  · exact congrArg AulState.b h

theorem Dev.link_updPort {p : Bool} {f : Port → Port} (hf : ∀ x, (f x).still = x.still) : (d.updPort p f).link = d.link := by
  unfold Dev.updPort Dev.link
  cases p
  · exact congrArg (fun x => { d.aul with
      a := x, b := d.aul.b.still, crc := 0, misrouted := 0, held := 0, sentC0 := 0, rxHeld := [], repHeld := [], c0Wait := [] }) (hf _)
  · exact congrArg (fun x => { d.aul with
      a := d.aul.a.still, b := x, crc := 0, misrouted := 0, held := 0, sentC0 := 0, rxHeld := [], repHeld := [], c0Wait := [] }) (hf _)

theorem Dev.link_flowPort (d : Dev) (p : Bool) : (d.flowPort p).link = d.link := by
  unfold Dev.flowPort
  exact Dev.link_updPort fun _ => rfl

theorem Dev.link_flow (d : Dev) : d.flow.link = d.link := (Dev.link_flowPort ..).trans (Dev.link_flowPort ..)

theorem Dev.link_sendRing (d : Dev) (portB : Bool) (f : RingFrame) (own : Bool) : (d.sendRing portB f own).link = d.link :=
  (Dev.link_flow _).trans (Dev.link_updPort fun x => x.transmit_still own f d.el)

theorem Dev.link_startC0 (d : Dev) (portB : Bool) (f : RingFrame) : (d.startC0 portB f).link = d.link :=
  (Dev.link_updPort (d := d.sendRing portB f true) (p := portB) (f := fun p => { p with c0Starts := (d.el :: p.c0Starts).take 2 })
    fun _ => rfl).trans (d.link_sendRing portB f true)

theorem Dev.link_passOn (d : Dev) (portB : Bool) (f : RingFrame) : (d.passOn portB f).link = d.link := by
  unfold Dev.passOn
  split
  · exact Dev.link_sendRing ..
  · rfl

theorem Dev.link_forwardFrame (d : Dev) (portB : Bool) (f : RingFrame) : (d.forwardFrame portB f).link = d.link := by
  unfold Dev.forwardFrame
  extract_lets g d1
  have h1 : d1.link = d.link := by
    unfold d1
    split <;> rfl
  split
  · exact (Dev.link_flow _).trans h1
  · exact (Dev.link_passOn ..).trans h1

theorem Dev.link_releaseRing (xs : List (Bool × RingFrame)) : ∀ (kept : List (Bool × RingFrame)) (d : Dev),
    (Dev.releaseRing xs kept d).link = d.link := by
  induction xs with
  | nil => exact fun _ _ => rfl
  | cons x xs ih =>
    intro kept d
    unfold Dev.releaseRing
    split
    · exact ih ..
    · split
      · split
        · exact (ih ..).trans rfl
        · split
          · exact (ih ..).trans (Dev.link_of_part (Dev.produce_part (by decide) ..))
          · exact ih ..
      · split
        · exact (ih ..).trans (Dev.link_passOn ..)
        · exact ih ..

theorem Dev.link_workBuffers (d : Dev) : d.workBuffers.link = d.link := (Dev.link_flow _).trans (Dev.link_releaseRing ..)

theorem Dev.link_sendReps (d : Dev) : d.sendReps.link = d.link := by
  unfold Dev.sendReps
  extract_lets go
  exact (foldl_rel go _ (fun e e' => e.link = e'.link) _ rfl fun e f h => (Dev.link_sendRing ..).trans h).trans rfl

theorem Dev.link_sendLink (d : Dev) (portB : Bool) (up : Nat) : (d.sendLink portB up).link = d.link := by
  unfold Dev.sendLink
  split
  · exact Dev.link_startC0 ..
  · rfl

theorem Dev.link_watchSplit (d : Dev) (f : Dev → Dev) : (d.watchSplit f).link = (f d).link := by
  unfold Dev.watchSplit Dev.link
  rw [Dev.oneEvent_aul]
  dsimp only
  split <;> rfl
end

/-! ### Flags -/

section
variable {d : Dev} {g u off b : Nat}

theorem Dev.updPort_flags (d : Dev) (p : Bool) (f : Port → Port) : (d.updPort p f).flags = d.flags := by cases p <;> rfl

theorem Dev.flow_flags (d : Dev) : d.flow.flags = d.flags := (Dev.updPort_flags ..).trans (Dev.updPort_flags ..)

theorem Dev.updPort_regs (d : Dev) (p : Bool) (f : Port → Port) : (d.updPort p f).regs = d.regs := by cases p <;> rfl

theorem Dev.sendRing_flags (d : Dev) (p : Bool) (f : RingFrame) (own : Bool) : (d.sendRing p f own).flags = d.flags :=
  (Dev.updPort_flags ..).trans ((Dev.updPort_flags ..).trans (Dev.updPort_flags ..))

theorem Dev.forwardFrame_flag {p : Bool} {f : RingFrame} (hb : b < 16) (h : d.flagBit g u off b = true) :
    (d.forwardFrame p f).flagBit g u off b = true := by
  unfold Dev.forwardFrame
  extract_lets f' d1
  have h1 : d1.flagBit g u off b = true := by
    unfold d1
    split
    · exact Dev.flagBit_raise_mono _ _ _ _ _ _ _ _ _ hb h
    · exact h
  split
  · exact Dev.flag_of_flags h1 (Dev.flow_flags _)
  · refine Dev.flag_of_flags h1 ?_
    unfold Dev.passOn
    split
    · exact Dev.sendRing_flags ..
    · rfl

theorem Dev.sendLink_flag {p : Bool} {up : Nat} (h : d.flagBit g u off b = true) : (d.sendLink p up).flagBit g u off b = true := by
  refine Dev.flag_of_flags h ?_
  unfold Dev.sendLink
  split
  · exact (Dev.updPort_flags ..).trans (Dev.sendRing_flags ..)
  · rfl

theorem Dev.sendReps_flag (h : d.flagBit g u off b = true) : d.sendReps.flagBit g u off b = true := by
  refine Dev.flag_of_flags h ?_
  unfold Dev.sendReps
  extract_lets go
  exact foldl_rel go _ (fun e e' => e.flags = e'.flags) _ rfl fun e f h => (Dev.sendRing_flags ..).trans h

theorem Dev.watchSplit_flag {f : Dev → Dev} (hb : b < 16) (h : (f d).flagBit g u off b = true) :
    (d.watchSplit f).flagBit g u off b = true := by
  unfold Dev.watchSplit
  rw [Dev.flagBit_oneEvent]
  dsimp only
  split
  · exact Dev.flagBit_raise_mono _ _ _ _ _ _ _ _ _ hb h
  · exact h
end

/-! ### PAUSE and GO (R491) -/

section
variable {d : Dev} {portB : Bool} {cls : Fin 4}

theorem getLsbD_set : ∀ (x : BitVec 4) (c : Fin 4), (BitVec.ofNat 4 (x.toNat ||| 2 ^ c.val)).getLsbD c.val = true := by decide

theorem getLsbD_clear : ∀ (x : BitVec 4) (c : Fin 4),
    (BitVec.ofNat 4 (x.toNat - (x.toNat &&& 2 ^ c.val))).getLsbD c.val = false := by decide

theorem Dev.pauseRx_pauses (h0 : cls ≠ 0) (hu : d.portIsUp portB = true) : d.pauseRx portB cls =
    d.updPort portB fun p => { p.now d.el with paused := BitVec.ofNat 4 (p.paused.toNat ||| 2 ^ cls.val) } :=
  if_neg (by rw [hu]; exact fun h => h.elim h0 nofun)

theorem Dev.updPort_self (d : Dev) (f : Port → Port) : (d.updPort portB f).port portB = f (d.port portB) :=
  (Dev.updPort_port ..).trans (if_pos rfl)

theorem Dev.updPort_other (d : Dev) (f : Port → Port) : (d.updPort portB f).port (!portB) = d.port (!portB) :=
  (Dev.updPort_port ..).trans (if_neg (by cases portB <;> decide))

theorem Dev.goRx_resumes (d : Dev) (portB : Bool) (cls : Fin 4) : ((d.goRx portB cls).port portB).paused.getLsbD cls.val = false := by
  have hlink : (d.goRx portB cls).link = _ := (Dev.link_sendReps _).trans (Dev.link_workBuffers _)
  rw [Port.paused_of_still (Dev.port_still hlink portB), Dev.updPort_self, Port.paused_of_still (Port.now_still _ d.el)]
  exact getLsbD_clear ..
end

/-! ### Numbering, ROUTE and LINK (R498 to R501) -/

section
variable {d : Dev} {portB : Bool} {f : RingFrame}

theorem Dev.ringEnum_acts (hup : d.portIsUp portB = true) (hst : d.aul.stopped = false) (he : f.eofBad = false) (hc : f.crcOk = true)
    (ht : f.ftype = 6) {w1 w2 : QData} {ws : List QData} (hp : f.payload = w1 :: w2 :: ws)
    (hpass : bits w1.toNat 63 56 = 1 ∨ bits w1.toNat 63 56 = 2) :
    ∃ g : Nat → RingFrame, d.ringEnum portB f = d.watchSplit fun y =>
      let y2 := { y.setHostPort portB with aul := { (y.setHostPort portB).aul with position := (bits w1.toNat 55 48 + 1) % 256 } }.enumAct
        (bits w1.toNat 63 56) w2.toNat
      y2.1.forwardFrame portB (g y2.2) := by
  refine ⟨fun m => { f with payload := [packQ [(8, bits w1.toNat 63 56), (8, (bits w1.toNat 55 48 + 1) % 256), (48, 0)], BitVec.ofNat 64 m] },
    (if_pos ht).trans ((Dev.receive_good hup hst he hc _).trans (congrArg d.watchSplit (funext fun y => ?_)))⟩
  rw [hp]
  exact if_pos hpass

theorem Dev.enumAct_first {m : Nat} (hn : ¬(1 ≤ d.persona 1 ∧ d.persona 1 ≤ 64 ∧ nbit m (d.persona 1 - 1) = false)) :
    d.enumAct 1 m = ({ d with aul := { d.aul with number := 0, numbered := false, enumerating := true } }, m) := by
  unfold Dev.enumAct
  dsimp only
  rw [if_pos rfl]
  refine if_neg fun ⟨h1, h2, h3⟩ => hn ⟨h1, h2, ?_⟩
  simpa using h3

theorem Dev.enumAct_second {m i : Nat} (hn : d.aul.numbered = false) (hi : lowestClear m = some i) :
    d.enumAct 2 m = (({ d with aul := { d.aul with enumerating := false } } : Dev).takeNumber (i + 1), m + 2 ^ i) := by
  unfold Dev.enumAct
  dsimp only
  rw [if_neg (by decide), hi]
  exact if_neg (ne_true_of_eq_false hn)

theorem Dev.setHostPort_numbered (d : Dev) (p : Bool) : (d.setHostPort p).aul.numbered = d.aul.numbered := by
  unfold Dev.setHostPort
  split <;> rfl

theorem Dev.setHostPort_number (d : Dev) (p : Bool) : (d.setHostPort p).aul.number = d.aul.number := by
  unfold Dev.setHostPort
  split <;> rfl

theorem Dev.setHostPort_persona (d : Dev) (p : Bool) : (d.setHostPort p).persona 1 = d.persona 1 := by
  unfold Dev.setHostPort
  split <;> rfl

theorem Dev.ringRoute_routes (hup : d.portIsUp portB = true) (hst : d.aul.stopped = false) (he : f.eofBad = false) (hc : f.crcOk = true)
    (ht : f.ftype = 7) : d.ringRoute portB f = (d.watchSplit fun y => y.setHostPort portB).forwardFrame portB f :=
  (if_pos ht).trans (Dev.receive_good hup hst he hc _)

theorem Dev.ringLink_down (hup : d.portIsUp portB = true) (hst : d.aul.stopped = false) (he : f.eofBad = false) (hc : f.crcOk = true)
    (ht : f.ftype = 8) (hd : bits (msgHead f.payload).toNat 63 56 = 0) (hh : portB = d.aul.hostB) :
    ∃ g : Dev → Dev, g d = d.loseHostPort ∧ d.ringLink portB f = (d.watchSplit g).forwardFrame portB f :=
  ⟨_, if_pos ⟨hd, hh⟩, (if_pos ht).trans (Dev.receive_good hup hst he hc _)⟩

theorem Dev.loseHostPort_turns (hp : d.portIsUp (!d.aul.hostB) = true) (hu : d.portUsed (!d.aul.hostB) = true) :
    d.loseHostPort = { d with aul := { d.aul with hostB := !d.aul.hostB } } := (if_pos hp).trans (if_pos hu)

/-! ### SYNC (R503) -/

theorem Dev.round_near (d : Dev) (q : Rat) : ((d.round q).1 : Rat) - q ≤ 1 ∧ -1 ≤ ((d.round q).1 : Rat) - q := by
  have hlo : (q.floor : Rat) ≤ q := Rat.le_floor_iff.1 le_rfl
  have hhi : q < ((q.floor + 1 : Int) : Rat) := Rat.floor_lt_iff.1 (Int.lt_succ q.floor)
  have h1 : ((q.floor : Int) : Rat) ≤ (d.round q).1 := Int.cast_le.2 (Dev.le_round hlo)
  have h2 : ((d.round q).1 : Rat) ≤ ((q.floor + 1 : Int) : Rat) := Int.cast_le.2 (Dev.round_le hhi.le)
  push_cast at hhi h2
  constructor <;> linarith

/-- What a SYNC frame says the site time is off by. -/
def Dev.syncDue (d : Dev) (portB : Bool) (w1 w2 : QData) : Rat :=
  (w1.toNat : Rat) + (signed 64 w2.toNat : Rat) / 65536 + (d.port portB).delay - (d.tim.now : Rat)

/-- The offset goes to the register and to the servo. -/
def Dev.syncTaken (d : Dev) (off : Int) : Dev :=
  ({ d with aul := { d.aul with syncOff := clampInt off 0x7FFFFFFF } } : Dev).servoOffset false off

/-- The device that has read a SYNC frame, before the frame goes on. -/
def Dev.syncRead (d : Dev) (portB : Bool) (w1 w2 : QData) : Dev :=
  if portB = d.aul.hostB then (d.round (d.syncDue portB w1 w2)).2.syncTaken (d.round (d.syncDue portB w1 w2)).1 else d

theorem Dev.ringSync_reads (hup : d.portIsUp portB = true) (hst : d.aul.stopped = false) (he : f.eofBad = false) (hc : f.crcOk = true)
    (ht : f.ftype = 3) {w1 w2 : QData} {ws : List QData} (hp : f.payload = w1 :: w2 :: ws) :
    ∃ (q : Rat) (g : RingFrame), d.ringSync portB f =
      (({ d.syncRead portB w1 w2 with fresh := (d.syncRead portB w1 w2).fresh + 1 } : Dev).round q).2.forwardFrame portB g := by
  unfold Dev.ringSync
  rw [if_pos ht, Dev.receive_good hup hst he hc, hp]
  exact ⟨_, _, rfl⟩

section
variable (e : Dev) (q : Rat) (g : RingFrame)

theorem Dev.sentOn_tim : ((({ e with fresh := e.fresh + 1 } : Dev).round q).2.forwardFrame portB g).tim = e.tim :=
  (Dev.forwardFrame_part (pt := .tim) (by decide) ..).trans (Dev.round_tim ..)

theorem Dev.sentOn_syncOff : ((({ e with fresh := e.fresh + 1 } : Dev).round q).2.forwardFrame portB g).aul.syncOff = e.aul.syncOff :=
  have hlink := (Dev.link_forwardFrame _ portB g).trans (Dev.link_of_part (Dev.round_part { e with fresh := e.fresh + 1 } q))
  (congrArg AulState.syncOff hlink :)
end

theorem Dev.servoOffset_aul (d : Dev) (mesh : Bool) (off : Int) : (d.servoOffset mesh off).aul = d.aul := by
  unfold Dev.servoOffset
  split
  · split <;> rfl
  · rfl

theorem Dev.syncTaken_ringOffs (d : Dev) (off : Int) (hs : d.tim.servo.st = .running) :
    (d.syncTaken off).tim.ringOffs = off :: d.tim.ringOffs := by
  have hgo : d.syncTaken off = { d with
      aul := { d.aul with syncOff := clampInt off 0x7FFFFFFF }, tim := { d.tim with ringOffs := off :: d.tim.ringOffs } } :=
    (if_pos (decide_eq_true hs)).trans rfl
  rw [hgo]

/-! ### The exchange of delays (R502) -/

theorem Dev.delayReq_sends (hup : d.portIsUp portB = true) (hst : d.aul.stopped = false) (hu : d.sto.holdup = false) :
    d.delayReq portB = ({ d with fresh := d.fresh + 1 } : Dev).sendRing portB
      (d.ownFrame 1 5 0 [BitVec.ofNat 64 d.tim.now, BitVec.ofNat 64 (d.tim.now + Config.freeNat d.fresh)]) true :=
  if_pos ⟨hup, congrArg not hst, congrArg not hu⟩

theorem Dev.delayResp_takes (hup : d.portIsUp portB = true) {t1 : Nat} (ht : (d.port portB).t1 = some t1) (t2 t3 : BitVec 64) :
    d.delayResp portB t2 t3 = d.updPort portB fun p =>
      { p with t1 := none, delays := ((((d.tim.now : Int) - t1) - ((t3.toNat : Int) - t2.toNat)) :: p.delays).take 8 } := by
  unfold Dev.delayResp
  rw [ht]
  exact if_pos hup

/-- The link of a port whose delay request is due. -/
theorem Dev.sendDelayReq_due (hup : d.portIsUp portB = true)
    (hd : d.after (d.port portB).lastReq (d.rfld 9 0 4 7 0 * ms 100) = true) :
    ((d.sendDelayReq portB).port portB).t1 = some d.tim.now ∧ ((d.sendDelayReq portB).port portB).lastReq = d.el := by
  have hgo : d.sendDelayReq portB = _ := if_pos ⟨hup, hd⟩
  rw [hgo, Dev.updPort_self]
  exact ⟨rfl, rfl⟩

theorem Dev.sendDelayReq_other (d : Dev) (portB : Bool) :
    ((d.sendDelayReq portB).port (!portB)).still = (d.port (!portB)).still := by
  unfold Dev.sendDelayReq
  split
  · rw [Dev.updPort_other]
    exact Dev.port_still (Dev.link_sendRing ..) _
  · rfl

theorem Dev.sendDelayReq_regs (d : Dev) (portB : Bool) : (d.sendDelayReq portB).regs = d.regs := by
  unfold Dev.sendDelayReq Dev.sendRing Dev.flow Dev.flowPort
  split
  · simp only [Dev.updPort_regs]
  · rfl

theorem Dev.sendDelayReq_tim (d : Dev) (portB : Bool) : (d.sendDelayReq portB).tim = d.tim :=
  Dev.sendDelayReq_part (pt := .tim) (by decide) ..

theorem Dev.rfld_of_regs {d e : Dev} (h : e.regs = d.regs) (g u off hi lo : Nat) : e.rfld g u off hi lo = d.rfld g u off hi lo := by
  unfold Dev.rfld Dev.reg
  rw [h]

/-- A port whose request is due has sent it when the timer has run. -/
theorem Dev.delayTimer_sends (hup : d.portIsUp portB = true) (hst : d.aul.stopped = false) (hu : d.sto.holdup = false)
    (hd : d.after (d.port portB).lastReq (d.rfld 9 0 4 7 0 * ms 100) = true) :
    (d.delayTimer.port portB).t1 = some d.tim.now ∧ (d.delayTimer.port portB).lastReq = d.el := by
  have hgo : d.delayTimer = (d.sendDelayReq false).sendDelayReq true := if_neg (by rw [hst, hu]; exact nofun)
  rw [hgo]
  cases portB with
  | false =>
    obtain ⟨ht1, hlast⟩ := Dev.sendDelayReq_due hup hd
    have hkeep := (d.sendDelayReq false).sendDelayReq_other true
    exact ⟨(congrArg Port.t1 hkeep :).trans ht1, (congrArg Port.lastReq hkeep :).trans hlast⟩
  | true =>
    have hkeep := d.sendDelayReq_other false
    have hup' : (d.sendDelayReq false).portIsUp true = true := decide_eq_true ((Port.st_of_still hkeep).trans (of_decide_eq_true hup))
    have hlast : ((d.sendDelayReq false).port true).lastReq = (d.port true).lastReq := (congrArg Port.lastReq hkeep :)
    have hd' : (d.sendDelayReq false).after ((d.sendDelayReq false).port true).lastReq ((d.sendDelayReq false).rfld 9 0 4 7 0 * ms 100) = true := by
      rw [hlast, Dev.rfld_of_regs (d.sendDelayReq_regs false), Dev.after_iff, Dev.sendDelayReq_tim]
      exact (d.after_iff ..).1 hd
    have hsent := Dev.sendDelayReq_due hup' hd'
    unfold Dev.el at hsent
    rw [Dev.sendDelayReq_tim] at hsent
    exact hsent

/-! ### Ports that go down and come up (R484, R500, R506) -/

theorem Dev.loseHostPort_port (d : Dev) (p : Bool) : d.loseHostPort.port p = d.port p := by
  unfold Dev.loseHostPort Dev.setHostPort
  split
  · split <;> rfl
  · rfl

theorem Dev.loseHostPort_flags (d : Dev) : d.loseHostPort.flags = d.flags := by
  unfold Dev.loseHostPort Dev.setHostPort
  split
  · split <;> rfl
  · rfl

theorem Dev.link_announces (d : Dev) (g : Dev → Dev) (p : Bool) (up : Nat) :
    (d.watchSplit fun x => (g x).sendLink p up).link = (g d).link :=
  (Dev.link_watchSplit ..).trans (Dev.link_sendLink ..)

theorem Dev.announces_flag {d : Dev} (g : Dev → Dev) (p : Bool) (up : Nat) {h u off b : Nat} (hb : b < 16)
    (hf : (g d).flagBit h u off b = true) : (d.watchSplit fun x => (g x).sendLink p up).flagBit h u off b = true :=
  Dev.watchSplit_flag hb (Dev.sendLink_flag hf)

/-- A port that has lost its lock, before the link takes note of it. -/
def Dev.portLost (d : Dev) (portB : Bool) : Dev :=
  let x := d.updPort portB fun p =>
    { p with st := .training, lockLosses := satAdd 16 p.lockLosses 1, violations := satAdd 16 p.violations (Config.freeNat d.fresh)
             paused := 0, pausing := 0, delays := [], t1 := none, line := [], waiting := [] }
  ({ x with fresh := x.fresh + 1 } : Dev).raiseAul 0

/-- The other port becomes the host port where the one that is down was. -/
def Dev.hostLost (d : Dev) (portB : Bool) : Dev := if d.aul.hostB = portB then d.loseHostPort else d

theorem Dev.hostLost_port (d : Dev) (portB p : Bool) : (d.hostLost portB).port p = d.port p := by
  unfold Dev.hostLost
  split
  · exact Dev.loseHostPort_port ..
  · rfl

theorem Dev.hostLost_flags (d : Dev) (portB : Bool) : (d.hostLost portB).flags = d.flags := by
  unfold Dev.hostLost
  split
  · exact Dev.loseHostPort_flags ..
  · rfl

theorem Dev.portLost_port (d : Dev) (portB : Bool) : ((d.portLost portB).port portB).st = .training ∧
    ((d.portLost portB).port portB).lockLosses = satAdd 16 (d.port portB).lockLosses 1 := by cases portB <;> exact ⟨rfl, rfl⟩

theorem Dev.portLost_flag (d : Dev) (portB : Bool) : (d.portLost portB).flagBit 9 0 0xC 0 = true :=
  Dev.flagBit_raise_self _ 9 0 0xC _ 0 (by decide) (by decide)

theorem Dev.dropPort_loses (d : Dev) (portB : Bool) :
    d.dropPort portB = d.watchSplit fun x => ((x.portLost portB).hostLost portB).sendLink portB 0 := rfl

theorem Dev.dropPort_drops (d : Dev) (portB : Bool) : ((d.dropPort portB).port portB).st = .training ∧
    ((d.dropPort portB).port portB).lockLosses = satAdd 16 (d.port portB).lockLosses 1 ∧ (d.dropPort portB).flagBit 9 0 0xC 0 = true := by
  obtain ⟨hst, hlosses⟩ := d.portLost_port portB
  have hkeep : ((d.dropPort portB).port portB).still = ((d.portLost portB).port portB).still := by
    rw [Dev.dropPort_loses, Dev.port_still (d.link_announces (fun x => (x.portLost portB).hostLost portB) portB 0), Dev.hostLost_port]
  refine ⟨(Port.st_of_still hkeep).trans hst, (congrArg Port.lockLosses hkeep :).trans hlosses, ?_⟩
  rw [Dev.dropPort_loses]
  exact Dev.announces_flag (fun x => (x.portLost portB).hostLost portB) portB 0 (by decide)
    (Dev.flag_of_flags (d.portLost_flag portB) (Dev.hostLost_flags ..))

/-- A port that has come up, before the link takes note of it. -/
def Dev.portCame (d : Dev) (portB : Bool) (el : Nat) : Dev := (d.updPort portB fun p => { p with st := .up, lastReq := el }).raiseAul 1

theorem Dev.portCame_port (d : Dev) (portB : Bool) (el : Nat) : ((d.portCame portB el).port portB).st = .up := by cases portB <;> rfl

theorem Dev.portCame_flag (d : Dev) (portB : Bool) (el : Nat) : (d.portCame portB el).flagBit 9 0 0xC 1 = true :=
  Dev.flagBit_raise_self _ 9 0 0xC _ 1 (by decide) (by decide)

theorem Dev.portUp_comes (hdn : d.portIsUp portB = false) (hu : d.portUsed portB = true) (hst : d.aul.stopped = false)
    (hh : d.pwr.held = false) : ((d.portUp portB).port portB).st = .up ∧ (d.portUp portB).flagBit 9 0 0xC 1 = true := by
  have hgo : d.portUp portB = (d.watchSplit fun x => (x.portCame portB d.el).sendLink portB 1).sendReps.flow :=
    if_neg (by rw [hdn, hu, hst, hh]; decide)
  rw [hgo]
  constructor
  · have hlink := (Dev.link_flow _).trans ((Dev.link_sendReps _).trans (d.link_announces (fun x => x.portCame portB d.el) portB 1))
    exact (Port.st_of_still (Dev.port_still hlink portB)).trans (d.portCame_port portB d.el)
  · have hflag := d.portCame_flag portB d.el
    exact Dev.flag_of_flags (Dev.sendReps_flag (Dev.announces_flag (fun x => x.portCame portB d.el) portB 1 (by decide) hflag))
      (Dev.flow_flags _)

/-- PORT_RETRAIN starts training on a port whatever its state (R500). -/
theorem portRetrainCmd_trains {ag : Agent} {arg : BitVec 24} (hu : argUnit arg = b1 portB) (ha : argBits arg 15 0 = 0)
    (hag : ag ≠ .host) : ∃ e, portRetrainCmd ag arg d = (.ok, e) ∧ (e.port portB).st = .training := by
  have hb : (argUnit arg = 1) = (portB = true) := by rw [hu]; cases portB <;> decide
  unfold portRetrainCmd
  dsimp only
  rw [if_neg (by rw [hu, ha]; cases portB <;> decide), if_neg fun h => hag h.1]
  simp only [hb, Bool.decide_eq_true]
  split
  · exact ⟨_, rfl, (d.dropPort_drops portB).1⟩
  · refine ⟨_, rfl, ?_⟩
    rw [Dev.updPort_self]

theorem portRetrainCmd_host {arg : BitVec 24} (hu : argUnit arg = b1 portB) (ha : argBits arg 15 0 = 0) (hh : d.aul.hostB = portB) :
    portRetrainCmd .host arg d = (.state d.aulState, d) := by
  have hb : (argUnit arg = 1) = (portB = true) := by rw [hu]; cases portB <;> decide
  unfold portRetrainCmd
  dsimp only
  rw [if_neg (by rw [hu, ha]; cases portB <;> decide)]
  simp only [hb, Bool.decide_eq_true]
  exact if_pos ⟨trivial, by rw [hh]⟩
end

/-! ### The commands -/

/-- A port takes PAUSE of a class from its link, and GO (R491). -/
theorem pause_go (portB : Bool) (s : State) :
    (∀ cls : Fin 4, cls ≠ 0 → s.dev.portIsUp portB = true →
      ∃ t, exec (.pauseReceived portB cls) s = .next t ∧ (t.dev.port portB).paused.getLsbD cls.val = true ∧
        t.dev = { s.dev with aul := t.dev.aul } ∧ t.dev.port (!portB) = s.dev.port (!portB)) ∧
    (∀ cls : Fin 4, ∃ t, exec (.goReceived portB cls) s = .next t ∧ (t.dev.port portB).paused.getLsbD cls.val = false) := by
  refine ⟨fun cls h0 hu => ⟨s.put (s.dev.updPort portB _), next_put (Dev.pauseRx_pauses h0 hu), ?_, ?_,
    s.dev.updPort_other _⟩, fun cls => ⟨s.put (s.dev.goRx portB cls), rfl, s.dev.goRx_resumes portB cls⟩⟩
  · exact (congrArg (fun p : Port => p.paused.getLsbD cls.val) (s.dev.updPort_self _)).trans (getLsbD_set ..)
  · cases portB <;> rfl

section
variable {portB : Bool} {s : State} {f : RingFrame} (hst : s.dev.aul.stopped = false) (hup : s.dev.portIsUp portB = true)
include hst hup

/-- The two passes of numbering (R499). -/
theorem ringEnum_numbers (hc : f.crcOk = true) (he : f.eofBad = false) (ht : f.ftype = 6) {w1 w2 : QData} {ws : List QData}
    (hp : f.payload = w1 :: w2 :: ws) :
    (bits w1.toNat 63 56 = 1 → ¬(1 ≤ s.dev.persona 1 ∧ s.dev.persona 1 ≤ 64 ∧ nbit w2.toNat (s.dev.persona 1 - 1) = false) →
      ∃ t, exec (.ringEnum portB f) s = .next t ∧ t.dev.aul.numbered = false ∧ t.dev.aul.number = 0 ∧
        t.dev.aul.position = (bits w1.toNat 55 48 + 1) % 256) ∧
    (bits w1.toNat 63 56 = 2 → s.dev.aul.numbered = false → ∀ i, lowestClear w2.toNat = some i →
      ∃ t, exec (.ringEnum portB f) s = .next t ∧ t.dev.aul.numbered = true ∧ t.dev.aul.number = i + 1 ∧
        t.dev.flagBit 9 0 0xC 3 = true) := by
  refine ⟨fun hpass hn => ?_, fun hpass hn i hi => ?_⟩
  · obtain ⟨g, hgo⟩ := Dev.ringEnum_acts hup hst he hc ht hp (.inl hpass)
    have hlink := (congrArg Dev.link hgo).trans ((Dev.link_watchSplit ..).trans (Dev.link_forwardFrame ..))
    rw [hpass, Dev.enumAct_first (by rw [← s.dev.setHostPort_persona portB] at hn; exact hn)] at hlink
    exact ⟨s.put _, rfl, (congrArg AulState.numbered hlink :), (congrArg AulState.number hlink :), (congrArg AulState.position hlink :)⟩
  · obtain ⟨g, hgo⟩ := Dev.ringEnum_acts hup hst he hc ht hp (.inr hpass)
    have hact := fun n => Dev.enumAct_second (d := ({ s.dev.setHostPort portB with
      aul := { (s.dev.setHostPort portB).aul with position := n } } : Dev)) ((s.dev.setHostPort_numbered portB).trans hn) hi
    have hlink := (congrArg Dev.link hgo).trans ((Dev.link_watchSplit ..).trans (Dev.link_forwardFrame ..))
    rw [hpass, hact] at hlink
    refine ⟨s.put _, rfl, (congrArg AulState.numbered hlink :), (congrArg AulState.number hlink :), ?_⟩
    refine (congrArg (fun d : Dev => d.flagBit 9 0 0xC 3) hgo).trans (Dev.watchSplit_flag (by decide)
      (Dev.forwardFrame_flag (by decide) ?_))
    rw [hpass, hact]
    exact Dev.flagBit_raise_self _ 9 0 0xC _ 3 (by decide) (by decide)

/-- ROUTE and LINK turn the host port (R498, R501). -/
theorem ring_routes (hc : f.crcOk = true) (he : f.eofBad = false) :
    (f.ftype = 7 → s.dev.portUsed portB = true →
      ∃ t, exec (.ringRoute portB f) s = .next t ∧ t.dev.aul.hostB = portB ∧ t.dev.aul.number = s.dev.aul.number) ∧
    (f.ftype = 8 → bits (msgHead f.payload).toNat 63 56 = 0 → portB = s.dev.aul.hostB →
      s.dev.portIsUp (!portB) = true → s.dev.portUsed (!portB) = true →
      ∃ t, exec (.ringLink portB f) s = .next t ∧ t.dev.aul.hostB = !portB) := by
  refine ⟨fun ht hu => ?_, fun ht hd hh hp hu => ?_⟩
  · have hlink := (Dev.link_forwardFrame _ portB f).trans (s.dev.link_watchSplit fun y => y.setHostPort portB)
    rw [← Dev.ringRoute_routes hup hst he hc ht, show s.dev.setHostPort portB = _ from if_pos hu] at hlink
    exact ⟨s.put _, rfl, (congrArg AulState.hostB hlink :), (congrArg AulState.number hlink :)⟩
  · subst hh
    obtain ⟨g, hg, hgo⟩ := Dev.ringLink_down hup hst he hc ht hd rfl
    have hlink := (congrArg Dev.link hgo).trans ((Dev.link_forwardFrame ..).trans (s.dev.link_watchSplit g))
    rw [hg, Dev.loseHostPort_turns hp hu] at hlink
    exact ⟨s.put _, rfl, (congrArg AulState.hostB hlink :)⟩

/-- SYNC on the host port gives an offset to the servo, on the other port it only goes on (R503). -/
theorem ringSync_offsets (hc : f.crcOk = true) (he : f.eofBad = false) (ht : f.ftype = 3) :
    (portB = s.dev.aul.hostB → ∀ (w1 w2 : QData) (ws : List QData), f.payload = w1 :: w2 :: ws →
      ∃ t off, exec (.ringSync portB f) s = .next t ∧ t.dev.aul.syncOff = clampInt off 0x7FFFFFFF ∧
        (off : Rat) - ((w1.toNat : Rat) + (signed 64 w2.toNat : Rat) / 65536 + (s.dev.port portB).delay - (s.dev.tim.now : Rat)) ≤ 1 ∧
        -1 ≤ (off : Rat) - ((w1.toNat : Rat) + (signed 64 w2.toNat : Rat) / 65536 + (s.dev.port portB).delay - (s.dev.tim.now : Rat)) ∧
        (s.dev.tim.servo.st = .running → t.dev.tim.ringOffs = off :: s.dev.tim.ringOffs)) ∧
    (portB ≠ s.dev.aul.hostB → f.payload.length = 2 →
      ∃ t, exec (.ringSync portB f) s = .next t ∧ t.dev.tim = s.dev.tim ∧ t.dev.aul.syncOff = s.dev.aul.syncOff) := by
  refine ⟨fun hh w1 w2 ws hp => ?_, fun hh hlen => ?_⟩
  · obtain ⟨q, g, hgo⟩ := Dev.ringSync_reads hup hst he hc ht hp
    obtain ⟨hhi, hlo⟩ := s.dev.round_near (s.dev.syncDue portB w1 w2)
    have htim := s.dev.round_tim (s.dev.syncDue portB w1 w2)
    have hread : s.dev.syncRead portB w1 w2 = _ := if_pos hh
    rw [hread] at hgo
    generalize s.dev.round (s.dev.syncDue portB w1 w2) = r at hgo hhi hlo htim
    refine ⟨s.put _, r.1, next_put hgo, ?_, hhi, hlo, fun hs => ?_⟩
    · exact (Dev.sentOn_syncOff ..).trans (congrArg AulState.syncOff (Dev.servoOffset_aul ..))
    · refine (congrArg (fun x => x.ringOffs) (Dev.sentOn_tim ..)).trans ((Dev.syncTaken_ringOffs _ _ ?_).trans ?_)
      · rw [htim, hs]
      · rw [htim]
  · obtain ⟨w1, w2, hp⟩ := List.length_eq_two.1 hlen
    obtain ⟨q, g, hgo⟩ := Dev.ringSync_reads hup hst he hc ht hp
    have hread : s.dev.syncRead portB w1 w2 = s.dev := if_neg hh
    rw [hread] at hgo
    exact ⟨s.put _, next_put hgo, Dev.sentOn_tim .., Dev.sentOn_syncOff ..⟩

/-- The exchange of delays with a neighbour (R502). -/
theorem delays_exchange :
    (s.dev.sto.holdup = false → ∃ t k, exec (.delayReq portB) s = .next t ∧ (t.dev.port portB).sent =
      s.dev.ownFrame 1 5 0 [BitVec.ofNat 64 s.dev.tim.now, BitVec.ofNat 64 (s.dev.tim.now + k)] :: (s.dev.port portB).sent) ∧
    (∀ (t2 t3 : BitVec 64) (t1 : Nat), (s.dev.port portB).t1 = some t1 →
      ∃ t, exec (.delayResp portB t2 t3) s = .next t ∧ (t.dev.port portB).t1 = none ∧
        (t.dev.port portB).delays.head? = some (((s.dev.tim.now : Int) - t1) - ((t3.toNat : Int) - t2.toNat)) ∧
        (t.dev.port portB).delays.length ≤ 8) ∧
    (s.dev.sto.holdup = false → (s.dev.port portB).lastReq + s.dev.rfld 9 0 4 7 0 * 100000000 ≤ s.dev.tim.elapsed →
      ∃ t, exec .delayExchangeTimer s = .next t ∧ (t.dev.port portB).t1 = some s.dev.tim.now ∧
        (t.dev.port portB).lastReq = s.dev.tim.elapsed) := by
  refine ⟨fun hu => ⟨s.put _, _, next_put (Dev.delayReq_sends hup hst hu), Dev.sendRing_sent ..⟩, fun t2 t3 t1 ht => ?_,
    fun hu hd => ⟨s.put s.dev.delayTimer, rfl, Dev.delayTimer_sends hup hst hu ((s.dev.after_iff ..).2 hd)⟩⟩
  have hself := s.dev.updPort_self (portB := portB) fun p =>
    { p with t1 := none, delays := ((((s.dev.tim.now : Int) - t1) - ((t3.toNat : Int) - t2.toNat)) :: p.delays).take 8 }
  refine ⟨s.put _, next_put (Dev.delayResp_takes hup ht t2 t3), congrArg Port.t1 hself, congrArg (fun p => p.delays.head?) hself,
    (congrArg (fun p => p.delays.length) hself).le.trans ?_⟩
  exact List.length_take_le ..
end

/-- Settles O55: PAUSE and GO by the paused bits of the port; every frame by what is left of the link once its traffic is put
aside, which sending and forwarding keep. -/
theorem ringLink : Obligations.RingLink := by
  unfold Obligations.RingLink
  intro portB s
  obtain ⟨hpause, hgo⟩ := pause_go portB s
  refine ⟨hpause, hgo, fun hst hup => ⟨fun f hc he => ?_, ?_⟩, fun hst hdn hu hh => ?_, fun ag hr => ?_, fun ag arg hu ha hr => ⟨?_, ?_⟩⟩
  · obtain ⟨hroute, hlink⟩ := ring_routes hst hup hc he
    exact ⟨fun ht w1 w2 ws hp => ringEnum_numbers hst hup hc he ht hp, hroute, hlink, fun ht => (ringSync_offsets hst hup hc he ht).1,
      fun ht => (ringSync_offsets hst hup hc he ht).2⟩
  · obtain ⟨hreq, hresp, htimer⟩ := delays_exchange hst hup
    exact ⟨hreq, hresp, htimer, s.put (s.dev.dropPort portB), next_put (if_pos hup), s.dev.dropPort_drops portB⟩
  · exact ⟨s.put (s.dev.portUp portB), rfl, Dev.portUp_comes hdn hu hst hh⟩
  · refine ⟨s.put _, next_put (issueCommand_ok hr (if_neg (not_not_intro rfl))), rfl, ?_⟩
    cases portB <;> exact ⟨rfl, rfl, rfl, rfl, rfl, rfl⟩
  · rintro rfl hh
    refine ⟨s.put _, next_put (issueCommand_state hr (portRetrainCmd_host hu ha hh)), rfl, ?_⟩
    exact Dev.port_of_aul (aul_of_part ((Dev.stateReject_part (pt := .aul) ..).trans (Dev.noteCommand_part ..))) portB
  · intro hag
    obtain ⟨e, he, htrain⟩ := portRetrainCmd_trains hu ha hag
    exact ⟨s.put _, next_put (issueCommand_ok hr he), rfl, (congrArg Port.st (Dev.port_of_aul (Dev.completed_aul ..) portB)).trans htrain⟩

end Sys2Proof.Machine
end

section
/-! SUPPORT. What the start of a part leaves of the core and of the command interface (R515, R520). -/

namespace Sys2Proof.Machine

/-- What a reset leaves of the core and of the command interface: no A1, no command under way, no hung access. -/
def Dev.idle (d : Dev) : Bool × List PendingCmd × List HungAccess := (d.coreA1, d.busy, d.hung)

section
variable {d : Dev} {regs staged views : RegFile} {flags : List (Nat × FlagReg)} {reply : Reply} {replies : List Reply} {coreReply : Option Reply}
  {resume : List Request} {permLog cfgLog : List RateLimit} {log : List LogEntry} {logSeq : Nat} {islandRun clockLost : BitVec 16}
  {fresh : Nat} {img : ImgState} {que : QueState} {tim : TimState} {mtr : MtrState} {bil : BilState} {evc : EvcState} {kao : KaoState}
  {lsw : LswState} {plc : PlcState} {key : KeyState} {tag : TagState} {pnl : PnlState} {sto : StoState} {aul : AulState} {pwr : PwrState}

theorem Dev.idle_mk :
    (⟨regs, staged, views, flags, d.coreA1, reply, replies, coreReply, d.busy, d.hung, resume, permLog, cfgLog, log, logSeq,
    islandRun, clockLost, img, que, tim, mtr, bil, evc, kao, lsw, plc, key, tag, pnl, sto, aul, pwr, fresh⟩ : Dev).idle = d.idle := rfl

theorem Dev.idle_ite {c : Prop} [Decidable c] {e : Dev} : (if c then d else e).idle = if c then d.idle else e.idle :=
  apply_ite Dev.idle c d e

theorem Dev.idle_of_control {e : Dev} (h : e.control = d.control) : e.idle = d.idle := by
  have hc := congrArg (fun x => (x.1, x.2.1, x.2.2.1)) h
  exact hc
end

theorem foldl_idle {α : Type} (f : Dev → α → Dev) (l : List α) (d : Dev) (h : ∀ x a, (f x a).idle = x.idle) :
    (l.foldl f d).idle = d.idle := foldl_rel l f (fun a d => a.idle = d.idle) d rfl fun a x ha => (h a x).trans ha

theorem Dev.setReg_idle (d : Dev) (g u off : Nat) (v : Word) :
    (Dev.setReg d g u off v).idle = d.idle := by
  unfold Dev.setReg; simp only [↓Dev.idle_mk]

theorem Dev.setRfld_idle (d : Dev) (g u off hi lo v : Nat) :
    (Dev.setRfld d g u off hi lo v).idle = d.idle := by
  unfold Dev.setRfld; simp only [Dev.setReg_idle]

theorem Dev.count_idle (d : Dev) (g u off hi lo k : Nat) : (Dev.count d g u off hi lo k).idle = d.idle :=
  Dev.setRfld_idle ..

theorem Dev.countMod_idle (d : Dev) (g u off hi lo k : Nat) : (Dev.countMod d g u off hi lo k).idle = d.idle :=
  Dev.setRfld_idle ..

theorem Dev.setView_idle (d : Dev) (ag : Agent) (addr : Nat) (v : Word) :
    (Dev.setView d ag addr v).idle = d.idle := by
  unfold Dev.setView; (repeat' split) <;> simp only [↓Dev.idle_mk]

theorem Dev.round_idle (d : Dev) (q : Rat) :
    (Dev.round d q).2.idle = d.idle := by
  unfold Dev.round; (repeat' split) <;> simp only [↓Dev.idle_mk]

theorem Dev.logEvent_idle (d : Dev) (g : Group) (event : Nat) (data : List Word) (ag : Option Agent) (sl : Nat) :
    (Dev.logEvent d g event data ag sl).idle = d.idle := rfl

theorem Dev.setRun_idle (d : Dev) (i : Nat) (on : Bool) :
    (Dev.setRun d i on).idle = d.idle := by
  unfold Dev.setRun; dsimp only; (repeat' split) <;> simp only [↓Dev.idle_mk]

theorem Dev.updKao_idle (d : Dev) (n : Fin 8) (f : KaoSlice → KaoSlice) :
    (Dev.updKao d n f).idle = d.idle := by
  unfold Dev.updKao; dsimp only; simp only [↓Dev.idle_mk]

theorem Dev.modKao_idle (d : Dev) (f : KaoState → KaoState) :
    (Dev.modKao d f).idle = d.idle := by
  unfold Dev.modKao; simp only [↓Dev.idle_mk]

theorem Dev.updLsw_idle (d : Dev) (c : Fin 16) (f : LswChan → LswChan) :
    (Dev.updLsw d c f).idle = d.idle := by
  unfold Dev.updLsw; dsimp only; simp only [↓Dev.idle_mk]

theorem Dev.updCh_idle (d : Dev) (c : Fin 64) (f : Chan → Chan) :
    (Dev.updCh d c f).idle = d.idle := by
  unfold Dev.updCh; dsimp only; simp only [↓Dev.idle_mk]

theorem Dev.updBil_idle (d : Dev) (n : Fin 8) (f : BilSlice → BilSlice) : (Dev.updBil d n f).idle = d.idle :=
  Dev.idle_of_control (Dev.updBil_control d n f)

theorem Dev.updQ_idle (d : Dev) (q : Fin 64) (f : Queue → Queue) :
    (Dev.updQ d q f).idle = d.idle := by
  unfold Dev.updQ; dsimp only; simp only [↓Dev.idle_mk]

theorem Dev.updKey_idle (d : Dev) (k : Fin 64) (f : KeySlot → KeySlot) : (Dev.updKey d k f).idle = d.idle :=
  Dev.idle_of_control (Dev.updKey_control d k f)

theorem Dev.updCmp_idle (d : Dev) (c : Fin 16) (f : Cmp → Cmp) :
    (Dev.updCmp d c f).idle = d.idle := by
  unfold Dev.updCmp; dsimp only; simp only [↓Dev.idle_mk]

theorem Dev.swapUnit_idle (d : Dev) (g u : Nat) :
    (Dev.swapUnit d g u).idle = d.idle := by
  unfold Dev.swapUnit; simp only [↓Dev.idle_mk]

theorem Dev.putFlag_idle (d : Dev) (addr : Nat) (f : FlagReg) : (Dev.putFlag d addr f).idle = d.idle :=
  Dev.idle_of_control (Dev.putFlag_control d addr f)

theorem Dev.raise_idle (d : Dev) (g u off mask : Nat) : (Dev.raise d g u off mask).idle = d.idle :=
  Dev.idle_of_control (Dev.raise_control d g u off mask)

theorem Dev.oneEvent_idle (d : Dev) (f : Dev → Dev) : (Dev.oneEvent d f).idle = (f d).idle := rfl

theorem Dev.raiseQue_idle (d : Dev) (q b : Nat) :
    (Dev.raiseQue d q b).idle = d.idle := by
  unfold Dev.raiseQue; simp only [Dev.raise_idle]

theorem Dev.raiseBil_idle (d : Dev) (n b : Nat) :
    (Dev.raiseBil d n b).idle = d.idle := by
  unfold Dev.raiseBil; simp only [Dev.raise_idle]

theorem Dev.raiseKao_idle (d : Dev) (b : Nat) :
    (Dev.raiseKao d b).idle = d.idle := by
  unfold Dev.raiseKao; simp only [Dev.raise_idle]

theorem Dev.raiseKey_idle (d : Dev) (b : Nat) : (Dev.raiseKey d b).idle = d.idle :=
  Dev.idle_of_control (Dev.raiseKey_control d b)

theorem Dev.raiseTag_idle (d : Dev) (b : Nat) :
    (Dev.raiseTag d b).idle = d.idle := by
  unfold Dev.raiseTag; simp only [Dev.raise_idle]

theorem Dev.raiseSto_idle (d : Dev) (b : Nat) :
    (Dev.raiseSto d b).idle = d.idle := by
  unfold Dev.raiseSto; simp only [Dev.raise_idle]

theorem Dev.raiseImg_idle (d : Dev) (b : Nat) : (Dev.raiseImg d b).idle = d.idle :=
  Dev.idle_of_control (Dev.raiseImg_control d b)

theorem Dev.writeFields_idle (d : Dev) (row : RegDef) (addr : Nat) (hold : Nat) (data : Word) :
    (Dev.writeFields d row addr hold data).idle = d.idle := by
  unfold Dev.writeFields; dsimp only; (repeat' split) <;> simp only [↓Dev.idle_mk]

theorem Dev.notice_idle (d : Dev) (q : Fin 64) :
    (Dev.notice d q).idle = d.idle := by
  unfold Dev.notice; dsimp only; (repeat' split) <;> simp only [Dev.raiseQue_idle, Dev.updQ_idle, ↓Dev.idle_mk]

theorem Dev.commit_idle (d : Dev) (q : Fin 64) (ws : List QData) :
    (Dev.commit d q ws).idle = d.idle := by
  unfold Dev.commit; dsimp only; (repeat' split) <;> simp only [Dev.notice_idle, Dev.updQ_idle]

theorem Dev.produce_idle (d : Dev) (q : Fin 64) (ws : List QData) :
    (Dev.produce d q ws).idle = d.idle := by
  unfold Dev.produce; dsimp only; (repeat' split) <;> simp only [Dev.commit_idle, Dev.count_idle, Dev.raise_idle, Dev.raiseQue_idle,
    Dev.updQ_idle]

theorem Dev.writeQueEnds_idle (d : Dev) (q : Fin 64) (data : Word) :
    (Dev.writeQueEnds d q data).2.idle = d.idle := by
  unfold Dev.writeQueEnds; (repeat' split) <;> simp only [Dev.setReg_idle]

theorem Dev.loadQueues_idle (d : Dev) (es : List QueueEntry) :
    (Dev.loadQueues d es).idle = d.idle := by
  unfold Dev.loadQueues; dsimp only; simp only [Dev.setReg_idle, ↓Dev.idle_mk, foldl_idle, implies_true]

theorem Dev.servoOffset_idle (d : Dev) (mesh : Bool) (off : Int) :
    (Dev.servoOffset d mesh off).idle = d.idle := by
  unfold Dev.servoOffset; dsimp only; (repeat' split) <;> simp only [↓Dev.idle_mk]

theorem Dev.servoStart_idle (d : Dev) :
    (Dev.servoStart d).idle = d.idle := by
  unfold Dev.servoStart; dsimp only; simp only [Dev.swapUnit_idle, ↓Dev.idle_mk]

theorem Dev.writeOffset_idle (d : Dev) (data : Word) :
    (Dev.writeOffset d data).2.idle = d.idle := by
  unfold Dev.writeOffset; (repeat' split) <;> simp only [Dev.servoOffset_idle]

theorem Dev.fireCmp_idle (d : Dev) (c : Fin 16) (step late : Bool) :
    (Dev.fireCmp d c step late).idle = d.idle := by
  unfold Dev.fireCmp; dsimp only; (repeat' split) <;> simp only [Dev.raise_idle, Dev.updCmp_idle, ↓Dev.idle_mk]

theorem Dev.writeCmpTarget_idle (d : Dev) (c : Fin 16) (target : Word) :
    (Dev.writeCmpTarget d c target).idle = d.idle := by
  unfold Dev.writeCmpTarget; dsimp only; (repeat' split) <;> simp only [Dev.fireCmp_idle, Dev.updCmp_idle]

theorem Dev.writeCmpCtrl_idle (d : Dev) (c : Fin 16) (ctrl : Word) :
    (Dev.writeCmpCtrl d c ctrl).idle = d.idle := by
  unfold Dev.writeCmpCtrl; dsimp only; (repeat' split) <;> simp only [Dev.setReg_idle, Dev.updCmp_idle]

theorem Dev.writeAlmHi_idle (d : Dev) (a : Fin 8) (hi : Word) :
    (Dev.writeAlmHi d a hi).idle = d.idle := by
  unfold Dev.writeAlmHi; dsimp only; simp only [Dev.setReg_idle, ↓Dev.idle_mk]

theorem Dev.writeGain_idle (d : Dev) (ch : Fin 64) (data : Word) :
    (Dev.writeGain d ch data).idle = d.idle := by
  unfold Dev.writeGain; dsimp only; (repeat' split) <;> simp only [Dev.setRfld_idle, Dev.updCh_idle]

theorem Dev.gainWrite_idle (d : Dev) (ch : Fin 64) (data : Word) :
    (Dev.gainWrite d ch data).2.idle = d.idle := by
  unfold Dev.gainWrite; (repeat' split) <;> simp only [Dev.writeGain_idle]

theorem Dev.storeWrite_idle (d : Dev) (addr : Nat) (bs : List Byte) : (Dev.storeWrite d addr bs).idle = d.idle :=
  Dev.idle_of_control (Dev.storeWrite_control d addr bs)

theorem Dev.tamper_idle (d : Dev) (k : Fin 24) (sl : Option (Fin 8)) : (Dev.tamper d k sl).idle = d.idle :=
  Dev.idle_of_control (Dev.tamper_control d k sl)

theorem Dev.overrideStart_idle (d : Dev) (n : Fin 8) (o : Override) (t : Nat) :
    (Dev.overrideStart d n o t).idle = d.idle := by
  unfold Dev.overrideStart; (repeat' split) <;> simp only [Dev.raiseBil_idle, Dev.tamper_idle, Dev.updBil_idle]

theorem Dev.switchOverride_idle (d : Dev) (n : Fin 8) (t : Nat) :
    (Dev.switchOverride d n t).idle = d.idle := by
  unfold Dev.switchOverride; dsimp only; (repeat' split) <;> simp only [Dev.overrideStart_idle, Dev.raiseBil_idle, Dev.updBil_idle]

theorem Dev.setTariff_idle (d : Dev) (n : Fin 8) (t : Nat) :
    (Dev.setTariff d n t).idle = d.idle := by
  unfold Dev.setTariff; dsimp only; (repeat' split) <;> simp only [Dev.raiseBil_idle, Dev.updBil_idle]

theorem Dev.switchTariff_idle (d : Dev) (n : Fin 8) (t : Nat) :
    (Dev.switchTariff d n t).idle = d.idle := by
  unfold Dev.switchTariff; simp only [Dev.setTariff_idle, Dev.switchOverride_idle]

theorem Dev.closeDemand_idle (d : Dev) (n : Fin 8) (t dur : Nat) (extra : Byte) :
    (Dev.closeDemand d n t dur extra).idle = d.idle := by
  unfold Dev.closeDemand; dsimp only; simp only [Dev.raise_idle, Dev.updBil_idle]

theorem Dev.openDemand_idle (d : Dev) (n : Fin 8) (t : Nat) (flags : Byte) :
    (Dev.openDemand d n t flags).idle = d.idle := by
  unfold Dev.openDemand; dsimp only; (repeat' split) <;> simp only [Dev.updBil_idle]

theorem Dev.closeLp_idle (d : Dev) (n : Fin 8) (t dur : Nat) (extra : Byte) (len : Nat) :
    (Dev.closeLp d n t dur extra len).idle = d.idle := by
  unfold Dev.closeLp; dsimp only; (repeat' split) <;> simp only [Dev.raise_idle, Dev.storeWrite_idle, Dev.updBil_idle]

theorem Dev.openLp_idle (d : Dev) (n : Fin 8) (t : Nat) (flags : Byte) :
    (Dev.openLp d n t flags).idle = d.idle := by
  unfold Dev.openLp; dsimp only; (repeat' split) <;> simp only [Dev.updBil_idle]

theorem Dev.addReading_idle (d : Dev) (n : Fin 8) (kind t : Nat) (ag : Agent) (nonce : List Byte) :
    (Dev.addReading d n kind t ag nonce).idle = d.idle := by
  unfold Dev.addReading; dsimp only; (repeat' split) <;> simp only [Dev.updBil_idle, ↓Dev.idle_mk]

theorem Dev.reading_idle (d : Dev) (n : Fin 8) (kind t : Nat) :
    (Dev.reading d n kind t).idle = d.idle := by
  unfold Dev.reading; simp only [Dev.addReading_idle]

theorem Dev.resetMd_idle (d : Dev) (n : Fin 8) :
    (Dev.resetMd d n).idle = d.idle := by
  unfold Dev.resetMd; simp only [Dev.tamper_idle, Dev.updBil_idle]

theorem Dev.billingEnd_idle (d : Dev) (n : Fin 8) (t : Nat) :
    (Dev.billingEnd d n t).idle = d.idle := by
  unfold Dev.billingEnd; dsimp only; (repeat' split) <;> simp only [Dev.raiseBil_idle, Dev.reading_idle, Dev.resetMd_idle, Dev.updBil_idle]

theorem Dev.activateCalendar_idle (d : Dev) (t : Nat) :
    (Dev.activateCalendar d t).idle = d.idle := by
  unfold Dev.activateCalendar; dsimp only; (repeat' split) <;> simp only [Dev.raiseBil_idle, Dev.storeWrite_idle, Dev.tamper_idle,
    Dev.updBil_idle, ↓Dev.idle_mk, foldl_idle, implies_true]

theorem Dev.closeDue_idle (d : Dev) (n : Fin 8) (t : Nat) (m : BoundaryMode) (due chg : Bool × Bool) :
    (Dev.closeDue d n t m due chg).idle = d.idle := by
  unfold Dev.closeDue; dsimp only; (repeat' split) <;> simp only [Dev.closeDemand_idle, Dev.closeLp_idle, Dev.updBil_idle]

theorem Dev.endDue_idle (d : Dev) (n : Fin 8) (t : Nat) :
    (Dev.endDue d n t).idle = d.idle := by
  unfold Dev.endDue; (repeat' split) <;> simp only [Dev.billingEnd_idle]

theorem Dev.openDue_idle (d : Dev) (n : Fin 8) (t : Nat) (m : BoundaryMode) (due chg : Bool × Bool) :
    (Dev.openDue d n t m due chg).idle = d.idle := by
  unfold Dev.openDue; dsimp only; (repeat' split) <;> simp only [Dev.openDemand_idle, Dev.openLp_idle]

theorem Dev.missedTariff_idle (d : Dev) (n : Fin 8) (t : Nat) (m : BoundaryMode) :
    (Dev.missedTariff d n t m).idle = d.idle := by
  unfold Dev.missedTariff; (repeat' split) <;> simp only [Dev.updBil_idle]

theorem Dev.boundarySteps_idle (d : Dev) (t : Nat) (m : BoundaryMode) (chg : Fin 8 → Bool × Bool) (swap : Dev → Dev)
    (hs : ∀ x, (swap x).idle = x.idle) : (Dev.boundarySteps d t m chg swap).idle = d.idle := by
  unfold Dev.boundarySteps
  simp only [Dev.activateCalendar_idle, Dev.closeDue_idle, Dev.endDue_idle, Dev.missedTariff_idle, Dev.oneEvent_idle, Dev.openDue_idle,
    Dev.switchTariff_idle, Dev.idle_ite, ite_self, foldl_idle, implies_true, hs]

theorem Dev.boundariesAt_idle (d : Dev) (t : Nat) (m : BoundaryMode) : (Dev.boundariesAt d t m).idle = d.idle :=
  Dev.boundarySteps_idle _ _ _ _ _ fun _ => rfl

theorem Dev.runBoundaries_idle (k : Nat) : ∀ (t : Nat) (m : BoundaryMode) (d : Dev), (Dev.runBoundaries k t m d).idle = d.idle := by
  induction k with
  | zero => exact fun _ _ _ => rfl
  | succ k ih =>
    intro t m d
    unfold Dev.runBoundaries
    split
    · rfl
    · exact (ih ..).trans (Dev.boundariesAt_idle ..)

theorem Dev.copyWritten_idle (d : Dev) (k : Nat) :
    (Dev.copyWritten d k).idle = d.idle := by
  unfold Dev.copyWritten; dsimp only; simp only [↓Dev.idle_mk]

theorem Dev.commitBilling_idle (d : Dev) :
    (Dev.commitBilling d).idle = d.idle := by
  unfold Dev.commitBilling; dsimp only; (repeat' split) <;> simp only [Dev.copyWritten_idle, ↓Dev.idle_mk]

theorem Dev.writeBilCfg_idle (d : Dev) (who : Option Agent) (n : Fin 8) (data : Word) :
    (Dev.writeBilCfg d who n data).2.idle = d.idle := by
  unfold Dev.writeBilCfg; dsimp only; (repeat' split) <;> simp only [Dev.logEvent_idle, Dev.tamper_idle, Dev.writeFields_idle]

theorem Dev.buildKarurn_idle (d : Dev) (n : Fin 8) (reason tEnd : Nat) (extra : Byte) :
    (Dev.buildKarurn d n reason tEnd extra).idle = d.idle := by
  unfold Dev.buildKarurn; dsimp only; (repeat' split) <;> simp only [Dev.updBil_idle, ↓Dev.idle_mk]

theorem Dev.orphan_idle (d : Dev) (k : Fin 64) : (Dev.orphan d k).idle = d.idle :=
  Dev.idle_of_control (Dev.orphan_control d k)

theorem Dev.discardCopy_idle (d : Dev) (k : Fin 64) :
    (Dev.discardCopy d k).idle = d.idle := by
  unfold Dev.discardCopy; simp only [Dev.updKey_idle]

theorem Dev.orphanRooted_idle (d : Dev) :
    (Dev.orphanRooted d).idle = d.idle := by
  unfold Dev.orphanRooted; dsimp only; simp only [Dev.discardCopy_idle, Dev.orphan_idle, Dev.idle_ite, ite_self, foldl_idle, implies_true]

theorem Dev.exhaust_idle (d : Dev) (k : Fin 64) : (Dev.exhaust d k).idle = d.idle :=
  Dev.idle_of_control (Dev.exhaust_control d k)

theorem Dev.useKey_idle (d : Dev) (k : Fin 64) : (Dev.useKey d k).idle = d.idle :=
  Dev.idle_of_control (Dev.useKey_control d k)

theorem Dev.drawWide_idle (d : Dev) :
    (Dev.drawWide d).2.idle = d.idle := by
  unfold Dev.drawWide; dsimp only; simp only [↓Dev.idle_mk]

theorem Dev.makeRoot_idle (d : Dev) :
    (Dev.makeRoot d).idle = d.idle := by
  unfold Dev.makeRoot; dsimp only; (repeat' split) <;> simp only [Dev.drawWide_idle, Dev.raiseKey_idle, ↓Dev.idle_mk]

theorem Dev.loadTagCopy_idle (d : Dev) :
    (Dev.loadTagCopy d).idle = d.idle := by
  unfold Dev.loadTagCopy; dsimp only; (repeat' split) <;> simp only [Dev.drawWide_idle, ↓Dev.idle_mk]

theorem Dev.signBytes_idle (d : Dev) (bs : List Byte) :
    (Dev.signBytes d bs).2.idle = d.idle := by
  unfold Dev.signBytes; (repeat' split) <;> simp only [Dev.raiseKey_idle, Dev.useKey_idle, ↓Dev.idle_mk]

theorem Dev.keepRecord_idle (d : Dev) (j : SignJob) (bs : List Byte) :
    (Dev.keepRecord d j bs).idle = d.idle := by
  unfold Dev.keepRecord; dsimp only; simp only [Dev.raiseBil_idle, ↓Dev.idle_mk]

theorem Dev.writeKept_idle (d : Dev) (q : Fin 64) :
    (Dev.writeKept d q).idle = d.idle := by
  unfold Dev.writeKept; dsimp only; simp only [Dev.produce_idle, ↓Dev.idle_mk, foldl_idle, implies_true]

theorem Dev.deliverBlock_idle (d : Dev) (j : SignJob) (bs : List Byte) :
    (Dev.deliverBlock d j bs).idle = d.idle := by
  unfold Dev.deliverBlock; (repeat' split) <;> simp only [Dev.keepRecord_idle, Dev.produce_idle, Dev.writeKept_idle]

theorem Dev.expireKeys_idle (d : Dev) : (Dev.expireKeys d).idle = d.idle :=
  Dev.idle_of_control (Dev.expireKeys_control d)

theorem Dev.tagRecovery_idle (d : Dev) :
    (Dev.tagRecovery d).idle = d.idle := by
  unfold Dev.tagRecovery; dsimp only; (repeat' split) <;> simp only [Dev.raiseTag_idle, ↓Dev.idle_mk]

theorem Dev.tagSupplyUp_idle (d : Dev) :
    (Dev.tagSupplyUp d).idle = d.idle := by
  unfold Dev.tagSupplyUp; (repeat' split) <;> simp only [Dev.tagRecovery_idle]

theorem Dev.lswInrush_idle (d : Dev) (c : Fin 16) :
    (Dev.lswInrush d c).idle = d.idle := by
  unfold Dev.lswInrush; dsimp only; (repeat' split) <;> simp only [Dev.updLsw_idle]

theorem Dev.lswOff_idle (d : Dev) (c : Fin 16) :
    (Dev.lswOff d c).idle = d.idle := by
  unfold Dev.lswOff; simp only [Dev.updLsw_idle]

theorem Dev.lswResume_idle (d : Dev) (c : Fin 16) :
    (Dev.lswResume d c).idle = d.idle := by
  unfold Dev.lswResume; (repeat' split) <;> simp only [Dev.lswInrush_idle, Dev.lswOff_idle]

theorem Dev.releaseHeld_idle (g : Fin 4) (k : Nat) : ∀ d : Dev, (Dev.releaseHeld g k d).idle = d.idle := by
  induction k with
  | zero => exact fun _ => rfl
  | succ k ih =>
    intro d
    unfold Dev.releaseHeld
    split
    · rfl
    · split
      · rfl
      · exact (ih _).trans (Dev.lswResume_idle ..)

theorem Dev.lswSettle_idle (d : Dev) (c : Fin 16) : (Dev.lswSettle d c).idle = d.idle := Dev.releaseHeld_idle ..

theorem Dev.lswDemand_idle (d : Dev) (c : Fin 16) (on : Bool) :
    (Dev.lswDemand d c on).idle = d.idle := by
  unfold Dev.lswDemand; dsimp only; (repeat' split) <;> simp only [Dev.lswInrush_idle, Dev.lswOff_idle, Dev.lswSettle_idle, Dev.updLsw_idle]

theorem Dev.followLimp_idle (d : Dev) (c : Fin 16) :
    (Dev.followLimp d c).idle = d.idle := by
  unfold Dev.followLimp; (repeat' split) <;> simp only [Dev.lswDemand_idle]

theorem Dev.writeLswCfg_idle (d : Dev) (c : Fin 16) (data : Word) :
    (Dev.writeLswCfg d c data).2.idle = d.idle := by
  unfold Dev.writeLswCfg; dsimp only; (repeat' split) <;> simp only [Dev.setReg_idle]

theorem Dev.writeLswRetry_idle (d : Dev) (c : Fin 16) (data : Word) :
    (Dev.writeLswRetry d c data).2.idle = d.idle := by
  unfold Dev.writeLswRetry; (repeat' split) <;> simp only [Dev.setReg_idle]

theorem Dev.writeLswInput_idle (d : Dev) (c : Fin 16) (data : Word) :
    (Dev.writeLswInput d c data).2.idle = d.idle := by
  unfold Dev.writeLswInput; dsimp only; (repeat' split) <;> simp only [Dev.followLimp_idle, Dev.setReg_idle]

theorem Dev.writeCell_idle (d : Dev) (f : KaoCell → KaoCell) :
    (Dev.writeCell d f).idle = d.idle := by
  unfold Dev.writeCell; dsimp only; simp only [Dev.modKao_idle]

theorem Dev.enterArmed_idle (d : Dev) (n : Fin 8) :
    (Dev.enterArmed d n).idle = d.idle := by
  unfold Dev.enterArmed; simp only [Dev.raiseKao_idle, Dev.updKao_idle]

theorem Dev.enterLockout_idle (d : Dev) (n : Fin 8) (upstream : Bool) :
    (Dev.enterLockout d n upstream).idle = d.idle := by
  unfold Dev.enterLockout; (repeat' split) <;> simp only [Dev.raiseKao_idle, Dev.updKao_idle, Dev.writeCell_idle]

theorem Dev.winAdvance_idle (d : Dev) :
    (Dev.winAdvance d).idle = d.idle := by
  unfold Dev.winAdvance; dsimp only; (repeat' split) <;> simp only [Dev.setRfld_idle]

theorem Dev.writeWindow_idle (d : Dev) (w : Word) :
    (Dev.writeWindow d w).2.idle = d.idle := by
  unfold Dev.writeWindow; dsimp only; (repeat' split) <;> simp only [Dev.winAdvance_idle, ↓Dev.idle_mk]

theorem Dev.memAdvance_idle (d : Dev) :
    (Dev.memAdvance d).idle = d.idle := by
  unfold Dev.memAdvance; simp only [Dev.countMod_idle]

theorem Dev.writeMem_idle (d : Dev) (w : Word) :
    (Dev.writeMem d w).2.idle = d.idle := by
  unfold Dev.writeMem; dsimp only; (repeat' split) <;> simp only [Dev.memAdvance_idle, ↓Dev.idle_mk]

theorem Dev.storeBlock_idle (d : Dev) (ws : List QData) :
    (Dev.storeBlock d ws).idle = d.idle := by
  unfold Dev.storeBlock; dsimp only; (repeat' split) <;> simp only [Dev.storeWrite_idle, ↓Dev.idle_mk]

theorem Dev.writeMeter_idle (d : Dev) (who : Option Agent) (row : RegDef) (u addr : Nat) (data : Word) :
    (Dev.writeMeter d who row u addr data).2.idle = d.idle := by
  unfold Dev.writeMeter; dsimp only; (repeat' split) <;> simp only [Dev.logEvent_idle, Dev.tamper_idle, Dev.writeFields_idle]

theorem Dev.romPrepare_idle (d : Dev) : (Dev.romPrepare d).idle = d.idle :=
  Dev.idle_of_control (Dev.romPrepare_control d)

theorem Dev.checkSlot_idle (d : Dev) (slot : Nat) :
    (Dev.checkSlot d slot).2.idle = d.idle := by
  unfold Dev.checkSlot; dsimp only; (repeat' split) <;> simp only [Dev.useKey_idle]

theorem Dev.loadCert_idle (d : Dev) (k : Fin 64) :
    (Dev.loadCert d k).idle = d.idle := by
  unfold Dev.loadCert; dsimp only; (repeat' split) <;> simp only [Dev.updKey_idle]

theorem Dev.kaoReceive_idle (d : Dev) (im : Image) :
    (Dev.kaoReceive d im).idle = d.idle := by
  unfold Dev.kaoReceive; dsimp only; (repeat' split) <;> simp only [Dev.modKao_idle, Dev.raiseKao_idle]

theorem Dev.kaoParams_idle (d : Dev) (im : Image) (ns : List (Fin 8)) :
    (Dev.kaoParams d im ns).idle = d.idle := by
  unfold Dev.kaoParams; dsimp only; (repeat' split) <;> simp only [Dev.modKao_idle, Dev.updKao_idle, foldl_idle, implies_true]

theorem Dev.kaoEnter_idle (d : Dev) (n : Fin 8) :
    (Dev.kaoEnter d n).idle = d.idle := by
  unfold Dev.kaoEnter; (repeat' split) <;> simp only [Dev.enterArmed_idle, Dev.enterLockout_idle, Dev.updKao_idle]

theorem Dev.personaDefaults_idle (d : Dev) :
    (Dev.personaDefaults d).idle = d.idle := by
  unfold Dev.personaDefaults; simp only [Dev.setRfld_idle]

theorem Dev.loadCommon_idle (d : Dev) (im : Image) (slot : Nat) (st : LoadState) :
    (Dev.loadCommon d im slot st).idle = d.idle := by
  unfold Dev.loadCommon; dsimp only; simp only [Dev.kaoReceive_idle, Dev.loadQueues_idle, Dev.personaDefaults_idle, ↓Dev.idle_mk]

theorem Dev.distribute_idle (d : Dev) (im : Image) (slot : Nat) (st : LoadState) :
    (Dev.distribute d im slot st).idle = d.idle := by
  unfold Dev.distribute; simp only [Dev.kaoEnter_idle, Dev.kaoParams_idle, Dev.loadCommon_idle, Dev.logEvent_idle, foldl_idle, implies_true]

theorem Dev.loadOther_idle (d : Dev) (a r k : Nat) (y : Image ⊕ (Nat × Nat)) :
    (Dev.loadOther d a r k y).idle = d.idle := by
  unfold Dev.loadOther; dsimp only; (repeat' split) <;> simp only [Dev.distribute_idle, Dev.loadQueues_idle, Dev.logEvent_idle,
    ↓Dev.idle_mk]

theorem Dev.otherCheck_idle (d : Dev) (a r k : Nat) :
    (Dev.otherCheck d a r k).2.idle = d.idle := by
  unfold Dev.otherCheck; dsimp only; simp only [Dev.checkSlot_idle, ↓Dev.idle_mk]

theorem Dev.loadActive_idle (d : Dev) (a : Nat) (x : Image ⊕ (Nat × Nat)) :
    (Dev.loadActive d a x).idle = d.idle := by
  unfold Dev.loadActive; (repeat' split) <;> simp only [Dev.distribute_idle, Dev.loadOther_idle, Dev.otherCheck_idle]

theorem Dev.firstCheck_idle (d : Dev) :
    (Dev.firstCheck d).2.idle = d.idle := by
  unfold Dev.firstCheck; simp only [Dev.checkSlot_idle, Dev.loadCert_idle]

theorem Dev.loadImage_idle (d : Dev) :
    (Dev.loadImage d).idle = d.idle := by
  unfold Dev.loadImage; simp only [Dev.firstCheck_idle, Dev.loadActive_idle]

theorem Dev.clearFlags_idle (d : Dev) (who : Option Agent) (addr : Nat) (data : Word) :
    (Dev.clearFlags d who addr data).2.idle = d.idle := by
  unfold Dev.clearFlags; dsimp only; (repeat' split) <;> simp only [Dev.putFlag_idle]

theorem Dev.writeSetting_idle (d : Dev) (g u : Nat) (row : RegDef) (addr : Nat) (data : Word) :
    (Dev.writeSetting d g u row addr data).2.idle = d.idle := by
  unfold Dev.writeSetting; dsimp only; (repeat' split) <;> simp only [Dev.writeFields_idle]

theorem Dev.writePlcSetting_idle (d : Dev) (row : RegDef) (addr : Nat) (data : Word) :
    (Dev.writePlcSetting d row addr data).2.idle = d.idle := by
  have h := Dev.writeSetting_idle d 8 0 row addr data
  unfold Dev.writePlcSetting
  split
  next heq =>
    rw [heq] at h
    split <;> exact h
  next => exact h

theorem Dev.writeView_idle (d : Dev) (who : Option Agent) (row : RegDef) (addr : Nat) (data : Word) :
    (Dev.writeView d who row addr data).2.idle = d.idle := by
  unfold Dev.writeView; (repeat' split) <;> simp only [Dev.setView_idle]

theorem onIdx_idle {n : Nat} (d : Dev) (i : Nat) (h : Fin n → CmdSt × Dev) (hk : ∀ u, (h u).2.idle = d.idle) :
    (onIdx d i h).2.idle = d.idle := by
  unfold onIdx
  split
  · exact hk _
  · rfl

/-- A write that the configuration load makes (R473). -/
theorem Dev.writeReg_none_idle (d : Dev) (g u : Nat) (r : RegAt) (addr : Nat) (data : Word) :
    (Dev.writeReg d none g u r addr data).2.idle = d.idle := by
  unfold Dev.writeReg; (repeat' split) <;> first | rfl | contradiction | simp only [Dev.gainWrite_idle,
    Dev.writeAlmHi_idle, Dev.writeBilCfg_idle, Dev.writeCmpCtrl_idle, Dev.writeCmpTarget_idle,
      Dev.writeLswCfg_idle, Dev.writeLswInput_idle, Dev.writeLswRetry_idle, Dev.writeMem_idle,
        Dev.writeMeter_idle, Dev.writeOffset_idle, Dev.writePlcSetting_idle, Dev.writeQueEnds_idle,
          Dev.writeSetting_idle, Dev.writeWindow_idle, onIdx_idle, implies_true]

theorem Dev.startGrid_idle (d : Dev) (n : Fin 8) (t : Nat) :
    (Dev.startGrid d n t).idle = d.idle := by
  unfold Dev.startGrid; (repeat' split) <;> simp only [Dev.updBil_idle]

theorem Dev.startTime_idle (d : Dev) : (Dev.startTime d).idle = d.idle := by
  have hr := fun q => d.round_idle q
  unfold Dev.startTime
  split
  next t d1 heq =>
    have h1 : d1.idle = d.idle := by
      split at heq
      · exact congrArg (fun x : Int × Dev => x.2.idle) heq.symm
      · exact (congrArg (fun x : Int × Dev => x.2.idle) heq.symm).trans (hr _)
    exact h1

theorem Dev.releaseReset_idle (d : Dev) (cause : ColdCause) :
    (Dev.releaseReset d cause).idle = d.idle := by
  unfold Dev.releaseReset; dsimp only; simp only [Dev.tagSupplyUp_idle, ↓Dev.idle_mk]

theorem Dev.startKeys_idle (d : Dev) :
    (Dev.startKeys d).idle = d.idle := by
  unfold Dev.startKeys; dsimp only; (repeat' split) <;> simp only [Dev.exhaust_idle, Dev.expireKeys_idle, Dev.loadTagCopy_idle,
    Dev.makeRoot_idle, Dev.orphanRooted_idle, Dev.raiseKey_idle, ↓Dev.idle_mk, foldl_idle, implies_true]

theorem Dev.startIslands_idle (d : Dev) :
    (Dev.startIslands d).idle = d.idle := by
  unfold Dev.startIslands; dsimp only; (repeat' split) <;> simp only [Dev.setRun_idle, Dev.idle_ite, ite_self, foldl_idle, implies_true]

theorem Dev.recordWrite_idle (d : Dev) (addr : Nat) (v : Word) :
    (Dev.recordWrite d addr v).2.idle = d.idle := by
  unfold Dev.recordWrite; dsimp only; (repeat' split) <;> simp only [Dev.swapUnit_idle, Dev.writeReg_none_idle]

theorem Dev.rejectRecord_idle (d : Dev) (addr : Nat) :
    (Dev.rejectRecord d addr).idle = d.idle := by
  unfold Dev.rejectRecord; dsimp only; simp only [Dev.logEvent_idle, Dev.raiseImg_idle, ↓Dev.idle_mk]

theorem Dev.applyRecord_idle (d : Dev) (addr : Nat) (v : Word) : (Dev.applyRecord d addr v).idle = d.idle := by
  have h := d.recordWrite_idle addr v
  unfold Dev.applyRecord
  split
  next heq =>
    rw [heq] at h
    exact h
  next => exact Dev.rejectRecord_idle ..

theorem Dev.applyRecords_idle (k : Nat) : ∀ (a : Nat) (d : Dev), (Dev.applyRecords k a d).idle = d.idle := by
  induction k with
  | zero => exact fun _ _ => rfl
  | succ k ih =>
    intro a d
    unfold Dev.applyRecords
    refine (ih ..).trans ?_
    split
    · exact Dev.rejectRecord_idle ..
    · exact Dev.applyRecord_idle ..

theorem Dev.withImg_idle (d : Dev) (i : ImgState) : ({ d with img := i } : Dev).idle = d.idle := rfl

theorem Dev.configLoad_idle (d : Dev) : (Dev.configLoad d).idle = d.idle := by
  unfold Dev.configLoad
  generalize maxRecords = most
  extract_lets d1
  have h1 : d1.idle = d.idle := by
    unfold d1
    split
    · exact (Dev.withImg_idle ..).trans (Dev.applyRecords_idle ..)
    · rfl
  exact (Dev.withImg_idle ..).trans h1

theorem Dev.loadCalendar_idle (d : Dev) :
    (Dev.loadCalendar d).idle = d.idle := by
  unfold Dev.loadCalendar; dsimp only; (repeat' split) <;> simp only [↓Dev.idle_mk]

theorem Dev.restoreSlices_idle (d : Dev) :
    (Dev.restoreSlices d).idle = d.idle := by
  unfold Dev.restoreSlices; dsimp only; simp only [↓Dev.idle_mk]

theorem Dev.restartSpaces_idle (d : Dev) :
    (Dev.restartSpaces d).idle = d.idle := by
  unfold Dev.restartSpaces; dsimp only; simp only [↓Dev.idle_mk]

theorem Dev.signSaved_idle (d : Dev) (j : SignJob) :
    (Dev.signSaved d j).idle = d.idle := by
  unfold Dev.signSaved; dsimp only; simp only [Dev.deliverBlock_idle, Dev.signBytes_idle]

theorem Dev.writeSaved_idle (d : Dev) (s : Snapshot) :
    (Dev.writeSaved d s).idle = d.idle := by
  unfold Dev.writeSaved; dsimp only; (repeat' split) <;> simp only [Dev.raiseSto_idle, Dev.signSaved_idle, Dev.storeBlock_idle,
    ↓Dev.idle_mk, foldl_idle, implies_true]

theorem Dev.resumeIntervals_idle (d : Dev) (n : Fin 8) :
    (Dev.resumeIntervals d n).idle = d.idle := by
  unfold Dev.resumeIntervals; dsimp only; (repeat' split) <;> simp only [Dev.openDemand_idle, Dev.openLp_idle, Dev.startGrid_idle,
    Dev.updBil_idle]

theorem Dev.runMissed_idle (d : Dev) :
    (Dev.runMissed d).idle = d.idle := by
  unfold Dev.runMissed; (repeat' split) <;> simp only [Dev.runBoundaries_idle]

theorem Dev.countDark_idle (k : Nat) : ∀ d : Dev, (Dev.countDark k d).idle = d.idle := by
  induction k with
  | zero => exact fun _ => rfl
  | succ k ih => exact fun d => (ih _).trans (Dev.tamper_idle ..)

theorem Dev.addDark_idle (d : Dev) :
    (Dev.addDark d).idle = d.idle := by
  unfold Dev.addDark; dsimp only; (repeat' split) <;> simp only [Dev.countDark_idle, ↓Dev.idle_mk]

theorem Dev.restoreBilling_idle (d : Dev) (silt failed : Bool) (tEnd : Nat) :
    (Dev.restoreBilling d silt failed tEnd).idle = d.idle := by
  unfold Dev.restoreBilling; dsimp only; (repeat' split) <;> simp only [Dev.addDark_idle, Dev.buildKarurn_idle, Dev.commitBilling_idle,
    Dev.reading_idle, Dev.resumeIntervals_idle, Dev.runMissed_idle, Dev.setTariff_idle, Dev.tamper_idle, Dev.writeSaved_idle,
      ↓Dev.idle_mk, foldl_idle, implies_true]

theorem Dev.bringUp_idle (d : Dev) :
    (Dev.bringUp d).idle = d.idle := by
  unfold Dev.bringUp; (repeat' split) <;> simp only [Dev.configLoad_idle, Dev.startIslands_idle]

theorem Dev.loadSystem_idle (d : Dev) :
    (Dev.loadSystem d).idle = d.idle := by
  unfold Dev.loadSystem; simp only [Dev.bringUp_idle, Dev.loadCalendar_idle, Dev.loadImage_idle, Dev.romPrepare_idle]

end Sys2Proof.Machine
end

section
/-! SUPPORT. The parts that the start of a part leaves (R515, R520). -/

namespace Sys2Proof.Machine

theorem Dev.servoStart_part {pt : Part} (htim : pt ≠ .tim) (d : Dev) :
    (Dev.servoStart d).part pt = d.part pt := by
  unfold Dev.servoStart; dsimp only; simp only [Dev.swapUnit_part, ↓Dev.part_mk_tim htim]

theorem Dev.makeRoot_part {pt : Part} (hkey : pt ≠ .key) (d : Dev) :
    (Dev.makeRoot d).part pt = d.part pt := by
  unfold Dev.makeRoot; dsimp only; (repeat' split) <;> simp only [Dev.drawWide_part, Dev.raiseKey_part, ↓Dev.part_mk_key hkey]

theorem Dev.loadTagCopy_part {pt : Part} (htag : pt ≠ .tag) (d : Dev) :
    (Dev.loadTagCopy d).part pt = d.part pt := by
  unfold Dev.loadTagCopy; dsimp only; (repeat' split) <;> simp only [Dev.drawWide_part, ↓Dev.part_mk_tag htag]

theorem Dev.checkSlot_part {pt : Part} (hkey : pt ≠ .key) (d : Dev) (slot : Nat) :
    (Dev.checkSlot d slot).2.part pt = d.part pt := by
  unfold Dev.checkSlot; dsimp only; (repeat' split) <;> simp only [Dev.useKey_part hkey]

theorem Dev.loadCert_part {pt : Part} (hkey : pt ≠ .key) (d : Dev) (k : Fin 64) :
    (Dev.loadCert d k).part pt = d.part pt := by
  unfold Dev.loadCert; dsimp only; (repeat' split) <;> simp only [Dev.updKey_part hkey]

theorem Dev.kaoEnter_part {pt : Part} (hkao : pt ≠ .kao) (d : Dev) (n : Fin 8) :
    (Dev.kaoEnter d n).part pt = d.part pt := by
  unfold Dev.kaoEnter; (repeat' split) <;> simp only [Dev.enterArmed_part hkao, Dev.enterLockout_part hkao, Dev.updKao_part hkao]

theorem Dev.loadCommon_part {pt : Part} (himg : pt ≠ .img) (hque : pt ≠ .que) (hkao : pt ≠ .kao) (d : Dev) (im : Image) (slot : Nat) (st : LoadState) :
    (Dev.loadCommon d im slot st).part pt = d.part pt := by
  unfold Dev.loadCommon; dsimp only; simp only [Dev.kaoReceive_part hkao, Dev.loadQueues_part hque, Dev.personaDefaults_part,
    ↓Dev.part_mk_img himg]

theorem Dev.distribute_part {pt : Part} (himg : pt ≠ .img) (hque : pt ≠ .que) (hkao : pt ≠ .kao) (d : Dev) (im : Image) (slot : Nat) (st : LoadState) :
    (Dev.distribute d im slot st).part pt = d.part pt := by
  unfold Dev.distribute; simp only [Dev.kaoEnter_part hkao, Dev.kaoParams_part hkao, Dev.loadCommon_part himg hque hkao,
    Dev.logEvent_part, foldl_part, implies_true]

theorem Dev.loadOther_part {pt : Part} (himg : pt ≠ .img) (hque : pt ≠ .que) (hkao : pt ≠ .kao) (d : Dev) (a r k : Nat) (y : Image ⊕ (Nat × Nat)) :
    (Dev.loadOther d a r k y).part pt = d.part pt := by
  unfold Dev.loadOther; dsimp only; (repeat' split) <;> simp only [Dev.distribute_part himg hque hkao, Dev.loadQueues_part hque,
    Dev.logEvent_part, ↓Dev.part_mk_img himg]

theorem Dev.otherCheck_part {pt : Part} (himg : pt ≠ .img) (hkey : pt ≠ .key) (d : Dev) (a r k : Nat) :
    (Dev.otherCheck d a r k).2.part pt = d.part pt := by
  unfold Dev.otherCheck; dsimp only; simp only [Dev.checkSlot_part hkey, ↓Dev.part_mk_img himg]

theorem Dev.loadActive_part {pt : Part} (himg : pt ≠ .img) (hque : pt ≠ .que) (hkao : pt ≠ .kao) (hkey : pt ≠ .key) (d : Dev) (a : Nat) (x : Image ⊕ (Nat × Nat)) :
    (Dev.loadActive d a x).part pt = d.part pt := by
  unfold Dev.loadActive; (repeat' split) <;> simp only [Dev.distribute_part himg hque hkao, Dev.loadOther_part himg hque hkao,
    Dev.otherCheck_part himg hkey]

theorem Dev.firstCheck_part {pt : Part} (hkey : pt ≠ .key) (d : Dev) : (Dev.firstCheck d).2.part pt = d.part pt :=
  (Dev.checkSlot_part hkey ..).trans ((Dev.loadCert_part hkey ..).trans (Dev.loadCert_part hkey ..))

theorem Dev.loadImage_part {pt : Part} (himg : pt ≠ .img) (hque : pt ≠ .que) (hkao : pt ≠ .kao) (hkey : pt ≠ .key) (d : Dev) :
    (Dev.loadImage d).part pt = d.part pt := (Dev.loadActive_part himg hque hkao hkey ..).trans (Dev.firstCheck_part hkey d)

theorem Dev.releaseReset_part {pt : Part} (htag : pt ≠ .tag) (hpnl : pt ≠ .pnl) (hpwr : pt ≠ .pwr) (d : Dev) (cause : ColdCause) :
    (Dev.releaseReset d cause).part pt = d.part pt := by
  have h := Dev.tagSupplyUp_part htag d
  cases pt <;> first | contradiction | exact h

theorem Dev.startKeys_part {pt : Part} (hkey : pt ≠ .key) (htag : pt ≠ .tag) (d : Dev) :
    (Dev.startKeys d).part pt = d.part pt := by
  unfold Dev.startKeys; dsimp only; (repeat' split) <;> simp only [Dev.exhaust_part hkey, Dev.expireKeys_part hkey,
    Dev.loadTagCopy_part htag, Dev.makeRoot_part hkey, Dev.orphanRooted_part hkey, Dev.raiseKey_part, ↓Dev.part_mk_key hkey, foldl_part,
      implies_true]

theorem Dev.loadCalendar_part {pt : Part} (hbil : pt ≠ .bil) (d : Dev) :
    (Dev.loadCalendar d).part pt = d.part pt := by
  unfold Dev.loadCalendar; dsimp only; (repeat' split) <;> simp only [↓Dev.part_mk_bil hbil]

theorem Dev.restartSpaces_part {pt : Part} (hque : pt ≠ .que) (d : Dev) :
    (Dev.restartSpaces d).part pt = d.part pt := by
  unfold Dev.restartSpaces; dsimp only; simp only [↓Dev.part_mk_que hque]

theorem Dev.startTime_part {pt : Part} (htim : pt ≠ .tim) (d : Dev) : (Dev.startTime d).part pt = d.part pt := by
  unfold Dev.startTime
  split
  next t d1 heq =>
    have h1 : d1.part pt = d.part pt := by
      split at heq
      · exact congrArg (fun x : Int × Dev => x.2.part pt) heq.symm
      · exact (congrArg (fun x : Int × Dev => x.2.part pt) heq.symm).trans (Dev.round_part ..)
    exact (Dev.part_mk_tim htim).trans h1

theorem Dev.bringUp_part {pt : Part} (himg : pt ≠ .img) (hmtr : pt ≠ .mtr) (hbil : pt ≠ .bil) (hlsw : pt ≠ .lsw) (hplc : pt ≠ .plc)
    (hpnl : pt ≠ .pnl) (hpwr : pt ≠ .pwr) (htim : pt ≠ .tim) (d : Dev) : (Dev.bringUp d).part pt = d.part pt := by
  unfold Dev.bringUp
  split
  · exact (Dev.configLoad_part himg hmtr hbil hlsw hplc hpnl hpwr htim _).trans (Dev.startIslands_part ..)
  · rfl


theorem Dev.startGains_part {pt : Part} (hmtr : pt ≠ .mtr) (d : Dev) (u : Nat) :
    (Dev.startGains d u).part pt = d.part pt := by
  unfold Dev.startGains; simp only [Dev.updCh_part hmtr, foldl_part, implies_true]

theorem Dev.swapMeter_part {pt : Part} (d : Dev) (u : Nat) :
    (Dev.swapMeter d u).part pt = d.part pt := by
  unfold Dev.swapMeter; simp only [Dev.swapUnit_part, foldl_part, implies_true]

theorem Dev.startMeter_part {pt : Part} (hmtr : pt ≠ .mtr) (hbil : pt ≠ .bil) (d : Dev) (u : Fin 9) :
    (Dev.startMeter d u).part pt = d.part pt := by
  unfold Dev.startMeter; dsimp only; (repeat' split) <;> simp only [Dev.setTariff_part hbil, Dev.startGains_part hmtr,
    Dev.swapMeter_part, Dev.updEng_part hmtr]

theorem Dev.startEvc_part {pt : Part} (hque : pt ≠ .que) (hevc : pt ≠ .evc) (d : Dev) (n : Fin 8) :
    (Dev.startEvc d n).part pt = d.part pt := by
  unfold Dev.startEvc; dsimp only; (repeat' split) <;> simp only [Dev.goIdle_part hque hevc, Dev.levelPilot_part hevc, Dev.swapUnit_part,
    Dev.updEvc_part hevc]

theorem Dev.startFunc_part {pt : Part} (hque : pt ≠ .que) (hmtr : pt ≠ .mtr) (hbil : pt ≠ .bil) (hevc : pt ≠ .evc) (hplc : pt ≠ .plc) (htag : pt ≠ .tag) (hpnl : pt ≠ .pnl) (htim : pt ≠ .tim) (d : Dev) (g : Group) (u : Nat) :
    (Dev.startFunc d g u).part pt = d.part pt := by
  unfold Dev.startFunc; (repeat' split) <;> simp only [Dev.panelStart_part hpnl, Dev.servoStart_part htim,
    Dev.setFunc_part hmtr hevc hplc htag hpnl htim, Dev.startEvc_part hque hevc, Dev.startMeter_part hmtr hbil, Dev.swapUnit_part]

end Sys2Proof.Machine
end

section
/-! SUPPORT. The start of a part from its power-on reset (R26, R302, R316, R473, R478, R515, R520). -/

namespace Sys2Proof.Machine

/-! ### The contactor drivers -/

/-- Which contactor drivers conduct. -/
def Dev.kens (d : Dev) : Vector Bool 8 := d.kao.m.map (·.ken)

section
variable {d e : Dev}

theorem Dev.kens_of_part (h : e.part .kao = d.part .kao) : e.kens = d.kens := by
  unfold Dev.kens
  rw [show e.kao = d.kao from h]

theorem Dev.kens_at (d : Dev) (n : Fin 8) : d.kens[n] = d.kao.m[n].ken := by
  unfold Dev.kens
  simp

theorem Dev.ken_of_kens (h : e.kens = d.kens) (n : Fin 8) : e.kao.m[n].ken = d.kao.m[n].ken := by
  rw [← Dev.kens_at, ← Dev.kens_at, h]

theorem Dev.updKao_kens (n : Fin 8) {f : KaoSlice → KaoSlice} (hf : ∀ x, (f x).ken = x.ken) : (d.updKao n f).kens = d.kens := by
  refine Vector.ext fun i hi => ?_
  unfold Dev.kens Dev.updKao vmod
  simp only [Vector.getElem_map, Vector.getElem_set]
  split
  case isTrue h =>
    subst h
    exact hf _
  case isFalse => rfl

theorem Dev.modKao_kens {f : KaoState → KaoState} (hf : ∀ k, (f k).m = k.m) : (d.modKao f).kens = d.kens := by
  unfold Dev.kens Dev.modKao
  rw [hf]

theorem KaoState.putOlder_m (k : KaoState) (c : KaoCell) : (k.putOlder c).m = k.m := by
  unfold KaoState.putOlder
  split <;> rfl

theorem Dev.writeCell_kens (f : KaoCell → KaoCell) : (d.writeCell f).kens = d.kens := by
  unfold Dev.writeCell
  refine (Dev.modKao_kens ?_).trans (Dev.modKao_kens ?_)
  · exact fun k => k.putOlder_m _
  · exact fun k => k.putOlder_m _

theorem Dev.enterLockout_kens (d : Dev) (n : Fin 8) (upstream : Bool) : (d.enterLockout n upstream).kens = d.kens := by
  refine (Dev.kens_of_part (Dev.raiseKao_part ..)).trans ((Dev.writeCell_kens _).trans (Dev.updKao_kens n ?_))
  exact fun _ => rfl

theorem Dev.enterArmed_kens (d : Dev) (n : Fin 8) : (d.enterArmed n).kens = d.kens := by
  refine (Dev.kens_of_part (Dev.raiseKao_part ..)).trans (Dev.updKao_kens n ?_)
  exact fun _ => rfl

theorem Dev.kaoEnter_kens (d : Dev) (n : Fin 8) : (d.kaoEnter n).kens = d.kens := by
  unfold Dev.kaoEnter
  split
  · split
    · exact d.enterLockout_kens n false
    · exact d.enterArmed_kens n
  · refine Dev.updKao_kens n ?_
    exact fun _ => rfl

theorem Dev.kaoReceive_kens (im : Image) : (d.kaoReceive im).kens = d.kens := by
  unfold Dev.kaoReceive
  dsimp only
  split
  · refine Dev.modKao_kens ?_
    exact fun _ => rfl
  · exact Dev.modKao_kens (f := fun k => { k with check := _, received := false, bad := true, badReason := _, badSlice := _, badSource := _ })
      fun _ => rfl

theorem Dev.kaoParams_kens (im : Image) (ns : List (Fin 8)) : (d.kaoParams im ns).kens = d.kens := by
  unfold Dev.kaoParams
  split
  · rfl
  · extract_lets d1
    have h1 : d1.kens = d.kens := Dev.modKao_kens (f := fun k => { k with common := kaoCommonPart im.kaolin }) fun _ => rfl
    refine Eq.trans ?_ h1
    refine foldl_rel ns _ (fun a b => a.kens = b.kens) d1 rfl fun a n h => (Dev.updKao_kens n ?_).trans h
    exact fun _ => rfl

theorem Dev.loadCommon_kens (im : Image) (slot : Nat) (st : LoadState) : (d.loadCommon im slot st).kens = d.kens :=
  (Dev.kaoReceive_kens im).trans ((Dev.kens_of_part (Dev.personaDefaults_part _)).trans
    (Dev.kens_of_part (Dev.loadQueues_part (by decide) _ _)))

theorem Dev.distribute_kens (im : Image) (slot : Nat) (st : LoadState) : (d.distribute im slot st).kens = d.kens := by
  have h := foldl_rel slices (fun (acc : Dev) (n : Fin 8) => acc.kaoEnter n) (fun a b => a.kens = b.kens)
    ((d.loadCommon im slot st).kaoParams im slices) rfl fun a n h => (a.kaoEnter_kens n).trans h
  exact (Dev.kens_of_part (Dev.logEvent_part ..)).trans (h.trans ((Dev.kaoParams_kens im slices).trans (Dev.loadCommon_kens im slot st)))

theorem Dev.loadOther_kens (a r k : Nat) (y : Image ⊕ (Nat × Nat)) : (d.loadOther a r k y).kens = d.kens := by
  unfold Dev.loadOther
  split
  · exact Dev.distribute_kens ..
  · exact (Dev.kens_of_part (Dev.logEvent_part ..)).trans (Dev.kens_of_part (Dev.loadQueues_part (by decide) _ _))

theorem Dev.loadActive_kens (a : Nat) (x : Image ⊕ (Nat × Nat)) : (d.loadActive a x).kens = d.kens := by
  unfold Dev.loadActive
  split
  · exact Dev.distribute_kens ..
  · exact (Dev.loadOther_kens ..).trans (Dev.kens_of_part (Dev.otherCheck_part (by decide) (by decide) ..))

theorem Dev.loadImage_kens (d : Dev) : d.loadImage.kens = d.kens := by
  have hfirst := Dev.kens_of_part (Dev.firstCheck_part (pt := .kao) (by decide) d)
  exact (Dev.loadActive_kens ..).trans hfirst

/-- Loading the system closes no contactor driver. -/
theorem Dev.loadSystem_kens (d : Dev) : d.loadSystem.kens = d.kens := by
  have hprep := Dev.kens_of_part (Dev.romPrepare_part (pt := .kao) (by decide) (by decide) (by decide) d)
  have hup := Dev.kens_of_part (Dev.bringUp_part (pt := .kao) (by decide) (by decide) (by decide) (by decide) (by decide) (by decide)
    (by decide) (by decide) d.romPrepare.loadImage)
  exact (Dev.kens_of_part (Dev.loadCalendar_part (by decide) _)).trans (hup.trans ((Dev.loadImage_kens _).trans hprep))
end

/-! ### The marks of the start while the ROM prepares (R463, R476, R478) -/

/-- Whether the functions have started, whether billing has been restored, and the image in use. -/
def Dev.marks (d : Dev) : Bool × Bool × Option Image := (d.img.started, d.img.restoreDone, d.img.loaded)

/-- Whether the functions have started and whether billing has been restored. -/
def Dev.begun (d : Dev) : Bool × Bool := (d.img.started, d.img.restoreDone)

section
variable {d e : Dev}

theorem Dev.marks_of_part (h : e.part .img = d.part .img) : e.marks = d.marks := by
  unfold Dev.marks
  rw [show e.img = d.img from h]

theorem Dev.begun_of_part (h : e.part .img = d.part .img) : e.begun = d.begun := by
  unfold Dev.begun
  rw [show e.img = d.img from h]

theorem Dev.begun_of_marks (h : e.marks = d.marks) : e.begun = d.begun := congrArg (fun x => (x.1, x.2.1)) h

theorem Dev.bootCommit_marks (d : Dev) : d.bootCommit.marks = d.marks := by
  unfold Dev.bootCommit
  extract_lets seq
  split <;> rfl

theorem Dev.takeBoot_marks (d : Dev) (r : BootRec) : (d.takeBoot r).marks = d.marks := rfl

theorem Dev.readBoot_marks (d : Dev) : d.readBoot.marks = d.marks := by
  unfold Dev.readBoot
  dsimp only
  split
  · rfl
  · split
    · exact (Dev.bootCommit_marks _).trans (Dev.takeBoot_marks ..)
    · exact (Dev.bootCommit_marks _).trans (Dev.takeBoot_marks ..)

theorem Dev.putFw_marks (d : Dev) (slot v : Nat) : (d.putFw slot v).marks = d.marks := rfl

theorem Dev.setFw_marks (d : Dev) (slot v : Nat) : (d.setFw slot v).marks = d.marks := Dev.bootCommit_marks _

theorem Dev.moveArea_marks (d : Dev) (v w : Nat) : (d.moveArea v w).marks = d.marks := by
  unfold Dev.moveArea
  split <;> rfl

theorem Dev.fallBack_marks (d : Dev) (slot reason : Nat) : (d.fallBack slot reason).marks = d.marks := by
  unfold Dev.fallBack
  extract_lets d1
  have h1 : d1.marks = d.marks := Dev.moveArea_marks ..
  exact (Dev.marks_of_part (Dev.tamper_part (by decide) ..)).trans ((Dev.marks_of_part (Dev.raiseImg_part ..)).trans
    ((Dev.bootCommit_marks _).trans h1))

theorem Dev.prepareArea_marks (d : Dev) (slot : Nat) : (d.prepareArea slot).marks = d.marks := by
  unfold Dev.prepareArea
  extract_lets tag t d1 _ d2
  have h2 : d2.marks = d.marks :=
    Eq.trans (b := (d.areaHeader t).marks) rfl (Dev.marks_of_part (Dev.areaHeader_part (by decide) d t))
  split
  · extract_lets d3
    have h3 : d3.marks = d.marks := (Dev.marks_of_part (Dev.storeCopy_part (by decide) ..)).trans h2
    refine (apply_ite Dev.marks ..).trans ?_
    rw [Dev.marks_of_part (Dev.storeCopy_part (by decide) ..), h3, ite_self]
  · exact h2

theorem Dev.romPrepare_marks (d : Dev) : d.romPrepare.marks = d.marks := by
  unfold Dev.romPrepare
  extract_lets e d1
  have he : e.marks = d.marks := d.readBoot_marks
  have h1 : d1.marks = d.marks := by
    unfold d1
    split
    · split
      · exact (Dev.fallBack_marks ..).trans he
      · split
        · exact (Dev.fallBack_marks ..).trans he
        · exact he
    · exact he
  split
  · extract_lets d2
    have h2 : d2.marks = d.marks := h1
    exact (Dev.marks_of_part (Dev.raiseImg_part ..)).trans ((Dev.bootCommit_marks _).trans ((Dev.prepareArea_marks ..).trans h2))
  · exact h1

theorem Dev.distribute_begun (im : Image) (slot : Nat) (st : LoadState) : (d.distribute im slot st).begun = d.begun := by
  have henter := foldl_rel slices (fun (acc : Dev) (n : Fin 8) => acc.kaoEnter n) (fun a b => a.begun = b.begun)
    ((d.loadCommon im slot st).kaoParams im slices) rfl fun a n h => (Dev.begun_of_part (Dev.kaoEnter_part (by decide) a n)).trans h
  have hcommon : (d.loadCommon im slot st).begun = d.begun :=
    (Dev.begun_of_part (Dev.kaoReceive_part (by decide) ..)).trans ((Dev.begun_of_part (Dev.personaDefaults_part _)).trans
      ((Dev.begun_of_part (Dev.loadQueues_part (pt := .img) (by decide) _ _)).trans rfl))
  exact (Dev.begun_of_part (Dev.logEvent_part ..)).trans (henter.trans
    ((Dev.begun_of_part (Dev.kaoParams_part (by decide) ..)).trans hcommon))

theorem Dev.loadOther_begun (a r k : Nat) (y : Image ⊕ (Nat × Nat)) : (d.loadOther a r k y).begun = d.begun := by
  unfold Dev.loadOther
  split
  · exact Dev.distribute_begun ..
  · exact (Dev.begun_of_part (Dev.logEvent_part ..)).trans ((Dev.begun_of_part (Dev.loadQueues_part (pt := .img)
      (by decide) _ _)).trans rfl)

theorem Dev.otherCheck_begun (a r k : Nat) : (d.otherCheck a r k).2.begun = d.begun :=
  (Dev.begun_of_part (Dev.checkSlot_part (by decide) _ (1 - a))).trans rfl

theorem Dev.loadImage_begun (d : Dev) : d.loadImage.begun = d.begun := by
  have hfirst := Dev.begun_of_part (Dev.firstCheck_part (pt := .img) (by decide) d)
  unfold Dev.loadImage Dev.loadActive
  split
  · exact (Dev.distribute_begun ..).trans hfirst
  · exact (Dev.loadOther_begun ..).trans ((Dev.otherCheck_begun ..).trans hfirst)
end

/-! ### The configuration load (R473) -/

theorem Dev.followLimp_off {d : Dev} (h : d.lsw.limp = false) (c : Fin 16) : d.followLimp c = d :=
  if_neg (by unfold Dev.limpMapped; rw [h]; exact nofun)

theorem Dev.writeLswInput_lsw {d : Dev} (h : d.lsw.limp = false) (c : Fin 16) (data : Word) : (d.writeLswInput c data).2.lsw = d.lsw := by
  unfold Dev.writeLswInput
  dsimp only
  split
  · rfl
  · split
    · rfl
    · rw [Dev.followLimp_off (d := d.setReg 7 c.val 8 (w32 (data.toNat &&& 0xC7C70000))) h c]
      rfl

/-- What the power-on reset sets of the power. -/
def Dev.power (d : Dev) : Bool × Nat × Bool × Bool := (d.pwr.held, d.pwr.coldCause, d.pwr.siltFound, d.pwr.pf)

/-- What the power-on reset sets of the power, of the start and of the load switches. -/
def Dev.boot (d : Dev) : (Bool × Nat × Bool × Bool) × (Bool × Bool) × LswState := (d.power, d.begun, d.lsw)

section
variable {d e : Dev}

theorem Dev.power_of_part (h : e.part .pwr = d.part .pwr) : e.power = d.power := by
  unfold Dev.power
  rw [show e.pwr = d.pwr from h]

theorem Dev.boot_of (hp : e.power = d.power) (hb : e.begun = d.begun) (hl : e.part .lsw = d.part .lsw) : e.boot = d.boot := by
  unfold Dev.boot
  rw [hp, hb, show e.lsw = d.lsw from hl]

theorem Dev.boot_of_parts (h : ∀ pt, pt ≠ .tim → pt ≠ .mtr → pt ≠ .bil → pt ≠ .plc → pt ≠ .pnl → pt ≠ .que → pt ≠ .key →
    pt ≠ .tag → pt ≠ .sto → e.part pt = d.part pt) : e.boot = d.boot :=
  have hpt := fun pt (hpt : pt ∈ [Part.pwr, .img, .lsw]) => h pt (by rintro rfl; simp at hpt) (by rintro rfl; simp at hpt)
    (by rintro rfl; simp at hpt) (by rintro rfl; simp at hpt) (by rintro rfl; simp at hpt) (by rintro rfl; simp at hpt)
    (by rintro rfl; simp at hpt) (by rintro rfl; simp at hpt) (by rintro rfl; simp at hpt)
  Dev.boot_of (Dev.power_of_part (hpt .pwr (by decide))) (Dev.begun_of_part (hpt .img (by decide))) (hpt .lsw (by decide))

theorem Dev.limp_of_boot (h : e.boot = d.boot) (hl : d.lsw.limp = false) : e.lsw.limp = false :=
  (congrArg (fun x => x.2.2.limp) h).trans hl

theorem Dev.fireCmp_power (d : Dev) (c : Fin 16) (step late : Bool) : (d.fireCmp c step late).power = d.power := by
  unfold Dev.fireCmp
  extract_lets u period lateBy k d1 _ d2
  have h2 : d2.power = d.power := by
    unfold d2
    split <;> rfl
  exact h2

theorem Dev.writeCmpTarget_boot (d : Dev) (c : Fin 16) (w : Word) : (d.writeCmpTarget c w).boot = d.boot := by
  refine Dev.boot_of ?_ (Dev.begun_of_part (Dev.writeCmpTarget_part (by decide) (by decide) ..))
    (Dev.writeCmpTarget_part (by decide) (by decide) ..)
  unfold Dev.writeCmpTarget
  split
  · dsimp only
    split
    · exact Dev.fireCmp_power ..
    · rfl
  · rfl

theorem Dev.writeLswInput_boot (h : d.lsw.limp = false) (c : Fin 16) (w : Word) : (d.writeLswInput c w).2.boot = d.boot :=
  Dev.boot_of (Dev.power_of_part (Dev.writeLswInput_part (by decide) ..)) (Dev.begun_of_part (Dev.writeLswInput_part (by decide) ..))
    (Dev.writeLswInput_lsw h c w)

theorem onIdx_boot {n : Nat} (i : Nat) {f : Fin n → CmdSt × Dev} (hk : ∀ u, (f u).2.boot = d.boot) : (onIdx d i f).2.boot = d.boot := by
  unfold onIdx
  split
  · exact hk _
  · rfl

/-- A write that the configuration load makes changes nothing of the start (R473). -/
theorem Dev.writeReg_none_boot (hl : d.lsw.limp = false) (g u : Nat) (r : RegAt) (addr : Nat) (data : Word) :
    (Dev.writeReg d none g u r addr data).2.boot = d.boot := by
  unfold Dev.writeReg
  (repeat' split) <;> first
    | contradiction
    | exact onIdx_boot _ fun c => Dev.writeCmpTarget_boot ..
    | exact onIdx_boot _ fun c => Dev.writeLswInput_boot hl ..
    | refine Dev.boot_of_parts fun pt htim hmtr hbil hplc hpnl _ _ _ _ => ?_
      simp only [Dev.gainWrite_part hmtr, Dev.writeAlmHi_part htim, Dev.writeBilCfg_part hbil, Dev.writeCmpCtrl_part htim,
        Dev.writeLswCfg_part, Dev.writeLswRetry_part, Dev.writeMem_part hpnl, Dev.writeMeter_part hbil, Dev.writeOffset_part htim,
        Dev.writePlcSetting_part hplc, Dev.writeQueEnds_part, Dev.writeSetting_part, Dev.writeWindow_part hpnl, Dev.clearFlags_part,
        Dev.writeView_part, onIdx_part, implies_true]

theorem Dev.recordWrite_boot (hl : d.lsw.limp = false) (addr : Nat) (v : Word) : (d.recordWrite addr v).2.boot = d.boot := by
  unfold Dev.recordWrite
  dsimp only
  split
  · rfl
  · split
    · rfl
    · split
      · rfl
      next r _ _ _ =>
        have h := Dev.writeReg_none_boot hl (addrGroup addr) (addrUnit addr) r (lattice (addrGroup addr) (addrUnit addr) (addrOff addr)) v
        generalize d.writeReg none (addrGroup addr) (addrUnit addr) r (lattice (addrGroup addr) (addrUnit addr) (addrOff addr)) v = w at h
        split <;> exact h

theorem Dev.rejectRecord_boot (d : Dev) (addr : Nat) : (d.rejectRecord addr).boot = d.boot := rfl

theorem Dev.applyRecord_boot (hl : d.lsw.limp = false) (addr : Nat) (v : Word) : (d.applyRecord addr v).boot = d.boot := by
  have h := Dev.recordWrite_boot hl addr v
  unfold Dev.applyRecord
  split
  next heq =>
    rw [heq] at h
    exact h
  next => rfl

theorem Dev.applyRecords_boot (k : Nat) : ∀ (a : Nat) {d : Dev}, d.lsw.limp = false → (Dev.applyRecords k a d).boot = d.boot := by
  induction k with
  | zero => exact fun _ _ _ => rfl
  | succ k ih =>
    intro a d hl
    unfold Dev.applyRecords
    have h1 : (if d.wordBad a then d.rejectRecord 0
        else d.applyRecord (fromLE (d.sto.mram.reads a 4)) (w32 (fromLE (d.sto.mram.reads (a + 4) 4)))).boot = d.boot := by
      split
      · rfl
      · exact Dev.applyRecord_boot hl ..
    exact (ih _ (Dev.limp_of_boot h1 hl)).trans h1

theorem Dev.withRejected_boot (d : Dev) (k : Nat) : ({ d with img := { d.img with cfgRejected := k } } : Dev).boot = d.boot := rfl

theorem Dev.withCfgDone_boot (d : Dev) (done : Bool) : ({ d with img := { d.img with cfgDone := done } } : Dev).boot = d.boot := rfl

theorem Dev.configLoad_boot (hl : d.lsw.limp = false) : d.configLoad.boot = d.boot := by
  unfold Dev.configLoad
  generalize maxRecords = most
  extract_lets d1
  have h1 : d1.boot = d.boot := by
    unfold d1
    split
    · exact (Dev.withRejected_boot ..).trans (Dev.applyRecords_boot _ _ hl)
    · rfl
  exact (Dev.withCfgDone_boot d1 true).trans h1

theorem Dev.bringUp_boot (hl : d.lsw.limp = false) : d.bringUp.boot = d.boot := by
  have hi : d.startIslands.boot = d.boot := Dev.boot_of_parts fun pt _ _ _ _ _ _ _ _ _ => Dev.startIslands_part d
  unfold Dev.bringUp
  split
  · exact (Dev.configLoad_boot (Dev.limp_of_boot hi hl)).trans hi
  · rfl

/-- Loading the system leaves what the power-on reset has set. -/
theorem Dev.loadSystem_boot (hl : d.lsw.limp = false) : d.loadSystem.boot = d.boot := by
  have hprep : d.romPrepare.boot = d.boot := Dev.boot_of (Dev.power_of_part (Dev.romPrepare_part (by decide) (by decide) (by decide) d))
    (Dev.begun_of_marks d.romPrepare_marks) (Dev.romPrepare_part (by decide) (by decide) (by decide) d)
  have hload : d.romPrepare.loadImage.boot = d.romPrepare.boot :=
    Dev.boot_of (Dev.power_of_part (Dev.loadImage_part (by decide) (by decide) (by decide) (by decide) _))
      (Dev.loadImage_begun _) (Dev.loadImage_part (by decide) (by decide) (by decide) (by decide) _)
  have hb := hload.trans hprep
  have hcal := Dev.boot_of_parts fun pt _ _ hbil _ _ _ _ _ _ => Dev.loadCalendar_part hbil d.romPrepare.loadImage.bringUp
  exact hcal.trans ((Dev.bringUp_boot (Dev.limp_of_boot hb hl)).trans hb)
end

/-! ### The reset and the restore of billing (R26, R520, R522) -/

section
variable {d : Dev}

theorem Dev.releaseReset_power (d : Dev) (cause : ColdCause) :
    (d.releaseReset cause).power = (false, coldCode cause, d.pwr.siltReset, d.pwr.pf) := rfl

theorem Dev.cleared_power (d : Dev) : d.cleared.pwr.siltReset = d.pwr.siltReset ∧ d.cleared.pwr.pf = false := ⟨rfl, rfl⟩

theorem Dev.cleared_begun (d : Dev) : d.cleared.begun = (false, false) ∧ d.cleared.lsw.limp = false ∧ d.cleared.idle = (false, [], []) :=
  ⟨rfl, rfl, rfl⟩

theorem Dev.restoreSlices_siltReset (d : Dev) : d.restoreSlices.pwr.siltReset = d.pwr.siltReset := rfl

/-- What a release of the power-on reset leaves (R26, R520). -/
theorem Dev.released_boot (d : Dev) (cause : ColdCause) :
    (d.startTime.releaseReset cause).boot = ((false, coldCode cause, d.pwr.siltReset, d.pwr.pf), d.begun, d.lsw) := by
  have hp : d.startTime.pwr = d.pwr := Dev.startTime_part (pt := .pwr) (by decide) d
  have hi : (d.startTime.releaseReset cause).begun = d.begun :=
    (Dev.begun_of_part (Dev.releaseReset_part (by decide) (by decide) (by decide) ..)).trans
      (Dev.begun_of_part (Dev.startTime_part (by decide) d))
  have hs : (d.startTime.releaseReset cause).lsw = d.lsw :=
    (Dev.releaseReset_part (pt := .lsw) (by decide) (by decide) (by decide) ..).trans (Dev.startTime_part (pt := .lsw) (by decide) d)
  unfold Dev.boot
  rw [Dev.releaseReset_power, hp, hi, hs]

theorem Dev.brought_boot (d : Dev) : d.servoStart.restartSpaces.startKeys.boot = d.boot :=
  Dev.boot_of_parts fun _ htim _ _ _ _ hque hkey htag _ => (Dev.startKeys_part hkey htag _).trans
    ((Dev.restartSpaces_part hque _).trans (Dev.servoStart_part htim d))

theorem Dev.restart_boot (d : Dev) (cause : ColdCause) : (d.restart cause).boot =
    ((false, coldCode cause, d.pwr.siltReset, false), (false, false), d.restoreSlices.cleared.lsw) := by
  obtain ⟨hsilt, hpf⟩ := d.restoreSlices.cleared_power
  obtain ⟨hbegun, -, -⟩ := d.restoreSlices.cleared_begun
  have h := (Dev.brought_boot _).trans (d.restoreSlices.cleared.released_boot cause)
  rw [hsilt, hpf, hbegun, Dev.restoreSlices_siltReset] at h
  exact h

theorem Dev.restart_kens (d : Dev) (cause : ColdCause) : (d.restart cause).kens = d.restoreSlices.cleared.kens :=
  Dev.kens_of_part ((Dev.startKeys_part (pt := .kao) (by decide) (by decide) _).trans ((Dev.restartSpaces_part (by decide) _).trans
    ((Dev.servoStart_part (by decide) _).trans ((Dev.releaseReset_part (by decide) (by decide) (by decide) ..).trans
      (Dev.startTime_part (by decide) _)))))

theorem Dev.restart_idle (d : Dev) (cause : ColdCause) : (d.restart cause).idle = (false, [], []) :=
  (Dev.startKeys_idle _).trans ((Dev.restartSpaces_idle _).trans ((Dev.servoStart_idle _).trans ((Dev.releaseReset_idle ..).trans
    ((Dev.startTime_idle _).trans d.restoreSlices.cleared_begun.2.2))))

theorem Dev.addDark_power (d : Dev) : d.addDark.power = d.power := by
  have h := Dev.countDark_part (pt := .pwr) (by decide) d.pwr.darkCount d
  unfold Dev.addDark
  split
  · rfl
  · extract_lets t d1 t1
    exact (rfl : _ = d1.power).trans (Dev.power_of_part h)

/-- The restore of billing marks itself done, and leaves the image and the power. -/
theorem Dev.restoreBilling_done (d : Dev) (silt failed : Bool) (tEnd : Nat) :
    (d.restoreBilling silt failed tEnd).marks = (d.img.started, true, d.img.loaded) ∧
      (d.restoreBilling silt failed tEnd).power = d.power := by
  unfold Dev.restoreBilling
  extract_lets d1 d2 d3 d4 d5 d5' d6 d7
  have h1 : ∀ {pt}, pt ≠ .que → pt ≠ .bil → pt ≠ .key → pt ≠ .sto → d1.part pt = d.part pt := by
    intro pt hque hbil hkey hsto
    unfold d1
    split
    · exact Dev.writeSaved_part hque hbil hkey hsto ..
    · rfl
  have h5 : ∀ {pt}, pt ≠ .bil → pt ≠ .sto → (if silt then d5'.tamper 1 none else d5').part pt = d1.part pt := by
    intro pt hbil hsto
    simp only [d5', d5, d4, d3, d2, Dev.buildKarurn_part hbil, Dev.resumeIntervals_part hbil, Dev.runMissed_part hbil hsto,
      Dev.setTariff_part hbil, Dev.tamper_part hbil, Dev.part_ite, ite_self, foldl_part, implies_true]
  have h7 : ∀ {pt}, pt ≠ .bil → pt ≠ .sto → d7.part pt = d6.part pt := by
    intro pt hbil hsto
    simp only [d7, Dev.commitBilling_part hbil hsto, Dev.reading_part hbil, foldl_part, implies_true]
  have himg : d7.img = d.img := (h7 (pt := .img) (by decide) (by decide)).trans ((Dev.addDark_part (pt := .img) (by decide)
    (by decide) _).trans
    ((h5 (by decide) (by decide)).trans (h1 (by decide) (by decide) (by decide) (by decide))))
  have hpwr : d7.power = d.power := (Dev.power_of_part (h7 (by decide) (by decide))).trans ((Dev.addDark_power _).trans
    ((Dev.power_of_part (h5 (by decide) (by decide))).trans (Dev.power_of_part (h1 (by decide) (by decide) (by decide) (by decide)))))
  clear_value d7
  have hmarks := congrArg (fun i : ImgState => (i.started, true, i.loaded)) himg
  exact ⟨hmarks, hpwr⟩

/-- After the restore step billing is restored exactly where an image is loaded (R222). -/
theorem Dev.restoreStep_done (d before : Dev) (hr : d.img.restoreDone = false) :
    (d.restoreStep before).marks = (d.img.started, d.img.loaded.isSome, d.img.loaded) ∧ (d.restoreStep before).power = d.power := by
  unfold Dev.restoreStep
  split
  case isTrue h =>
    rw [h]
    exact d.restoreBilling_done ..
  case isFalse h =>
    have hself : d.marks = (d.img.started, d.img.loaded.isSome, d.img.loaded) := by
      unfold Dev.marks
      rw [hr, Bool.eq_false_iff.2 h]
    split
    · exact ⟨(Dev.marks_of_part (Dev.tamper_part (by decide) ..)).trans hself, Dev.power_of_part (Dev.tamper_part (by decide) ..)⟩
    · exact ⟨hself, rfl⟩

theorem Dev.restoreStep_part {pt : Part} (himg : pt ≠ .img) (hque : pt ≠ .que) (hbil : pt ≠ .bil) (hkey : pt ≠ .key)
    (hsto : pt ≠ .sto) (hpwr : pt ≠ .pwr) (d before : Dev) : (d.restoreStep before).part pt = d.part pt := by
  unfold Dev.restoreStep
  split
  · exact Dev.restoreBilling_part himg hque hbil hkey hsto hpwr ..
  · split
    · exact Dev.tamper_part hbil ..
    · rfl

theorem Dev.restoreStep_idle (d before : Dev) : (d.restoreStep before).idle = d.idle := by
  unfold Dev.restoreStep
  split
  · exact Dev.restoreBilling_idle ..
  · split
    · exact Dev.tamper_idle ..
    · rfl

/-! ### The selection of the firmware slot (R478) -/

theorem Dev.romSelect_marks (k : Nat) : ∀ d : Dev, (Dev.romSelect k d).marks = d.marks := by
  induction k with
  | zero => exact fun _ => rfl
  | succ k ih =>
    intro d
    unfold Dev.romSelect
    split
    · rfl
    extract_lets d1 st d2
    have h1 : d1.marks = d.marks := by
      unfold d1
      split
      · exact Dev.marks_of_part (Dev.useKey_part (by decide) d 4)
      · rfl
    have h2 : d2.marks = d.marks := by
      unfold d2
      split
      · exact (Dev.setFw_marks ..).trans h1
      · exact h1
    split
    · exact (Dev.bootCommit_marks _).trans (Eq.trans (b := d2.marks) rfl h2)
    split
    · exact (ih _).trans ((Dev.fallBack_marks ..).trans h1)
    · exact (ih _).trans ((Dev.setFw_marks ..).trans h1)

theorem Dev.romSelect_part {pt : Part} (himg : pt ≠ .img) (hbil : pt ≠ .bil) (hkey : pt ≠ .key) (hsto : pt ≠ .sto) (k : Nat) (d : Dev) :
    (Dev.romSelect k d).part pt = d.part pt :=
  Dev.romSelect_keeps (fun d => d.part pt) (fun _ _ => Dev.part_mk_img himg) Dev.raiseImg_part (fun d => Dev.useKey_part hkey d 4)
    (Dev.setFw_part himg hsto) (Dev.fallBack_part himg hbil hsto) (Dev.bootCommit_part himg hsto) k d

theorem Dev.romSelect_idle (k : Nat) (d : Dev) : (Dev.romSelect k d).idle = d.idle := Dev.idle_of_control (Dev.romSelect_control k d)
end

/-! ### The commands -/

theorem Dev.boot_iff {e : Dev} {p : Bool × Nat × Bool × Bool} {m : Bool × Bool} {l : LswState} :
    e.boot = (p, m, l) ↔ e.power = p ∧ e.begun = m ∧ e.lsw = l := by
  unfold Dev.boot
  simp only [Prod.mk.injEq]

theorem Dev.begun_iff {e : Dev} {a b : Bool} : e.begun = (a, b) ↔ e.img.started = a ∧ e.img.restoreDone = b := by
  unfold Dev.begun
  rw [Prod.mk.injEq]

theorem Dev.marks_iff {e : Dev} {a b : Bool} {i : Option Image} :
    e.marks = (a, b, i) ↔ e.img.started = a ∧ e.img.restoreDone = b ∧ e.img.loaded = i := by
  unfold Dev.marks
  rw [Prod.mk.injEq, Prod.mk.injEq]

theorem Dev.power_iff {e : Dev} {a b c : Bool} {n : Nat} :
    e.power = (a, n, b, c) ↔ e.pwr.held = a ∧ e.pwr.coldCause = n ∧ e.pwr.siltFound = b ∧ e.pwr.pf = c := by
  unfold Dev.power
  rw [Prod.mk.injEq, Prod.mk.injEq, Prod.mk.injEq]

theorem Dev.idle_iff {e : Dev} {a : Bool} {b : List PendingCmd} {c : List HungAccess} :
    e.idle = (a, b, c) ↔ e.coreA1 = a ∧ e.busy = b ∧ e.hung = c := by
  unfold Dev.idle
  rw [Prod.mk.injEq, Prod.mk.injEq]

section
variable (d : Dev) (cause : ColdCause)

theorem Dev.loadSystem_restarts : (d.restart cause).loadSystem.power = (false, coldCode cause, d.pwr.siltReset, false) ∧
    (d.restart cause).loadSystem.begun = (false, false) ∧ (d.restart cause).loadSystem.lsw = d.restoreSlices.cleared.lsw := by
  have hboot := d.restart_boot cause
  obtain ⟨-, hlimp, -⟩ := d.restoreSlices.cleared_begun
  obtain ⟨-, -, hlsw⟩ := Dev.boot_iff.1 hboot
  rw [← hlsw] at hlimp
  exact Dev.boot_iff.1 ((Dev.loadSystem_boot hlimp).trans hboot)

/-- The power, the marks and the load switches after a cold reset. -/
theorem Dev.coldReset_boot : (d.coldReset cause).power = (false, coldCode cause, d.pwr.siltReset, false) ∧
    (d.coldReset cause).img.started = false ∧ (d.coldReset cause).img.restoreDone = (d.coldReset cause).img.loaded.isSome ∧
    (d.coldReset cause).lsw = d.restoreSlices.cleared.lsw := by
  obtain ⟨hpower, hbegun, hlsw⟩ := d.loadSystem_restarts cause
  unfold Dev.coldReset
  generalize (d.restart cause).loadSystem = l at hpower hbegun hlsw ⊢
  obtain ⟨hst, hr⟩ := Dev.begun_iff.1 hbegun
  obtain ⟨hmarks, hkeeps⟩ := l.restoreStep_done d hr
  have hsw : (l.restoreStep d).lsw = l.lsw :=
    Dev.restoreStep_part (pt := .lsw) (by decide) (by decide) (by decide) (by decide) (by decide) (by decide) l d
  generalize l.restoreStep d = m at hmarks hkeeps hsw ⊢
  obtain ⟨hstarted, hdone, hloaded⟩ := Dev.marks_iff.1 ((Dev.romSelect_marks 4 m).trans hmarks)
  refine ⟨?_, hstarted.trans hst, hdone.trans (congrArg Option.isSome hloaded).symm, ?_⟩
  · exact (Dev.power_of_part (Dev.romSelect_part (by decide) (by decide) (by decide) (by decide) 4 m)).trans (hkeeps.trans hpower)
  · exact (Dev.romSelect_part (pt := .lsw) (by decide) (by decide) (by decide) (by decide) 4 m).trans (hsw.trans hlsw)

theorem Dev.coldReset_kens : (d.coldReset cause).kens = d.restoreSlices.cleared.kens :=
  (Dev.kens_of_part (Dev.romSelect_part (by decide) (by decide) (by decide) (by decide) 4 _)).trans
    ((Dev.kens_of_part (Dev.restoreStep_part (by decide) (by decide) (by decide) (by decide) (by decide) (by decide) _ d)).trans
      ((Dev.loadSystem_kens _).trans (d.restart_kens cause)))

theorem Dev.coldReset_idle : (d.coldReset cause).idle = (false, [], []) :=
  (Dev.romSelect_idle 4 _).trans ((Dev.restoreStep_idle _ d).trans ((Dev.loadSystem_idle _).trans (d.restart_idle cause)))
end

theorem Dev.tryStartFunc_img (d : Dev) (g : Group) (u : Nat) : (d.tryStartFunc g u).img = d.img := by
  unfold Dev.tryStartFunc
  split
  · exact Dev.startFunc_part (pt := .img) (by decide) (by decide) (by decide) (by decide) (by decide) (by decide) (by decide)
      (by decide) d g u
  · rfl

theorem Dev.tryAll_img (l : List (Group × Nat)) (d : Dev) :
    (l.foldl (fun (acc : Dev) (f : Group × Nat) => acc.tryStartFunc f.1 f.2) d).img = d.img :=
  foldl_rel l _ (fun a b => a.img = b.img) d rfl fun a f h => (a.tryStartFunc_img f.1 f.2).trans h

/-- Settles O9: the reset clears the core, the drivers and the switches, and what follows it, up to the selection of the firmware,
leaves them so. -/
theorem startUp : Obligations.StartUp := by
  unfold Obligations.StartUp
  refine ⟨fun cause s => ?_, fun s hload hcfg hdone hst hheld hnow harea => ?_⟩
  · obtain ⟨hpower, hstarted, hrestored, hlsw⟩ := s.dev.coldReset_boot cause
    obtain ⟨hopen, hoff⟩ := s.dev.restoreSlices.cleared_open
    obtain ⟨hheld, hcause, hsilt, hpf⟩ := Dev.power_iff.1 hpower
    obtain ⟨hcore, hbusy, hhung⟩ := Dev.idle_iff.1 (s.dev.coldReset_idle cause)
    have hkens := s.dev.coldReset_kens cause
    have hexec : exec (.coldReset cause) s = .next (s.put (s.dev.coldReset cause)) := rfl
    generalize s.dev.coldReset cause = e at *
    refine ⟨s.put e, hexec, rfl, hheld, hcause, hsilt, hpf, hstarted, hrestored, hcore, hbusy, hhung, fun n => ?_,
      fun c => ?_⟩
    · exact (Dev.ken_of_kens hkens n).trans (hopen n)
    · exact (congrArg (fun x : LswState => (x.c[c]).st) hlsw).trans (hoff c)
  · have hgo : s.dev.autoStart = hardwareFunctions.foldl (fun (acc : Dev) (f : Group × Nat) => acc.tryStartFunc f.1 f.2)
        { s.dev with img := { s.dev.img with started := true } } :=
      (if_pos ⟨hload, hcfg, hdone, congrArg not hst, congrArg not hheld, hnow⟩).trans (if_pos harea)
    have hexec := next_put (s := s) hgo
    generalize hardwareFunctions = fs at hexec ⊢
    refine ⟨s.put _, hexec, ?_, rfl⟩
    exact (congrArg ImgState.started (Dev.tryAll_img fs _) :)

end Sys2Proof.Machine
end
